-- ==== Sys2Proof/Word.lean ====
section
/-! DEFINITION. The words the model is made of: bytes, halves, indexes, message headers and the
record types that both the commands (Syntax.lean) and the state (Machine/State.lean) use. -/

namespace Sys2Proof

/-- A byte (R7: little-endian wherever several stand together). -/
abbrev Byte := BitVec 8

/-- A 52-bit system address (R74). -/
abbrev Sa := BitVec 52

/-- A 48-bit partition virtual address (R95). -/
abbrev Pva := BitVec 48

/-- A partition number, 0 the supervisor (R10). -/
abbrev Part := BitVec 5

/-- A partner port P0 to P5 (R10). -/
abbrev PartnerPort := Fin 6

/-- Any port: 0 to 5 are P0 to P5, 6 and 7 are F0 and F1. -/
abbrev PortId := Fin 8

/-- A physical thread index 36h + 4c + t (R213). -/
abbrev ThreadId := Fin 72

/-- The two halves of the slice (R10). -/
inductive Half where
  | e
  | w
  deriving DecidableEq, Repr, Inhabited

/-- A table with a value for every index: the pairs listed, and a default for every index not listed.
Canonical form (Machine/Tab.lean): indexes strictly rising, no entry equal to the default. -/
abbrev Tab (α : Type) := List (Nat × α)

/-- Operand fields of a Troxo instruction word (R245); OP is the command itself. -/
structure TFields where
  d : BitVec 5
  a : BitVec 5
  b : BitVec 5
  v : BitVec 4
  c : BitVec 5
  imm : BitVec 32
  deriving DecidableEq, Repr, Inhabited

/-- Who makes a control-window access; each has its own LOOP_TIME latch (R72). -/
inductive Requester where
  | port (p : PartnerPort)
  | thread (t : ThreadId)
  | svet
  | boot
  deriving DecidableEq, Repr, Inhabited

/-- The common header fields of a partner request (R287), with the port and the traffic class it arrives in. -/
structure PHdr where
  port : PartnerPort
  cls : Fin 4
  tag : BitVec 12
  part : Part
  sa : Sa
  deriving DecidableEq, Repr, Inhabited

/-- Credit counts of C0, C1, C2, C3 and the invalidation sub-channel (R285). -/
structure Credits where
  c0 : BitVec 16
  c1 : BitVec 16
  c2 : BitVec 16
  c3 : BitVec 16
  invsc : BitVec 16
  deriving DecidableEq, Repr, Inhabited

/-- The content of a LINKCFG (R295). -/
structure LinkCfg where
  role : BitVec 8
  port : BitVec 8
  slice : BitVec 8
  width : BitVec 8
  credits : Credits
  proto : BitVec 16
  deriving DecidableEq, Repr, Inhabited

/-- What a lane's equalizer is adapted to: its CTLE peaking code and its DFE taps, as one word (R59; log entry 132). -/
structure LaneEq where
  ctle : BitVec 16
  taps : BitVec 16
  deriving DecidableEq, Repr, Inhabited

/-- The end of a port's training (R296): the logical lanes found failed, and what each lane's equalizer has adapted to, from
lane 0 on. -/
structure Trained where
  port : PortId
  failed : BitVec 16
  eq : List LaneEq
  deriving DecidableEq, Repr, Inhabited

/-- An entry of a shared structure (R328, R343): the half, and the entry's number there. -/
structure EntryOf where
  half : Half
  index : BitVec 16
  deriving DecidableEq, Repr, Inhabited

/-- A flit as received: its header fields and its 62 content bytes (R282). -/
structure Flit where
  kind : BitVec 2
  cls : Fin 4
  sof : Bool
  eof : Bool
  invsc : Bool
  content : BitVec 496
  deriving DecidableEq, Repr, Inhabited

/-- How one AVSBus transaction ends (R55, R57); without a value it failed the AVSBus CRC or got no response. -/
inductive AvsResult where
  /-- the oldest voltage write still unanswered was committed, or failed -/
  | written (ok : Bool)
  /-- a voltage read returns, in mV -/
  | voltage (mv : Option (BitVec 16))
  /-- a status read returns: whether the regulator reports a fault -/
  | status (fault : Option Bool)
  deriving DecidableEq, Repr, Inhabited

/-- What the loader learns from the flash in discovery (R388). -/
structure Sfdp where
  /-- the flash answers at all -/
  present : Bool
  /-- a valid SFDP header with a BFPT of major revision 1 and at least 9 DWORDs -/
  valid : Bool
  /-- density below 128 Mbit, or 4-byte addressing only -/
  tooSmall : Bool
  /-- the 1-4-4 fast read is listed -/
  has144 : Bool
  /-- the quad-enable requirement of DWORD 15 is 0 -/
  qer0 : Bool
  /-- a status read shows the QE bit set -/
  qeSet : Bool
  eraseLog2 : BitVec 5
  /-- log2 of the page size when DWORD 11 is present -/
  pageLog2 : Option (BitVec 5)
  deriving DecidableEq, Repr, Inhabited

/-- Which translation a thread's waiting access is for: the instruction itself or one of its two streams. -/
inductive XlSrc where
  | instr
  | stream (slot : Fin 2)
  deriving DecidableEq, Repr, Inhabited

/-- The two image slots of the flash (R389). -/
inductive Slot where
  | a
  | b
  deriving DecidableEq, Repr, Inhabited

end Sys2Proof
end

