-- ==== Sys2Proof/Syntax.lean ====
section
/-! DEFINITION. The commands: one constructor for each row of spec/opcode_table.json, in the table's order, with
the row's operands. A Troxo instruction names the physical thread that issues it and carries the fields of its word
(R245); a message carries its header and payload; a timer or engine step names the unit it happens in. -/

namespace Sys2Proof

inductive Instr where
  /-- ADD (R255). -/
  | add (t : ThreadId) (f : TFields)
  /-- SUB (R255). -/
  | sub (t : ThreadId) (f : TFields)
  /-- MUL (R255). -/
  | mul (t : ThreadId) (f : TFields)
  /-- DIV (R255). -/
  | div (t : ThreadId) (f : TFields)
  /-- REM (R255). -/
  | rem (t : ThreadId) (f : TFields)
  /-- AND (R255). -/
  | and_ (t : ThreadId) (f : TFields)
  /-- OR (R255). -/
  | or_ (t : ThreadId) (f : TFields)
  /-- XOR (R255). -/
  | xor (t : ThreadId) (f : TFields)
  /-- SHL (R255). -/
  | shl (t : ThreadId) (f : TFields)
  /-- SHR (R255). -/
  | shr (t : ThreadId) (f : TFields)
  /-- SAR (R255). -/
  | sar (t : ThreadId) (f : TFields)
  /-- SET (R255). -/
  | set_ (t : ThreadId) (f : TFields)
  /-- LIH (R255). -/
  | lih (t : ThreadId) (f : TFields)
  /-- ADDPC (R255). -/
  | addpc (t : ThreadId) (f : TFields)
  /-- BR (R257). -/
  | br (t : ThreadId) (f : TFields)
  /-- JMP (R257). -/
  | jmp (t : ThreadId) (f : TFields)
  /-- CALL (R257). -/
  | call (t : ThreadId) (f : TFields)
  /-- JR (R257). -/
  | jr (t : ThreadId) (f : TFields)
  /-- LOOP (R257). -/
  | loop (t : ThreadId) (f : TFields)
  /-- LD (R258). -/
  | ld (t : ThreadId) (f : TFields)
  /-- ST (R258). -/
  | st (t : ThreadId) (f : TFields)
  /-- LDL (R258). -/
  | ldl (t : ThreadId) (f : TFields)
  /-- STL (R258). -/
  | stl (t : ThreadId) (f : TFields)
  /-- AADD (R261). -/
  | aadd (t : ThreadId) (f : TFields)
  /-- ACAS (R261). -/
  | acas (t : ThreadId) (f : TFields)
  /-- ASWP (R261). -/
  | aswp (t : ThreadId) (f : TFields)
  /-- AMIN (R261). -/
  | amin (t : ThreadId) (f : TFields)
  /-- AMAX (R261). -/
  | amax (t : ThreadId) (f : TFields)
  /-- ADDL (R262). -/
  | addl (t : ThreadId) (f : TFields)
  /-- SMOV (R263). -/
  | smov (t : ThreadId) (f : TFields)
  /-- SWAIT (R263). -/
  | swait (t : ThreadId) (f : TFields)
  /-- SPOLL (R263). -/
  | spoll (t : ThreadId) (f : TFields)
  /-- SRESUME (R263). -/
  | sresume (t : ThreadId) (f : TFields)
  /-- SCANCEL (R263). -/
  | scancel (t : ThreadId) (f : TFields)
  /-- HINT (R264). -/
  | hint (t : ThreadId) (f : TFields)
  /-- MELT (R264). -/
  | melt (t : ThreadId) (f : TFields)
  /-- PREF (R264). -/
  | pref (t : ThreadId) (f : TFields)
  /-- PLOW (R265). -/
  | plow (t : ThreadId) (f : TFields)
  /-- BALLOC (R266). -/
  | balloc (t : ThreadId) (f : TFields)
  /-- BFREE (R267). -/
  | bfree (t : ThreadId) (f : TFields)
  /-- FENCE (R208). -/
  | fence (t : ThreadId) (f : TFields)
  /-- IFENCE (R220). -/
  | ifence (t : ThreadId) (f : TFields)
  /-- SEMS (R269). -/
  | sems (t : ThreadId) (f : TFields)
  /-- SEMW (R269). -/
  | semw (t : ThreadId) (f : TFields)
  /-- WAITT (R270). -/
  | waitt (t : ThreadId) (f : TFields)
  /-- CSRR (R254). -/
  | csrr (t : ThreadId) (f : TFields)
  /-- CSRW (R254). -/
  | csrw (t : ThreadId) (f : TFields)
  /-- EPOCH (R273). -/
  | epoch (t : ThreadId) (f : TFields)
  /-- TRAP (R274). -/
  | trap (t : ThreadId) (f : TFields)
  /-- YIELD (R233). -/
  | yield (t : ThreadId) (f : TFields)
  /-- HALT (R225). -/
  | halt (t : ThreadId) (f : TFields)
  /-- CKTAG (R275). -/
  | cktag (t : ThreadId) (f : TFields)
  /-- THREAD_ACCESS_COMPLETE (R206): outstanding access number `k` of thread `t`. -/
  | threadAccessComplete (t : ThreadId) (k : Nat)
  /-- THAW (R242): the wait of thread `t`. -/
  | thaw (t : ThreadId)
  /-- WAIT_REEVALUATE (R271). -/
  | waitReevaluate (t : ThreadId)
  /-- STREAM_UNIT_COMPLETE (R238): unit number `unit` of the stream in `slot`. -/
  | streamUnitComplete (t : ThreadId) (slot : Fin 2) (unit : Nat)
  /-- TRANSLATION_MISS (R107). -/
  | translationMiss (t : ThreadId) (src : XlSrc)
  /-- WALK_TABLE_READ (R102): walk number `k` in flight in half `h`. -/
  | walkTableRead (h : Half) (k : Nat)
  /-- XLT_INV (R110): the writer's partition and the 64 bits written. -/
  | xltInv (part : Part) (v : BitVec 64)
  /-- XLT_INV_COMPLETE (R111). -/
  | xltInvComplete
  /-- DOORBELL_TAIL (R222): writer's partition, queue, new TAIL. -/
  | doorbellTail (part : Part) (q : Fin 128) (v : BitVec 32)
  /-- DOORBELL_RESUME (R233). -/
  | doorbellResume (part : Part) (p : Part) (slot : BitVec 6)
  /-- DOORBELL_DISCARD (R233). -/
  | doorbellDiscard (part : Part) (p : Part) (slot : BitVec 6)
  /-- TQ_CTL_WRITE (R221). -/
  | tqCtlWrite (q : Fin 128) (v : BitVec 32)
  /-- DISPATCH (R226): `k` names which free thread of the half takes the task (R215 edges: not specified). -/
  | dispatch (h : Half) (k : Fin 36)
  /-- DESCRIPTOR_FETCH (R223). -/
  | descriptorFetch (t : ThreadId)
  /-- SAVE_RECORD_DONE (R228). -/
  | saveRecordDone (t : ThreadId)
  /-- RESTORE (R231). -/
  | restore (t : ThreadId)
  /-- RDS (R288). -/
  | rds (m : PHdr) (melt : Bool)
  /-- RDL (R288). -/
  | rdl (m : PHdr) (melt : Bool)
  /-- RDRO (R288): `line` is VAR[0]. -/
  | rdro (m : PHdr) (line : Bool) (melt : Bool)
  /-- WRS (R288). -/
  | wrs (m : PHdr) (data : BitVec 256)
  /-- WRM (R288). -/
  | wrm (m : PHdr) (mask : BitVec 32) (data : BitVec 256)
  /-- WRL (R288). -/
  | wrl (m : PHdr) (data : BitVec 1024)
  /-- WRB (R290). -/
  | wrb (m : PHdr) (chk : Bool) (ctag : BitVec 32) (data : BitVec 32768)
  /-- LINK_AADD (R174). -/
  | linkAadd (m : PHdr) (wide : Bool) (v : BitVec 64)
  /-- LINK_ACAS (R174). -/
  | linkAcas (m : PHdr) (wide : Bool) (v cmp : BitVec 64)
  /-- LINK_ASWP (R174). -/
  | linkAswp (m : PHdr) (wide : Bool) (v : BitVec 64)
  /-- LINK_AMIN (R174). -/
  | linkAmin (m : PHdr) (wide signed : Bool) (v : BitVec 64)
  /-- LINK_AMAX (R174). -/
  | linkAmax (m : PHdr) (wide signed : Bool) (v : BitVec 64)
  /-- LINK_ADDL (R186): VAR is the format, AUX the tag or 0. -/
  | linkAddl (m : PHdr) (fmt : BitVec 3) (atag : BitVec 32) (data : BitVec 1024)
  /-- ALLOC (R161). -/
  | alloc (m : PHdr) (sel : BitVec 2) (wait : Bool)
  /-- FREE (R167). -/
  | free (m : PHdr)
  /-- INV_ACK (R198). -/
  | invAck (port : PartnerPort) (tag : BitVec 12) (sa : Sa)
  /-- REPLICA_INSTALL (R144): `h` is the arrival half. -/
  | replicaInstall (h : Half)
  /-- REPLICA_DROP_NOTICE (R144): `h` is the home half. -/
  | replicaDropNotice (h : Half)
  /-- REPLICA_INVALIDATE (R144): `h` is the half that holds the replica. -/
  | replicaInvalidate (h : Half)
  /-- LINKCFG (R295). -/
  | linkcfg (n : PortId) (cfg : LinkCfg)
  /-- PING (R298). -/
  | ping (n : PortId)
  /-- PONG (R298). -/
  | pong (n : PortId)
  /-- PING_SEND (R298). -/
  | pingSend (n : PortId)
  /-- PING_TIMEOUT (R298). -/
  | pingTimeout (n : PortId)
  /-- FILLD (R292): the sectors of `mask` stand in their places in `data`. -/
  | filld (f : Fin 2) (tag : BitVec 12) (sa : Sa) (status : BitVec 8) (poison mask : BitVec 4) (crc : Option (BitVec 32)) (data : BitVec 1024)
  /-- WACK (R292). -/
  | wack (f : Fin 2) (tag : BitVec 12) (sa : Sa) (status : BitVec 8)
  /-- ACCEPT (R137). -/
  | accept (f : Fin 2) (tag : BitVec 12) (sa : Sa)
  /-- DECLINE (R137). -/
  | decline (f : Fin 2) (tag : BitVec 12) (sa : Sa)
  /-- OFFER_TIMEOUT (R137). -/
  | offerTimeout (h : Half) (tag : BitVec 12)
  /-- SERR (R329): `lines` is the count minus 1. -/
  | serr (f : Fin 2) (tag : BitVec 12) (sa : Sa) (lines : BitVec 16) (etype : BitVec 8)
  /-- SHELF_RESPONSE_TIMEOUT (R318). -/
  | shelfResponseTimeout (f : Fin 2) (tag : BitVec 12)
  /-- BLOCK_RECEIVED (R280): `good`: both codewords decoded and the CRC passed. -/
  | blockReceived (n : PortId) (good : Bool) (corrected : List (Fin 16)) (bseq : BitVec 8) (flits : List Flit)
  /-- ACK (R294). -/
  | ack (n : PortId) (seq : BitVec 10) (cred : Credits)
  /-- NAK (R294). -/
  | nak (n : PortId) (seq : BitVec 10) (cred : Credits)
  /-- ACK_SEND_TIMER (R294). -/
  | ackSendTimer (n : PortId)
  /-- REPLAY_TIMEOUT (R294). -/
  | replayTimeout (n : PortId)
  /-- RECAL_REQ (R297). -/
  | recalReq (n : PortId)
  /-- SPARE_SWITCH (R299). -/
  | spareSwitch (n : PortId) (lane : BitVec 5) (spare : Bool) (block : BitVec 10)
  /-- SPARE_MARGIN_TIMEOUT (R299). -/
  | spareMarginTimeout (n : PortId)
  /-- SIGNAL_DETECT (R296). -/
  | signalDetect (n : PortId)
  /-- TRAIN_DONE (R296). -/
  | trainDone (r : Trained)
  /-- TRAIN_TIMEOUT (R296). -/
  | trainTimeout (n : PortId)
  /-- CONFIG_TIMEOUT (R296). -/
  | configTimeout (n : PortId)
  /-- RECAL_DONE (R297). -/
  | recalDone (n : PortId)
  /-- RECAL_TIMEOUT (R298). -/
  | recalTimeout (n : PortId)
  /-- NO_VALID_BLOCK_TIMEOUT (R297). -/
  | noValidBlockTimeout (n : PortId)
  /-- DOWN_QUIET_END (R296). -/
  | downQuietEnd (n : PortId)
  /-- INV_TIMEOUT (R201). -/
  | invTimeout (port : PartnerPort)
  /-- SHARER_CLEAR_DONE (R202): sharer bit `k`. -/
  | sharerClearDone (k : Fin 24)
  /-- PPT_RECAL (R300). -/
  | pptRecal (n : PortId)
  /-- PPT_FORCE_DOWN (R300). -/
  | pptForceDown (n : PortId)
  /-- PPT_SPARE (R299). -/
  | pptSpare (n : PortId) (lane : BitVec 5)
  /-- PLL_LOCK (R70). -/
  | pllLock
  /-- PLL_LOCK_LOSS (R70). -/
  | pllLockLoss
  /-- XTAL_FAIL (R73). -/
  | xtalFail
  /-- LOOP_TIME_LOW_READ (R72). -/
  | loopTimeLowRead (r : Requester)
  /-- LOOP_TIME_HIGH_READ (R72). -/
  | loopTimeHighRead (r : Requester)
  /-- LRS_EVALUATE (R54): the results of the four rings, before conversion. -/
  | lrsEvaluate (h : Half) (seqR tagR dataR linkR : BitVec 16)
  /-- AVS_READBACK (R57). -/
  | avsReadback (h : Half) (r : AvsResult)
  /-- EQ_LOOP_EVALUATE (R59, R60) of EQ_F or EQ_P: the lane adapted last, the DFE taps it adapted to, whether one of them stands at the
  end of its range, and the CTLE code it adapted to. -/
  | eqLoopEvaluate (pool : Bool) (n : PortId) (lane : Fin 16) (taps : BitVec 16) (dfeEnd : Bool) (code : BitVec 16)
  /-- SCRUB_LOOP_EVALUATE (R62). -/
  | scrubLoopEvaluate (h : Half)
  /-- REFR_LOOP_EVALUATE (R64). -/
  | refrLoopEvaluate (h : Half)
  /-- PREF_LOOP_EVALUATE (R62). -/
  | prefLoopEvaluate (h : Half)
  /-- SLOT_LOOP_EVALUATE (R62). -/
  | slotLoopEvaluate (h : Half)
  /-- DRIFT_LOOP_EVALUATE (R67). -/
  | driftLoopEvaluate (h : Half)
  /-- SENSOR_RESULT (R39). -/
  | sensorResult (n : Fin 24) (temp : BitVec 12)
  /-- WINDOW_END (R307). -/
  | windowEnd
  /-- ARRAY_GRANT (R303): which candidates have a request ready. -/
  | arrayGrant (h : Half) (ready : BitVec 22) (unreg plow : Bool)
  /-- EPOCH_ADVANCE (R311). -/
  | epochAdvance
  /-- UNIT_EPOCH_SWITCH (R314): unit number of R314. -/
  | unitEpochSwitch (u : Fin 26)
  /-- CLEAN (R150): the arguments are CCH_PLOW_ARG0 and ARG1 (R149). -/
  | clean (scope : BitVec 2) (part : Part)
  /-- INVALIDATE (R150). -/
  | invalidate (scope : BitVec 2) (part : Part)
  /-- FLUSH (R150). -/
  | flush (scope : BitVec 2) (part : Part)
  /-- DEMOTE (R150). -/
  | demote (scope : BitVec 2) (part : Part)
  /-- MELT_RANGE (R150). -/
  | meltRange (scope : BitVec 2) (part : Part)
  /-- REGROUP_ENTRY (R152). -/
  | regroupEntry (h : Half)
  /-- REGROUP_OWNER (R153). -/
  | regroupOwner (h : Half)
  /-- REGROUP_REGION (R153). -/
  | regroupRegion
  /-- PLOW_LINE_STEP (R151): the line, by its array index. -/
  | plowLineStep (h : Half) (key : Nat)
  /-- PLOW_COMMAND_DONE (R148). -/
  | plowCommandDone
  /-- REGION_CONVERSION_DONE (R170). -/
  | regionConversionDone (r : Fin 384)
  /-- ADDL_APPLY (R184): position in the ATU queue. -/
  | addlApply (h : Half) (k : Nat)
  /-- ATOMIC_PERFORM (R177): position in the list of atomics in progress. -/
  | atomicPerform (h : Half) (k : Nat)
  /-- ORD_TIMEOUT (R188). -/
  | ordTimeout (n : Fin 32)
  /-- ORD_CTL_WRITE (R189). -/
  | ordCtlWrite (n : Fin 32) (v : BitVec 32)
  /-- SCRUB_DONE (R165): the block. -/
  | scrubDone (b : Fin 393216)
  /-- ALLOC_WAITER_THAW (R166): position in the wait queue. -/
  | allocWaiterThaw (h : Half) (k : Nat)
  /-- BUF_RELEASE (R169). -/
  | bufRelease (part : Part)
  /-- DRAIN (R172). -/
  | drain (r : Fin 384) (on : Bool)
  /-- PATROL_STEP (R323). -/
  | patrolStep (h : Half)
  /-- REFRESH (R325). -/
  | refresh (die : Fin 6)
  /-- ERROR_INJECT_ARM (R346): the value written to INT_INJ_CTL, ARM among its bits. -/
  | errorInjectArm (v : BitVec 32)
  /-- INT_PRST_GO (R338). -/
  | intPrstGo (part : Part)
  /-- PARTITION_RESET (R337). -/
  | partitionReset
  /-- PARTITION_RESET_DONE (R337). -/
  | partitionResetDone
  /-- IDLE_STEP (R348). -/
  | idleStep (h : Half) (t : Fin 22)
  /-- FORCED_STEP (R348). -/
  | forcedStep (h : Half) (t : Fin 22)
  /-- TEST_STEP_DONE (R351): the signature found; for a half-link group, the lane that the lane-by-lane repeat names. -/
  | testStepDone (h : Half) (t : Fin 22) (sig : BitVec 32) (lane : Fin 32)
  /-- CORE_SWAP_IN (R357): which of the four moved thread states pass their CRC at the spare. -/
  | coreSwapIn (h : Half) (crcOk : BitVec 4)
  /-- TST_SWAP (R360). -/
  | tstSwap (h : Half) (t : BitVec 5)
  /-- TST_PACK_LOAD (R355). -/
  | tstPackLoad
  /-- PACK_LOAD_DONE (R355). -/
  | packLoadDone
  /-- TST_CALVE_GO (R361). -/
  | tstCalveGo (die : BitVec 3) (bank : BitVec 5)
  /-- CALVE_ROW_COPY (R362). -/
  | calveRowCopy (die : Fin 6) (verified : Bool)
  /-- REGION_RETIRE (R364). -/
  | regionRetire (die : Fin 6) (bank : Fin 32)
  /-- REPAIR_RECORD_PROGRAM (R367). -/
  | repairRecordProgram (ok : Bool)
  /-- AGE_MEASURE (R369). -/
  | ageMeasure (n : Fin 8) (degr : BitVec 16)
  /-- PWRGOOD_DEASSERT (R374). -/
  | pwrgoodDeassert
  /-- VAON_POWER_ON (R376). -/
  | vaonPowerOn
  /-- RESET_N_ASSERT (R376). -/
  | resetNAssert
  /-- RESET_N_DEASSERT (R29): the strap pins. -/
  | resetNDeassert (sid : BitVec 8) (bootSel : BitVec 2)
  /-- PWR_RST_WARM (R381): the value written to PWR_RST_CMD. -/
  | pwrRstWarm (v : BitVec 32)
  /-- WARM_RESET (R378). -/
  | warmReset
  /-- WARM_DRAIN_DONE (R378). -/
  | warmDrainDone
  /-- DRAIN_TMO (R378). -/
  | drainTmo
  /-- FATAL_RESET (R379): the shared structure whose entry is uncorrectable (R328). -/
  | fatalReset (structure_ : BitVec 8) (entry : EntryOf)
  /-- COLD_RESET (R380). -/
  | coldReset
  /-- DOMAIN_ON (R386). -/
  | domainOn (d : BitVec 4) (force : Bool) (gen : BitVec 16)
  /-- DOMAIN_OFF (R384). -/
  | domainOff (d : BitVec 4) (force : Bool) (gen : BitVec 16)
  /-- DOMAIN_DRAIN_END (R384). -/
  | domainDrainEnd
  /-- DOMAIN_ON_DONE (R386). -/
  | domainOnDone
  /-- ARRAY_RESTORE_DONE (R386). -/
  | arrayRestoreDone (die : Fin 6)
  /-- ARRAY_SWEEP_DONE (R385). -/
  | arraySweepDone
  /-- UNIT_PORT_DISABLE (R422). -/
  | unitPortDisable (u : BitVec 6) (gen : BitVec 16)
  /-- UNIT_PORT_ENABLE (R422). -/
  | unitPortEnable (u : BitVec 6) (gen : BitVec 16)
  /-- UNIT_RECAL (R422). -/
  | unitRecal (u : BitVec 6) (gen : BitVec 16)
  /-- UNIT_FORCE_DOWN (R422). -/
  | unitForceDown (u : BitVec 6) (gen : BitVec 16)
  /-- UNIT_FAIL (R422). -/
  | unitFail (u : BitVec 6) (gen : BitVec 16)
  /-- FLASH_DISCOVERY (R388). -/
  | flashDiscovery (f : Sfdp)
  /-- PLL_WAIT_TIMEOUT (R387). -/
  | pllWaitTimeout
  /-- IMAGE_READ_DONE (R392). -/
  | imageReadDone (slot : Slot)
  /-- BOOT_APPLY (R394). -/
  | bootApply
  /-- SUPERVISOR_START (R396). -/
  | supervisorStart
  /-- UART_CHAR_RECEIVED (R404). -/
  | uartCharReceived (ch : BitVec 9) (parityBad stopLow : Bool)
  /-- UART_IDLE (R404). -/
  | uartIdle
  /-- UART_BREAK (R408). -/
  | uartBreak
  /-- UART_CHAR_TRANSMITTED (R405). -/
  | uartCharTransmitted
  /-- UART_DATA_WRITE (R407). -/
  | uartDataWrite (v : BitVec 32)
  /-- UART_DATA_READ (R407). -/
  | uartDataRead
  /-- SVET_FRAME_TIMEOUT (R410). -/
  | svetFrameTimeout
  /-- SVET_ID (R412). -/
  | svetId
  /-- SVET_RD (R413): [23:0] offset, [31] 64-bit. -/
  | svetRd (arg : BitVec 32)
  /-- SVET_WR (R413). -/
  | svetWr (arg : BitVec 32) (v : BitVec 64)
  /-- SVET_STATE (R412). -/
  | svetState (u : BitVec 8)
  /-- SVET_UNIT (R412). -/
  | svetUnit (u op : BitVec 8) (gen : BitVec 16)
  /-- SVET_DOM (R412). -/
  | svetDom (d flags : BitVec 8) (gen : BitVec 16)
  /-- SVET_EPOCH (R412). -/
  | svetEpoch
  /-- SVET_RESET (R412). -/
  | svetReset (key : BitVec 8)
  /-- SVET_LOG (R412). -/
  | svetLog (k : BitVec 32)
  /-- SVET_LOGACK (R412). -/
  | svetLogack (head : BitVec 32)
  /-- SVET_CNT_READ (R412). -/
  | svetCntRead (first n : BitVec 8)
  /-- SVET_CNT_READ_SNAPSHOT (R412). -/
  | svetCntReadSnapshot (first n : BitVec 8)
  /-- SVET_CNT_SNAPSHOT (R412). -/
  | svetCntSnapshot (first n : BitVec 8)
  /-- SVET_CNT_RESET (R412). -/
  | svetCntReset (first n : BitVec 8)
  /-- SVET_CNT_SNAPSHOT_RESET (R412). -/
  | svetCntSnapshotReset (first n : BitVec 8)
  /-- MBPUT (R415). -/
  | mbput (data : List Byte)
  /-- MBGET (R415). -/
  | mbget
  /-- FLRD (R414). -/
  | flrd (off : BitVec 32) (len : BitVec 16)
  /-- FLER (R414): `ok`: the flash reports the erase done and it reads back. -/
  | fler (off : BitVec 32) (count : BitVec 16) (ok : Bool)
  /-- FLPR (R414). -/
  | flpr (off : BitVec 32) (data : List Byte) (ok : Bool)
  /-- SVET_BOOT (R397). -/
  | svetBoot
  /-- REPERASE (R414). -/
  | reperase (key : BitVec 8) (ok : Bool)
  /-- BIN (R408). -/
  | bin
  /-- HELP (R412). -/
  | help
  /-- EXIT (R408). -/
  | exit
  /-- MB_OUTLEN_WRITE (R415). -/
  | mbOutlenWrite (v : BitVec 32)
  /-- SMB_READ_ID (R417). -/
  | smbReadId
  /-- SMB_READ_TEMP (R417). -/
  | smbReadTemp
  /-- SMB_READ_POWER (R417). -/
  | smbReadPower
  /-- SMB_READ_STATUS (R417). -/
  | smbReadStatus
  /-- SMB_READ_ALERT (R417). -/
  | smbReadAlert
  /-- SMB_READ_SENSOR (R417). -/
  | smbReadSensor (n : Fin 24)
  /-- SMB_STAGING_OFFSET (R417). -/
  | smbStagingOffset (v : BitVec 16) (pecOk : Bool)
  /-- SMB_STAGE_WRITE (R417). -/
  | smbStageWrite (data : List Byte) (pecOk : Bool)
  /-- SMB_COMMIT (R417). -/
  | smbCommit (len : BitVec 16) (pecOk : Bool)
  /-- SMB_READ_OUT (R417). -/
  | smbReadOut
  /-- SMB_READ_MB_STATUS (R417). -/
  | smbReadMbStatus
  /-- SMB_CLEAR_OUT_FULL (R417). -/
  | smbClearOutFull (pecOk : Bool)
  /-- ALERT_RESPONSE (R416). -/
  | alertResponse
  /-- SMB_TIMEOUT (R453). -/
  | smbTimeout
  /-- CNT_SNAP (R427). -/
  | cntSnap
  /-- CNT_RESET (R427). -/
  | cntReset
  /-- REGISTER_WRITE (R14): the writer, its partition, the control-window offset, 8 bytes or 4. -/
  | registerWrite (r : Requester) (part : Part) (off : BitVec 24) (wide : Bool) (v : BitVec 64)
  /-- VAON_LOSS (R37). -/
  | vaonLoss
  /-- MGT_CTS_N_ASSERT (R405). -/
  | mgtCtsNAssert
  /-- REPLICA_SWEEP_DONE (R327): `h` is the half that swept. -/
  | replicaSweepDone (h : Half)
  /-- JTAG_TCK_EDGE (R452): the edge, TRST_N, TMS, TDI and the levels of the chain's pins. -/
  | jtagTckEdge (rising trstN tms tdi : Bool) (pins : BitVec 39)
  deriving DecidableEq, Repr

end Sys2Proof
end

