-- ==== Sys2Proof/Decode.lean ====
section
/-! DEFINITION. The word of a Troxo instruction (R245) and the opcode map (R248); and the command that a word of the opcode table
spells. No row of spec/opcode_table.json gives a command any bits (every row's list of fields is empty), so no word of the table spells
one. -/

namespace Sys2Proof

/-- The word of an instruction: OP, D, A, B, V, C and IMM from bit 63 down (R245). -/
def TFields.word (op : BitVec 8) (f : TFields) : BitVec 64 := op ++ f.d ++ f.a ++ f.b ++ f.v ++ f.c ++ f.imm

/-- The fields of a word. -/
def TFields.ofWord (w : BitVec 64) : TFields :=
  { d := w.extractLsb' 51 5, a := w.extractLsb' 46 5, b := w.extractLsb' 41 5, v := w.extractLsb' 37 4, c := w.extractLsb' 32 5,
    imm := w.extractLsb' 0 32 }

/-- The opcode map (R248). -/
def troxoOps : List (BitVec 8 × (ThreadId → TFields → Instr)) :=
  [(0x01, .add), (0x02, .sub), (0x03, .mul), (0x04, .div), (0x05, .rem), (0x06, .and_), (0x07, .or_), (0x08, .xor), (0x09, .shl),
   (0x0A, .shr), (0x0B, .sar), (0x0C, .set_), (0x10, .lih), (0x11, .addpc)] ++
  [(0x20, .br), (0x21, .jmp), (0x22, .call), (0x23, .jr), (0x24, .loop)] ++
  [(0x30, .ld), (0x31, .st), (0x32, .ldl), (0x33, .stl), (0x40, .aadd), (0x41, .acas), (0x42, .aswp), (0x43, .amin), (0x44, .amax),
   (0x45, .addl)] ++
  [(0x50, .smov), (0x51, .swait), (0x52, .spoll), (0x53, .sresume), (0x54, .scancel), (0x60, .hint), (0x61, .melt), (0x62, .pref),
   (0x63, .plow)] ++
  [(0x70, .balloc), (0x71, .bfree), (0x80, .fence), (0x81, .ifence), (0x82, .sems), (0x83, .semw), (0x84, .waitt), (0x90, .csrr),
   (0x91, .csrw), (0x92, .epoch), (0x93, .trap), (0x94, .yield), (0x95, .halt), (0xA0, .cktag)]

/-- The opcode of a word. -/
def opcodeOf (w : BitVec 64) : BitVec 8 := w.extractLsb' 56 8

/-- The instruction of thread t that a word stands for; none for an opcode that R248 does not list (R246). -/
def decodeTroxo (t : ThreadId) (w : BitVec 64) : Option Instr :=
  (troxoOps.find? fun e => e.1 == opcodeOf w).map fun e => e.2 t (TFields.ofWord w)

/-- The command that a word of nbits bits spells by the table's bits: none, since no row has bits. -/
def decodeTableWord (_nbits _w : Nat) : Option Instr := none

end Sys2Proof
end

