-- ==== Sys2Proof/Config.lean ====
section
/-! DEFINITION. What an implementation fixes and what the spec leaves open. Every constant here is opaque: it has
no body, so no proof can rest on a value of it. A free value is applied to the counter State.freeCtr. -/

namespace Sys2Proof

/-- Free 64-bit value number n: stands where the spec leaves a value open (log entry 2). -/
opaque Config.freeValue : Nat → BitVec 64

/-- Which free block of a half's list an allocation takes (R161: "Which free block is granted is not specified"):
an index, taken modulo the length of the list. DESIGN CHOICE (log entry 6). -/
opaque Config.freeBlock : Nat → Nat

/-- The set of the translation cache that holds an entry (R108: "a fixed function of partition, page number and
page size … internal to the slice and … not specified"). Taken modulo 512 (log entry 7). -/
opaque Config.tlbSet : Part → BitVec 36 → BitVec 2 → Nat

/-- A prefetch draw between 0 and 15 (R133: "a draw succeeds with probability VALUE/16"), taken modulo 16
(log entry 8). -/
opaque Config.draw : Nat → Nat

/-- What a codeword with three or more damaged symbols is taken for (R321): 0 uncorrectable, 1 corrected to wrong data,
2 passes as good; taken modulo 3 (log entry 9). -/
opaque Config.eccGuess : Nat → Nat

/-- The predicted sector-hit latency, in 0.125 ns, for a ring's 4-byte conversion trim and its result: R53 states no formula
(log entry 111). -/
opaque Config.ringLatency : BitVec 32 → BitVec 16 → BitVec 16

/-- The pre-FEC bit error ratio, as −log10 in 1/16 decade, of a lane in which that many symbols were corrected over the
last 1 ms: R60 and R280 state no formula (log entry 112). -/
opaque Config.errorRatio : Nat → BitVec 16

/-- SHA-256, named by R353, R355 and R390 but not defined by the spec (log entry 10). -/
opaque Config.sha256 : List Byte → BitVec 256

/-- ECDSA P-256 verification of a signature r, s over a SHA-256 digest with a key X, Y (R353, R390; log entry 10). -/
opaque Config.p256Verify : BitVec 256 → BitVec 512 → BitVec 512 → Bool

/-- The estimated power in units of 0.25 W (R417, "±15 % typical"): the spec states no formula (log entry 11). -/
opaque Config.power : Nat → BitVec 16

/-- The fuse values of a part: TST_UID (R371), BOOT_KEYHASH and BOOT_KEYCTL.KEYSET (R399). -/
opaque Config.uid : BitVec 64
opaque Config.keyHash : BitVec 128
opaque Config.keySet : Bool

/-- The signature a step of the built-in pack expects (R356), for class and step (log entry 17). -/
opaque Config.builtinExpect : Nat → Nat → BitVec 32

end Sys2Proof
end

