-- ==== Sys2Proof/Machine/State.lean ====
section
/-! DEFINITION. The state of the slice as plain data, block by block, with its value after power-on reset, and the
reasons a step can stop. Indexed registers are tables (Tab): an index not listed holds the default named at the field.
Half-indexed tables use 0 for E and 1 for W. -/

namespace Sys2Proof.Machine

/-- Why a command stops with a fault. -/
inductive Fault where
  /-- Raised by a partner's 4-byte atomic whose operand bytes 4 to 7 are not 0: R288 says they must be, and R11 leaves the
  behaviour of that breach undefined. Safe: the model stops where the slice does something unknown. -/
  | breach
  deriving DecidableEq, Repr

/-- Why a command has no meaning. -/
inductive Refusal where
  /-- Raised by a refused arm of exec only. Safe: the model stops. -/
  | notModelled (mnemonic : String)
  deriving DecidableEq, Repr

/-! ## Clocks and loops (chapter 2) -/

/-- Clocks and timebase (R70 to R73). TB_COARSE and PCLK_SRC follow pllLock. -/
structure Clk where
  time : BitVec 64
  pllLock : Bool
  pclkEvt : Bool
  xtalFail : Bool
  /-- the crystal delivers edges -/
  xtalOn : Bool
  /-- LOOP_TIME latches (R72), by requester: 0-5 ports, 6-77 threads, 78 Svet, 79 boot; default none -/
  latch : Tab (Option (BitVec 32))
  /-- the value that the last 32-bit read of LOOP_TIME returned (the model's own: where a read's result goes) -/
  read : BitVec 32
  deriving DecidableEq, Repr, Inhabited

/-- The registers of one adaptive loop (R48). -/
structure Loop where
  en : Bool
  hyst : BitVec 8
  target : BitVec 16
  lo : BitVec 16
  hi : BitVec 16
  value : BitVec 16
  measure : BitVec 16
  /-- a VALUE that software has written and the next evaluation applies (R50; log entry 110) -/
  written : Option (BitVec 16)
  /-- AT_LO and AT_HI, as the last evaluation left them -/
  atLo : Bool
  atHi : Bool
  sat : Bool
  miss : Bool
  cfgErr : Bool
  frzBrk : Bool
  devFault : Bool
  deriving DecidableEq, Repr, Inhabited

/-- What a loop remembers between evaluations (R54, R60, R62, R67). -/
structure LoopMem where
  /-- consecutive evaluations that asked for a slower rate -/
  low : Nat
  /-- events counted towards the next evaluation -/
  count : Nat
  /-- among the counted ends, those that MEAS counts -/
  hits : Nat
  /-- prefetches ended -/
  ended : Nat
  /-- evaluations that are due, oldest first: what was counted, and how many of it MEAS counts; for SCRUB one entry per
  completed patrol pass -/
  ready : List (Nat × Nat)
  /-- the last evaluation, and SCRUB's last hourly one -/
  last : Option (BitVec 64)
  hour : BitVec 64
  lastRaise : Option (BitVec 64)
  lastLower : Option (BitVec 64)
  /-- EQ: the lanes worse than TARGET, as 16 port + lane, and since when (R60) -/
  worse : List (Nat × BitVec 64)
  deriving DecidableEq, Repr, Inhabited

/-- One core regulator (R55 to R58). -/
structure Avs where
  /-- commands committed, newest first: timebase and mV -/
  cmds : List (BitVec 64 × BitVec 16)
  /-- voltage writes that the regulator has not answered yet, oldest first -/
  writes : List (BitVec 64 × BitVec 16)
  /-- read-backs to come, oldest first: when each is issued -/
  reads : List (BitVec 64)
  /-- consecutive failed transactions -/
  fails : Nat
  deriving DecidableEq, Repr, Inhabited

/-- The LOOP block (R47 to R68). -/
structure Loops where
  frz : BitVec 14
  alrtEn : BitVec 14
  /-- loop n, n = 0 to 13 -/
  loop : Tab Loop
  mem : Tab LoopMem
  /-- the ring coefficients of the TRIM entry in use, index 4h + ring (R53, R391); default 0 -/
  trim : Tab (BitVec 32)
  /-- the equalizer of logical lane l of port n, index 16n + l (R59) -/
  laneEq : Tab LaneEq
  avsE : Avs
  avsW : Avs
  deriving DecidableEq, Repr, Inhabited

/-! ## Staged configuration (chapters 3, 4 and 12) -/

/-- A group-table window (R86). -/
structure Win where
  base : BitVec 13
  log2 : BitVec 4
  deriving DecidableEq, Repr, Inhabited

/-- A FAR window (R90): SA[50:12] of its base, its rights and size. -/
structure FarWin where
  base : BitVec 39
  v : Bool
  r : Bool
  w : Bool
  a : Bool
  log2 : BitVec 6
  deriving DecidableEq, Repr, Inhabited

/-- The staged registers of one partition: PART_CTL, PART_GTW, PART_QUOTA, FAR windows (R89, R90) and XLT_ROOT (R96). -/
structure PartReg where
  en : Bool
  gmode : Bool
  cacheEn : Bool
  prefDis : Bool
  contain : Bool
  perfUser : Bool
  ports : BitVec 6
  gtwE : Win
  gtwW : Win
  quotaE : BitVec 20
  quotaW : BitVec 20
  /-- window w, w = 0 to 7 -/
  fw : Tab FarWin
  rootEn : Bool
  root : BitVec 40
  deriving DecidableEq, Repr, Inhabited

/-- A home-table entry (R78). -/
structure HomeEnt where
  slice : BitVec 8
  half : Half
  valid : Bool
  deriving DecidableEq, Repr, Inhabited

/-- A master's bandwidth settings (R309); CEIL resets to 0x3FFF. -/
structure MCfg where
  floor : BitVec 14
  ceil : BitVec 14
  prio : BitVec 2
  deriving DecidableEq, Repr, Inhabited

/-- Every staged register (R310). The state holds it three times: in force, before the pending epoch, and shadow. -/
structure Staged where
  tabEn : Bool
  shwE : Win
  shwW : Win
  /-- partition p -/
  part : Tab PartReg
  /-- entry k, k = 0 to 4095 -/
  home : Tab HomeEnt
  bwrEn : Bool
  /-- index 22h + m -/
  mcfg : Tab MCfg
  deriving DecidableEq, Repr, Inhabited

/-- GLB: identity, straps and epochs (R33, R316). -/
structure Glb where
  sidStrap : BitVec 8
  bootSel : BitVec 2
  sid : BitVec 8
  sidOvr : Bool
  epoch : BitVec 32
  epochDone : BitVec 32
  pending : Bool
  /-- when the pending epoch was accepted -/
  since : BitVec 64
  doneEvt : Bool
  refused : Bool
  noteErr : Bool
  reason : BitVec 3
  lag : BitVec 26
  /-- SA[51:3] of the notification word, 0 for none -/
  note : BitVec 49
  deriving DecidableEq, Repr, Inhabited

/-! ## Address tables (chapter 3) and translation (chapter 4) -/

/-- PART_REGION[r] (R81): STATE 0 OFFLINE, 1 CACHE, 2 PINNED. -/
structure Region where
  state : BitVec 2
  busy : Bool
  retired : Bool
  deriving DecidableEq, Repr, Inhabited

/-- A group-table entry (R85). -/
structure GtEnt where
  group : BitVec 13
  valid : Bool
  deriving DecidableEq, Repr, Inhabited

/-- The tables of chapter 3 that are not staged. -/
structure Tables where
  /-- region r, r = 0 to 383 -/
  region : Tab Region
  /-- index 8192h + i -/
  gt : Tab GtEnt
  /-- owner of group G, index 6144h + G -/
  gown : Tab (BitVec 6)
  errWin : Bool
  errGtw : Bool
  /-- PART_CTL.STALE_RISK of partition p (R146) -/
  staleRisk : Tab Bool
  /-- the entry in retirement (R152): 8192h + i -/
  retiring : Option Nat
  /-- damaged bits of a table entry, index 131072 structure + 65536 half + entry, structures numbered as in R343 (R328) -/
  damage : Tab Nat
  deriving DecidableEq, Repr, Inhabited

/-- The rights of a translation or an access (R99, R101). -/
structure Rights where
  r : Bool
  w : Bool
  a : Bool
  x : Bool
  deriving DecidableEq, Repr, Inhabited

/-- A translation-cache entry (R108): page size 0 is 4 KiB, 1 is 2 MiB, 2 is 1 GiB. -/
structure Tlb where
  part : Part
  vpage : BitVec 36
  size : BitVec 2
  sa : BitVec 40
  rights : Rights
  ref : Bool
  deriving DecidableEq, Repr, Inhabited

/-- What a waiting access needs of its translation (R101, R114). A completion word's store, a HINT and a PREF fault
silently (R101, R225). -/
structure XlReq where
  pva : BitVec 64
  need : Rights
  kind : BitVec 3
  silent : Bool
  /-- for a stream: the unit that asks (R114) -/
  line : Nat
  /-- its number among the thread's accesses, so that the result of an abandoned walk meets no other access -/
  num : Nat
  deriving DecidableEq, Repr, Inhabited

/-- An access that a walk serves: of a thread's present instruction or of a stream, with the number of its request. -/
structure Miss where
  t : ThreadId
  src : XlSrc
  num : Nat
  deriving DecidableEq, Repr, Inhabited

/-- A walk in flight (R102, R107). -/
structure Walk where
  id : Nat
  part : Part
  vpage : BitVec 36
  level : Nat
  table : BitVec 40
  rights : Rights
  /-- the threads' accesses that merged into this walk -/
  waiters : List Miss
  /-- an invalidation or a root change has overtaken this walk: it fills nothing (R97, R111) -/
  noFill : Bool
  deriving DecidableEq, Repr, Inhabited

/-- A partition's fault queue (R115, R116). -/
structure FaultQ where
  base : BitVec 40
  en : Bool
  log2n : BitVec 4
  head : BitVec 32
  tail : BitVec 32
  /-- slots allocated, free-running; those from tail on are still being written -/
  alloc : BitVec 32
  /-- allocated slots at or above tail whose write has completed -/
  written : List (BitVec 32)
  lost : BitVec 16
  qerr : Bool
  /-- a record was lost since the last one written -/
  lostMark : Bool
  deriving DecidableEq, Repr, Inhabited

/-- A unit that works on several lines at once and collects the answers (Machine/Cache.lean, gather). -/
inductive Consumer where
  /-- an instruction fetch -/
  | fetch (t : ThreadId)
  /-- the fetch of the instruction after a store (R219) -/
  | next (t : ThreadId)
  /-- unit `unit` of the stream in `slot`: its source lines, its destination lines, its check tag -/
  | source (t : ThreadId) (slot : Fin 2) (unit : Nat)
  | dest (t : ThreadId) (slot : Fin 2) (unit : Nat)
  | tag (t : ThreadId) (slot : Fin 2) (block : Nat)
  /-- the descriptor of an SMOV -/
  | smov (t : ThreadId)
  /-- CKTAG's lines -/
  | cktag (t : ThreadId)
  /-- walk number `id` -/
  | walk (h : Half) (id : Nat)
  /-- a task descriptor, a save record read or written -/
  | desc (t : ThreadId)
  | restore (t : ThreadId)
  | save (t : ThreadId)
  /-- the pattern pack -/
  | pack
  deriving DecidableEq, Repr, Inhabited

/-- The running invalidation of XLT_INV (R110), and what it waits for (R111), as it stood at the write. -/
structure XInv where
  scope : BitVec 2
  part : Part
  page : BitVec 36
  walks : List (Half × Nat)
  /-- accesses that such a walk still has to translate -/
  waits : List Miss
  /-- threads' accesses, by number -/
  outs : List (ThreadId × Nat)
  /-- what threads and their streams are collecting; a unit of a stream stands as its source -/
  units : List Consumer
  /-- stores that nobody waits for, by number -/
  posted : List (ThreadId × Nat)
  deriving DecidableEq, Repr, Inhabited

/-- XLT (chapter 4). -/
structure Xlt where
  inv : Option XInv
  /-- REF of each partition -/
  ref : BitVec 32
  errRoot : Bool
  errInvBusy : Bool
  errFqcfg : Bool
  errHead : Bool
  /-- partition p; default N = 128, the rest 0 -/
  fq : Tab FaultQ
  /-- index 2048h + 4 set + way; default none -/
  tlb : Tab (Option Tlb)
  walksE : List Walk
  walksW : List Walk
  walkWaitE : List Miss
  walkWaitW : List Miss
  /-- number of the next walk -/
  walkIds : Nat
  deriving DecidableEq, Repr, Inhabited

/-! ## Array, cache and directory (chapters 5 and 8) -/

/-- The metadata word of a line (R119). -/
structure Meta where
  tag : BitVec 26
  part : Part
  sv : BitVec 4
  sd : BitVec 4
  sp : BitVec 4
  pinned : Bool
  melt : Bool
  replica : Bool
  rheld : Bool
  ref : Bool
  demoted : Bool
  xcnt : BitVec 4
  sharers : BitVec 24
  lcrcV : Bool
  pf : Bool
  lcrc : BitVec 32
  deriving DecidableEq, Repr, Inhabited

/-- The three read-only caches of a core (R218). -/
inductive RoKind where
  | instr
  | desc
  | konst
  deriving DecidableEq, Repr, Inhabited

/-- Who receives the outcome of a line request. -/
inductive Who where
  /-- a partner request, answered in its class with its tag -/
  | port (p : PartnerPort) (cls : Fin 4) (tag : BitVec 12)
  /-- outstanding access `id` of a thread -/
  | thread (t : ThreadId) (id : Nat)
  /-- line `k` of the block write with this tag -/
  | block (p : PartnerPort) (tag : BitVec 12) (k : Nat)
  /-- slot of a partition's fault queue -/
  | record (p : Part) (slot : BitVec 32)
  /-- access `k` of a collecting unit -/
  | buf (c : Consumer) (k : Nat)
  /-- nobody: the slice's own notification stores -/
  | own
  /-- nobody, but an invalidation waits for it (R111): the completion word of a task that ran on a thread, or its PREF, by number -/
  | posted (t : ThreadId) (n : Nat)
  deriving DecidableEq, Repr, Inhabited

/-- The outcome of a line request: status (R289), poisoned sectors, the line's data, untracked. -/
structure LineRes where
  status : Nat
  /-- the line that was read, and whether a write to it has been performed since -/
  line : Sa
  written : Bool
  poison : BitVec 4
  data : BitVec 1024
  lcrc : BitVec 32
  untrk : Bool
  deriving DecidableEq, Repr, Inhabited

/-- How much of the line a read returns. -/
inductive Span where
  | sector
  | line
  /-- the sectors of a mask, in one request -/
  | some_ (mask : BitVec 4)
  /-- `n` bytes at offset `off`, with sign extension or not -/
  | bytes (off n : Nat) (signed : Bool)
  deriving DecidableEq, Repr, Inhabited

/-- What a line request does to the line. -/
inductive LineOp where
  /-- read; `ro` is the sharer bit to record (R195), `melt` the melt hint -/
  | read (span : Span) (ro : Option Nat) (melt : Bool)
  /-- write the bytes of `mask` -/
  | write (mask : BitVec 128) (data : BitVec 1024)
  /-- bring the whole line in (PREF) -/
  | fill
  /-- set the melt mark of a resident line (R139) -/
  | melt
  /-- KEEP or DEMOTE a resident line (R264) -/
  | hint (keep : Bool)
  /-- the atomic or ADDL with this number (R177) -/
  | atu (id : Nat)
  deriving DecidableEq, Repr, Inhabited

/-- A request for one line, accepted by its home half. -/
structure LineReq where
  who : Who
  op : LineOp
  sa : Sa
  part : Part
  /-- the half it entered, and its home half -/
  arrival : Half
  home : Half
  /-- the group-table index in the home half, and in the arrival half: none for an uncached access (R123), fixed with
  the epoch the request was checked under (R93) -/
  gi : Option Nat
  gia : Option Nat
  /-- the partition may prefetch the next line: prefetch enabled, and the read right over that line (R133) -/
  pref : Bool
  /-- the master it is charged to, none for the slice's own accesses (R301, R302) -/
  master : Option Nat
  /-- counted as waiting for a miss register (event 0x015) -/
  waited : Bool
  deriving DecidableEq, Repr, Inhabited

/-- A miss register (R127). -/
structure Mshr where
  home : Half
  line : Sa
  part : Part
  /-- array index of the victim way -/
  key : Nat
  /-- sectors asked of the pool and not yet stored -/
  fetch : BitVec 4
  waiters : List LineReq
  /-- the victim's eviction has not finished -/
  evicting : Bool
  /-- a seventeenth request has come: no request joins any more (R128) -/
  full : Bool
  pf : Bool
  /-- the FILL was sent a second time after a CRC mismatch (R331) -/
  retried : Bool
  /-- sectors the last FILL asked for -/
  asked : BitVec 4
  tag : BitVec 12
  deriving DecidableEq, Repr, Inhabited

/-- What follows once every acknowledgement of an invalidation is in (R198). -/
inductive InvAct where
  | perform (r : LineReq)
  | evict
  /-- FLUSH: dirty sectors are written back and the line is dropped (R150) -/
  | flush
  /-- INVALIDATE: the line is dropped, dirty sectors discarded (R150) -/
  | discard
  /-- patrol drops a clean line (R324) -/
  | drop
  /-- the replica is dropped and its home half told so (R144) -/
  | replica
  /-- the freeing of a block -/
  | free (block : Nat)
  /-- the victim is evicted and a replica takes its way (R144) -/
  | install (line : Sa) (part : Part) (data : BitVec 1024) (lcrcV : Bool) (lcrc : BitVec 32) (sp : BitVec 4)
  deriving DecidableEq, Repr, Inhabited

/-- An invalidation in progress (R198). -/
structure InvOp where
  home : Half
  key : Nat
  line : Sa
  tag : BitVec 12
  /-- partner ports whose INV_ACK is awaited -/
  ports : BitVec 6
  /-- the ports that INV has left on, and when, time in RECAL not counted (R201) -/
  sent : List (Nat × BitVec 64)
  /-- the replica's half has not acknowledged yet -/
  replica : Bool
  /-- the line is a replica, and its home half waits for an acknowledgement (R198 step 3) -/
  ackHome : Bool
  act : InvAct
  deriving DecidableEq, Repr, Inhabited

/-- A line in the offer buffer (R137). -/
structure Offer where
  home : Half
  /-- the pool port it was sent on -/
  port : Fin 2
  tag : BitVec 12
  line : Sa
  part : Part
  valid : BitVec 4
  poison : BitVec 4
  data : BitVec 1024
  lcrc : Option (BitVec 32)
  since : BitVec 64
  deriving DecidableEq, Repr, Inhabited

/-- The pool messages that expect an answer (R292). -/
inductive PoolKind where
  | fill
  | wb
  | wt
  | offd
  deriving DecidableEq, Repr, Inhabited

/-- What the answer of a pool request releases. -/
inductive PoolWho where
  /-- a miss register -/
  | mshr
  /-- an uncached request (R132) -/
  | uncached (r : LineReq)
  /-- the atomic or ADDL with this number works on a copy (R177) -/
  | atu (id : Nat)
  /-- nothing: an eviction's writeback or an OFFD -/
  | none
  deriving DecidableEq, Repr, Inhabited

/-- A pool request outstanding; `port` none while no pool port can carry it (R298). -/
structure PoolReq where
  kind : PoolKind
  home : Half
  tag : BitVec 12
  line : Sa
  port : Option (Fin 2)
  since : BitVec 64
  aux : BitVec 32
  var : BitVec 3
  mask : BitVec 4
  data : BitVec 1024
  lcrc : Option (BitVec 32)
  /-- the partition of the request that caused it (PART of R287) -/
  part : Part
  who : PoolWho
  deriving DecidableEq, Repr, Inhabited

/-- A message on the half link (R144). -/
inductive HalfMsg where
  /-- `gi` is the index of the line's entry in the receiving half, fixed with the epoch of the read that asked (R313) -/
  | install (line : Sa) (part : Part) (data : BitVec 1024) (lcrcV : Bool) (lcrc : BitVec 32) (sp : BitVec 4) (gi : Option Nat)
  | inv (line : Sa) (part : Part)
  | drop (line : Sa)
  deriving DecidableEq, Repr, Inhabited

/-- A plow command (R149) with what its engines have left to do. -/
structure PlowCmd where
  op : BitVec 4
  scope : BitVec 2
  part : Part
  half : Half
  arg0 : BitVec 64
  arg1 : BitVec 64
  /-- the partition of a P-mode PLOW, whose windows are checked at the start (R265) -/
  user : Option Part
  seq : BitVec 32
  started : Bool
  /-- lines left to process, as array indexes -/
  workE : List Nat
  workW : List Nat
  code : BitVec 4
  /-- partitions whose STALE_RISK was set at acceptance, and no later epoch has set again (R146) -/
  clears : List Part
  deriving DecidableEq, Repr, Inhabited

/-- CCH registers (R138, R149, R154, R203) and the plow queue. -/
structure Cch where
  offerEn : Bool
  arg0 : BitVec 64
  arg1 : BitVec 64
  plow : List PlowCmd
  qfull : Bool
  cmderr : Bool
  issued : BitVec 32
  done : BitVec 32
  errCode : BitVec 4
  errSeq : BitVec 28
  invTmo : BitVec 16
  clrBusy : BitVec 24
  dirErr : BitVec 6
  deriving DecidableEq, Repr, Inhabited

/-- The array and the cache's machinery. -/
structure Cache where
  /-- array bytes: index 128 key + byte, key = region 2^19 + row 8 + way; an unlisted byte reads 0 -/
  data : List Host.Cell
  /-- metadata by key; default all 0 -/
  line : Tab Meta
  /-- damaged symbols of codeword 4 key + j (R321); default 0 -/
  ecc : Tab Nat
  mshr : List Mshr
  /-- requests waiting for a register, a way or an operation on their line, oldest first -/
  blocked : List LineReq
  invs : List InvOp
  offers : List Offer
  pool : List PoolReq
  poolTag : BitVec 12
  invTag : BitVec 12
  /-- accesses that collecting units have issued, and the answers so far -/
  asked : List (Consumer × Nat)
  got : List (Consumer × Nat × LineRes)
  /-- stores and prefetches under way that nobody waits for, by their number -/
  posted : List (ThreadId × Nat)
  /-- the half link's messages towards E and towards W, oldest first -/
  toE : List HalfMsg
  toW : List HalfMsg
  /-- replica hits stopped in this half (R327 row 0) -/
  stopE : Bool
  stopW : Bool
  deriving DecidableEq, Repr, Inhabited

/-! ## Pinned buffers (chapter 6) and the ATU (chapter 7) -/

/-- A block's state code (R157) and owner. FREE (1) is the default; a block of a region that is not PINNED reads NONE. -/
structure Blk where
  st : BitVec 3
  owner : Part
  deriving DecidableEq, Repr, Inhabited

/-- A waiting allocation (R164) and its timeout in counts (R166, R231). -/
structure Waiter where
  who : Who
  part : Part
  since : BitVec 64
  limit : Nat
  deriving DecidableEq, Repr, Inhabited

/-- The allocator (R173). -/
structure Buf where
  /-- block b, b = 0 to 393215 -/
  blk : Tab Blk
  waitE : List Waiter
  waitW : List Waiter
  wqFullE : BitVec 16
  wqFullW : BitVec 16
  query : BitVec 19
  errRel : Bool
  /-- frees whose invalidations are under way: block, who asked and the SA named (none for a release), the USED owner -/
  frees : List (Nat × Option (Who × Part × Sa) × Part)
  /-- index 32h + p -/
  used : Tab (BitVec 18)
  drain : Tab Bool
  deriving DecidableEq, Repr, Inhabited

/-- The operations of R174 but ADDL. -/
inductive AtomKind where
  | add
  | cas
  | swp
  | min (signed : Bool)
  | max (signed : Bool)
  /-- SEMW's conditional decrement (R269) -/
  | semw
  deriving DecidableEq, Repr, Inhabited

/-- How far an operation on a copy has come (R177). -/
inductive Copy where
  /-- cached, or not asked for yet -/
  | idle
  | fetching
  | held (data : BitVec 1024) (poison : BitVec 4)
  /-- the result's WB is out, with the old value -/
  | writing (old : BitVec 64)
  deriving DecidableEq, Repr, Inhabited

/-- An atomic in progress (R177). -/
structure Atom where
  id : Nat
  who : Who
  kind : AtomKind
  wide : Bool
  v : BitVec 64
  cmp : BitVec 64
  sa : Sa
  part : Part
  arrival : Half
  master : Nat
  copy : Copy
  /-- its activation is due (ATOMIC_PERFORM) -/
  go : Bool
  deriving DecidableEq, Repr, Inhabited

/-- An accepted ADDL (R182). -/
structure Addl where
  id : Nat
  fmt : BitVec 4
  line : Sa
  data : BitVec 1024
  part : Part
  arrival : Half
  master : Nat
  ctx : Option (Fin 32)
  copy : Copy
  /-- its activation is due (ADDL_APPLY) -/
  go : Bool
  deriving DecidableEq, Repr, Inhabited

/-- A partner's ADDL that waits for room in the queue (R183). -/
structure AddlWait where
  who : Who
  fmt : BitVec 4
  atag : BitVec 32
  line : Sa
  data : BitVec 1024
  part : Part
  arrival : Half
  master : Nat
  deriving DecidableEq, Repr, Inhabited

/-- A contribution in the reorder buffer (R186). -/
structure HeldAddl where
  ctx : Fin 32
  line : Sa
  s : BitVec 8
  fmt : BitVec 4
  data : BitVec 1024
  part : Part
  arrival : Half
  master : Nat
  since : BitVec 64
  /-- its thaw timeout in counts, as THAW stood when the wait began (R188, R243) -/
  limit : Nat
  deriving DecidableEq, Repr, Inhabited

/-- An ordered-reduction context (R194). -/
structure Ord where
  base : BitVec 45
  en : Bool
  part : Part
  nl : BitVec 8
  k : BitVec 8
  done : BitVec 32
  homed : BitVec 9
  err : Bool
  tmo : Bool
  /-- a timeout has ended the round: tagged contributions end BADARG until EN is written 1 again (R188) -/
  dead : Bool
  deriving DecidableEq, Repr, Inhabited

/-- One half's ATU. -/
structure AtuHalf where
  waiting : List AddlWait
  queue : List Addl
  held : List HeldAddl
  atoms : List Atom
  nv : Bool
  of : Bool
  uf : Bool
  nx : Bool
  discPoison : BitVec 16
  discReset : BitVec 16
  deriving DecidableEq, Repr, Inhabited

/-- ATU (R194). -/
structure Atu where
  he : AtuHalf
  hw : AtuHalf
  ordcfg : Bool
  ord : Tab Ord
  /-- NEXT of line l of context n, index 256n + l -/
  next : Tab (BitVec 8)
  /-- number of the next operation -/
  ids : Nat
  deriving DecidableEq, Repr, Inhabited

/-! ## Sequencer (chapters 9 and 10) -/

/-- A task queue (R221). -/
structure TaskQ where
  base : BitVec 40
  en : Bool
  part : Part
  prio : BitVec 2
  half : Half
  log2n : BitVec 4
  head : BitVec 32
  tail : BitVec 32
  dbErr : Bool
  cfg : Bool
  fetchErr : Bool
  doneLost : BitVec 16
  /-- a thread is fetching this queue's descriptor -/
  fetching : Bool
  deriving DecidableEq, Repr, Inhabited

/-- What the slice remembers of a context slot in use: the half of its resume list and the task's priority (R233). -/
structure SlotInfo where
  half : Half
  prio : BitVec 2
  deriving DecidableEq, Repr, Inhabited

/-- A partition's SEQ registers (R229, R234, R243). -/
structure SeqPart where
  thaw : BitVec 24
  thawCnt : BitVec 32
  ctxBase : BitVec 40
  ctxLog2n : BitVec 3
  badcmd : Bool
  werr : Bool
  noslot : Bool
  cfg : Bool
  preempts : BitVec 16
  used : BitVec 64
  park : BitVec 64
  /-- slot k in use -/
  slots : Tab SlotInfo
  deriving DecidableEq, Repr, Inhabited

/-- A resume-list entry (R226): the slot whose record holds the task. -/
structure Resume where
  part : Part
  slot : BitVec 6
  prio : BitVec 2
  deriving DecidableEq, Repr, Inhabited

/-- What a fault record says (R114), before it is laid out. -/
structure FaultInfo where
  pva : BitVec 48
  sa : Option Sa
  sub : Nat
  code : Nat
  level : Nat
  kind : Nat
  thread : Nat
  token : Option Nat
  line : Nat
  /-- when the fault was decided, for one that is recorded later (R114) -/
  time : Option (BitVec 64)
  deriving DecidableEq, Repr, Inhabited

/-- A unit of a stream in flight (R238). Each end, once it is translated and has passed its checks: its SA and home half. -/
structure Flight where
  unit : Nat
  src : Option (Sa × Half)
  dst : Option (Sa × Half)
  deriving DecidableEq, Repr, Inhabited

/-- A stream in a slot (R235, R239). -/
structure Stream where
  used : Bool
  tok : BitVec 3
  desc : BitVec 512
  line : BitVec 32
  donemap : BitVec 32
  /-- check blocks already passed or skipped, by their number in TAGS (R333) -/
  passed : List Nat
  /-- the translations its units wait for -/
  xl : List XlReq
  /-- the translations it holds for its source and its destination (R112) -/
  src : Option Tlb
  dst : Option Tlb
  /-- results of walks that only the access which asked uses: those of overtaken walks, and those for check-tag entries (R97, R111) -/
  hit : List (XlReq × Tlb)
  flights : List Flight
  /-- lowest units of check blocks that have failed since it last ran (R333) -/
  failed : List Nat
  /-- check blocks chosen for verification (R334) -/
  chosen : List Nat
  /-- the fault that stops it, once its units in flight have ended (R239, R241) -/
  stop : Option FaultInfo
  /-- that fault's record has been allocated or lost; its slot while the write goes on (R114) -/
  recorded : Bool
  recSlot : Option (BitVec 32)
  /-- SCANCEL waits for its units in flight -/
  cancel : Bool
  deriving DecidableEq, Repr, Inhabited

/-- An access a thread has issued (R214). -/
structure Outst where
  id : Nat
  line : Sa
  store : Bool
  /-- first destination register, and how many from it on (0, 1 or 16) -/
  dest : BitVec 5
  count : Nat
  /-- the values to write, once the slice has performed the access -/
  result : Option (List (BitVec 64))
  pva : BitVec 48
  /-- performed through the constant cache of the core -/
  viaRo : Bool
  /-- it met poison under CONTAIN: its instruction does not complete, and the partition's reset ends it (R336) -/
  void : Bool
  deriving DecidableEq, Repr, Inhabited

/-- What a thread waits for (R242, R244): KIND, token, object, start, and its timeout in counts; gd of the waiting
instruction, the condition and comparand of WAITT, and the evaluation under way (R271). -/
structure Wait where
  kind : BitVec 3
  tok : BitVec 3
  sa : Sa
  start : BitVec 64
  limit : Nat
  dest : BitVec 5
  pva : BitVec 48
  cond : BitVec 4
  cmp : BitVec 64
  eval : Option Nat
  /-- a write to the line has completed since the last evaluation of a SEMW or WAITT began (R271) -/
  again : Bool
  /-- the descriptor an SMOV has copied, while it waits for a slot (R237) -/
  desc : BitVec 512
  deriving DecidableEq, Repr, Inhabited

/-- Where a thread stands in a task's life. -/
inductive Phase where
  | free
  /-- fetching a descriptor of this queue -/
  | fetching (q : Fin 128)
  /-- restoring from this slot -/
  | restoring (part : Part) (slot : BitVec 6)
  | running
  /-- stopped, draining for a save: KIND 0 preempted, 1 exception, 2 TRAP, 3 YIELD, and CAUSE (R230) -/
  | draining (kind : BitVec 3) (cause : BitVec 8)
  /-- the save record for this slot is being written -/
  | saving (kind : BitVec 3) (cause : BitVec 8) (slot : BitVec 6)
  /-- HALT reached, waiting for accesses and streams (R225) -/
  | halting
  /-- killed by a partition reset, until its issued work has ended (R337) -/
  | killed
  deriving DecidableEq, Repr, Inhabited

/-- A hardware thread (R216, R217, R225). -/
structure Thread where
  phase : Phase
  pc : Pva
  /-- gn, n = 1 to 31; default 0 -/
  g : Tab (BitVec 64)
  /-- states of t0 to t7, 3 bits each (R230) -/
  toks : BitVec 24
  /-- LINE of a finished stream, by token -/
  tokLine : Tab (BitVec 32)
  precise : Bool
  thaw : BitVec 24
  queue : BitVec 7
  slot : BitVec 6
  slotV : Bool
  prio : BitVec 2
  part : Part
  donePva : BitVec 64
  tag : BitVec 64
  started : BitVec 64
  s0 : Stream
  s1 : Stream
  outs : List Outst
  nextId : Nat
  wait : Option Wait
  /-- WAIT_LEFT of a restored task, for the wait it executes again (R231) -/
  waitLeft : Option (BitVec 64)
  xl : Option XlReq
  /-- the result of the walk for its present instruction, used by that instruction only (R97, R111) -/
  hit : Option Tlb
  /-- a precise stream fault to be raised at the next boundary (R252) -/
  raised : Option (BitVec 8)
  /-- the slot reserved for a save, or held by a restored task until its first instruction issues (R227, R231) -/
  held : Option (BitVec 6)
  /-- the completion word waiting for its translation (R225) -/
  word : Option (BitVec 64)
  /-- the slot of the fault record that its exception waits for (R114) -/
  recSlot : Option (BitVec 32)
  /-- the instruction after a store, as it was fetched before that store: its pc and its word (R219) -/
  ahead : Option (Pva × BitVec 64)
  deriving DecidableEq, Repr, Inhabited

/-- An entry of a read-only cache (R218). -/
structure RoEnt where
  sector : BitVec 47
  data : BitVec 256
  ref : Bool
  deriving DecidableEq, Repr, Inhabited

/-- SEQ. -/
structure Seq where
  /-- queue q; default N = 16, the rest 0 -/
  tq : Tab TaskQ
  /-- partition p; default THAW = 100, the rest 0 -/
  sp : Tab SeqPart
  resumeE : List Resume
  resumeW : List Resume
  /-- the last queue served, per half -/
  rrE : BitVec 7
  rrW : BitVec 7
  /-- physical thread i, i = 0 to 71 -/
  th : Tab Thread
  /-- read-only cache entry e of cache c of core k: index 144 k + 48 c + e; default none -/
  ro : Tab (Option RoEnt)
  deriving DecidableEq, Repr, Inhabited

/-! ## Links (chapter 11) -/

/-- A frame (R287): header, class and data bytes. -/
structure Frame where
  opc : BitVec 8
  tag : BitVec 12
  part : Part
  var : BitVec 3
  melt : Bool
  chk : Bool
  sa : Sa
  aux : BitVec 32
  cls : Fin 4
  invsc : Bool
  data : List Byte
  deriving DecidableEq, Repr, Inhabited

/-- A sparing request under way (R299). -/
structure Sparing where
  lane : BitVec 5
  spare : Bool
  since : BitVec 64
  /-- the block that the slice's SPARE_SWITCH names -/
  block : BitVec 10
  deriving DecidableEq, Repr, Inhabited

/-- A port (R296 to R300). -/
structure Port where
  en : Bool
  state : BitVec 3
  degraded : Bool
  spares : BitVec 2
  upEvt : Bool
  downEvt : Bool
  spareFail : Bool
  cfgErr : Bool
  badframe : Bool
  sub16 : BitVec 5
  sub17 : BitVec 5
  /-- logical lanes named by sparing requests that no spare took -/
  failed : BitVec 16
  gen : BitVec 16
  since : BitVec 64
  deriving DecidableEq, Repr, Inhabited

/-- The replay and frame layer of a port (R284, R285, R294). -/
structure LinkSt where
  /-- flits sent and not yet acknowledged, oldest first: the frame, and the flit's number in it (R294) -/
  tx : List (Frame × Nat)
  /-- frames in the transmit buffer that are not wholly sent, oldest first, with the flits sent of each; a frame with some
  sent is open (R284) -/
  buf : List (Frame × Nat)
  /-- a frame interrupted by a cut-in has sent a flit since (R284 rule 3) -/
  txResumed : Bool
  /-- sequence number of the oldest unacknowledged flit -/
  base : BitVec 10
  /-- sequence number expected from the far end -/
  expect : BitVec 10
  /-- frame flits received in order since the last ACK sent -/
  unacked : Nat
  /-- a block was discarded and its replay has not arrived -/
  nak : Bool
  /-- replays of the oldest flit without progress -/
  replays : Nat
  progress : BitVec 64
  lastFrame : BitVec 64
  lastBlock : BitVec 64
  pingAt : Option (BitVec 64)
  sparing : Option Sparing
  /-- credits left to send with (R285) -/
  cred : Credits
  /-- frames that their sources still hold, because the transmit buffer has no room for them, oldest first (R297) -/
  wait : List Frame
  /-- credits freed by the receiver and not yet returned (R285) -/
  freed : Credits
  /-- open frame and cut-in: class and content flits so far, oldest first (R284) -/
  open_ : List (Fin 4 × Bool × List (BitVec 496))
  /-- whether the interrupted frame has sent a flit since the last cut-in (R284 rule 3) -/
  resumed : Bool
  /-- assembled frames not yet performed -/
  rx : List Frame
  /-- symbols corrected in the last millisecond: when, and in which logical lane (R60, R280) -/
  symErr : List (BitVec 64 × Fin 16)
  /-- CTRL flits sent: type, sequence number, credits returned, lane (R286) -/
  ctrl : List (BitVec 8 × BitVec 10 × Credits × BitVec 6)
  deriving DecidableEq, Repr, Inhabited

/-- A block write in progress (R290): its 32 lines' statuses as they come. -/
structure BlockWr where
  port : PartnerPort
  cls : Fin 4
  tag : BitVec 12
  part : Part
  sa : Sa
  left : Nat
  status : BitVec 8
  deriving DecidableEq, Repr, Inhabited

/-- PPT and POOL. -/
structure Links where
  /-- port n, n = 0 to 7 -/
  port : Tab Port
  link : Tab LinkSt
  split : Bool
  blocks : List BlockWr
  deriving DecidableEq, Repr, Inhabited

/-! ## Bandwidth regulation (chapter 12) -/

/-- A master's status in a half (R309). -/
structure MStat where
  last : BitVec 14
  floorMiss : Bool
  demoted : Bool
  /-- grants in the current window -/
  count : Nat
  /-- grants of the window that found a request of this master ready -/
  ready : Nat
  /-- its grants at step 4 of R303 less its share of them, in weights of the set ready there, and the least and the largest value
  since that set last changed -/
  credit : Int
  least : Int
  most : Int
  deriving DecidableEq, Repr, Inhabited

/-- BWR. -/
structure Bwr where
  /-- index 22h + m -/
  ms : Tab MStat
  errFsum : Bool
  errMiss : Bool
  errCfg : Bool
  plowE : Nat
  plowW : Nat
  allE : Nat
  allW : Nat
  /-- master last served at step 1 and at step 6, per half -/
  rr1E : Nat
  rr1W : Nat
  rr6E : Nat
  rr6W : Nat
  /-- the masters ready at the last grant of step 4, per half -/
  setE : BitVec 22
  setW : BitVec 22
  /-- the current window began at this count -/
  window : BitVec 64
  deriving DecidableEq, Repr, Inhabited

/-! ## Integrity (chapter 13) and self-test (chapter 14) -/

/-- An error record (R342, R343, R370), before it is laid out in bytes. -/
structure Rec where
  cls : BitVec 8
  sev : BitVec 2
  source : BitVec 8
  half : Half
  die : BitVec 3
  codewords : BitVec 4
  part : Option Part
  region : Option (BitVec 9)
  row : BitVec 16
  sa : Option Sa
  time : BitVec 64
  sect : BitVec 4
  action : BitVec 8
  master : BitVec 8
  expect : BitVec 32
  actual : BitVec 32
  count : BitVec 32
  detail : BitVec 128
  sid : BitVec 8
  id : BitVec 56
  simulated : Bool
  /-- written before the latest warm or fatal reset (PREVERR) -/
  prev : Bool
  deriving DecidableEq, Repr, Inhabited

/-- A partition reset under way: cause, discards so far, whether it is fenced and running (R337). -/
structure PReset where
  part : Part
  cause : BitVec 2
  running : Bool
  disc : Nat
  deriving DecidableEq, Repr, Inhabited

/-- INT (R345). -/
structure Integ where
  patrolEn : Bool
  lcrcChk : Bool
  budgetE : BitVec 3
  budgetW : BitVec 3
  ceThr : BitVec 8
  ue : Bool
  metaLoss : Bool
  crc : Bool
  tag : Bool
  shelf : Bool
  passE : BitVec 32
  passW : BitVec 32
  /-- blocks eligible for sampling so far (R334), per half -/
  elig : Tab Nat
  /-- next row of patrol, per half: region 65536 + row -/
  patrol : Tab Nat
  /-- rows that this pass has skipped and returns to: region 65536 + row (R323) -/
  skipped : List Nat
  prst : List PReset
  prstPart : Part
  prstCause : BitVec 2
  prstRefused : Bool
  prstDisc : BitVec 16
  injAddr : BitVec 45
  injSector : BitVec 2
  injKind : BitVec 2
  injArm : Bool
  /-- damage made by injection: lines whose next record is SIMULATED -/
  injected : List Nat
  deriving DecidableEq, Repr, Inhabited

/-- The error stores (R340). -/
structure ErrLog where
  /-- record k at index k mod 64; default none -/
  ring : Tab (Option Rec)
  head : BitVec 32
  tail : BitVec 32
  lost : BitVec 16
  headErr : Bool
  /-- fatal slot s; default none -/
  fatal : Tab (Option Rec)
  count : BitVec 56
  /-- corrected errors of bank 34 die + b since its last CORRECTED record (R341) -/
  ce : Tab Nat
  deriving DecidableEq, Repr, Inhabited

/-- A repair record (R366). -/
structure Repair where
  type : BitVec 8
  half : Half
  die : BitVec 3
  unit : BitVec 8
  subst : BitVec 8
  region : BitVec 16
  seq : BitVec 32
  pack : BitVec 32
  time : BitVec 64
  deriving DecidableEq, Repr, Inhabited

/-- A self-test target (R348, R371): STATE 0 in service, 1 spare, 2 in a step, 3 failed. -/
structure Target where
  state : BitVec 2
  next : BitVec 4
  trans : BitVec 8
  since : Nat
  repeats : Nat
  /-- when each step last passed -/
  lastPass : Tab (BitVec 64)
  /-- the signature that mismatched last in the step under way -/
  bad : BitVec 32
  /-- the half-link lane found by the lane-by-lane repeat of a group that failed (R359) -/
  lane : Fin 32
  /-- a pack has become active since the last step: the next one is step 0 (R356) -/
  fresh : Bool
  /-- the signature the step under way expects, log2 of the steps and the version of its pack -/
  want : BitVec 32
  log2s : Nat
  packVer : BitVec 32
  /-- whether the step in progress was forced -/
  forced : Bool
  /-- the state to return to after the step -/
  back : BitVec 2
  /-- timebase of the last idle step -/
  lastIdle : Option (BitVec 64)
  /-- timebase of the last operation (R348) -/
  lastOp : Option (BitVec 64)
  /-- when its pause began (R244, R350) -/
  began : BitVec 64
  deriving DecidableEq, Repr, Inhabited

/-- A calving of one die (R362, R371). -/
structure Calve where
  phase : BitVec 2
  bank : BitVec 5
  rows : BitVec 18
  abort : Bool
  /-- the spare being written: 32 or 33 -/
  spare : BitVec 6
  source : BitVec 8
  deriving DecidableEq, Repr, Inhabited

/-- An active pattern pack (R353 to R356): s for each class and the expected signature of each step. -/
structure Pack where
  ver : BitVec 32
  s : Tab Nat
  /-- expected signature, index 16 class + step -/
  expect : Tab (BitVec 32)
  deriving DecidableEq, Repr, Inhabited

/-- TST (R371). -/
structure Tst where
  en : Bool
  autoCalve : Bool
  retireEn : Bool
  persistEn : Bool
  stat : BitVec 7
  thrCe : BitVec 16
  thrUe : BitVec 4
  uid : BitVec 64
  packSa : BitVec 46
  packBusy : Bool
  packResult : BitVec 3
  pack : Pack
  queue : List Repair
  written : BitVec 24
  repSeq : BitVec 32
  ageThr : BitVec 16
  /-- DEGR of monitor n, and whether it is at or above the threshold -/
  degr : Tab (BitVec 16)
  aged : Tab Bool
  /-- when aging monitor n measured last (R369) -/
  ageAt : Tab (Option (BitVec 64))
  /-- die k -/
  calve : Tab Calve
  /-- index 22h + t -/
  tgt : Tab Target
  /-- spare banks used or failed: index 2k + (0 for bank 32, 1 for bank 33) -/
  spareUsed : Tab Bool
  /-- bank 34 die + b is served by this spare; default none -/
  bankMap : Tab (Option (BitVec 6))
  /-- uncorrectable codewords since boot, corrected errors in this pass, of bank 34 die + b -/
  ueCount : Tab Nat
  cePass : Tab Nat
  /-- banks that wait for retirement, as 32 die + bank (R364) -/
  toRetire : List Nat
  deriving DecidableEq, Repr, Inhabited

/-- Repairs in force (R357 to R360). -/
structure Repairs where
  /-- logical number of physical core 9h + c; default none: its own number for 0 to 7, spare for 8 -/
  logical : Tab (Option (BitVec 8))
  /-- targets failed and waiting for repair, per half, oldest first -/
  waitE : List (Fin 22)
  waitW : List (Fin 22)
  /-- logical lane of the half link carried by its spare -/
  linkSpare : Option (Fin 32)
  /-- half-link lane groups out of service -/
  groupsOut : BitVec 4
  deriving DecidableEq, Repr, Inhabited

/-! ## Power and boot (chapters 1 and 15) -/

/-- A power domain's state word (R382). -/
structure Dom where
  st : BitVec 2
  gen : BitVec 16
  deriving DecidableEq, Repr, Inhabited

/-- A running domain command (R383). -/
structure DomCmd where
  dom : BitVec 4
  on : Bool
  force : Bool
  since : BitVec 64
  /-- region states of an array die before it is cut off (R385) -/
  regions : List (Nat × BitVec 2)
  deriving DecidableEq, Repr, Inhabited

/-- A chip reset in progress. -/
inductive ResetSt where
  | none
  /-- a warm reset has been triggered, by RESET_N or by a command, and not fenced yet -/
  | warmReq (byPin : Bool)
  /-- a warm drain, fenced at this count (R378) -/
  | warm (since : BitVec 64) (byPin : Bool)
  /-- PWRGOOD has deasserted -/
  | cold
  deriving DecidableEq, Repr, Inhabited

/-- PWR (R40, R41, R381 to R383, R420 to R423). -/
structure Pwr where
  vaon : Bool
  pwrgood : Bool
  resetN : Bool
  trip : Bool
  cause : BitVec 4
  fatal : Bool
  tripStat : Bool
  fcnt : BitVec 2
  resets : BitVec 16
  resetSt : ResetSt
  /-- domain d, d = 1 to 15 -/
  dom : Tab Dom
  cmd : Option DomCmd
  resDom : BitVec 4
  resCode : BitVec 4
  resDone : Bool
  disc : BitVec 32
  unitCode : BitVec 2
  unitUnit : BitVec 6
  unitDone : Bool
  /-- generations of units 24 to 47 (R420) -/
  unitGen : Tab (BitVec 16)
  deriving DecidableEq, Repr, Inhabited

/-- Sensors (R40, R41) and array-die bookkeeping. -/
structure Sense where
  temp : Tab (BitVec 12)
  valid : Tab Bool
  warn : BitVec 12
  warnStat : Bool
  /-- region states that die k restores at switch-on (R386); default none -/
  restore : Tab (Option (List (Nat × BitVec 2)))
  /-- when die k last refreshed (R325) -/
  refreshed : Tab (BitVec 64)
  deriving DecidableEq, Repr, Inhabited

/-- Where the boot loader stands (R393 to R397). -/
inductive BootPhase where
  /-- waiting for RESET_N to deassert -/
  | waitReset
  /-- waiting for the PLL (R387) -/
  | waitPll
  /-- about to discover the flash (R388) -/
  | discover
  /-- reading a slot -/
  | reading (slot : Slot)
  /-- an image has passed and is about to be applied -/
  | apply (slot : Slot)
  /-- everything applied; the supervisor is about to start -/
  | ready
  | started
  | recovery
  /-- BOOT_SEL 0b11 (R30) -/
  | strapError
  deriving DecidableEq, Repr, Inhabited

/-- BOOT (R399) and the flash. -/
structure Boot where
  phase : BootPhase
  slot : BitVec 2
  fallback : Bool
  recovery : Bool
  warm : Bool
  notrim : Bool
  slowclk : Bool
  signed : Bool
  errA : BitVec 4
  errB : BitVec 4
  spimode : BitVec 2
  sfdp : Bool
  seq : BitVec 32
  start : BitVec 64
  keyhash : BitVec 128
  keyset : Bool
  eraseLog2 : BitVec 5
  pageLog2 : BitVec 5
  /-- when the wait for the PLL began (R387) -/
  since : BitVec 64
  /-- the boot in progress is a warm one -/
  warmBoot : Bool
  /-- the first slot tried -/
  first : Slot
  /-- slots already left -/
  leftA : Bool
  leftB : Bool
  /-- DEST and ENTRY of the program in use -/
  dest : Sa
  entry : BitVec 64
  /-- PACKKEY, REPAIR_OFF and REPAIR_LEN of the image in use (R390) -/
  packKey : BitVec 128
  repOff : BitVec 32
  repLen : BitVec 32
  /-- the configuration flash; an unlisted byte reads 0xFF -/
  flash : Tab Byte
  deriving DecidableEq, Repr, Inhabited

/-! ## Management (chapter 16) -/

/-- A character with its error marks (R407). -/
structure Char9 where
  ch : BitVec 9
  pe : Bool
  fe : Bool
  deriving DecidableEq, Repr, Inhabited

/-- UART settings (R407). -/
structure UartCfg where
  div : BitVec 12
  osr : BitVec 2
  divX : BitVec 12
  osrX : BitVec 2
  data : BitVec 4
  parity : BitVec 3
  stop : BitVec 2
  fc : Bool
  raw : Bool
  deriving DecidableEq, Repr, Inhabited

/-- The UART (R400 to R407). -/
structure Uart where
  /-- as written -/
  cfg : UartCfg
  /-- in effect (R406) -/
  act : UartCfg
  idle : Bool
  fe : Bool
  pe : Bool
  ovr : Bool
  brk : Bool
  errs : BitVec 16
  rx : List Char9
  tx : List (BitVec 9)
  /-- what the last read of MGT_UART_DATA returned (the model's own) -/
  read : BitVec 32
  /-- MGT_CTS_N is asserted -/
  cts : Bool
  /-- characters sent, newest first -/
  sent : List (BitVec 9)
  /-- a character has been received since the last IDLE -/
  gap : Bool
  deriving DecidableEq, Repr, Inhabited

/-- A Svet answer: command number, status, result bytes (R410, R412). -/
structure SvetAns where
  cmd : BitVec 8
  status : BitVec 8
  data : List Byte
  deriving DecidableEq, Repr, Inhabited

/-- Svet, mailbox and SMBus (R408 to R419). -/
structure Mgt where
  lock : Bool
  echo : Bool
  bin : Bool
  badframe : BitVec 16
  cmds : BitVec 16
  /-- characters of the line or frame being received -/
  partial_ : List Byte
  partialAt : BitVec 64
  /-- answers sent, newest first -/
  answers : List SvetAns
  /-- lines the loader sent at the end of a boot, newest first: recovery, BOOT_STAT, SEQ (R408) -/
  bootLines : List (Bool × BitVec 32 × BitVec 32)
  smbAddr : BitVec 7
  smbEn : Bool
  pecErr : BitVec 16
  mbref : Bool
  staging : Tab Byte
  stageOff : Nat
  /-- the last SMBus reply; none for a NACK -/
  smbReply : Option (List Byte)
  inLen : BitVec 9
  inFull : Bool
  outLen : BitVec 9
  outFull : Bool
  noteErr : Bool
  outRef : Bool
  note : BitVec 49
  puts : BitVec 64
  deriving DecidableEq, Repr, Inhabited

/-- The mailbox buffers (R415), by byte. -/
structure Mbox where
  inb : Tab Byte
  outb : Tab Byte
  deriving DecidableEq, Repr, Inhabited

/-- CNT_SEL[n] (R430). -/
structure CntSel where
  event : BitVec 10
  half : BitVec 2
  part : Part
  partEn : Bool
  chain : Bool
  deriving DecidableEq, Repr, Inhabited

/-- CNT (R430). -/
structure Cnt where
  val : Tab (BitVec 48)
  snap : Tab (BitVec 48)
  sel : Tab CntSel
  snapTime : BitVec 64
  ovf : BitVec 256
  errSel : Bool
  deriving DecidableEq, Repr, Inhabited

/-- The sixteen TAP controller states of IEEE 1149.1 (R452). -/
inductive Tap where
  | reset | idle
  | selDr | capDr | shiftDr | exit1Dr | pauseDr | exit2Dr | updDr
  | selIr | capIr | shiftIr | exit1Ir | pauseIr | exit2Ir | updIr
  deriving DecidableEq, Repr, Inhabited

/-- The boundary-scan port (R32, R452). -/
structure Jtag where
  tap : Tap
  /-- instruction shift register and the instruction in force -/
  irShift : BitVec 2
  ir : BitVec 2
  /-- boundary shift register and its update latch -/
  shift : BitVec 39
  latch : BitVec 39
  bypass : Bool
  tdo : Option Bool
  deriving DecidableEq, Repr, Inhabited

/-! ## The whole state -/

/-- The state of the slice. -/
structure State where
  clk : Clk
  loops : Loops
  glb : Glb
  /-- staged registers in force -/
  cur : Staged
  /-- their values before the pending epoch, for the units still on it (R313) -/
  prev : Staged
  /-- their shadows -/
  shadow : Staged
  tables : Tables
  xlt : Xlt
  cch : Cch
  cache : Cache
  buf : Buf
  atu : Atu
  seq : Seq
  links : Links
  bwr : Bwr
  integ : Integ
  log : ErrLog
  tst : Tst
  rep : Repairs
  pwr : Pwr
  sense : Sense
  boot : Boot
  uart : Uart
  mgt : Mgt
  mbox : Mbox
  cnt : Cnt
  jtag : Jtag
  /-- the model's own: how many free values have been taken (log entry 2) -/
  freeCtr : Nat
  /-- the commands that are waiting, first in, first out -/
  pending : List Instr
  deriving DecidableEq, Repr

/-! ## Reset -/

/-- The reset values of loop n (R440). EQ VALUE is "image", which reads 0 until boot loads it. -/
def Loop.reset (n : Nat) : Loop :=
  let mk (en : Bool) (hyst : BitVec 8) (target lo hi value : BitVec 16) : Loop :=
    { en, hyst, target, lo, hi, value, measure := 0, written := none, atLo := false, atHi := false, sat := false, miss := false,
      cfgErr := false, frzBrk := false, devFault := false }
  if n < 2 then mk false 8 288 600 900 850
  else if n < 4 then mk true 0 80 0 31 0
  else if n < 6 then mk true 0 64 15 1440 480
  else if n < 8 then mk true 0 560 8 64 64
  else if n < 10 then mk true 0 64 0 16 16
  else if n < 12 then mk true 0 32 16 20 20
  else mk true 0 128 2 15 8

def LoopMem.reset : LoopMem :=
  { low := 0, count := 0, hits := 0, ended := 0, ready := [], last := none, hour := 0, lastRaise := none, lastLower := none, worse := [] }

def Avs.reset : Avs := { cmds := [], writes := [], reads := [], fails := 0 }

def LaneEq.zero : LaneEq := { ctle := 0, taps := 0 }

def Loops.reset : Loops :=
  { frz := 0, alrtEn := 3, loop := (List.range 14).map (fun n => (n, Loop.reset n)), mem := [], trim := [],
    laneEq := [], avsE := Avs.reset, avsW := Avs.reset }

def Win.zero : Win := { base := 0, log2 := 0 }
def FarWin.zero : FarWin := { base := 0, v := false, r := false, w := false, a := false, log2 := 0 }

/-- A partition's registers at reset (R89, R90, R96). -/
def PartReg.zero : PartReg :=
  { en := false, gmode := false, cacheEn := false, prefDis := false, contain := false, perfUser := false, ports := 0,
    gtwE := Win.zero, gtwW := Win.zero, quotaE := 0, quotaW := 0, fw := [], rootEn := false, root := 0 }

/-- Partition 0 resets enabled, caching, through every port (R89: 0x3F05). -/
def PartReg.zero0 : PartReg := { PartReg.zero with en := true, cacheEn := true, ports := 0x3F }

def HomeEnt.zero : HomeEnt := { slice := 0, half := .e, valid := false }
def MCfg.zero : MCfg := { floor := 0, ceil := 0x3FFF, prio := 0 }

def Staged.reset : Staged :=
  { tabEn := false, shwE := Win.zero, shwW := Win.zero, part := [(0, PartReg.zero0)], home := [], bwrEn := false,
    mcfg := [] }

def Glb.reset : Glb :=
  { sidStrap := 0, bootSel := 0, sid := 0, sidOvr := false, epoch := 0, epochDone := 0, pending := false, since := 0,
    doneEvt := false, refused := false, noteErr := false, reason := 0, lag := 0, note := 0 }

def Region.zero : Region := { state := 0, busy := false, retired := false }
def GtEnt.zero : GtEnt := { group := 0, valid := false }

def Tables.reset : Tables :=
  { region := [], gt := [], gown := [], errWin := false, errGtw := false, staleRisk := [], retiring := none, damage := [] }

def FaultQ.zero : FaultQ :=
  { base := 0, en := false, log2n := 7, head := 0, tail := 0, alloc := 0, written := [], lost := 0, qerr := false,
    lostMark := false }

def Xlt.reset : Xlt :=
  { inv := none, ref := 0, errRoot := false, errInvBusy := false, errFqcfg := false, errHead := false, fq := [],
    tlb := [], walksE := [], walksW := [], walkWaitE := [], walkWaitW := [], walkIds := 0 }

def Meta.zero : Meta :=
  { tag := 0, part := 0, sv := 0, sd := 0, sp := 0, pinned := false, melt := false, replica := false, rheld := false,
    ref := false, demoted := false, xcnt := 0, sharers := 0, lcrcV := false, pf := false, lcrc := 0 }

def Cch.reset : Cch :=
  { offerEn := true, arg0 := 0, arg1 := 0, plow := [], qfull := false, cmderr := false, issued := 0, done := 0,
    errCode := 0, errSeq := 0, invTmo := 100, clrBusy := 0, dirErr := 0 }

def Cache.reset : Cache :=
  { data := [], line := [], ecc := [], mshr := [], blocked := [], invs := [], offers := [], pool := [], poolTag := 0,
    invTag := 0, asked := [], got := [], posted := [], toE := [], toW := [], stopE := false, stopW := false }

/-- FREE is what a block of a PINNED region is unless listed otherwise. -/
def Blk.zero : Blk := { st := 1, owner := 0 }

def Buf.reset : Buf :=
  { blk := [], waitE := [], waitW := [], wqFullE := 0, wqFullW := 0, query := 0, errRel := false, frees := [],
    used := [], drain := [] }

def Ord.zero : Ord :=
  { base := 0, en := false, part := 0, nl := 0, k := 0, done := 0, homed := 0, err := false, tmo := false, dead := false }

def AtuHalf.reset : AtuHalf :=
  { waiting := [], queue := [], held := [], atoms := [], nv := false, of := false, uf := false, nx := false, discPoison := 0,
    discReset := 0 }

def Atu.reset : Atu :=
  { he := AtuHalf.reset, hw := AtuHalf.reset, ordcfg := false, ord := [], next := [], ids := 0 }

def TaskQ.zero : TaskQ :=
  { base := 0, en := false, part := 0, prio := 0, half := .e, log2n := 4, head := 0, tail := 0, dbErr := false,
    cfg := false, fetchErr := false, doneLost := 0, fetching := false }

def SeqPart.zero : SeqPart :=
  { thaw := 100, thawCnt := 0, ctxBase := 0, ctxLog2n := 0, badcmd := false, werr := false, noslot := false,
    cfg := false, preempts := 0, used := 0, park := 0, slots := [] }

def Stream.zero : Stream :=
  { used := false, tok := 0, desc := 0, line := 0, donemap := 0, passed := [], xl := [], src := none, dst := none,
    hit := [], flights := [], failed := [], chosen := [], stop := none, recorded := false, recSlot := none, cancel := false }

def Thread.zero : Thread :=
  { phase := .free, pc := 0, g := [], toks := 0, tokLine := [], precise := false, thaw := 0, queue := 0, slot := 0,
    slotV := false, prio := 0, part := 0, donePva := 0, tag := 0, started := 0, s0 := Stream.zero, s1 := Stream.zero,
    outs := [], nextId := 0, wait := none, waitLeft := none, xl := none, hit := none, raised := none, held := none, word := none,
    recSlot := none, ahead := none }

def Seq.reset : Seq :=
  { tq := [], sp := [], resumeE := [], resumeW := [], rrE := 127, rrW := 127, th := [], ro := [] }

def Credits.zero : Credits := { c0 := 0, c1 := 0, c2 := 0, c3 := 0, invsc := 0 }

/-- A port at reset (R300): DISABLED, two spare lanes, none in use. -/
def Port.zero : Port :=
  { en := false, state := 0, degraded := false, spares := 2, upEvt := false, downEvt := false, spareFail := false,
    cfgErr := false, badframe := false, sub16 := 0x1F, sub17 := 0x1F, failed := 0, gen := 0, since := 0 }

def LinkSt.zero : LinkSt :=
  { tx := [], buf := [], txResumed := true, base := 0, expect := 0, unacked := 0, nak := false, replays := 0, progress := 0,
    lastFrame := 0, lastBlock := 0, pingAt := none, sparing := none, cred := Credits.zero, wait := [], freed := Credits.zero, open_ := [],
    resumed := true, rx := [], ctrl := [], symErr := [] }

def Links.reset : Links := { port := [], link := [], split := true, blocks := [] }

def MStat.zero : MStat :=
  { last := 0, floorMiss := false, demoted := false, count := 0, ready := 0, credit := 0, least := 0, most := 0 }

def Bwr.reset : Bwr :=
  { ms := [], errFsum := false, errMiss := false, errCfg := false, plowE := 0, plowW := 0, allE := 0, allW := 0,
    rr1E := 21, rr1W := 21, rr6E := 21, rr6W := 21, setE := 0, setW := 0, window := 0 }

def Integ.reset : Integ :=
  { patrolEn := true, lcrcChk := true, budgetE := 0, budgetW := 0, ceThr := 16, ue := false, metaLoss := false,
    crc := false, tag := false, shelf := false, passE := 0, passW := 0, elig := [], patrol := [], skipped := [], prst := [],
    prstPart := 0, prstCause := 0, prstRefused := false, prstDisc := 0, injAddr := 0, injSector := 0, injKind := 0,
    injArm := false, injected := [] }

def ErrLog.reset : ErrLog :=
  { ring := [], head := 0, tail := 0, lost := 0, headErr := false, fatal := [], count := 0, ce := [] }

def Target.zero : Target :=
  { state := 0, next := 0, trans := 0, since := 0, repeats := 0, lastPass := [], bad := 0, lane := 0, fresh := false, want := 0, log2s := 0,
    packVer := 0, forced := false, back := 0,
    lastIdle := none, lastOp := none, began := 0 }

def Calve.zero : Calve := { phase := 0, bank := 0, rows := 0, abort := false, spare := 0, source := 0 }

/-- The built-in pack, version 0 (R356): s is 0 for each class (PRESUMED, log entry 17). -/
def Pack.builtin : Pack := { ver := 0, s := [], expect := [] }

def Tst.reset : Tst :=
  { en := true, autoCalve := true, retireEn := true, persistEn := true, stat := 0, thrCe := 4096, thrUe := 2, uid := 0,
    packSa := 0, packBusy := false, packResult := 0, pack := Pack.builtin, queue := [], written := 0, repSeq := 0,
    ageThr := 300, degr := [], aged := [], ageAt := [], calve := [], tgt := [], spareUsed := [], bankMap := [], ueCount := [],
    cePass := [], toRetire := [] }

def Repairs.reset : Repairs :=
  { logical := [], waitE := [], waitW := [], linkSpare := none, groupsOut := 0 }

def Dom.zero : Dom := { st := 0, gen := 0 }

def Pwr.reset : Pwr :=
  { vaon := true, pwrgood := false, resetN := false, trip := false, cause := 1, fatal := false, tripStat := false,
    fcnt := 0, resets := 0, resetSt := .none, dom := [], cmd := none, resDom := 0, resCode := 0, resDone := false,
    disc := 0, unitCode := 0, unitUnit := 0, unitDone := false, unitGen := [] }

def Sense.reset : Sense :=
  { temp := [], valid := [], warn := 0x2F8, warnStat := false, restore := [], refreshed := [] }

def Boot.reset : Boot :=
  { phase := .waitReset, slot := 3, fallback := false, recovery := false, warm := false, notrim := false,
    slowclk := false, signed := false, errA := 0, errB := 0, spimode := 0, sfdp := false, seq := 0, start := 0,
    keyhash := 0, keyset := false, eraseLog2 := 0, pageLog2 := 0, since := 0, warmBoot := false, first := .a, leftA := false,
    leftB := false, dest := 0, entry := 0, packKey := 0, repOff := 0, repLen := 0, flash := [] }

def UartCfg.reset : UartCfg :=
  { div := 109, osr := 0, divX := 27, osrX := 1, data := 8, parity := 0, stop := 0, fc := false, raw := false }

def Uart.reset : Uart :=
  { cfg := UartCfg.reset, act := UartCfg.reset, idle := false, fe := false, pe := false, ovr := false, brk := false,
    errs := 0, rx := [], tx := [], read := 0, cts := false, sent := [], gap := false }

def Mgt.reset : Mgt :=
  { lock := false, echo := true, bin := false, badframe := 0, cmds := 0, partial_ := [], partialAt := 0, answers := [], bootLines := [],
    smbAddr := 0, smbEn := true, pecErr := 0, mbref := false, staging := [], stageOff := 0, smbReply := none,
    inLen := 0, inFull := false, outLen := 0, outFull := false, noteErr := false, outRef := false, note := 0,
    puts := 0 }

def Mbox.reset : Mbox := { inb := [], outb := [] }
def CntSel.zero : CntSel := { event := 0, half := 0, part := 0, partEn := false, chain := false }
def Cnt.reset : Cnt := { val := [], snap := [], sel := [], snapTime := 0, ovf := 0, errSel := false }

def Jtag.reset : Jtag :=
  { tap := .reset, irShift := 0, ir := 3, shift := 0, latch := 0, bypass := false, tdo := none }

def Clk.reset : Clk :=
  { time := 0, pllLock := false, pclkEvt := false, xtalFail := false, xtalOn := true, latch := [], read := 0 }

/-- The slice right after power-on reset: VAON is up, PWRGOOD is low and RESET_N asserted (R373), D0 alone is on, and no
command waits. -/
def State.reset : State :=
  { clk := Clk.reset, loops := Loops.reset, glb := Glb.reset, cur := Staged.reset, prev := Staged.reset,
    shadow := Staged.reset, tables := Tables.reset, xlt := Xlt.reset, cch := Cch.reset, cache := Cache.reset,
    buf := Buf.reset, atu := Atu.reset, seq := Seq.reset, links := Links.reset, bwr := Bwr.reset,
    integ := Integ.reset, log := ErrLog.reset, tst := Tst.reset, rep := Repairs.reset, pwr := Pwr.reset,
    sense := Sense.reset, boot := Boot.reset, uart := Uart.reset, mgt := Mgt.reset, mbox := Mbox.reset,
    cnt := Cnt.reset, jtag := Jtag.reset, freeCtr := 0, pending := [] }

end Sys2Proof.Machine
end

