-- ==== Sys2Proof/Machine/Tab.lean ====
section
/-! DEFINITION. Sparse tables in canonical form, byte memory over them, and the bit-field and byte-order helpers. -/

namespace Sys2Proof.Machine

/-! ## Tables -/

/-- The value at index n: the listed one, or the default d. -/
def tget {α : Type} (d : α) : Tab α → Nat → α
  | [], _ => d
  | (k, v) :: t, n => if k = n then v else tget d t n

/-- Every entry but those at index n. -/
def tdel {α : Type} : Tab α → Nat → Tab α
  | [], _ => []
  | (k, v) :: t, n => if k = n then tdel t n else (k, v) :: tdel t n

/-- Insert an entry before the first larger index. -/
def tins {α : Type} : Tab α → Nat → α → Tab α
  | [], n, v => [(n, v)]
  | (k, w) :: t, n, v => if n < k then (n, v) :: (k, w) :: t else (k, w) :: tins t n v

/-- Set index n to v; setting the default removes the entry, so equal tables are equal lists. -/
def tset {α : Type} [DecidableEq α] (d : α) (t : Tab α) (n : Nat) (v : α) : Tab α :=
  if v = d then tdel t n else tins (tdel t n) n v

/-- Change the value at index n by f. -/
def tmod {α : Type} [DecidableEq α] (d : α) (t : Tab α) (n : Nat) (f : α → α) : Tab α := tset d t n (f (tget d t n))

/-- Canonical form above a bound: indexes strictly rising and no entry equal to the default. -/
def twfFrom {α : Type} [DecidableEq α] (d : α) : Nat → Tab α → Bool
  | _, [] => true
  | lo, (k, v) :: t => decide (lo ≤ k) && !decide (v = d) && twfFrom d (k + 1) t

/-- Canonical form of a table. -/
def twf {α : Type} [DecidableEq α] (d : α) (t : Tab α) : Bool := twfFrom d 0 t

/-! ## Byte memory -/

/-- The byte at address a; an unlisted byte reads 0 (R159; log entry 4). -/
def memByte (m : List Host.Cell) (a : Nat) : Byte := tget 0 m a

/-- Write one byte. -/
def memSet (m : List Host.Cell) (a : Nat) (v : Byte) : List Host.Cell := tset 0 m a v

/-- The canonical form of memory: addresses strictly rising, no entry 0. -/
def Memory.wf (m : List Host.Cell) : Bool := twf (0 : Byte) m

/-- The little-endian number in n bytes from address a (R7). -/
def memRead (m : List Host.Cell) (a : Nat) : Nat → Nat
  | 0 => 0
  | n + 1 => (memByte m a).toNat + 256 * memRead m (a + 1) n

/-- Store the low n bytes of v at address a, little-endian (R7). -/
def memWrite (m : List Host.Cell) (a : Nat) : Nat → Nat → List Host.Cell
  | 0, _ => m
  | n + 1, v => memWrite (memSet m a (BitVec.ofNat 8 v)) (a + 1) n (v / 256)

/-- The bytes from address a, in ascending order, with the default d for unlisted ones. -/
def tbytes (d : Byte) (t : Tab Byte) (a : Nat) : Nat → List Byte
  | 0 => []
  | n + 1 => tget d t a :: tbytes d t (a + 1) n

/-- Put bytes at ascending addresses from a. -/
def tputBytes (d : Byte) (t : Tab Byte) (a : Nat) : List Byte → Tab Byte
  | [] => t
  | b :: bs => tputBytes d (tset d t a b) (a + 1) bs

/-! ## Bits and bytes -/

/-- Field [lo + w - 1 : lo] of a number. -/
def field (v lo w : Nat) : Nat := v / 2 ^ lo % 2 ^ w

/-- Field [lo + w - 1 : lo] of a bit vector. -/
def bits {n : Nat} (v : BitVec n) (lo w : Nat) : BitVec w := v.extractLsb' lo w

/-- Bit i as a Bool. -/
def bit {n : Nat} (v : BitVec n) (i : Nat) : Bool := v.getLsbD i

/-- One bit as a number. -/
def b2n (b : Bool) : Nat := if b then 1 else 0

/-- v with bit i set to b. -/
def setBit {n : Nat} (v : BitVec n) (i : Nat) (b : Bool) : BitVec n :=
  let one : BitVec n := BitVec.ofNat n 1 <<< i
  if b then v ||| one else v &&& ~~~one

/-- A register's bits from its fields: position and value of each. -/
def pack (n : Nat) : List (Nat × Nat) → BitVec n
  | [] => 0
  | (lo, v) :: fs => (BitVec.ofNat n v <<< lo) ||| pack n fs

/-- The n bytes of a number, least significant first. -/
def toBytes : Nat → Nat → List Byte
  | 0, _ => []
  | n + 1, v => BitVec.ofNat 8 v :: toBytes n (v / 256)

/-- The number whose bytes, least significant first, are given. -/
def ofBytes : List Byte → Nat
  | [] => 0
  | b :: bs => b.toNat + 256 * ofBytes bs

/-- The number whose bytes, most significant first, are given (the big-endian exceptions of R353 and R390). -/
def ofBytesBE (bs : List Byte) : Nat := ofBytes bs.reverse

/-- A saturating counter of w bits plus k. -/
def satAdd {w : Nat} (v : BitVec w) (k : Nat) : BitVec w :=
  if v.toNat + k ≥ 2 ^ w then BitVec.allOnes w else BitVec.ofNat w (v.toNat + k)

/-- How many bits of v are set. -/
def popcount {n : Nat} (v : BitVec n) : Nat := (List.range n).foldl (fun k i => k + b2n (v.getLsbD i)) 0

/-- Free-running comparison: a is at or after b, both modulo 2^w (R115, R154). -/
def frGe {w : Nat} (a b : BitVec w) : Bool := (a - b).toNat < 2 ^ (w - 1)

end Sys2Proof.Machine

namespace Sys2Proof

/-! ## Halves -/

/-- 0 for E, 1 for W. -/
def Half.idx : Half → Nat
  | .e => 0
  | .w => 1

def Half.other : Half → Half
  | .e => .w
  | .w => .e

/-- The half a bit names: 0 E, 1 W. -/
def Half.ofBool (b : Bool) : Half := if b then .w else .e

/-- Choose by half. -/
def Half.pick {α : Type} (h : Half) (e w : α) : α :=
  match h with
  | .e => e
  | .w => w

end Sys2Proof
end

