-- ==== Sys2Proof/Machine/Flags.lean ====
section
/-! DEFINITION. Element arithmetic of ADDL and its sticky flags (R178 to R181), the arithmetic of the integer
instructions (R255) and the conditions (R256). -/

namespace Sys2Proof.Machine

/-! ## Floating-point addition -/

/-- The sticky flags of R181. -/
structure FpFlags where
  nv : Bool
  of : Bool
  uf : Bool
  nx : Bool
  deriving DecidableEq, Repr, Inhabited

def FpFlags.none : FpFlags := { nv := false, of := false, uf := false, nx := false }

def FpFlags.join (a b : FpFlags) : FpFlags :=
  { nv := a.nv || b.nv, of := a.of || b.of, uf := a.uf || b.uf, nx := a.nx || b.nx }

/-- A floating-point format: exponent and fraction bits (R178). -/
structure FpFmt where
  eb : Nat
  fb : Nat
  deriving DecidableEq, Repr

def FpFmt.fp32 : FpFmt := { eb := 8, fb := 23 }
def FpFmt.bf16 : FpFmt := { eb := 8, fb := 7 }
def FpFmt.fp16 : FpFmt := { eb := 5, fb := 10 }

def FpFmt.width (f : FpFmt) : Nat := 1 + f.eb + f.fb
def FpFmt.expMax (f : FpFmt) : Nat := 2 ^ f.eb - 1
def FpFmt.frac (f : FpFmt) (x : Nat) : Nat := x % 2 ^ f.fb
def FpFmt.exp (f : FpFmt) (x : Nat) : Nat := x / 2 ^ f.fb % 2 ^ f.eb
def FpFmt.neg (f : FpFmt) (x : Nat) : Bool := x / 2 ^ (f.eb + f.fb) % 2 = 1
def FpFmt.inf (f : FpFmt) : Nat := f.expMax * 2 ^ f.fb
def FpFmt.signBit (f : FpFmt) (b : Bool) : Nat := if b then 2 ^ (f.eb + f.fb) else 0
def FpFmt.isNan (f : FpFmt) (x : Nat) : Bool := f.exp x = f.expMax ∧ f.frac x ≠ 0
def FpFmt.isInf (f : FpFmt) (x : Nat) : Bool := f.exp x = f.expMax ∧ f.frac x = 0
/-- A signalling NaN: the top fraction bit is 0 (IEEE 754). -/
def FpFmt.isSnan (f : FpFmt) (x : Nat) : Bool := f.isNan x && decide (f.frac x < 2 ^ (f.fb - 1))
/-- The canonical quiet NaN (R179). -/
def FpFmt.qnan (f : FpFmt) : Nat := f.inf + 2 ^ (f.fb - 1)

/-- A finite value as an integer multiple of the smallest subnormal. -/
def FpFmt.units (f : FpFmt) (x : Nat) : Int :=
  let m : Nat := if f.exp x = 0 then f.frac x else (2 ^ f.fb + f.frac x) * 2 ^ (f.exp x - 1)
  if f.neg x then -(m : Int) else (m : Int)

/-- The bits of a magnitude given in smallest subnormals, rounded to nearest, ties to even; and whether rounding
changed it. -/
def FpFmt.round (f : FpFmt) (m : Nat) : Nat × Bool :=
  if m < 2 ^ (f.fb + 1) then (m, false)
  else
    let k := Nat.log2 m - f.fb
    let q := m / 2 ^ k
    let rem := m % 2 ^ k
    let half := 2 ^ (k - 1)
    let up := rem > half ∨ (rem = half ∧ q % 2 = 1)
    (k * 2 ^ f.fb + q + (if up then 1 else 0), rem ≠ 0)

/-- One element: line element m, payload element p (R179, R181). -/
def fpAdd (f : FpFmt) (m p : Nat) : Nat × FpFlags :=
  if p = f.signBit true then (m, FpFlags.none)
  else if f.isNan m ∨ f.isNan p then (f.qnan, { FpFlags.none with nv := f.isSnan m || f.isSnan p })
  else if f.isInf m then
    if f.isInf p ∧ f.neg m ≠ f.neg p then (f.qnan, { FpFlags.none with nv := true }) else (m, FpFlags.none)
  else if f.isInf p then (p, FpFlags.none)
  else
    let sum := f.units m + f.units p
    if sum = 0 then (f.signBit (f.neg m && f.neg p), FpFlags.none)
    else
      let r := f.round sum.natAbs
      let sign := f.signBit (decide (sum < 0))
      if r.1 ≥ f.inf then (sign + f.inf, { nv := false, of := true, uf := false, nx := true })
      else (sign + r.1, { nv := false, of := false, uf := r.2 && decide (r.1 < 2 ^ f.fb), nx := r.2 })

/-- Element width in bits of an ADDL format; none for a reserved code (R178). -/
def addlWidth (fmt : Nat) : Option Nat :=
  if fmt = 0 ∨ fmt = 3 then some 32 else if fmt = 1 ∨ fmt = 2 ∨ fmt = 4 then some 16 else none

/-- One element of a format (R179, R180). -/
def addlElem (fmt m p : Nat) : Nat × FpFlags :=
  if fmt = 0 then fpAdd FpFmt.fp32 m p
  else if fmt = 1 then fpAdd FpFmt.bf16 m p
  else if fmt = 2 then fpAdd FpFmt.fp16 m p
  else if fmt = 3 then ((m + p) % 2 ^ 32, FpFlags.none)
  else ((m + p) % 2 ^ 16, FpFlags.none)

/-- Elements i = 0 .. n - 1 of width w, added and put back in place. -/
def addlElems (fmt w : Nat) (line payload : Nat) : Nat → Nat × FpFlags
  | 0 => (0, FpFlags.none)
  | n + 1 =>
    let rest := addlElems fmt w line payload n
    let e := addlElem fmt (field line (w * n) w) (field payload (w * n) w)
    (rest.1 + e.1 * 2 ^ (w * n), rest.2.join e.2)

/-- The line after an ADDL of the payload, and the flags it sets (R178 to R181). -/
def addlLine (fmt : Nat) (line payload : BitVec 1024) : BitVec 1024 × FpFlags :=
  match addlWidth fmt with
  | none => (line, FpFlags.none)
  | some w =>
    let r := addlElems fmt w line.toNat payload.toNat (1024 / w)
    (BitVec.ofNat 1024 r.1, r.2)

/-! ## Integer instructions and conditions -/

/-- The second operand y = gb + imm (R247). -/
def opY (gb : BitVec 64) (imm : BitVec 32) : BitVec 64 := gb + imm.signExtend 64

/-- DIV (R255): signed, towards zero, with its two defined corners. -/
def divW (a y : BitVec 64) : BitVec 64 :=
  if y = 0 then BitVec.allOnes 64
  else if a = BitVec.intMin 64 ∧ y = BitVec.allOnes 64 then BitVec.intMin 64
  else BitVec.ofInt 64 (a.toInt.tdiv y.toInt)

/-- REM (R255). -/
def remW (a y : BitVec 64) : BitVec 64 :=
  if y = 0 then a
  else if a = BitVec.intMin 64 ∧ y = BitVec.allOnes 64 then 0
  else BitVec.ofInt 64 (a.toInt - y.toInt * a.toInt.tdiv y.toInt)

/-- The condition in V (R256); values 6 to 15 are reserved. -/
def cond (v : Nat) (a y : BitVec 64) : Bool :=
  if v = 0 then a == y
  else if v = 1 then a != y
  else if v = 2 then decide (a.toInt < y.toInt)
  else if v = 3 then decide (y.toInt ≤ a.toInt)
  else if v = 4 then decide (a.toNat < y.toNat)
  else decide (y.toNat ≤ a.toNat)

/-- An atomic's new value in memory, for an operand of n bytes held as numbers below 2^(8n) (R174). -/
def atomNew (k : AtomKind) (n mem v cmp : Nat) : Nat :=
  let s (x : Nat) : Int := if x < 2 ^ (8 * n - 1) then x else (x : Int) - 2 ^ (8 * n)
  match k with
  | .add => (mem + v) % 2 ^ (8 * n)
  | .cas => if mem = cmp then v else mem
  | .swp => v
  | .min true => if s v < s mem then v else mem
  | .min false => if v < mem then v else mem
  | .max true => if s mem < s v then v else mem
  | .max false => if mem < v then v else mem
  | .semw => if mem = 0 then 0 else mem - 1

end Sys2Proof.Machine
end

