-- ==== Sys2Proof/Machine/Crc.lean ====
section
/-! DEFINITION. The checks the spec defines bit by bit: CRC-32C and the line CRC (R330), the Svet CRC-16 and COBS (R410). -/

namespace Sys2Proof.Machine

/-- One bit of the reflected CRC-32C (R330). -/
def crcBit (r : BitVec 32) : BitVec 32 := if r.getLsbD 0 then (r >>> 1) ^^^ 0x82F63B78 else r >>> 1

/-- Eight bits. -/
def crcBits : Nat → BitVec 32 → BitVec 32
  | 0, r => r
  | n + 1, r => crcBits n (crcBit r)

/-- The register after the bytes (R330). -/
def crcRun (r : BitVec 32) : List Byte → BitVec 32
  | [] => r
  | b :: bs => crcRun (crcBits 8 (r ^^^ b.setWidth 32)) bs

/-- CRC-32C of bytes (R330, R230, R353, R390). -/
def crc32c (bs : List Byte) : BitVec 32 := ~~~(crcRun 0xFFFFFFFF bs)

/-- The line CRC: CRC-32C seeded with the line's index within its tensor block (R330). -/
def lineCrc (data : BitVec 1024) (i : Nat) : BitVec 32 :=
  ~~~(crcRun (0xFFFFFFFF ^^^ BitVec.ofNat 32 i) (toBytes 128 data.toNat))

/-- The index of a line within its tensor block, SA[11:7] (R330). -/
def lineIdx (sa : Sa) : Nat := field sa.toNat 7 5

/-- One bit of CRC-16/CCITT (R410). -/
def crc16Bit (r : BitVec 16) : BitVec 16 := if r.getLsbD 15 then (r <<< 1) ^^^ 0x1021 else r <<< 1

def crc16Bits : Nat → BitVec 16 → BitVec 16
  | 0, r => r
  | n + 1, r => crc16Bits n (crc16Bit r)

/-- CRC-16/CCITT, initial value 0xFFFF, no reflection, no final XOR (R410). -/
def crc16 (bs : List Byte) : BitVec 16 := 
  bs.foldl (fun (r : BitVec 16) (b : Byte) => crc16Bits 8 (r ^^^ ((b.setWidth 16) <<< (8 : Nat)))) (0xFFFF : BitVec 16)

/-- COBS decoding of a frame without its closing 0x00 (R410); none where it does not decode. -/
def cobsDecode : Nat → List Byte → Option (List Byte)
  | _, [] => some []
  | 0, _ => none
  | fuel + 1, c :: rest =>
    let n := c.toNat - 1
    if c = 0 ∨ rest.length < n ∨ (rest.take n).contains 0 then none
    else
      match cobsDecode fuel (rest.drop n) with
      | none => none
      | some more =>
        some (rest.take n ++ (if c.toNat = 255 ∨ (rest.drop n).isEmpty then [] else [0]) ++ more)

/-- The little-endian CRC-16 at the end of a decoded frame agrees with the bytes before it (R410). -/
def frameOk (bs : List Byte) : Bool :=
  let body := bs.take (bs.length - 2)
  decide (4 ≤ bs.length) && decide (ofBytes (bs.drop (bs.length - 2)) = (crc16 body).toNat)

end Sys2Proof.Machine
end

