-- ==== Sys2Proof/Machine/Ops.lean ====
section
/-! DEFINITION. The named operations every command uses: time, free values, domains, staged views, counters, error
records, ports and frames, threads. -/

namespace Sys2Proof.Machine

/-! ## The answer of a command -/

/-- A command's answer: state t in place of s, but for what no command changes: the timebase count, which "counts
upwards only and is never written" (R71), and the queue. -/
def answer (s t : State) : Host.Outcome State Fault Refusal :=
  .next { t with clk := { t.clk with time := s.clk.time }, pending := s.pending }

/-! ## Parts of the state -/

def State.onClk (s : State) (f : Clk → Clk) : State := { s with clk := f s.clk }
def State.onLoops (s : State) (f : Loops → Loops) : State := { s with loops := f s.loops }
def State.onGlb (s : State) (f : Glb → Glb) : State := { s with glb := f s.glb }
def State.onShadow (s : State) (f : Staged → Staged) : State := { s with shadow := f s.shadow }
def State.onTables (s : State) (f : Tables → Tables) : State := { s with tables := f s.tables }
def State.onXlt (s : State) (f : Xlt → Xlt) : State := { s with xlt := f s.xlt }
def State.onCch (s : State) (f : Cch → Cch) : State := { s with cch := f s.cch }
def State.onCache (s : State) (f : Cache → Cache) : State := { s with cache := f s.cache }
def State.onBuf (s : State) (f : Buf → Buf) : State := { s with buf := f s.buf }
def State.onAtu (s : State) (f : Atu → Atu) : State := { s with atu := f s.atu }
def State.onSeq (s : State) (f : Seq → Seq) : State := { s with seq := f s.seq }
def State.onLinks (s : State) (f : Links → Links) : State := { s with links := f s.links }
def State.onBwr (s : State) (f : Bwr → Bwr) : State := { s with bwr := f s.bwr }
def State.onInteg (s : State) (f : Integ → Integ) : State := { s with integ := f s.integ }
def State.onLog (s : State) (f : ErrLog → ErrLog) : State := { s with log := f s.log }
def State.onTst (s : State) (f : Tst → Tst) : State := { s with tst := f s.tst }
def State.onRep (s : State) (f : Repairs → Repairs) : State := { s with rep := f s.rep }
def State.onPwr (s : State) (f : Pwr → Pwr) : State := { s with pwr := f s.pwr }
def State.onSense (s : State) (f : Sense → Sense) : State := { s with sense := f s.sense }
def State.onBoot (s : State) (f : Boot → Boot) : State := { s with boot := f s.boot }
def State.onUart (s : State) (f : Uart → Uart) : State := { s with uart := f s.uart }
def State.onMgt (s : State) (f : Mgt → Mgt) : State := { s with mgt := f s.mgt }
def State.onMbox (s : State) (f : Mbox → Mbox) : State := { s with mbox := f s.mbox }
def State.onCnt (s : State) (f : Cnt → Cnt) : State := { s with cnt := f s.cnt }

/-! ## Time -/

/-- Timebase counts since t (R71). -/
def elapsed (s : State) (t : BitVec 64) : Nat := s.clk.time.toNat - t.toNat

/-- A timebase-derived time of n ns that began at t is due (R6, R71). -/
def due (s : State) (t : BitVec 64) (n : Nat) : Bool := decide (n ≤ elapsed s t)

/-- Nothing has happened yet, or it happened at least n ns ago. -/
def longAgo (s : State) (t : Option (BitVec 64)) (n : Nat) : Bool :=
  match t with
  | none => true
  | some x => due s x n

/-- Counts of the next step of the timebase (R71): 5 from the PLL, 40 from the crystal, none when both are dead. -/
def tickStep (c : Clk) : Nat := if c.pllLock then 5 else if c.xtalOn then 40 else 0

/-! ## Free values -/

/-- A fresh free value, and the state with the model's counter advanced (log entry 2). -/
def freeVal (s : State) : BitVec 64 × State :=
  (Config.freeValue s.freeCtr, { s with freeCtr := s.freeCtr + 1 })

/-! ## Counters (R424 to R426) -/

/-- The last value of a 48-bit counter. -/
def cntMax : Nat := 2 ^ 48 - 1

def setOvf (s : State) (n : Nat) : State := s.onCnt fun c => { c with ovf := setBit c.ovf n true }

def cntSel (s : State) (n : Nat) : CntSel := tget CntSel.zero s.cnt.sel n
def cntVal (s : State) (n : Nat) : BitVec 48 := tget 0 s.cnt.val n

def setCnt (s : State) (n : Nat) (v : BitVec 48) : State := s.onCnt fun c => { c with val := tset 0 c.val n v }

/-- Add k to counter n: it saturates, or with CHAIN wraps and adds 1 to counter n + 1 (R426). `fuel` bounds the chain. -/
def cntAdd : Nat → Nat → Nat → State → State
  | 0, _, _, s => s
  | fuel + 1, n, k, s =>
    let v := (cntVal s n).toNat + k
    if v ≤ cntMax then setCnt s n (BitVec.ofNat 48 v)
    else if (cntSel s n).chain ∧ n < 255 then
      cntAdd fuel (n + 1) 1 (setOvf (setCnt s n (BitVec.ofNat 48 v)) n)
    else setOvf (setCnt s n (BitVec.allOnes 48)) n

/-- Whether counter n counts only carries: its predecessor has CHAIN set (R426). -/
def cntCarries (s : State) (n : Nat) : Bool := decide (0 < n) && (cntSel s (n - 1)).chain

/-- Whether a selection counts an event (R425): `h` and `p` are none for an event not marked H, not marked P. HALF 3 is
not among the listed values: whether it counts is left to the configuration (log entry 20). -/
def cntMatch (c : CntSel) (ev : Nat) (h : Option Half) (p : Option Part) : Bool :=
  decide (c.event.toNat = ev) && decide (ev ≠ 0) &&
  (match h with
   | none => true
   | some x =>
     if c.half = 0 then true
     else if c.half = 3 then bit (Config.freeValue 0) 0
     else decide (c.half.toNat = x.idx + 1)) &&
  (!c.partEn || (match p with | none => false | some x => decide (c.part = x)))

/-- k events of code ev in half h for partition p (R424, R425). -/
def cnt (ev : Nat) (h : Option Half) (p : Option Part) (k : Nat) (s : State) : State :=
  s.cnt.sel.foldl
    (fun t e => if cntMatch e.2 ev h p && !cntCarries s e.1 then cntAdd 256 e.1 k t else t) s

/-! ## Domains (R36, R382) -/

/-- STATE of domain d: 0 OFF, 1 ON, 2 SWITCHING_ON, 3 SWITCHING_OFF; D0 is on while VAON is (R37). -/
def domSt (s : State) (d : Nat) : Nat :=
  if d = 0 then b2n s.pwr.vaon else (tget Dom.zero s.pwr.dom d).st.toNat

/-- Domain d is ON. -/
def domOn (s : State) (d : Nat) : Bool := domSt s d == 1

/-- Domain d is ON or draining before it goes off: what it accepted goes on (R384). -/
def domRuns (s : State) (d : Nat) : Bool := domSt s d == 1 || domSt s d == 3

/-- A register write is performed only while a domain that serves the block is on (R431). -/
def ifUp (a b : Nat) (f : State → State) (s : State) : State := if domOn s a || domOn s b then f s else s

/-- The tag/directory pipeline and the datapath of half h are on (R36 edges). -/
def homeUp (s : State) (h : Half) : Bool := h.pick (domOn s 3 && domOn s 5) (domOn s 4 && domOn s 6)

/-- The sequencer cluster of half h is on. -/
def seqUp (s : State) (h : Half) : Bool := h.pick (domOn s 1) (domOn s 2)

/-- The sequencer cluster of half h runs. -/
def seqRuns (s : State) (h : Half) : Bool := h.pick (domRuns s 1) (domRuns s 2)

/-- A warm reset has fenced the slice (R378 step 1). -/
def warmFenced (s : State) : Bool :=
  match s.pwr.resetSt with
  | .warm _ _ => true
  | _ => false

/-- Both ends of the half link are on (R22). -/
def halfLinkUp (s : State) : Bool := domOn s 5 && domOn s 6

/-- The domain of port n (R36). -/
def portDom (n : Nat) : Nat := if n < 3 then 7 else if n < 6 then 8 else 9

/-- The half a partner port enters (R142). -/
def portHalf (n : Nat) : Half := if n < 3 then .e else .w

/-! ## Staged views (R313, R314) -/

/-- The registers unit u of GLB_EPOCH_LAG works with: those before the pending epoch while it lags. -/
def viewOf (s : State) (u : Nat) : Staged := if s.glb.lag.getLsbD u then s.prev else s.cur

/-- The view of the tag/directory pipeline, the walker, the allocator and the regulator of half h. -/
def pipeView (s : State) (h : Half) : Staged := viewOf s h.idx
def walkView (s : State) (h : Half) : Staged := viewOf s (2 + h.idx)
def allocView (s : State) (h : Half) : Staged := viewOf s (4 + h.idx)
def bwrView (s : State) (h : Half) : Staged := viewOf s (6 + h.idx)

def partReg (v : Staged) (p : Nat) : PartReg := tget PartReg.zero v.part p
def mcfg (v : Staged) (h : Half) (m : Nat) : MCfg := tget MCfg.zero v.mcfg (22 * h.idx + m)

/-! ## Threads (R213) -/

def thr (s : State) (t : Nat) : Thread := tget Thread.zero s.seq.th t
def setThr (s : State) (t : Nat) (x : Thread) : State := s.onSeq fun q => { q with th := tset Thread.zero q.th t x }
def modThr (s : State) (t : Nat) (f : Thread → Thread) : State := setThr s t (f (thr s t))

/-- Half of physical thread 36h + 4c + t. -/
def thrHalf (t : Nat) : Half := if t < 36 then .e else .w
/-- Core 9h + c of the slice. -/
def thrCore (t : Nat) : Nat := t / 4
/-- Core c within its half. -/
def coreInHalf (k : Nat) : Nat := k % 9
/-- A core's half. -/
def coreHalf (k : Nat) : Half := if k < 9 then .e else .w

/-- Logical number of physical core k = 9h + c; none for a spare or a failed core (R357). Cores 0 to 7 carry their own
number until a swap. -/
def logicalCore (s : State) (k : Nat) : Option Nat :=
  match tget none s.rep.logical k with
  | some v => if v = 0xFF then none else some v.toNat
  | none => if coreInHalf k < 8 then some (coreInHalf k) else none

/-- The core is in service. -/
def coreUp (s : State) (k : Nat) : Bool := (logicalCore s k).isSome && seqRuns s (coreHalf k)

/-- Master number of a thread's requests (R301). -/
def thrMaster (s : State) (t : Nat) : Nat :=
  let k := thrCore t
  let l := (logicalCore s k).getD (coreInHalf k)
  match coreHalf k with
  | .e => 6 + l
  | .w => 14 + l

/-- S mode: the task belongs to partition 0 (R215). -/
def sMode (th : Thread) : Bool := th.part == 0

def spReg (s : State) (p : Nat) : SeqPart := tget SeqPart.zero s.seq.sp p
def modSp (s : State) (p : Nat) (f : SeqPart → SeqPart) : State :=
  s.onSeq fun q => { q with sp := tset SeqPart.zero q.sp p (f (tget SeqPart.zero q.sp p)) }

/-- The thaw timeout of a partition, in counts; 0 acts as 1 (R243). -/
def thawNs (s : State) (p : Nat) : Nat := max 1 (spReg s p).thaw.toNat * 1000

/-- General register r of a thread; g0 reads 0 (R216). -/
def gReg (th : Thread) (r : Nat) : BitVec 64 := if r = 0 then 0 else tget 0 th.g r

/-- Write a general register; a write of g0 is discarded (R216). -/
def Thread.setG (th : Thread) (r : Nat) (v : BitVec 64) : Thread :=
  if r = 0 then th else { th with g := tset 0 th.g r v }

/-- The next instruction (R219); the PVA is 48 bits wide. -/
def Thread.next (th : Thread) : Thread := { th with pc := th.pc + 8 }

/-- The partition's thaw counter and event 0x047 count a thaw (R242). -/
def countThaw (s : State) (h : Half) (p : Part) : State :=
  cnt 0x047 (some h) (some p) 1 (modSp s p.toNat fun x => { x with thawCnt := x.thawCnt + 1 })

/-! ## Regions and array dies (R20, R81) -/

def region (s : State) (r : Nat) : Region := tget Region.zero s.tables.region r
def setRegion (s : State) (r : Nat) (x : Region) : State :=
  s.onTables fun t => { t with region := tset Region.zero t.region r x }

/-- Half of region r. -/
def regionHalf (r : Nat) : Half := if r < 192 then .e else .w
/-- Array die of region r (R20). -/
def regionDie (r : Nat) : Nat := r / 64
/-- The bank that holds region r, as 34 die + bank, after calving (R20, R21). -/
def regionBank (s : State) (r : Nat) : Nat :=
  let b := 34 * (r / 64) + r % 64 / 2
  match tget none s.tst.bankMap b with
  | none => b
  | some x => 34 * (r / 64) + x.toNat

def keyRegion (key : Nat) : Nat := key / 2 ^ 19
def keyRow (key : Nat) : Nat := key % 2 ^ 19 / 8

/-! ## Test targets (R347, R348) -/

def tgt (s : State) (h : Half) (t : Nat) : Target := tget Target.zero s.tst.tgt (22 * h.idx + t)
def setTgt (h : Half) (t : Nat) (x : Target) (s : State) : State :=
  s.onTst fun y => { y with tgt := tset Target.zero y.tgt (22 * h.idx + t) x }

/-- k operations of targets lo to lo + n - 1 of a half. Which ATU lane, datapath or lane group performs one is internal to the
slice: the model counts it for every one of its class that serves (log entry 33). -/
def countOps (h : Half) (lo n k : Nat) (s : State) : State :=
  (List.range n).foldl
    (fun s i =>
      let x := tgt s h (lo + i)
      if x.state = 0 ∨ (x.state = 2 ∧ x.back = 0) then setTgt h (lo + i) { x with since := x.since + k, lastOp := some s.clk.time } s else s) s

/-- Core k has failed and its threads wait to move to the spare (R357): they and their streams stop. -/
def coreMoving (s : State) (k : Nat) : Bool :=
  match (coreHalf k).pick s.rep.waitE s.rep.waitW with
  | [] => false
  | t :: _ => t.val == coreInHalf k

/-- A self-test step of core k is under way (R350). -/
def coreStepping (s : State) (k : Nat) : Bool := (tgt s (coreHalf k) (coreInHalf k)).state == 2

/-- A self-test step of core k is under way, or its threads wait to move: they pause. -/
def corePaused (s : State) (k : Nat) : Bool := coreStepping s k || coreMoving s k

/-! ## Error records (R340 to R344) -/

/-- An empty record of a class, a source and a half. -/
def Rec.mk0 (cls source : Nat) (h : Half) : Rec :=
  { cls := BitVec.ofNat 8 cls, sev := 0, source := BitVec.ofNat 8 source, half := h, die := 7, codewords := 0,
    part := none, region := none, row := 0, sa := none, time := 0, sect := 0, action := 0, master := 0xFF, expect := 0,
    actual := 0, count := 1, detail := 0, sid := 0, id := 0, simulated := false, prev := false }

/-- The lowest free fatal slot; slot 3 when all are full (R340). -/
def fatalSlot (l : ErrLog) : Nat :=
  if (tget none l.fatal 0).isNone then 0
  else if (tget none l.fatal 1).isNone then 1
  else if (tget none l.fatal 2).isNone then 2
  else 3

/-- Write a record: stamped, into the ring when it has room, and into the fatal store when fatal (R340, R342). -/
def writeRec (r : Rec) (s : State) : State :=
  let r := { r with time := s.clk.time, sid := s.glb.sid, id := s.log.count }
  let l := s.log
  let room : Bool := (l.tail - l.head).toNat < 64
  let l1 : ErrLog :=
    if room then { l with ring := tset none l.ring (l.tail.toNat % 64) (some r), tail := l.tail + 1 }
    else { l with lost := satAdd l.lost 1 }
  let l2 : ErrLog := if r.sev = 1 then { l1 with fatal := tset none l1.fatal (fatalSlot l1) (some r) } else l1
  let written : Bool := room || r.sev == 1
  { s with log := { l2 with count := if written then l.count + 1 else l.count } }

/-- A record about a line of the array. -/
def lineRec (s : State) (cls source : Nat) (key : Nat) : Rec :=
  let r := keyRegion key
  { Rec.mk0 cls source (regionHalf r) with
    die := BitVec.ofNat 3 (regionDie r), region := some (BitVec.ofNat 9 r), row := BitVec.ofNat 16 (keyRow key),
    simulated := s.integ.injected.contains key }

/-! ## Ports and frames (chapter 11) -/

def port (s : State) (n : Nat) : Port := tget Port.zero s.links.port n
def setPort (s : State) (n : Nat) (p : Port) : State := s.onLinks fun l => { l with port := tset Port.zero l.port n p }
def link (s : State) (n : Nat) : LinkSt := tget LinkSt.zero s.links.link n
def setLink (s : State) (n : Nat) (x : LinkSt) : State := s.onLinks fun l => { l with link := tset LinkSt.zero l.link n x }
def modLink (s : State) (n : Nat) (f : LinkSt → LinkSt) : State := setLink s n (f (link s n))

/-- The port carries traffic: ACTIVE, or RECAL, whose queued frames are sent when it returns (R296, R298). -/
def portLive (s : State) (n : Nat) : Bool := (port s n).state == 4 || (port s n).state == 5

def portActive (s : State) (n : Nat) : Bool := (port s n).state == 4

/-- Frame flits of a frame: 16 header bytes and the data, 62 bytes to a flit (R282, R287). -/
def frameFlits (f : Frame) : Nat := (16 + f.data.length + 61) / 62

/-- An empty frame of an opcode. -/
def Frame.mk0 (opc : Nat) (tag : BitVec 12) (p : Part) (sa : Sa) (cls : Fin 4) : Frame :=
  { opc := BitVec.ofNat 8 opc, tag := tag, part := p, var := 0, melt := false, chk := false, sa := sa, aux := 0,
    cls := cls, invsc := false, data := [] }

/-- Credits of a class or of the invalidation sub-channel (R285). -/
def creditOf (c : Credits) (cls : Fin 4) (invsc : Bool) : Nat :=
  if invsc then c.invsc.toNat
  else if cls = 0 then c.c0.toNat else if cls = 1 then c.c1.toNat else if cls = 2 then c.c2.toNat else c.c3.toNat

/-- The credits of one class become n. -/
def setCredit (c : Credits) (cls : Fin 4) (invsc : Bool) (n : Nat) : Credits :=
  if invsc then { c with invsc := BitVec.ofNat 16 n }
  else if cls = 0 then { c with c0 := BitVec.ofNat 16 n } else if cls = 1 then { c with c1 := BitVec.ofNat 16 n }
  else if cls = 2 then { c with c2 := BitVec.ofNat 16 n } else { c with c3 := BitVec.ofNat 16 n }

/-- Two frames travel in one class, or both in the invalidation sub-channel. -/
def sameClass (f g : Frame) : Bool := f.invsc == g.invsc && (f.invsc || f.cls == g.cls)

/-- Flits of the transmit buffer in use: sent and unacknowledged ones, and those still to be sent (R294). -/
def bufFlits (x : LinkSt) (f : Frame → Bool) : Nat :=
  (x.tx.filter fun e => f e.1).length + (x.buf.filter fun e => f e.1).foldl (fun n e => n + (frameFlits e.1 - e.2)) 0

/-- Room for a frame in the 512 flits; a partner port keeps 32 of them for INV (R294). -/
def bufRoom (n : Nat) (x : LinkSt) (f : Frame) : Bool :=
  decide (bufFlits x (fun _ => true) + frameFlits f ≤ 512) &&
  (f.invsc || decide (6 ≤ n) || decide (bufFlits x (fun g => !g.invsc) + frameFlits f ≤ 480))

/-- The frames that sources hold enter the buffer while there is room, in the order of their class. -/
def bufAdmit (n : Nat) (x : LinkSt) : LinkSt :=
  x.wait.foldl
    (fun y f =>
      if !(y.wait.any (sameClass f)) && bufRoom n y f then { y with buf := y.buf ++ [(f, 0)] } else { y with wait := y.wait ++ [f] })
    { x with wait := [] }

/-- Precedence of a frame that is about to start: the class, and within C1 the invalidation sub-channel first (R283). -/
def startRank (f : Frame) : Nat := 2 * f.cls.val + b2n (!f.invsc)

/-- The frame of the buffer that may start: not begun, no earlier frame of its class ahead of it, credits for `need` of its
flits; the first of the highest class. -/
def startable (x : LinkSt) (ok : Frame → Bool) (need : Frame → Nat) : Option Nat :=
  let can (i : Nat) : Bool := match x.buf[i]? with
    | none => false
    | some e => e.2 == 0 && ok e.1 && decide (need e.1 ≤ creditOf x.cred e.1.cls e.1.invsc)
        && !((x.buf.take i).any fun g => sameClass g.1 e.1)
  let rank (i : Nat) : Nat := match x.buf[i]? with
    | none => 0
    | some e => startRank e.1
  ((List.range x.buf.length).filter can).foldl
    (fun b i => match b with
      | none => some i
      | some j => if rank i < rank j then some i else some j) none

/-- Whose flit goes next (R284): a cut-in first, once begun; else, inside an open frame, a frame of a higher class that may
cut in (with the credits to end, log entry 53), or the open frame; else the first that may start. -/
def nextFlit (x : LinkSt) : Option Nat :=
  let has (i : Nat) : Bool := match x.buf[i]? with
    | none => false
    | some e => decide (0 < creditOf x.cred e.1.cls e.1.invsc)
  match (List.range x.buf.length).filter fun i => match x.buf[i]? with | none => false | some e => decide (0 < e.2) with
  | [] => startable x (fun _ => true) (fun _ => 1)
  | [i] =>
    let c : Fin 4 := match x.buf[i]? with | none => 0 | some e => e.1.cls
    match (if x.txResumed then startable x (fun f => decide (f.cls < c)) frameFlits else none) with
    | some j => some j
    | none => if has i then some i else none
  | i :: j :: _ =>
    let c (k : Nat) : Nat := match x.buf[k]? with | none => 0 | some e => e.1.cls.val
    let k := if c i < c j then i else j
    if has k then some k else none

/-- The next flit of frame i leaves: it takes the next sequence number and a credit of its class (R282, R285). -/
def flitOut (x : LinkSt) (i : Nat) : LinkSt :=
  match x.buf[i]? with
  | none => x
  | some e =>
    let alone : Bool := !((x.buf.eraseIdx i).any fun g => decide (0 < g.2))
    { x with tx := x.tx ++ [e], cred := setCredit x.cred e.1.cls e.1.invsc (creditOf x.cred e.1.cls e.1.invsc - 1),
             buf := if e.2 + 1 < frameFlits e.1 then x.buf.set i (e.1, e.2 + 1) else x.buf.eraseIdx i,
             txResumed := alone || (x.txResumed && e.2 != 0) }

/-- Every flit that may leave now does. -/
def flitsOut : Nat → LinkSt → LinkSt
  | 0, x => x
  | k + 1, x => match nextFlit x with
    | none => x
    | some i => flitsOut k (flitOut x i)

/-- An INV has left on port n: its limit runs from now on (R201). -/
def invLeft (n : Nat) (f : Frame) (s : State) : State :=
  if f.opc = 0x90 then
    s.onCache fun c => { c with invs := c.invs.map fun o =>
      if o.tag = f.tag ∧ o.line = f.sa then { o with sent := o.sent ++ [(n, s.clk.time)] } else o }
  else s

/-- The transmitter of port n runs: frames enter the buffer, and on an ACTIVE port flits leave; sent flits are counted (R429). -/
def linkPump (n : Nat) (s : State) : State :=
  let x := link s n
  let y := bufAdmit n x
  let z := if portActive s n then flitsOut (y.buf.foldl (fun k e => k + frameFlits e.1) 0) y else y
  let k := z.tx.length - x.tx.length
  if k = 0 then setLink s n z
  else
    cnt (0x200 + n) none none k
      ((z.tx.drop x.tx.length).foldl (fun t e => invLeft n e.1 t)
        (setLink s n { z with lastFrame := s.clk.time, progress := if x.tx.isEmpty then s.clk.time else z.progress }))

/-- A source hands port n a frame: it goes into the transmit buffer, and leaves as soon as credits allow; one that is held back is
counted; a port that is not live drops it (R285, R297, R298). -/
def sendFrame (n : Nat) (f : Frame) (s : State) : State :=
  if portLive s n then
    let t := linkPump n (modLink s n fun x => { x with wait := x.wait ++ [f] })
    let held : Bool := portActive s n && decide ((link s n).buf.length + (link s n).wait.length < (link t n).buf.length + (link t n).wait.length)
    if held then cnt (0x250 + n) none none 1 t else t
  else s

/-- The credits of k flits of a class are free to be returned. -/
def freeCredit (n : Nat) (cls : Fin 4) (invsc : Bool) (k : Nat) (s : State) : State :=
  modLink s n fun x => { x with freed := setCredit x.freed cls invsc (creditOf x.freed cls invsc + k) }

/-- A frame is taken from the assembled ones; its credits are freed (R285). -/
def takeFrame (n : Nat) (f : Frame) (s : State) : State :=
  freeCredit n f.cls f.invsc (frameFlits f) (modLink s n fun x => { x with rx := x.rx.erase f })

/-- A message is taken from the assembled frames, when the link layer has one that matches. -/
def takeRx (n : Nat) (opc : Nat) (tag : BitVec 12) (s : State) : State :=
  match (link s n).rx.find? fun f => decide (f.opc.toNat = opc ∧ f.tag = tag) with
  | none => s
  | some f => takeFrame n f s

/-- AUX of a response (R287). -/
def respAux (status : Nat) (poison : BitVec 4) (untrk : Bool) : BitVec 32 :=
  pack 32 [(0, status % 256), (8, poison.toNat), (12, b2n untrk)]

/-- Answer a partner request in its class with its tag (R288): RSPD when data is given, else RSP. -/
def respond (p : PartnerPort) (cls : Fin 4) (tag : BitVec 12) (part : Part) (sa : Sa) (status : Nat)
    (poison : BitVec 4) (untrk : Bool) (data : List Byte) (s : State) : State :=
  let opc := if data.isEmpty then 0x80 else 0x81
  sendFrame p.val
    { Frame.mk0 opc tag part sa cls with aux := respAux status poison untrk, data := data } s

/-- Answer a request by its header with a bare status. -/
def reply (m : PHdr) (status : Nat) (s : State) : State := respond m.port m.cls m.tag m.part m.sa status 0 false [] s

/-- Count of unit words: a change of a port's STATE, DEGRADED or SPARES raises its generation (R420). -/
def putPort (s : State) (n : Nat) (p : Port) : State :=
  let o := port s n
  let changed : Bool := o.state ≠ p.state ∨ o.degraded ≠ p.degraded ∨ o.spares ≠ p.spares
  setPort s n { p with gen := if changed then o.gen + 1 else o.gen }

/-! ## The tick -/

/-- One edge of the clock that drives the timebase (R71); events 0x0FF count its microseconds (R429). -/
def tick (s : State) : State :=
  if s.pwr.vaon then
    let t := s.clk.time + BitVec.ofNat 64 (tickStep s.clk)
    cnt 0x0FF none none (t.toNat / 1000 - s.clk.time.toNat / 1000) { s with clk := { s.clk with time := t } }
  else s

/-! ## Status codes (R289) -/

def stOk : Nat := 0
def stNotHome : Nat := 1
def stAddress : Nat := 2
def stRights : Nat := 3
def stRegion : Nat := 4
def stUnavailable : Nat := 5
def stAlign : Nat := 6
def stPoison : Nat := 7
def stBadarg : Nat := 8
def stOrdFull : Nat := 9
def stEmpty : Nat := 10
def stQuota : Nat := 11
def stThawed : Nat := 12
def stNotOwned : Nat := 13
def stCheck : Nat := 14

end Sys2Proof.Machine
end

