-- ==== Sys2Proof/Machine/Map.lean ====
section
/-! DEFINITION. System addresses (R74 to R80), groups and lines (R83 to R87, R118 to R122), rights (R90 to R92, R158). -/

namespace Sys2Proof.Machine

/-! ## Decode -/

/-- The space an address selects (R74). -/
inductive Space where
  | far (h : Half)
  | buf (region off : Nat)
  | ctl (off : Nat)
  | bell (off : Nat)
  deriving DecidableEq, Repr

/-- The home index of a FAR address (R77). -/
def homeIndex (sa : Sa) : Nat :=
  let x := field sa.toNat 12 39
  field x 0 12 ^^^ field x 12 12 ^^^ field x 24 12 ^^^ field x 36 3

/-- The slice and half that a FAR address is homed at: a status when none (R77, R78). -/
def homeOf (s : State) (v : Staged) (sa : Sa) : Except Nat Half :=
  if v.tabEn then
    let e := tget HomeEnt.zero v.home (homeIndex sa)
    if !e.valid then .error stAddress
    else if e.slice ≠ s.glb.sid then .error stNotHome
    else .ok e.half
  else .ok (Half.ofBool (bit sa 12))

/-- Decode an address: NOT_HOME before ADDRESS (R74, R75). -/
def decodeSa (s : State) (v : Staged) (sa : Sa) : Except Nat Space :=
  let a := sa.toNat
  if !bit sa 51 then
    match homeOf s v sa with
    | .error e => .error e
    | .ok h => .ok (.far h)
  else if field a 42 8 ≠ s.glb.sid.toNat then .error stNotHome
  else if !bit sa 50 then
    if field a 35 7 ≠ 0 ∨ 384 ≤ field a 26 9 then .error stAddress else .ok (.buf (field a 26 9) (field a 0 26))
  else if field a 32 10 = 0 then
    if field a 24 8 ≠ 0 then .error stAddress else .ok (.ctl (field a 0 24))
  else if field a 32 10 = 1 then
    if field a 12 20 ≠ 0 then .error stAddress else .ok (.bell (field a 0 12))
  else .error stAddress

/-- An address in CTL or doorbell space. -/
def Space.isDev (x : Space) : Bool :=
  match x with
  | .ctl _ => true
  | .bell _ => true
  | _ => false

/-- No access to CTL or doorbell space. -/
def noDev (_ : Space) : Bool := false

/-- The half that performs a request to a space; control and doorbell accesses are performed where they arrive. -/
def Space.half (x : Space) (arrival : Half) : Half :=
  match x with
  | .far h => h
  | .buf r _ => regionHalf r
  | .ctl _ => arrival
  | .bell _ => arrival

/-! ## Rights -/

def Rights.rd : Rights := { r := true, w := false, a := false, x := false }
def Rights.wr : Rights := { r := false, w := true, a := false, x := false }
def Rights.atom : Rights := { r := true, w := true, a := true, x := false }
def Rights.fetch : Rights := { r := true, w := false, a := false, x := true }

/-- The FAR rights of a valid window that contains the address (R90). -/
def winRights (f : FarWin) (sa : Sa) : Rights :=
  let a := field sa.toNat 0 51
  let b := f.base.toNat * 4096
  if f.v ∧ b ≤ a ∧ a < b + 2 ^ f.log2.toNat then { r := f.r, w := f.w, a := f.a, x := false }
  else { r := false, w := false, a := false, x := false }

/-- Where windows overlap the rights add (R90). -/
def farRights (p : PartReg) (sa : Sa) : Rights :=
  p.fw.foldl (fun q e =>
    let w := winRights e.2 sa
    { r := q.r || w.r, w := q.w || w.w, a := q.a || w.a, x := false }) { r := false, w := false, a := false, x := false }

/-- Rights r grant what is needed (the page right X is not a window right). A needs R and W as well (R90). -/
def Rights.grants (r need : Rights) : Bool :=
  (!need.r || r.r) && (!need.w || r.w) && (!need.a || (r.a && r.r && r.w))

/-- Block number of a BUF address (R156). -/
def blockOf (region off : Nat) : Nat := 1024 * region + off / 65536

def blk (s : State) (b : Nat) : Blk := tget Blk.zero s.buf.blk b

/-- The rights over a decoded address of partition p (R91, R92, R158), with the register map's test of a control access
left to the register engine. REGION is decided after RIGHTS of the partition, but a region that is not PINNED has no
block owner. -/
def checkSpace (s : State) (v : Staged) (p : Part) (need : Rights) (sa : Sa) (x : Space) : Nat :=
  match x with
  | .far _ => if p = 0 ∨ (farRights (partReg v p.toNat) sa).grants need then stOk else stRights
  | .buf r off =>
    if (region s r).state ≠ 2 then stRegion
    else
      let b := blk s (blockOf r off)
      if b.st = 3 ∧ (p = 0 ∨ b.owner = p) then stOk else stRights
  | .ctl _ => stOk
  | .bell _ => stOk

/-- The checks of R75 and R91 for a request by partition p, through a port when one is named: the space, or a status
in the order NOT_HOME, ADDRESS, RIGHTS, REGION. A partition that a reset has fenced ends RIGHTS (R337). -/
def checkSa (s : State) (v : Staged) (p : Part) (via : Option Nat) (need : Rights) (sa : Sa) : Except Nat Space :=
  match decodeSa s v sa with
  | .error e => .error e
  | .ok x =>
    let q := partReg v p.toNat
    let fenced : Bool := s.integ.prst.any fun r => r.running && r.part == p
    let shut : Bool := match via with
      | none => false
      | some n => !q.ports.getLsbD n
    if (!q.en && p ≠ 0) || fenced || shut then .error stRights
    else
      let st := checkSpace s v p need sa x
      if st = stOk then .ok x else .error st

/-- The logic of the home half is off, or the half link is needed while a datapath is off (R36 edges). -/
def unavailable (s : State) (home arrival : Half) : Bool :=
  !homeUp s home || (home != arrival && !halfLinkUp s)

/-! ## Groups, sets and keys -/

/-- Tag, key and set of a FAR line (R84). -/
def farTag (sa : Sa) : Nat := field sa.toNat 25 26
def farKey (sa : Sa) : Nat := field sa.toNat 18 7
def farSet (sa : Sa) : Nat := field sa.toNat 7 11

/-- The fold h6 (R84). -/
def foldTag (t : Nat) : Nat := field t 0 6 ^^^ field t 6 6 ^^^ field t 12 6 ^^^ field t 18 6 ^^^ field t 24 2

/-- The window of partition p in half h (R86). -/
def winOf (v : Staged) (h : Half) (p : Nat) : Win :=
  if (partReg v p).gmode then h.pick (partReg v p).gtwE (partReg v p).gtwW else h.pick v.shwE v.shwW

/-- The group-table index of a line with this tag and key under a window (R84). -/
def gtIndexOf (w : Win) (tag key : Nat) : Nat := w.base.toNat + (foldTag tag * 128 + key) % 2 ^ w.log2.toNat

def gtIndex (v : Staged) (h : Half) (p : Nat) (sa : Sa) : Nat := gtIndexOf (winOf v h p) (farTag sa) (farKey sa)

def gtEnt (s : State) (h : Half) (i : Nat) : GtEnt := tget GtEnt.zero s.tables.gt (8192 * h.idx + i)
def gown (s : State) (h : Half) (g : Nat) : BitVec 6 := tget 0 s.tables.gown (6144 * h.idx + g)

/-- Region of group G of half h (R83). -/
def groupRegion (h : Half) (g : Nat) : Nat := 192 * h.idx + g / 32

/-- Array index of way 0 of a set of a group: region, row and way. -/
def setKey (h : Half) (g set : Nat) : Nat := groupRegion h g * 2 ^ 19 + (g % 32 * 2048 + set) * 8

/-- Group and set of an array index. -/
def keyGroup (key : Nat) : Nat := (keyRegion key % 192) * 32 + keyRow key / 2048
def keySet (key : Nat) : Nat := keyRow key % 2048

/-- The ways of a set row. -/
def waysOf (key : Nat) : List Nat := (List.range 8).map fun w => key / 8 * 8 + w

/-- Array index of a pinned line (R122): SA[34:7]. -/
def bufKey (sa : Sa) : Nat := field sa.toNat 7 28

/-- BUF address of an array index. -/
def bufSa (s : State) (key : Nat) : Sa := BitVec.ofNat 52 (2 ^ 51 + s.glb.sid.toNat * 2 ^ 42 + key * 128)

/-- The line an address lies in. -/
def lineOf (sa : Sa) : Sa := sa &&& ~~~(127 : BitVec 52)

def sectorOf (sa : Sa) : Nat := field sa.toNat 5 2

/-! ## Lines -/

/-- The line CRC of 128 zero bytes at an index (R159, R330). -/
def zeroCrc (i : Nat) : BitVec 32 := lineCrc 0 i

/-- What a line of a PINNED region holds after conversion or zeroing (R159, R170). -/
def pinnedMeta (key : Nat) : Meta :=
  { Meta.zero with pinned := true, sv := 15, lcrcV := true, lcrc := zeroCrc (key % 32) }

/-- The metadata an array index holds when nothing is listed: a pinned line's in a PINNED region, else all zero. -/
def metaDefault (s : State) (key : Nat) : Meta :=
  if (region s (keyRegion key)).state = 2 then pinnedMeta key else Meta.zero

def metaAt (s : State) (key : Nat) : Meta := tget (metaDefault s key) s.cache.line key

def setMeta (s : State) (key : Nat) (m : Meta) : State :=
  let d := metaDefault s key
  s.onCache fun c => { c with line := tset d c.line key m }

def lineData (s : State) (key : Nat) : BitVec 1024 := BitVec.ofNat 1024 (memRead s.cache.data (128 * key) 128)

def setData (s : State) (key : Nat) (d : BitVec 1024) : State :=
  s.onCache fun c => { c with data := memWrite c.data (128 * key) 128 d.toNat }

/-- The SA of a FAR line, from its tag, its group and its set (R88). -/
def farSaOf (tag : BitVec 26) (key : Nat) : Sa :=
  BitVec.ofNat 52 (tag.toNat * 2 ^ 25 + keyGroup key % 128 * 2 ^ 18 + keySet key * 128)

/-- The SA of the line at an array index. -/
def saOf (s : State) (key : Nat) : Sa :=
  if (metaAt s key).pinned then bufSa s key else farSaOf (metaAt s key).tag key

/-- The way of a set that holds a tag, among ways with a valid sector (R123). -/
def findWay (s : State) (key0 : Nat) (tag : Nat) : Option Nat :=
  (waysOf key0).find? fun k => let m := metaAt s k; decide (m.tag.toNat = tag) && decide (m.sv ≠ 0) && !m.pinned

/-! ## Masks -/

/-- The bits of the bytes that a byte mask selects. -/
def maskBits (mask : BitVec 128) : Nat → Nat
  | 0 => 0
  | n + 1 => maskBits mask n + (if mask.getLsbD n then 255 * 256 ^ n else 0)

/-- old with the bytes of mask taken from new. -/
def mergeBytes (mask : BitVec 128) (old new : BitVec 1024) : BitVec 1024 :=
  let m := BitVec.ofNat 1024 (maskBits mask 128)
  (old &&& ~~~m) ||| (new &&& m)

/-- The part of a byte mask in sector j. -/
def sectorMask (mask : BitVec 128) (j : Nat) : BitVec 32 := mask.extractLsb' (32 * j) 32

/-- A sector mask from a test. -/
def sectors (f : Nat → Bool) : BitVec 4 := BitVec.ofNat 4 (b2n (f 0) + 2 * b2n (f 1) + 4 * b2n (f 2) + 8 * b2n (f 3))

/-- Byte mask of n bytes at an offset in the line. -/
def byteMask (off n : Nat) : BitVec 128 := BitVec.ofNat 128 ((2 ^ n - 1) * 2 ^ off)

/-- A line with sector mask j's bytes 0xFF where poisoned (R259, R289). -/
def poisonData (poison : BitVec 4) (d : BitVec 1024) : BitVec 1024 :=
  d ||| BitVec.ofNat 1024
    ((List.range 4).foldl (fun n j => n + (if poison.getLsbD j then (2 ^ 256 - 1) * 2 ^ (256 * j) else 0)) 0)

end Sys2Proof.Machine
end

