-- ==== Sys2Proof/Machine/Reset.lean ====
section
/-! DEFINITION. What each chip reset keeps and loses (R376 to R381), and the state of boot that follows it (R393 to R395). -/

namespace Sys2Proof.Machine

/-- Every record written so far carries PREVERR from a warm or fatal reset on (R342). -/
def markPrev (t : Tab (Option Rec)) : Tab (Option Rec) :=
  t.map fun e => (e.1, e.2.map fun r => { r with prev := true })

/-- The staged registers of a warm reset: the memory map is kept (home table, PART registers, XLT_ROOT), the regulator's
return to their reset values (R377). -/
def warmStaged (v : Staged) : Staged := { v with bwrEn := false, mcfg := [] }

/-- The ports after a warm or fatal reset: DOWN, if they were not DISABLED (R377). -/
def portsDown (s : State) : Links :=
  { Links.reset with
    port := s.links.port.filterMap fun e =>
      if e.2.state = 0 then none else some (e.1, { Port.zero with state := 6, since := s.clk.time }) }

/-- The boot registers when a boot begins; the fuses, the repair area and the flash stand apart. -/
def bootBegin (s : State) (warm : Bool) : Boot :=
  { Boot.reset with
    phase := .waitPll, since := s.clk.time, warm := warm, warmBoot := warm, keyhash := s.boot.keyhash, keyset := s.boot.keyset,
    flash := s.boot.flash }

/-- MGT_SMB_CTL.ADDR after a reset (R416): 0x60 + SID_STRAP[3:0]. -/
def smbAddrOf (strap : BitVec 8) : BitVec 7 := 0x60 + (strap.extractLsb' 0 4).setWidth 7

/-- The state every reset leaves alike: what R377 keeps in each, the rest at reset values. -/
def resetKeep (s : State) : State :=
  { State.reset with
    clk := { Clk.reset with time := s.clk.time, pllLock := s.clk.pllLock, xtalOn := s.clk.xtalOn },
    glb := { Glb.reset with sidStrap := s.glb.sidStrap, bootSel := s.glb.bootSel },
    log := s.log,
    bwr := { Bwr.reset with window := BitVec.ofNat 64 (s.clk.time.toNat / 1000 * 1000) },
    tst := { Tst.reset with pack := s.tst.pack, queue := s.tst.queue, written := s.tst.written, repSeq := s.tst.repSeq,
                            uid := s.tst.uid },
    pwr := { s.pwr with resetSt := .none, dom := [], cmd := none, resDom := 0, resCode := 0, resDone := false, disc := 0,
                        unitCode := 0, unitUnit := 0, unitDone := false, unitGen := [] },
    boot := s.boot, jtag := s.jtag, uart := { Uart.reset with cts := s.uart.cts },
    mgt := { Mgt.reset with smbAddr := smbAddrOf s.glb.sidStrap, answers := s.mgt.answers, bootLines := s.mgt.bootLines },
    -- D0 stays on, and with it the result of sensor 23 (log entry 121)
    sense := { Sense.reset with temp := s.sense.temp.filter fun e => e.1 == 23, valid := s.sense.valid.filter fun e => e.1 == 23 },
    -- the hour that SCRUB waits for begins anew
    loops := { Loops.reset with mem := [(4, { LoopMem.reset with hour := s.clk.time }), (5, { LoopMem.reset with hour := s.clk.time })] },
    freeCtr := s.freeCtr, pending := s.pending }

/-- Every domain but D0 is off (R380, R397): its units keep no work. -/
def allOff (s : State) : State :=
  let off (t : Tab Dom) (i : Nat) : Tab Dom :=
    let d := tget Dom.zero t (i + 1)
    if d.st = 0 then t else tset Dom.zero t (i + 1) { st := 0, gen := d.gen + 1 }
  let s := s.onPwr fun p => { p with dom := (List.range 15).foldl off p.dom }
  s.onSense fun x => { x with valid := x.valid.filter fun e => e.1 == 23 }

/-- BOOT_STAT (R399). -/
def bootStat (s : State) : BitVec 32 :=
  let b := s.boot
  pack 32 [(0, b.slot.toNat), (2, b2n b.fallback), (3, b2n b.recovery), (4, b2n b.warm), (5, b2n b.notrim), (6, b2n b.slowclk),
    (7, b2n b.signed), (8, b.errA.toNat), (12, b.errB.toNat), (16, b.spimode.toNat), (18, b2n b.sfdp)]

/-- The loader's line on the console (R408): its BOOT line, or its RECOVERY line; it reports a strap error with the latter (R30; log
entry 129). -/
def bootLine (recovery : Bool) (s : State) : State :=
  s.onMgt fun m => { m with bootLines := (recovery, bootStat s, s.boot.seq) :: m.bootLines }

/-- Console recovery (R397). -/
def enterRecovery (s : State) : State :=
  bootLine true ((allOff s).onBoot fun b => { b with phase := .recovery, recovery := true })

/-- The loader loads the fuse registers, which read 0 until then (R439). -/
def loadFuses (s : State) : State :=
  (s.onBoot fun b => { b with keyhash := Config.keyHash, keyset := Config.keySet }).onTst fun t => { t with uid := Config.uid }

/-- The PLL has locked, or its wait has ended: the straps decide (R394 step 2, R30, R379). -/
def bootGo (s : State) : State :=
  if s.boot.phase = .waitPll then
    if s.glb.bootSel = 3 then bootLine true (s.onBoot fun b => { b with phase := .strapError })
    else if s.glb.bootSel = 2 ∨ s.pwr.fcnt = 3 then enterRecovery (loadFuses s)
    else (loadFuses s).onBoot fun b => { b with phase := .discover }
  else s

/-- A boot starts: at once when the PLL is locked. -/
def bootStart (s : State) : State := if s.clk.pllLock then bootGo s else s

/-- What a warm reset keeps of a test target: its state, and the one before a step under way. -/
def keptTarget (e : Target) : Target :=
  let st := if e.state = 2 then e.back else e.state
  { Target.zero with state := st }

/-- Warm reset, step 3 (R377, R378): logic reset, the memory map, the array and the counters kept; a warm boot follows. PART_ERR is no part
of the map and returns to its reset value (log entry 120); the sensors of domains that stay on keep their results (log entry 121). -/
def warmNow (s : State) (cause : Nat) : State :=
  let k := resetKeep s
  let wait : Bool := match s.pwr.resetSt with
    | .warm _ true => !s.pwr.resetN
    | _ => false
  let boot := bootBegin s true
  -- a die whose switch-off had begun is off, its regions' states kept for the switch-on (R385)
  let settled (e : Nat × Dom) : Nat × Dom := if e.2.st = 3 then (e.1, { st := 0, gen := e.2.gen + 1 }) else e
  let restore := match s.pwr.cmd with
    | none => s.sense.restore
    | some c => if c.on ∨ c.dom.toNat < 10 then s.sense.restore else tset none s.sense.restore (c.dom.toNat - 10) (some c.regions)
  bootStart { k with
    cur := warmStaged s.cur, prev := warmStaged s.cur, shadow := warmStaged s.shadow,
    tables := { s.tables with errWin := false, errGtw := false, retiring := none },
    cache := { Cache.reset with data := s.cache.data, line := s.cache.line, ecc := s.cache.ecc },
    buf := { s.buf with waitE := [], waitW := [], wqFullE := 0, wqFullW := 0, query := 0, errRel := false, frees := [] },
    log := { s.log with ring := markPrev s.log.ring, fatal := markPrev s.log.fatal },
    cnt := { s.cnt with sel := [], errSel := false },
    links := portsDown s,
    rep := s.rep,
    tst := { k.tst with
      spareUsed := s.tst.spareUsed, bankMap := s.tst.bankMap, ueCount := s.tst.ueCount, toRetire := s.tst.toRetire,
      tgt := s.tst.tgt.map fun e => (e.1, keptTarget e.2) },
    pwr := { k.pwr with dom := (s.pwr.dom.filter fun e => decide (10 ≤ e.1)).map settled, cause := BitVec.ofNat 4 cause,
                        resets := satAdd s.pwr.resets 1 },
    sense := { Sense.reset with temp := s.sense.temp.filter (fun e => decide (8 ≤ e.1 ∧ e.1 < 20 ∨ e.1 = 23)),
                                valid := s.sense.valid.filter (fun e => decide (8 ≤ e.1 ∧ e.1 < 20 ∨ e.1 = 23)),
                                restore := restore, refreshed := s.sense.refreshed },
    boot := if wait then { boot with phase := .waitReset } else boot }

/-- Fatal reset (R377, R379): FATAL is set, FCNT counts, everything but the D0 stores is lost; the third in a row boots
into console recovery. After a thermal trip no boot follows: D1 to D15 stay off (R42). -/
def fatalNow (s : State) (cause : Nat) : State :=
  let k := resetKeep s
  let f := satAdd s.pwr.fcnt 1
  bootStart { k with
    log := { s.log with ring := markPrev s.log.ring, fatal := markPrev s.log.fatal },
    links := portsDown s,
    pwr := { k.pwr with fatal := true, fcnt := f, cause := BitVec.ofNat 4 cause, resets := satAdd s.pwr.resets 1 },
    boot := if s.pwr.trip then { bootBegin s false with phase := .waitReset } else bootBegin s false }

/-- A fatal reset for a recorded event: the record is complete in the fatal store first (R339, R340). -/
def fatalWith (r : Rec) (s : State) : State := fatalNow (writeRec { r with sev := 1, action := 6 } s) 5

/-- Cold reset (R377, R380): the loader waits for RESET_N. CAUSE 7 when THERMTRIP_N is asserted, else 2 (R381). -/
def coldNow (s : State) : State :=
  let k := resetKeep s
  { k with
    log := { s.log with count := 0 },
    pwr := { k.pwr with cause := if s.pwr.trip then 7 else 2, fatal := false, fcnt := 0, resets := 0, trip := false },
    boot := { bootBegin s false with phase := .waitReset } }

/-- VAON coming up: every D0 store is lost with it (R37, R376, R381: CAUSE 1). The flash is not
the slice's state. -/
def powerOnNow (s : State) : State :=
  { State.reset with
    boot := { Boot.reset with flash := s.boot.flash }, freeCtr := s.freeCtr, pending := s.pending }

end Sys2Proof.Machine
end

