-- ==== Sys2Proof/Machine/Calve.lean ====
section
/-! DEFINITION. Repair records waiting for flash (R367), and what starts a calving or a retirement (R361, R364). -/

namespace Sys2Proof.Machine

/-! ## TST_STAT (R371) -/

/-- Set bit i of TST_STAT: 0 FAIL, 1 TRANS, 2 REPAIR, 3 NOSPARE, 4 PERSIST_ERR, 5 AGE, 6 CMDERR. -/
def setTstStat (i : Nat) (s : State) : State := s.onTst fun t => { t with stat := setBit t.stat i true }

/-- DETAIL of R370: target class, unit, step, spare, pack version, last pass. -/
def tstDetail (cls unit step spare : Nat) (ver : BitVec 32) (last : BitVec 64) : BitVec 128 :=
  pack 128 [(0, cls), (8, unit), (16, step), (24, spare), (32, ver.toNat), (64, last.toNat)]

/-! ## Repair records (R366, R367) -/

def Repair.mk0 (type : Nat) (h : Half) (unit subst : Nat) : Repair :=
  { type := BitVec.ofNat 8 type, half := h, die := 7, unit := BitVec.ofNat 8 unit, subst := BitVec.ofNat 8 subst,
    region := 0xFFFF, seq := 0, pack := 0, time := 0 }

/-- A repair that does not reach flash: PERSIST_ERR and a record (R367). -/
def persistFail (s : State) : State := writeRec (Rec.mk0 22 9 .e) (setTstStat 4 s)

/-- Queue a repair record; SEQ is given when it is programmed. -/
def queueRepair (r : Repair) (s : State) : State :=
  if !s.tst.persistEn then s
  else if 16 ≤ s.tst.queue.length then persistFail s
  else s.onTst fun t => { t with queue := t.queue ++ [{ r with pack := t.pack.ver, time := s.clk.time }] }

/-! ## Calving (R361, R362) -/

def calve (s : State) (k : Nat) : Calve := tget Calve.zero s.tst.calve k
def setCalve (k : Nat) (c : Calve) (s : State) : State := s.onTst fun t => { t with calve := tset Calve.zero t.calve k c }

/-- The lowest spare bank of die k that is neither used nor failed. -/
def spareBank (s : State) (k : Nat) : Option Nat :=
  if !tget false s.tst.spareUsed (2 * k) then some 32 else if !tget false s.tst.spareUsed (2 * k + 1) then some 33 else none

/-- The bank that serves bank b of die k, as 34 die + bank. -/
def servingBank (s : State) (k b : Nat) : Nat :=
  match tget none s.tst.bankMap (34 * k + b) with
  | none => 34 * k + b
  | some x => 34 * k + x.toNat

/-- Start the copy of bank b of die k onto a spare (R362 step 1). -/
def calveStart (k b spare source : Nat) (s : State) : State :=
  setCalve k { calve s k with phase := 1, bank := BitVec.ofNat 5 b, rows := 0, spare := BitVec.ofNat 6 spare,
                              source := BitVec.ofNat 8 source } s

/-- The bank's uncorrectable codewords have reached the threshold. -/
def ueReached (s : State) (k b : Nat) : Bool := decide (max 1 s.tst.thrUe.toNat ≤ tget 0 s.tst.ueCount (servingBank s k b))

/-- Its corrected errors of this patrol pass have. -/
def ceReached (s : State) (k b : Nat) : Bool := decide (max 1 s.tst.thrCe.toNat ≤ tget 0 s.tst.cePass (servingBank s k b))

/-- A region of the bank has been retired. -/
def bankRetired (s : State) (k b : Nat) : Bool := (region s (64 * k + 2 * b)).retired || (region s (64 * k + 2 * b + 1)).retired

/-- Start what a die's banks call for: a calving, or without a spare the retirement of a bank whose uncorrectable count has
reached the threshold (R361, R364). A die calves one bank at a time. -/
def calveScan (k : Nat) (s : State) : State :=
  if (calve s k).phase ≠ 0 ∨ !domOn s (10 + k) then s
  else
    match (List.range 32).find? fun b =>
        (ueReached s k b || ceReached s k b && (spareBank s k).isSome && s.tst.autoCalve) && !bankRetired s k b &&
          !s.tst.toRetire.contains (32 * k + b) with
    | none => s
    | some b =>
      match spareBank s k with
      | some sp => if s.tst.autoCalve then calveStart k b sp 0 s else s
      | none => if ueReached s k b then s.onTst fun t => { t with toRetire := t.toRetire ++ [32 * k + b] } else s

/-- A corrected error has been counted for the bank of region r: a CE trigger without a spare is only recorded (R364). -/
def afterCorrected (r : Nat) (s : State) : State :=
  let k := regionDie r
  let b := r % 64 / 2
  let s :=
    if s.tst.autoCalve ∧ (spareBank s k).isNone ∧ (calve s k).phase = 0 ∧
        tget 0 s.tst.cePass (servingBank s k b) = max 1 s.tst.thrCe.toNat then
      writeRec { Rec.mk0 20 0 (regionHalf r) with
                 die := BitVec.ofNat 3 k, detail := tstDetail 4 (servingBank s k b % 34) 0xFF 0xFF s.tst.pack.ver 0 } (setTstStat 3 s)
    else s
  calveScan k s

end Sys2Proof.Machine
end

