-- ==== Sys2Proof/Machine/Pool.lean ====
section
/-! DEFINITION. The pool side of the cache: requests to the shelf and the ports they take (R292, R293, R298), and what a
port going DOWN does (R202, R298). -/

namespace Sys2Proof.Machine

/-! ## Sending -/

/-- The pool port for a line: with both live and SPLIT, SA[13] chooses; else the live one (R293). A port in RECAL holds
its frames and counts as live only when no port is ACTIVE (log entry 21). -/
def poolPort (s : State) (line : Sa) : Option (Fin 2) :=
  let a0 := portActive s 6
  let a1 := portActive s 7
  if a0 && a1 && s.links.split then some (if bit line 13 then 1 else 0)
  else if a0 then some 0
  else if a1 then some 1
  else if portLive s 6 then some 0
  else if portLive s 7 then some 1
  else none

/-- The bytes of the sectors in a mask, in order. -/
def sectorBytes (mask : BitVec 4) (d : BitVec 1024) : List Byte :=
  (List.range 4).flatMap fun j => if mask.getLsbD j then toBytes 32 (d.extractLsb' (256 * j) 256).toNat else []

def crcBytes (c : Option (BitVec 32)) : List Byte :=
  match c with
  | none => []
  | some x => toBytes 4 x.toNat

/-- The frame of a pool request (R292). -/
def poolFrame (q : PoolReq) : Frame :=
  match q.kind with
  | .fill => { Frame.mk0 0x40 q.tag q.part q.line 1 with aux := q.aux }
  | .wb => { Frame.mk0 0x41 q.tag q.part q.line 2 with
               aux := q.aux, chk := q.lcrc.isSome, data := sectorBytes q.mask q.data ++ crcBytes q.lcrc }
  | .wt => { Frame.mk0 0x42 q.tag q.part q.line 2 with
               aux := q.aux, var := q.var, data := if q.var = 0 then toBytes 128 q.data.toNat else sectorBytes q.mask q.data }
  | .offd => { Frame.mk0 0x44 q.tag q.part q.line 2 with
               aux := q.aux, chk := q.lcrc.isSome, data := sectorBytes q.mask q.data ++ crcBytes q.lcrc }

/-- Hand a pool request to its port. -/
def poolIssue (q : PoolReq) (f : Fin 2) (s : State) : State :=
  sendFrame (6 + f.val) (poolFrame q)
    (s.onCache fun c => { c with pool := c.pool ++ [{ q with port := some f, since := s.clk.time }] })

/-- Send a pool request, or keep it waiting while no pool port is up (R298). -/
def poolSend (q : PoolReq) (s : State) : State :=
  match poolPort s q.line with
  | some f => poolIssue q f s
  | none => s.onCache fun c => { c with pool := c.pool ++ [{ q with port := none, since := s.clk.time }] }

/-- The first number from n on that is free; n when none of the 4,096 is. -/
def freshTag (n : BitVec 12) (busy : BitVec 12 → Bool) : BitVec 12 :=
  n + BitVec.ofNat 12 (((List.range 4096).find? fun i => !busy (n + BitVec.ofNat 12 i)).getD 0)

/-- A tag of the pool link that no outstanding request and no offer has (R287). -/
def poolTag (s : State) : BitVec 12 × State :=
  let t := freshTag s.cache.poolTag fun x => s.cache.pool.any (fun q => q.tag == x) || s.cache.offers.any fun o => o.tag == x
  (t, s.onCache fun c => { c with poolTag := t + 1 })

def PoolReq.mk0 (k : PoolKind) (h : Half) (tag : BitVec 12) (line : Sa) (p : Part) (w : PoolWho) : PoolReq :=
  { kind := k, home := h, tag := tag, line := line, port := none, since := 0, aux := 0, var := 0, mask := 0, data := 0,
    lcrc := none, part := p, who := w }

/-- Ask the shelf for the sectors of a mask (FILL). -/
def sendFill (h : Half) (line : Sa) (p : Part) (mask : BitVec 4) (w : PoolWho) (s : State) : State :=
  let t := poolTag s
  poolSend { PoolReq.mk0 .fill h t.1 line p w with aux := mask.setWidth 32, mask := mask } t.2

/-- Write sectors back (WB): AUX holds the dirty mask, the poisoned mask and whether a line CRC follows. -/
def sendWb (h : Half) (line : Sa) (p : Part) (dirty poison : BitVec 4) (d : BitVec 1024) (crc : Option (BitVec 32)) (w : PoolWho)
    (s : State) : State :=
  let t := poolTag s
  poolSend { PoolReq.mk0 .wb h t.1 line p w with
             aux := pack 32 [(0, dirty.toNat), (4, (poison &&& dirty).toNat), (8, b2n crc.isSome)],
             mask := dirty, data := d, lcrc := crc } t.2

/-- The lowest sector that a byte mask touches. -/
def firstSector (mask : BitVec 128) : Nat :=
  if sectorMask mask 0 ≠ 0 then 0 else if sectorMask mask 1 ≠ 0 then 1 else if sectorMask mask 2 ≠ 0 then 2 else 3

/-- A byte mask without the bytes of sector j. -/
def withoutSector (mask : BitVec 128) (j : Nat) : BitVec 128 :=
  mask &&& ~~~(BitVec.ofNat 128 ((2 ^ 32 - 1) * 2 ^ (32 * j)))

/-- Write through (WT): the whole line, or the masked bytes of one sector (R132, R292); a write that touches more sectors sends
them one after another, lowest first (wackArrive). -/
def sendWt (h : Half) (line : Sa) (p : Part) (mask : BitVec 128) (d : BitVec 1024) (w : PoolWho) (s : State) : State :=
  let t := poolTag s
  if mask = BitVec.allOnes 128 then poolSend { PoolReq.mk0 .wt h t.1 line p w with data := d, mask := 15 } t.2
  else
    let j := firstSector mask
    poolSend { PoolReq.mk0 .wt h t.1 (line ||| BitVec.ofNat 52 (32 * j)) p w with
               var := 1, aux := sectorMask mask j, mask := BitVec.ofNat 4 (2 ^ j), data := d } t.2

/-- Send the data of an accepted offer, or an empty OFFD (R137). -/
def sendOffd (h : Half) (line : Sa) (p : Part) (valid : BitVec 4) (d : BitVec 1024) (crc : Option (BitVec 32)) (tag : BitVec 12)
    (s : State) : State :=
  poolSend { PoolReq.mk0 .offd h tag line p .none with
             aux := pack 32 [(0, valid.toNat), (8, b2n crc.isSome)], mask := valid, data := d, lcrc := crc } s

/-! ## A port going DOWN -/

/-- An invalidation to port n counts as acknowledged (R202). -/
def ackPort (n : Nat) (s : State) : State :=
  s.onCache fun c => { c with invs := c.invs.map fun o => { o with ports := setBit o.ports n false } }

/-- Sharer bit k is ignored from now on and is being cleared from every set row (R202). -/
def startClear (k : Nat) (s : State) : State := s.onCch fun c => { c with clrBusy := setBit c.clrBusy k true }

/-- Pool requests of a port that went DOWN are sent again on the other one when it is ACTIVE; else a fill has no port, which ends it
with POISON, and a writeback waits for one (R298 step 4). -/
def poolResend (f : Fin 2) (s : State) : State :=
  let mine := s.cache.pool.filter fun q => q.port = some f
  let rest := s.cache.pool.filter fun q => ¬ q.port = some f
  let other : Fin 2 := if f = 0 then 1 else 0
  mine.foldl
    (fun t q =>
      if portActive t (6 + other.val) then poolIssue q other t
      else t.onCache fun c => { c with pool := c.pool ++ [{ q with port := none }] })
    (s.onCache fun c => { c with pool := rest })

/-- The pool requests that wait for a port are sent, in order. -/
def poolRelease (s : State) : State :=
  (s.cache.pool.filter fun q => q.port.isNone).foldl (fun t q => poolSend q t)
    (s.onCache fun x => { x with pool := x.pool.filter fun q => q.port.isSome })

/-- The offers outstanding on a port count as DECLINE (R298 step 4). -/
def offersEnd (f : Fin 2) (s : State) : State :=
  let n (h : Half) := (s.cache.offers.filter fun o => o.port = f ∧ o.home = h).length
  cnt 0x014 (some .w) none (n .w)
    (cnt 0x014 (some .e) none (n .e) (s.onCache fun c => { c with offers := c.offers.filter fun o => ¬ o.port = f }))

/-- Whoever waits for an answer through port n gets none. -/
def Who.lose (n : Nat) (w : Who) : Who :=
  match w with
  | .port p _ _ => if p.val = n then .own else w
  | .block p _ _ => if p.val = n then .own else w
  | _ => w

def LineReq.lose (n : Nat) (r : LineReq) : LineReq := { r with who := r.who.lose n }

def AtuHalf.lose (n : Nat) (x : AtuHalf) : AtuHalf :=
  { x with waiting := x.waiting.map fun a => { a with who := a.who.lose n },
           atoms := x.atoms.map fun a => { a with who := a.who.lose n } }

/-- Requests that the slice accepted from port n are still performed, but their responses are lost (R298 step 2). -/
def loseAnswers (n : Nat) (s : State) : State :=
  let c := s.cache
  { s with
    cache := { c with
      blocked := c.blocked.map (·.lose n),
      mshr := c.mshr.map fun q => { q with waiters := q.waiters.map (·.lose n) },
      invs := c.invs.map fun o => match o.act with
        | .perform r => { o with act := .perform (r.lose n) }
        | _ => o,
      pool := c.pool.map fun q => match q.who with
        | .uncached r => { q with who := .uncached (r.lose n) }
        | _ => q },
    atu := { s.atu with he := s.atu.he.lose n, hw := s.atu.hw.lose n },
    buf := { s.buf with
      waitE := s.buf.waitE.map fun w => { w with who := w.who.lose n },
      waitW := s.buf.waitW.map fun w => { w with who := w.who.lose n },
      frees := s.buf.frees.map fun e => (e.1, e.2.1.map (fun x => (x.1.lose n, x.2)), e.2.2) },
    links := { s.links with blocks := s.links.blocks.filter fun b => decide (¬ b.port.val = n) } }

/-- Port n is declared DOWN (R298): its transmit buffer is lost, its sharer bit is cleared everywhere (R202), a partner's responses
are lost, a pool port's requests move to the other port, and DOWN_EVT is set. -/
def portDown (n : Nat) (s : State) : State :=
  let p := port s n
  let s := putPort s n { p with state := 6, downEvt := true, degraded := false, since := s.clk.time }
  let s := setLink s n LinkSt.zero
  let s := cnt (0x240 + n) none none 1 s
  if n < 6 then startClear n (ackPort n (loseAnswers n s))
  else
    let f : Fin 2 := if n = 6 then 0 else 1
    poolResend f (offersEnd f s)

/-! ## Link events 0x200 + 8e + x (R429) -/

def linkEvent (e n k : Nat) (s : State) : State := cnt (0x200 + 8 * e + n) none none k s

end Sys2Proof.Machine
end

