-- ==== Sys2Proof/Machine/Blocks.lean ====
section
/-! DEFINITION. The allocator's tables and its decision (R156 to R169), and the end of a free. -/

namespace Sys2Proof.Machine

/-! ## Counts -/

/-- The PINNED regions of a half; a region in transition has withdrawn its blocks (R171, R364). -/
def pinnedRegions (s : State) (h : Half) : List Nat :=
  (s.tables.region.filter fun e => e.2.state == 2 && !e.2.busy && regionHalf e.1 == h).map (·.1)

/-- Offsets of the blocks of region r that are not FREE, rising. -/
def busyBlocks (s : State) (r : Nat) : List Nat :=
  (s.buf.blk.filter fun e => decide (e.1 / 1024 = r) && !(e.2.st == 1)).map fun e => e.1 % 1024

/-- Free blocks of region r, and of a half. -/
def freeIn (s : State) (r : Nat) : Nat := 1024 - (busyBlocks s r).length
def freeCount (s : State) (h : Half) : Nat := ((pinnedRegions s h).map (freeIn s)).sum

/-- Blocks of region r in a state. -/
def blocksIn (s : State) (r st : Nat) : List Nat :=
  (s.buf.blk.filter fun e => decide (e.1 / 1024 = r) && decide (e.2.st.toNat = st)).map (·.1)

def setBlk (s : State) (b : Nat) (x : Blk) : State := s.onBuf fun u => { u with blk := tset Blk.zero u.blk b x }

def blockHalf (b : Nat) : Half := regionHalf (b / 1024)

/-- SA of block b (R156). -/
def blockSa (s : State) (b : Nat) : Sa := BitVec.ofNat 52 (2 ^ 51 + s.glb.sid.toNat * 2 ^ 42 + b * 65536)

/-- The k-th free offset of a region whose busy offsets are given, rising. -/
def kthFree (busy : List Nat) (k : Nat) : Nat := busy.foldl (fun k o => if o ≤ k then k + 1 else k) k

/-- The k-th free block among regions. -/
def pickBlock (s : State) : List Nat → Nat → Option Nat
  | [], _ => none
  | r :: rs, k => if k < freeIn s r then some (1024 * r + kthFree (busyBlocks s r) k) else pickBlock s rs (k - freeIn s r)

/-! ## USED (R164, R173) -/

def used (s : State) (h : Half) (p : Part) : BitVec 18 := tget 0 s.buf.used (32 * h.idx + p.toNat)
def addUsed (h : Half) (p : Part) (s : State) : State :=
  s.onBuf fun u => { u with used := tmod 0 u.used (32 * h.idx + p.toNat) (· + 1) }
def subUsed (h : Half) (p : Part) (s : State) : State :=
  s.onBuf fun u => { u with used := tmod 0 u.used (32 * h.idx + p.toNat) (· - 1) }

/-! ## Answers -/

/-- The status code of a Troxo instruction (R249) for a status of R289. -/
def troxoStatus (n : Nat) : Nat :=
  if n = stThawed then 1 else if n = stEmpty then 2 else if n = stQuota then 3 else if n = stRights then 4
  else if n = stBadarg then 5 else if n = stNotOwned then 6 else if n = stRegion then 7 else if n = stOrdFull then 8 else n

/-- The outcome of an allocation or a free to whoever asked: a partner's RSP, or gd of the thread's instruction, which then
completes. `.thread t d` names the destination register here. -/
def blockAnswer (w : Who) (p : Part) (sa : Sa) (status : Nat) (s : State) : State :=
  match w with
  | .port n c tag => respond n c tag p sa status 0 false [] s
  | .thread t d =>
    let v : BitVec 64 := if status = stOk then sa.setWidth 64 else BitVec.ofNat 64 (troxoStatus status)
    modThr s t.val fun x => { (x.setG d v).next with wait := none, waitLeft := none }
  | _ => s

/-! ## The decision (R161) -/

/-- What one arbiter step decides. -/
inductive AllocRes where
  | granted (block : Nat)
  | status (n : Nat)
  | join
  deriving DecidableEq, Repr

/-- QUOTA, OK, EMPTY or waiting, in the order of R161; quotas are those of the allocator's epoch. -/
def allocStep (s : State) (h : Half) (p : Part) (wait : Bool) : AllocRes :=
  let q := partReg (allocView s h) p.toNat
  let quota := min 196608 (h.pick q.quotaE q.quotaW).toNat
  if p ≠ 0 ∧ quota ≤ (used s h p).toNat then .status stQuota
  else
    let n := freeCount s h
    if n = 0 then (if wait then .join else .status stEmpty)
    else
      match pickBlock s (pinnedRegions s h) (Config.freeBlock s.freeCtr % n) with
      | some b => .granted b
      | none => .status stEmpty

/-- The events of allocations (R429). -/
def allocEvent (h : Half) (p : Part) (status : Nat) (s : State) : State :=
  if status = stOk then cnt 0x030 (some h) (some p) 1 s
  else if status = stEmpty then cnt 0x031 (some h) (some p) 1 s
  else if status = stQuota then cnt 0x032 (some h) (some p) 1 s
  else if status = stThawed then cnt 0x033 (some h) (some p) 1 s
  else s

/-- Give block b to a partition. -/
def grant (b : Nat) (p : Part) (s : State) : State := setBlk { s with freeCtr := s.freeCtr + 1 } b { st := 3, owner := p }

def waitQ (s : State) (h : Half) : List Waiter := h.pick s.buf.waitE s.buf.waitW
def setWaitQ (h : Half) (q : List Waiter) (s : State) : State :=
  s.onBuf fun u => match h with
    | .e => { u with waitE := q }
    | .w => { u with waitW := q }

/-- Grant at once. -/
def allocGrant (w : Who) (h : Half) (p : Part) (b : Nat) (s : State) : State :=
  blockAnswer w p (blockSa s b) stOk (allocEvent h p stOk (addUsed h p (grant b p s)))

def allocFail (w : Who) (h : Half) (p : Part) (n : Nat) (sa : Sa) (s : State) : State :=
  blockAnswer w p sa n (allocEvent h p n s)

/-- Join the wait queue; a full one ends EMPTY (R164). -/
def allocJoin (w : Who) (h : Half) (p : Part) (sa : Sa) (limit : Nat) (s : State) : State :=
  if 64 ≤ (waitQ s h).length then
    let s := s.onBuf fun u => match h with
      | .e => { u with wqFullE := satAdd u.wqFullE 1 }
      | .w => { u with wqFullW := satAdd u.wqFullW 1 }
    allocFail w h p stEmpty sa s
  else
    let s := match w with
      | .thread t _ => modThr s t.val fun x =>
          { x with wait := some { kind := 4, tok := 0, sa := 0, start := s.clk.time, limit := limit, dest := 0, pva := 0, cond := 0, cmp := 0,
                                  eval := none, again := false, desc := 0 } }
      | _ => s
    setWaitQ h (waitQ s h ++ [{ who := w, part := p, since := s.clk.time, limit := limit }]) (addUsed h p s)

/-- Decide an allocation: selector 0 E, 1 W, 2 ANY (R162); 3 is BADARG. ANY ends UNAVAILABLE when the arrival half is, and takes another half
that is unavailable as EMPTY (log entry 119). -/
def allocate (w : Who) (p : Part) (sel : Nat) (wait : Bool) (arrival : Half) (sa : Sa) (limit : Nat) (s : State) : State :=
  if 2 < sel then blockAnswer w p sa stBadarg s
  else if sel < 2 then
    let h := Half.ofBool (decide (sel = 1))
    if unavailable s h arrival then blockAnswer w p sa stUnavailable s
    else
      match allocStep s h p wait with
      | .granted b => allocGrant w h p b s
      | .status n => allocFail w h p n sa s
      | .join => allocJoin w h p sa limit s
  else if unavailable s arrival arrival then blockAnswer w p sa stUnavailable s
  else
    match allocStep s arrival p false with
    | .granted b => allocGrant w arrival p b s
    | .join => s
    | .status n =>
      match (if unavailable s arrival.other arrival then .status stEmpty else allocStep s arrival.other p false) with
      | .granted b => allocGrant w arrival.other p b s
      | _ =>
        if !wait then allocFail w arrival p n sa s
        else
          match allocStep s arrival p true with
          | .granted b => allocGrant w arrival p b s
          | .status n => allocFail w arrival p n sa s
          | .join => allocJoin w arrival p sa limit s

/-! ## The end of a free (R168) -/

/-- A free whose invalidations are all acknowledged: USED falls and OK is answered. -/
def finishFree (e : Nat × Option (Who × Part × Sa) × Part) (s : State) : State :=
  let h := blockHalf e.1
  let s := cnt 0x034 (some h) (some e.2.2) 1 (subUsed h e.2.2 (s.onBuf fun u => { u with frees := u.frees.erase e }))
  match e.2.1 with
  | some (.thread t d, _) => modThr s t.val fun x => { (x.setG d 0).next with wait := none, waitLeft := none }
  | some (w, p, sa) => blockAnswer w p sa stOk s
  | none => s

end Sys2Proof.Machine
end

