-- ==== Sys2Proof/Machine/Grant.lean ====
section
/-! DEFINITION. The array arbiters (R301 to R309): who is granted an activation and whom it is charged to; and the line requests
that ask for one, with the epoch they carry (R313). -/

namespace Sys2Proof.Machine

/-! ## The regulator -/

def mstat (s : State) (h : Half) (m : Nat) : MStat := tget MStat.zero s.bwr.ms (22 * h.idx + m)
def setMstat (h : Half) (m : Nat) (x : MStat) (s : State) : State :=
  s.onBwr fun b => { b with ms := tset MStat.zero b.ms (22 * h.idx + m) x }

/-- The masters, starting after number k and wrapping round. -/
def afterRr (k : Nat) : List Nat := (List.range 22).map fun i => (k + 1 + i) % 22

/-- Weight of a priority class (R303). -/
def prioWeight (p : BitVec 2) : Nat := 2 ^ p.toNat

/-- A master's weight under the settings its half works with. -/
def mWeight (s : State) (h : Half) (m : Nat) : Int := prioWeight (mcfg (bwrView s h) h m).prio

/-- Whom a grant goes to. -/
inductive Grantee where
  | nobody
  | master (m : Nat) (step : Nat)
  | unregulated
  | plow
  deriving DecidableEq, Repr

/-- The masters that step 4 of R303 chooses among, of those that are ready: below CEIL. -/
def step4Set (s : State) (h : Half) (ready : BitVec 22) : BitVec 22 :=
  (List.range 22).foldl
    (fun b m => if ready.getLsbD m ∧ (mstat s h m).count < (mcfg (bwrView s h) h m).ceil.toNat then setBit b m true else b) 0

/-- What step 4 remembers of master m: its grants less its share, in weights of the set, with the least and the largest value
since the set last changed; a changed set begins anew. -/
def wrrState (s : State) (h : Half) (set : BitVec 22) (m : Nat) : Int × Int × Int :=
  let x := mstat s h m
  if h.pick s.bwr.setE s.bwr.setW = set then (x.credit, x.least, x.most) else (0, 0, 0)

def setMembers (set : BitVec 22) : List Nat := (List.range 22).filter fun m => set.getLsbD m
def setWeight (s : State) (h : Half) (set : BitVec 22) : Int := ((setMembers set).map (mWeight s h)).sum

/-- The member furthest behind its share, the lowest number among equals. -/
def furthest (s : State) (h : Half) (set : BitVec 22) : List Nat → Option Nat
  | [] => none
  | m :: ms =>
    match furthest s h set ms with
    | none => some m
    | some k =>
      let need (i : Nat) : Int := mWeight s h i - (wrrState s h set i).1
      if need k ≤ need m then some m else some k

/-- Step 4 of R303 (log entry 104): a member that a further grant to another would leave more than one grant short of its share
over some run comes first; else one that a grant leaves within one grant of its share over every run; else any. -/
def wrrPick (s : State) (h : Half) (set : BitVec 22) : Option Nat :=
  let w := setWeight s h set
  let ms := setMembers set
  let urgent := ms.filter fun m => let x := wrrState s h set m; decide (x.1 - mWeight s h m < x.2.2 - w)
  let level := ms.filter fun m => let x := wrrState s h set m; decide (x.1 - mWeight s h m ≤ x.2.1)
  furthest s h set (if !urgent.isEmpty then urgent else if !level.isEmpty then level else ms)

/-- The arbiter's choice (R303). -/
def bwrChoose (s : State) (h : Half) (ready : BitVec 22) (unreg plow : Bool) : Grantee :=
  let v := bwrView s h
  let b := s.bwr
  let share : Bool := plow && decide (16 * h.pick b.plowE b.plowW < h.pick b.allE b.allW)
  let rr1 := (afterRr (h.pick b.rr1E b.rr1W)).find? fun m =>
    ready.getLsbD m && decide ((mstat s h m).count < (mcfg v h m).floor.toNat)
  let rr6 := (afterRr (h.pick b.rr6E b.rr6W)).find? fun m => ready.getLsbD m
  if v.bwrEn then
    match rr1 with
    | some m => .master m 1
    | none =>
      if unreg then .unregulated
      else if share then .plow
      else
        match wrrPick s h (step4Set s h ready) with
        | some m => .master m 4
        | none => if plow then .plow else match rr6 with
          | some m => .master m 6
          | none => .nobody
  else if unreg then .unregulated
  else if share then .plow
  else match rr6 with
    | some m => .master m 6
    | none => if plow then .plow else .nobody

/-- A grant of step 4: the winner gains the set's weight, every member owes its own. -/
def wrrCharge (h : Half) (winner : Nat) (set : BitVec 22) (s : State) : State :=
  let w := setWeight s h set
  let t := (setMembers set).foldl
    (fun t m =>
      let x := wrrState s h set m
      let d : Int := x.1 - mWeight s h m + (if m = winner then w else 0)
      setMstat h m { mstat t h m with credit := d, least := min x.2.1 d, most := max x.2.2 d } t) s
  t.onBwr fun b => match h with
    | .e => { b with setE := set }
    | .w => { b with setW := set }

/-- Count a grant to a master; reaching CEIL demotes it (R306). -/
def countGrant (h : Half) (m : Nat) (s : State) : State :=
  let x := mstat s h m
  let reached : Bool := decide (x.count + 1 = max 1 (mcfg (bwrView s h) h m).ceil.toNat)
  setMstat h m { x with count := x.count + 1, demoted := x.demoted || reached } (cnt 0x060 (some h) none 1 s)

/-- Give one grant. -/
def giveGrant (h : Half) (g : Grantee) (ready : BitVec 22) (s : State) : State :=
  match g with
  | .nobody => s
  | .unregulated => cnt 0x061 (some h) none 1 s
  | .plow => cnt 0x062 (some h) none 1 (s.onBwr fun b => match h with
      | .e => { b with plowE := b.plowE + 1 }
      | .w => { b with plowW := b.plowW + 1 })
  | .master m step =>
    let s := if step = 4 then wrrCharge h m (step4Set s h ready) s else s
    let s := s.onBwr fun b => match h, step with
      | .e, 1 => { b with rr1E := m }
      | .w, 1 => { b with rr1W := m }
      | .e, 6 => { b with rr6E := m }
      | .w, 6 => { b with rr6W := m }
      | _, _ => b
    countGrant h m s

/-! ## Windows (R306 to R308) -/

/-- One half's counts at the end of a window (R306): a master was ready throughout when every grant of the window found a request
of it. -/
def closeWindow (h : Half) (s : State) : State :=
  let v := bwrView s h
  let all := h.pick s.bwr.allE s.bwr.allW
  let dem : Bool := (List.range 22).any fun m => decide (max 1 (mcfg v h m).ceil.toNat ≤ (mstat s h m).count)
  let s := (List.range 22).foldl
    (fun t m =>
      let x := mstat t h m
      let missed : Bool := decide (0 < all ∧ x.ready = all ∧ x.count + 1 < (mcfg v h m).floor.toNat)
      let t := if missed then t.onBwr fun b => { b with errMiss := true } else t
      setMstat h m { x with last := BitVec.ofNat 14 x.count, floorMiss := x.floorMiss || missed, count := 0, ready := 0 } t) s
  let s := if dem then cnt 0x063 (some h) none 1 s else s
  s.onBwr fun b => match h with
    | .e => { b with plowE := 0, allE := 0 }
    | .w => { b with plowW := 0, allW := 0 }

/-- A window boundary is due (R307). -/
def windowDue (s : State) : Bool := decide (s.bwr.window.toNat / 1000 < s.clk.time.toNat / 1000)

/-- The window ends in both halves; the next one began at the last boundary (R307). -/
def windowRoll (s : State) : State :=
  if windowDue s then
    (closeWindow .w (closeWindow .e s)).onBwr fun b => { b with window := BitVec.ofNat 64 (s.clk.time.toNat / 1000 * 1000) }
  else s

/-- A grant that found these masters ready (R306). -/
def noteReady (h : Half) (ready : BitVec 22) (s : State) : State :=
  (setMembers ready).foldl (fun t m => setMstat h m { mstat t h m with ready := (mstat t h m).ready + 1 } t) s

/-- One grant of a half's arbiter. The element of R308 places a rollover that is due before it. -/
def arbitrate (h : Half) (ready : BitVec 22) (unreg plow : Bool) (s : State) : State :=
  let s := windowRoll s
  match bwrChoose s h ready unreg plow with
  | .nobody => s
  | g => giveGrant h g ready ((noteReady h ready s).onBwr fun b => match h with
      | .e => { b with allE := b.allE + 1 }
      | .w => { b with allW := b.allW + 1 })

/-! ## Charges (R302) -/

/-- An activation for a master's request, or for the slice's own. -/
def charge (h : Half) (m : Option Nat) (s : State) : State :=
  match m with
  | some m => arbitrate h (setBit 0 m true) false false s
  | none => arbitrate h 0 true false s

/-- An activation of unregulated work. -/
def chargeOwn (h : Half) (s : State) : State := charge h none s

/-- An activation of a plow step. -/
def chargePlow (h : Half) (s : State) : State := arbitrate h 0 false true s

/-- k activations of unregulated work that belong together. -/
def chargeMany (h : Half) : Nat → State → State
  | 0, s => s
  | k + 1, s => chargeMany h k (chargeOwn h s)

/-! ## Requests -/

/-- Put a request at the end of the waiting ones. -/
def requeue (r : LineReq) (s : State) : State := s.onCache fun c => { c with blocked := c.blocked ++ [r] }

/-- 64-byte units of a message of n data bytes behind its 16-byte header (R347; log entry 33). -/
def units (n : Nat) : Nat := (16 + n + 63) / 64

/-- Data bytes that a request carries. -/
def reqBytes (s : State) (r : LineReq) : Nat :=
  match r.op with
  | .write mask _ => 32 * popcount (sectors fun j => decide (sectorMask mask j ≠ 0))
  | .atu id => if (s.atu.he.queue ++ s.atu.hw.queue).any fun a => a.id == id then 128 else 16
  | _ => 0

/-- Accept a request into the pipeline (R125): one that crosses to the other half crosses the half link. -/
def enqueue (r : LineReq) (s : State) : State :=
  let k := units (reqBytes s r)
  requeue r (if r.arrival = r.home then s else countOps .e 20 2 k (countOps .w 20 2 k s))

/-- The thread a collecting unit works for. -/
def Consumer.thread : Consumer → Option ThreadId
  | .fetch t => some t
  | .next t => some t
  | .source t _ _ => some t
  | .dest t _ _ => some t
  | .tag t _ _ => some t
  | .smov t => some t
  | .cktag t => some t
  | .walk _ _ => none
  | .desc t => some t
  | .restore t => some t
  | .save t => some t
  | .pack => none

/-- The master that a requester's activations are charged to (R301, R302). -/
def Who.master (s : State) : Who → Option Nat
  | .port p _ _ => some p.val
  | .block p _ _ => some p.val
  | .thread t _ => some (thrMaster s t.val)
  | .buf c _ => c.thread.map fun t => thrMaster s t.val
  | .posted t _ => some (thrMaster s t.val)
  | .record _ _ => none
  | .own => none

/-- Partition p may prefetch the line after sa: PREF_DIS is 0, and it may read that line (R133). -/
def mayPrefetch (v : Staged) (p : Part) (sa : Sa) : Bool :=
  !(partReg v p.toNat).prefDis && (p == 0 || (farRights (partReg v p.toNat) (lineOf sa + 128)).grants Rights.rd)

/-- A request for the line at sa, with everything that the epoch of its first acceptance decides: caching, the windows in both
halves, the right to prefetch (R123, R145, R313). -/
def mkReq (s : State) (w : Who) (op : LineOp) (sa : Sa) (p : Part) (arrival home : Half) : LineReq :=
  let v := pipeView s arrival
  let gi (h : Half) : Option Nat := if (partReg v p.toNat).cacheEn then some (gtIndex v h p.toNat sa) else none
  { who := w, op := op, sa := sa, part := p, arrival := arrival, home := home, gi := gi home, gia := gi arrival,
    pref := mayPrefetch v p sa, master := w.master s, waited := false }

/-- An access of the slice itself with partition 0's rights: the home half, or none when it fails decode (R106, R116). A home
half that is off counts as a failed decode (log entry 105). -/
def ownHome (s : State) (arrival : Half) (sa : Sa) (need : Rights) : Option Half :=
  match checkSa s (pipeView s arrival) 0 none need sa with
  | .ok (.far h) => if unavailable s h arrival then none else some h
  | .ok (.buf r _) => if unavailable s (regionHalf r) arrival then none else some (regionHalf r)
  | _ => none

/-- Store n bytes for the slice itself; false when the address fails decode. -/
def ownStore (arrival : Half) (w : Who) (sa : Sa) (n v : Nat) (s : State) : Bool × State :=
  match ownHome s arrival sa Rights.wr with
  | none => (false, s)
  | some h =>
    let off := field sa.toNat 0 7
    (true, enqueue (mkReq s w (.write (byteMask off n) (BitVec.ofNat 1024 (v * 2 ^ (8 * off)))) sa 0 arrival h) s)

/-- A store of the slice's own for a notification word: it enters where it is homed when that half is up. -/
def noteStore (sa : Sa) (n v : Nat) (s : State) : Bool × State :=
  let r := ownStore .e .own sa n v s
  if r.1 then r else ownStore .w .own sa n v s

/-- Whether the bytes lie in BUF space (pinned). -/
def isBuf (sa : Sa) : Bool := bit sa 51

end Sys2Proof.Machine
end

