-- ==== Sys2Proof/Machine/Cache.lean ====
section
/-! DEFINITION. The cache of a half (chapters 5 and 8): lookup, miss registers, eviction, invalidation, replicas, poison,
and the atomic unit's activation (R177). A request enters the list `blocked` in the order the pipeline accepts it; `settle`
performs what can be performed. Requests for one line are performed in that order (R125). -/

namespace Sys2Proof.Machine

/-! ## Fault records (R114 to R116) -/

def faultQ (s : State) (p : Nat) : FaultQ := tget FaultQ.zero s.xlt.fq p
def setFaultQ (s : State) (p : Nat) (q : FaultQ) : State := s.onXlt fun x => { x with fq := tset FaultQ.zero x.fq p q }

/-- The 32 bytes of a fault record as a number (R114). -/
def faultWord (i : FaultInfo) (p : Part) (lost : Bool) (time : BitVec 64) : Nat :=
  let sa : Nat := match i.sa with
    | none => 0
    | some x => x.toNat + 2 ^ 63
  i.pva.toNat + (sa + i.sub * 2 ^ 52) * 2 ^ 64
    + (i.code + i.level * 2 ^ 8 + i.kind * 2 ^ 12 + (thrHalf i.thread).idx * 2 ^ 15 + coreInHalf (thrCore i.thread) * 2 ^ 16
       + i.thread % 4 * 2 ^ 20 + i.token.getD 0 * 2 ^ 22 + b2n i.token.isSome * 2 ^ 25 + p.toNat * 2 ^ 26
       + b2n lost * 2 ^ 31) * 2 ^ 128
    + i.line * 2 ^ 160 + (i.time.getD time).toNat * 2 ^ 192

/-- A record that is not written (R116). -/
def faultLost (p : Part) (s : State) : State :=
  let q := faultQ s p.toNat
  cnt 0x049 none (some p) 1 (setFaultQ s p.toNat { q with lost := satAdd q.lost 1, lostMark := true })

/-- Write a fault record into the partition's queue, or count it lost (R116). -/
def writeFault (i : FaultInfo) (p : Part) (s : State) : State :=
  let q := faultQ s p.toNat
  let n := 2 ^ q.log2n.toNat
  if !q.en ∨ n ≤ (q.alloc - q.head).toNat then faultLost p s
  else
    let sa := BitVec.ofNat 52 (q.base.toNat * 4096 + 32 * (q.alloc.toNat % n))
    let r := ownStore (thrHalf i.thread) (.record p q.alloc) sa 32 (faultWord i p q.lostMark s.clk.time) s
    if r.1 then
      cnt 0x048 none (some p) 1 (setFaultQ r.2 p.toNat { q with alloc := q.alloc + 1, lostMark := false })
    else faultLost p (setFaultQ s p.toNat { q with qerr := true })

/-- TAIL moves past every slot whose write has completed (R116). -/
def tailAdvance : Nat → FaultQ → FaultQ
  | 0, q => q
  | n + 1, q =>
    if q.written.contains q.tail then
      tailAdvance n { q with tail := q.tail + 1, written := q.written.filter fun k => ¬ k = q.tail }
    else q

/-- A record's write has completed. -/
def recordDone (p : Part) (slot : BitVec 32) (s : State) : State :=
  let q := faultQ s p.toNat
  setFaultQ s p.toNat (tailAdvance 4096 { q with written := q.written ++ [slot] })

/-! ## Partition resets are triggered here, and run by PARTITION_RESET (R338) -/

/-- Queue a partition reset; a second trigger merges into the one pending. METALOSS of partition 0 is fatal (R327). -/
def prstTrigger (p : Part) (cause : Nat) (s : State) : State :=
  if s.integ.prst.any fun r => r.part == p then s
  else s.onInteg fun i => { i with prst := i.prst ++ [{ part := p, cause := BitVec.ofNat 2 cause, running := false, disc := 0 }] }

/-- A thread of p consumed poison: with CONTAIN at 1 its partition is reset, and the instruction does not complete
(R336); while p's reset is pending nothing more is triggered (R338). -/
def consume (p : Part) (s : State) : Bool × State :=
  if p ≠ 0 ∧ (partReg s.cur p.toNat).contain then (true, prstTrigger p 2 s) else (false, s)

/-! ## Poison -/

/-- Poison delivered to a requester: counted and recorded (R326); the delivery itself poisons no sector. A walk's table read carries the
SOURCE of a demand access (log entry 118). -/
def poisonDelivered (key : Option Nat) (sa : Sa) (h : Half) (p : Part) (master : Option Nat) (s : State) : State :=
  let r : Rec := match key with
    | some k => lineRec s 3 1 k
    | none => Rec.mk0 3 1 h
  cnt 0x052 (some h) none 1
    (writeRec { r with part := some p, sa := some (lineOf sa), master := BitVec.ofNat 8 (master.getD 0xFF) } s)

/-- Poison created in a line: UE is set, one UNCORRECTED record is written (R326). -/
def poisonCreated (r : Rec) (mask : BitVec 4) (h : Half) (s : State) : State :=
  if mask = 0 then s
  else
    cnt 0x051 (some h) none (popcount mask)
      (writeRec { r with sect := mask, action := 2 } (s.onInteg fun i => { i with ue := true }))

/-! ## Read-only caches of cores (R218) -/

def roBase (k : Nat) (c : RoKind) : Nat :=
  144 * k + (match c with | .instr => 0 | .desc => 48 | .konst => 96)

def roEnt (s : State) (i : Nat) : Option RoEnt := tget none s.seq.ro i
def setRo (s : State) (i : Nat) (e : Option RoEnt) : State := s.onSeq fun q => { q with ro := tset none q.ro i e }

/-- The entry of a core's cache that holds a sector. -/
def roFind (s : State) (k : Nat) (c : RoKind) (sa : Sa) : Option RoEnt :=
  ((List.range 48).filterMap fun e => roEnt s (roBase k c + e)).find? fun x => x.sector == sa.extractLsb' 5 47

/-- Fill an entry: the first whose reference bit is clear (an empty one counts), else all are cleared and entry 0 is taken. -/
def roInsert (k : Nat) (c : RoKind) (sa : Sa) (d : BitVec 256) (s : State) : State :=
  let b := roBase k c
  let e : Option RoEnt := some { sector := sa.extractLsb' 5 47, data := d, ref := true }
  match (List.range 48).find? fun e => match roEnt s (b + e) with | none => true | some x => !x.ref with
  | some j => setRo s (b + j) e
  | none =>
    let s := (List.range 48).foldl (fun t j => setRo t (b + j) ((roEnt t (b + j)).map fun x => { x with ref := false })) s
    setRo s b e

/-- A hit in a read-only cache references the entry. -/
def roTouch (k : Nat) (c : RoKind) (sa : Sa) (s : State) : State :=
  let b := roBase k c
  match (List.range 48).find? fun e => match roEnt s (b + e) with | none => false | some x => x.sector == sa.extractLsb' 5 47 with
  | some j => setRo s (b + j) ((roEnt s (b + j)).map fun x => { x with ref := true })
  | none => s

/-- Answers that core k's units have not taken up yet no longer fill its caches, where a test holds of them (R196, R198). -/
def roForget (k : Nat) (f : LineRes → Bool) (s : State) : State :=
  s.onCache fun c => { c with got := c.got.map fun e =>
    if (e.1.thread.map fun t => thrCore t.val) = some k ∧ f e.2.2 then (e.1, e.2.1, { e.2.2 with untrk := true }) else e }

/-- Core k discards every entry of a line (R198), and an answer with that line fills nothing. -/
def roDropLine (k : Nat) (line : Sa) (s : State) : State :=
  roForget k (fun x => x.line == line) <| s.onSeq fun q => { q with ro := q.ro.filter fun e =>
    !(decide (144 * k ≤ e.1 ∧ e.1 < 144 * (k + 1)) &&
      (match e.2 with | none => false | some x => x.sector.extractLsb' 2 45 == line.extractLsb' 7 45)) }

/-- Core k discards its three caches (R202, R327). -/
def roDropCore (k : Nat) (s : State) : State :=
  roForget k (fun _ => true) <|
    s.onSeq fun q => { q with ro := q.ro.filter fun e => !decide (144 * k ≤ e.1 ∧ e.1 < 144 * (k + 1)) }

/-! ## Answers -/

/-- Bytes of a read's span of the line. -/
def spanBytes (sp : Span) (sa : Sa) (d : BitVec 1024) : List Byte :=
  match sp with
  | .sector => toBytes 32 (d.extractLsb' (256 * sectorOf sa) 256).toNat
  | .line => toBytes 128 d.toNat
  | .some_ _ => []
  | .bytes off n _ => toBytes n (d.toNat / 2 ^ (8 * off))

/-- The sectors of the line that a span touches. -/
def spanSectors (sp : Span) (sa : Sa) : BitVec 4 :=
  match sp with
  | .sector => BitVec.ofNat 4 (2 ^ sectorOf sa)
  | .line => 15
  | .some_ mask => mask
  | .bytes off _ _ => BitVec.ofNat 4 (2 ^ (off / 32))

/-- The register values a load delivers. -/
def spanRegs (sp : Span) (d : BitVec 1024) : List (BitVec 64) :=
  match sp with
  | .bytes off n signed =>
    let v := d.toNat / 2 ^ (8 * off) % 2 ^ (8 * n)
    [if signed ∧ 2 ^ (8 * n - 1) ≤ v then BitVec.ofNat 64 v - BitVec.ofNat 64 (2 ^ (8 * n)) else BitVec.ofNat 64 v]
  | .line => (List.range 16).map fun i => d.extractLsb' (64 * i) 64
  | .sector => []
  | .some_ _ => []

/-- The result of a thread's outstanding access. -/
def threadResult (t : ThreadId) (id : Nat) (v : List (BitVec 64)) (s : State) : State :=
  modThr s t.val fun x =>
    { x with outs := x.outs.map fun o => if o.id = id then { o with result := some v } else o }

/-- The evaluation of a SEMW or WAITT that met poison (R259), or was lost with the power of a domain, has no value: the wait goes on. -/
def poisonResult (t : ThreadId) (id : Nat) (v : List (BitVec 64)) (s : State) : State :=
  let evaluates : Bool := match (thr s t.val).wait with
    | some w => w.eval == some id
    | none => false
  threadResult t id (if evaluates then [] else v) s

/-- The access of a thread was discarded with the power of a domain: it ends without having been performed, and what it would have
delivered, n registers, is free (R36 edges, R384; log entry 131). -/
def lostResult (t : ThreadId) (id n : Nat) (s : State) : State :=
  poisonResult t id ((List.range n).map fun i => Config.freeValue (s.freeCtr + i)) { s with freeCtr := s.freeCtr + n }

/-- An access that met poison under CONTAIN never has a result (R336). -/
def voidOut (t : ThreadId) (id : Nat) (s : State) : State :=
  modThr s t.val fun x => { x with outs := x.outs.map fun o => if o.id = id then { o with void := true } else o }

/-- A read for a core's constant cache fills it (R218). -/
def constFill (r : LineReq) (x : LineRes) (s : State) : State :=
  match r.op with
  | .read _ (some b) _ =>
    if 6 ≤ b ∧ x.status = 0 ∧ x.poison.getLsbD (sectorOf r.sa) = false ∧ !x.untrk then
      roInsert (b - 6) .konst r.sa (x.data.extractLsb' (256 * sectorOf r.sa) 256) s
    else s
  | _ => s

/-- The fault record of a data read that met poison (R259). -/
def poisonRecord (t : ThreadId) (id kind : Nat) (sa : Sa) (p : Part) (s : State) : State :=
  let pva : BitVec 48 := match (thr s t.val).outs.find? fun o => o.id == id with
    | none => 0
    | some o => o.pva
  writeFault { pva := pva, sa := some sa, sub := 0, code := 0x0C, level := 7, kind := kind, thread := t.val, token := none,
               line := 0, time := none } p s

/-- Count a line of a block write and answer once all 32 are in, with the first nonzero status in the order of codes 1 to
7 and 14 (R290). -/
def blockLine (p : PartnerPort) (tag : BitVec 12) (status : Nat) (s : State) : State :=
  match s.links.blocks.find? fun b => decide (b.port = p ∧ b.tag = tag) with
  | none => s
  | some b =>
    let st : Nat := if b.status = 0 then status else if status = 0 then b.status.toNat else min b.status.toNat status
    let rest := s.links.blocks.filter fun x => !decide (x.port = p ∧ x.tag = tag)
    if b.left ≤ 1 then
      respond p b.cls tag b.part b.sa st 0 false [] (s.onLinks fun l => { l with blocks := rest })
    else s.onLinks fun l => { l with blocks := rest ++ [{ b with left := b.left - 1, status := BitVec.ofNat 8 st }] }

/-- An answer that crosses back over the half link (R142, R347). -/
def answerUnits (r : LineReq) (st : Nat) (s : State) : State :=
  if r.arrival = r.home then s
  else
    let n : Nat := match r.op with
      | .read sp _ _ => if st = stOk ∨ st = stPoison then 32 * popcount (spanSectors sp r.sa) else 0
      | _ => 0
    countOps .e 20 2 (units n) (countOps .w 20 2 (units n) s)

/-- A plain status as an outcome. -/
def LineRes.st (n : Nat) : LineRes := { status := n, line := 0, written := false, poison := 0, data := 0, lcrc := 0, untrk := false }

/-- A request that moves data, or would have: its POISON is one delivery (R326). -/
def LineOp.access : LineOp → Bool
  | .read _ _ _ => true
  | .write _ _ => true
  | _ => false

/-- Deliver the outcome of a request to whoever made it. -/
def answerReq (r : LineReq) (x : LineRes) (key : Option Nat) (s : State) : State :=
  let sp : Span := match r.op with
    | .read sp _ _ => sp
    | _ => .line
  let hit := x.poison &&& spanSectors sp r.sa
  let isRead : Bool := match r.op with
    | .read _ _ _ => true
    | _ => false
  let st : Nat := if x.status = 0 ∧ isRead ∧ hit ≠ 0 then stPoison else x.status
  let data := if isRead then poisonData hit x.data else x.data
  let s := if r.op.access ∧ st = stPoison then poisonDelivered key r.sa r.home r.part r.master s else s
  let s := answerUnits r st s
  match r.who with
  | .port p c tag =>
    respond p c tag r.part r.sa st (if isRead then hit else 0) x.untrk
      (if isRead ∧ (st = stOk ∨ st = stPoison) then spanBytes sp r.sa data else []) s
  | .thread t id =>
    if isRead ∧ st = stPoison then
      let s := poisonRecord t id 0 r.sa r.part s
      let c := consume r.part s
      if c.1 then voidOut t id c.2 else poisonResult t id (spanRegs sp data) c.2
    else if isRead ∧ st ≠ stOk then lostResult t id (spanRegs sp 0).length s
    else threadResult t id (if isRead then spanRegs sp data else []) (constFill r x s)
  | .block p tag _ => blockLine p tag st s
  | .record p slot => recordDone p slot s
  | .buf c k =>
    if s.cache.asked.contains (c, k) then
      s.onCache fun q => { q with got := q.got ++ [(c, k, { x with status := st, line := lineOf r.sa, data := data, poison := hit })] }
    else s
  | .posted t n => s.onCache fun c => { c with posted := c.posted.filter fun e => !(e == (t, n)) }
  | .own => s

/-! ## Storing a line -/

/-- Codeword damage of array index key, sector j (R321). -/
def eccOf (s : State) (key j : Nat) : Nat := tget 0 s.cache.ecc (4 * key + j)

/-- A store re-encodes the line's codewords; an armed injection into this line damages what it stores (R346). -/
def afterStore (key : Nat) (line : Sa) (s : State) : State :=
  let s := s.onCache fun c => { c with ecc := (List.range 4).foldl (fun e j => tset 0 e (4 * key + j) 0) c.ecc }
  let s := s.onInteg fun x => { x with injected := x.injected.filter (· ≠ key) }
  let i := s.integ
  if i.injArm ∧ i.injAddr = line.extractLsb' 7 45 then
    let s := s.onInteg fun x => { x with injArm := false, injected := if i.injKind = 0 then x.injected else key :: x.injected }
    if i.injKind = 1 ∨ i.injKind = 2 then
      s.onCache fun c => { c with ecc := tset 0 c.ecc (4 * key + i.injSector.toNat) i.injKind.toNat }
    else if i.injKind = 3 then
      let m := metaAt s key
      setMeta s key { m with lcrc := ~~~m.lcrc }
    else s
  else s

/-- LCRC and LCRC_V of a line that holds d: set whenever all four sectors are valid (R121). -/
def withCrc (m : Meta) (d : BitVec 1024) (line : Sa) : Meta :=
  if m.sv = 15 then { m with lcrcV := true, lcrc := lineCrc d (lineIdx line) } else { m with lcrcV := false, lcrc := 0 }

/-- Store data and metadata of a line in one activation. -/
def storeLine (key : Nat) (line : Sa) (d : BitVec 1024) (m : Meta) (s : State) : State :=
  countOps (regionHalf (keyRegion key)) 18 2 1 (afterStore key line (setMeta (setData s key d) key (withCrc m d line)))

/-! ## Prefetch and drift statistics (R62, R67, R134) -/

def modLoopMem (s : State) (n : Nat) (f : LoopMem → LoopMem) : State :=
  s.onLoops fun l => { l with mem := tmod LoopMem.reset l.mem n f }

def loopOf (s : State) (n : Nat) : Loop := tget (Loop.reset n) s.loops.loop n

/-- Something is counted towards a loop's next evaluation, which is due after each `size` of them: what was counted until then is its measure (R62,
R67). -/
def tally (n size : Nat) (f : LoopMem → LoopMem) (s : State) : State :=
  modLoopMem s n fun m =>
    let m := f m
    if m.count < size then m else { m with count := 0, hits := 0, ended := 0, ready := m.ready ++ [(m.ended, m.hits)] }

/-- A prefetched line is used, or leaves unused. -/
def prefEnded (h : Half) (p : Part) (useful : Bool) (s : State) : State :=
  cnt (if useful then 0x00B else 0x00C) (some h) (some p) 1
    (modLoopMem s (8 + h.idx) fun m => { m with ended := m.ended + 1, hits := m.hits + b2n (!useful) })

/-- A replica of half h leaves; it was useful when it served a read. A replica's XCNT, which R65 gives no other use, holds
that mark in the model. -/
def replicaLeft (h : Half) (m : Meta) (s : State) : State :=
  tally (12 + h.idx) 256 (fun x => { x with count := x.count + 1, ended := x.ended + 1, hits := x.hits + b2n (decide (m.xcnt ≠ 0)) }) s

/-! ## Half link (R144) -/

def pushHalf (dst : Half) (m : HalfMsg) (s : State) : State :=
  let k := match m with
    | .install _ _ _ _ _ _ _ => units 128
    | _ => units 0
  (countOps .e 20 2 k (countOps .w 20 2 k s)).onCache fun c => match dst with
    | .e => { c with toE := c.toE ++ [m] }
    | .w => { c with toW := c.toW ++ [m] }

/-- The home half's invalidation has the acknowledgement of the replica in half h; a drop notice of that replica that is still
on its way is overtaken and has no effect (R144). -/
def replicaAck (h : Half) (line : Sa) (s : State) : State :=
  let rest (ms : List HalfMsg) : List HalfMsg := ms.filter fun m => !(m == .drop line)
  s.onCache fun c =>
    { c with toE := if h = .w then rest c.toE else c.toE, toW := if h = .e then rest c.toW else c.toW,
             invs := c.invs.map fun x => if x.line = line ∧ x.home = h.other then { x with replica := false } else x }

/-! ## Invalidation (R198 to R202) -/

/-- The sharers that still count: those whose clearing is not under way (R202). -/
def effSharers (s : State) (m : Meta) : BitVec 24 := m.sharers &&& ~~~s.cch.clrBusy

/-- Whether copies must be invalidated before the line changes. -/
def needInv (_ : State) (m : Meta) : Bool := decide (m.sharers ≠ 0) || m.rheld

/-- The cores whose bits are set drop the line at once: their acknowledgement path is inside the slice (R200). -/
def invCores (sh : BitVec 24) (line : Sa) (s : State) : State :=
  (List.range 18).foldl (fun t k => if sh.getLsbD (6 + k) then roDropLine k line t else t) s

/-- The partner ports whose bits are set and whose link is live: those that INV goes to (R201, R202). -/
def invPorts (s : State) (sh : BitVec 24) : BitVec 6 :=
  (List.range 6).foldl (fun b n => if sh.getLsbD n && portLive s n then setBit b n true else b) 0

/-- Send INV to each port of a mask. -/
def sendInvs (ports : BitVec 6) (line : Sa) (tag : BitVec 12) (p : Part) (s : State) : State :=
  (List.range 6).foldl
    (fun t n =>
      if ports.getLsbD n then linkEvent 9 n 1 (sendFrame n { Frame.mk0 0x90 tag p line 1 with invsc := true } t) else t) s

/-- Invalidate every copy of a line and then act (R198 steps 1 and 2). -/
def startInv (h : Half) (key : Nat) (line : Sa) (act : InvAct) (s : State) : State :=
  let m := metaAt s key
  let sh := effSharers s m
  let tag := freshTag s.cache.invTag fun x => s.cache.invs.any fun o => o.tag == x
  let ports := invPorts s sh
  let far : Bool := m.rheld && !m.replica
  let s := s.onCache fun c =>
    { c with invTag := tag + 1,
             invs := c.invs ++ [{ home := h, key := key, line := line, tag := tag, ports := ports, sent := [], replica := far,
                                  ackHome := false, act := act }] }
  let s := sendInvs ports line tag m.part (invCores sh line s)
  let s := if far then pushHalf h.other (.inv line m.part) s else s
  cnt 0x017 (some h) none (popcount sh + b2n far) s

/-- The line is being invalidated (R198 step 1). -/
def invBusy (s : State) (key : Nat) : Bool := s.cache.invs.any fun o => o.key == key

/-- The home half awaits an acknowledgement when this invalidation of a replica ends. -/
def ackWanted (key : Nat) (s : State) : State :=
  s.onCache fun c => { c with invs := c.invs.map fun o => if o.key = key then { o with ackHome := true } else o }

/-! ## Eviction (R136, R137) -/

/-- A store of metadata re-encodes all four codewords. -/
def clearEcc (key : Nat) (s : State) : State :=
  s.onCache fun c => { c with ecc := (List.range 4).foldl (fun e j => tset 0 e (4 * key + j) 0) c.ecc }

/-- A line leaves an array index: nothing stays there. -/
def clearLine (key : Nat) (s : State) : State := setMeta (clearEcc key s) key { metaAt s key with
    tag := 0, part := 0, sv := 0, sd := 0, sp := 0, melt := false, replica := false, rheld := false, ref := false,
    demoted := false, xcnt := 0, sharers := 0, lcrcV := false, pf := false, lcrc := 0 }

/-- The line CRC that goes with all four sectors (R292). -/
def crcIf (m : Meta) : Option (BitVec 32) := if m.lcrcV ∧ m.sv = 15 then some m.lcrc else none

/-- Write the dirty sectors of a line back (R136 step 3). -/
def writeBack (h : Half) (key : Nat) (line : Sa) (s : State) : State :=
  let m := metaAt s key
  cnt 0x00F (some h) (some m.part) (popcount m.sd)
    (sendWb h line m.part m.sd m.sp (lineData s key) (crcIf m) .none (chargeOwn h s))

/-- Offer a clean line to the shelf, when a pool port can carry it (R136 step 4, R137). A poisoned sector is not offered:
OFFER and OFFD have no poison mask, and poison is never converted into data (R326; log entry 24). -/
def sendOffer (h : Half) (key : Nat) (line : Sa) (s : State) : State :=
  match poolPort s line with
  | none => s
  | some f =>
    let m := metaAt s key
    let t := poolTag s
    let o : Offer :=
      { home := h, port := f, tag := t.1, line := line, part := m.part, valid := m.sv, poison := m.sp,
        data := lineData s key, lcrc := crcIf m, since := s.clk.time }
    chargeOwn h <| cnt 0x012 (some h) none 1
      (sendFrame (6 + f.val) { Frame.mk0 0x43 t.1 m.part line 2 with aux := (m.sv &&& ~~~m.sp).setWidth 32 }
        (t.2.onCache fun c => { c with offers := c.offers ++ [o] }))

/-- Eviction once no copy is left (R136 steps 2 to 5): the way is empty afterwards. -/
def evictNow (h : Half) (key : Nat) (s : State) : State :=
  let m := metaAt s key
  let line := saOf s key
  let s := cnt 0x00E (some h) (some m.part) 1 s
  let s := if m.pf then prefEnded h m.part false s else s
  let s :=
    if m.replica then replicaLeft h m (pushHalf h.other (.drop line) s)
    else if m.melt then cnt 0x010 (some h) (some m.part) (popcount m.sd) s
    else if m.sd ≠ 0 then writeBack h key line s
    else if s.cch.offerEn ∧ (s.cache.offers.filter fun o => o.home = h).length < 32 then sendOffer h key line s
    else s
  clearLine key s

/-- FLUSH of a line (R150): dirty sectors written back, dropped without an offer. -/
def flushNow (h : Half) (key : Nat) (s : State) : State :=
  let m := metaAt s key
  let line := saOf s key
  let s := if m.pf then prefEnded h m.part false s else s
  let s := if m.replica then replicaLeft h m (pushHalf h.other (.drop line) s)
           else if m.sd ≠ 0 then writeBack h key line s else s
  clearLine key s

/-- INVALIDATE of a line (R150): dropped, dirty sectors discarded and counted. -/
def discardNow (h : Half) (key : Nat) (s : State) : State :=
  let m := metaAt s key
  let line := saOf s key
  let s := if m.pf then prefEnded h m.part false s else s
  let s := if m.replica then replicaLeft h m (pushHalf h.other (.drop line) s)
           else cnt 0x011 (some h) (some m.part) (popcount m.sd) s
  clearLine key s

/-! ## Uncorrectable codewords (R322, R327) -/

/-- The record of R327 for a codeword. -/
def metaRec (s : State) (source key j : Nat) (mask : BitVec 4) (action : Nat) : Rec :=
  let m := metaAt s key
  let part : Option Part := if j = 0 ∨ m.pinned then none else some m.part
  { lineRec s 4 source key with
    codewords := 1, part := part, sect := mask, action := BitVec.ofNat 8 action }

/-- INT_STAT.META. -/
def setMetaLoss (s : State) : State := s.onInteg fun i => { i with metaLoss := true }

/-- Row 0 of R327 for a FAR line: its address is unknown. -/
def loseLine (source key : Nat) (s : State) : State :=
  let m := metaAt s key
  let h := regionHalf (keyRegion key)
  let owner := gown s h (keyGroup key)
  let s := if m.pf then prefEnded h m.part false s else s
  let s := if m.replica then replicaLeft h m s else s
  let s := (List.range 6).foldl (fun t n => if m.sharers.getLsbD n then portDown n t else t) s
  let s := (List.range 18).foldl (fun t k => if m.sharers.getLsbD (6 + k) then roDropCore k t else t) s
  let s := if m.rheld then s.onCache fun c => match h with
      | .e => { c with stopW := true }
      | .w => { c with stopE := true } else s
  let s := if m.sd ≠ 0 ∧ owner.toNat < 32 then prstTrigger (BitVec.ofNat 5 owner.toNat) 3 s else s
  let action := if m.sd ≠ 0 then 4 else if m.sharers &&& 0x3F ≠ 0 then 5 else 3
  clearLine key (setMetaLoss (writeRec (metaRec s source key 0 0 action) s))

/-- An uncorrectable codeword j of a line, handled under R327; a fatal row resets the chip. A METALOSS of a group that
partition 0 owns is fatal too (log entry 32). -/
def uncorrectable (source key j : Nat) (s : State) : State :=
  let m := metaAt s key
  let h := regionHalf (keyRegion key)
  let owner := gown s h (keyGroup key)
  let common : Bool := owner == 0x3E || owner == 0
  let line := saOf s key
  let s := s.onCache fun c => { c with ecc := tset 0 c.ecc (4 * key + j) 0 }
  let one : BitVec 4 := if m.sv.getLsbD j then BitVec.ofNat 4 (2 ^ j) else 0
  -- the record, UE and the count of the sectors that the event poisons
  let put (r : Rec) (mask : BitVec 4) (s : State) : State :=
    let new := mask &&& ~~~m.sp
    let r := { r with sa := some line, sect := new, action := if new = 0 then 0 else 2 }
    cnt 0x051 (some h) none (popcount new)
      (setMetaLoss (writeRec r (s.onInteg fun i => { i with ue := i.ue || new != 0 })))
  if j = 3 then
    put { metaRec s source key j 0 2 with cls := 2 } one (setMeta s key { m with sp := m.sp ||| one, lcrcV := false })
  else if j = 2 then
    if !m.pinned ∧ common then fatalWith (metaRec s source key j 0 6) s
    else
      put (metaRec s source key j 0 2) one
        (setMeta s key { m with sp := m.sp ||| one, lcrcV := false, pf := false, sharers := BitVec.allOnes 24 })
  else if j = 1 then
    if m.pinned then
      put (metaRec s source key j 0 2) 15
        (setMeta s key { m with sv := 15, sp := 15, sharers := BitVec.allOnes 24, sd := 0, melt := false, replica := false,
                                rheld := false, ref := false, demoted := false, xcnt := 0, lcrcV := false, pf := false })
    else if common then fatalWith (metaRec s source key j 0 6) s
    else if (match homeOf s (pipeView s h) line with | .ok x => x != h | .error _ => false) then
      let s := setMeta s key { m with sharers := BitVec.allOnes 24, replica := true, rheld := false }
      startInv h key line .replica (setMetaLoss (writeRec { metaRec s source key j 0 3 with sa := some line } s))
    else
      put (metaRec s source key j 0 2) 15
        (setMeta s key { m with sv := 15, sd := 15, sp := 15, melt := false, sharers := BitVec.allOnes 24, rheld := true,
                                replica := false })
  else if m.pinned then put (metaRec s source key j 0 2) 1 (setMeta s key { m with sp := m.sp ||| 1 })
  else if common ∨ (m.sd ≠ 0 ∧ owner = 0x3F) then fatalWith (metaRec s source key j 0 6) s
  else loseLine source key s

/-- A corrected codeword: counted, and one CORRECTED record per INT_CE_THR of its bank (R341; THR 0 acts as 1). -/
def countCorrected (s : State) (key source : Nat) : State :=
  let b := regionBank s (keyRegion key)
  let h := regionHalf (keyRegion key)
  let s := cnt 0x050 (some h) none 1 s
  let s := s.onTst fun t => { t with cePass := tmod 0 t.cePass b (· + 1) }
  let s := s.onLoops fun l => { l with mem := tmod LoopMem.reset l.mem (4 + h.idx) fun m => { m with hits := m.hits + 1 } }
  let n := tget 0 s.log.ce b + 1
  let thr := max 1 s.integ.ceThr.toNat
  if n < thr then s.onLog fun l => { l with ce := tset 0 l.ce b n }
  else
    let sa : Option Sa := if (metaAt s key).pinned ∨ (metaAt s key).sv ≠ 0 then some (saOf s key) else none
    let p : Option Part :=
      if !(metaAt s key).pinned then some (metaAt s key).part
      else if (blk s (key / 512)).st = 3 then some (blk s (key / 512)).owner
      else none
    writeRec { lineRec s 1 source key with sa := sa, part := if sa.isNone then none else p, sev := 2, action := 1, codewords := 1, count := BitVec.ofNat 32 n }
      (s.onLog fun l => { l with ce := tset 0 l.ce b 0 })

/-- A sector whose bytes are free values (R321; log entry 9). -/
def wildSector (key j : Nat) (s : State) : State :=
  let v (i : Nat) : Nat := (Config.freeValue (s.freeCtr + i)).toNat * 2 ^ (64 * i)
  let old := lineData s key
  let new : BitVec 1024 := BitVec.ofNat 1024 ((v 0 + v 1 + v 2 + v 3) * 2 ^ (256 * j))
  let mask := byteMask (32 * j) 32
  setData { s with freeCtr := s.freeCtr + 4 } key (mergeBytes mask old new)

/-- An uncorrectable codeword is counted for its bank and handled (R322, R361). -/
def uncorrected (source key j : Nat) (s : State) : State :=
  let b := regionBank s (keyRegion key)
  calveScan (regionDie (keyRegion key))
    (uncorrectable source key j (s.onTst fun t => { t with ueCount := tmod 0 t.ueCount b (· + 1) }))

/-- Check one codeword of an activated row (R321, R322): one damaged symbol is corrected and counted, two are
uncorrectable; for more the code gives no guarantee: uncorrectable, or taken for good with wrong data. -/
def checkCodeword (source key j : Nat) (s : State) : State :=
  let n := eccOf s key j
  if n = 0 then s
  else
    let clean (s : State) : State := s.onCache fun c => { c with ecc := tset 0 c.ecc (4 * key + j) 0 }
    if n = 1 then afterCorrected (keyRegion key) (countCorrected (clean s) key source)
    else if n = 2 then uncorrected source key j s
    else
      let g := Config.eccGuess s.freeCtr % 3
      let s := { s with freeCtr := s.freeCtr + 1 }
      if g = 0 then uncorrected source key j s else wildSector key j (clean s)

/-- A chip reset has happened between s and t: the domains are gone, and with them what the work was done on (R339). -/
def wasReset (s t : State) : Bool := t.pwr.dom != s.pwr.dom

/-- Every codeword of the row that key lies in is checked, in order (R322, R327 edges). -/
def checkRow (source key : Nat) (s : State) : State :=
  let base := 4 * (key / 8 * 8)
  (s.cache.ecc.filter fun e => decide (base ≤ e.1 ∧ e.1 < base + 32)).foldl (fun t e => checkCodeword source (e.1 / 4) (e.1 % 4) t) s

/-! ## Miss registers and victims (R127 to R135) -/

/-- The miss register of a line. -/
def mshrOf (s : State) (h : Half) (line : Sa) : Option Mshr := s.cache.mshr.find? fun q => q.home == h && q.line == line

/-- A miss register or an operation of the ATU holds the way (R135); a way that a replica is about to take is held as by a register. -/
def held (s : State) (key : Nat) : Bool :=
  let isAtu (r : LineReq) : Bool := match r.op with
    | .atu _ => true
    | _ => false
  s.cache.mshr.any (fun q => q.key == key) ||
  s.cache.invs.any (fun o => o.key == key && (match o.act with
    | .install _ _ _ _ _ _ => true
    | .perform r => isAtu r
    | _ => false)) ||
  s.cache.blocked.any (fun r => isAtu r && lineOf r.sa == saOf s key && (regionHalf (keyRegion key) == r.home))

/-- The victim of a set (R135): the way, and the state with REF cleared when no way qualified. -/
def victim (s : State) (key0 : Nat) : Option (Nat × State) :=
  let ws := (waysOf key0).filter fun k => !held s k
  let pick (f : Meta → Bool) := ws.find? fun k => f (metaAt s k)
  match pick fun m => m.sv == 0 with
  | some k => some (k, s)
  | none =>
  match pick fun m => m.melt with
  | some k => some (k, s)
  | none =>
  match pick fun m => m.replica && !m.ref with
  | some k => some (k, s)
  | none =>
  match pick fun m => m.demoted with
  | some k => some (k, s)
  | none =>
  match pick fun m => !m.ref with
  | some k => some (k, s)
  | none =>
    let t := (waysOf key0).foldl (fun t k => setMeta t k { metaAt t k with ref := false }) s
    match ws with
    | [] => none
    | k :: _ => some (k, t)

/-- The sectors a request needs (R129): a stream's source read, like every read of several sectors, needs the whole line. -/
def reqSectors (op : LineOp) (sa : Sa) : BitVec 4 :=
  match op with
  | .read (.some_ _) _ _ => 15
  | .read sp _ _ => spanSectors sp sa
  | .write mask _ => sectors fun j => decide (sectorMask mask j ≠ 0) && decide (sectorMask mask j ≠ BitVec.allOnes 32)
  | .fill => 15
  | .melt => 0
  | .hint _ => 0
  | .atu _ => 15

/-- The sectors a request reads or writes. -/
def touchedSectors (op : LineOp) (sa : Sa) : BitVec 4 :=
  match op with
  | .write mask _ => sectors fun j => decide (sectorMask mask j ≠ 0)
  | _ => reqSectors op sa

/-- Take the offer of a line out of the buffer (R137). -/
def takeOffer (h : Half) (line : Sa) (s : State) : Option Offer × State :=
  (s.cache.offers.find? fun o => o.home == h && o.line == line,
   s.onCache fun c => { c with offers := c.offers.filter fun o => !(o.home == h && o.line == line) })

/-- The registers of a half in use. -/
def mshrCount (s : State) (h : Half) : Nat := (s.cache.mshr.filter fun q => q.home == h).length

def putMshr (q : Mshr) (s : State) : State :=
  s.onCache fun c => { c with mshr := c.mshr.map fun x => if x.home = q.home ∧ x.line = q.line then q else x }

/-- Begin the use of the victim way: the line's tag is stored, withdrawn sectors move in, the missing ones are asked for. -/
def mshrStart (q : Mshr) (s : State) : State :=
  let o := takeOffer q.home q.line s
  let s := o.2
  let sv : BitVec 4 := match o.1 with | some x => x.valid | none => 0
  let sp : BitVec 4 := match o.1 with | some x => x.poison | none => 0
  let d : BitVec 1024 := match o.1 with | some x => x.data | none => 0
  let m : Meta := { Meta.zero with tag := BitVec.ofNat 26 (farTag q.line), part := q.part, sv := sv, sp := sp, pf := q.pf }
  let s := if sv = 0 then setMeta s q.key m else setMeta (setData s q.key d) q.key (withCrc m d q.line)
  let need := q.fetch &&& ~~~sv
  let s := putMshr { q with evicting := false, fetch := need, asked := need } s
  if need = 0 then s else sendFill q.home q.line q.part need .mshr s

/-- Take a miss register and a victim for a line miss (R124, R135). None when a register or a way is not to be had. -/
def lineMiss (r : LineReq) (key0 : Nat) (pf : Bool) (s : State) : Option State :=
  if 256 ≤ mshrCount s r.home then none
  else
    match victim s key0 with
    | none => none
    | some (k, s) =>
      let q : Mshr :=
        { home := r.home, line := lineOf r.sa, part := r.part, key := k, fetch := if pf then 15 else reqSectors r.op r.sa,
          waiters := if pf then [] else [r], evicting := true, full := false, pf := pf, retried := false, asked := 0, tag := 0 }
      let s := s.onCache fun c => { c with mshr := c.mshr ++ [q] }
      let m := metaAt s k
      if m.sv = 0 then some (mshrStart q s)
      else if invBusy s k then some s
      else some (startInv r.home k (saOf s k) .evict s)

/-- A group-table entry in force: one that names a group of a die not in service acts as invalid (R385, R386). -/
def gtLive (s : State) (h : Half) (i : Nat) : GtEnt :=
  let e := gtEnt s h i
  { e with valid := e.valid && (region s (groupRegion h e.group.toNat)).state == 1 }

/-- A single-bit error of a shared table's entry is corrected and counted; two are fatal (R328). -/
def checkShared (structure_ index : Nat) (h : Half) (s : State) : State :=
  let i := 131072 * structure_ + 65536 * h.idx + index
  let n := tget 0 s.tables.damage i
  if n = 0 then s
  else
    let t := s.onTables fun x => { x with damage := tset 0 x.damage i 0 }
    if n = 1 then cnt 0x050 (some h) none 1 t
    else fatalWith { Rec.mk0 7 7 h with detail := BitVec.ofNat 128 (structure_ + index * 256) } t

/-- The entries of shared tables that a request's lookup reads: the region table and the block states, or the home table and the group
table (log entry 128). -/
def checkTables (r : LineReq) (s : State) : State :=
  let reads : List (Nat × Nat) :=
    if isBuf r.sa then [(2, keyRegion (bufKey r.sa)), (3, bufKey r.sa / 512 % 65536)]
    else (4, homeIndex r.sa) :: match r.gi with
      | none => []
      | some i => [(0, i)]
  reads.foldl (fun t e => if wasReset s t then t else checkShared e.1 e.2 r.home t) s

/-- Next-line prefetch after a line miss by a read-type request (R133). The next line of the same 4 KiB block has the same entry of the
group table (R84). -/
def prefetchNext (r : LineReq) (s : State) : State :=
  let readType : Bool := match r.op with
    | .read _ _ _ => true
    | .fill => true
    | .atu _ => true
    | _ => false
  let next := lineOf r.sa + 128
  let h := r.home
  if !readType ∨ !r.pref ∨ next.toNat % 4096 = 0 then s
  else
    match r.gi with
    | none => s
    | some i =>
      let e := gtLive s h i
      let k0 := setKey h e.group.toNat (farSet next)
      if !e.valid ∨ (findWay s k0 (farTag next)).isSome ∨ (mshrOf s h next).isSome then s
      else
        let d := Config.draw s.freeCtr % 16
        let s := { s with freeCtr := s.freeCtr + 1 }
        if (loopOf s (8 + h.idx)).value.toNat ≤ d then s
        else
          let drop := cnt 0x00D (some h) (some r.part) 1 s
          if 224 < mshrCount s h then drop
          else
            let t := checkRow 1 k0 s
            if wasReset s t then t
            else
              match lineMiss { r with sa := next } k0 true t with
              | none => cnt 0x00D (some h) (some r.part) 1 t
              | some t => cnt 0x00A (some h) (some r.part) 1 (tally (8 + h.idx) 1024 (fun m => { m with count := m.count + 1 }) t)

/-! ## Performing a request on a resident line -/

/-- A request for a replica in the arrival half, when a cross-half read brings XCNT to the threshold (R65, R144). The read that filled
the line counts too, and at a saturated count equal to the threshold every read asks again (log entry 106). -/
def driftRead (r : LineReq) (key : Nat) (s : State) : State :=
  let m := metaAt s key
  if r.home = r.arrival ∨ m.pinned ∨ m.replica then s
  else
    let x := satAdd m.xcnt 1
    let l := loopOf s (12 + r.home.idx)
    let m := { m with xcnt := x }
    let reached : Bool := decide (m.xcnt.toNat = l.value.toNat) && l.en
    if reached ∧ !m.melt ∧ m.sd = 0 ∧ m.sv = 15 ∧ !m.rheld then
      pushHalf r.arrival (.install (lineOf r.sa) m.part (lineData s key) m.lcrcV m.lcrc m.sp r.gia) (setMeta s key { m with rheld := true })
    else setMeta s key m

/-- Serve a read from a resident line. -/
def serveRead (r : LineReq) (ro : Option Nat) (melt : Bool) (key : Nat) (s : State) : State :=
  let m := metaAt s key
  let h := regionHalf (keyRegion key)
  let s := if m.pf then prefEnded h m.part true s else s
  let busy : Bool := match ro with
    | none => false
    | some b => s.cch.clrBusy.getLsbD b
  let sh := match ro with
    | none => m.sharers
    | some b => if busy then m.sharers else setBit m.sharers b true
  let d := lineData s key
  let m := { m with ref := true, demoted := false, pf := false, sharers := sh,
                    xcnt := if m.replica then 1 else m.xcnt, melt := m.melt || (melt && !m.pinned && !m.replica) }
  let s := driftRead r key (setMeta s key m)
  answerReq r { LineRes.st 0 with poison := m.sp, data := d, lcrc := m.lcrc, untrk := busy } (some key) s

/-- A completed write to a line: the SEMW and WAITT that wait on it evaluate again (R271); a unit that has read the line remembers that
it has been written since (R141). -/
def wakeWaits (line : Sa) (s : State) : State :=
  (List.range 72).foldl
    (fun s t =>
      match (thr s t).wait with
      | some w =>
        if (w.kind = 2 ∨ w.kind = 3) ∧ lineOf w.sa = line then modThr s t fun x => { x with wait := some { w with again := true } } else s
      | none => s)
    (s.onCache fun c => { c with got := c.got.map fun e =>
      if e.2.2.line = line then (e.1, e.2.1, { e.2.2 with written := true }) else e })

/-- Apply a write and acknowledge it (R198 steps 4 and 5). -/
def serveWrite (r : LineReq) (mask : BitVec 128) (data : BitVec 1024) (key : Nat) (s : State) : State :=
  let m := metaAt s key
  let h := regionHalf (keyRegion key)
  let s := if m.pf then prefEnded h m.part true s else s
  let touched := sectors fun j => decide (sectorMask mask j ≠ 0)
  let full := sectors fun j => decide (sectorMask mask j = BitVec.allOnes 32)
  let m := { m with sv := m.sv ||| full, sd := m.sd ||| touched, sp := m.sp &&& ~~~full, sharers := 0, rheld := false,
                    melt := false, xcnt := 0, ref := true, demoted := false, pf := false }
  let s := storeLine key (lineOf r.sa) (mergeBytes mask (lineData s key) data) m s
  answerReq r (LineRes.st 0) (some key) (wakeWaits (lineOf r.sa) s)

/-! ## The atomic unit's activation (R177) -/

def atuHalf (s : State) (h : Half) : AtuHalf := h.pick s.atu.he s.atu.hw
def setAtuHalf (s : State) (h : Half) (x : AtuHalf) : State :=
  s.onAtu fun a => match h with
    | .e => { a with he := x }
    | .w => { a with hw := x }

def findAtom (s : State) (h : Half) (id : Nat) : Option Atom := (atuHalf s h).atoms.find? fun a => a.id == id
def findAddl (s : State) (h : Half) (id : Nat) : Option Addl := (atuHalf s h).queue.find? fun a => a.id == id

def dropAtom (h : Half) (id : Nat) (s : State) : State :=
  let x := atuHalf s h
  setAtuHalf s h { x with atoms := x.atoms.filter fun a => !(a.id == id) }
def dropAddl (h : Half) (id : Nat) (s : State) : State :=
  let x := atuHalf s h
  setAtuHalf s h { x with queue := x.queue.filter fun a => !(a.id == id) }
def putAtom (h : Half) (a : Atom) (s : State) : State :=
  let x := atuHalf s h
  setAtuHalf s h { x with atoms := x.atoms.map fun b => if b.id = a.id then a else b }
def putAddl (h : Half) (a : Addl) (s : State) : State :=
  let x := atuHalf s h
  setAtuHalf s h { x with queue := x.queue.map fun b => if b.id = a.id then a else b }

/-- Operand size in bytes. -/
def Atom.n (a : Atom) : Nat := if a.wide then 8 else 4

/-- Bytes of the line an atomic works on. -/
def Atom.off (a : Atom) : Nat := field a.sa.toNat 0 7

/-- The line after the atomic, and the old value (R174). -/
def atomApply (a : Atom) (d : BitVec 1024) : BitVec 1024 × Nat :=
  let n := a.n
  let old := d.toNat / 2 ^ (8 * a.off) % 2 ^ (8 * n)
  let new := atomNew a.kind n old (a.v.toNat % 2 ^ (8 * n)) (a.cmp.toNat % 2 ^ (8 * n))
  (mergeBytes (byteMask a.off n) d (BitVec.ofNat 1024 (new * 2 ^ (8 * a.off))), old)

/-- gd of a thread's atomic: zero-extended, or sign-extended for a signed AMIN or AMAX (R261). -/
def atomReg (a : Atom) (old : Nat) : BitVec 64 :=
  let signed : Bool := match a.kind with
    | .min x => x
    | .max x => x
    | _ => false
  if signed ∧ 2 ^ (8 * a.n - 1) ≤ old then BitVec.ofNat 64 old - BitVec.ofNat 64 (2 ^ (8 * a.n)) else BitVec.ofNat 64 old

/-- Answer an atomic: the old value, or POISON (R177 edges, R259). -/
def answerAtom (a : Atom) (h : Half) (poisoned : Bool) (old : Nat) (s : State) : State :=
  let s := if poisoned then poisonDelivered none a.sa h a.part (some a.master) s
           else countOps h 9 9 1 (cnt 0x020 (some h) (some a.part) 1 s)
  match a.who with
  | .port p c tag =>
    respond p c tag a.part a.sa (if poisoned then stPoison else stOk)
      (if poisoned then BitVec.ofNat 4 (2 ^ sectorOf a.sa) else 0) false
      (toBytes 8 (if poisoned then 2 ^ 64 - 1 else old)) s
  | .thread t id =>
    if poisoned then
      let s := poisonRecord t id 2 a.sa a.part s
      let c := consume a.part s
      if c.1 then voidOut t id c.2 else poisonResult t id [BitVec.allOnes 64] c.2
    else threadResult t id [atomReg a old] s
  | _ => s

/-- The metadata a write by the ATU leaves (R176). -/
def atuMeta (m : Meta) (touched : BitVec 4) : Meta :=
  { m with sd := m.sd ||| touched, sharers := 0, rheld := false, melt := false, xcnt := 0, ref := true,
           demoted := false, pf := false }

/-- Set the sticky flags of a half (R181). -/
def setFp (h : Half) (f : FpFlags) (s : State) : State :=
  let x := atuHalf s h
  setAtuHalf s h { x with nv := x.nv || f.nv, of := x.of || f.of, uf := x.uf || f.uf, nx := x.nx || f.nx }

/-- An ADDL discarded for poison (R177 edges, R184). -/
def discardAddl (h : Half) (a : Addl) (s : State) : State :=
  let x := atuHalf s h
  cnt 0x023 (some h) (some a.part) 1 (dropAddl h a.id (setAtuHalf s h { x with discPoison := satAdd x.discPoison 1 }))

/-- The value an atomic finds in a line. -/
def Atom.found (a : Atom) (d : BitVec 1024) : Nat := d.toNat / 2 ^ (8 * a.off) % 2 ^ (8 * a.n)

/-- A SEMW that finds 0 decrements nothing: it is a read (R269, R271). -/
def Atom.reads (a : Atom) (d : BitVec 1024) : Bool := decide (a.kind = .semw) && decide (a.found d = 0)

/-- The metadata of a line that an operation has used without writing it. -/
def usedMeta (m : Meta) : Meta := { m with ref := true, demoted := false, pf := false }

/-- Step 5 of R177 on a resident line. -/
def atuOnLine (h : Half) (id : Nat) (key : Nat) (s : State) : State :=
  let m := metaAt s key
  let d := lineData s key
  let s := if m.pf then prefEnded h m.part true s else s
  match findAtom s h id with
  | some a =>
    let j := sectorOf a.sa
    if m.sp.getLsbD j then answerAtom a h true 0 (dropAtom h id (setMeta s key (usedMeta m)))
    else if a.reads d then answerAtom a h false 0 (dropAtom h id (setMeta s key (usedMeta m)))
    else
      let r := atomApply a d
      answerAtom a h false r.2
        (dropAtom h id (wakeWaits (lineOf a.sa) <| storeLine key (lineOf a.sa) r.1 (atuMeta m (BitVec.ofNat 4 (2 ^ j))) s))
  | none =>
    match findAddl s h id with
    | none => s
    | some a =>
      if m.sp ≠ 0 then discardAddl h a (setMeta s key (usedMeta m))
      else
        let r := addlLine a.fmt.toNat d a.data
        countOps h 9 9 1 <| cnt 0x022 (some h) (some a.part) 1
          (setFp h r.2 (dropAddl h id (wakeWaits (lineOf a.line) <| storeLine key (lineOf a.line) r.1 (atuMeta m 15) s)))

/-- Whether an operation's activation is due. -/
def atuGo (s : State) (h : Half) (id : Nat) : Option Bool :=
  match findAtom s h id with
  | some a => some a.go
  | none => (findAddl s h id).map (·.go)

/-! ## The pipeline -/

/-- The operation changes nothing of the line it finds, so no copy has to go (R269, R326). -/
def atuReads (s : State) (h : Half) (id key : Nat) : Bool :=
  match findAtom s h id with
  | some a => (metaAt s key).sp.getLsbD (sectorOf a.sa) || a.reads (lineData s key)
  | none => false

/-- Mark a home line; pinned lines and replicas take no mark (R139, R264). -/
def markLine (key : Nat) (f : Meta → Meta) (s : State) : State :=
  let m := metaAt s key
  if m.pinned ∨ m.replica then s else setMeta s key (f m)

/-- A request that only marks a line: nothing happens where the line is not resident (R264). -/
def LineOp.marks : LineOp → Bool
  | .melt => true
  | .hint _ => true
  | _ => false

/-- Perform a request on its resident line: done or not, and the state. -/
def atLine (r : LineReq) (key : Nat) (s : State) : Bool × State :=
  let m := metaAt s key
  match r.op with
  | .read _ ro melt => (true, serveRead r ro melt key s)
  | .write mask d =>
    if needInv s m then (true, startInv r.home key (lineOf r.sa) (.perform r) s) else (true, serveWrite r mask d key s)
  | .fill =>
    let s := if m.pf then prefEnded r.home m.part true s else s
    (true, answerReq r (LineRes.st 0) (some key) (setMeta s key (usedMeta m)))
  | .melt => (true, answerReq r (LineRes.st 0) (some key) (markLine key (fun m => { m with melt := true }) s))
  | .hint keep => (true, answerReq r (LineRes.st 0) (some key) (markLine key (fun m => { m with ref := keep, demoted := !keep }) s))
  | .atu id =>
    match atuGo s r.home id with
    | none => (true, s)
    | some go =>
      if needInv s m ∧ !atuReads s r.home id key then (true, startInv r.home key (lineOf r.sa) (.perform r) s)
      else if go then (true, atuOnLine r.home id key s)
      else (false, s)

/-- An uncached access to this line, or an operation of the ATU on a copy of it, is still with the shelf: the next request for the line
waits (R125, R177). -/
def uncachedBusy (s : State) (line : Sa) : Bool :=
  s.cache.pool.any fun q => lineOf q.line == line && (match q.who with | .uncached _ => true | .atu _ => true | _ => false)

/-- An operation of the ATU on its copy (R177): the copy is fetched; when its activation is due, the result's WB goes out, and the line
is held until the shelf has acknowledged it. -/
def onCopy (r : LineReq) (id : Nat) (s : State) : Bool × State :=
  let line := lineOf r.sa
  let ask (s : State) : State := sendFill r.home line r.part 15 (.atu id) (cnt 0x006 (some r.home) (some r.part) 1 s)
  let put (sp : BitVec 4) (d : BitVec 1024) (s : State) : State :=
    sendWb r.home line r.part 15 sp d (some (lineCrc d (lineIdx line))) (.atu id) (countOps r.home 18 2 1 s)
  match findAtom s r.home id with
  | some a =>
    match a.copy with
    | .idle => (false, ask (putAtom r.home { a with copy := .fetching } s))
    | .held d sp =>
      if !a.go then (false, s)
      else if sp.getLsbD (sectorOf a.sa) then (true, answerAtom a r.home true 0 (dropAtom r.home id s))
      else if a.reads d then (true, answerAtom a r.home false 0 (dropAtom r.home id s))
      else
        let x := atomApply a d
        (true, put sp x.1 (putAtom r.home { a with copy := .writing (BitVec.ofNat 64 x.2) } s))
    | _ => (false, s)
  | none =>
    match findAddl s r.home id with
    | none => (true, s)
    | some a =>
      match a.copy with
      | .idle => (false, ask (putAddl r.home { a with copy := .fetching } s))
      | .held d sp =>
        if !a.go then (false, s)
        else if sp ≠ 0 then (true, discardAddl r.home a s)
        else
          let x := addlLine a.fmt.toNat d a.data
          (true, put sp x.1 (countOps r.home 9 9 1 <| cnt 0x022 (some r.home) (some a.part) 1 <| setFp r.home x.2 (dropAddl r.home id s)))
      | _ => (false, s)

/-- An uncached access (R132): forwarded to the pool. An operation of the ATU works on a copy fetched for it alone. -/
def uncached (r : LineReq) (s : State) : Bool × State :=
  let line := lineOf r.sa
  let c := cnt 0x006 (some r.home) (some r.part) 1 s
  match r.op with
  | .read sp _ _ => (true, sendFill r.home line r.part (spanSectors sp r.sa) (.uncached r) c)
  | .fill => (true, answerReq r (LineRes.st 0) none s)
  | .melt => (true, answerReq r (LineRes.st 0) none s)
  | .hint _ => (true, answerReq r (LineRes.st 0) none s)
  | .write mask d =>
    if mask = 0 then (true, answerReq r (LineRes.st 0) none s) else (true, sendWt r.home line r.part mask d (.uncached r) c)
  | .atu id => onCopy r id s

/-- The set row of the arrival half in which a read from there is looked up first (R143). -/
def replicaRow (s : State) (r : LineReq) : Option Nat :=
  match r.op, r.gia with
  | .read _ _ _, some gi =>
    let e := gtLive s r.arrival gi
    if r.home = r.arrival ∨ isBuf r.sa ∨ r.arrival.pick s.cache.stopE s.cache.stopW ∨ !e.valid then none
    else some (setKey r.arrival e.group.toNat (farSet r.sa))
  | _, _ => none

/-- A replica of the arrival half that can serve a read (R143). -/
def replicaKey (s : State) (r : LineReq) : Option Nat :=
  match r.op, replicaRow s r with
  | .read sp _ _, some k0 =>
    match findWay s k0 (farTag r.sa) with
    | none => none
    | some k =>
      let m := metaAt s k
      if m.replica ∧ !invBusy s k ∧ spanSectors sp r.sa &&& ~~~m.sv = 0 then some k else none
  | _, _ => none

/-- The resident way of a cached FAR line, through the window its request carries (R84, R124). -/
def residentOf (s : State) (r : LineReq) : Option Nat :=
  match r.gi with
  | none => none
  | some i =>
    let e := gtLive s r.home i
    if isBuf r.sa ∨ !e.valid then none else findWay s (setKey r.home e.group.toNat (farSet r.sa)) (farTag r.sa)

/-- A miss register is about to take the way. -/
def claimed (s : State) (key : Nat) : Bool := s.cache.mshr.any fun q => q.key == key && q.evicting

/-- Step 3 of R123: a cached FAR access looks its set up (R124). -/
def lookup (r : LineReq) (i : Nat) (e : GtEnt) (s : State) : Bool × State :=
  let line := lineOf r.sa
  let k0 := setKey r.home e.group.toNat (farSet r.sa)
  let retired : Bool := s.tables.retiring == some (8192 * r.home.idx + i)
  let ev (c : Nat) (s : State) : State := cnt 0x001 (some r.home) (some r.part) 1 (cnt c (some r.home) (some r.part) 1 s)
  match mshrOf s r.home line with
  | some q =>
    if q.full ∨ 16 ≤ q.waiters.length then (false, putMshr { q with full := true } s)
    else
      let m := metaAt s q.key
      let more := if q.evicting then reqSectors r.op r.sa &&& ~~~q.fetch
                  else reqSectors r.op r.sa &&& ~~~q.fetch &&& ~~~m.sv
      let q := { q with waiters := q.waiters ++ [r], fetch := q.fetch ||| more,
                        asked := if q.evicting then q.asked else more }
      let s := putMshr q (ev 0x005 s)
      (true, if q.evicting ∨ more = 0 then s else sendFill r.home line r.part more .mshr s)
  | none =>
    match findWay s k0 (farTag r.sa) with
    | some k =>
      let m := metaAt s k
      if invBusy s k ∨ claimed s k then (false, s)
      else
        let need := reqSectors r.op r.sa &&& ~~~m.sv
        if need = 0 then
          let a := atLine r k s
          if a.1 then (true, ev 0x002 a.2) else a
        else if retired ∨ 256 ≤ mshrCount s r.home then (false, s)
        else
          let q : Mshr :=
            { home := r.home, line := line, part := r.part, key := k, fetch := need, waiters := [r], evicting := false,
              full := false, pf := false, retried := false, asked := need, tag := 0 }
          (true, sendFill r.home line r.part need .mshr ((ev 0x003 s).onCache fun c => { c with mshr := c.mshr ++ [q] }))
    | none =>
      if r.op.marks then (true, answerReq r (LineRes.st 0) none (ev 0x004 s))
      else if retired then uncached r s
      else
        match lineMiss r k0 false s with
        | none => (false, s)
        | some t => (true, prefetchNext r (ev 0x004 t))

/-- An accepted ADDL was charged for its lookup when it was accepted (R302). -/
def isAddl (s : State) (r : LineReq) : Bool :=
  match r.op with
  | .atu id => (findAddl s r.home id).isSome
  | _ => false

/-- An activation that has performed a request is charged (R302). -/
def charged (h : Half) (m : Option Nat) (x : Bool × State) : Bool × State := if x.1 then (true, charge h m x.2) else x

/-- The home half's part of a request (R122, R123). -/
def tryHome (r : LineReq) (s : State) : Bool × State :=
  let c := checkTables r s
  if !domRuns s (r.home.pick 3 4) then (false, s)
  else if wasReset s c then (true, c)
  else if isBuf r.sa then
    let k := bufKey r.sa
    let t := checkRow 1 k c
    if wasReset s t then (true, t)
    else if invBusy t k then (false, t)
    else charged r.home r.master (atLine r k t)
  else if uncachedBusy c (lineOf r.sa) then (false, c)
  else
    match r.gi with
    | none => uncached r c
    | some i =>
      let e := gtLive c r.home i
      if !e.valid then uncached r c
      else
        let t := checkRow 1 (setKey r.home e.group.toNat (farSet r.sa)) c
        if wasReset s t then (true, t) else charged r.home r.master (lookup r i e t)

/-- Try to perform a request (R123, R143): done, or left waiting. A chip reset in between ends it (R339). -/
def tryReq (r : LineReq) (s : State) : Bool × State :=
  match replicaRow s r with
  | none => tryHome r s
  | some k0 =>
    let t := checkRow 1 k0 s
    if wasReset s t then (true, t)
    else
      match replicaKey t r, r.op with
      | some k, .read _ ro melt =>
        (true, charge r.arrival r.master (cnt 0x007 (some r.arrival) (some r.part) 1 (serveRead r ro melt k t)))
      | _, _ => charged r.arrival r.master (tryHome r t)

/-- A partner's ADDL that waits for room in the queue goes before its later requests of the same class for the line (R207). -/
def parked (s : State) (r : LineReq) : Bool :=
  let mine (w : Who) : Bool := match w, r.who with
    | .port p c _, .port q d _ => p == q && c == d
    | .port p c _, .block q _ _ => p == q && c == 3
    | _, _ => false
  (s.atu.he.waiting ++ s.atu.hw.waiting).any fun a => mine a.who && a.line == lineOf r.sa

/-- One pass over the waiting requests from the i-th on, in order; a request waits behind an earlier one for its line (R125). The
others stay in the list while one is tried. -/
def pumpFrom : Nat → Nat → State → State
  | 0, _, s => s
  | fuel + 1, i, s =>
    match s.cache.blocked[i]? with
    | none => s
    | some r =>
      if ((s.cache.blocked.take i).any fun q => lineOf q.sa == lineOf r.sa) || parked s r then pumpFrom fuel (i + 1) s
      else
        let x := tryReq r (s.onCache fun c => { c with blocked := c.blocked.eraseIdx i })
        if x.1 then pumpFrom fuel i x.2
        else
          let waits : Bool := !r.waited && r.gi.isSome && decide (256 ≤ mshrCount x.2 r.home)
          let t := if waits then cnt 0x015 (some r.home) (some r.part) 1 x.2 else x.2
          let r := { r with waited := r.waited || waits }
          pumpFrom fuel (i + 1) (t.onCache fun c => { c with blocked := c.blocked.take i ++ r :: c.blocked.drop i })

/-- One pass over the waiting requests. -/
def pumpBlocked (s : State) : State := pumpFrom s.cache.blocked.length 0 s

/-- Serve the waiters of a register from the front, while their sectors are there (R128); the register is freed when nothing is fetched
and nobody waits (R127). -/
def serveWaiters : Nat → Mshr → State → State
  | 0, _, s => s
  | n + 1, q, s =>
    match q.waiters with
    | [] => if q.fetch = 0 then s.onCache fun c => { c with mshr := c.mshr.filter fun x => !(x.home == q.home && x.line == q.line) } else s
    | r :: rest =>
      let m := metaAt s q.key
      if invBusy s q.key ∨ touchedSectors r.op r.sa &&& q.fetch ≠ 0 ∨ reqSectors r.op r.sa &&& ~~~m.sv ≠ 0 then s
      else
        let t := checkRow 1 q.key s
        if wasReset s t then t
        else
          let x := atLine r q.key t
          if x.1 then
            let q := { q with waiters := rest }
            let isAtu : Bool := match r.op with
              | .atu _ => true
              | _ => false
            serveWaiters n q (putMshr q (if isAtu then charge q.home r.master x.2 else x.2))
          else x.2

/-- A register whose victim was busy when it was chosen: the eviction begins once the line is at rest. -/
def startEvict (q : Mshr) (s : State) : State :=
  if invBusy s q.key then s
  else if (metaAt s q.key).sv = 0 then mshrStart q s
  else startInv q.home q.key (saOf s q.key) .evict s

/-- One pass over the miss registers. -/
def pumpMshrs (s : State) : State :=
  s.cache.mshr.foldl
    (fun t q =>
      match mshrOf t q.home q.line with
      | some q => if q.evicting then startEvict q t else serveWaiters 18 q t
      | none => t)
    s

/-! ## The end of an invalidation -/

/-- A replica is stored in an empty way of the requesting half (R66, R144). -/
def replicaPut (h : Half) (key : Nat) (line : Sa) (p : Part) (d : BitVec 1024) (crcV : Bool) (crc : BitVec 32) (sp : BitVec 4)
    (s : State) : State :=
  let m : Meta := { Meta.zero with tag := BitVec.ofNat 26 (farTag line), part := p, sv := 15, sp := sp, replica := true,
                                   lcrcV := crcV, lcrc := crc }
  chargeOwn h (cnt 0x008 (some h) (some p) 1 (setMeta (setData (clearEcc key s) key d) key m))

/-- The home half that waits for it has its acknowledgement; else it gets a drop notice (R144). -/
def replicaGone (o : InvOp) (s : State) : State :=
  if o.ackHome then replicaAck o.home o.line s else pushHalf o.home.other (.drop o.line) s

/-- What follows the last acknowledgement of an invalidation (R198 step 4). -/
def finishInv (o : InvOp) (s : State) : State :=
  let m := metaAt s o.key
  let m0 := { m with sharers := 0, rheld := false }
  let ack (s : State) : State := if o.ackHome then replicaAck o.home o.line s else s
  match o.act with
  | .perform r =>
    let s := charge o.home r.master (setMeta s o.key m0)
    match r.op with
    | .write mask d => serveWrite r mask d o.key s
    | .atu id => atuOnLine r.home id o.key s
    | _ => s
  | .evict =>
    let s := ack (evictNow o.home o.key (setMeta s o.key m0))
    match s.cache.mshr.find? fun q => q.key == o.key && q.evicting with
    | some q => mshrStart q s
    | none => s
  | .install line p d v c sp => replicaPut o.home o.key line p d v c sp (ack (evictNow o.home o.key (setMeta s o.key m0)))
  | .flush => ack (flushNow o.home o.key (setMeta s o.key m0))
  | .discard => ack (discardNow o.home o.key (setMeta s o.key m0))
  | .drop => ack (flushNow o.home o.key (setMeta s o.key { m0 with sd := 0 }))
  | .replica => replicaGone o (clearLine o.key (replicaLeft o.home m (setMeta s o.key m0)))
  | .free _ => setMeta s o.key m0

/-- A writeback waits in hardware, holding its way, until a pool port can carry it (R298 step 4). -/
def wbWaits (s : State) (key : Nat) : Bool :=
  let m := metaAt s key
  m.sd != 0 && !m.replica && (poolPort s (saOf s key)).isNone

/-- An eviction or a flush that has begun and ends in a writeback: the writeback is in progress (R378 step 2, R384). -/
def invDirty (s : State) (o : InvOp) : Bool :=
  let m := metaAt s o.key
  m.sd != 0 && match o.act with
    | .evict => !m.melt
    | .install _ _ _ _ _ _ => !m.melt
    | .flush => true
    | _ => false

/-- The end of an invalidation waits: for a pool port, when it writes a dirty line back; for its activation, when an atomic or an ADDL
is performed with it (R198 step 4). -/
def invWaits (s : State) (o : InvOp) : Bool :=
  match o.act with
  | .evict => wbWaits s o.key && !(metaAt s o.key).melt
  | .install _ _ _ _ _ _ => wbWaits s o.key && !(metaAt s o.key).melt
  | .flush => wbWaits s o.key
  | .perform r => (match r.op with
    | .atu id => atuGo s r.home id == some false
    | _ => false)
  | _ => false

/-- One pass over the invalidations that have every acknowledgement. -/
def finishInvs (s : State) : State :=
  s.cache.invs.foldl
    (fun t o =>
      match t.cache.invs.find? fun x => x.tag == o.tag && x.key == o.key with
      | none => t
      | some o =>
        if o.ports = 0 ∧ !o.replica ∧ !invWaits t o then
          finishInv o (t.onCache fun c => { c with invs := c.invs.filter fun x => !(x.tag == o.tag && x.key == o.key) })
        else t)
    s

/-- A fill that fails: nothing is stored, and every waiting request ends POISON (R292, R298). -/
def failReq (h : Half) (r : LineReq) (s : State) : State :=
  match r.op with
  | .atu id =>
    match findAtom s h id with
    | some a => answerAtom a h true 0 (dropAtom h id s)
    | none =>
      match findAddl s h id with
      | some a => discardAddl h a s
      | none => s
  | _ => answerReq r { LineRes.st stPoison with poison := 15, data := BitVec.allOnes 1024 } none s

/-- Store nothing of a failed fill: the requests that needed its sectors end POISON (R292). The register goes on with what else it
fetches (R127). -/
def failFill (q : PoolReq) (s : State) : State :=
  match q.who with
  | .mshr =>
    match mshrOf s q.home q.line with
    | none => s
    | some m =>
      let hit (r : LineReq) : Bool := reqSectors r.op r.sa &&& q.mask != 0
      (m.waiters.filter hit).foldl (fun t r => failReq q.home r t)
        (putMshr { m with waiters := m.waiters.filter fun r => !hit r, fetch := m.fetch &&& ~~~q.mask } s)
  | .uncached r => failReq q.home r s
  | .atu id =>
    match findAtom s q.home id with
    | some a => putAtom q.home { a with copy := .held 0 15 } s
    | none =>
      match findAddl s q.home id with
      | some a => putAddl q.home { a with copy := .held 0 15 } s
      | none => s
  | .none => s

/-- Fills that no pool port can carry end POISON (R298 step 4). -/
def pumpPool (s : State) : State :=
  (s.cache.pool.filter fun q => q.kind = .fill ∧ q.port.isNone).foldl
    (fun t q =>
      failFill q (t.onCache fun c => { c with pool := c.pool.filter fun x => !(x.tag == q.tag && x.kind == .fill) }))
    s

/-! ## Accepting ADDLs (R183 to R187) -/

/-- A number for the next operation. -/
def atuId (s : State) : Nat × State := (s.atu.ids, s.onAtu fun a => { a with ids := a.ids + 1 })

/-- Enter an operation into the pipeline at its line, in the order of R125. -/
def enqueueAtu (h : Half) (id : Nat) (sa : Sa) (p : Part) (arrival : Half) (master : Nat) (s : State) : State :=
  enqueue { mkReq s .own (.atu id) sa p arrival h with master := some master } s

/-- Accept an atomic (R177). -/
def acceptAtom (w : Who) (k : AtomKind) (wide : Bool) (v cmp : BitVec 64) (sa : Sa) (p : Part) (arrival home : Half)
    (master : Nat) (s : State) : State :=
  let i := atuId s
  let a : Atom := { id := i.1, who := w, kind := k, wide := wide, v := v, cmp := cmp, sa := sa, part := p,
                    arrival := arrival, master := master, copy := .idle, go := false }
  let x := atuHalf i.2 home
  enqueueAtu home i.1 sa p arrival master (setAtuHalf i.2 home { x with atoms := x.atoms ++ [a] })

/-! ## ADDL acceptance (R182 to R187) -/

def ord (s : State) (n : Nat) : Ord := tget Ord.zero s.atu.ord n
def setOrd (s : State) (n : Nat) (o : Ord) : State := s.onAtu fun a => { a with ord := tset Ord.zero a.ord n o }

/-- The index of a line within a context's range. -/
def ordLine (o : Ord) (line : Sa) : Option Nat :=
  let k := field line.toNat 7 45
  if o.base.toNat ≤ k ∧ k ≤ o.base.toNat + o.nl.toNat then some (k - o.base.toNat) else none

def ordNext (s : State) (n l : Nat) : BitVec 8 := tget 0 s.atu.next (256 * n + l)
def setNext (s : State) (n l : Nat) (v : BitVec 8) : State :=
  s.onAtu fun a => { a with next := tset 0 a.next (256 * n + l) v }

def queueFull (s : State) (h : Half) : Bool := decide (256 ≤ (atuHalf s h).queue.length)

/-- Put an accepted ADDL into the queue for its line (R182). -/
def pushAddl (h : Half) (fmt : BitVec 4) (line : Sa) (d : BitVec 1024) (p : Part) (arrival : Half) (master : Nat)
    (ctx : Option (Fin 32)) (s : State) : State :=
  let i := atuId s
  let a : Addl := { id := i.1, fmt := fmt, line := line, data := d, part := p, arrival := arrival, master := master,
                    ctx := ctx, copy := .idle, go := false }
  let x := atuHalf i.2 h
  enqueueAtu h i.1 line p arrival master (setAtuHalf i.2 h { x with queue := x.queue ++ [a] })

/-- release(c, a) of R186: complete a round, move held contributions in sequence order while the queue has room. -/
def release : Nat → Half → Fin 32 → Sa → Nat → State → State
  | 0, _, _, _, _, s => s
  | fuel + 1, h, n, line, l, s =>
    let o := ord s n.val
    let s := if ordNext s n.val l = o.k then setOrd (setNext s n.val l 0) n.val { o with done := o.done + 1 } else s
    let x := atuHalf s h
    match x.held.find? fun e => e.ctx == n && e.line == line && e.s == ordNext s n.val l with
    | none => s
    | some e =>
      if queueFull s h then s
      else
        let s := setAtuHalf s h { x with held := x.held.erase e }
        let s := pushAddl h e.fmt e.line e.data e.part e.arrival e.master (some n) s
        release fuel h n line l (setNext s n.val l (ordNext s n.val l + 1))

/-- Release every held contribution that can go, after the queue has gained room (R186). -/
def releaseAllHeld (h : Half) (s : State) : State :=
  (atuHalf s h).held.foldl
    (fun t e => match ordLine (ord t e.ctx.val) e.line with
      | some l => release 66 h e.ctx e.line l t
      | none => t) s

/-- What the acceptance of an ADDL decides: a status now, or nothing while the queue is full (R183, R186). The tag is AUX of
R288 in the format of R262: bit 31 set, [4:0] the context, [12:5] the sequence number, the rest 0; 0 for none. -/
def decideAddl (fmt : BitVec 4) (atag : BitVec 32) (line : Sa) (d : BitVec 1024) (p : Part) (arrival home : Half) (master : Nat)
    (s : State) : Option Nat × State :=
  let full := queueFull s home
  let s := if full then s else charge home (some master) s
  if full then (none, s)
  else if atag = 0 then
    (some stOk, cnt 0x021 (some home) (some p) 1 (pushAddl home fmt line d p arrival master none s))
  else
    let n : Fin 32 := ⟨field atag.toNat 0 5, by unfold field; exact Nat.mod_lt _ (by decide)⟩
    let q := BitVec.ofNat 8 (field atag.toNat 5 8)
    let o := ord s n.val
    match (if bit atag 31 ∧ field atag.toNat 13 18 = 0 then ordLine o line else none) with
    | none => (some stBadarg, s)
    | some l =>
      if !o.en ∨ o.dead ∨ o.part ≠ p ∨ o.k.toNat ≤ q.toNat then (some stBadarg, s)
      else if q = ordNext s n.val l then
        let s := pushAddl home fmt line d p arrival master (some n) s
        (some stOk, cnt 0x021 (some home) (some p) 1 (release 66 home n line l (setNext s n.val l (q + 1))))
      else
        let x := atuHalf s home
        if 64 ≤ x.held.length then (some stOrdFull, cnt 0x024 (some home) (some p) 1 s)
        else
          let e : HeldAddl := { ctx := n, line := line, s := q, fmt := fmt, data := d, part := p, arrival := arrival,
                                master := master, since := s.clk.time, limit := thawNs s p.toNat }
          (some stOk, cnt 0x021 (some home) (some p) 1 (setAtuHalf s home { x with held := x.held ++ [e] }))

/-- Answer a partner's ADDL; until now it has stood in its link credits (R183, R285). -/
def answerAddl (w : Who) (p : Part) (line : Sa) (st : Nat) (s : State) : State :=
  match w with
  | .port n c tag => respond n c tag p line st 0 false [] (takeRx n.val 0x18 tag s)
  | _ => s

/-- Take the ADDLs that wait for room, in order, while there is any (R183). -/
def takeWaiting : Nat → Half → State → State
  | 0, _, s => s
  | fuel + 1, h, s =>
    match (atuHalf s h).waiting with
    | [] => s
    | w :: rest =>
      let fenced : Bool := s.integ.prst.any fun q => q.running && q.part == w.part
      let r := if fenced then (some stRights, s) else decideAddl w.fmt w.atag w.line w.data w.part w.arrival h w.master s
      match r.1 with
      | none => s
      | some st =>
        let x := atuHalf r.2 h
        takeWaiting fuel h (answerAddl w.who w.part w.line st (setAtuHalf r.2 h { x with waiting := rest }))

/-- The queue has gained room: held contributions first, then those still waiting. -/
def atuRoom (h : Half) (s : State) : State :=
  let s := releaseAllHeld h s
  takeWaiting ((atuHalf s h).waiting.length + 1) h s

/-! ## Ending frees (R168) -/

/-- Lines of block b, as array indexes. -/
def inBlock (b key : Nat) : Bool := decide (key / 512 = b)

/-- A read accepted before the free may still record a sharer. -/
def roWaits (s : State) (b : Nat) : Bool :=
  s.cache.blocked.any fun r => isBuf r.sa && inBlock b (bufKey r.sa) && (match r.op with
    | .read _ (some _) _ => true
    | _ => false)

/-- The lines of a block that copies are held of. -/
def sharedIn (s : State) (b : Nat) : List Nat := (s.cache.line.filter fun e => inBlock b e.1 && needInv s e.2).map (·.1)

/-- Every copy of the lines of the blocks being freed is invalidated, once the reads accepted before are performed. -/
def scanFrees (s : State) : State :=
  s.buf.frees.foldl
    (fun t e =>
      if roWaits t e.1 then t
      else (sharedIn t e.1).foldl
        (fun t k => if invBusy t k then t else startInv (blockHalf e.1) k (bufSa t k) (.free e.1) t) t) s

/-- Finish every free that waits for no read and no acknowledgement, its own or an earlier access's. -/
def finishFrees (s : State) : State :=
  s.buf.frees.foldl
    (fun t e =>
      if roWaits t e.1 ∨ t.cache.invs.any (fun o => inBlock e.1 o.key) ∨ !(sharedIn t e.1).isEmpty then t else finishFree e t) s

/-! ## Settling -/

/-- One round: finished invalidations, miss registers, waiting requests. -/
def settleRound (s : State) : State := pumpBlocked (pumpMshrs (finishInvs (pumpPool s)))

/-- Nothing waits in the pipelines. -/
def quiet (s : State) : Bool := s.cache.blocked.isEmpty && s.cache.mshr.isEmpty && s.cache.invs.isEmpty &&
  !s.cache.pool.any (fun q => q.kind == .fill && q.port.isNone)

def settleN : Nat → State → State
  | 0, s => s
  | n + 1, s => if quiet s then s else settleN n (settleRound s)

/-- Rounds enough for everything that can be performed now: each request, register or invalidation needs at most a few. -/
def settleAll (s : State) : State :=
  settleN (6 + 3 * (s.cache.blocked.length + s.cache.mshr.length + s.cache.invs.length)) s

/-- No ADDL waits for room or for its turn. -/
def addlsIdle (s : State) : Bool :=
  s.atu.he.waiting.isEmpty && s.atu.hw.waiting.isEmpty && s.atu.he.held.isEmpty && s.atu.hw.held.isEmpty

/-- Perform everything that can be performed now; the ATU queues then take what has waited for the room this made (R183). -/
def settle (s : State) : State :=
  let t := settleAll s
  let t := if addlsIdle t then t else settleAll (atuRoom .w (atuRoom .e t))
  if t.buf.frees.isEmpty then t else finishFrees (settleAll (scanFrees t))

/-! ## Collecting units -/

/-- The answer to access k of a unit, when it is in. -/
def gotOf (s : State) (c : Consumer) (k : Nat) : Option LineRes :=
  (s.cache.got.find? fun e => decide (e.1 = c ∧ e.2.1 = k)).map fun e => e.2.2

/-- Forget what a unit asked for. -/
def forget (c : Consumer) (s : State) : State :=
  s.onCache fun q =>
    { q with asked := q.asked.filter fun e => !decide (e.1 = c), got := q.got.filter fun e => !decide (e.1 = c) }

/-- Issue the accesses of a unit that it has not issued yet. -/
def askAll (c : Consumer) (rs : List (Nat × LineReq)) (s : State) : State :=
  rs.foldl
    (fun t r =>
      if t.cache.asked.contains (c, r.1) then t
      else enqueue { r.2 with who := .buf c r.1 } (t.onCache fun q => { q with asked := q.asked ++ [(c, r.1)] }))
    s

/-- Issue a unit's accesses and collect the answers, without forgetting them: all of them, or none yet. -/
def collect (c : Consumer) (rs : List (Nat × LineReq)) (s : State) : Option (List LineRes) × State :=
  let s := settle (askAll c rs s)
  let xs := rs.filterMap fun r => gotOf s c r.1
  (if xs.length = rs.length then some xs else none, s)

/-- Collect, and forget once every answer is in. -/
def gather (c : Consumer) (rs : List (Nat × LineReq)) (s : State) : Option (List LineRes) × State :=
  let g := collect c rs s
  match g.1 with
  | none => (none, g.2)
  | some xs => (some xs, forget c g.2)

end Sys2Proof.Machine
end

