-- ==== Sys2Proof/Machine/Alloc.lean ====
section
/-! DEFINITION. Freeing, zeroing, draining and releasing buffer blocks (R165 to R172). -/

namespace Sys2Proof.Machine

/-- Decide a free in one arbiter step (R167): the status, or the block enters SCRUB, and OK follows once no copy of its lines is left
(finishFrees). -/
def freeBlock (w : Option (Who × Part × Sa)) (p : Part) (b : Nat) (s : State) : State :=
  let x := blk s b
  let fail (n : Nat) : State := match w with
    | some (w, q, sa) => blockAnswer w q sa n s
    | none => s
  if (region s (b / 1024)).state ≠ 2 then fail stRegion
  else if x.st ≠ 3 ∨ (p ≠ 0 ∧ x.owner ≠ p) then fail stNotOwned
  else
    (setBlk s b { st := 2, owner := x.owner }).onBuf fun u => { u with frees := u.frees ++ [(b, w, x.owner)] }

/-- Zero a block (R159): every data byte 0, every line as after conversion. -/
def zeroBlock (b : Nat) (s : State) : State :=
  s.onCache fun c =>
    { c with data := c.data.filter (fun e => !decide (e.1 / 65536 = b)),
             line := c.line.filter (fun e => !inBlock b e.1),
             ecc := c.ecc.filter (fun e => !decide (e.1 / 2048 = b)) }

/-- Give a block that is free to the oldest waiter, or to the free list; a draining region holds it (R165, R172). -/
def placeBlock (b : Nat) (s : State) : State :=
  let h := blockHalf b
  if tget false s.buf.drain (b / 1024) then setBlk s b { st := 4, owner := 0 }
  else
    match waitQ s h with
    | [] => setBlk s b { st := 1, owner := 0 }
    | w :: rest =>
      let s := setWaitQ h rest (setBlk s b { st := 3, owner := w.part })
      blockAnswer w.who w.part (blockSa s b) stOk (allocEvent h w.part stOk s)

/-- Requests accepted before the free are still to be performed on the block (R168). -/
def blockBusy (s : State) (b : Nat) : Bool :=
  s.buf.frees.any (fun e => e.1 == b) || s.cache.blocked.any (fun r => isBuf r.sa && inBlock b (bufKey r.sa)) ||
  s.cache.invs.any (fun o => inBlock b o.key)

/-- Zeroing ends (R165, R168). -/
def execScrubDone (b : Fin 393216) (s : State) : Host.Outcome State Fault Refusal :=
  answer s <|
    let h := blockHalf b.val
    if (blk s b.val).st = 2 ∧ (region s (b.val / 1024)).state = 2 ∧ !blockBusy s b.val ∧ domRuns s (h.pick 5 6) then
      placeBlock b.val (chargeMany h 512 (cnt 0x035 (some h) none 1 (zeroBlock b.val s)))
    else s

/-- A waiter ends without a block, and its reservation is released. -/
def endWaiter (h : Half) (w : Waiter) (status : Nat) (s : State) : State :=
  let s := setWaitQ h ((waitQ s h).erase w) (subUsed h w.part s)
  blockAnswer w.who w.part 0 status (allocEvent h w.part status s)

def execAllocWaiterThaw (h : Half) (k : Nat) (s : State) : Host.Outcome State Fault Refusal :=
  answer s <|
    match (waitQ s h)[k]? with
    | none => s
    | some w => if due s w.since w.limit then endWaiter h w stThawed (countThaw s h w.part) else s

/-- A release is running in a half (R173). -/
def relBusy (s : State) (h : Half) : Bool := s.buf.frees.any fun e => e.2.1.isNone && blockHalf e.1 == h

/-- Free every OWNED block of a partition in both halves (R169); refused while a release runs (R173). -/
def releaseAll (p : Part) (s : State) : State :=
  if relBusy s .e ∨ relBusy s .w then s.onBuf fun u => { u with errRel := true }
  else
    ((s.buf.blk.filter fun e => e.2.st == 3 && e.2.owner == p).foldl (fun t e => freeBlock none p e.1 t) s)

/-- A write of BUF_RELEASE names partition `part`. -/
def execBufRelease (part : Part) (s : State) : Host.Outcome State Fault Refusal := answer s (settle (ifUp 5 6 (releaseAll part) s))

/-- DRAIN of a region set or cleared (R172); the blocks of a region in conversion are withdrawn (R171). -/
def setDrain (r : Nat) (on : Bool) (s : State) : State :=
  let s := s.onBuf fun u => { u with drain := tset false u.drain r on }
  if (region s r).state ≠ 2 ∨ (region s r).busy then s
  else if on then
    ((List.range 1024).filter fun k => (blk s (1024 * r + k)).st == 1).foldl
      (fun t k => setBlk t (1024 * r + k) { st := 4, owner := 0 }) s
  else (blocksIn s r 4).foldl (fun t b => placeBlock b t) s

def execDrain (r : Fin 384) (on : Bool) (s : State) : Host.Outcome State Fault Refusal := answer s (ifUp 5 6 (setDrain r.val on) s)

end Sys2Proof.Machine
end

