-- ==== Sys2Proof/Machine/Atu.lean ====
section
/-! DEFINITION. Acceptance of atomics and ADDLs, ordered reduction, and the commands of the atomic unit (chapter 7). -/

namespace Sys2Proof.Machine

/-! ## Commands -/

/-- The activation of atomic k of a half is due; it is performed as soon as its line is there (R177). -/
def execAtomicPerform (h : Half) (k : Nat) (s : State) : Host.Outcome State Fault Refusal :=
  answer s <|
    match (atuHalf s h).atoms[k]? with
    | none => s
    | some a => settle (putAtom h { a with go := true } s)

/-- The activation of ADDL k of a half's queue is due (R184). -/
def execAddlApply (h : Half) (k : Nat) (s : State) : Host.Outcome State Fault Refusal :=
  answer s <|
    match (atuHalf s h).queue[k]? with
    | none => s
    | some a => settle (putAddl h { a with go := true } s)

/-- The entries held for a context are discarded and counted (R184, R188, R189). -/
def discardHeld (n : Fin 32) (s : State) : State :=
  [Half.e, Half.w].foldl
    (fun t h =>
      let x := atuHalf t h
      let k := (x.held.filter fun e => e.ctx == n).length
      cnt 0x023 (some h) (some (ord t n.val).part) k
        (setAtuHalf t h { x with held := x.held.filter (fun e => !(e.ctx == n)), discReset := satAdd x.discReset k })) s

/-- A held entry has waited the thaw timeout of the context's partition (R188). -/
def execOrdTimeout (n : Fin 32) (s : State) : Host.Outcome State Fault Refusal :=
  answer s <|
    let o := ord s n.val
    let late (h : Half) : Bool := (atuHalf s h).held.any fun e => e.ctx == n && due s e.since e.limit
    if late .e ∨ late .w then
      let s := discardHeld n (setOrd s n.val { o with err := true, tmo := true, dead := true })
      countThaw s (if late .e then .e else .w) o.part
    else s

/-- Addresses of a context's lines. -/
def ordSa (o : Ord) (l : Nat) : Sa := BitVec.ofNat 52 ((o.base.toNat + l) * 128)

/-- The range lies in FAR space, or in the BUF space of this slice (R189). -/
def ordRangeOk (s : State) (o : Ord) : Bool :=
  let a := ordSa o 0
  let b := ordSa o o.nl.toNat
  decide (o.base.toNat + o.nl.toNat < 2 ^ 45) &&
  ((!bit a 51 && !bit b 51) ||
   (match decodeSa s s.cur a, decodeSa s s.cur b with
    | .ok (.buf _ _), .ok (.buf _ _) => true
    | _, _ => false))

/-- The range overlaps another enabled context (R189). -/
def ordOverlap (s : State) (n : Nat) (o : Ord) : Bool :=
  s.atu.ord.any fun e =>
    e.1 != n && e.2.en && decide (e.2.base.toNat ≤ o.base.toNat + o.nl.toNat ∧ o.base.toNat ≤ e.2.base.toNat + e.2.nl.toNat)

/-- HOMED: the lines of the range homed at this slice. -/
def ordHomed (s : State) (o : Ord) : Nat :=
  ((List.range (o.nl.toNat + 1)).filter fun l => match decodeSa s s.cur (ordSa o l) with
    | .ok _ => true
    | .error _ => false).length

/-- Every NEXT of a context returns to 0. -/
def clearNext (n : Nat) (s : State) : State :=
  s.onAtu fun a => { a with next := a.next.filter fun e => !decide (e.1 / 256 = n) }

/-- A write of ATU_ORD_CTL[n] (R189). -/
def writeOrdCtl (n : Fin 32) (v : BitVec 32) (s : State) : State :=
  let o := ord s n.val
  let x := { o with en := bit v 0, part := v.extractLsb' 1 5, nl := v.extractLsb' 8 8, k := v.extractLsb' 16 8 }
  let changed : Bool := x.part ≠ o.part ∨ x.nl ≠ o.nl ∨ x.k ≠ o.k
  if (o.en ∧ changed) ∨ (x.en ∧ (x.k = 0 ∨ !ordRangeOk s x ∨ ordOverlap s n.val x)) then
    s.onAtu fun a => { a with ordcfg := true }
  else
    let s := discardHeld n s
    if x.en then
      clearNext n.val (setOrd s n.val { x with err := false, tmo := false, dead := false, homed := BitVec.ofNat 9 (ordHomed s x) })
    else setOrd s n.val x

/-- A write of ATU_ORD_BASE[n]: refused while EN is 1 when it changes BASE (R189). -/
def writeOrdBase (n : Fin 32) (v : BitVec 64) (s : State) : State :=
  let o := ord s n.val
  let b := v.extractLsb' 7 45
  if o.en ∧ b ≠ o.base then s.onAtu fun a => { a with ordcfg := true } else setOrd s n.val { o with base := b }

def execOrdCtlWrite (n : Fin 32) (v : BitVec 32) (s : State) : Host.Outcome State Fault Refusal :=
  answer s (ifUp 5 6 (writeOrdCtl n v) s)

end Sys2Proof.Machine
end

