-- ==== Sys2Proof/Machine/Plow.lean ====
section
/-! DEFINITION. The group tables' conditions (R88) and the plow: its queue, its operations and the conversion of regions
(R148 to R155, R170, R171). -/

namespace Sys2Proof.Machine

/-! ## The conditions of R88 -/

/-- BASE is a multiple of SIZE and LOG2SIZE is 7 to 13. -/
def winOk (w : Win) : Bool :=
  decide (7 ≤ w.log2.toNat ∧ w.log2.toNat ≤ 13) && decide (w.base.toNat % 2 ^ w.log2.toNat = 0) &&
  decide (w.base.toNat + 2 ^ w.log2.toNat ≤ 8192)

def inWin (w : Win) (i : Nat) : Bool := decide (w.base.toNat ≤ i ∧ i < w.base.toNat + 2 ^ w.log2.toNat)

/-- Two windows share an entry. -/
def winMeet (a b : Win) : Bool :=
  decide (a.base.toNat < b.base.toNat + 2 ^ b.log2.toNat ∧ b.base.toNat < a.base.toNat + 2 ^ a.log2.toNat)

def commonWin (v : Staged) (h : Half) : Win := h.pick v.shwE v.shwW
def partWin (v : Staged) (h : Half) (p : Nat) : Win := h.pick (partReg v p).gtwE (partReg v p).gtwW

/-- The partitions with a tenant window. -/
def tenants (v : Staged) : List Nat := (List.range 32).filter fun p => (partReg v p).gmode

/-- Two tenant windows overlap, or one overlaps the common window of its half. -/
def winsOverlap (v : Staged) (h : Half) : Bool :=
  let ps := tenants v
  ps.any fun p => winMeet (partWin v h p) (commonWin v h) || ps.any fun q => p != q && winMeet (partWin v h p) (partWin v h q)

/-- Entry i of half h may hold e, under the windows of v, the owners and the regions in force. -/
def gtOk (s : State) (v : Staged) (h : Half) (i : Nat) (e : GtEnt) : Bool :=
  let g := e.group.toNat
  !e.valid ||
  (decide (g < 6144) && decide (g % 128 = i % 128) && (region s (groupRegion h g)).state == 1 &&
   (tenants v).all (fun p => !inWin (partWin v h p) i || gown s h g == BitVec.ofNat 6 p) &&
   (!inWin (commonWin v h) i || gown s h g == 0x3E))

/-- Every entry of both tables. -/
def tablesOk (s : State) (v : Staged) : Bool :=
  s.tables.gt.all fun e => gtOk s v (Half.ofBool (decide (8192 ≤ e.1))) (e.1 % 8192) e.2

/-- Every condition of R88 for windows v: their form, no overlap, and the entries. -/
def r88Ok (s : State) (v : Staged) : Bool := !winsOverlap v .e && !winsOverlap v .w && tablesOk s v

/-! ## Regions -/

/-- Every row of region r is written anew: no line, no data. -/
def wipeRegion (r : Nat) (s : State) : State :=
  s.onCache fun c =>
    { c with data := c.data.filter (fun e => !decide (e.1 / 2 ^ 26 = r)), line := c.line.filter (fun e => !decide (keyRegion e.1 = r)),
             ecc := c.ecc.filter (fun e => !decide (keyRegion (e.1 / 4) = r)) }

/-- No valid entry names a group of region r (R82). -/
def unnamed (s : State) (r : Nat) : Bool :=
  !s.tables.gt.any fun e => e.2.valid && groupRegion (Half.ofBool (decide (8192 ≤ e.1))) e.2.group.toNat == r

/-- Every block of region r is FREE or HELD (R171). -/
def allFree (s : State) (r : Nat) : Bool := (busyBlocks s r).all fun o => (blk s (1024 * r + o)).st == 4

/-- Give the free blocks of region r to the waiters of its half, oldest first (R165). -/
def serveRegion : Nat → Nat → State → State
  | 0, _, s => s
  | n + 1, r, s =>
    if (waitQ s (regionHalf r)).isEmpty ∨ freeIn s r = 0 then s
    else
      match pickBlock s [r] (Config.freeBlock s.freeCtr % freeIn s r) with
      | none => s
      | some b => serveRegion n r (placeBlock b { s with freeCtr := s.freeCtr + 1 })

/-- A region that has become PINNED: its blocks are FREE, or HELD while DRAIN is set, and waiters are served (R170). -/
def openRegion (r : Nat) (s : State) : State :=
  let s := s.onBuf fun u => { u with blk := u.blk.filter fun e => !decide (e.1 / 1024 = r) }
  if tget false s.buf.drain r then
    (List.range 1024).foldl (fun t k => setBlk t (1024 * r + k) { st := 4, owner := 0 }) s
  else serveRegion 64 r s

/-! ## Commands -/

def opClean : Nat := 1
def opInvalidate : Nat := 2
def opFlush : Nat := 3
def opDemote : Nat := 4
def opMelt : Nat := 5
def opEntry : Nat := 6
def opOwner : Nat := 7
def opRegion : Nat := 8

def codeBadarg : Nat := 1
def codeRights : Nat := 2
def codeTable : Nat := 3
def codeRegion : Nat := 4

/-- Accept a command while the queue has room (R148); its sequence number is ISSUED just after. -/
def plowAccept (c : PlowCmd) (s : State) : Bool × State :=
  if 16 ≤ s.cch.plow.length then (false, s)
  else
    let clears := (s.tables.staleRisk.filter (·.2)).map fun e => BitVec.ofNat 5 e.1
    (true, s.onCch fun x => { x with issued := x.issued + 1,
                                     plow := x.plow ++ [{ c with seq := x.issued + 1, clears := clears }] })

def PlowCmd.mk0 (op : Nat) (scope : BitVec 2) (part : Part) (h : Half) (a0 a1 : BitVec 64) (user : Option Part) : PlowCmd :=
  { op := BitVec.ofNat 4 op, scope := scope, part := part, half := h, arg0 := a0, arg1 := a1, user := user, seq := 0,
    started := false, workE := [], workW := [], code := 0, clears := [] }

/-- A command's arguments are well formed (R149): bits outside its fields 0, its values in range. A scope without a range
has no argument field (log entry 25). -/
def plowArgsOk (c : PlowCmd) : Bool :=
  let a := c.arg0.toNat
  let b := c.arg1.toNat
  let op := c.op.toNat
  if 1 ≤ op ∧ op ≤ 5 then
    if c.scope = 0 then
      decide (a % 4096 = 0 ∧ a < 2 ^ 51 ∧ b < 2 ^ 32 ∧ b ≠ 0 ∧ a + 4096 * b ≤ 2 ^ 51)
    else decide (c.scope ≠ 3 ∧ a = 0 ∧ b = 0)
  else if op = 6 then decide (a < 8192 ∧ b < 65536 ∧ field b 13 2 = 0)
  else if op = 7 then decide (a < 6144 ∧ (b < 32 ∨ b = 0x3E ∨ b = 0x3F))
  else if op = 8 then decide (a < 384 ∧ b < 3)
  else false

/-- A P-mode range has W in every block (R265). -/
def plowUserOk (s : State) (c : PlowCmd) : Bool :=
  match c.user with
  | none => true
  | some p => (List.range c.arg1.toNat).all fun k =>
      (farRights (partReg s.cur p.toNat) (BitVec.ofNat 52 (c.arg0.toNat + 4096 * k))).grants Rights.wr

/-- The line at an array index is in the scope of an operation on lines (R150). -/
def plowInScope (s : State) (c : PlowCmd) (key : Nat) : Bool :=
  let m := metaAt s key
  let a := (farSaOf m.tag key).toNat
  decide (m.sv ≠ 0) && !m.pinned &&
  (if c.scope = 0 then decide (c.arg0.toNat ≤ a ∧ a < c.arg0.toNat + 4096 * c.arg1.toNat)
   else if c.scope = 1 then m.part == c.part
   else true) &&
  (!m.replica || c.op.toNat == opInvalidate || c.op.toNat == opFlush)

/-- The line at an array index maps to entry i of half h through group g (R152). -/
def mapsTo (s : State) (h : Half) (i g key : Nat) : Bool :=
  let m := metaAt s key
  decide (m.sv ≠ 0) && !m.pinned && regionHalf (keyRegion key) == h && keyGroup key == g &&
  gtIndexOf (winOf (pipeView s h) h m.part.toNat) m.tag.toNat (g % 128) == i

/-- What a command has to process, as the tables stand. -/
def plowTodo (s : State) (c : PlowCmd) (key : Nat) : Bool :=
  let op := c.op.toNat
  if op = opEntry then mapsTo s c.half c.arg0.toNat (gtEnt s c.half c.arg0.toNat).group.toNat key
  else if op = opRegion then keyRegion key == c.arg0.toNat && decide ((metaAt s key).sv ≠ 0) && !(metaAt s key).pinned
  else plowInScope s c key

/-- Give the head command its work lists: the resident lines it covers, by half; a half whose pipeline is off has nothing to do
(R386 edges). -/
def plowWork (s : State) (c : PlowCmd) : PlowCmd :=
  let ks := (s.cache.line.map (·.1)).filter (plowTodo s c)
  let of (h : Half) : List Nat := if domRuns s (h.pick 3 4) then ks.filter fun k => regionHalf (keyRegion k) == h else []
  { c with workE := of .e, workW := of .w }

def setHead (c : PlowCmd) (s : State) : State := s.onCch fun x => { x with plow := c :: x.plow.tail }

/-- The head ends with a code and does nothing. -/
def plowFail (c : PlowCmd) (code : Nat) (s : State) : State := setHead { c with started := true, code := BitVec.ofNat 4 code } s

/-- The owner of group g of half h. -/
def setGown (h : Half) (g : Nat) (o : BitVec 6) (s : State) : State :=
  s.onTables fun t => { t with gown := tset 0 t.gown (6144 * h.idx + g) o }
def setGt (h : Half) (i : Nat) (e : GtEnt) (s : State) : State :=
  s.onTables fun t => { t with gt := tset GtEnt.zero t.gt (8192 * h.idx + i) e }

/-- A transition of R82 that REGROUP-REGION may perform, with its precondition. -/
def regionStepOk (s : State) (r new : Nat) : Bool :=
  let g := region s r
  let old := g.state.toNat
  !g.retired && decide (old ≠ new) &&
  (if old = 1 then unnamed s r else if old = 2 then allFree s r else domOn s (10 + regionDie r))

/-- Start the command at the head of the queue, unless it runs already or waits for a region's BUSY (R153). -/
def plowStart (s : State) : State :=
  match s.cch.plow with
  | [] => s
  | c :: _ =>
    let op := c.op.toNat
    let i := c.arg0.toNat
    if c.started then s
    else if !plowArgsOk c then plowFail c codeBadarg s
    else if op ≤ 5 then
      if !plowUserOk s c then plowFail c codeRights s else setHead { plowWork s c with started := true } s
    else if op = opEntry then
      let e : GtEnt := { group := c.arg1.extractLsb' 0 13, valid := bit c.arg1 15 }
      if !gtOk s s.cur c.half i e then plowFail c codeTable s
      else
        let s := s.onTables fun t =>
          { t with retiring := if (gtEnt s c.half i).valid then some (8192 * c.half.idx + i) else none }
        setHead { (if (gtEnt s c.half i).valid then plowWork s c else c) with started := true } s
    else if op = opOwner then
      let t := setGown c.half i (c.arg1.extractLsb' 0 6) s
      if tablesOk t t.cur then setHead { c with started := true } t else plowFail c codeTable s
    else if (region s i).busy then s
    else if !regionStepOk s i c.arg1.toNat then plowFail c codeRegion s
    else
      let g := region s i
      setHead { (if g.state = 1 then plowWork s c else c) with started := true } (setRegion s i { g with busy := true })

/-- A command from CCH_PLOW_CMD (R149). -/
def plowReg (op : Nat) (scope : BitVec 2) (part : Part) (h : Half) (s : State) : State :=
  let r := plowAccept (PlowCmd.mk0 op scope part h s.cch.arg0 s.cch.arg1 none) s
  if r.1 then settle (plowStart r.2) else s.onCch fun x => { x with qfull := true }

def execClean (scope : BitVec 2) (part : Part) (s : State) : Host.Outcome State Fault Refusal :=
  answer s (ifUp 3 4 (plowReg opClean scope part .e) s)
def execInvalidate (scope : BitVec 2) (part : Part) (s : State) : Host.Outcome State Fault Refusal :=
  answer s (ifUp 3 4 (plowReg opInvalidate scope part .e) s)
def execFlush (scope : BitVec 2) (part : Part) (s : State) : Host.Outcome State Fault Refusal :=
  answer s (ifUp 3 4 (plowReg opFlush scope part .e) s)
def execDemote (scope : BitVec 2) (part : Part) (s : State) : Host.Outcome State Fault Refusal :=
  answer s (ifUp 3 4 (plowReg opDemote scope part .e) s)
def execMeltRange (scope : BitVec 2) (part : Part) (s : State) : Host.Outcome State Fault Refusal :=
  answer s (ifUp 3 4 (plowReg opMelt scope part .e) s)
def execRegroupEntry (h : Half) (s : State) : Host.Outcome State Fault Refusal := answer s (ifUp 3 4 (plowReg opEntry 0 0 h) s)
def execRegroupOwner (h : Half) (s : State) : Host.Outcome State Fault Refusal := answer s (ifUp 3 4 (plowReg opOwner 0 0 h) s)
def execRegroupRegion (s : State) : Host.Outcome State Fault Refusal := answer s (ifUp 3 4 (plowReg opRegion 0 0 .e) s)

/-! ## Steps -/

/-- One line of the command in execution (R150). -/
def plowLine (c : PlowCmd) (h : Half) (key : Nat) (s : State) : State :=
  let m := metaAt s key
  let line := saOf s key
  let op := c.op.toNat
  let s := chargePlow h (cnt 0x018 (some h) none 1 s)
  if op = opClean then
    if m.sd = 0 then s else (let s := writeBack h key line s; setMeta s key { metaAt s key with sd := 0 })
  else if op = opDemote then setMeta s key { m with ref := false, demoted := true }
  else if op = opMelt then setMeta s key { m with melt := true }
  else if op = opInvalidate then
    if needInv s m then startInv h key line .discard s else discardNow h key s
  else if needInv s m ∨ wbWaits s key then startInv h key line .flush s
  else flushNow h key s

/-- A warm reset has stopped the plow, but for a region transition (R378 step 1). -/
def plowFenced (s : State) : Bool :=
  warmFenced s && (match s.cch.plow with
    | [] => true
    | c :: _ => !(c.started && c.op.toNat == opRegion))

def execPlowLineStep (h : Half) (key : Nat) (s : State) : Host.Outcome State Fault Refusal :=
  answer s <|
    if plowFenced s then s else
    let s := settle (plowStart s)
    match s.cch.plow with
    | [] => s
    | c :: _ =>
      if c.started ∧ (h.pick c.workE c.workW).contains key ∧ domRuns s (h.pick 3 4) ∧ domRuns s (h.pick 5 6) ∧ !held s key ∧ !invBusy s key ∧ !(c.op.toNat == opClean && wbWaits s key) then
        let s := setHead { c with workE := c.workE.filter (fun k => !(k == key)), workW := c.workW.filter (fun k => !(k == key)) } s
        if plowTodo s c key then
          let t := checkRow 8 key s
          if wasReset s t then t else if plowTodo t c key then settle (plowLine c h key t) else settle t
        else s
      else s

/-- The lines that the head has dropped have lost every copy. -/
def plowQuiet (s : State) : Bool :=
  !s.cache.invs.any fun o => match o.act with
    | .flush => true
    | .discard => true
    | _ => false

/-- No miss register still brings a line in through an entry in retirement, or into a region. -/
def plowFills (s : State) (c : PlowCmd) : Bool :=
  s.cache.mshr.any fun q =>
    if c.op.toNat = opEntry then
      q.home == c.half && keyGroup q.key == (gtEnt s c.half c.arg0.toNat).group.toNat &&
        gtIndex (pipeView s c.half) c.half q.part.toNat q.line == c.arg0.toNat
    else c.op.toNat == opRegion && keyRegion q.key == c.arg0.toNat

/-- The head has processed everything: its lists are empty, or their half is off, and no line is left that a regrouping or a
conversion must flush. -/
def plowFinished (s : State) (c : PlowCmd) : Bool :=
  let rest := plowWork s c
  let sweeps : Bool := c.code == 0 &&
    ((c.op.toNat == opEntry && s.tables.retiring.isSome) || (c.op.toNat == opRegion && (region s c.arg0.toNat).busy))
  c.started && (c.workE.isEmpty || !domRuns s 3) && (c.workW.isEmpty || !domRuns s 4) && plowQuiet s &&
  (!sweeps || (rest.workE.isEmpty && rest.workW.isEmpty && !plowFills s c))

/-- A conversion's rows are written: STATE takes its new value, BUSY clears, and waiters are served (R153, R170, R171). -/
def execRegionConversionDone (r : Fin 384) (s : State) : Host.Outcome State Fault Refusal :=
  answer s <|
    match s.cch.plow with
    | [] => s
    | c :: _ =>
      if c.op.toNat = opRegion ∧ c.code = 0 ∧ c.arg0.toNat = r.val ∧ (region s r.val).busy ∧ plowFinished s c then
        let s := wipeRegion r.val s
        let s := setRegion s r.val { region s r.val with state := BitVec.ofNat 2 c.arg1.toNat, busy := false }
        if c.arg1 = 2 then openRegion r.val s
        else s.onBuf fun u => { u with blk := u.blk.filter fun e => !decide (e.1 / 1024 = r.val) }
      else s

/-- The effect of a command's completion on the tables and the registers (R146, R152, R154). -/
def plowComplete (c : PlowCmd) (s : State) : State :=
  let s := if c.code = 0 ∧ c.op.toNat = opEntry then
      (setGt c.half c.arg0.toNat { group := c.arg1.extractLsb' 0 13, valid := bit c.arg1 15 } s).onTables fun t => { t with retiring := none }
    else s
  let stale : Bool := c.code == 0 && (c.op.toNat == opInvalidate || c.op.toNat == opFlush) && (c.scope == 1 || c.scope == 2)
  let s := if stale then
      s.onTables fun t =>
        { t with staleRisk := t.staleRisk.filter fun e =>
            !(c.clears.contains (BitVec.ofNat 5 e.1) && (c.scope == 2 || c.part == BitVec.ofNat 5 e.1)) }
    else s
  s.onCch fun x =>
    { x with plow := x.plow.tail, done := x.done + 1, cmderr := x.cmderr || c.code != 0,
             errCode := if c.code = 0 then x.errCode else c.code,
             errSeq := if c.code = 0 then x.errSeq else c.seq.setWidth 28 }

def execPlowCommandDone (s : State) : Host.Outcome State Fault Refusal :=
  answer s <|
    let s := settle (plowStart s)
    match s.cch.plow with
    | [] => s
    | c :: _ =>
      let converting : Bool := c.op.toNat == opRegion && c.code == 0 && (region s c.arg0.toNat).busy
      if plowFinished s c ∧ !converting then settle (plowStart (plowComplete c s))
      else if c.started ∧ c.workE.isEmpty ∧ c.workW.isEmpty ∧ c.code = 0 ∧ (c.op.toNat = opEntry ∨ converting) then setHead (plowWork s c) s
      else s

end Sys2Proof.Machine
end

