-- ==== Sys2Proof/Machine/Epoch.lean ====
section
/-! DEFINITION. The commands of the bandwidth regulator (R303, R307) and configuration epochs (R310 to R316). -/

namespace Sys2Proof.Machine

/-! ## The regulator -/

/-- Master m can have a request ready (R305 edges, R309 edges): its port carries traffic, its core is in service. -/
def masterUp (s : State) (m : Nat) : Bool :=
  if m < 6 then portLive s m
  else
    let h' : Half := if m < 14 then .e else .w
    (List.range 9).any fun c =>
      let k := 9 * h'.idx + c
      logicalCore s k == some ((m - 6) % 8) && coreUp s k

/-- The masters of a mask that can have a request ready. -/
def readyMasters (s : State) (ready : BitVec 22) : BitVec 22 :=
  (List.range 22).foldl (fun b m => if ready.getLsbD m && masterUp s m then setBit b m true else b) 0

/-- One grant of a half's arbiter among the candidates that have a request ready (R303; log entry 28). -/
def execArrayGrant (h : Half) (ready : BitVec 22) (unreg plow : Bool) (s : State) : Host.Outcome State Fault Refusal :=
  answer s <|
    let ready := readyMasters s ready
    if !domOn s (h.pick 3 4) ∨ (ready = 0 ∧ !unreg ∧ !plow) then s
    else arbitrate h ready unreg plow s

/-! ## Epochs -/

/-- The units that take part in a switch (R314): the domain of each is on, be it about to go off, the core in service. -/
def epochUnits (s : State) : BitVec 26 :=
  (List.range 26).foldl
    (fun b u =>
      let on : Bool :=
        if u < 2 then domRuns s (3 + u) else if u < 4 then domRuns s (u - 1) else if u < 6 then domRuns s (u + 1)
        else if u < 8 then domRuns s (u - 3) else coreUp s (u - 8)
      setBit b u on) 0

/-- Every unit has switched: DONE, and the notification word (R315). -/
def epochFinish (s : State) : State :=
  if !s.glb.pending ∨ s.glb.lag ≠ 0 then s
  else
    let s := s.onGlb fun g => { g with pending := false, epochDone := g.epoch, doneEvt := true }
    if s.glb.note = 0 then s
    else
      let r := noteStore (BitVec.ofNat 52 (s.glb.note.toNat * 8)) 8 s.glb.epoch.toNat s
      if r.1 then settle r.2 else s.onGlb fun g => { g with noteErr := true }

/-- Keep the translations that pass a test: those of the cache, those that streams hold, and results of walks not yet used (R97,
R111, R112). -/
def keepTlb (h : Half) (keep : Tlb → Bool) (s : State) : State :=
  let ok (e : Option Tlb) : Bool := match e with
    | none => false
    | some t => keep t
  let of (e : Option Tlb) : Option Tlb := if ok e then e else none
  let st (x : Stream) : Stream := { x with src := of x.src, dst := of x.dst, hit := x.hit.filter fun e => keep e.2 }
  let s := s.onXlt fun x => { x with tlb := x.tlb.filter fun e => decide (¬ e.1 / 2048 = h.idx) || ok e.2 }
  (List.range 36).foldl (fun t i => modThr t (36 * h.idx + i) fun x => { x with s0 := st x.s0, s1 := st x.s1, hit := of x.hit }) s

def walks (s : State) (h : Half) : List Walk := h.pick s.xlt.walksE s.xlt.walksW
def setWalks (h : Half) (ws : List Walk) (s : State) : State :=
  s.onXlt fun x => match h with
    | .e => { x with walksE := ws }
    | .w => { x with walksW := ws }

/-- A walker's safe point: entries of partitions whose XLT_ROOT changed go (R97); walks under the old root fill nothing. -/
def rootSwitch (h : Half) (s : State) : State :=
  let changed (p : Nat) : Bool :=
    decide (¬ ((partReg s.prev p).rootEn = (partReg s.cur p).rootEn ∧ (partReg s.prev p).root = (partReg s.cur p).root))
  let ws := (walks s h).map fun w => { w with noFill := w.noFill || changed w.part.toNat }
  keepTlb h (fun t => !changed t.part.toNat) (setWalks h ws s)

/-- An allocator's safe point: waiters of a partition that the epoch disables end RIGHTS (R166). -/
def allocSwitch (h : Half) (s : State) : State :=
  (waitQ s h).foldl
    (fun t w => if w.part ≠ 0 ∧ !(partReg s.cur w.part.toNat).en then endWaiter h w stRights t else t) s

/-- Unit u takes up the new epoch. -/
def unitSwitch (u : Nat) (s : State) : State :=
  if s.glb.lag.getLsbD u then
    let s := if u = 2 then rootSwitch .e s else if u = 3 then rootSwitch .w s
      else if u = 4 then allocSwitch .e s else if u = 5 then allocSwitch .w s else s
    epochFinish (s.onGlb fun g => { g with lag := setBit g.lag u false })
  else s

/-- Windows in force of one half (R88). -/
def windows (v : Staged) (h : Half) : List Win := commonWin v h :: (tenants v).map (partWin v h)

/-- REASON 2: a valid entry that a window in force covers and no window of the snapshot does. -/
def uncovers (s : State) : Bool :=
  s.tables.gt.any fun e =>
    let h := Half.ofBool (decide (8192 ≤ e.1))
    let i := e.1 % 8192
    e.2.valid && (windows s.cur h).any (fun w => inWin w i) && !(windows s.shadow h).any (fun w => inWin w i)

/-- Why an advance is refused: 0 when it is not (R312). -/
def epochReason (s : State) : Nat :=
  if s.glb.pending then 1 else if uncovers s then 2 else if !tablesOk s s.shadow then 3 else 0

/-- STALE_RISK (R146): partitions whose CACHE_EN goes to 0, and re-enables counted. -/
def staleEpoch (s : State) : State :=
  (List.range 32).foldl
    (fun t p =>
      let a := (partReg s.cur p).cacheEn
      let b := (partReg s.shadow p).cacheEn
      if a ∧ !b then
        (t.onTables fun x => { x with staleRisk := tset false x.staleRisk p true }).onCch fun c =>
          { c with plow := c.plow.map fun q => { q with clears := q.clears.filter fun k => !(k == BitVec.ofNat 5 p) } }
      else if !a ∧ b ∧ tget false t.tables.staleRisk p then cnt 0x016 none (some (BitVec.ofNat 5 p)) 1 t
      else t) s

/-- Request an advance (R311, R312): the reason of a refusal, or 0. -/
def epochAdvance (s : State) : Nat × State :=
  let r := epochReason s
  if r ≠ 0 then (r, s.onGlb fun g => { g with refused := true, reason := BitVec.ofNat 3 r })
  else
    let s := staleEpoch s
    let s := { s with prev := s.cur, cur := s.shadow }
    (0, epochFinish ((cnt 0x064 none none 1 s).onGlb fun g => { g with epoch := g.epoch + 1, pending := true, since := s.clk.time, lag := epochUnits s }))

def execEpochAdvance (s : State) : Host.Outcome State Fault Refusal := answer s (epochAdvance s).2

/-! ## Windows -/

/-- A window boundary lies between the acceptance of the pending epoch and now (R314). -/
def boundaryPassed (s : State) : Bool := decide (s.glb.since.toNat / 1000 < s.clk.time.toNat / 1000)

/-- The window ends in both halves, and the regulators switch epoch (R307, R314). -/
def windowEnd (s : State) : State :=
  let s := windowRoll s
  if boundaryPassed s then unitSwitch 7 (unitSwitch 6 s) else s

def execWindowEnd (s : State) : Host.Outcome State Fault Refusal := answer s (windowEnd s)

/-- A unit reaches its safe point; a regulator's is the next window boundary (R314). -/
def execUnitEpochSwitch (u : Fin 26) (s : State) : Host.Outcome State Fault Refusal :=
  answer s (if u.val = 6 ∨ u.val = 7 then windowEnd s else unitSwitch u.val s)

end Sys2Proof.Machine
end

