-- ==== Sys2Proof/Machine/Links.lean ====
section
/-! DEFINITION. The links (chapter 11): blocks, flits and frames, replay, port states, lane sparing. A message that has
arrived is performed by its own command; BLOCK_RECEIVED only assembles frames. -/

namespace Sys2Proof.Machine

/-! ## States of a port (R296 to R298) -/

/-- Enter a state and note when. -/
def portTo (n : Nat) (st : Nat) (s : State) : State :=
  putPort s n { port s n with state := BitVec.ofNat 3 st, since := s.clk.time }

/-- An ACTIVE port enters RECAL; the transmit buffer and the replay state are kept (R297). -/
def enterRecal (n : Nat) (s : State) : State :=
  if portActive s n then linkEvent 6 n 1 (portTo n 5 s) else s

/-- EN written (R296; log entry 23): DISABLED leaves for DETECT while the domain is on; clearing EN disables a port that is
not yet up and declares DOWN one that carries traffic. -/
def setPortEn (n : Nat) (en : Bool) (s : State) : State :=
  let s := setPort s n { port s n with en := en }
  let st := (port s n).state.toNat
  if en then if st = 0 ∧ domOn s (portDom n) then portTo n 1 s else s
  else if st = 1 ∨ st = 2 ∨ st = 3 then portTo n 0 s
  else if st = 4 ∨ st = 5 then portDown n s
  else s

/-- The credits a slice advertises (R285). -/
def sliceCredits (n : Nat) : Credits :=
  if n < 6 then { c0 := 8, c1 := 128, c2 := 384, c3 := 512, invsc := 32 }
  else { c0 := 8, c1 := 256, c2 := 256, c3 := 512, invsc := 0 }

/-- The least a far end must advertise (R285). -/
def creditsOk (n : Nat) (c : Credits) : Bool :=
  if n < 6 then decide (8 ≤ c.c0.toNat ∧ 16 ≤ c.c1.toNat ∧ 16 ≤ c.c2.toNat ∧ 4 ≤ c.c3.toNat ∧ 8 ≤ c.invsc.toNat)
  else decide (8 ≤ c.c0.toNat ∧ 64 ≤ c.c1.toNat ∧ 64 ≤ c.c2.toNat ∧ 8 ≤ c.c3.toNat)

/-- The 32 data bytes of the slice's LINKCFG (R295). -/
def linkcfgData (s : State) (n : Nat) : List Byte :=
  let c := sliceCredits n
  let w := if (port s n).degraded then 8 else 16
  [BitVec.ofNat 8 1, BitVec.ofNat 8 n, s.glb.sid, BitVec.ofNat 8 w]
    ++ toBytes 2 c.c0.toNat ++ toBytes 2 c.c1.toNat ++ toBytes 2 c.c2.toNat ++ toBytes 2 c.c3.toNat ++ toBytes 2 c.invsc.toNat
    ++ toBytes 2 1 ++ toBytes 16 0

/-- The port comes up; pool requests that waited for a port are sent (R298). -/
def portUp (n : Nat) (c : Credits) (s : State) : State :=
  let s := putPort s n { port s n with state := 4, upEvt := true, since := s.clk.time }
  let s := modLink s n fun x => { x with cred := c, lastFrame := s.clk.time, lastBlock := s.clk.time, progress := s.clk.time,
                                         pingAt := none }
  let s := linkPump n s
  if n < 6 then s else poolRelease s

/-- The first assembled frame of an opcode. -/
def rxFirst (s : State) (n : Nat) (opc : Nat) : Option Frame := (link s n).rx.find? fun f => f.opc.toNat == opc

/-- A message of link management is taken, whatever its TAG. -/
def takeAny (n : Nat) (opc : Nat) (s : State) : State :=
  match rxFirst s n opc with
  | none => s
  | some f => takeFrame n f s

/-- A port accepts messages: it is ACTIVE and no chip reset has fenced it (R296, R378). -/
def portOpen (s : State) (n : Nat) : Bool :=
  portActive s n && (match s.pwr.resetSt with | .none => true | .warmReq _ => true | .warm _ _ => false | .cold => false)

def execLinkcfg (n : PortId) (cfg : LinkCfg) (s : State) : Host.Outcome State Fault Refusal :=
  answer s <|
    if (port s n).state ≠ 3 then s
    else
      let s := takeAny n 0xC0 s
      let role : Nat := if n.val < 6 then 0 else 2
      if cfg.role.toNat = role ∧ cfg.proto = 1 ∧ creditsOk n cfg.credits then settle (portUp n cfg.credits s)
      else portTo n 2 (setPort s n { port s n with cfgErr := true })

/-- PONG echoes TAG, PART and SA of the PING (R287). -/
def execPing (n : PortId) (s : State) : Host.Outcome State Fault Refusal :=
  answer s <|
    if portActive s n then
      let f := (rxFirst s n 0xC1).getD (Frame.mk0 0xC1 0 0 0 0)
      sendFrame n (Frame.mk0 0xC2 f.tag f.part f.sa 0) (takeAny n 0xC1 s)
    else s

def execPong (n : PortId) (s : State) : Host.Outcome State Fault Refusal :=
  answer s <| if portActive s n then modLink (takeAny n 0xC2 s) n fun x => { x with pingAt := none } else s

def execPingSend (n : PortId) (s : State) : Host.Outcome State Fault Refusal :=
  answer s <|
    if portActive s n ∧ due s (link s n).lastFrame 10000 then
      modLink (sendFrame n (Frame.mk0 0xC1 0 0 0 0) s) n fun x => { x with pingAt := some (x.pingAt.getD s.clk.time) }
    else s

def execPingTimeout (n : PortId) (s : State) : Host.Outcome State Fault Refusal :=
  answer s <|
    match (link s n).pingAt with
    | none => s
    | some t => if portActive s n ∧ due s t 100000 then settle (portDown n s) else s

def execSignalDetect (n : PortId) (s : State) : Host.Outcome State Fault Refusal :=
  answer s <| if (port s n).state = 1 then portTo n 2 s else s

/-- Put a logical lane onto a spare: lane 16, or lane 17 when it is the second. A lane that moves on from lane 16 leaves it. -/
def useSpare (n : Nat) (lane : BitVec 5) (second : Bool) (s : State) : State :=
  let p := port s n
  linkEvent 7 n 1
    (putPort s n { p with spares := p.spares - 1,
                          sub16 := if second then (if p.sub16 = lane then 0x1F else p.sub16) else lane,
                          sub17 := if second then lane else p.sub17 })

/-- Sparing in TRAIN (R296): each failed logical lane goes onto a spare while there is one; what is left makes the port narrow when one
group of eight lanes has no failure. False when both groups have one. -/
def trainSpare (n : Nat) (failed : BitVec 16) (s : State) : Bool × State :=
  let r := (List.range 16).foldl
    (fun a k =>
      if failed.getLsbD k then
        if (port a.2 n).spares = 0 then (setBit a.1 k true, a.2)
        else (a.1, useSpare n (BitVec.ofNat 5 k) ((port a.2 n).sub16 != 0x1F) a.2)
      else a)
    (((0 : BitVec 16), s) : BitVec 16 × State)
  let p := port r.2 n
  if r.1 = 0 then (true, r.2)
  else if r.1.extractLsb' 0 8 ≠ 0 ∧ r.1.extractLsb' 8 8 ≠ 0 then (false, setPort r.2 n { p with failed := p.failed ||| r.1 })
  else (true, putPort r.2 n { p with degraded := true, failed := p.failed ||| r.1 })

def setLaneEq (i : Nat) (x : LaneEq) (s : State) : State := s.onLoops fun l => { l with laneEq := tset LaneEq.zero l.laneEq i x }

/-- The EQ loop of a port. -/
def eqLoop (n : Nat) : Nat := if n < 6 then 2 else 3

/-- A lane of a port and what its equalizer is adapted to, its CTLE code within the limits of the port's loop (R59). -/
def adaptLane (n lane : Nat) (x : LaneEq) (s : State) : State :=
  let l := loopOf s (eqLoop n)
  setLaneEq (16 * n + lane) { x with ctle := BitVec.ofNat 16 (max l.lo.toNat (min l.hi.toNat x.ctle.toNat)) } s

/-- Training is done, its lanes adapted unless their loop is frozen (R59, R61), with these logical lanes found failed: CONFIG, sequence numbers 0, the slice's LINKCFG is sent
(R295, R296). With failures in both groups and no spare left, training goes on (log entry 107). -/
def execTrainDone (x : Trained) (s : State) : Host.Outcome State Fault Refusal :=
  answer s <|
    let n := x.port
    if (port s n).state = 2 then
      let s := if s.loops.frz.getLsbD (eqLoop n) then s else (x.eq.take 16).zipIdx.foldl (fun t e => adaptLane n e.2 e.1 t) s
      let r := trainSpare n x.failed s
      if r.1 then
        let s := portTo n 3 r.2
        let f : Frame := { Frame.mk0 0xC0 0 0 0 0 with data := linkcfgData s n }
        setLink s n { LinkSt.zero with tx := [(f, 0)], lastFrame := s.clk.time, lastBlock := s.clk.time, progress := s.clk.time }
      else r.2
    else s

def execTrainTimeout (n : PortId) (s : State) : Host.Outcome State Fault Refusal :=
  answer s <| if (port s n).state = 2 ∧ due s (port s n).since 50000000 then portTo n 1 s else s

def execConfigTimeout (n : PortId) (s : State) : Host.Outcome State Fault Refusal :=
  answer s <| if (port s n).state = 3 ∧ due s (port s n).since 1000000 then portTo n 2 s else s

/-! ## Replay (R294) -/

/-- Frame flits sent that are not yet acknowledged. -/
def txFlits (x : LinkSt) : Nat := x.tx.length

/-- An ACK or NAK frees the flits below its SEQ and returns credits, with which more flits leave; a SEQ beyond what was
sent frees nothing. -/
def takeAck (n : Nat) (seq : BitVec 10) (c : Credits) (s : State) : State :=
  let x := link s n
  let k := (seq - x.base).toNat
  let cr : Credits := { c0 := satAdd x.cred.c0 c.c0.toNat, c1 := satAdd x.cred.c1 c.c1.toNat, c2 := satAdd x.cred.c2 c.c2.toNat,
                        c3 := satAdd x.cred.c3 c.c3.toNat, invsc := satAdd x.cred.invsc c.invsc.toNat }
  linkPump n <|
  if k = 0 ∨ txFlits x < k then setLink s n { x with cred := cr }
  else setLink s n { x with cred := cr, tx := x.tx.drop k, base := seq, replays := 0, progress := s.clk.time }

/-- Resend from the oldest flit; the third time without progress starts recalibration (R294). -/
def replay (n : Nat) (s : State) : State :=
  let x := link s n
  if txFlits x = 0 then s
  else
    let s := linkEvent 5 n (txFlits x) (setLink s n { x with replays := x.replays + 1, progress := s.clk.time })
    if 2 ≤ x.replays then enterRecal n s else s

def execAck (n : PortId) (seq : BitVec 10) (cred : Credits) (s : State) : Host.Outcome State Fault Refusal :=
  answer s <| if portActive s n then takeAck n seq cred s else s

def execNak (n : PortId) (seq : BitVec 10) (cred : Credits) (s : State) : Host.Outcome State Fault Refusal :=
  answer s <| if portActive s n then replay n (takeAck n seq cred s) else s

/-- A warm reset withholds credits from its fence on (R378 step 1). -/
def withholds (s : State) : Bool := match s.pwr.resetSt with
  | .warm _ _ => true
  | .cold => true
  | _ => false

/-- The slice returns no credits: a warm reset withholds them, or the transmit buffer is full (R297, R378). -/
def noCredits (s : State) (n : Nat) : Bool := withholds s || !(link s n).wait.isEmpty

/-- The slice sends an ACK (CTYPE 0) or NAK (1) with the sequence number it expects and the credits it has freed
(R286, R294). -/
def sendCtrl (n : Nat) (ctype : Nat) (s : State) : State :=
  let keep := noCredits s n
  modLink s n fun x =>
    { x with ctrl := x.ctrl ++ [(BitVec.ofNat 8 ctype, x.expect, if keep then Credits.zero else x.freed, 0)], unacked := 0,
             freed := if keep then x.freed else Credits.zero }

def execAckSendTimer (n : PortId) (s : State) : Host.Outcome State Fault Refusal :=
  answer s <| if portActive s n ∧ ((link s n).unacked ≠ 0 ∨ (link s n).freed ≠ Credits.zero) then sendCtrl n 0 s else s

def execReplayTimeout (n : PortId) (s : State) : Host.Outcome State Fault Refusal :=
  answer s <| if portActive s n ∧ txFlits (link s n) ≠ 0 ∧ due s (link s n).progress 10000 then replay n s else s

def execRecalReq (n : PortId) (s : State) : Host.Outcome State Fault Refusal := answer s (ifUp (portDom n) (portDom n) (enterRecal n) s)

/-- A time limit that began at `t` did not run while the port was in RECAL (R298 edges, R318). -/
def skipRecal (start now t : BitVec 64) : BitVec 64 := if t.toNat ≤ start.toNat then t + (now - start) else now

/-- Back to ACTIVE: the first exchange is an ACK and a replay (R297). The limits of invalidations and pool requests did not
run (R298 edges, R318), nor did that of a PING (R298). -/
def execRecalDone (n : PortId) (s : State) : Host.Outcome State Fault Refusal :=
  answer s <|
    if (port s n).state = 5 then
      let skip := skipRecal (port s n).since s.clk.time
      let s := s.onCache fun c =>
        if n.val < 6 then
          { c with invs := c.invs.map fun o => { o with sent := o.sent.map fun e => if e.1 = n.val then (e.1, skip e.2) else e } }
        else { c with pool := c.pool.map fun q => if q.port.map (·.val + 6) = some n.val then { q with since := skip q.since } else q }
      let s := sendCtrl n 0 (portTo n 4 s)
      let s := linkEvent 5 n (txFlits (link s n)) s
      let s := modLink s n fun x =>
        { x with replays := 0, progress := s.clk.time, lastBlock := s.clk.time, lastFrame := s.clk.time, pingAt := x.pingAt.map skip }
      let s := linkPump n s
      settle (if n.val < 6 then s else poolRelease s)
    else s

def execRecalTimeout (n : PortId) (s : State) : Host.Outcome State Fault Refusal :=
  answer s <| if (port s n).state = 5 ∧ due s (port s n).since 2000000 then settle (portDown n s) else s

def execNoValidBlockTimeout (n : PortId) (s : State) : Host.Outcome State Fault Refusal :=
  answer s <| if portActive s n ∧ due s (link s n).lastBlock 10000 then enterRecal n s else s

/-- The 100 µs of DOWN end: DETECT when EN is 1 and the domain is on, else DISABLED (R296). -/
def execDownQuietEnd (n : PortId) (s : State) : Host.Outcome State Fault Refusal :=
  answer s <|
    if (port s n).state = 6 ∧ due s (port s n).since 100000 then
      let s := setPort s n { port s n with failed := 0 }
      portTo n (if (port s n).en ∧ domOn s (portDom n) then 1 else 0) s
    else s

/-! ## Blocks, flits and frames (R279 to R285) -/

/-- The opcodes a slice receives on a partner port and on a pool port (R288, R292). -/
def opcKnown (n opc : Nat) : Bool :=
  if n < 6 then
    [0x01, 0x02, 0x03, 0x08, 0x09, 0x0A, 0x0B, 0x10, 0x11, 0x12, 0x13, 0x14, 0x18, 0x20, 0x21, 0x30, 0xC0, 0xC1, 0xC2].contains opc
  else [0x48, 0x4A, 0x4B, 0x49, 0x4C, 0xC0, 0xC1, 0xC2].contains opc

/-- Data bytes that a header's opcode calls for; none for an opcode the table does not list. -/
def opcData (n opc : Nat) (aux : Nat) : Option Nat :=
  if !opcKnown n opc then none
  else if opc = 0x08 ∨ opc = 0x09 ∨ opc = 0xC0 then some 32
  else if opc = 0x0A ∨ opc = 0x18 then some 128
  else if opc = 0x0B then some 4096
  else if opc = 0x11 then some 16
  else if opc = 0x10 ∨ opc = 0x12 ∨ opc = 0x13 ∨ opc = 0x14 then some 8
  else if opc = 0x48 then some (32 * popcount (BitVec.ofNat 4 (field aux 16 4)) + 4 * field aux 13 1)
  else some 0

/-- The longest frame of a class in flits (R283). -/
def classMax (c : Fin 4) : Nat := if c = 0 then 2 else if c = 3 then 67 else 3

/-- Flits of a class that the receiver still holds, or has freed without returning their credits. -/
def rxHeld (x : LinkSt) (cls : Fin 4) (invsc : Bool) : Nat :=
  creditOf x.freed cls invsc + (x.rx.filter fun f => f.cls == cls && f.invsc == invsc).foldl (fun n f => n + frameFlits f) 0
    + (x.open_.filter fun o => o.1 == cls && o.2.1 == invsc).foldl (fun n o => n + o.2.2.length) 0

/-- The bytes of content flits in order. -/
def contentBytes (cs : List (BitVec 496)) : List Byte := cs.flatMap fun c => toBytes 62 c.toNat

/-- A frame from its content bytes (R287). -/
def parseFrame (n : Nat) (cls : Fin 4) (invsc : Bool) (bs : List Byte) : Frame :=
  let h := ofBytes (bs.take 16)
  let aux := field h 96 32
  { opc := BitVec.ofNat 8 (field h 0 8), tag := BitVec.ofNat 12 (field h 8 12), part := BitVec.ofNat 5 (field h 20 5),
    var := BitVec.ofNat 3 (field h 25 3), melt := decide (field h 28 1 = 1), chk := decide (field h 29 1 = 1),
    sa := BitVec.ofNat 52 (field h 32 52), aux := BitVec.ofNat 32 aux, cls := cls, invsc := invsc,
    data := (bs.drop 16).take ((opcData n (field h 0 8) aux).getD 0) }

/-- A framing violation: BADFRAME, and the link recalibrates (R286 edges); the flits of the open frames are dropped, and their
credits freed. -/
def badFrame (n : Nat) (s : State) : State :=
  let s := (link s n).open_.foldl (fun t o => freeCredit n o.1 o.2.1 o.2.2.length t) s
  enterRecal n (setPort (modLink s n fun x => { x with open_ := [], resumed := true }) n { port s n with badframe := true })

/-- A complete frame: kept for its command; a reserved opcode is answered BADARG; a length that disagrees with the header is
a violation. -/
def frameDone (n : Nat) (cls : Fin 4) (invsc : Bool) (cs : List (BitVec 496)) (s : State) : State :=
  let f := parseFrame n cls invsc (contentBytes cs)
  match opcData n f.opc.toNat f.aux.toNat with
  | none =>
    sendFrame n { Frame.mk0 0x80 f.tag f.part f.sa cls with aux := respAux stBadarg 0 false } (freeCredit n cls invsc cs.length s)
  | some k =>
    if (16 + k + 61) / 62 ≠ cs.length then badFrame n (freeCredit n cls invsc cs.length s)
    else modLink s n fun x => { x with rx := x.rx ++ [f] }

/-- One received flit (R282 to R285): false after a violation. Every 64 frame flits are acknowledged (R294). -/
def takeFlit (n : Nat) (f : Flit) (s : State) : Bool × State :=
  if f.kind = 3 then (false, badFrame n s)
  else if f.kind ≠ 1 then (true, s)
  else
    let s := linkEvent 1 n 1 (modLink s n fun x => { x with expect := x.expect + 1, unacked := x.unacked + 1, nak := false })
    let s := if 64 ≤ (link s n).unacked then sendCtrl n 0 s else s
    let x := link s n
    let bad (s : State) : Bool × State := (false, badFrame n (freeCredit n f.cls f.invsc 1 s))
    if creditOf (sliceCredits n) f.cls f.invsc ≤ rxHeld x f.cls f.invsc then (false, badFrame n s)
    else
      let start : Bool := match x.open_ with
        | [] => f.sof
        | [o] => f.sof && decide (f.cls < o.1) && x.resumed
        | _ => false
      let goOn : Bool := !f.sof && (match x.open_.getLast? with
        | none => false
        | some o => o.1 == f.cls && o.2.1 == f.invsc)
      if !start ∧ !goOn then bad s
      else
        let o : Fin 4 × Bool × List (BitVec 496) :=
          if start then (f.cls, f.invsc, [f.content])
          else match x.open_.getLast? with
            | some o => (o.1, o.2.1, o.2.2 ++ [f.content])
            | none => (f.cls, f.invsc, [f.content])
        let below := if start then x.open_ else x.open_.dropLast
        if classMax f.cls < o.2.2.length then bad s
        else if f.eof then
          (true, frameDone n f.cls f.invsc o.2.2
            (setLink s n { x with open_ := below, resumed := below.isEmpty }))
        else (true, setLink s n { x with open_ := below ++ [o], resumed := if below.isEmpty then (!start || x.open_.isEmpty) else false })

/-- Symbols that the FEC corrected, by lane: each is counted, and kept for the EQ loop's measure of the last 1 ms (R60, R280). -/
def countSymbols (n : Nat) (lanes : List (Fin 16)) (s : State) : State :=
  linkEvent 2 n lanes.length (modLink s n fun x =>
    { x with symErr := (x.symErr.filter fun e => !due s e.1 1000000) ++ lanes.map fun l => (s.clk.time, l) })

/-- A block has arrived (R280, R294): discarded with a NAK, or its flits are delivered in order. -/
def blockIn (n : Nat) (good : Bool) (corrected : List (Fin 16)) (bseq : BitVec 8) (flits : List Flit) (s : State) : State :=
  let s := countSymbols n corrected s
  let x := link s n
  if !good then
    linkEvent 3 n 1 (linkEvent 4 n 1 (sendCtrl n 1 (setLink s n { x with nak := true })))
  else if bseq ≠ x.expect.setWidth 8 then
    let s := linkEvent 3 n 1 s
    if x.nak then s else linkEvent 4 n 1 (sendCtrl n 1 (setLink s n { x with nak := true }))
  else
    let s := setLink s n { x with lastBlock := s.clk.time }
    (flits.foldl (fun a f => if a.1 then takeFlit n f a.2 else a) (true, s)).2

def execBlockReceived (n : PortId) (good : Bool) (corrected : List (Fin 16)) (bseq : BitVec 8) (flits : List Flit)
    (s : State) : Host.Outcome State Fault Refusal :=
  answer s <|
    if (port s n).state = 3 ∨ (port s n).state = 4 then blockIn n good corrected bseq flits s
    else s

/-! ## Lane sparing (R299) -/

/-- No spare is left: width 8 on a group of lanes without a failed one, or DOWN (R299). -/
def degrade (n : Nat) (lane : BitVec 5) (s : State) : State :=
  let p := port s n
  let f := setBit p.failed lane.toNat true
  let s := setPort s n { p with failed := f }
  if f.extractLsb' 0 8 ≠ 0 ∧ f.extractLsb' 8 8 ≠ 0 then portDown n s
  else enterRecal n (putPort s n { port s n with degraded := true })

/-- LANE of a SPARE_SWITCH (R286). -/
def laneBits (lane : BitVec 5) (second : Bool) : BitVec 6 := BitVec.ofNat 6 (lane.toNat + 32 * b2n second)

/-- A sparing request for a logical lane, from the EQ loop or from PPT_CTL (R299). The block that SPARE_SWITCH names is some number of
blocks sent, which the model does not count (log entry 108). -/
def requestSpare (n : Nat) (lane : BitVec 5) (s : State) : State :=
  let p := port s n
  if !portActive s n ∨ 16 ≤ lane.toNat ∨ (link s n).sparing.isSome then s
  else if p.spares = 0 then degrade n lane s
  else
    let second : Bool := p.sub16 ≠ 0x1F
    let b : BitVec 10 := (freeVal s).1.setWidth 10
    modLink (freeVal s).2 n fun x =>
      { x with sparing := some { lane := lane, spare := second, since := s.clk.time, block := b },
               ctrl := x.ctrl ++ [(2, b, Credits.zero, laneBits lane second)] }

/-- SPARE_SWITCH from the far end: the answer to the slice's own when it names the same block, lane and spare; while that is awaited no
other is taken; else a request that the slice answers for the same block. -/
def execSpareSwitch (n : PortId) (lane : BitVec 5) (spare : Bool) (block : BitVec 10) (s : State) :
    Host.Outcome State Fault Refusal :=
  answer s <|
    let p := port s n
    let free : Bool := if spare then p.sub17 == 0x1F else p.sub16 == 0x1F
    if !portActive s n ∨ 16 ≤ lane.toNat ∨ !free then s
    else
      match (link s n).sparing with
      | some q =>
        if q.lane = lane ∧ q.spare = spare ∧ q.block = block then
          useSpare n lane spare (modLink s n fun x => { x with sparing := none })
        else s
      | none =>
        useSpare n lane spare
          (modLink s n fun x => { x with ctrl := x.ctrl ++ [(2, block, Credits.zero, laneBits lane spare)] })

def execSpareMarginTimeout (n : PortId) (s : State) : Host.Outcome State Fault Refusal :=
  answer s <|
    match (link s n).sparing with
    | none => s
    | some q =>
      if due s q.since 100000 then
        setPort (modLink s n fun x => { x with sparing := none }) n { port s n with spareFail := true }
      else s

def execPptRecal (n : PortId) (s : State) : Host.Outcome State Fault Refusal := answer s (ifUp (portDom n) (portDom n) (enterRecal n) s)

/-- FORCE_DOWN declares a port DOWN that is neither DISABLED nor DOWN already. -/
def forceDown (n : Nat) (s : State) : State :=
  if (port s n).state = 0 ∨ (port s n).state = 6 then s else portDown n s

def execPptForceDown (n : PortId) (s : State) : Host.Outcome State Fault Refusal := answer s (settle (ifUp (portDom n) (portDom n) (forceDown n) s))

def execPptSpare (n : PortId) (lane : BitVec 5) (s : State) : Host.Outcome State Fault Refusal :=
  answer s (settle (ifUp (portDom n) (portDom n) (requestSpare n lane) s))

end Sys2Proof.Machine
end

