-- ==== Sys2Proof/Machine/Coherence.lean ====
section
/-! DEFINITION. Acknowledgements of invalidations, replicas on the half link, and the clearing of a sharer (chapters 5, 8). -/

namespace Sys2Proof.Machine

/-- An invalidation's acknowledgement from a partner (R198 step 3). -/
def execInvAck (port : PartnerPort) (tag : BitVec 12) (sa : Sa) (s : State) : Host.Outcome State Fault Refusal :=
  answer s <|
    if !portActive s port.val then s
    else
      let s := takeRx port.val 0x30 tag s
      settle (s.onCache fun c =>
        { c with invs := c.invs.map fun o =>
            if o.tag = tag ∧ o.line = lineOf sa then { o with ports := setBit o.ports port.val false } else o })

/-- The line of a message. -/
def HalfMsg.line : HalfMsg → Sa
  | .install line _ _ _ _ _ _ => line
  | .inv line _ => line
  | .drop line => line

/-- The first message of a kind with no earlier message for the same line ahead of it, and the rest: the messages for one line are
applied in the order sent, and an invalidation waits for no other line's install (R144, R200, R317; log entry 109). -/
def firstOf (kind : HalfMsg → Bool) : List Sa → List HalfMsg → Option (HalfMsg × List HalfMsg)
  | _, [] => none
  | seen, m :: ms =>
    if kind m && !seen.contains m.line then some (m, ms)
    else (firstOf kind (m.line :: seen) ms).map fun r => (r.1, m :: r.2)

/-- Take the next message of a kind off the half link towards half h. -/
def takeHalf (h : Half) (kind : HalfMsg → Bool) (s : State) : Option (HalfMsg × State) :=
  if domRuns s 5 && domRuns s 6 then
    (firstOf kind [] (h.pick s.cache.toE s.cache.toW)).map fun r =>
      (r.1, s.onCache fun c => match h with
        | .e => { c with toE := r.2 }
        | .w => { c with toW := r.2 })
  else none

def HalfMsg.isInstall : HalfMsg → Bool
  | .install _ _ _ _ _ _ _ => true
  | _ => false

def HalfMsg.isInv : HalfMsg → Bool
  | .inv _ _ => true
  | _ => false

def HalfMsg.isDrop : HalfMsg → Bool
  | .drop _ => true
  | _ => false

/-- The resident copy of a line in half h: the replica, or the home line. -/
def findLine (s : State) (h : Half) (line : Sa) (replica : Bool) : Option Nat :=
  (s.cache.line.find? fun e =>
    !e.2.pinned && e.2.replica == replica && decide (e.2.sv ≠ 0) && (regionHalf (keyRegion e.1) == h)
      && (farSaOf e.2.tag e.1 == line)).map (·.1)

/-- An install that finds no place is dropped, counted and answered by a drop notice (R144 edges). -/
def installDrop (h : Half) (line : Sa) (p : Part) (s : State) : State :=
  cnt 0x009 (some h) (some p) 1 (pushHalf h.other (.drop line) s)

/-- Replicas that are about to take a way of a row. -/
def comingIn (s : State) (k0 : Nat) : Nat :=
  (s.cache.invs.filter fun o => o.key / 8 == k0 / 8 && (match o.act with
    | .install _ _ _ _ _ _ => true
    | _ => false)).length

/-- Put a replica into its set in the requesting half, through the entry that the read's epoch gave (R66, R144, R313): at once
into an empty way, else once its victim is evicted. -/
def install (h : Half) (line : Sa) (p : Part) (d : BitVec 1024) (crcV : Bool) (crc : BitVec 32) (sp : BitVec 4) (gi : Option Nat)
    (s : State) : State :=
  match gi with
  | none => installDrop h line p s
  | some i =>
    let e := gtLive s h i
    if !e.valid then installDrop h line p s
    else
      let k0 := setKey h e.group.toNat (farSet line)
      let s0 := s
      let s := checkRow 1 k0 s
      if wasReset s0 s then s
      else if 2 ≤ ((waysOf k0).filter fun k => (metaAt s k).replica).length + comingIn s k0 then installDrop h line p s
      else
        match victim s k0 with
        | none => installDrop h line p s
        | some (k, s) =>
          if invBusy s k then installDrop h line p s
          else if (metaAt s k).sv = 0 then replicaPut h k line p d crcV crc sp s
          else startInv h k (saOf s k) (.install line p d crcV crc sp) s

def execReplicaInstall (h : Half) (s : State) : Host.Outcome State Fault Refusal :=
  answer s <|
    match takeHalf h HalfMsg.isInstall s with
    | some (.install line p d v c sp gi, s) => settle (install h line p d v c sp gi s)
    | _ => s

/-- A drop notice clears RHELD, unless an invalidation of that replica is still under way (R144). -/
def execReplicaDropNotice (h : Half) (s : State) : Host.Outcome State Fault Refusal :=
  answer s <|
    match takeHalf h HalfMsg.isDrop s with
    | some (.drop line, s) =>
      match findLine s h line false with
      | some k => if invBusy s k then s else setMeta s k { metaAt s k with rheld := false }
      | none => s
    | _ => s

/-- A replica that is about to be stored is given up: its victim is evicted all the same. -/
def cancelInstall (h : Half) (line : Sa) (s : State) : State :=
  s.onCache fun c => { c with invs := c.invs.map fun o => match o.act with
    | .install l _ _ _ _ _ => if o.home = h ∧ l = line then { o with act := .evict } else o
    | _ => o }

/-- An invalidation reaches the replica's half (R144, R198 step 3): acknowledged once the replica and its own sharers are
gone, at once when there is none. -/
def execReplicaInvalidate (h : Half) (s : State) : Host.Outcome State Fault Refusal :=
  answer s <|
    match takeHalf h HalfMsg.isInv s with
    | some (.inv line _, s) =>
      match findLine s h line true with
      | some k => settle (ackWanted k (if invBusy s k then s else startInv h k line .replica s))
      | none => settle (replicaAck h line (cancelInstall h line s))
    | _ => s

/-- The effective invalidation timeout in µs (R203). -/
def invTmo (s : State) : Nat := max 10 s.cch.invTmo.toNat

def execInvTimeout (port : PartnerPort) (s : State) : Host.Outcome State Fault Refusal :=
  answer s <|
    if portActive s port.val ∧ s.cache.invs.any (fun o => o.ports.getLsbD port.val && o.sent.any fun e => e.1 == port.val && due s e.2 (1000 * invTmo s)) then
      settle (portDown port.val (s.onCch fun c => { c with dirErr := setBit c.dirErr port.val true }))
    else s

/-- The sweep that clears sharer bit k in every set row ends (R202). -/
def clearSharer (k : Nat) (s : State) : State :=
  let s := s.cache.line.foldl
    (fun t e => if e.2.sharers.getLsbD k then setMeta t e.1 { e.2 with sharers := setBit e.2.sharers k false } else t) s
  s.onCch fun c => { c with clrBusy := setBit c.clrBusy k false }

def execSharerClearDone (k : Fin 24) (s : State) : Host.Outcome State Fault Refusal :=
  answer s <| if s.cch.clrBusy.getLsbD k.val then clearSharer k.val s else s

/-- The replicas that half h holds. -/
def replicasIn (s : State) (h : Half) : List Nat :=
  (s.cache.line.filter fun e => e.2.replica && !e.2.pinned && (regionHalf (keyRegion e.1) == h)).map (·.1)

/-- The sweep of R327 row 0: every replica in half h is dropped with its own sharers, and replica hits resume once none is
left. -/
def execReplicaSweepDone (h : Half) (s : State) : Host.Outcome State Fault Refusal :=
  answer s <|
    if h.pick s.cache.stopE s.cache.stopW then
      let s := settle ((replicasIn s h).foldl
        (fun t k => if invBusy t k then t else startInv h k (farSaOf (metaAt t k).tag k) .replica t) s)
      if (replicasIn s h).isEmpty then
        s.onCache fun c => match h with
          | .e => { c with stopE := false }
          | .w => { c with stopW := false }
      else s
    else s

end Sys2Proof.Machine
end

