-- ==== Sys2Proof/Machine/Loops.lean ====
section
/-! DEFINITION. Clocks, the timebase's latches and the adaptive loops (R47 to R73). -/

namespace Sys2Proof.Machine

/-! ## Clocks (R70 to R73) -/

/-- The PLL locks: PCLK and the timebase switch to it, and a loader that waits goes on (R70, R387). -/
def execPllLock (s : State) : Host.Outcome State Fault Refusal :=
  answer s <|
    if s.pwr.vaon ∧ !s.clk.pllLock then
      bootGo (s.onClk fun c => { c with pllLock := true, pclkEvt := true })
    else s

/-- Loss of lock: PCLK returns to the crystal and every link recalibrates (R70, R297). -/
def execPllLockLoss (s : State) : Host.Outcome State Fault Refusal :=
  answer s <|
    if s.clk.pllLock then
      (List.range 8).foldl (fun t n => enterRecal n t) (s.onClk fun c => { c with pllLock := false, pclkEvt := true })
    else s

/-- No crystal edge for 1 µs while the PLL is locked (R73). -/
def execXtalFail (s : State) : Host.Outcome State Fault Refusal :=
  answer s (s.onClk fun c => { c with xtalOn := false, xtalFail := c.xtalFail || c.pllLock })

/-- Index of a requester's latch. -/
def latchIdx (r : Requester) : Nat :=
  match r with
  | .port p => p.val
  | .thread t => 6 + t.val
  | .svet => 78
  | .boot => 79

/-- A 32-bit read of LOOP_TIME[31:0]: the low word, and the state with the high word latched (R72). -/
def timeLow (r : Requester) (s : State) : BitVec 32 × State :=
  (s.clk.time.extractLsb' 0 32,
   s.onClk fun c => { c with latch := tset none c.latch (latchIdx r) (some (c.time.extractLsb' 32 32)) })

/-- A 32-bit read of LOOP_TIME[63:32]: the latched word, which it takes, or the live one (R72). -/
def timeHigh (r : Requester) (s : State) : BitVec 32 × State :=
  match tget none s.clk.latch (latchIdx r) with
  | none => (s.clk.time.extractLsb' 32 32, s)
  | some v => (v, s.onClk fun c => { c with latch := tset none c.latch (latchIdx r) none })

/-- Where the value of such a read goes when the read is a command of its own. -/
def showRead (x : BitVec 32 × State) : State := x.2.onClk fun c => { c with read := x.1 }

def execLoopTimeLowRead (r : Requester) (s : State) : Host.Outcome State Fault Refusal := answer s (showRead (timeLow r s))
def execLoopTimeHighRead (r : Requester) (s : State) : Host.Outcome State Fault Refusal := answer s (showRead (timeHigh r s))

/-! ## Loops in general (R48 to R50) -/

def setLoop (n : Nat) (l : Loop) (s : State) : State := s.onLoops fun x => { x with loop := tset (Loop.reset n) x.loop n l }

def loopFrozen (s : State) (n : Nat) : Bool := s.loops.frz.getLsbD n

/-- The loop drives its output. -/
def loopLive (s : State) (n : Nat) : Bool := (loopOf s n).en && !loopFrozen s n

/-- The loop's half has its pipeline or its datapath on, so it evaluates (R52 edges); EQ belongs to no half. -/
def loopOn (s : State) (n : Nat) : Bool :=
  n == 2 || n == 3 || (if n % 2 = 0 then domRuns s 3 || domRuns s 5 else domRuns s 4 || domRuns s 6)

def clampTo (lo hi v : Int) : Int := max lo (min hi v)

/-- The output that software has written since the last evaluation, else the one in force (R50). -/
def loopOut (l : Loop) : BitVec 16 := l.written.getD l.value

/-- What an evaluation leaves: MEAS, VALUE, and whether VALUE equals a limit (R48). -/
def Loop.took (l : Loop) (meas value : BitVec 16) : Loop :=
  { l with measure := meas, value := value, written := none, atLo := value == l.lo, atHi := value == l.hi }

/-- Where accepted LIMITS that exclude a VALUE move it: to the nearer limit (R50). -/
def nearer (lo hi old want : Int) : Int := if old < lo then lo else if hi < old then hi else clampTo lo hi want

/-- One evaluation (R48 to R50): MEAS is `meas`, the law asks for `want` (its present VALUE to hold); `wrong` says that MEAS is
on the wrong side of TARGET, and `up` that VALUE would have to rise to answer it. A frozen loop keeps all but VALUE up to date. -/
def loopStep (n : Nat) (meas : BitVec 16) (want : Int) (wrong up : Bool) (s : State) : State :=
  let l := loopOf s n
  let lo : Int := l.lo.toNat
  let hi : Int := l.hi.toNat
  let live := loopLive s n
  let old : Int := (loopOut l).toNat
  let v : BitVec 16 := if live then BitVec.ofInt 16 (nearer lo hi old want) else loopOut l
  let stuck : Bool := !live || (if up then decide (hi ≤ old) else decide (old ≤ lo))
  setLoop n { l.took meas v with sat := l.sat || (l.en && decide (want ≠ old ∧ (want < lo ∨ hi < want))),
                                 miss := l.miss || (wrong && stuck) } s

/-! ## Latency-regulated supply (R53 to R58) -/

def avsOf (s : State) (h : Half) : Avs := h.pick s.loops.avsE s.loops.avsW
def setAvs (h : Half) (a : Avs) (s : State) : State :=
  s.onLoops fun l => match h with
    | .e => { l with avsE := a }
    | .w => { l with avsW := a }

/-- Command a voltage with commit, and read it back 10 µs later (R55, R57); a regulator in fault is not written. -/
def avsWrite (h : Half) (mv : BitVec 16) (s : State) : State :=
  if (loopOf s h.idx).devFault then s
  else
    let a := avsOf s h
    setAvs h { a with cmds := (s.clk.time, mv) :: a.cmds, writes := a.writes ++ [(s.clk.time, mv)],
                      reads := a.reads ++ [s.clk.time + 10000] } s

/-- The predicted latency of a ring, by the trim of the boot image; a ring in a domain that is off takes no part (R53). -/
def ringAt (s : State) (h : Half) (d k : Nat) (r : BitVec 16) : Nat :=
  if domRuns s d then (Config.ringLatency (tget 0 s.loops.trim (4 * h.idx + k)) r).toNat else 0

/-- MEAS: the slowest of the four rings (R53). -/
def ringMax (s : State) (h : Half) (seqR tagR dataR linkR : BitVec 16) : BitVec 16 :=
  BitVec.ofNat 16 (max (max (ringAt s h (h.pick 1 2) 0 seqR) (ringAt s h (h.pick 3 4) 1 tagR))
    (max (ringAt s h (h.pick 5 6) 2 dataR) (ringAt s h (h.pick 5 6) 3 linkR)))

/-- The LRS law (R54): the VALUE wanted. A VALUE that new LIMITS exclude moves towards them at the step rate (R50): up by 20 mV, the larger of the
law's two raises, which of the two is the model's choice (log entry 113), and down by 5 mV. -/
def lrsWant (s : State) (n : Nat) (meas : Nat) : Int :=
  let l := loopOf s n
  let m := tget LoopMem.reset s.loops.mem n
  let v : Int := (loopOut l).toNat
  let t := l.target.toNat
  let mayRaise := longAgo s m.lastRaise 2000
  let mayLower := longAgo s m.lastLower 20000
  if v < l.lo.toNat then (if mayRaise then min (v + 20) l.lo.toNat else v)
  else if v > l.hi.toNat then (if mayLower then max (v - 5) l.hi.toNat else v)
  else if t + 16 < meas then (if mayRaise then v + 20 else v)
  else if t < meas then (if mayRaise then v + 5 else v)
  else if t ≤ meas + l.hyst.toNat then v
  else if mayLower then v - 5 else v

/-- The evaluation of an LRS loop, every 1 µs (R54); with its regulator in fault it updates MEAS and MISS only (R57), and a loop that is
not enabled commands VALUE when it has changed (R58). -/
def execLrsEvaluate (h : Half) (seqR tagR dataR linkR : BitVec 16) (s : State) : Host.Outcome State Fault Refusal :=
  answer s <|
    let n := h.idx
    if !longAgo s (tget LoopMem.reset s.loops.mem n).last 1000 ∨ !loopOn s n then s
    else
      let meas := ringMax s h seqR tagR dataR linkR
      let l := loopOf s n
      let wrong : Bool := decide (l.target.toNat < meas.toNat)
      let s' := modLoopMem s n fun m => { m with last := some s.clk.time }
      if l.devFault then setLoop n { l with measure := meas, miss := l.miss || wrong } s'
      else
        let o := loopOut l
        let out : Bool := decide (o.toNat < l.lo.toNat ∨ l.hi.toNat < o.toNat)
        let want := lrsWant s n meas.toNat
        let t : State :=
          if out ∧ loopLive s n then setLoop n { l.took meas (BitVec.ofInt 16 want) with miss := l.miss || wrong } s'
          else loopStep n meas want wrong true s'
        let v := (loopOf t n).value
        if v = l.value then t
        else
          let t := modLoopMem t n fun m =>
            if !loopLive s n then m
            else if l.value.toNat < v.toNat then { m with lastRaise := some s.clk.time } else { m with lastLower := some s.clk.time }
          avsWrite h v t

/-- A regulator fault: no more writes (R57). -/
def avsFault (h : Half) (s : State) : State :=
  let s := setLoop h.idx { loopOf s h.idx with devFault := true } s
  setAvs h { avsOf s h with writes := [], reads := [], fails := 0 } s

/-- The command committed last at least 2 µs before a time, and those after it. -/
def avsRefs (cmds : List (BitVec 64 × BitVec 16)) (t : Nat) : List (BitVec 64 × BitVec 16) :=
  let later := cmds.takeWhile fun c => decide (t < c.1.toNat + 2000)
  later ++ (cmds.drop later.length).take 1

def near10 (a b : Nat) : Bool := decide (a ≤ b + 10 ∧ b ≤ a + 10)

/-- A transaction that failed: the third in a row is a regulator fault (R57). -/
def avsFailed (h : Half) (a : Avs) (s : State) : State :=
  if 2 ≤ a.fails then avsFault h s else setAvs h { a with fails := a.fails + 1 } s

/-- A transaction on a half's AVSBus has ended (R55, R57): the oldest voltage write, the oldest read-back that is due, once no write made
before it is unanswered, or a status read. A voltage write that failed has committed nothing and is not sent again
(log entry 125). -/
def execAvsReadback (h : Half) (r : AvsResult) (s : State) : Host.Outcome State Fault Refusal :=
  answer s <|
    let a := avsOf s h
    match r with
    | .written ok =>
      match a.writes with
      | [] => s
      | w :: rest =>
        if ok then setAvs h { a with writes := rest, fails := 0 } s
        else avsFailed h { a with writes := rest, cmds := a.cmds.erase w } s
    | .voltage mv =>
      match a.reads with
      | [] => s
      | t :: rest =>
        if s.clk.time.toNat < t.toNat ∨ (a.writes.any fun w => decide (w.1.toNat ≤ t.toNat)) then s
        else
          match mv with
          | none => avsFailed h { a with reads := rest } s
          | some mv =>
            let refs := avsRefs a.cmds t.toNat
            if !(refs.any fun c => near10 mv.toNat c.2.toNat) then avsFault h s
            else setAvs h { a with reads := rest, fails := 0, cmds := refs } s
    | .status none => avsFailed h a s
    | .status (some fault) => if fault then avsFault h s else setAvs h { a with fails := 0 } s

/-! ## Equalisation (R59 to R61) -/

/-- The ports of EQ_F, or of EQ_P. -/
def eqPorts (pool : Bool) : List Nat := if pool then [6, 7] else List.range 6

/-- The logical lanes that carry a port's traffic: all 16, or at width 8 the group without a failed lane (R299). -/
def activeLanes (s : State) (n : Nat) : List (Fin 16) :=
  let p := port s n
  (List.finRange 16).filter fun l =>
    !p.degraded || (if p.failed.extractLsb' 0 8 = 0 then decide (l.val < 8) else decide (8 ≤ l.val))

/-- The measured lanes of an EQ loop, by number 16 port + lane, each with its error ratio over the last 1 ms (R60). -/
def laneRatios (s : State) (pool : Bool) : List (Nat × BitVec 16) :=
  ((eqPorts pool).filter (portLive s)).flatMap fun n =>
    let errs := ((link s n).symErr.filter fun e => !due s e.1 1000000).map (·.2)
    (activeLanes s n).map fun l => (16 * n + l.val, Config.errorRatio (errs.count l))

/-- The worst ratio: the lowest (R60). -/
def worstRatio (rs : List (Nat × BitVec 16)) : BitVec 16 := rs.foldl (fun b e => if e.2.toNat < b.toNat then e.2 else b) 0xFFFF

/-- The lanes that are worse than TARGET now, each with the time since when (R60). -/
def worseLanes (s : State) (old : List (Nat × BitVec 64)) (target : Nat) (rs : List (Nat × BitVec 16)) : List (Nat × BitVec 64) :=
  (rs.filter fun e => decide (e.2.toNat < target)).map fun e =>
    (e.1, match old.find? fun x => x.1 == e.1 with
      | some x => x.2
      | none => s.clk.time)

/-- Request sparing of a lane that has been worse than TARGET for 1 ms (R60): its time starts over once the request is taken. -/
def eqSpare (k : Nat) (x : Nat × BitVec 64) (s : State) : State :=
  let n := x.1 / 16
  if due s x.2 1000000 ∧ portActive s n ∧ (link s n).sparing.isNone then
    requestSpare n (BitVec.ofNat 5 (x.1 % 16)) (modLoopMem s k fun m => { m with worse := m.worse.erase x })
  else s

/-- The lanes after an evaluation of EQ loop k: a code that software has written goes to each of them (R50); a loop that drives its output has
adapted one of them, and VALUE is the code it took; a frozen one keeps them (R61; log entry 132). -/
def eqLanes (k : Nat) (lanes : List Nat) (i : Nat) (taps : BitVec 16) (written live : Bool) (s : State) : State :=
  let v := (loopOf s k).value
  let s := if written then lanes.foldl (fun t j => setLaneEq j { tget LaneEq.zero t.loops.laneEq j with ctle := v } t) s else s
  if live ∧ i ∈ lanes then setLaneEq i { ctle := v, taps := taps } s else s

/-- An EQ loop's evaluation (R59, R60): with no lane of its ports in use it has no input. A frozen or disabled loop requests no sparing (R61). -/
def execEqLoopEvaluate (pool : Bool) (n : PortId) (lane : Fin 16) (taps : BitVec 16) (dfeEnd : Bool) (code : BitVec 16) (s : State) :
    Host.Outcome State Fault Refusal :=
  answer s <|
    let k := if pool then 3 else 2
    let rs := laneRatios s pool
    if rs.isEmpty then s
    else
      let worst := worstRatio rs
      let l := loopOf s k
      let t := loopStep k worst code.toNat (decide (worst.toNat < l.target.toNat)) true s
      let t := if dfeEnd then setLoop k { loopOf t k with sat := true } t else t
      let bad := worseLanes s (tget LoopMem.reset s.loops.mem k).worse l.target.toNat rs
      let t := eqLanes k (rs.map (·.1)) (16 * n.val + lane.val) taps l.written.isSome (loopLive s k) (modLoopMem t k fun m => { m with worse := bad })
      if loopLive s k then settle (bad.foldl (fun u x => eqSpare k x u) t) else t

/-! ## Threshold loops (R62 to R64) -/

/-- The VALUE in force, moved into the limits: what a law that holds asks for. -/
def loopHold (s : State) (n : Nat) : Int :=
  let l := loopOf s n
  clampTo l.lo.toNat l.hi.toNat (loopOut l).toNat

/-- The evaluation of a loop that counts is due: take what was counted (R62, R67). -/
def takeReady (n : Nat) (s : State) : Option ((Nat × Nat) × State) :=
  match (tget LoopMem.reset s.loops.mem n).ready with
  | [] => none
  | e :: rest => some (e, modLoopMem s n fun m => { m with ready := rest })

/-- The evaluations in a row in which MEAS stood far below TARGET, this one included, and what is kept of them: after `size` of them the law acts and
the run starts over, which the spec does not say (log entry 114). -/
def lowRun (size : Nat) (low : Bool) (old : Nat) : Bool × Nat :=
  if !low then (false, 0) else if size ≤ old + 1 then (true, 0) else (false, old + 1)

/-- SCRUB, after each completed patrol pass and every 60 min (R62): MEAS is the corrected errors since the last evaluation, per hour (log
entry 26). -/
def execScrubLoopEvaluate (h : Half) (s : State) : Host.Outcome State Fault Refusal :=
  answer s <|
    let n := 4 + h.idx
    let m := tget LoopMem.reset s.loops.mem n
    let hourly := due s m.hour 3600000000000
    if m.ready.isEmpty ∧ !hourly then s
    else
      let s' := modLoopMem s n fun m =>
        { m with ready := m.ready.tail, hour := if hourly then s.clk.time else m.hour, hits := 0, last := some s.clk.time }
      if !loopOn s n then s'
      else
        let meas := min 0xFFFF (m.hits * 3600000000000 / max 1 (elapsed s (m.last.getD m.hour)))
        let l := loopOf s n
        let t := l.target.toNat
        let low := lowRun 4 (decide (4 * meas < t)) m.low
        let want : Int :=
          if t < meas then ((loopOut l).toNat / 2 : Nat) else if low.1 then 2 * (loopOut l).toNat else loopHold s n
        loopStep n (BitVec.ofNat 16 meas) want (decide (t < meas)) false (modLoopMem s' n fun m => { m with low := low.2 })

/-- TEMP as a signed number of 0.125 °C (R40). -/
def tempOf (s : State) (n : Nat) : Int := (tget 0 s.sense.temp n).toInt

/-- The hottest valid array sensor of a half (R47). -/
def hottest (s : State) (h : Half) : Option Int :=
  (((List.range 6).map fun i => 8 + 6 * h.idx + i).filter fun n => tget false s.sense.valid n).foldl
    (fun b n => match b with
      | none => some (tempOf s n)
      | some x => some (max x (tempOf s n))) none

/-- The loop has a valid input; without one MEAS reads 0 (R48, R52 edges). -/
def loopInput (s : State) (n : Nat) : Bool :=
  if n = 2 ∨ n = 3 then !(laneRatios s (decide (n = 3))).isEmpty
  else loopOn s n && (if n = 6 ∨ n = 7 then (hottest s (Half.ofBool (decide (n = 7)))).isSome else true)

/-- The window the temperature calls for, in ms (R62). -/
def refrLaw (meas target : Int) : Nat :=
  if meas ≤ target then 64
  else
    let d := (meas - target).toNat
    max 8 (64 / 2 ^ ((d + 79) / 80))

/-- REFR, every 100 µs (R62, R64): LO never holds the window longer than the law (log entry 27). -/
def execRefrLoopEvaluate (h : Half) (s : State) : Host.Outcome State Fault Refusal :=
  answer s <|
    let n := 6 + h.idx
    if !longAgo s (tget LoopMem.reset s.loops.mem n).last 100000 ∨ !loopOn s n then s
    else
      let l := loopOf s n
      let s' := modLoopMem s n fun m => { m with last := some s.clk.time }
      match hottest s h with
      | none => setLoop n (l.took 0 8) s'
      | some m =>
        let law := refrLaw m l.target.toNat
        let o := loopOut l
        let wrong : Bool := decide ((l.target.toNat : Int) < m)
        let meas := BitVec.ofInt 16 m
        let sat : Bool := l.sat || (l.en && decide (law < l.lo.toNat ∨ l.hi.toNat < law))
        if loopLive s n then
          let v := min law (if o.toNat < l.lo.toNat then l.lo.toNat else l.hi.toNat)
          setLoop n { l.took meas (BitVec.ofNat 16 v) with sat := sat, miss := l.miss || (wrong && decide (o.toNat ≤ l.lo.toNat)) } s'
        else if law < o.toNat then
          let s' := s'.onLoops fun x => { x with frz := setBit x.frz n false }
          setLoop n { l.took meas (BitVec.ofNat 16 law) with en := true, sat := sat, frzBrk := true, miss := l.miss || wrong } s'
        else setLoop n { l.took meas o with sat := sat, miss := l.miss || wrong } s'

/-- PREF, after every 1,024 prefetches issued (R62, R134). Without a prefetch that ended there is no ratio, on which the spec is silent: MEAS reads 0 and the
loop holds (log entry 115). -/
def execPrefLoopEvaluate (h : Half) (s : State) : Host.Outcome State Fault Refusal :=
  answer s <|
    let n := 8 + h.idx
    match takeReady n s with
    | none => s
    | some ((ended, hits), s) =>
      if !loopOn s n then s
      else if ended = 0 then loopStep n 0 (loopHold s n) false false s
      else
        let meas := hits * 256 / ended
        let t := (loopOf s n).target.toNat
        let v : Int := (loopOut (loopOf s n)).toNat
        let want := if t < meas then v - 1 else if 2 * meas < t then v + 1 else loopHold s n
        loopStep n (BitVec.ofNat 16 meas) want (decide (t < meas)) false s

/-- SLOT, after every 256 tests: MEAS is how many of them ran in a forced slot (R62). -/
def execSlotLoopEvaluate (h : Half) (s : State) : Host.Outcome State Fault Refusal :=
  answer s <|
    let n := 10 + h.idx
    match takeReady n s with
    | none => s
    | some ((_, meas), s) =>
      if !loopOn s n then s
      else
        let t := (loopOf s n).target.toNat
        let low := lowRun 16 (decide (2 * meas < t)) (tget LoopMem.reset s.loops.mem n).low
        let s := modLoopMem s n fun m => { m with low := low.2 }
        let v : Int := (loopOut (loopOf s n)).toNat
        let want := if t < meas then v - 1 else if low.1 then v + 1 else loopHold s n
        loopStep n (BitVec.ofNat 16 meas) want (decide (t < meas)) false s

/-- DRIFT, after each 256 replicas that left: MEAS is how many of them were useful (R67). -/
def execDriftLoopEvaluate (h : Half) (s : State) : Host.Outcome State Fault Refusal :=
  answer s <|
    let n := 12 + h.idx
    match takeReady n s with
    | none => s
    | some ((_, meas), s) =>
      if !loopOn s n then s
      else
        let t := (loopOf s n).target.toNat
        let v : Int := (loopOut (loopOf s n)).toNat
        let want := if meas < t then v + 1 else if t + 32 < meas then v - 1 else loopHold s n
        loopStep n (BitVec.ofNat 16 meas) want (decide (meas < t)) true s

/-! ## Writes of loop registers (R50) -/

/-- Hard bounds of LIMITS (R47). -/
def hardBounds (n : Nat) : Nat × Nat :=
  if n < 2 then (600, 900) else if n < 4 then (0, 31) else if n < 6 then (1, 1440) else if n < 8 then (8, 64)
  else if n < 10 then (0, 16) else if n < 12 then (16, 26) else (2, 15)

def limitsOk (n lo hi : Nat) : Bool :=
  decide (lo ≤ hi ∧ (hardBounds n).1 ≤ lo ∧ hi ≤ (hardBounds n).2)

def targetOk (n t : Nat) : Bool :=
  if n < 2 then decide (224 ≤ t ∧ t ≤ 304) else if n = 6 ∨ n = 7 then decide (t ≤ 560) else true

/-- A refused write. -/
def loopCfgErr (n : Nat) (s : State) : State := setLoop n { loopOf s n with cfgErr := true } s

/-- A write of one of a loop's registers, at offset 0, 4, 8 or 12 of its block. The loop reads its registers when it evaluates next; the output that a write
of CURRENT asks for takes the place of VALUE there too (R50; log entry 110). -/
def loopWrite (n reg : Nat) (v : BitVec 32) (s : State) : State :=
  let l := loopOf s n
  if reg = 0 then setLoop n { l with en := bit v 0, hyst := if n < 2 then v.extractLsb' 8 8 else 0 } s
  else if reg = 4 then
    if targetOk n (v.toNat % 65536) then setLoop n { l with target := v.extractLsb' 0 16 } s else loopCfgErr n s
  else if reg = 8 then
    if limitsOk n (v.toNat % 65536) (v.toNat / 65536) then
      setLoop n { l with lo := v.extractLsb' 0 16, hi := v.extractLsb' 16 16 } s
    else loopCfgErr n s
  else if loopLive s n then s
  else
    let x := v.toNat % 65536
    if x < l.lo.toNat ∨ l.hi.toNat < x then loopCfgErr n s else setLoop n { l with written := some (BitVec.ofNat 16 x) } s

/-- Some logic domain that the half's VCORE supplies is on (R375). -/
def halfLogic (s : State) (h : Half) : Bool := domRuns s (h.pick 1 2) || domRuns s (h.pick 3 4) || domRuns s (h.pick 5 6)

/-- A write of 1s to LOOP_STAT; clearing DEV_FAULT resumes the regulator's writes with the present VALUE (R57), unless the half's logic is all
off (R375). -/
def loopStatWrite (n : Nat) (v : BitVec 32) (s : State) : State :=
  let l := loopOf s n
  let s := setLoop n { l with sat := l.sat && !bit v 2, miss := l.miss && !bit v 3, cfgErr := l.cfgErr && !bit v 4,
                              frzBrk := l.frzBrk && !bit v 5, devFault := l.devFault && !bit v 6 } s
  if l.devFault ∧ bit v 6 ∧ n < 2 ∧ halfLogic s (Half.ofBool (decide (n = 1))) then avsWrite (Half.ofBool (decide (n = 1))) l.value s else s

end Sys2Proof.Machine
end

