-- ==== Sys2Proof/Machine/PoolMsgs.lean ====
section
/-! DEFINITION. What the shelf's messages do: fills, acknowledgements, offers, error reports (R137, R292, R318, R329, R331). -/

namespace Sys2Proof.Machine

/-- Bits of the sectors in a mask. -/
def sectorBits (mask : BitVec 4) : BitVec 1024 :=
  BitVec.ofNat 1024 ((List.range 4).foldl (fun n j => n + (if mask.getLsbD j then (2 ^ 256 - 1) * 2 ^ (256 * j) else 0)) 0)

/-- A line-CRC mismatch is recorded and sets INT_STAT.CRC (R331, R345). -/
def crcRecord (r : Rec) (s : State) : State := writeRec r (s.onInteg fun i => { i with crc := true })

/-- Store the sectors of a fill into the way of its register (R121, R136 edges). -/
def storeFill (q : Mshr) (mask poison : BitVec 4) (d : BitVec 1024) (s : State) : State :=
  let m := metaAt s q.key
  let b := sectorBits mask
  let d := (lineData s q.key &&& ~~~b) ||| (d &&& b)
  let s := storeLine q.key q.line d { m with sv := m.sv ||| mask, sp := (m.sp &&& ~~~mask) ||| (poison &&& mask) } s
  chargeOwn q.home (putMshr { q with fetch := q.fetch &&& ~~~mask } s)

/-- A fill has arrived whole and unspoiled, or its second mismatch poisons it. -/
def deliverFill (q : PoolReq) (mask poison : BitVec 4) (d : BitVec 1024) (s : State) : State :=
  match q.who with
  | .mshr =>
    match mshrOf s q.home q.line with
    | none => s
    | some m => storeFill m mask poison d s
  | .uncached r =>
    answerReq r { LineRes.st 0 with poison := poison, data := d, lcrc := lineCrc d (lineIdx q.line), untrk := true } none s
  | .atu id =>
    match findAtom s q.home id with
    | some a => putAtom q.home { a with copy := .held d poison } s
    | none =>
      match findAddl s q.home id with
      | some a => putAddl q.home { a with copy := .held d poison } s
      | none => s
  | .none => s

/-- The outstanding request that an answer names: its kind, its tag and the port it was sent on. -/
def findPool (s : State) (f : Fin 2) (tag : BitVec 12) (kinds : List PoolKind) : Option PoolReq :=
  s.cache.pool.find? fun q => kinds.contains q.kind && q.tag == tag && q.port == some f

def dropPool (q : PoolReq) (s : State) : State := s.onCache fun c => { c with pool := c.pool.erase q }

def fillArrive (q : PoolReq) (status : Nat) (poison mask : BitVec 4) (crc : Option (BitVec 32)) (d : BitVec 1024)
    (s : State) : State :=
  let s := dropPool q s
  if status ≠ 0 then failFill q s
  else
    let m := mask &&& q.mask
    let bad : Bool := match crc with
      | none => false
      | some c => mask == 15 && q.mask == 15 && !(lineCrc d (lineIdx q.line) == c)
    let r : Rec := { Rec.mk0 5 2 q.home with sa := some q.line, expect := crc.getD 0, actual := lineCrc d (lineIdx q.line) }
    let s := if crc.isSome ∧ mask = 15 then countOps q.home 18 2 1 s else s
    if bad ∧ q.var = 0 then
      let t := poolTag s
      poolSend { q with tag := t.1, var := 1, port := none } (crcRecord r t.2)
    else if bad then
      let s := crcRecord { r with sect := 15, action := 2 } s
      deliverFill q 15 15 d (poisonCreated { Rec.mk0 2 2 q.home with sa := some q.line } 15 q.home s)
    else
      let s := deliverFill q m poison d s
      if m = q.mask then s else s.onCache fun c => { c with pool := c.pool ++ [{ q with mask := q.mask &&& ~~~m }] }

def execFilld (f : Fin 2) (tag : BitVec 12) (sa : Sa) (status : BitVec 8) (poison mask : BitVec 4)
    (crc : Option (BitVec 32)) (data : BitVec 1024) (s : State) : Host.Outcome State Fault Refusal :=
  answer s <|
    if !portActive s (6 + f.val) then s
    else
      let s := takeRx (6 + f.val) 0x48 tag s
      match findPool s f tag [.fill] with
      | none => s
      | some q => if lineOf q.line = lineOf sa then settle (fillArrive q status.toNat poison mask crc data s) else s

/-- A shelf that stored a line poisoned or discarded it answers CHECK, which is recorded with class SHELF (R329). -/
def shelfRecord (r : Rec) (type lines : Nat) (s : State) : State :=
  writeRec { r with detail := BitVec.ofNat 128 (type + lines * 256) } (s.onInteg fun i => { i with shelf := true })

def wackArrive (q : PoolReq) (status : Nat) (s : State) : State :=
  let s := dropPool q s
  let s := if status = stCheck then shelfRecord { Rec.mk0 8 3 q.home with sa := some (lineOf q.line), part := some q.part } 0xFE 0 s else s
  match q.who with
  | .uncached r =>
    let s := wakeWaits (lineOf q.line) s
    match r.op with
    | .write mask d =>
      let rest := if q.var = 0 then 0 else withoutSector mask (firstSector mask)
      if status = 0 ∧ rest ≠ 0 then sendWt r.home (lineOf r.sa) r.part rest d (.uncached { r with op := .write rest d }) s
      else answerReq r (LineRes.st status) none s
    | _ => answerReq r (LineRes.st status) none s
  | .atu id =>
    match findAtom s q.home id with
    | some a =>
      let old : Nat := match a.copy with
        | .writing v => v.toNat
        | _ => 0
      answerAtom a q.home false old (dropAtom q.home id (wakeWaits (lineOf a.sa) s))
    | none => wakeWaits (lineOf q.line) s
  | _ => s

def execWack (f : Fin 2) (tag : BitVec 12) (sa : Sa) (status : BitVec 8) (s : State) : Host.Outcome State Fault Refusal :=
  answer s <|
    if !portActive s (6 + f.val) then s
    else
      let s := takeRx (6 + f.val) 0x49 tag s
      match findPool s f tag [.wb, .wt, .offd] with
      | none => s
      | some q => if lineOf q.line = lineOf sa then settle (wackArrive q status.toNat s) else s

/-- The offer with this tag, when the buffer still holds it. -/
def findOffer (s : State) (tag : BitVec 12) (sa : Sa) : Option Offer :=
  s.cache.offers.find? fun o => o.tag == tag && o.line == lineOf sa

def dropOffer (o : Offer) (s : State) : State := s.onCache fun c => { c with offers := c.offers.erase o }

/-- ACCEPT: the data as OFFD; a mask of 0 once the offer is gone (R137, R292). -/
def execAccept (f : Fin 2) (tag : BitVec 12) (sa : Sa) (s : State) : Host.Outcome State Fault Refusal :=
  answer s <|
    if !portActive s (6 + f.val) then s
    else
      let s := takeRx (6 + f.val) 0x4A tag s
      match findOffer s tag sa with
      | some o =>
        settle (cnt 0x013 (some o.home) none 1
          (sendOffd o.home o.line o.part (o.valid &&& ~~~o.poison) o.data (if o.poison = 0 then o.lcrc else none) o.tag (dropOffer o s)))
      | none => settle (sendOffd .e (lineOf sa) 0 0 0 none tag s)

/-- The slot is freed and the offer counted as declined or timed out. -/
def declineOffer (o : Offer) (s : State) : State := cnt 0x014 (some o.home) none 1 (dropOffer o s)

def execDecline (f : Fin 2) (tag : BitVec 12) (sa : Sa) (s : State) : Host.Outcome State Fault Refusal :=
  answer s <|
    if !portActive s (6 + f.val) then s
    else
      let s := takeRx (6 + f.val) 0x4B tag s
      match findOffer s tag sa with
      | some o => declineOffer o s
      | none => s

def execOfferTimeout (h : Half) (tag : BitVec 12) (s : State) : Host.Outcome State Fault Refusal :=
  answer s <|
    match s.cache.offers.find? fun o => o.home == h && o.tag == tag with
    | some o => if due s o.since 10000 then declineOffer o s else s
    | none => s

/-- A resident line of a shelf report becomes dirty in every valid, unpoisoned sector (R329). -/
def serrLine (key : Nat) (s : State) : State :=
  let m := metaAt s key
  setMeta s key { m with sd := m.sd ||| (m.sv &&& ~~~m.sp) }

/-- The resident FAR lines, replicas apart, whose address lies in a run. -/
def residentIn (s : State) (first count : Nat) : List Nat :=
  (s.cache.line.filter fun e =>
    let a := (farSaOf e.2.tag e.1).toNat
    !e.2.pinned && !e.2.replica && decide (e.2.sv ≠ 0) && decide (first ≤ a ∧ a < first + 128 * count)).map (·.1)

/-- The order of SERR_ACK's statuses (R329). -/
def serrStatus (s : State) (sa : Sa) (etype : Nat) : Nat :=
  match decodeSa s s.cur sa with
  | .error e => e
  | .ok (.far h) => if !homeUp s h then stUnavailable else if 1 < etype then stBadarg else stOk
  | .ok _ => stAddress

/-- The home half of a reported line. -/
def serrHalf (s : State) (sa : Sa) : Half :=
  match decodeSa s s.cur sa with
  | .ok (.far h) => h
  | _ => .e

def execSerr (f : Fin 2) (tag : BitVec 12) (sa : Sa) (lines : BitVec 16) (etype : BitVec 8) (s : State) :
    Host.Outcome State Fault Refusal :=
  answer s <|
    if !portActive s (6 + f.val) then s
    else
      let s := takeRx (6 + f.val) 0x4C tag s
      let st := serrStatus s sa etype.toNat
      let s :=
        if st = stOk then
          let ks := (residentIn s (lineOf sa).toNat (lines.toNat + 1)).filter fun k =>
            match homeOf s s.cur (farSaOf (metaAt s k).tag k) with
            | .ok h => h == regionHalf (keyRegion k)
            | .error _ => false
          shelfRecord { Rec.mk0 8 6 (serrHalf s sa) with sa := some (lineOf sa) } etype.toNat lines.toNat (ks.foldl (fun t k => serrLine k t) s)
        else s
      sendFrame (6 + f.val) { Frame.mk0 0x45 tag 0 sa 0 with aux := respAux st 0 false } s

/-- A FILL, WB, WT or OFFD unanswered for 1 ms on an ACTIVE port declares it DOWN (R318). -/
def execShelfResponseTimeout (f : Fin 2) (tag : BitVec 12) (s : State) : Host.Outcome State Fault Refusal :=
  answer s <|
    match findPool s f tag [.fill, .wb, .wt, .offd] with
    | none => s
    | some q =>
      if portActive s (6 + f.val) ∧ due s q.since 1000000 then settle (portDown (6 + f.val) s) else s

end Sys2Proof.Machine
end

