-- ==== Sys2Proof/Machine/Operands.lean ====
section
/-! DEFINITION. The operands of a thread's instructions: registers and groups (R247), effective addresses, the translation of a
PVA (R95, R108, R109), the checks of an access (R251), and the instruction fetch (R219). -/

namespace Sys2Proof.Machine

/-! ## Registers -/

/-- Bits [63:48] of an address are clear (R95). -/
def inRange (a : BitVec 64) : Bool := decide (a.toNat < 2 ^ 48)

/-- imm of R247. -/
def immS (f : TFields) : BitVec 64 := f.imm.signExtend 64

/-- EA, y and target of R247. -/
def effAddr (th : Thread) (f : TFields) : BitVec 64 := gReg th f.a.toNat + immS f
def secondOp (th : Thread) (f : TFields) : BitVec 64 := opY (gReg th f.b.toNat) f.imm
def target (th : Thread) (f : TFields) : BitVec 64 := th.pc.setWidth 64 + 8 * immS f

/-- A register-group base is 1 to 16 (R246). -/
def groupOk (b : BitVec 5) : Bool := decide (1 ≤ b.toNat ∧ b.toNat ≤ 16)

/-- A token field has C[4:3] = 0 (R246). -/
def tokenOk (c : BitVec 5) : Bool := decide (c.toNat < 8)

/-- The registers of a group. -/
def groupRegs (b : BitVec 5) : List Nat := (List.range 16).map fun i => b.toNat + i

/-- The line a group holds (R247). -/
def groupLine (th : Thread) (b : BitVec 5) : BitVec 1024 :=
  BitVec.ofNat 1024 (((List.range 16).map fun i => (gReg th (b.toNat + i)).toNat * 2 ^ (64 * i)).sum)

/-- A register that an outstanding access still has to write (R214). -/
def pendingReg (th : Thread) (r : Nat) : Bool :=
  th.outs.any fun o => decide (r ≠ 0 ∧ o.dest.toNat ≤ r ∧ r < o.dest.toNat + o.count)

/-! ## Waits of a thread -/

/-- A wait in hardware that begins now (KIND 6 of R244). -/
def hardWait (s : State) : Wait :=
  { kind := 6, tok := 0, sa := 0, start := s.clk.time, limit := 0, dest := 0, pva := 0, cond := 0, cmp := 0, eval := none, again := false,
    desc := 0 }

/-- An instruction that stalls waits in hardware since it first stalled. -/
def stall (t : Nat) (s : State) : State :=
  modThr s t fun x => if x.wait.isSome then x else { x with wait := some (hardWait s) }

/-- The present instruction of a thread misses: it waits for a walk (R107). -/
def missInstr (t : ThreadId) (pva : BitVec 64) (need : Rights) (kind : Nat) (silent : Bool) (s : State) : State :=
  modThr s t.val fun x =>
    { x with xl := some { pva := pva, need := need, kind := BitVec.ofNat 3 kind, silent := silent, line := 0, num := x.nextId },
             nextId := x.nextId + 1 }

/-! ## The translation cache (R108, R109) -/

def Rights.exec : Rights := { r := false, w := false, a := false, x := true }

/-- Effective page rights hold what an access needs (R101). -/
def Rights.pageGrants (r need : Rights) : Bool :=
  (!need.r || r.r) && (!need.w || r.w) && (!need.a || r.a) && (!need.x || r.x)

/-- Bytes of a page, as a power of two. -/
def pageLog (size : BitVec 2) : Nat := 12 + 9 * size.toNat

/-- The entry maps this address of the partition. -/
def Tlb.maps (e : Tlb) (p : Part) (pva : Nat) : Bool := e.part == p && decide (e.vpage.toNat = pva / 2 ^ pageLog e.size)

/-- The SA of an address through an entry (R98). -/
def Tlb.target (e : Tlb) (pva : Nat) : Sa := BitVec.ofNat 52 (e.sa.toNat * 4096 + pva % 2 ^ pageLog e.size)

/-- The entry of a half's cache for an address, of any page size. -/
def tlbFind (s : State) (h : Half) (p : Part) (pva : Nat) : Option (Nat × Tlb) :=
  (s.xlt.tlb.filterMap fun e => match e.2 with
    | none => none
    | some x => if e.1 / 2048 = h.idx ∧ x.maps p pva then some (e.1, x) else none).head?

def setTlb (i : Nat) (e : Option Tlb) (s : State) : State := s.onXlt fun x => { x with tlb := tset none x.tlb i e }

/-- Put a translation into its set: the lowest way whose reference bit is clear, else all are cleared and way 0 is taken. -/
def tlbFill (h : Half) (e : Tlb) (s : State) : State :=
  let base := 2048 * h.idx + 4 * (Config.tlbSet e.part e.vpage e.size % 512)
  let at_ (w : Nat) : Option Tlb := tget none s.xlt.tlb (base + w)
  match (List.range 4).find? fun w => match at_ w with | none => true | some x => !x.ref with
  | some w => setTlb (base + w) (some { e with ref := true }) s
  | none =>
    let s := (List.range 4).foldl (fun t w => setTlb (base + w) ((at_ w).map fun x => { x with ref := false }) t) s
    setTlb base (some { e with ref := true }) s

/-- Look an address up: a held translation first, then the cache. An entry that lacks a right is discarded (R109). -/
def xlook (h : Half) (p : Part) (pva : Nat) (need : Rights) (held : Option Tlb) (s : State) : Option Tlb × State :=
  let fromCache : Option Tlb × State :=
    match tlbFind s h p pva with
    | none => (none, s)
    | some (i, e) => if e.rights.pageGrants need then (some e, setTlb i (some { e with ref := true }) s) else (none, setTlb i none s)
  match held with
  | some e => if e.maps p pva ∧ e.rights.pageGrants need then (some e, s) else fromCache
  | none => fromCache

/-! ## An access of a thread (R251 steps 3 to 6) -/

/-- What the checks of an access find. -/
inductive Reach where
  | go (x : Space) (sa : Sa)
  /-- the translation is missing: the access waits for a walk -/
  | wait
  /-- the cause of R250, and its fault record when it has one -/
  | fault (cause : Nat) (rec_ : Option FaultInfo)
  deriving DecidableEq, Repr

/-- A fault record of a thread, without a stream. -/
def faultInfo (t : Nat) (pva : BitVec 64) (kind code : Nat) (sa : Option Sa) : FaultInfo :=
  { pva := pva.setWidth 48, sa := sa, sub := 0, code := code, level := 7, kind := kind, thread := t, token := none, line := 0,
    time := none }

/-- The half whose unit performs an access to a space for a thread. -/
def Space.home (x : Space) (t : Nat) : Half := x.half (thrHalf t)

/-- The checks of a translated address (R251 steps 5 and 6): `devOk` says which accesses to CTL or doorbell space it
may make; another one ends ADDRESS, which precedes RIGHTS (R75, R104). -/
def reachSa (s : State) (t : Nat) (p : Part) (pva : BitVec 64) (sa : Sa) (need : Rights) (kind : Nat) (devOk : Space → Bool) :
    Reach :=
  let h := thrHalf t
  let bad : Bool := match decodeSa s (pipeView s h) sa with
    | .ok x => x.isDev && !devOk x
    | .error _ => false
  if bad then .fault 0x19 (some (faultInfo t pva kind 9 (some sa)))
  else
    match checkSa s (pipeView s h) p none need sa with
    | .error st => .fault (0x17 + st) (some (faultInfo t pva kind (7 + st) (some sa)))
    | .ok x => if !x.isDev ∧ unavailable s (x.home t) h then .fault 0x08 none else .go x sa

/-- Translate and check an access of a thread's partition. -/
def reach (t : Nat) (p : Part) (pva : BitVec 64) (page need : Rights) (kind : Nat) (devOk : Space → Bool) (held : Option Tlb)
    (s : State) : Reach × State :=
  if !inRange pva then (.fault 0x17 (some (faultInfo t pva kind 7 none)), s)
  else
    let r := xlook (thrHalf t) p pva.toNat page held s
    match r.1 with
    | none => (.wait, r.2)
    | some e => (reachSa r.2 t p pva (e.target pva.toNat) need kind devOk, r.2)

/-! ## The fetch (R218, R219, R251 step 1) -/

/-- The sharer bit of a thread's core (R195). -/
def coreBit (t : Nat) : Nat := 6 + thrCore t

/-- The outcome of an instruction fetch: the word, or why there is none. -/
inductive Fetch where
  | ok (w : BitVec 64)
  | wait
  | fault (cause : Nat) (rec_ : Option FaultInfo)
  deriving DecidableEq, Repr

/-- The eight bytes at sa of a sector. -/
def wordIn (sa : Sa) (d : BitVec 256) : BitVec 64 := BitVec.ofNat 64 (d.toNat / 2 ^ (8 * (sa.toNat % 32)))

/-- Read the word at sa through the core's instruction cache, for unit c: the word and whether it is poisoned, or none yet. A tracked
answer fills the cache (R195, R218). -/
def roWord (c : Consumer) (t : ThreadId) (p : Part) (sa : Sa) (home : Half) (s : State) : Option (BitVec 64 × Bool) × State :=
  let k := thrCore t.val
  match roFind s k .instr sa with
  | some e => (some (wordIn sa e.data, false), roTouch k .instr sa s)
  | none =>
    let s := if s.cache.asked.contains (c, 0) then s else cnt 0x04B (some (thrHalf t.val)) (some p) 1 s
    let g := gather c [(0, mkReq s (.buf c 0) (.read .sector (some (coreBit t.val)) false) sa p (thrHalf t.val) home)] s
    match g.1 with
    | none => (none, g.2)
    | some xs =>
      let a := xs.headD (LineRes.st stPoison)
      let d := a.data.extractLsb' (256 * sectorOf sa) 256
      (some (wordIn sa d, decide (a.status = stPoison)), if a.status = stPoison ∨ a.untrk then g.2 else roInsert k .instr sa d g.2)

/-- Fetch the instruction at the thread's pc: translated with X, checked as a read, through the core's instruction cache. After a store
the instruction that follows it is the one fetched before (R219). -/
def fetch (t : ThreadId) (s : State) : Fetch × State :=
  let th := thr s t.val
  let pva := th.pc.setWidth 64
  match th.ahead.filter fun a => a.1 == th.pc with
  | some a => (.ok a.2, s)
  | none =>
    let r := reach t.val th.part pva Rights.exec Rights.rd 3 noDev th.hit s
    match r.1 with
    | .fault c i => (.fault c i, r.2)
    | .wait => (.wait, stall t.val (missInstr t pva Rights.exec 3 false r.2))
    | .go x sa =>
      let g := roWord (.fetch t) t th.part sa (x.home t.val) r.2
      match g.1 with
      | none => (.wait, stall t.val g.2)
      | some (w, bad) => (if bad then .fault 0x1C (some (faultInfo t.val pva 3 0x0C (some sa))) else .ok w, g.2)

/-- Before a store to the line of the next instruction is issued, that instruction is fetched (R219): its word, if the store overtakes a
fetch that would succeed; none while it is being read. A next instruction whose page is not at hand is fetched after the store (log
entry 127). -/
def fetchAhead (t : ThreadId) (store : Sa) (s : State) : Option (Option (BitVec 64)) × State :=
  let th := thr s t.val
  let r := reach t.val th.part ((th.pc + 8).setWidth 64) Rights.exec Rights.rd 3 noDev th.hit s
  match r.1 with
  | .go x sa =>
    if lineOf sa ≠ lineOf store then (some none, s)
    else
      let g := roWord (.next t) t th.part sa (x.home t.val) r.2
      match g.1 with
      | none => (none, stall t.val g.2)
      | some (w, bad) => (some (if bad then none else some w), g.2)
  | _ => (some none, s)

end Sys2Proof.Machine
end

