-- ==== Sys2Proof/Machine/Tasks.lean ====
section
/-! DEFINITION. The life of a task (R221 to R234): the frame of an instruction, exceptions, save records, context slots,
completion words, and how a thread becomes free. -/

namespace Sys2Proof.Machine

/-! ## Streams' tokens -/

/-- Token states of R230. -/
def tokIdle : Nat := 0
def tokRun : Nat := 1
def tokDone : Nat := 2
def tokFaulted : Nat := 3
def tokParked : Nat := 4

def tokOf (th : Thread) (k : Nat) : Nat := field th.toks.toNat (3 * k) 3

def Thread.setTok (th : Thread) (k v : Nat) : Thread :=
  { th with toks := BitVec.ofNat 24 (th.toks.toNat - tokOf th k * 2 ^ (3 * k) + v * 2 ^ (3 * k)) }

def Thread.slotOf (th : Thread) (i : Fin 2) : Stream := if i = 0 then th.s0 else th.s1
def Thread.setSlot (th : Thread) (i : Fin 2) (x : Stream) : Thread := if i = 0 then { th with s0 := x } else { th with s1 := x }

/-- The slot that a token's stream occupies. -/
def slotOfTok (th : Thread) (k : Nat) : Option (Fin 2) :=
  if th.s0.used ∧ th.s0.tok.toNat = k then some 0 else if th.s1.used ∧ th.s1.tok.toNat = k then some 1 else none

/-- A stream of a slot runs. -/
def slotRuns (th : Thread) (i : Fin 2) : Bool := (th.slotOf i).used && tokOf th (th.slotOf i).tok.toNat == tokRun

/-- A unit of the stream in a slot is in flight (R238), or a check tag's accesses are. -/
def inFlight (s : State) (t : ThreadId) (i : Fin 2) : Bool :=
  !((thr s t.val).slotOf i).flights.isEmpty || s.cache.asked.any fun e => match e.1 with
    | .tag u j _ => u == t && j == i
    | _ => false

/-- The units a thread works on are forgotten. -/
def forgetThread (t : ThreadId) (s : State) : State :=
  let mine (c : Consumer) : Bool := c.thread == some t
  let orphan (e : Nat × Option (Who × Part × Sa) × Part) : Nat × Option (Who × Part × Sa) × Part :=
    match e.2.1 with
    | some (.thread u _, p, sa) => if u = t then (e.1, some (.own, p, sa), e.2.2) else e
    | _ => e
  let s := s.onBuf fun u => { u with frees := u.frees.map orphan }
  s.onCache fun q => { q with asked := q.asked.filter fun e => !mine e.1, got := q.got.filter fun e => !mine e.1 }

/-- A BFREE of this thread waits for acknowledgements (R168): it completes before anything else happens to the thread. -/
def freePending (s : State) (t : ThreadId) : Bool :=
  s.buf.frees.any fun e => match e.2.1 with
    | some (.thread u _, _, _) => u == t
    | _ => false

/-- What the instruction at the pc was collecting is given up. -/
def forgetInstr (t : ThreadId) (s : State) : State := forget (.cktag t) (forget (.smov t) (forget (.next t) (forget (.fetch t) s)))

/-! ## Task queues and partitions -/

def tq (s : State) (q : Nat) : TaskQ := tget TaskQ.zero s.seq.tq q
def setTq (q : Nat) (x : TaskQ) (s : State) : State := s.onSeq fun y => { y with tq := tset TaskQ.zero y.tq q x }

/-- A completion word that is not written (R225). -/
def doneLost (q : Nat) (s : State) : State := setTq q { tq s q with doneLost := satAdd (tq s q).doneLost 1 } s

/-- The partition is enabled; partition 0 always is. -/
def partOn (s : State) (p : Part) : Bool := p == 0 || (partReg s.cur p.toNat).en

/-- A partition reset of p is running. -/
def fenced (s : State) (p : Part) : Bool := s.integ.prst.any fun r => r.running && r.part == p

/-! ## Context slots (R229, R233, R234) -/

def slotUsed (s : State) (p k : Nat) : Bool := (spReg s p).used.getLsbD k
def slotParked (s : State) (p k : Nat) : Bool := (spReg s p).park.getLsbD k

/-- The lowest free slot of a partition. -/
def freeSlot (s : State) (p : Nat) : Option Nat :=
  (List.range (2 ^ min 6 (spReg s p).ctxLog2n.toNat)).find? fun k => !slotUsed s p k

def takeSlot (p k : Nat) (s : State) : State := modSp s p fun x => { x with used := setBit x.used k true }
def dropSlot (p k : Nat) (s : State) : State :=
  modSp s p fun x => { x with used := setBit x.used k false, park := setBit x.park k false, slots := tdel x.slots k }

/-- SA of a slot's record (R229). -/
def slotSa (s : State) (p k : Nat) : Sa := BitVec.ofNat 52 ((spReg s p).ctxBase.toNat * 4096 + 512 * k)

/-- Put a slot on a half's resume list. -/
def pushResume (h : Half) (p : Part) (k : Nat) (prio : BitVec 2) (s : State) : State :=
  let e : Resume := { part := p, slot := BitVec.ofNat 6 k, prio := prio }
  s.onSeq fun q => match h with
    | .e => { q with resumeE := q.resumeE ++ [e] }
    | .w => { q with resumeW := q.resumeW ++ [e] }

/-! ## Completion words (R225) -/

def wordOf (status cause slot value : Nat) : BitVec 64 := pack 64 [(0, status), (8, cause), (16, slot), (32, value)]

/-- A thread with nothing but the number of its next access, so that a late answer never meets another task's access. -/
def Thread.bare (th : Thread) : Thread := { Thread.zero with nextId := th.nextId }

/-- The thread is free. -/
def freeThread (t : ThreadId) (s : State) : State := forgetThread t (setThr s t.val (thr s t.val).bare)

/-- An access of thread t that nobody waits for but an invalidation (R111). -/
def postLine (t : ThreadId) (op : LineOp) (sa : Sa) (home : Half) (s : State) : State :=
  let th := thr s t.val
  enqueue (mkReq s (.posted t th.nextId) op sa th.part (thrHalf t.val) home)
    ((modThr s t.val fun x => { x with nextId := th.nextId + 1 }).onCache fun c => { c with posted := c.posted ++ [(t, th.nextId)] })

/-- Store the completion word through the partition's translation, as soon as that is there; a store that faults is dropped
and counted. -/
def wordAttempt (t : ThreadId) (s : State) : State :=
  let th := thr s t.val
  match th.word with
  | none => s
  | some w =>
    if th.xl.isSome then s
    else if !inRange th.donePva ∨ th.donePva.toNat % 8 ≠ 0 then freeThread t (doneLost th.queue.toNat s)
    else
      -- a completion word of a killed task passes the fence of its partition's reset (R337 step 2)
      let r := reach t.val th.part th.donePva Rights.wr Rights.wr 1 noDev th.hit (s.onInteg fun i => { i with prst := [] })
      let prst := s.integ.prst
      let s := r.2.onInteg fun i => { i with prst := prst }
      match r.1 with
      | .wait => missInstr t th.donePva Rights.wr 1 true s
      | .fault _ _ => freeThread t (doneLost th.queue.toNat s)
      | .go x sa =>
        let off := field sa.toNat 0 7
        settle (freeThread t
          (postLine t (.write (byteMask off 8) (BitVec.ofNat 1024 (w.toNat * 2 ^ (8 * off)))) sa (x.home t.val) s))

/-- A wait in hardware goes on, or begins now. -/
def Thread.hardWait (th : Thread) (s : State) : Option Wait := (th.wait.filter fun w => w.kind == 6).orElse fun _ => some (Machine.hardWait s)

/-- The task has ended: its completion word, then the thread is free. -/
def endTask (t : ThreadId) (w : BitVec 64) (s : State) : State :=
  let th := thr s t.val
  if th.donePva = 0 then freeThread t s
  else
    wordAttempt t (forgetThread t (setThr s t.val
      { th with phase := .halting, word := some w, xl := none, hit := none, wait := th.hardWait s, waitLeft := none, outs := [], toks := 0,
                s0 := Stream.zero, s1 := Stream.zero, held := none }))

/-- A task ends LOST (R232). -/
def endLost (t : ThreadId) (cause : Nat) (s : State) : State :=
  let th := thr s t.val
  endTask t (wordOf 4 cause 0 0) (cnt 0x044 (some (thrHalf t.val)) (some th.part) 1 s)

/-- A task ends KILLED for a reason (R225). -/
def endKilled (t : ThreadId) (reason : Nat) (s : State) : State := endTask t (wordOf 3 reason 0 0) s

/-! ## Stopping -/

/-- The first instruction of a restored task frees its slot (R231). -/
def firstIssue (t : ThreadId) (s : State) : State :=
  let th := thr s t.val
  match th.held with
  | none => s
  | some k => dropSlot th.part.toNat k.toNat (modThr s t.val fun x => { x with held := none })

/-- An instruction issues: it is counted. -/
def countIssue (t : ThreadId) (s : State) : State :=
  let th := thr s t.val
  let k := thrCore t.val
  countOps (coreHalf k) (coreInHalf k) 1 1 (cnt 0x040 (some (thrHalf t.val)) (some th.part) 1 (firstIssue t s))

/-- An instruction has executed: count it, apply its effect on the thread, clear its waits. -/
def retire (t : ThreadId) (f : Thread → Thread) (s : State) : State :=
  let s := countIssue t s
  modThr s t.val fun x => { f { x with ahead := none } with wait := none, waitLeft := none, hit := none, xl := none }

/-- Stop a thread for a save; the drain is a hardware wait (R242). -/
def stopThread (t : ThreadId) (kind cause : Nat) (s : State) : State :=
  forgetInstr t (modThr s t.val fun x =>
    { x with phase := .draining (BitVec.ofNat 3 kind) (BitVec.ofNat 8 cause), wait := some (hardWait s), xl := none, hit := none,
             ahead := none })

/-- Write a fault record: the slot that its write fills, none where the record is lost (R116). -/
def recordFault (i : FaultInfo) (p : Part) (s : State) : Option (BitVec 32) × State :=
  let u := writeFault i p s
  let k := (faultQ s p.toNat).alloc
  (if (faultQ u p.toNat).alloc = k then none else some k, u)

/-- The write of the record in this slot goes on. -/
def recPending (s : State) (p : Part) (slot : Option (BitVec 32)) : Bool :=
  match slot with
  | none => false
  | some k =>
    let q := faultQ s p.toNat
    decide ((k - q.tail).toNat < (q.alloc - q.tail).toNat) && !q.written.contains k

/-- An exception (R232): the record is written first, the instruction has no effect, and the task stops. The task is not saved before
its record is complete (R114). -/
def raise (t : ThreadId) (cause : Nat) (rec_ : Option FaultInfo) (s : State) : State :=
  let th := thr s t.val
  match rec_ with
  | none => settle (stopThread t 1 cause s)
  | some i =>
    let r := recordFault i th.part s
    settle (modThr (stopThread t 1 cause r.2) t.val fun x => { x with recSlot := r.1 })

/-- Poison in a fetch or a descriptor read: an exception, or the partition's reset with CONTAIN (R336). -/
def raisePoison (t : ThreadId) (i : FaultInfo) (s : State) : State :=
  let th := thr s t.val
  let c := consume th.part s
  if c.1 then settle (writeFault i th.part c.2) else raise t 0x1C (some i) c.2

/-- Poison fetched or read as a descriptor, else the exception. -/
def raiseAny (t : ThreadId) (cause : Nat) (rec_ : Option FaultInfo) (s : State) : State :=
  match rec_ with
  | some i => if cause = 0x1C then raisePoison t i s else raise t cause rec_ s
  | none => raise t cause none s

/-! ## HALT (R225) -/

/-- No access of the task is outstanding and no stream runs. -/
def drained (s : State) (t : ThreadId) : Bool :=
  let th := thr s t.val
  th.outs.isEmpty && !slotRuns th 0 && !slotRuns th 1 && !inFlight s t 0 && !inFlight s t 1

/-- HALT completes once everything the task issued has, and not within a self-test step of its core (R350). -/
def haltCheck (t : ThreadId) (s : State) : State :=
  let th := thr s t.val
  if th.phase = .halting ∧ th.word = none ∧ drained s t ∧ !coreStepping s (thrCore t.val) then
    endTask t (wordOf 0 0 0 ((gReg th 1).toNat % 2 ^ 32)) s
  else s

/-! ## The frame of an instruction -/

/-- Execute instruction c of thread t: nothing happens where another instruction stands at the pc (log entry 122). `legal` and `priv` are
the tests of R246 and of S mode; `regs` are the registers it reads and writes; `own` is the KIND of wait it takes up again, for which it
is not fetched twice; `body` is its effect after the fetch and these tests. -/
def instr (t : ThreadId) (c : Instr) (legal priv : Bool) (regs : List Nat) (own : Nat) (body : Thread → State → State) (s : State) : State :=
  let th := thr s t.val
  let kind : Nat := match th.wait with
    | none => 0
    | some w => w.kind.toNat
  if th.phase ≠ .running ∨ warmFenced s ∨ !coreUp s (thrCore t.val) ∨ corePaused s (thrCore t.val) ∨ freePending s t ∨ th.xl.isSome ∨ (kind ≠ 0 ∧ kind ≠ 6 ∧ kind ≠ own) then s
  else
    match th.raised with
    | some c => raise t c.toNat none (modThr s t.val fun x => { x with raised := none })
    | none =>
      if own ≠ 0 ∧ kind = own then body th s
      else
        let f := fetch t s
        match f.1 with
        | .wait => f.2
        | .fault c i => raiseAny t c i f.2
        | .ok w =>
          match decodeTroxo t w with
          | none => raise t 0x00 none f.2
          | some d =>
            if d ≠ c then s
            else if !legal then raise t 0x00 none f.2
            else if !priv then raise t 0x01 none f.2
            else if regs.any (pendingReg (thr f.2 t.val)) then stall t.val f.2
            else body (thr f.2 t.val) f.2

/-! ## Save records (R230) -/

/-- The 508 bytes before the CRC, as a number. -/
def saveBody (s : State) (th : Thread) (kind cause : Nat) (toks : Nat) (left : Nat) : Nat :=
  let g := ((List.range 31).map fun i => (gReg th (i + 1)).toNat * 2 ^ (64 * (i + 1))).sum
  th.pc.toNat + g + toks * 2 ^ (8 * 256)
    + (b2n th.precise + kind * 2 + cause * 2 ^ 8 + th.prio.toNat * 2 ^ 16 + th.queue.toNat * 2 ^ 18 + th.part.toNat * 2 ^ 25)
        * 2 ^ (8 * 260)
    + th.thaw.toNat * 2 ^ (8 * 264) + left * 2 ^ (8 * 272) + th.donePva.toNat * 2 ^ (8 * 280) + th.tag.toNat * 2 ^ (8 * 288)
    + s.clk.time.toNat * 2 ^ (8 * 296)
    + (if th.s0.used then th.s0.desc.toNat * 2 ^ (8 * 320) + (th.s0.line.toNat + th.s0.donemap.toNat * 2 ^ 32) * 2 ^ (8 * 448)
         + (th.s0.tok.toNat + 128) * 2 ^ (8 * 464) else 0)
    + (if th.s1.used then th.s1.desc.toNat * 2 ^ (8 * 384) + (th.s1.line.toNat + th.s1.donemap.toNat * 2 ^ 32) * 2 ^ (8 * 456)
         + (th.s1.tok.toNat + 128) * 2 ^ (8 * 465) else 0)

/-- The whole record. -/
def saveRecord (s : State) (th : Thread) (kind cause toks left : Nat) : Nat :=
  let b := saveBody s th kind cause toks left
  b + (crc32c (toBytes 508 b)).toNat * 2 ^ (8 * 508)

/-- Token states as saved: RUN streams are PARKED (R228). -/
def parkedToks (th : Thread) : Nat :=
  ((List.range 8).map fun k => (if tokOf th k = tokRun then tokParked else tokOf th k) * 2 ^ (3 * k)).sum

/-- The four line requests of a slot's record, with partition 0's rights; none where one fails decode (R229). -/
def slotReqs (s : State) (t : ThreadId) (c : Consumer) (sa : Sa) (need : Rights) (op : Nat → LineOp) : Option (List (Nat × LineReq)) :=
  let rs := (List.range 4).filterMap fun i =>
    let a := sa + BitVec.ofNat 52 (128 * i)
    match ownHome s (thrHalf t.val) a need with
    | none => none
    | some h => some (i, mkReq s (.buf c i) (op i) a 0 (thrHalf t.val) h)
  if rs.length = 4 then some rs else none

/-- Line i of a 512-byte record. -/
def recLine (r i : Nat) : BitVec 1024 := BitVec.ofNat 1024 (r / 2 ^ (1024 * i))

/-- The write of a save record has failed (R232): the task runs on after a preemption, else it is LOST. A YIELD has no cause. -/
def saveFailed (t : ThreadId) (kind cause k : Nat) (s : State) : State :=
  let th := thr s t.val
  let s := modSp (dropSlot th.part.toNat k s) th.part.toNat fun x => { x with werr := true }
  if kind = 0 then modThr s t.val fun x => { x with phase := .running, held := none, wait := none }
  else endLost t (if kind = 3 then 0 else cause) s

/-- The record stands in the slot (R228 step 4, R232, R233). -/
def saveDone (t : ThreadId) (kind cause k : Nat) (s : State) : State :=
  let th := thr s t.val
  let h := thrHalf t.val
  let p := th.part
  let s := modSp s p.toNat fun x => { x with used := setBit x.used k true, slots := tset { half := .e, prio := 0 } x.slots k { half := h, prio := th.prio } }
  if kind = 0 then
    let s := cnt 0x042 (some h) (some p) 1 (modSp s p.toNat fun x => { x with preempts := satAdd x.preempts 1 })
    freeThread t (pushResume h p k th.prio s)
  else if kind = 3 then freeThread t (pushResume h p k th.prio s)
  else
    let s := modSp s p.toNat fun x => { x with park := setBit x.park k true }
    endTask t (wordOf (if kind = 2 then 2 else 1) cause k 0) (cnt 0x044 (some h) (some p) 1 s)

/-- Write the record of a stopped task into slot k, or take note that it is written. -/
def saveWrite (t : ThreadId) (kind cause k : Nat) (s : State) : State :=
  let th := thr s t.val
  let c : Consumer := .save t
  let r := saveRecord s th kind (if kind = 3 then 0 else cause) (parkedToks th) (th.waitLeft.getD 0).toNat
  match slotReqs s t c (slotSa s th.part.toNat k) Rights.wr fun i => .write (BitVec.allOnes 128) (recLine r i) with
  | none => saveFailed t kind cause k s
  | some rs =>
    let s := modThr s t.val fun x => { x with phase := .saving (BitVec.ofNat 3 kind) (BitVec.ofNat 8 cause) (BitVec.ofNat 6 k) }
    let g := gather c rs s
    match g.1 with
    | none => g.2
    | some xs => if xs.any fun x => x.status != 0 then saveFailed t kind cause k g.2 else saveDone t kind cause k g.2

/-- A stopped task has drained: for a preemption or a yield its streams stand at a unit boundary, else they have ended; the record of
its exception, or of a stream that has stopped, is complete (R114). -/
def saveReady (s : State) (t : ThreadId) (kind : Nat) : Bool :=
  let th := thr s t.val
  th.outs.isEmpty && !freePending s t && !recPending s th.part th.recSlot && !inFlight s t 0 && !inFlight s t 1
    && th.s0.stop.isNone && th.s1.stop.isNone && (kind == 0 || kind == 3 || (!slotRuns th 0 && !slotRuns th 1))

/-- The save of R228 step 4 or R232. -/
def saveStep (t : ThreadId) (s : State) : State :=
  let th := thr s t.val
  match th.phase with
  | .draining kind cause =>
    if !saveReady s t kind.toNat then s
    else
      match th.held with
      | some k => saveWrite t kind.toNat cause.toNat k.toNat s
      | none =>
        match freeSlot s th.part.toNat with
        | none => endLost t cause.toNat s
        | some k => saveWrite t kind.toNat cause.toNat k (takeSlot th.part.toNat k s)
  | .saving kind cause k => saveWrite t kind.toNat cause.toNat k.toNat s
  | _ => s

end Sys2Proof.Machine
end

