-- ==== Sys2Proof/Machine/Seq.lean ====
section
/-! DEFINITION. The sequencer's commands: doorbells, task queues, dispatch, preemption, restore, waits and the completion of a
thread's accesses (R214, R221 to R234, R242 to R244, R271). -/

namespace Sys2Proof.Machine

/-! ## Doorbells (R222, R233) -/

/-- A new TAIL for queue q: the status of the access, and the effect. -/
def bellTail (part : Part) (q : Nat) (v : BitVec 32) (s : State) : Nat × State :=
  let x := tq s q
  if part ≠ 0 ∧ part ≠ x.part then (stRights, s)
  else if !x.en ∨ !frGe v x.tail ∨ 2 ^ x.log2n.toNat < (v - x.head).toNat then (stOk, setTq q { x with dbErr := true } s)
  else (stOk, setTq q { x with tail := v } s)

def badCmd (p : Nat) (s : State) : State := modSp s p fun x => { x with badcmd := true }

/-- Resume a PARKED slot of partition p. -/
def bellResume (part p : Part) (slot : Nat) (s : State) : Nat × State :=
  if part ≠ 0 ∧ part ≠ p then (stRights, s)
  else if !slotParked s p.toNat slot then (stOk, badCmd p.toNat s)
  else
    let i := tget { half := .e, prio := 0 } (spReg s p.toNat).slots slot
    (stOk, pushResume i.half p slot i.prio (modSp s p.toNat fun x => { x with park := setBit x.park slot false }))

/-- Discard a PARKED slot of partition p. -/
def bellDiscard (part p : Part) (slot : Nat) (s : State) : Nat × State :=
  if part ≠ 0 ∧ part ≠ p then (stRights, s)
  else if !slotParked s p.toNat slot then (stOk, badCmd p.toNat s)
  else (stOk, dropSlot p.toNat slot s)

def execDoorbellTail (part : Part) (q : Fin 128) (v : BitVec 32) (s : State) : Host.Outcome State Fault Refusal :=
  answer s (bellTail part q.val v s).2
def execDoorbellResume (part p : Part) (slot : BitVec 6) (s : State) : Host.Outcome State Fault Refusal :=
  answer s (bellResume part p slot.toNat s).2
def execDoorbellDiscard (part p : Part) (slot : BitVec 6) (s : State) : Host.Outcome State Fault Refusal :=
  answer s (bellDiscard part p slot.toNat s).2

/-! ## Queue and context registers (R221, R229) -/

/-- SA[51:12] lies in DEV space (R74). -/
def pageDev (b : BitVec 40) : Bool := decide (b.toNat / 2 ^ 38 = 3)

/-- A write of SEQ_TQ_CTL (R221). -/
def writeTqCtl (q : Nat) (v : BitVec 32) (s : State) : State :=
  let x := tq s q
  let y := { x with en := bit v 0, part := v.extractLsb' 1 5, prio := v.extractLsb' 6 2, half := Half.ofBool (bit v 8),
                    log2n := v.extractLsb' 9 4 }
  let moved : Bool := decide (¬ (y.part = x.part ∧ y.half = x.half ∧ y.log2n = x.log2n))
  if (x.en ∧ moved) ∨ y.log2n.toNat < 4 ∨ 12 < y.log2n.toNat then setTq q { x with cfg := true } s
  else if y.en ∧ !x.en then setTq q { y with head := 0, tail := 0 } s
  else setTq q y s

/-- A write of SEQ_TQ_BASE. -/
def writeTqBase (q : Nat) (v : BitVec 64) (s : State) : State :=
  let x := tq s q
  let b : BitVec 40 := v.extractLsb' 12 40
  if (x.en ∧ b ≠ x.base) ∨ (b.toNat * 4096) % (64 * 2 ^ x.log2n.toNat) ≠ 0 ∨ pageDev b then setTq q { x with cfg := true } s
  else setTq q { x with base := b } s

def execTqCtlWrite (q : Fin 128) (v : BitVec 32) (s : State) : Host.Outcome State Fault Refusal :=
  answer s (ifUp 1 2 (writeTqCtl q.val v) s)

/-- A write of SEQ_CTX_BASE or SEQ_CTX_CTL: refused when it breaks R229 or a slot is in use. -/
def writeCtx (p : Nat) (b : BitVec 40) (l : BitVec 3) (s : State) : State :=
  let x := spReg s p
  let moved : Bool := decide (¬ (b = x.ctxBase ∧ l = x.ctxLog2n))
  if (moved ∧ x.used ≠ 0) ∨ 6 < l.toNat ∨ (b.toNat * 4096) % (512 * 2 ^ l.toNat) ≠ 0 ∨ pageDev b then
    modSp s p fun y => { y with cfg := true }
  else modSp s p fun y => { y with ctxBase := b, ctxLog2n := l }

/-! ## Dispatch (R226, R227) -/

/-- What a dispatcher may start. -/
inductive Cand where
  | resume (e : Resume)
  | queue (q : Nat)
  deriving DecidableEq, Repr

def queueReady (s : State) (h : Half) (q : Nat) : Bool :=
  let x := tq s q
  x.en && x.half == h && !x.fetchErr && !x.fetching && x.head != x.tail && partOn s x.part && !fenced s x.part

/-- The candidates of a half, best first. -/
def candidates (s : State) (h : Half) : List (Nat × Cand) :=
  let rs := (h.pick s.seq.resumeE s.seq.resumeW).filter fun e => partOn s e.part && !fenced s e.part
  let qs := ((List.range 128).map fun i => ((h.pick s.seq.rrE s.seq.rrW).toNat + 1 + i) % 128).filter (queueReady s h)
  [3, 2, 1, 0].flatMap fun p =>
    (rs.filter fun e => decide (e.prio.toNat = p)).map (fun e => (p, Cand.resume e))
      ++ (qs.filter fun q => decide ((tq s q).prio.toNat = p)).map (fun q => (p, Cand.queue q))

def threadsOf (h : Half) : List Nat := (List.range 36).map fun i => 36 * h.idx + i

def isFree (s : State) (i : Nat) : Bool := (thr s i).phase == .free && coreUp s (thrCore i) && !corePaused s (thrCore i)

/-- Start a candidate on a free thread. -/
def startCand (t : Nat) (c : Cand) (s : State) : State :=
  let h := thrHalf t
  match c with
  | .resume e =>
    let s := s.onSeq fun q => match h with
      | .e => { q with resumeE := q.resumeE.erase e }
      | .w => { q with resumeW := q.resumeW.erase e }
    setThr s t { (thr s t).bare with phase := .restoring e.part e.slot, part := e.part, prio := e.prio }
  | .queue q =>
    if hq : q < 128 then
      let x := tq s q
      let s := setTq q { x with fetching := true } s
      let s := s.onSeq fun y => match h with
        | .e => { y with rrE := BitVec.ofNat 7 q }
        | .w => { y with rrW := BitVec.ofNat 7 q }
      setThr s t { (thr s t).bare with phase := .fetching ⟨q, hq⟩, part := x.part, prio := x.prio, queue := BitVec.ofNat 7 q }
    else s

/-- A preemption of this half is under way. -/
def preempting (th : Thread) : Bool :=
  match th.phase with
  | .draining k _ => k == 0
  | .saving k _ _ => k == 0
  | _ => false

/-- The better victim of two: lower priority, then started later (R227). -/
def victimOf (s : State) : List Nat → Option Nat
  | [] => none
  | i :: is =>
    match victimOf s is with
    | none => some i
    | some j =>
      let a := thr s i
      let b := thr s j
      if a.prio.toNat < b.prio.toNat ∨ (a.prio = b.prio ∧ b.started.toNat ≤ a.started.toNat) then some i else some j

/-- A waiting allocation of a thread is withdrawn without a thaw (R228). -/
def withdrawAlloc (t : ThreadId) (s : State) : State :=
  [Half.e, Half.w].foldl
    (fun s h => (waitQ s h).foldl
      (fun s w => match w.who with
        | .thread u _ => if u = t then setWaitQ h ((waitQ s h).erase w) (subUsed h w.part s) else s
        | _ => s) s) s

/-- What is left of an abandoned wait (R228); at least 1, since 0 says that there is none. -/
def waitLeftOf (s : State) (th : Thread) : Option (BitVec 64) :=
  match th.wait with
  | none => th.waitLeft
  | some w => if w.kind = 0 ∨ w.kind = 6 then th.waitLeft else some (BitVec.ofNat 64 (max 1 (w.limit - elapsed s w.start)))

/-- Preempt a task into slot k. An evaluation under way still ends the wait when it succeeds; a task whose exception is due takes that
instead (R228 edges). -/
def preempt (t : ThreadId) (k : Nat) (s : State) : State :=
  let th := thr s t.val
  match th.raised with
  | some c => raise t c.toNat none (modThr s t.val fun x => { x with raised := none })
  | none =>
    let left := waitLeftOf s th
    let s := match th.held with
      | some _ => s
      | none => takeSlot th.part.toNat k s
    let w : Wait := match th.wait with
      | some w => if w.eval.isSome then { w with kind := 6, start := s.clk.time } else hardWait s
      | none => hardWait s
    let s := withdrawAlloc t (stopThread t 0 0 s)
    modThr s t.val fun x => { x with waitLeft := left, wait := some w, held := some (th.held.getD (BitVec.ofNat 6 k)) }

/-- Move a task to another thread of the half (R357, R358): a wait is abandoned and keeps its remaining time (R228). -/
def moveThread (t u : ThreadId) (s : State) : State :=
  let th := thr s t.val
  let bare (x : Stream) : Stream := { x with xl := [], hit := [] }
  let n := { th with nextId := max th.nextId (thr s u.val).nextId, waitLeft := waitLeftOf s th, wait := none, xl := none, hit := none, s0 := bare th.s0, s1 := bare th.s1 }
  let s := forgetThread t (withdrawAlloc t s)
  setThr (setThr s u.val n) t.val th.bare

/-- A task can move: its accesses have completed and its streams stand at a unit boundary. -/
def canMove (s : State) (t : ThreadId) : Bool :=
  let th := thr s t.val
  (th.phase == .running || (th.phase == .halting && th.word.isNone)) && !freePending s t && th.outs.isEmpty && !inFlight s t 0 && !inFlight s t 1

/-- The tasks on cores out of service that wait for a thread of the half (R358). -/
def movers (s : State) (h : Half) : List ThreadId :=
  (threadsOf h).filterMap fun i =>
    if hi : i < 72 then
      if (logicalCore s (thrCore i)).isNone ∧ canMove s ⟨i, hi⟩ then some ⟨i, hi⟩ else none
    else none

def execDispatch (h : Half) (k : Fin 36) (s : State) : Host.Outcome State Fault Refusal :=
  answer s <|
    let ts := threadsOf h
    if !seqUp s h ∨ warmFenced s then s
    else if ts.any (isFree s) then
      let t := 36 * h.idx + k.val
      if ht : t < 72 then
        if !isFree s t then s
        else
          match movers s h, candidates s h with
          | m :: _, _ => moveThread m ⟨t, ht⟩ s
          | [], c :: _ => startCand t c.2 s
          | [], [] => s
      else s
    else
      match (candidates s h)[(ts.filter fun i => preempting (thr s i)).length]? with
      | none => s
      | some (p, _) =>
        let below := ts.filter fun i => (thr s i).phase == .running && decide ((thr s i).prio.toNat < p)
        let able := below.filter fun i => (thr s i).held.isSome || (freeSlot s (thr s i).part.toNat).isSome
        match victimOf s able with
        | some i =>
          -- within a self-test step of its core the preemption waits for the step's end (R350)
          if hi : i < 72 then
            if coreStepping s (thrCore i) then s else preempt ⟨i, hi⟩ ((freeSlot s (thr s i).part.toNat).getD 0) s
          else s
        | none => below.foldl (fun t i => modSp t (thr t i).part.toNat fun x => { x with noslot := true }) s

/-! ## Starting a task (R223 to R225) -/

/-- Read sectors through one of a core's caches: the data of each and whether it is poisoned, or none yet. -/
def roGather (c : Consumer) (t : ThreadId) (kind : RoKind) (part : Part) (sas : List (Sa × Half)) (s : State) :
    Option (List (BitVec 256 × Bool)) × State :=
  let k := thrCore t.val
  let idx := List.range sas.length
  let at_ (i : Nat) : Sa × Half := sas.getD i (0, .e)
  let missing := idx.filter fun i => (roFind s k kind (at_ i).1).isNone || s.cache.asked.contains (c, i)
  let fresh := (missing.filter fun i => !s.cache.asked.contains (c, i)).length
  let s := cnt 0x04B (some (thrHalf t.val)) (some part) fresh s
  let rs := missing.map fun i =>
    (i, mkReq s (.buf c i) (.read .sector (some (coreBit t.val)) false) (at_ i).1 part (thrHalf t.val) (at_ i).2)
  let g := gather c rs s
  match g.1 with
  | none => (none, g.2)
  | some xs =>
    let got := missing.zip xs
    let s := got.foldl
      (fun u e =>
        if e.2.status = 0 ∧ !e.2.untrk then
          roInsert k kind (at_ e.1).1 (e.2.data.extractLsb' (256 * sectorOf (at_ e.1).1) 256) u
        else u) g.2
    (some (idx.map fun i =>
      match got.find? fun e => e.1 == i with
      | some e => (e.2.data.extractLsb' (256 * sectorOf (at_ i).1) 256, decide (e.2.status ≠ 0))
      | none => match roFind s k kind (at_ i).1 with
        | some x => (x.data, false)
        | none => (0, true)), s)

/-- Descriptor k of a queue (R223). -/
def descSa (x : TaskQ) : Sa := BitVec.ofNat 52 (x.base.toNat * 4096 + 64 * (x.head.toNat % 2 ^ x.log2n.toNat))

/-- A descriptor read that fails suspends the queue. -/
def fetchErr (t : ThreadId) (q : Nat) (s : State) : State :=
  freeThread t (setTq q { tq s q with fetchErr := true, fetching := false } s)

/-- A well-formed task descriptor (R224). -/
def taskDescOk (d : Nat) : Bool :=
  decide (field d 0 3 = 0 ∧ field d 48 16 = 0 ∧ field d (8 * 48) 3 = 0 ∧ field d (8 * 44 + 1) 15 = 0 ∧ field d (8 * 46) 16 = 0)

/-- Start the task of a descriptor. -/
def startTask (t : ThreadId) (d : Nat) (s : State) : State :=
  let th := thr s t.val
  let a (i : Nat) : BitVec 64 := BitVec.ofNat 64 (field d (64 * i) 64)
  let s := cnt 0x041 (some (thrHalf t.val)) (some th.part) 1 s
  let n : Thread :=
    { th with phase := .running, pc := BitVec.ofNat 48 d, donePva := a 6, tag := a 7,
              thaw := BitVec.ofNat 24 (field d (8 * 40) 32), precise := decide (field d (8 * 44) 1 = 1), started := s.clk.time }
  if taskDescOk d then setThr s t.val ((((n.setG 1 (a 1)).setG 2 (a 2)).setG 3 (a 3)).setG 4 (a 4))
  else endKilled t 1 (setThr s t.val n)

def execDescriptorFetch (t : ThreadId) (s : State) : Host.Outcome State Fault Refusal :=
  answer s <|
    match (thr s t.val).phase with
    | .fetching q =>
      let x := tq s q.val
      let sa := descSa x
      match checkSa s (pipeView s (thrHalf t.val)) x.part none Rights.rd sa with
      | .error _ => fetchErr t q.val s
      | .ok sp =>
        let isDev : Bool := match sp with
          | .ctl _ => true
          | .bell _ => true
          | _ => false
        let h := sp.home t.val
        if isDev ∨ unavailable s h (thrHalf t.val) then fetchErr t q.val s
        else
          let g := roGather (.desc t) t .desc x.part [(sa, h), (sa + 32, h)] s
          match g.1 with
          | none => g.2
          | some ds =>
            let s := g.2
            if ds.any (·.2) then
              let c := consume x.part s
              fetchErr t q.val c.2
            else
              let d := (ds.getD 0 (0, true)).1.toNat + (ds.getD 1 (0, true)).1.toNat * 2 ^ 256
              startTask t d (setTq q.val { tq s q.val with head := x.head + 1, fetching := false } s)
    | _ => s

/-! ## Save and restore -/

def execSaveRecordDone (t : ThreadId) (s : State) : Host.Outcome State Fault Refusal := answer s (settle (saveStep t s))

/-- Bytes of a record that must be 0 (R230). -/
def recordReservedOk (r : Nat) : Bool :=
  decide (field r 48 16 = 0 ∧ field r (8 * 256 + 24) 8 = 0 ∧ field r (8 * 260 + 4) 4 = 0 ∧ field r (8 * 260 + 30) 2 = 0
    ∧ field r (8 * 264 + 24) 8 = 0 ∧ field r (8 * 268) 32 = 0 ∧ field r (8 * 304) 128 = 0 ∧ field r (8 * 464 + 3) 4 = 0
    ∧ field r (8 * 465 + 3) 4 = 0 ∧ field r (8 * 466) (8 * 42) = 0)

def recordCrcOk (r : Nat) : Bool := decide ((crc32c (toBytes 508 r)).toNat = field r (8 * 508) 32)

/-- A stream slot of a record. -/
def recStream (r : Nat) (i : Nat) : Stream :=
  let b := field r (8 * (464 + i)) 8
  if 128 ≤ b then
    { Stream.zero with used := true, tok := BitVec.ofNat 3 b, desc := BitVec.ofNat 512 (field r (8 * (320 + 64 * i)) 512),
                       line := BitVec.ofNat 32 (field r (8 * (448 + 8 * i)) 32),
                       donemap := BitVec.ofNat 32 (field r (8 * (452 + 8 * i)) 32) }
  else Stream.zero

/-- Token states after a restore: PARKED streams run again (R231). -/
def restoredToks (r : Nat) : BitVec 24 :=
  BitVec.ofNat 24 (((List.range 8).map fun k =>
    let v := field r (8 * 256 + 3 * k) 3
    (if v = tokParked then tokRun else v) * 2 ^ (3 * k)).sum)

/-- The thread takes every field of a record (R231). -/
def recThread (r : Nat) (slot : BitVec 6) (now : BitVec 64) : Thread :=
  let c := field r (8 * 260) 32
  let left := field r (8 * 272) 64
  { Thread.zero with
    phase := .running, pc := BitVec.ofNat 48 r,
    g := (List.range 31).foldl (fun t i => tset 0 t (i + 1) (BitVec.ofNat 64 (field r (64 * (i + 1)) 64))) [],
    toks := restoredToks r, precise := decide (field c 0 1 = 1), prio := BitVec.ofNat 2 (field c 16 2),
    queue := BitVec.ofNat 7 (field c 18 7), part := BitVec.ofNat 5 (field c 25 5), thaw := BitVec.ofNat 24 (field r (8 * 264) 24),
    waitLeft := if left = 0 then none else some (BitVec.ofNat 64 left), donePva := BitVec.ofNat 64 (field r (8 * 280) 64),
    tag := BitVec.ofNat 64 (field r (8 * 288) 64), started := now, slot := slot, slotV := true, held := some slot,
    s0 := recStream r 0, s1 := recStream r 1 }

/-- The record holds no LINE of a stream that is DONE: after a restore it is a free value (R230, R263; log entry 48). -/
def doneLines (t : ThreadId) (s : State) : State :=
  (List.range 8).foldl
    (fun s k =>
      if tokOf (thr s t.val) k = tokDone then
        let v := freeVal s
        modThr v.2 t.val fun x => { x with tokLine := tset 0 x.tokLine k (v.1.setWidth 32) }
      else s) s

/-- A restore whose check fails (R231): KILLED with reason 2, the slot freed; the record's DONE names the word (log entry 29). -/
def restoreFailed (t : ThreadId) (p : Part) (k : Nat) (done : BitVec 64) (s : State) : State :=
  endKilled t 2 (modThr (dropSlot p.toNat k s) t.val fun x => { x with donePva := done })

def execRestore (t : ThreadId) (s : State) : Host.Outcome State Fault Refusal :=
  answer s <|
    match (thr s t.val).phase with
    | .restoring p k =>
      let c : Consumer := .restore t
      match slotReqs s t c (slotSa s p.toNat k.toNat) Rights.rd fun _ => .read .line none false with
      | none => restoreFailed t p k.toNat 0 s
      | some rs =>
        let g := gather c rs s
        match g.1 with
        | none => g.2
        | some xs =>
          let r := ((List.range 4).map fun i => (xs.getD i (LineRes.st 0)).data.toNat * 2 ^ (1024 * i)).sum
          if xs.any (fun x => x.status != 0) then restoreFailed t p k.toNat 0 g.2
          else if !recordCrcOk r ∨ !recordReservedOk r then
            restoreFailed t p k.toNat (BitVec.ofNat 64 (field r (8 * 280) 64)) g.2
          else
            let s := cnt 0x043 (some (thrHalf t.val)) (some p) 1 g.2
            let s := doneLines t (setThr s t.val { recThread r k s.clk.time with nextId := (thr s t.val).nextId })
            if fenced s (thr s t.val).part then endKilled t 4 (firstIssue t s) else s
    | _ => s

/-! ## Accesses of a thread (R214) -/

/-- A new outstanding access: its number, and the state. -/
def issueOut (t : ThreadId) (line : Sa) (store : Bool) (dest : BitVec 5) (count : Nat) (pva : BitVec 48) (viaRo : Bool)
    (s : State) : Nat × State :=
  let th := thr s t.val
  (th.nextId, setThr s t.val { th with
    nextId := th.nextId + 1,
    outs := th.outs ++ [{ id := th.nextId, line := lineOf line, store := store, dest := dest, count := count, result := none,
                          pva := pva, viaRo := viaRo, void := false }] })

/-- Sixteen accesses are outstanding (R214, R260). -/
def outsFull (s : State) (t : ThreadId) : Bool := decide (16 ≤ (thr s t.val).outs.length)

/-- Evaluate a waiting SEMW or WAITT (R271). -/
def issueEval (t : ThreadId) (x : Space) (w : Wait) (s : State) : State :=
  let th := thr s t.val
  let r := issueOut t w.sa false 0 0 w.pva false (firstIssue t s)
  let s := modThr r.2 t.val fun y => { y with wait := some { w with eval := some r.1, again := false } }
  if w.kind = 2 then
    acceptAtom (.thread t r.1) .semw true 0 0 w.sa th.part (thrHalf t.val) (x.home t.val) (thrMaster s t.val) s
  else
    enqueue (mkReq s (.thread t r.1) (.read (.bytes (field w.sa.toNat 0 7) 8 false) none false) w.sa th.part (thrHalf t.val)
      (x.home t.val)) s

/-- The value of an evaluation: the wait ends, or goes on. A SEMW waits for a value other than 0 (R269). -/
def endEval (t : ThreadId) (w : Wait) (v : List (BitVec 64)) (s : State) : State :=
  let met : Bool := match v with
    | [] => false
    | x :: _ => cond w.cond.toNat x w.cmp
  let still (y : Thread) : Bool := y.phase == .running
  if met then
    modThr (retire t (fun y => (y.setG w.dest.toNat 0).next) s) t.val fun y => if still y then y else { y with wait := some (hardWait s) }
  else modThr s t.val fun y => { y with wait := some { w with eval := none } }

def execThreadAccessComplete (t : ThreadId) (k : Nat) (s : State) : Host.Outcome State Fault Refusal :=
  answer s <|
    match (thr s t.val).outs[k]? with
    | none => s
    | some o =>
      match o.result with
      | none => s
      | some v =>
        let s := modThr s t.val fun x => { x with outs := x.outs.erase o }
        match (thr s t.val).wait with
        | some w =>
          if w.eval = some o.id then haltCheck t (endEval t w v s)
          else haltCheck t (modThr s t.val fun x =>
            (List.range o.count).foldl (fun y i => y.setG (o.dest.toNat + i) (v.getD i 0)) x)
        | none =>
          haltCheck t (modThr s t.val fun x =>
            (List.range o.count).foldl (fun y i => y.setG (o.dest.toNat + i) (v.getD i 0)) x)

/-! ## Waits (R242, R271) -/

/-- The timeout of a thread's wait, in counts (R242, R243): what a restored task has left of it, else TH_THAW or the
partition's. -/
def thawLimit (s : State) (th : Thread) : Nat :=
  match th.waitLeft with
  | some x => x.toNat
  | none => if th.thaw = 0 then thawNs s th.part.toNat else th.thaw.toNat * 1000

/-- LINE of a token's stream, running or ended (R239, R263). -/
def tokLine (th : Thread) (k : Nat) : BitVec 32 :=
  match slotOfTok th k with
  | some i => (th.slotOf i).line
  | none => tget 0 th.tokLine k

/-- A status word with its upper half (R249). -/
def statusWord (st : Nat) (hi : BitVec 32) : BitVec 64 := BitVec.ofNat 64 (st + hi.toNat * 2 ^ 32)

/-- The waiter of an allocation by a thread. -/
def allocWaiter (s : State) (t : ThreadId) : Option (Half × Waiter) :=
  let mine (w : Waiter) : Bool := match w.who with
    | .thread u _ => u == t
    | _ => false
  match s.buf.waitE.find? mine with
  | some w => some (.e, w)
  | none => (s.buf.waitW.find? mine).map fun w => (.w, w)

/-- A wait's timeout has come (R242). -/
def thaw (t : ThreadId) (s : State) : State :=
  let th := thr s t.val
  match th.wait with
  | none => s
  | some w =>
    if th.phase ≠ .running ∨ w.kind = 0 ∨ w.kind = 6 ∨ !due s w.start w.limit ∨ w.eval.isSome then s
    else if w.kind = 4 then
      match allocWaiter s t with
      | none => s
      | some (h, x) => endWaiter h x stThawed (countThaw s h x.part)
    else
      let hi : BitVec 32 := if w.kind = 1 then tokLine th w.tok.toNat else 0
      retire t (fun y => (y.setG w.dest.toNat (statusWord 1 hi)).next)
        (forgetInstr t (countThaw s (thrHalf t.val) th.part))

def execThaw (t : ThreadId) (s : State) : Host.Outcome State Fault Refusal := answer s (thaw t s)

/-- A SEMW or WAITT evaluates again, after a completed write to its line (R271). Each evaluation is an access of its own, so it
translates again. -/
def execWaitReevaluate (t : ThreadId) (s : State) : Host.Outcome State Fault Refusal :=
  answer s <|
    let th := thr s t.val
    match th.wait with
    | none => s
    | some w =>
      if th.phase ≠ .running ∨ (w.kind ≠ 2 ∧ w.kind ≠ 3) ∨ w.eval.isSome ∨ !w.again ∨ th.xl.isSome ∨ outsFull s t then s
      else
        let need := if w.kind = 2 then Rights.atom else Rights.rd
        let kind := if w.kind = 2 then 2 else 0
        let pva : BitVec 64 := w.pva.setWidth 64
        let r := reach t.val th.part pva need need kind noDev th.hit s
        match r.1 with
        | .go x sa => settle (issueEval t x { w with sa := sa } (modThr r.2 t.val fun y => { y with hit := none }))
        | .fault c i => raiseAny t c i r.2
        | .wait => missInstr t pva need kind false r.2

end Sys2Proof.Machine
end

