-- ==== Sys2Proof/Machine/Xlt.lean ====
section
/-! DEFINITION. Table walks, invalidation of translations and fault queues (chapter 4), and the stop of a stream (R239 to R241). -/

namespace Sys2Proof.Machine

/-! ## A stream stops or ends (R239 to R241) -/

/-- A waiting SWAIT whose token has left RUN completes (R240, R263). -/
def swaitCheck (t : ThreadId) (s : State) : State :=
  let th := thr s t.val
  match th.wait with
  | none => s
  | some w =>
    let k := w.tok.toNat
    let st := tokOf th k
    if th.phase ≠ .running ∨ w.kind ≠ 1 ∨ st = tokRun then s
    else
      let code : Nat := if st = tokDone then 0 else if st = tokFaulted then 9 else 10
      let hi : BitVec 32 := if st = tokIdle then 0 else tokLine th k
      retire t (fun y => ((if st = tokDone then y.setTok k tokIdle else y).setG w.dest.toNat (statusWord code hi)).next) s

/-- Record the fault that stops a stream (R114, R241): LINE is its progress, and for a check block the block's lowest unit. A fault with
code 0 stands for UNAVAILABLE, which writes no record (log entry 31). -/
def streamRecord (t : ThreadId) (i : Fin 2) (f : FaultInfo) (s : State) : State :=
  let th := thr s t.val
  let x := th.slotOf i
  let line : Nat := if f.kind = 7 ∨ f.code = 0x0D then f.line else x.line.toNat
  let r := if f.code = 0 then (none, s) else recordFault { f with line := line, token := some x.tok.toNat } th.part s
  let s := cnt 0x046 (some (thrHalf t.val)) (some th.part) 1 r.2
  let s := if f.code = 0x0C then (consume th.part s).2 else s
  settle (modThr s t.val fun y => y.setSlot i { y.slotOf i with recorded := true, recSlot := r.1 })

/-- The stream is FAULTED; with PRECISE at 1 the thread takes the exception at its next instruction boundary, which a thread that drains
for a preemption or a yield has reached (R241, R252; log entry 124). -/
def streamFaulted (t : ThreadId) (i : Fin 2) (f : FaultInfo) (s : State) : State :=
  let cause : BitVec 8 := if f.code = 0 then 8 else BitVec.ofNat 8 (0x10 + f.code)
  let s := modThr s t.val fun y =>
    let x := y.slotOf i
    let y := (y.setSlot i { x with stop := none, recorded := false, recSlot := none, xl := [], hit := [], failed := [] }).setTok
      x.tok.toNat tokFaulted
    if !y.precise then y
    else
      match y.phase with
      | .running => { y with raised := some cause }
      | .draining k _ => if k = 0 ∨ k = 3 then { y with phase := .draining 1 cause } else y
      | _ => y
  haltCheck t (swaitCheck t s)

/-- A stopping stream whose units in flight have all ended: its fault is recorded, and once the record is complete the stream is FAULTED
(R114, R239, R241; log entry 123). -/
def stopCheck (t : ThreadId) (i : Fin 2) (s : State) : State :=
  let x := (thr s t.val).slotOf i
  match x.stop with
  | none => s
  | some f =>
    if inFlight s t i then s
    else
      let s := if x.recorded then s else streamRecord t i f s
      let th := thr s t.val
      let x := th.slotOf i
      if x.stop.isNone ∨ recPending s th.part x.recSlot then s else streamFaulted t i f s

/-- A unit of a stream faults, f.line its number: the fault of the lowest unit stops the stream. -/
def streamFault (t : ThreadId) (i : Fin 2) (f : FaultInfo) (s : State) : State :=
  let th := thr s t.val
  let x := th.slotOf i
  let f := { f with time := some s.clk.time }
  let f := match x.stop with
    | some g => if f.line < g.line then f else g
    | none => f
  stopCheck t i (setThr s t.val (th.setSlot i { x with stop := some f }))

/-- A check block fails, f.line its lowest unit: none of its units is written (R333). -/
def blockFault (t : ThreadId) (i : Fin 2) (f : FaultInfo) (s : State) : State :=
  streamFault t i f (modThr s t.val fun y => y.setSlot i { y.slotOf i with failed := f.line :: (y.slotOf i).failed })

/-! ## Walks (R102 to R107) -/

/-- The translations that a thread's instruction or stream waits for. -/
def xlReqs (s : State) (t : ThreadId) (src : XlSrc) : List XlReq :=
  match src with
  | .instr => (thr s t.val).xl.toList
  | .stream i => ((thr s t.val).slotOf i).xl

/-- What an access still waits for. -/
def xlOf (s : State) (m : Miss) : Option XlReq := (xlReqs s m.t m.src).find? fun q => q.num == m.num

/-- Unit u leaves flight. -/
def dropFlight (t : ThreadId) (i : Fin 2) (u : Nat) (s : State) : State :=
  modThr s t.val fun y =>
    let x := y.slotOf i
    y.setSlot i { x with flights := x.flights.filter fun f => f.unit != u, xl := x.xl.filter fun q => q.kind == 7 || q.line != u,
                         hit := x.hit.filter fun e => e.1.kind == 7 || e.1.line != u }

/-- End an access's wait without a translation. -/
def walkFail (m : Miss) (code level sub : Nat) (sa : Option Sa) (s : State) : State :=
  let t := m.t
  match xlOf s m with
  | none => s
  | some q =>
    let i : FaultInfo := { pva := q.pva.setWidth 48, sa := sa, sub := sub, code := code, level := level, kind := q.kind.toNat,
                           thread := t.val, token := none, line := q.line, time := none }
    match m.src with
    | .stream j =>
      if q.kind = 7 then
        blockFault t j i (modThr s t.val fun y => y.setSlot j { y.slotOf j with xl := (y.slotOf j).xl.filter fun x => x.num != q.num })
      else streamFault t j i (dropFlight t j q.line s)
    | .instr =>
      let s := modThr s t.val fun x => { x with xl := none, hit := none }
      if (thr s t.val).word.isSome then freeThread t (doneLost (thr s t.val).queue.toNat s)
      else if q.silent then retire t Thread.next s
      else if code = 0 then raise t 0x08 none s
      else raise t (0x10 + code) (some i) s

/-- Hand a translation to an access that waits for it. One that an invalidation or a root change has overtaken serves that access
alone (R97, R111). -/
def walkGive (m : Miss) (e : Tlb) (noFill : Bool) (s : State) : State :=
  let t := m.t
  match xlOf s m with
  | none => s
  | some q =>
    match m.src with
    | .instr => wordAttempt t (modThr s t.val fun x => { x with xl := none, hit := some e })
    | .stream j =>
      modThr s t.val fun y =>
        let x := y.slotOf j
        let x := { x with xl := x.xl.filter fun r => r.num != q.num, hit := (q, e) :: x.hit }
        y.setSlot j (if noFill then x else if q.kind = 4 then { x with src := some e } else if q.kind = 5 then { x with dst := some e } else x)

def walkWaitOf (s : State) (h : Half) : List Miss := h.pick s.xlt.walkWaitE s.xlt.walkWaitW
def setWalkWait (h : Half) (ws : List Miss) (s : State) : State :=
  s.onXlt fun x => match h with
    | .e => { x with walkWaitE := ws }
    | .w => { x with walkWaitW := ws }

/-- A walk of an access's page whose result it may use: not one that was overtaken before the access missed. -/
def Walk.serves (w : Walk) (p : Part) (page : BitVec 36) : Bool := w.part == p && w.vpage == page && !w.noFill

/-- A miss: it merges into a walk for its page, starts one, or waits for a walk to end (R107). -/
def walkBegin (m : Miss) (q : XlReq) (s : State) : State :=
  let h := thrHalf m.t.val
  let th := thr s m.t.val
  let ws := walks s h
  let page : BitVec 36 := q.pva.extractLsb' 12 36
  if ws.any fun w => w.serves th.part page then
    setWalks h (ws.map fun w => if w.serves th.part page then { w with waiters := w.waiters ++ [m] } else w) s
  else if 16 ≤ ws.length then setWalkWait h (walkWaitOf s h ++ [m]) s
  else
    let r := partReg (walkView s h) th.part.toNat
    if !r.rootEn then walkFail m 0x01 4 0 none s
    else
      let w : Walk := { id := s.xlt.walkIds, part := th.part, vpage := page, level := 3, table := r.root,
                        rights := { r := true, w := true, a := true, x := true }, waiters := [m], noFill := false }
      cnt 0x04A (some h) (some th.part) 1
        ((setWalks h (ws ++ [w]) s).onXlt fun x => { x with walkIds := x.walkIds + 1 })

/-- The next access of a thread's instruction or stream whose miss no walk serves yet. -/
def walkMiss (t : ThreadId) (src : XlSrc) (s : State) : State :=
  let h := thrHalf t.val
  let served (m : Miss) : Bool := (walks s h).any (fun w => w.waiters.contains m) || (walkWaitOf s h).contains m
  match (xlReqs s t src).find? fun q => !served ⟨t, src, q.num⟩ with
  | none => s
  | some q => walkBegin ⟨t, src, q.num⟩ q s

def execTranslationMiss (t : ThreadId) (src : XlSrc) (s : State) : Host.Outcome State Fault Refusal :=
  answer s (if seqRuns s (thrHalf t.val) ∧ !warmFenced s then settle (walkMiss t src s) else s)

/-- The misses that wait take the slots that are free, in order. -/
def walkNext : Nat → Half → State → State
  | 0, _, s => s
  | n + 1, h, s =>
    match walkWaitOf s h with
    | [] => s
    | m :: rest =>
      if 16 ≤ (walks s h).length then s
      else
        let t := setWalkWait h rest s
        walkNext n h (match xlOf t m with
          | none => t
          | some q => walkBegin m q t)

/-- A walk leaves its slot, and the misses that wait longest take what is free. -/
def walkLeave (h : Half) (id : Nat) (s : State) : State :=
  walkNext (walkWaitOf s h).length h (setWalks h ((walks s h).filter fun w => !(w.id == id)) s)

/-- A walk fails for all its accesses. -/
def walkEndFail (h : Half) (w : Walk) (code sub : Nat) (sa : Option Sa) (s : State) : State :=
  settle (walkLeave h w.id (w.waiters.foldl (fun t a => walkFail a code w.level sub sa t) (forget (.walk h w.id) s)))

/-- Entry bits that R100 forbids. -/
def formatBad (e level : Nat) : Bool :=
  let leaf : Bool := decide (level = 0 ∨ field e 5 1 = 1)
  decide (field e 6 2 ≠ 0 ∨ field e 52 12 ≠ 0 ∨ (level = 3 ∧ field e 5 1 = 1) ∨ (level = 2 ∧ leaf ∧ field e 12 18 ≠ 0)
    ∨ (level = 1 ∧ leaf ∧ field e 12 9 ≠ 0))

/-- Rights R W A X of an entry (R99). -/
def entryRights (e : Nat) : Rights :=
  { r := decide (field e 1 1 = 1), w := decide (field e 2 1 = 1), a := decide (field e 3 1 = 1), x := decide (field e 4 1 = 1) }

def Rights.meet (a b : Rights) : Rights := { r := a.r && b.r, w := a.w && b.w, a := a.a && b.a, x := a.x && b.x }

/-- Address of the entry a walk reads next (R98). -/
def walkEa (w : Walk) : Sa :=
  BitVec.ofNat 52 (w.table.toNat * 4096 + 8 * field w.vpage.toNat (9 * w.level) 9)

/-- A leaf ends the walk: each access gets the translation, or PAGE-RIGHTS. -/
def walkLeaf (h : Half) (w : Walk) (e : Nat) (ea : Sa) (s : State) : State :=
  let size := BitVec.ofNat 2 w.level
  let x : Tlb := { part := w.part, vpage := BitVec.ofNat 36 (w.vpage.toNat / 2 ^ (9 * w.level)), size := size,
                   sa := BitVec.ofNat 40 (field e 12 40), rights := w.rights.meet (entryRights e), ref := true }
  let good (s : State) (a : Miss) : Bool := match xlOf s a with
    | none => false
    | some q => x.rights.pageGrants q.need
  let s := if !w.noFill ∧ w.waiters.any (good s) then tlbFill h x s else s
  let s := w.waiters.foldl (fun t a => if good t a then walkGive a x w.noFill t else walkFail a 0x02 w.level 0 (some ea) t) s
  settle (walkLeave h w.id s)

/-- One table read of a walk (R102). A table whose home half is off ends the access UNAVAILABLE, without a fault record (log entry 117). -/
def walkRead (h : Half) (w : Walk) (s : State) : State :=
  let ea := walkEa w
  if bit ea 51 ∧ bit ea 50 then walkEndFail h w 0x05 0 (some ea) s
  else
    match checkSa s (pipeView s h) 0 none Rights.rd ea with
    | .error st => walkEndFail h w 0x04 (7 + st) (some ea) s
    | .ok x =>
      let home := x.half h
      if unavailable s home h then walkEndFail h w 0 0 none s
      else
        let off := field ea.toNat 0 7
        let g := gather (.walk h w.id) [(w.level, mkReq s .own (.read (.bytes off 8 false) none false) ea 0 h home)] s
        match g.1 with
        | none => g.2
        | some xs =>
          let a := xs.headD (LineRes.st stPoison)
          let e := a.data.toNat / 2 ^ (8 * off) % 2 ^ 64
          if a.status ≠ 0 then walkEndFail h w 0x03 0 (some ea) g.2
          else if field e 0 1 = 0 then walkEndFail h w 0x01 0 (some ea) g.2
          else if formatBad e w.level then walkEndFail h w 0x06 0 (some ea) g.2
          else if w.level = 0 ∨ field e 5 1 = 1 then walkLeaf h w e ea g.2
          else
            setWalks h ((walks g.2 h).map fun y =>
              if y.id = w.id then { y with level := w.level - 1, table := BitVec.ofNat 40 (field e 12 40),
                                           rights := w.rights.meet (entryRights e) } else y) g.2

def execWalkTableRead (h : Half) (k : Nat) (s : State) : Host.Outcome State Fault Refusal :=
  answer s <|
    match (walks s h)[k]? with
    | none => s
    | some w => if seqRuns s h then walkRead h w s else s

/-! ## XLT_INV (R110, R111) -/

/-- The invalidation covers a cached translation. -/
def XInv.hits (i : XInv) (e : Tlb) : Bool :=
  if i.scope = 2 then true else if i.scope = 0 then e.maps i.part (i.page.toNat * 4096) else e.part == i.part

/-- The invalidation may concern a walk: its page lies in the same 1 GiB. -/
def XInv.hitsWalk (i : XInv) (w : Walk) : Bool :=
  i.scope == 2 || (w.part == i.part && (i.scope != 0 || decide (w.vpage.toNat / 2 ^ 18 = i.page.toNat / 2 ^ 18)))

/-- Work of a thread on translated addresses: what it is collecting, and the units of its streams that have translated an end. -/
def threadWork (s : State) (t : ThreadId) : List Consumer :=
  let reads : List Consumer := (s.cache.asked.map (·.1)).filter fun c => match c with
    | .fetch u => u == t
    | .next u => u == t
    | .smov u => u == t
    | .cktag u => u == t
    | .tag u _ _ => u == t
    | _ => false
  let units (i : Fin 2) : List Consumer :=
    (((thr s t.val).slotOf i).flights.filter fun f => f.src.isSome || f.dst.isSome).map fun f => .source t i f.unit
  reads.eraseDups ++ units 0 ++ units 1

/-- The work goes on. -/
def workLeft (s : State) (c : Consumer) : Bool :=
  match c with
  | .source t i u => ((thr s t.val).slotOf i).flights.any fun f => f.unit == u
  | _ => s.cache.asked.any fun e => e.1 == c

/-- The threads that run a task of the invalidation's partition. -/
def XInv.threads (i : XInv) (s : State) : List ThreadId :=
  (List.finRange 72).filter fun t => (thr s t.val).phase != .free && (i.scope == 2 || (thr s t.val).part == i.part)

def threadOuts (s : State) (t : ThreadId) : List (ThreadId × Nat) := (thr s t.val).outs.map fun o => (t, o.id)

/-- Begin an invalidation: entries go at once, overtaken walks fill nothing, and what is in flight is noted. -/
def invStart (i : XInv) (s : State) : State :=
  let mark (h : Half) (t : State) : State := setWalks h ((walks t h).map fun w => { w with noFill := w.noFill || i.hitsWalk w }) t
  let ws (h : Half) : List Walk := (walks s h).filter fun w => i.hitsWalk w
  let ts := i.threads s
  let i := { i with walks := (ws .e).map (fun w => (Half.e, w.id)) ++ (ws .w).map (fun w => (Half.w, w.id)),
                    waits := (ws .e ++ ws .w).flatMap (fun w => w.waiters), outs := ts.flatMap (threadOuts s),
                    units := ts.flatMap (threadWork s), posted := s.cache.posted }
  let s := mark .w (mark .e s)
  let s := keepTlb .w (fun e => !i.hits e) (keepTlb .e (fun e => !i.hits e) s)
  s.onXlt fun x => { x with inv := some i }

/-- A write of XLT_INV by a partition; the effective partition and scope for a tenant are its own (R110). -/
def xltInv (part : Part) (v : BitVec 64) (s : State) : State :=
  if s.xlt.inv.isSome then s.onXlt fun x => { x with errInvBusy := true, ref := setBit x.ref part.toNat true }
  else
    let sc : BitVec 2 := v.extractLsb' 53 2
    let sc : BitVec 2 := if sc = 3 ∨ (sc = 2 ∧ part ≠ 0) then 1 else sc
    let p : Part := if part = 0 then v.extractLsb' 48 5 else part
    invStart { scope := sc, part := p, page := v.extractLsb' 12 36, walks := [], waits := [], outs := [], units := [], posted := [] }
      (s.onXlt fun x => { x with ref := setBit x.ref part.toNat false })

def execXltInv (part : Part) (v : BitVec 64) (s : State) : Host.Outcome State Fault Refusal := answer s (ifUp 3 4 (xltInv part v) s)

/-- The access has not used the result of its walk yet. -/
def missWaits (s : State) (m : Miss) : Bool :=
  (xlOf s m).isSome || (match m.src with
    | .instr => (thr s m.t.val).hit.isSome
    | .stream i => ((thr s m.t.val).slotOf i).hit.any fun e => e.1.num == m.num)

/-- What an invalidation still waits for (R111): an access that has its overtaken translation counts with what its thread has issued
since. -/
def XInv.rest (i : XInv) (s : State) : XInv :=
  let ready := i.waits.filter fun m => !missWaits s m
  { i with
    walks := i.walks.filter fun a => (Machine.walks s a.1).any fun w => w.id == a.2,
    waits := i.waits.filter (missWaits s),
    outs := (i.outs.filter fun a => (thr s a.1.val).outs.any fun o => o.id == a.2) ++ ready.flatMap (fun m => threadOuts s m.t),
    units := i.units.filter (workLeft s) ++ ready.flatMap (fun m => threadWork s m.t),
    posted := s.cache.posted.filter fun a => i.posted.contains a || ready.any fun m => m.t == a.1 }

def XInv.finished (i : XInv) : Bool :=
  i.walks.isEmpty && i.waits.isEmpty && i.outs.isEmpty && i.units.isEmpty && i.posted.isEmpty

def execXltInvComplete (s : State) : Host.Outcome State Fault Refusal :=
  answer s <|
    match s.xlt.inv with
    | none => s
    | some i =>
      let j := i.rest s
      s.onXlt fun x => { x with inv := if j.finished then none else some j }

/-! ## Registers (R97, R115) -/

/-- A shadow write of XLT_ROOT: refused for a root in DEV space (R97). -/
def writeRoot (p : Nat) (v : BitVec 64) (s : State) : State :=
  let root : BitVec 40 := v.extractLsb' 12 40
  if pageDev root then s.onXlt fun x => { x with errRoot := true }
  else s.onShadow fun y => { y with part := tmod PartReg.zero y.part p fun q => { q with rootEn := bit v 0, root := root } }

/-- A write of XLT_FQ_BASE or XLT_FQ_CTL, as the values the queue would have (R115). -/
def writeFq (p : Nat) (en : Bool) (base : BitVec 40) (l : BitVec 4) (s : State) : State :=
  let q := faultQ s p
  let moved : Bool := decide (¬ (base = q.base ∧ l = q.log2n))
  if (q.en ∧ moved) ∨ l.toNat < 7 ∨ 12 < l.toNat ∨ (base.toNat * 4096) % (32 * 2 ^ l.toNat) ≠ 0 ∨ pageDev base then
    s.onXlt fun x => { x with errFqcfg := true }
  else setFaultQ s p { q with en := en, base := base, log2n := l }

/-- A write of a free-running HEAD is in range: not below the old one, not above TAIL (R115). -/
def headOk (old tail new : BitVec 32) : Bool := decide ((new - old).toNat ≤ (tail - old).toNat)

def writeFqHead (p : Nat) (v : BitVec 32) (s : State) : State :=
  let q := faultQ s p
  if headOk q.head q.tail v then setFaultQ s p { q with head := v } else s.onXlt fun x => { x with errHead := true }

end Sys2Proof.Machine
end

