-- ==== Sys2Proof/Machine/Stream.lean ====
section
/-! DEFINITION. Streams (R235 to R241) with their check tags (R332 to R334): a command completes one unit, or takes it as far
as the lines it needs are there. -/

namespace Sys2Proof.Machine

/-! ## The descriptor (R235) -/

/-- A stream descriptor's fields. -/
structure SDesc where
  src : Nat
  dst : Nat
  c0 : Nat
  c1 : Nat
  c2 : Nat
  c3 : Nat
  es : Nat
  melt : Bool
  pin : Bool
  chk : Nat
  ss : List Int
  ds : List Int
  tags : Nat
  deriving DecidableEq, Repr, Inhabited

/-- A signed 32-bit field. -/
def signed32 (v : Nat) : Int := if v < 2 ^ 31 then v else (v : Int) - 2 ^ 32

def parseDesc (v : BitVec 512) : SDesc :=
  let d := v.toNat
  { src := field d 0 64, dst := field d 64 64, c0 := field d 128 32, c1 := field d 160 16, c2 := field d 176 16,
    c3 := field d 192 16, es := 2 ^ field d 208 3, melt := decide (field d 216 1 = 1), pin := decide (field d 217 1 = 1),
    chk := field d 218 2, ss := [signed32 (field d 224 32), signed32 (field d 256 32), signed32 (field d 288 32)],
    ds := [signed32 (field d 320 32), signed32 (field d 352 32), signed32 (field d 384 32)], tags := field d 448 64 }

/-- Elements of the stream. -/
def SDesc.total (d : SDesc) : Nat := d.c0 * d.c1 * d.c2 * d.c3

/-- The byte offset of element e under strides (R235). -/
def SDesc.offset (d : SDesc) (st : List Int) (e : Nat) : Int :=
  (e % d.c0 * d.es : Nat) + (e / d.c0 % d.c1 : Nat) * st.getD 0 0 + (e / (d.c0 * d.c1) % d.c2 : Nat) * st.getD 1 0
    + (e / (d.c0 * d.c1 * d.c2) : Nat) * st.getD 2 0

/-- Source and destination address of element e, modulo 2^64. -/
def SDesc.srcAt (d : SDesc) (e : Nat) : Nat := (BitVec.ofInt 64 (d.src + d.offset d.ss e)).toNat
def SDesc.dstAt (d : SDesc) (e : Nat) : Nat := (BitVec.ofInt 64 (d.dst + d.offset d.ds e)).toNat

/-- Two elements share their source line and their destination line. -/
def SDesc.together (d : SDesc) (e f : Nat) : Bool :=
  decide (d.srcAt e / 128 = d.srcAt f / 128 ∧ d.dstAt e / 128 = d.dstAt f / 128)

/-- Units among the first n elements (R236). -/
def SDesc.unitsUpTo (d : SDesc) : Nat → Nat
  | 0 => 0
  | n + 1 => d.unitsUpTo n + (if n = 0 ∨ !d.together (n - 1) n then 1 else 0)

def SDesc.units (d : SDesc) : Nat := d.unitsUpTo d.total

/-- One past the last element of the unit that element e belongs to. -/
def SDesc.unitEnd (d : SDesc) : Nat → Nat → Nat
  | 0, e => e + 1
  | fuel + 1, e => if e + 1 < d.total ∧ d.together e (e + 1) then d.unitEnd fuel (e + 1) else e + 1

/-- First element of unit n. -/
def SDesc.unitStart (d : SDesc) : Nat → Nat
  | 0 => 0
  | n + 1 => d.unitEnd d.total (d.unitStart n)

/-- The bytes that elements e to e + n - 1 write, and their values, from the source line. -/
def SDesc.move (d : SDesc) (line : BitVec 1024) (e : Nat) : Nat → BitVec 128 × BitVec 1024
  | 0 => (0, 0)
  | n + 1 =>
    let r := d.move line e n
    let so := d.srcAt (e + n) % 128
    let dof := d.dstAt (e + n) % 128
    let m := byteMask dof d.es
    (r.1 ||| m, mergeBytes m r.2 (BitVec.ofNat 1024 (line.toNat / 2 ^ (8 * so) % 2 ^ (8 * d.es) * 2 ^ (8 * dof))))

/-- Sectors of the source line that elements e to e + n - 1 read. -/
def SDesc.srcSectors (d : SDesc) (e : Nat) : Nat → BitVec 4
  | 0 => 0
  | n + 1 =>
    let so := d.srcAt (e + n) % 128
    d.srcSectors e n ||| (sectors fun j => decide (so / 32 ≤ j ∧ j ≤ (so + d.es - 1) / 32))

/-- The distinct 4 KiB blocks that the first n elements touch, by an address function, in visiting order (R332). -/
def blocksUpTo (f : Nat → Nat) : Nat → List Nat
  | 0 => []
  | n + 1 =>
    let r := blocksUpTo f n
    if r.contains (f n / 4096) then r else r ++ [f n / 4096]

/-- Index of a block in a list. -/
def blockIdx (bs : List Nat) (b : Nat) : Nat := bs.findIdx fun x => x == b

/-- The lowest unit that touches a block by an address function: of the first n elements. -/
def lowestUnit (d : SDesc) (f : Nat → Nat) (b : Nat) : Nat :=
  match (List.range d.total).find? fun e => f e / 4096 == b with
  | none => 0
  | some e => d.unitsUpTo (e + 1) - 1

/-- A well-formed descriptor (R263), whose units are at most its elements: reserved fields 0, counts at least 1, alignment, fewer than 2^32 units, DST of PIN in this
slice's BUF space, TAGS aligned. -/
def descOk (s : State) (v : BitVec 512) : Bool :=
  let n := v.toNat
  let d := parseDesc v
  let resOk : Bool := decide (field n 48 16 = 0 ∧ field n 211 5 = 0 ∧ field n 220 4 = 0 ∧ field n 416 32 = 0
    ∧ (if d.pin then field n 116 12 = 0 else field n 112 16 = 0))
  let al (x : Int) : Bool := decide (x % (d.es : Int) = 0)
  let pinOk : Bool := match decodeSa s s.cur (BitVec.ofNat 52 d.dst) with
    | .ok (.buf _ _) => true
    | _ => false
  resOk && decide (1 ≤ d.c0 ∧ 1 ≤ d.c1 ∧ 1 ≤ d.c2 ∧ 1 ≤ d.c3) && al d.src && al d.dst && d.ss.all al && d.ds.all al &&
  (d.chk == 0 || decide (d.tags % 4 = 0)) && (!d.pin || pinOk) && (decide (d.total < 2 ^ 32) || decide (d.units < 2 ^ 32))

/-! ## Progress (R239) -/

/-- Unit LINE is complete: LINE moves past it, and past the completed units that follow (DONEMAP bit j is unit LINE + 1 + j). -/
def Stream.advance : Nat → Stream → Stream
  | 0, x => { x with line := x.line + 1, donemap := x.donemap >>> 1 }
  | n + 1, x =>
    let y := { x with line := x.line + 1, donemap := x.donemap >>> 1 }
    if bit x.donemap 0 then Stream.advance n y else y

/-- Unit u is complete. -/
def Stream.complete (x : Stream) (u : Nat) : Stream :=
  if u = x.line.toNat then Stream.advance 32 x
  else { x with donemap := setBit x.donemap (u - x.line.toNat - 1) true }

/-- Unit u is complete. -/
def Stream.unitComplete (x : Stream) (u : Nat) : Bool :=
  decide (u < x.line.toNat) || (decide (x.line.toNat < u) && bit x.donemap (u - x.line.toNat - 1))

/-- The unit that the stream starts next: the lowest that is neither complete nor in flight, of the 33 that its progress can tell (R239),
when fewer than 32 are in flight (R238). -/
def Stream.nextUnit (x : Stream) (units : Nat) : Option Nat :=
  if 32 ≤ x.flights.length then none
  else ((List.range 33).map fun j => x.line.toNat + j).find? fun u =>
    decide (u < units) && !x.unitComplete u && !x.flights.any fun f => f.unit == u

/-- The stream has ended: its token is DONE and its slot is free (R240). -/
def streamDone (t : ThreadId) (i : Fin 2) (s : State) : State :=
  let th := thr s t.val
  let x := th.slotOf i
  let k := x.tok.toNat
  haltCheck t (swaitCheck t (setThr s t.val
    { (th.setSlot i Stream.zero).setTok k tokDone with tokLine := tset 0 th.tokLine k x.line }))

/-! ## Translation (R112, R238) -/

/-- Translate and check an address for unit `line` of a stream, or for the check tag of the block whose lowest unit that is (KIND 7): the
space and SA, or the stream waits or faults. The result of an overtaken walk is used once. -/
def streamReach (t : ThreadId) (i : Fin 2) (pva : Nat) (need : Rights) (kind line : Nat) (s : State) : Option (Space × Sa) × State :=
  let th := thr s t.val
  let x := th.slotOf i
  let a : BitVec 64 := BitVec.ofNat 64 pva
  let mine (q : XlReq) : Bool := q.line == line && q.kind.toNat == kind && q.pva == a
  let held : Option Tlb := match x.hit.find? fun e => mine e.1 with
    | some e => some e.2
    | none => if kind = 4 then x.src else if kind = 5 then x.dst else none
  let fault (f : FaultInfo) (s : State) : State :=
    let f := { f with line := line }
    if kind = 7 then blockFault t i f s else streamFault t i f (dropFlight t i line s)
  let r := reach t.val th.part a need need kind noDev held s
  match r.1 with
  | .go sp sa =>
    let keep (e : Option Tlb) : Option Tlb := ((tlbFind r.2 (thrHalf t.val) th.part pva).map (·.2)).orElse fun _ => e
    (some (sp, sa), modThr r.2 t.val fun y =>
      let z := { y.slotOf i with hit := (y.slotOf i).hit.filter fun e => !mine e.1 }
      y.setSlot i (if kind = 4 then { z with src := keep z.src } else if kind = 5 then { z with dst := keep z.dst } else z))
  | .wait =>
    (none, modThr r.2 t.val fun y =>
      let z := y.slotOf i
      if z.xl.any mine then y
      else
        { y.setSlot i { z with xl := z.xl ++ [{ pva := a, need := need, kind := BitVec.ofNat 3 kind, silent := false, line := line,
                                                num := y.nextId }] } with nextId := y.nextId + 1 })
  | .fault _ none => (none, fault { faultInfo t.val a kind 0 none with code := 0 } r.2)
  | .fault _ (some f) => (none, fault f r.2)

/-- The destination of a unit's element e: an untranslated BUF SA with PIN, else translated. -/
def streamDst (t : ThreadId) (i : Fin 2) (d : SDesc) (e kind line : Nat) (s : State) : Option (Space × Sa) × State :=
  if d.pin then
    let sa := BitVec.ofNat 52 (d.dstAt e)
    match reachSa s t.val (thr s t.val).part 0 sa Rights.wr 5 noDev with
    | .go sp a => (some (sp, a), s)
    | .fault _ f => (none, streamFault t i { f.getD (faultInfo t.val 0 5 0 none) with line := line } (dropFlight t i line s))
    | .wait => (none, s)
  else streamReach t i (d.dstAt e) Rights.wr kind line s

/-- The unit in flight. -/
def flightOf (s : State) (t : ThreadId) (i : Fin 2) (u : Nat) : Option Flight := ((thr s t.val).slotOf i).flights.find? fun f => f.unit == u

def putFlight (t : ThreadId) (i : Fin 2) (f : Flight) (s : State) : State :=
  modThr s t.val fun y =>
    let x := y.slotOf i
    y.setSlot i { x with flights := x.flights.map fun g => if g.unit = f.unit then f else g }

/-- Take a unit in flight through the checks of its source, then of its destination, as far as their translations are there. -/
def unitEnds (t : ThreadId) (i : Fin 2) (d : SDesc) (u : Nat) (s : State) : State :=
  let e := d.unitStart u
  let step (have_ : Flight → Bool) (r : Option (Space × Sa) × State) (put : Flight → Sa × Half → Flight) (s : State) : State :=
    match flightOf s t i u with
    | none => s
    | some f =>
      if have_ f then s
      else
        match r.1 with
        | none => r.2
        | some (sp, sa) => putFlight t i (put f (sa, sp.home t.val)) r.2
  let s := step (·.src.isSome) (streamReach t i (d.srcAt e) Rights.rd 4 u s) (fun f x => { f with src := some x }) s
  step (fun f => f.src.isNone || f.dst.isSome) (streamDst t i d e 5 u s) (fun f x => { f with dst := some x }) s

/-! ## Check tags (R332 to R334) -/

/-- The denominator of a checking fraction; 0 for none (R334). -/
def budgetDen (b : Nat) : Nat := if b = 0 then 0 else if b = 1 then 64 else if b = 2 then 32 else if b = 3 then 16 else if b = 4 then 8 else 1

/-- Count an eligible block in a half: whether it is checked (R334). -/
def sample (h : Half) (s : State) : Bool × State :=
  let n := tget 0 s.integ.elig h.idx
  let den := budgetDen (h.pick s.integ.budgetE s.integ.budgetW).toNat
  (decide (den ≠ 0 ∧ n % den = 0), s.onInteg fun x => { x with elig := tset 0 x.elig h.idx (n + 1) })

/-- XOR of line CRCs (R330). -/
def tagOf (xs : List LineRes) : BitVec 32 := xs.foldl (fun r x => r ^^^ x.lcrc) 0

/-- First byte of the tensor block at an SA. -/
def blockBase (sa : Sa) : Sa := sa &&& ~~~(4095 : BitVec 52)

/-- The 32 line reads of the block at an SA, whose line there is homed in `home`. -/
def blockReqs (s : State) (t : ThreadId) (c : Consumer) (sa : Sa) (home : Half) : List (Nat × LineReq) :=
  (List.range 32).map fun k =>
    let a := blockBase sa + BitVec.ofNat 52 (128 * k)
    (k, mkReq s (.buf c k) (.read .line none false) a (thr s t.val).part (thrHalf t.val)
      (match decodeSa s (pipeView s (thrHalf t.val)) a with
       | .ok x => x.home t.val
       | .error _ => home))

/-- The array index of a request's line, when it is there. -/
def keyOf (s : State) (r : LineReq) : Option Nat := if isBuf r.sa then some (bufKey r.sa) else residentOf s r

/-- A line CRC of the block has been inverted by injection (R346). -/
def tagInjected (s : State) (rs : List (Nat × LineReq)) : Bool :=
  rs.any fun r => match keyOf s r.2 with
    | none => false
    | some k => s.integ.injected.contains k

/-- A check-tag mismatch is recorded (R333, R335, R344). -/
def tagRecord (source : Nat) (h : Half) (p : Part) (sa : Sa) (expect actual : BitVec 32) (master : Nat) (simulated : Bool) (s : State) : State :=
  let s := cnt 0x055 (some h) (some p) 1 (s.onInteg fun x => { x with tag := true })
  writeRec { Rec.mk0 6 source h with part := some p, sa := some sa, expect := expect, actual := actual, action := 7,
                                     master := BitVec.ofNat 8 master, simulated := simulated } s

/-- Entry k of a stream's check-tag array, as its offset in its line. -/
def tagOff (d : SDesc) (k : Nat) : Nat := (d.tags + 4 * k) % 128

/-- Issue the access to entry k for the check tag's unit c, once its address is translated: whether it has been issued. -/
def askEntry (t : ThreadId) (i : Fin 2) (d : SDesc) (k low : Nat) (need : Rights) (op : LineOp) (c : Consumer) (s : State) : Bool × State :=
  if s.cache.asked.contains (c, 32) then (true, s)
  else
    let r := streamReach t i (d.tags + 4 * k) need 7 low s
    match r.1 with
    | none => (false, r.2)
    | some (sp, sa) => (true, askAll c [(32, mkReq r.2 (.buf c 32) op sa (thr s t.val).part (thrHalf t.val) (sp.home t.val))] r.2)

/-- An access to entry k has met poison: a fault of the block's lowest unit, with KIND 7 (R333). -/
def entryPoison (t : ThreadId) (i : Fin 2) (d : SDesc) (k low : Nat) (x : LineRes) (s : State) : State :=
  let sa : Sa := x.line + BitVec.ofNat 52 (tagOff d k)
  blockFault t i { faultInfo t.val (BitVec.ofNat 64 (d.tags + 4 * k)) 7 0x0C (some sa) with line := low } s

/-- Compare the tag of a source block with its entry, now that all 33 answers xs are there: whether the block passes (R333). -/
def judgeBlock (t : ThreadId) (i : Fin 2) (d : SDesc) (k low b : Nat) (sa : Sa) (rs : List (Nat × LineReq)) (xs : List LineRes) (en : LineRes)
    (s : State) : Bool × State :=
  let th := thr s t.val
  let h := thrHalf t.val
  let base := blockBase sa
  let fault (code : Nat) (s : State) : State := blockFault t i { faultInfo t.val (BitVec.ofNat 64 (b * 4096)) 4 code (some base) with line := low } s
  if xs.any (fun y => y.status != 0) then (false, fault 0x0C s)
  else if en.status ≠ 0 then (false, entryPoison t i d k low en s)
  else
    let want : BitVec 32 := BitVec.ofNat 32 (en.data.toNat / 2 ^ (8 * tagOff d k))
    let got := tagOf xs
    let s := cnt 0x053 (some h) (some th.part) 1 s
    if want = got then (true, modThr s t.val fun y => y.setSlot i { y.slotOf i with passed := k :: (y.slotOf i).passed })
    else (false, fault 0x0D (tagRecord 4 h th.part base want got (thrMaster s t.val) (tagInjected s rs) s))

/-- Verify the source block of a unit before it writes: passed, or not yet, or failed (R333). -/
def verifyBlock (t : ThreadId) (i : Fin 2) (d : SDesc) (u : Nat) (sa : Sa) (home : Half) (s : State) : Bool × State :=
  let th := thr s t.val
  let x := th.slotOf i
  let h := thrHalf t.val
  let e := d.unitStart u
  let b := d.srcAt e / 4096
  let k := blockIdx (blocksUpTo d.srcAt (e + 1)) b
  let c : Consumer := .tag t i k
  let low := lowestUnit d d.srcAt b
  let mark (f : Stream → Stream) (s : State) : State := modThr s t.val fun y => y.setSlot i (f (y.slotOf i))
  if (d.chk ≠ 1 ∧ d.chk ≠ 2) ∨ x.passed.contains k then (true, s)
  else if x.failed.contains low then (false, s)
  else
    let r := if d.chk = 2 ∨ x.chosen.contains k then (true, s) else sample h s
    if !r.1 then (true, cnt 0x054 (some h) (some th.part) 1 (mark (fun y => { y with passed := k :: y.passed }) r.2))
    else
      let s := if x.chosen.contains k then r.2 else mark (fun y => { y with chosen := k :: y.chosen }) r.2
      let rs := blockReqs s t c sa home
      let en := askEntry t i d k low Rights.rd (.read (.bytes (tagOff d k) 4 false) none false) c (askAll c rs s)
      if !en.1 then (false, settle en.2)
      else
        let g := collect c rs en.2
        match g.1, gotOf g.2 c 32 with
        | some xs, some y => judgeBlock t i d k low b sa rs xs y (forget c g.2)
        | _, _ => (false, g.2)

/-- The distinct destination blocks of a stream. -/
def dstBlocks (d : SDesc) : List Nat := blocksUpTo d.dstAt d.total

/-- Every unit is done: with generation, every tag is stored too (R333). -/
def endCheck (t : ThreadId) (i : Fin 2) (d : SDesc) (s : State) : State :=
  let x := (thr s t.val).slotOf i
  if x.used ∧ x.line.toNat = d.units ∧ (d.chk ≠ 3 ∨ (List.range (dstBlocks d).length).all fun k => x.passed.contains k) then
    streamDone t i s
  else s

/-- Every unit that writes destination block b is complete. -/
def blockWritten (d : SDesc) (x : Stream) (b : Nat) : Bool :=
  (List.range d.total).all fun e => d.dstAt e / 4096 != b || x.unitComplete (d.unitsUpTo (e + 1) - 1)

/-- Generate the tag of destination block k and store its entry, once its last unit is complete (R333). -/
def tagUnit (t : ThreadId) (i : Fin 2) (d : SDesc) (k : Nat) (s : State) : State :=
  let th := thr s t.val
  let x := th.slotOf i
  match (dstBlocks d)[k]? with
  | none => s
  | some b =>
    let c : Consumer := .tag t i k
    let low := lowestUnit d d.dstAt b
    if d.chk ≠ 3 ∨ x.passed.contains k ∨ !blockWritten d x b then s
    else if x.failed.contains low then stopCheck t i (forget c s)
    else
      match (List.range d.total).find? fun e => d.dstAt e / 4096 == b with
      | none => s
      | some e =>
        let begun : Bool := s.cache.asked.contains (c, 0)
        let r : Option (Space × Sa) × State := if begun then (none, s) else streamDst t i d e 7 low s
        let s : State := match r.1 with
          | none => r.2
          | some (sp, sa) => askAll c (blockReqs r.2 t c sa (sp.home t.val)) r.2
        if !s.cache.asked.contains (c, 0) then settle s
        else
          let s := settle s
          let xs := (List.range 32).filterMap fun j => gotOf s c j
          if xs.length ≠ 32 then s
          else
            let v := (tagOf xs).toNat * 2 ^ (8 * tagOff d k)
            let en := askEntry t i d k low Rights.wr (.write (byteMask (tagOff d k) 4) (BitVec.ofNat 1024 v)) c s
            let s := settle en.2
            match gotOf s c 32 with
            | none => if ((thr s t.val).slotOf i).failed.contains low then stopCheck t i (forget c s) else s
            | some y =>
              let s := forget c s
              if y.status ≠ 0 then entryPoison t i d k low y s
              else stopCheck t i (endCheck t i d (modThr s t.val fun z => z.setSlot i { z.slotOf i with passed := k :: (z.slotOf i).passed }))

/-! ## One unit (R238) -/

/-- MELT marks the source line of a unit that has completed, unless the line has been written since the unit read it (R139, R141). -/
def meltSource (t : ThreadId) (sa : Sa) (home : Half) (x : Option LineRes) (s : State) : State :=
  let r := mkReq s .own .melt sa (thr s t.val).part (thrHalf t.val) home
  match x, residentOf s r with
  | some y, some k => if y.written then s else markLine k (fun m => { m with melt := true }) s
  | _, _ => s

/-- What a unit was collecting is forgotten. -/
def forgetUnit (t : ThreadId) (i : Fin 2) (u : Nat) (s : State) : State := forget (.dest t i u) (forget (.source t i u) s)

/-- A unit is complete: progress, MELT on its source line, the count. -/
def unitDone (t : ThreadId) (i : Fin 2) (d : SDesc) (u : Nat) (sa : Sa) (home : Half) (s : State) : State :=
  let th := thr s t.val
  let x := gotOf s (.source t i u) 0
  let s := dropFlight t i u (forgetUnit t i u s)
  let s := if d.melt then meltSource t sa home x s else s
  let s := cnt 0x045 (some (thrHalf t.val)) (some th.part) 1 s
  stopCheck t i (endCheck t i d (modThr s t.val fun y => y.setSlot i ((y.slotOf i).complete u)))

/-- A unit that cannot go on leaves flight, and gives up what it has read, the block it was verifying too. -/
def dropUnit (t : ThreadId) (i : Fin 2) (d : SDesc) (u : Nat) (s : State) : State :=
  let e := d.unitStart u
  let s := dropFlight t i u (forgetUnit t i u s)
  if d.chk = 1 ∨ d.chk = 2 then forget (.tag t i (blockIdx (blocksUpTo d.srcAt (e + 1)) (d.srcAt e / 4096))) s else s

/-- A unit whose ends have passed their checks: the source is read, its block verified, the destination written. Poison at either end
stops it (R238; log entry 126). -/
def unitMove (t : ThreadId) (i : Fin 2) (d : SDesc) (u : Nat) (src dst : Sa × Half) (s : State) : State :=
  let th := thr s t.val
  let h := thrHalf t.val
  let e := d.unitStart u
  let n := d.unitEnd d.total e - e
  let poison (pva kind : Nat) (sa : Sa) (s : State) : State :=
    streamFault t i { faultInfo t.val (BitVec.ofNat 64 pva) kind 0x0C (some sa) with line := u } (dropUnit t i d u s)
  let c : Consumer := .source t i u
  let g := collect c [(0, mkReq s (.buf c 0) (.read (.some_ (d.srcSectors e n)) none false) src.1 th.part h src.2)] s
  match g.1 with
  | none => g.2
  | some xs =>
    let x := xs.headD (LineRes.st stPoison)
    if x.status ≠ 0 then poison (d.srcAt e) 4 src.1 g.2
    else
      let v := verifyBlock t i d u src.1 src.2 g.2
      if !v.1 then
        if ((thr v.2 t.val).slotOf i).failed.contains (lowestUnit d d.srcAt (d.srcAt e / 4096)) then stopCheck t i (dropUnit t i d u v.2)
        else v.2
      else
        let m := d.move x.data e n
        let c : Consumer := .dest t i u
        let g := collect c [(0, mkReq v.2 (.buf c 0) (.write m.1 m.2) dst.1 th.part h dst.2)] v.2
        match g.1 with
        | none => g.2
        | some ys =>
          if (ys.headD (LineRes.st stPoison)).status ≠ 0 then poison (d.dstAt e) 5 dst.1 g.2
          else unitDone t i d u src.1 src.2 g.2

/-- Take a unit in flight as far as it can go. -/
def unitRun (t : ThreadId) (i : Fin 2) (d : SDesc) (u : Nat) (s : State) : State :=
  let s := unitEnds t i d u s
  match flightOf s t i u with
  | some { unit := _, src := some a, dst := some b } => unitMove t i d u a b s
  | _ => s

/-- A stream stops, or its thread, so that no unit starts any more; those in flight go on (R228, R239). -/
def streamHeld (s : State) (t : ThreadId) (x : Stream) : Bool :=
  let stopping : Bool := match (thr s t.val).phase with
    | .running => false
    | .halting => false
    | .draining k _ => k == 0 || k == 3
    | _ => true
  x.stop.isSome || x.cancel || stopping || warmFenced s || !coreUp s (thrCore t.val) || coreMoving s (thrCore t.val)

def execStreamUnitComplete (t : ThreadId) (slot : Fin 2) (unit : Nat) (s : State) : Host.Outcome State Fault Refusal :=
  answer s <|
    let th := thr s t.val
    let x := th.slotOf slot
    let d := parseDesc x.desc
    if !slotRuns th slot ∨ !seqRuns s (thrHalf t.val) then s
    else if x.flights.any fun f => f.unit == unit then settle (unitRun t slot d unit s)
    else if s.cache.asked.any fun a => decide (d.units ≤ unit ∧ a.1 = .tag t slot (unit - d.units)) then settle (tagUnit t slot d (unit - d.units) s)
    else if streamHeld s t x then settle (stopCheck t slot s)
    else if d.units ≤ unit then settle (tagUnit t slot d (unit - d.units) s)
    else if x.nextUnit d.units = some unit then
      settle (unitRun t slot d unit (setThr s t.val (th.setSlot slot { x with flights := x.flights ++ [{ unit := unit, src := none, dst := none }] })))
    else s

end Sys2Proof.Machine
end

