-- ==== Sys2Proof/Machine/Integ.lean ====
section
/-! DEFINITION. Patrol scrub, refresh, error injection and partition resets (R323 to R325, R337, R338, R346). -/

namespace Sys2Proof.Machine

/-! ## Patrol (R323, R324) -/

/-- The regions of a half that patrol reads, rising. -/
def patrolRegions (s : State) (h : Half) : List Nat :=
  (s.tables.region.filter fun e => decide (e.2.state = 1 ∨ e.2.state = 2) && (regionHalf e.1 == h)).map (·.1)

/-- The first row at or after a position (65536 region + row) that patrol reads. -/
def patrolFrom (s : State) (h : Half) (pos : Nat) : Option Nat :=
  (((patrolRegions s h).filter fun r => decide (pos / 65536 ≤ r)).map fun r => if r = pos / 65536 then pos else 65536 * r).head?

/-- Array index of way 0 of a row. -/
def rowKey (pos : Nat) : Nat := pos / 65536 * 2 ^ 19 + pos % 65536 * 8

/-- A fill or a plow step holds a way of the row. -/
def rowBusy (s : State) (pos : Nat) : Bool :=
  s.cache.mshr.any (fun q => q.key / 8 == rowKey pos / 8) || s.cache.invs.any fun o => o.key / 8 == rowKey pos / 8

/-- A line whose CRC does not match (R324). -/
def patrolMismatch (key : Nat) (got : BitVec 32) (s : State) : State :=
  let m := metaAt s key
  let h := regionHalf (keyRegion key)
  let line := saOf s key
  let drop : Bool := !m.pinned && (m.sd == 0)
  let s := s.onInteg fun i => { i with crc := true }
  let s := writeRec { lineRec s 5 0 key with
    part := if m.pinned then none else some m.part, sa := some line, expect := m.lcrc, actual := got, sect := if drop then 0 else 15,
    action := if drop then 3 else 2 } s
  if drop then startInv h key line (if m.replica then .replica else .drop) s
  else
    poisonCreated { lineRec s 2 0 key with part := if m.pinned then none else some m.part, sa := some line } 15 h
      (setMeta s key { m with sp := 15, lcrcV := false })

/-- The line CRC of one way is recomputed and compared. -/
def patrolLine (s : State) (key : Nat) : State :=
  let m := metaAt s key
  if !s.integ.lcrcChk ∨ !m.lcrcV ∨ m.sp ≠ 0 ∨ m.sv = 0 then s
  else
    let got := lineCrc (lineData s key) (lineIdx (saOf s key))
    let s := countOps (regionHalf (keyRegion key)) 18 2 1 s
    if got = m.lcrc then s else patrolMismatch key got s

/-- One row, an activation of unregulated work (R302): every codeword, then every line CRC; a chip reset in between ends it (R339). -/
def patrolRow (pos : Nat) (s : State) : State :=
  let t := checkRow 0 (rowKey pos) s
  if wasReset s t then t
  else
    let u := (waysOf (rowKey pos)).foldl patrolLine (chargeOwn (regionHalf (pos / 65536)) t)
    if wasReset s u then u else settle u

/-- A pass ends: it is counted, and the banks' counts of corrected errors restart (R345, R361). -/
def patrolEnd (h : Half) (s : State) : State :=
  let s := s.onInteg fun i => { i with patrol := tdel i.patrol h.idx,
                                       passE := h.pick (i.passE + 1) i.passE, passW := h.pick i.passW (i.passW + 1) }
  modLoopMem (s.onTst fun t => { t with cePass := t.cePass.filter fun e => decide (¬ e.1 / 34 / 3 = h.idx) }) (4 + h.idx)
    fun m => { m with ready := m.ready ++ [(0, 0)] }

/-- One patrol step of a half: the next row, or a row skipped earlier in this pass. -/
def execPatrolStep (h : Half) (s : State) : Host.Outcome State Fault Refusal :=
  answer s <|
    if !s.integ.patrolEn ∨ !homeUp s h ∨ (patrolRegions s h).isEmpty then s
    else
      let first := 65536 * (192 * h.idx)
      let mine := s.integ.skipped.filter fun p => decide (regionHalf (p / 65536) = h)
      match patrolFrom s h (max first (tget 0 s.integ.patrol h.idx)) with
      | some pos =>
        let u := s.onInteg fun i => { i with patrol := tset 0 i.patrol h.idx (pos + 1) }
        if rowBusy u pos then u.onInteg fun i => { i with skipped := i.skipped ++ [pos] }
        else
          let v := patrolRow pos u
          if !wasReset u v ∧ (patrolFrom v h (pos + 1)).isNone ∧ mine.isEmpty then patrolEnd h v else v
      | none =>
        match mine.find? fun p => !rowBusy s p || !(patrolRegions s h).contains (p / 65536) with
        | none => if mine.isEmpty then patrolEnd h s else s
        | some p =>
          let u := s.onInteg fun i => { i with skipped := i.skipped.erase p }
          let v := if (patrolRegions s h).contains (p / 65536) then patrolRow p u else u
          if !wasReset u v ∧ mine.length = 1 then patrolEnd h v else v

/-- An array die refreshes itself while its domain is on (R38, R325). -/
def execRefresh (die : Fin 6) (s : State) : Host.Outcome State Fault Refusal :=
  answer s <|
    if domOn s (10 + die.val) then s.onSense fun x => { x with refreshed := tset 0 x.refreshed die.val s.clk.time } else s

/-! ## Injection (R346) -/

/-- A write of INT_INJ_CTL: ARM is W1S. -/
def writeInj (v : BitVec 32) (s : State) : State :=
  s.onInteg fun i => { i with injSector := v.extractLsb' 0 2, injKind := v.extractLsb' 2 2, injArm := i.injArm || bit v 4 }

def execErrorInjectArm (v : BitVec 32) (s : State) : Host.Outcome State Fault Refusal := answer s (ifUp 5 6 (writeInj v) s)

/-! ## Partition resets (R337, R338) -/

/-- A write of INT_PRST with GO. -/
def prstGo (part : Part) (s : State) : State :=
  if part = 0 then s.onInteg fun i => { i with prstRefused := true } else prstTrigger part 1 s

def execIntPrstGo (part : Part) (s : State) : Host.Outcome State Fault Refusal := answer s (ifUp 5 6 (prstGo part) s)

/-- Count k discards of a partition reset. -/
def prstDiscard (p : Part) (k : Nat) (s : State) : State :=
  cnt 0x056 none (some p) k (s.onInteg fun i =>
    { i with prstDisc := satAdd i.prstDisc k, prst := i.prst.map fun r => if r.part = p then { r with disc := r.disc + k } else r })

/-- Stop a task of p (step 2): a running one stops at its boundary, a fetch or a restore goes on to its own end. A task whose core is in
a self-test step stops at the step's end (R350). -/
def prstThread (p : Part) (s : State) (i : Nat) : State :=
  if hi : i < 72 then
    let t : ThreadId := ⟨i, hi⟩
    let th := thr s i
    if th.part ≠ p ∨ coreStepping s (thrCore i) then s
    else
      match th.phase with
      | .free => s
      | .restoring _ _ => s
      | .killed => s
      | .fetching q => freeThread t (setTq q.val { tq s q.val with fetching := false } s)
      | _ =>
        if th.word.isSome then s
        else
          forgetInstr t (modThr s i fun x =>
            { x with phase := .killed, wait := none, xl := none, raised := none, held := none })
  else s

/-- Discard the accepted writes of p that are not applied (step 4). -/
def prstWrites (p : Part) (s : State) : State :=
  let isW (r : LineReq) : Bool := (r.part == p) && (match r.op with
    | .write _ _ => true
    | _ => false)
  let gone := s.cache.blocked.filter isW ++ (s.cache.mshr.flatMap fun q => q.waiters.filter isW)
    ++ (s.cache.invs.filterMap fun o => match o.act with
      | .perform r => if isW r then some r else none
      | _ => none)
    ++ s.cache.pool.filterMap fun q => match q.who with
      | .uncached r => if q.port.isNone ∧ isW r then some r else none
      | _ => none
  let s := s.onCache fun c =>
    { c with pool := c.pool.filter fun q => match q.who with
               | .uncached r => !(q.port.isNone && isW r)
               | _ => true,
              blocked := c.blocked.filter fun r => !isW r,
             mshr := c.mshr.map fun q => { q with waiters := q.waiters.filter fun r => !isW r },
             invs := c.invs.filter fun o => match o.act with
               | .perform r => !isW r
               | _ => true }
  let s := gone.foldl (fun t r => answerReq r (LineRes.st stRights) none t) s
  prstDiscard p gone.length s

/-- Discard the ADDLs and the held contributions of p, and disable its contexts (step 4). -/
def prstAddls (p : Part) (s : State) : State :=
  let s := [Half.e, Half.w].foldl
    (fun s h =>
      let x := atuHalf s h
      let q := x.queue.filter fun a => a.part == p
      let k := q.length + (x.held.filter fun a => a.part == p).length
      let s := setAtuHalf s h { x with queue := x.queue.filter fun a => !(a.part == p),
                                       held := x.held.filter fun a => !(a.part == p), discReset := satAdd x.discReset k }
      let s := s.onCache fun c => { c with blocked := c.blocked.filter fun r => match r.op with
        | .atu id => !(q.any fun a => a.id == id)
        | _ => true }
      prstDiscard p k (cnt 0x023 (some h) (some p) k s)) s
  s.onAtu fun a => { a with ord := a.ord.map fun e => if e.2.part = p then (e.1, { e.2 with en := false }) else e }

/-- Steps 1 to 5 of the reset at the head of the queue. -/
def prstStart (p : Part) (cause : BitVec 2) (s : State) : State :=
  let s := s.onInteg fun i =>
    { i with prst := i.prst.map fun r => if r.part = p then { r with running := true } else r, prstPart := p, prstCause := cause }
  let s := [Half.e, Half.w].foldl
    (fun s h => (waitQ s h).foldl (fun s w => if w.part = p then endWaiter h w stRights s else s) s) s
  let s := (List.range 72).foldl (prstThread p) s
  let s := modSp s p.toNat fun x => { x with used := 0, park := 0, slots := [] }
  let s := s.onSeq fun q =>
    { q with resumeE := q.resumeE.filter (fun e => !(e.part == p)), resumeW := q.resumeW.filter (fun e => !(e.part == p)),
             tq := q.tq.map fun e => if e.2.part = p then (e.1, { e.2 with head := e.2.tail }) else e }
  let s := prstAddls p (prstWrites p s)
  let s := [Half.e, Half.w].foldl
    (fun s h =>
      keepTlb h (fun e => !(e.part == p))
        (setWalks h ((walks s h).map fun w => { w with noFill := w.noFill || w.part == p }) s)) s
  settle s

def execPartitionReset (s : State) : Host.Outcome State Fault Refusal :=
  answer s <|
    match s.integ.prst with
    | [] => s
    | r :: _ => if r.running then s else prstStart r.part r.cause s

/-- A killed task whose issued work has ended writes its completion word (R225). -/
def prstEnd (p : Part) (s : State) (i : Nat) : State :=
  if hi : i < 72 then
    let t : ThreadId := ⟨i, hi⟩
    let th := thr s i
    if th.part = p ∧ th.phase = .killed ∧ th.outs.all (fun o => o.void) ∧ !inFlight s t 0 ∧ !inFlight s t 1 then
      endKilled t 4 (modThr s i fun x => { x with toks := 0 })
    else s
  else s

/-- Once every task of p is gone, the fence is lifted and the reset recorded (step 6). -/
def execPartitionResetDone (s : State) : Host.Outcome State Fault Refusal :=
  answer s <|
    match s.integ.prst with
    | [] => s
    | r :: rest =>
      if !r.running then s
      else
        let s := settle ((List.range 72).foldl (prstEnd r.part) s)
        if (List.range 72).any fun i => (thr s i).part == r.part && !((thr s i).phase == .free) then s
        else
          let s := writeRec { Rec.mk0 9 (if r.cause = 1 then 8 else 1) .e with
            part := some r.part, action := 4,
            detail := pack 128 [(0, r.cause.toNat), (32, r.disc)] } s
          s.onInteg fun i => { i with prst := rest }

end Sys2Proof.Machine
end

