-- ==== Sys2Proof/Machine/Tst.lean ====
section
/-! DEFINITION. Core sampling and self-repair (chapter 14): test steps, repairs, pattern packs, calving, retirement, repair
records in flash and aging monitors. -/

namespace Sys2Proof.Machine

/-! ## Unit states (R420) -/

/-- A target serves: in service, also during a step. -/
def serving (x : Target) : Bool := x.state == 0 || (x.state == 2 && x.back == 0)
/-- A target is an unused spare that has not failed. -/
def isSpare (x : Target) : Bool := x.state == 1 || (x.state == 2 && x.back == 1)

def countServing (s : State) (h : Half) (lo n : Nat) : Nat := ((List.range n).filter fun i => serving (tgt s h (lo + i))).length
def countUsable (s : State) (h : Half) (lo n : Nat) : Nat := ((List.range n).filter fun i => (tgt s h (lo + i)).state != 3).length

/-- STATE and DETAIL of unit u, for u = 24 to 47. -/
def unitOwn (s : State) (u : Nat) : Nat × Nat :=
  if u < 42 then
    let k := u - 24
    let x := tgt s (coreHalf k) (coreInHalf k)
    ((if serving x then 0 else if isSpare x then 1 else 3), (logicalCore s k).getD 0xFF)
  else if u < 44 then
    let n := countServing s (if u = 42 then .e else .w) 9 9
    ((if n = 8 then 0 else if n = 0 then 2 else 1), n)
  else if u < 46 then
    let n := countUsable s (if u = 44 then .e else .w) 18 2
    (b2n (decide (n = 0)), n)
  else if u = 46 then
    let n := 4 - popcount s.rep.groupsOut
    (b2n (decide (n < 4)), n)
  else
    ((match s.boot.phase with
      | .started => 1
      | .recovery => 2
      | _ => 0), 0)

/-- Generations count every change of a unit's word from s to t (R420). -/
def genBump (s t : State) : State :=
  (List.range 24).foldl
    (fun t i =>
      let u := 24 + i
      if unitOwn s u = unitOwn t u then t
      else t.onPwr fun p => { p with unitGen := tmod 0 p.unitGen u (· + 1) }) t

/-! ## Steps (R347 to R351) -/

/-- Class of a target (R353). -/
def tgtCls (t : Nat) : Nat := if t < 9 then 0 else if t < 18 then 1 else if t < 20 then 2 else 3

/-- The target's domain is on. -/
def tgtUp (s : State) (h : Half) (t : Nat) : Bool :=
  if t < 9 then seqUp s h else if t < 20 then h.pick (domOn s 5) (domOn s 6) else halfLinkUp s

/-- log2 of the steps of a class, and the signature a step expects (R354, R356). -/
def packS (p : Pack) (cls : Nat) : Nat := tget 0 p.s cls
def packWant (p : Pack) (cls step : Nat) : BitVec 32 :=
  if p.ver = 0 then Config.builtinExpect cls step else tget 0 p.expect (16 * cls + step)

/-- The target waits for its repair (R360 edges). -/
def waitsRepair (s : State) (h : Half) (t : Fin 22) : Bool := (h.pick s.rep.waitE s.rep.waitW).contains t

/-- A step may start. -/
def stepOk (s : State) (h : Half) (t : Fin 22) : Bool :=
  let x := tgt s h t.val
  s.tst.en && tgtUp s h t.val && (x.state == 0 || x.state == 1) && !waitsRepair s h t

/-- Start the next step of a target. -/
def stepStart (h : Half) (t : Fin 22) (forced : Bool) (s : State) : State :=
  let x := tgt s h t.val
  let cls := tgtCls t.val
  let step := if x.fresh then 0 else x.next.toNat
  let y : Target :=
    { x with state := 2, back := x.state, next := BitVec.ofNat 4 step, fresh := false, since := 0, repeats := 0, forced := forced,
             want := packWant s.tst.pack cls step, log2s := packS s.tst.pack cls, packVer := s.tst.pack.ver,
             lastIdle := if forced then x.lastIdle else some s.clk.time, began := s.clk.time }
  cnt (if forced then 0x059 else 0x058) (some h) none 1 (setTgt h t.val y s)

/-- A target that has performed no operation for 100 ns steps at most once every 10 µs (R348). -/
def execIdleStep (h : Half) (t : Fin 22) (s : State) : Host.Outcome State Fault Refusal :=
  answer s <|
    let x := tgt s h t.val
    if stepOk s h t ∧ longAgo s x.lastOp 100 ∧ longAgo s x.lastIdle 10000 then stepStart h t false s else s

/-- F of R348. -/
def forcedAt (s : State) (h : Half) (t : Nat) : Nat :=
  let l := loopOf s (10 + h.idx)
  min (2 ^ l.value.toNat) (2 ^ (l.hi.toNat - packS s.tst.pack (tgtCls t)))

def execForcedStep (h : Half) (t : Fin 22) (s : State) : Host.Outcome State Fault Refusal :=
  answer s <|
    if stepOk s h t ∧ serving (tgt s h t.val) ∧ forcedAt s h t.val ≤ (tgt s h t.val).since then stepStart h t true s else s

/-! ## Repair of logic units (R357 to R360) -/

/-- A spare for a target of its class in its half: its own number and the SUBST code of R366. -/
def spareFor (s : State) (h : Half) (t : Nat) : Option (Nat × Nat) :=
  let pick (lo n : Nat) : Option Nat := ((List.range n).map (lo + ·)).find? fun i => isSpare (tgt s h i)
  if t < 9 then (pick 0 9).map fun i => (i, i)
  else if t < 18 then (pick 9 9).map fun i => (i, i - 9)
  else if t < 20 then (pick 18 2).map fun i => (i, i - 18)
  else if s.rep.linkSpare.isNone then some (t, 32) else none

/-- The slice has a datapath, or a half-link group, apart from this target. -/
def othersLeft (s : State) (h : Half) (t : Nat) : Bool :=
  if t < 18 then true
  else if t < 20 then
    [Half.e, Half.w].any fun g => (List.range 2).any fun i =>
      (tgt s g (18 + i)).state != 3 && !((g == h) && decide (18 + i = t))
  else (List.range 4).any fun g => !s.rep.groupsOut.getLsbD g && decide (g ≠ 2 * h.idx + (t - 20))

/-- The TEST_FAIL record (R370). -/
def failRec (s : State) (h : Half) (t step source : Nat) (expect actual : BitVec 32) (last : BitVec 64) (ver : BitVec 32) : Rec :=
  let sp := spareFor s h t
  { Rec.mk0 16 source h with
    expect := expect, actual := actual,
    action := if sp.isSome then 8 else if othersLeft s h t then 9 else 6,
    detail := tstDetail (tgtCls t) t step (match sp with | none => 0xFF | some x => x.2) ver last }

def popWait (h : Half) (s : State) : State :=
  s.onRep fun r => match h with
    | .e => { r with waitE := r.waitE.tail }
    | .w => { r with waitW := r.waitW.tail }

def failTgt (h : Half) (t : Nat) (s : State) : State := setTgt h t { tgt s h t with state := 3, back := 3 } s

/-- A spare takes a target's place. -/
def takeSpare (h : Half) (i : Nat) (s : State) : State :=
  let x := tgt s h i
  setTgt h i { x with state := if x.state = 2 then 2 else 0, back := 0 } s

/-- A core leaves service: no logical number, and its sharer bit is cleared (R202, R357, R358). -/
def coreOut (k : Nat) (s : State) : State :=
  let s := s.onRep fun r => { r with logical := tset none r.logical k (some 0xFF) }
  let s := s.onGlb fun g => { g with lag := setBit g.lag (8 + k) false }
  epochFinish (roDropCore k (s.onCch fun c => { c with clrBusy := setBit c.clrBusy (6 + k) true }))

/-- Repair a target that is no core with a spare: at once (R359). A core with a spare waits for its swap-in. -/
def repairOne (h : Half) (t : Nat) (s : State) : State :=
  let type := if t < 9 then 1 else if t < 18 then 2 else if t < 20 then 3 else 4
  let s := setTstStat 2 s
  match spareFor s h t with
  | some (i, code) =>
    if t < 20 then queueRepair (Repair.mk0 type h t code) (takeSpare h i (failTgt h t s))
    else
      let l := (tgt s h t).lane
      queueRepair (Repair.mk0 4 h l.val 32) (s.onRep fun r => { r with linkSpare := some l })
  | none =>
    let s := queueRepair (Repair.mk0 7 h t 0xFF) (failTgt h t s)
    if t < 9 then coreOut (9 * h.idx + t) s
    else if t < 20 then s
    else s.onRep fun r => { r with groupsOut := setBit r.groupsOut (2 * h.idx + (t - 20)) true }

/-- Work through a half's waiting targets until one is a core that waits for its swap-in (R360). -/
def repairs (h : Half) : Nat → State → State
  | 0, s => s
  | n + 1, s =>
    match h.pick s.rep.waitE s.rep.waitW with
    | [] => s
    | t :: _ =>
      if t.val < 9 ∧ (spareFor s h t.val).isSome then s
      else repairs h n (popWait h (repairOne h t.val s))

/-- A target has failed (R351, R360): a spare is marked failed; the last datapath or group takes the chip down; another waits
its turn in its half. -/
def failTarget (h : Half) (t : Fin 22) (step source : Nat) (expect actual : BitVec 32) (last : BitVec 64) (ver : BitVec 32)
    (s : State) : State :=
  let x := tgt s h t.val
  let wasSpare := isSpare x
  let s := setTstStat 0 (setTgt h t.val
    { x with state := if x.state = 2 then x.back else x.state, repeats := 0, began := if x.state = 2 then x.began else s.clk.time } s)
  if wasSpare then
    let s := queueRepair (Repair.mk0 8 h t.val 0xFF) (failTgt h t.val s)
    writeRec { Rec.mk0 16 source h with
      expect := expect, actual := actual, action := 9, detail := tstDetail (tgtCls t.val) t.val step 0xFF ver last } s
  else
    let r := failRec s h t.val step source expect actual last ver
    if r.action = 6 then fatalWith r (failTgt h t.val s)
    else
      let s := writeRec r s
      repairs h 22 (s.onRep fun y => match h with
        | .e => { y with waitE := y.waitE ++ [t] }
        | .w => { y with waitW := y.waitW ++ [t] })

/-- A core's step has ended: a HALT and a partition reset that reached it take effect now (R350). -/
def coreResume (k : Nat) (s : State) : State :=
  if coreStepping s k then s
  else
    let ps := (s.integ.prst.filter (·.running)).map (·.part)
    (List.range 4).foldl
      (fun s i =>
        let s := ps.foldl (fun s p => prstThread p s (4 * k + i)) s
        if hi : 4 * k + i < 72 then haltCheck ⟨4 * k + i, hi⟩ s else s) s

/-- A step or a repeat of it ends (R351). -/
def execTestStepDone (h : Half) (t : Fin 22) (sig : BitVec 32) (lane : Fin 32) (s : State) : Host.Outcome State Fault Refusal :=
  answer s <| genBump s <| (fun u => if t.val < 9 ∧ !wasReset s u then settle (coreResume (9 * h.idx + t.val) u) else u) <|
    let x := tgt s h t.val
    if x.state ≠ 2 ∨ !tgtUp s h t.val then s
    else
      let step := x.next.toNat
      let last := tget 0 x.lastPass step
      let bad : Bool := decide (¬ sig = x.want)
      if bad ∧ x.repeats < 2 then setTgt h t.val { x with repeats := x.repeats + 1, bad := sig } s
      else
        let s := tally (10 + h.idx) 256
          (fun m => { m with count := m.count + 1, ended := m.ended + 1, hits := m.hits + b2n x.forced }) s
        if bad then
          let g := 8 * (2 * h.idx + (t.val - 20))
          let l : Fin 32 := if g ≤ lane.val ∧ lane.val < g + 8 then lane else Fin.ofNat 32 g
          failTarget h t step 9 x.want sig last x.packVer (setTgt h t.val { x with lane := l } s)
        else
          let s :=
            if x.repeats = 0 then s
            else
              writeRec { Rec.mk0 17 9 h with
                sev := 2, expect := x.want, actual := x.bad,
                detail := tstDetail (tgtCls t.val) t.val step 0xFF x.packVer 0 } (setTstStat 1 s)
          setTgt h t.val
            { x with state := x.back, repeats := 0, trans := if x.repeats = 0 then x.trans else satAdd x.trans 1,
                     next := BitVec.ofNat 4 ((step + 1) % 2 ^ x.log2s), lastPass := tset 0 x.lastPass step s.clk.time } s

/-- The failed core's threads move to the spare (R357): a thread whose CRC fails there ends KILLED with reason 2. -/
def swapIn (h : Half) (c sp : Nat) (crcOk : BitVec 4) (s : State) : State :=
  let k := 9 * h.idx + c
  let j := 9 * h.idx + sp
  let l := (logicalCore s k).getD 0xFF
  let s := (List.range 4).foldl
    (fun s i =>
      if hx : 4 * k + i < 72 ∧ 4 * j + i < 72 then
        let t : ThreadId := ⟨4 * k + i, hx.1⟩
        let u : ThreadId := ⟨4 * j + i, hx.2⟩
        if (thr s t.val).phase = .free then s
        else
          let s := moveThread t u s
          if crcOk.getLsbD i then s else endKilled u 2 s
      else s) s
  let s := takeSpare h sp (failTgt h c s)
  let s := coreOut k (s.onRep fun r => { r with logical := tset none r.logical j (some (BitVec.ofNat 8 l)) })
  let s := s.onGlb fun g => { g with lag := setBit g.lag (8 + j) false }
  epochFinish (roDropCore j (queueRepair (Repair.mk0 1 h c sp) (setTstStat 2 s)))

def execCoreSwapIn (h : Half) (crcOk : BitVec 4) (s : State) : Host.Outcome State Fault Refusal :=
  answer s <| genBump s <|
    match h.pick s.rep.waitE s.rep.waitW with
    | [] => s
    | t :: _ =>
      match (if t.val < 9 then spareFor s h t.val else none) with
      | none => s
      | some (sp, _) =>
        let ready : Bool := (List.range 4).all fun i =>
          if hi : 4 * (9 * h.idx + t.val) + i < 72 then
            let u : ThreadId := ⟨4 * (9 * h.idx + t.val) + i, hi⟩
            (thr s u.val).phase == .free || canMove s u
          else true
        if ready then settle (repairs h 22 (popWait h (swapIn h t.val sp crcOk s))) else s

/-- A command fails an in-service target (R360); it is refused for a spare or a failed one. A half-link group commanded so names
its lowest lane (log entry 34). -/
def tstSwap (h : Half) (t : Nat) (s : State) : State :=
  if ht : t < 22 then
    let x := tgt s h t
    if !serving x ∨ waitsRepair s h ⟨t, ht⟩ then setTstStat 6 s
    else
      let s := setTgt h t { x with lane := Fin.ofNat 32 (8 * (2 * h.idx + (t - 20))) } s
      failTarget h ⟨t, ht⟩ 0xFF 8 0 0 0 s.tst.pack.ver s
  else setTstStat 6 s

def execTstSwap (h : Half) (t : BitVec 5) (s : State) : Host.Outcome State Fault Refusal := answer s (genBump s (tstSwap h t.toNat s))

/-! ## Pattern packs (R353 to R356) -/

/-- The bytes of a list from an offset. -/
def slice (bs : List Byte) (o n : Nat) : List Byte := (bs.drop o).take n
def leAt (bs : List Byte) (o n : Nat) : Nat := ofBytes (slice bs o n)
def zerosAt (bs : List Byte) (o n : Nat) : Bool := (slice bs o n).all (· == 0)

/-- The line reads of n bytes from an SA, for partition 0: none where one fails decode. -/
def rangeReqs (s : State) (c : Consumer) (sa : Sa) (n : Nat) : Option (List (Nat × LineReq)) :=
  let a := lineOf sa
  let k := (sa.toNat % 128 + n + 127) / 128
  let rs := (List.range k).filterMap fun i =>
    let b := a + BitVec.ofNat 52 (128 * i)
    match ownHome s .e b Rights.rd with
    | none => none
    | some h => some (i, mkReq s (.buf c i) (.read .line none false) b 0 h h)
  if rs.length = k then some rs else none

/-- The n bytes at an SA from the lines read. -/
def rangeBytes (sa : Sa) (n : Nat) (xs : List LineRes) : List Byte :=
  slice (xs.flatMap fun x => toBytes 128 x.data.toNat) (sa.toNat % 128) n

/-- The header's fixed fields and lengths are valid. -/
def packHeadOk (b : List Byte) : Bool :=
  decide (leAt b 0 4 = 0x4B415054 ∧ leAt b 4 2 = 1 ∧ leAt b 6 2 = 0xAC80 ∧ (leAt b 8 1 = 0x10 ∨ leAt b 8 1 = 0xFF)
    ∧ 1 ≤ leAt b 12 4 ∧ leAt b 16 4 % 16 = 0 ∧ leAt b 16 4 ≤ 262016) && zerosAt b 9 3 && zerosAt b 24 8 && zerosAt b 96 32 &&
  (slice b 20 4).all fun x => decide (x.toNat ≤ 4)

/-- The step entries of a body: class, step and expected signature; none where the structure is invalid (R354). -/
def packEntries : Nat → List Byte → Option (List (Nat × Nat × BitVec 32))
  | _, [] => some []
  | 0, _ => none
  | fuel + 1, b =>
    let n := leAt b 4 4
    if b.length < 16 + n ∨ n % 16 ≠ 0 ∨ 16384 < n ∨ 3 < leAt b 0 1 ∨ !zerosAt b 2 2 ∨ !zerosAt b 12 4 then none
    else
      match packEntries fuel (b.drop (16 + n)) with
      | none => none
      | some r => some ((leAt b 0 1, leAt b 1 1, BitVec.ofNat 32 (leAt b 8 4)) :: r)

/-- Every class holds each step exactly once. -/
def packSteps (head : List Byte) (es : List (Nat × Nat × BitVec 32)) : Bool :=
  (List.range 4).all fun c =>
    let n := 2 ^ leAt head (20 + c) 1
    let mine := es.filter fun e => e.1 == c
    decide (mine.length = n) && (List.range n).all fun k => mine.any fun e => e.2.1 == k

/-- The first 16 bytes of a digest, as a register holds them (R7). -/
def digest16 (d : BitVec 256) : BitVec 128 := BitVec.ofNat 128 (ofBytes ((toBytes 32 d.toNat).reverse.take 16))

/-- The checks of a pack that has been read, in R355's order: 0 when it passes. -/
def packCheck (s : State) (b : List Byte) (es : Option (List (Nat × Nat × BitVec 32))) : Nat :=
  let n := 128 + leAt b 16 4
  let head := slice b 0 128
  match es with
  | none => 1
  | some es =>
    if !packSteps head es then 1
    else if s.boot.packKey = 0 ∨ digest16 (Config.sha256 (slice b 32 64)) ≠ s.boot.packKey then 2
    else if !Config.p256Verify (Config.sha256 (slice b 0 n)) (BitVec.ofNat 512 (ofBytesBE (slice b 32 64)))
        (BitVec.ofNat 512 (ofBytesBE (slice b n 64))) then 3
    else if leAt b 12 4 < s.tst.pack.ver.toNat then 4
    else 0

/-- A load ends with a RESULT. -/
def packResult (n : Nat) (s : State) : State := s.onTst fun t => { t with packBusy := false, packResult := BitVec.ofNat 3 n }

/-- An accepted pack becomes active: each target starts at step 0 at its next step (R356). -/
def packTake (b : List Byte) (es : List (Nat × Nat × BitVec 32)) (s : State) : State :=
  let p : Pack :=
    { ver := BitVec.ofNat 32 (leAt b 12 4), s := (List.range 4).foldl (fun t c => tset 0 t c (leAt b (20 + c) 1)) [],
      expect := es.foldl (fun t e => tset 0 t (16 * e.1 + e.2.1) e.2.2) [] }
  let s := [Half.e, Half.w].foldl
    (fun s h => (List.range 22).foldl (fun s t => setTgt h t { tgt s h t with fresh := true } s) s) s
  s.onTst fun t => { t with pack := p }

/-- TST_PACK_CMD.LOAD (R355). -/
def packLoad (s : State) : State :=
  if s.tst.packBusy then setTstStat 6 s else s.onTst fun t => { t with packBusy := true }

def execTstPackLoad (s : State) : Host.Outcome State Fault Refusal := answer s (packLoad s)

/-- The load reads the header, then the whole pack, and checks it: the end comes once every line is there. -/
def packStep (s : State) : State :=
  let sa : Sa := BitVec.ofNat 52 (s.tst.packSa.toNat * 64)
  match rangeReqs s .pack sa 128 with
  | none => packResult 5 (forget .pack s)
  | some rs =>
    let g := collect .pack rs s
    match g.1 with
    | none => g.2
    | some xs =>
      let s := g.2
      if xs.any (·.status != 0) then packResult 5 (forget .pack s)
      else
        let head := rangeBytes sa 128 xs
        if !(decide (leAt head 16 4 % 16 = 0 ∧ leAt head 16 4 ≤ 262016)) then packResult 1 (forget .pack s)
        else
          let n := 128 + leAt head 16 4
          match rangeReqs s .pack sa (n + 64) with
          | none => packResult 5 (forget .pack s)
          | some rs =>
            let g := collect .pack rs s
            match g.1 with
            | none => g.2
            | some xs =>
              let s := forget .pack g.2
              if xs.any (·.status != 0) then packResult 5 s
              else
                let b := rangeBytes sa (n + 64) xs
                let es := if packHeadOk head then packEntries 16384 (slice b 128 (n - 128)) else none
                let r := packCheck s b es
                packResult r (if r = 0 then packTake b (es.getD []) s else s)

def execPackLoadDone (s : State) : Host.Outcome State Fault Refusal :=
  answer s <| if s.tst.packBusy then settle (packStep s) else s

/-! ## Calving and retirement (R361 to R364) -/

/-- A command to calve bank b of die k. -/
def calveGo (k b : Nat) (s : State) : State :=
  if 5 < k ∨ (calve s k).phase ≠ 0 ∨ !domOn s (10 + k) then setTstStat 6 s
  else
    match spareBank s k with
    | none => setTstStat 6 s
    | some sp => calveStart k b sp 8 s

def execTstCalveGo (die : BitVec 3) (bank : BitVec 5) (s : State) : Host.Outcome State Fault Refusal :=
  answer s (calveGo die.toNat bank.toNat s)

/-- The CALVE record (R370). -/
def calveRec (s : State) (k : Nat) (c : Calve) (done : Bool) : Rec :=
  { Rec.mk0 18 c.source.toNat (regionHalf (64 * k)) with
    sev := if done then 2 else 0, die := BitVec.ofNat 3 k, action := if done then 10 else 0,
    detail := tstDetail 4 (servingBank s k c.bank.toNat % 34) 0xFF c.spare.toNat s.tst.pack.ver 0 }

def useBank (k spare : Nat) (s : State) : State := s.onTst fun t => { t with spareUsed := tset false t.spareUsed (2 * k + (spare - 32)) true }

/-- The last row is copied: every access goes to the spare (R362 step 2). -/
def calveSwitch (k : Nat) (c : Calve) (s : State) : State :=
  let r := { Repair.mk0 5 (regionHalf (64 * k)) (servingBank s k c.bank.toNat % 34) c.spare.toNat with die := BitVec.ofNat 3 k }
  let s := queueRepair r (writeRec (calveRec s k c true) (setTstStat 2 s))
  let s := s.onTst fun t => { t with bankMap := tset none t.bankMap (34 * k + c.bank.toNat) (some c.spare) }
  calveScan k (setCalve k { c with phase := 0 } (useBank k c.spare.toNat s))

/-- A write of the spare failed its verify (R363). -/
def calveAbort (k : Nat) (c : Calve) (s : State) : State :=
  let r := { Repair.mk0 8 (regionHalf (64 * k)) c.spare.toNat 0xFF with die := BitVec.ofNat 3 k }
  let s := useBank k c.spare.toNat (queueRepair r (writeRec (calveRec s k c false) s))
  match spareBank s k with
  | some sp => setCalve k { c with rows := 0, spare := BitVec.ofNat 6 sp, abort := true } s
  | none =>
    let s := setCalve k { c with phase := 0, abort := true } s
    calveScan k (s.onTst fun t => { t with toRetire := t.toRetire ++ [32 * k + c.bank.toNat] })

/-- One set row is copied, an uncorrectable codeword met in it handled first (R362 step 1). -/
def execCalveRowCopy (die : Fin 6) (verified : Bool) (s : State) : Host.Outcome State Fault Refusal :=
  answer s <|
    let k := die.val
    let c := calve s k
    if c.phase ≠ 1 ∨ !domOn s (10 + k) then s
    else
      let n := c.rows.toNat
      let r := 64 * k + 2 * c.bank.toNat + n / 65536
      let s := settle (checkRow 0 (rowKey (65536 * r + n % 65536)) s)
      if (calve s k).phase ≠ 1 then s
      else if !verified then calveAbort k c s
      else
        let s := cnt 0x05A (some (regionHalf r)) none 1 s
        let c := { c with rows := c.rows + 1 }
        if n + 1 = 131072 then calveSwitch k c s else setCalve k c s

/-- One RETIRE record and one repair record (R364, R366). -/
def retireRec (r : Nat) (p : Option Part) (s : State) : State :=
  writeRec { Rec.mk0 19 9 (regionHalf r) with
    die := BitVec.ofNat 3 (regionDie r), region := some (BitVec.ofNat 9 r), part := p, action := 11,
    detail := tstDetail 4 (servingBank s (regionDie r) (r % 64 / 2) % 34) 0xFF 0xFF s.tst.pack.ver 0 } s

/-- The lines of a region that hold something. -/
def regionLines (s : State) (r : Nat) : List Nat :=
  (s.cache.line.filter fun e => decide (keyRegion e.1 = r) && decide (e.2.sv ≠ 0)).map (·.1)

/-- Flush a CACHE region under retirement: its entries go, then its lines. -/
def retireCache (r : Nat) (s : State) : State :=
  let h := regionHalf r
  let s := s.onTables fun t =>
    { t with gt := t.gt.filter fun e =>
        !(decide (e.1 / 8192 = h.idx) && e.2.valid && decide (groupRegion h e.2.group.toNat = r)) }
  (regionLines s r).foldl
    (fun s k =>
      if held s k then s
      else if needInv s (metaAt s k) ∨ wbWaits s k then startInv h k (saOf s k) .flush s else flushNow h k s) s

/-- The blocks of a PINNED region are gone: owners lose their USED, without zeroing. -/
def retirePinned (r : Nat) (s : State) : State :=
  let bs := s.buf.blk.filter fun e => decide (e.1 / 1024 = r)
  let owned := bs.filter fun e => e.2.st == 3
  let s := owned.foldl (fun s e => subUsed (regionHalf r) e.2.owner s) s
  let s := s.onBuf fun u => { u with blk := u.blk.filter fun e => !decide (e.1 / 1024 = r) }
  let owners := (owned.map (·.2.owner)).eraseDups
  let s := if owners.isEmpty then retireRec r none s else owners.foldl (fun s p => retireRec r (some p) s) s
  s.onCache fun c => { c with line := c.line.filter fun e => !decide (keyRegion e.1 = r) }

/-- A region is OFFLINE and RETIRED. -/
def retireOff (r : Nat) (s : State) : State :=
  let h := regionHalf r
  let s :=
    if (region s r).state = 2 then retirePinned r s
    else
      let s := s.onTables fun t =>
        { t with gown := (List.range 32).foldl (fun g i => tset 0 g (6144 * h.idx + 32 * (r - 192 * h.idx) + i) 0x3F) t.gown }
      retireRec r none s
  queueRepair { Repair.mk0 6 h (servingBank s (regionDie r) (r % 64 / 2) % 34) 0xFF with
                die := BitVec.ofNat 3 (regionDie r), region := BitVec.ofNat 16 r }
    (setRegion s r { state := 0, busy := false, retired := true })

/-- Both regions of a bank that waits for retirement: first the lines of CACHE regions are flushed, then the regions go. -/
def execRegionRetire (die : Fin 6) (bank : Fin 32) (s : State) : Host.Outcome State Fault Refusal :=
  answer s <|
    let b := 32 * die.val + bank.val
    let rs := [64 * die.val + 2 * bank.val, 64 * die.val + 2 * bank.val + 1]
    if !s.tst.toRetire.contains b ∨ !s.tst.retireEn ∨ (rs.any fun r => (region s r).busy) then s
    else
      let s := settle (rs.foldl (fun s r => if (region s r).state = 1 then retireCache r s else s) s)
      if rs.any fun r => decide ((region s r).state = 1) && (!(regionLines s r).isEmpty || s.cache.mshr.any fun q => keyRegion q.key == r) then s
      else
        let s := rs.foldl (fun s r => retireOff r s) (setTstStat 2 s)
        s.onTst fun t => { t with toRetire := t.toRetire.erase b }

/-! ## Repair records in flash (R365 to R368) -/

def flashByte (s : State) (a : Nat) : Byte := tget 0xFF s.boot.flash a
def flashBytes (s : State) (a n : Nat) : List Byte := (List.range n).map fun i => flashByte s (a + i)

/-- Program bytes: a program only clears bits. -/
def flashProgram (a : Nat) (bs : List Byte) (s : State) : State :=
  let put (f : Tab Byte) (i : Nat) : Tab Byte := tset 0xFF f (a + i) (tget 0xFF f (a + i) &&& bs.getD i 0xFF)
  s.onBoot fun b => { b with flash := (List.range bs.length).foldl put b.flash }

/-- Erase n bytes from a. -/
def flashErase (a n : Nat) (s : State) : State :=
  s.onBoot fun b => { b with flash := b.flash.filter fun e => !decide (a ≤ e.1 ∧ e.1 < a + n) }

/-- The 32 bytes of a half's header. -/
def areaHeader (gen : Nat) (uid : BitVec 64) : List Byte :=
  let b := [0x47, 0x52, 0x50, 0x52] ++ toBytes 2 1 ++ toBytes 2 0 ++ toBytes 4 gen ++ toBytes 8 uid.toNat ++ toBytes 8 0
  b ++ toBytes 4 (crc32c b).toNat

/-- GEN of a half that is valid and this part's. -/
def areaGen (s : State) (a : Nat) : Option Nat :=
  let b := flashBytes s a 32
  if leAt b 0 4 = 0x52505247 ∧ leAt b 4 2 = 1 ∧ leAt b 28 4 = (crc32c (slice b 0 28)).toNat ∧ leAt b 12 8 = s.tst.uid.toNat then some (leAt b 8 4)
  else none

/-- The half in use and its GEN (R368). -/
def areaHalf (s : State) (off len : Nat) : Option (Nat × Nat) :=
  match areaGen s off, areaGen s (off + len / 2) with
  | some g, some k => if g < k then some (off + len / 2, k) else some (off, g)
  | some g, none => some (off, g)
  | none, some k => some (off + len / 2, k)
  | none, none => none

/-- The 32 bytes of a repair record (R366). -/
def repairBytes (r : Repair) : List Byte :=
  let b := toBytes 1 r.type.toNat ++ toBytes 1 (r.half.idx + 2 * r.die.toNat) ++ toBytes 1 r.unit.toNat ++ toBytes 1 r.subst.toNat
    ++ toBytes 2 r.region.toNat ++ toBytes 2 0 ++ toBytes 4 r.seq.toNat ++ toBytes 4 r.pack.toNat ++ toBytes 8 r.time.toNat
    ++ toBytes 4 0
  b ++ toBytes 4 (crc32c b).toNat

/-- A slot's 32 bytes are a valid record. -/
def repairOk (b : List Byte) : Bool := decide (leAt b 28 4 = (crc32c (slice b 0 28)).toNat)

def parseRepair (b : List Byte) : Repair :=
  { type := BitVec.ofNat 8 (leAt b 0 1), half := Half.ofBool (decide (leAt b 1 1 % 2 = 1)), die := BitVec.ofNat 3 (leAt b 1 1 / 2),
    unit := BitVec.ofNat 8 (leAt b 2 1), subst := BitVec.ofNat 8 (leAt b 3 1), region := BitVec.ofNat 16 (leAt b 4 2),
    seq := BitVec.ofNat 32 (leAt b 8 4), pack := BitVec.ofNat 32 (leAt b 12 4), time := BitVec.ofNat 64 (leAt b 16 8) }

def slotEmpty (s : State) (a : Nat) : Bool := (flashBytes s a 32).all (· == 0xFF)

/-- The records of a half in slot order, up to the first unwritten slot. -/
def areaSlots (s : State) (a : Nat) : Nat → Nat → List (List Byte)
  | _, 0 => []
  | i, n + 1 => if slotEmpty s (a + 32 * i) then [] else flashBytes s (a + 32 * i) 32 :: areaSlots s a (i + 1) n

/-- Program the oldest queued record, compacting into the other half when this one is full (R367). -/
def programRepair (r : Repair) (s : State) : State :=
  let off := s.boot.repOff.toNat
  let len := s.boot.repLen.toNat
  match areaHalf s off len with
  | none => persistFail s
  | some (a, gen) =>
    let r := { r with seq := s.tst.repSeq + 1 }
    let n := len / 2 / 32 - 1
    let old := areaSlots s (a + 32) 0 n
    let s := s.onTst fun t => { t with repSeq := r.seq, written := t.written + 1 }
    if old.length < n then flashProgram (a + 32 + 32 * old.length) (repairBytes r) s
    else
      let b := if a = off then off + len / 2 else off
      flashProgram b (areaHeader (gen + 1) s.tst.uid ++ old.flatten ++ repairBytes r) (flashErase b (len / 2) s)

def execRepairRecordProgram (ok : Bool) (s : State) : Host.Outcome State Fault Refusal :=
  answer s <|
    match s.tst.queue with
    | [] => s
    | r :: rest =>
      let s := s.onTst fun t => { t with queue := rest }
      if ok ∧ 64 ≤ s.boot.repLen.toNat then programRepair r s else persistFail s

/-! ## Aging monitors (R369) -/

/-- Domain of sensor n (R39). -/
def sensorDom (n : Nat) : Nat :=
  if n = 0 then 1 else if n = 1 then 3 else if n < 4 then 5 else if n = 4 then 2 else if n = 5 then 4 else if n < 8 then 6
  else if n < 20 then 10 + (n - 8) / 2 else if n < 23 then n - 13 else 0

def execAgeMeasure (n : Fin 8) (degr : BitVec 16) (s : State) : Host.Outcome State Fault Refusal :=
  answer s <|
    if !domRuns s (sensorDom n.val) ∨ !longAgo s (tget none s.tst.ageAt n.val) 1000000000 then s
    else
      let s := s.onTst fun t => { t with degr := tset 0 t.degr n.val degr, ageAt := tset none t.ageAt n.val (some s.clk.time) }
      if degr.toNat < s.tst.ageThr.toNat then s.onTst fun t => { t with aged := tset false t.aged n.val false }
      else if tget false s.tst.aged n.val then s
      else
        writeRec { Rec.mk0 21 10 (if n.val < 4 then .e else .w) with
          sev := 2, actual := degr.setWidth 32, detail := tstDetail 0 n.val 0xFF 0xFF s.tst.pack.ver 0 }
          (setTstStat 5 (s.onTst fun t => { t with aged := tset false t.aged n.val true }))

end Sys2Proof.Machine
end

