-- ==== Sys2Proof/Machine/Power.lean ====
section
/-! DEFINITION. Sensors, chip resets, power domains and unit commands (R36 to R42, R372 to R386, R420 to R423). -/

namespace Sys2Proof.Machine

/-! ## Domain states (R382) -/

/-- The sensors of a domain that is off have no valid result (R40). -/
def sensorsOff (d : Nat) (s : State) : State :=
  s.onSense fun x => { x with valid := x.valid.filter fun e => !decide (sensorDom e.1 = d) }

/-- STATE takes a new value, and GEN counts the change (R382). -/
def setDom (d st : Nat) (s : State) : State :=
  let s := s.onPwr fun p =>
    let x := tget Dom.zero p.dom d
    if x.st.toNat = st then p else { p with dom := tset Dom.zero p.dom d { st := BitVec.ofNat 2 st, gen := x.gen + 1 } }
  if st = 0 then sensorsOff d s else s

/-- The half of a logic domain: D1, D3, D5, D7 serve E; D2, D4, D6, D8 serve W. -/
def domHalf (d : Nat) : Half := if d % 2 = 1 then .e else .w

/-- The ports of domains D7 to D9. -/
def domPorts (d : Nat) : List Nat := (List.range 8).filter fun n => decide (portDom n = d)

/-! ## What a domain holds, and what goes with it (R384) -/

/-- Someone a domain's ports still have to answer. -/
def portWho (ps : List Nat) (w : Who) : Bool :=
  match w with
  | .port p _ _ => ps.contains p.val
  | .block p _ _ => ps.contains p.val
  | _ => false

/-- The request that an invalidation holds up. -/
def InvOp.held (o : InvOp) : Option LineReq :=
  match o.act with
  | .perform r => some r
  | _ => none

/-- Every request in the cache that is not answered. -/
def liveReqs (s : State) : List LineReq :=
  s.cache.blocked ++ (s.cache.mshr.flatMap (·.waiters)) ++ (s.cache.invs.filterMap (·.held)) ++ s.cache.pool.filterMap fun q => match q.who with
    | .uncached r => some r
    | _ => none

/-- A request that changes data. -/
def LineReq.isWrite (r : LineReq) : Bool :=
  match r.op with
  | .write _ _ => true
  | _ => false

def LineReq.isAtu (r : LineReq) : Bool :=
  match r.op with
  | .atu _ => true
  | _ => false

/-- Everything that ports have accepted and not answered. -/
def portWork (s : State) (ps : List Nat) : Nat :=
  let ws := [s.atu.he, s.atu.hw].flatMap fun x => x.waiting.map (·.who) ++ x.atoms.map (·.who)
  let fs := s.buf.frees.filterMap fun e => e.2.1.map (·.1)
  let all := (liveReqs s).map (·.who) ++ ws ++ (s.buf.waitE ++ s.buf.waitW).map (·.who) ++ fs
  (all.filter (portWho ps)).length + (s.links.blocks.filter fun b => ps.contains b.port.val).length

def isWB (q : PoolReq) : Bool := decide (q.kind = .wb ∨ q.kind = .wt)

/-- Blocks in SCRUB of a half. -/
def scrubbing (s : State) (h : Half) : Nat := (s.buf.blk.filter fun e => e.2.st == 2 && (blockHalf e.1 == h)).length

/-- Items of buffered work in a logic domain. -/
def domWork (s : State) (d : Nat) : Nat :=
  let h := domHalf d
  if d < 3 then
    let ts := (threadsOf h).map (thr s)
    (ts.filter fun t => !(t.phase == .free)).length + (h.pick s.seq.resumeE s.seq.resumeW).length
  else if d < 5 then
    (s.cache.mshr.filter fun q => q.home == h).length + (s.cache.invs.filter fun o => o.home == h).length
      + (s.cch.plow.filter fun c => c.started && !(h.pick c.workE c.workW).isEmpty).length
  else if d < 7 then
    let x := atuHalf s h
    x.queue.length + x.held.length + x.atoms.length + (waitQ s h).length + scrubbing s h
      + (s.cache.offers.filter fun o => o.home == h).length + (s.cache.pool.filter fun q => q.home == h && isWB q).length
      + (s.cache.invs.filter fun o => o.home == h && invDirty s o).length
  else
    let ps := domPorts d
    (ps.map fun n => (link s n).tx.length + (link s n).buf.length + (link s n).wait.length).sum + portWork s ps

/-- What FORCE discards there: each write, ADDL, dirty sector, block and task counts as one (R383). -/
def domLoss (s : State) (d : Nat) : Nat :=
  let h := domHalf d
  if d < 3 then
    ((threadsOf h).filter fun i => !((thr s i).phase == .free)).length + (h.pick s.seq.resumeE s.seq.resumeW).length
  else if d < 5 then
    ((liveReqs s).filter fun r => r.home == h && r.isWrite).length
  else if d < 7 then
    let x := atuHalf s h
    x.queue.length + x.held.length + x.waiting.length + scrubbing s h
      + ((s.cache.pool.filter fun q => q.home == h && isWB q).map fun q => popcount q.mask).sum
  else
    let mine := portWho (domPorts d)
    ((liveReqs s).filter fun r => mine r.who && r.isWrite).length
      + ([s.atu.he, s.atu.hw].map fun x => (x.waiting.filter fun a => mine a.who).length).sum

/-- The units of a domain leave a pending epoch (R314, R386 edges). -/
def lagOut (us : List Nat) (s : State) : State :=
  epochFinish (s.onGlb fun g => { g with lag := us.foldl (fun l u => setBit l u false) g.lag })

/-- Requests in the cache that pass a test end UNAVAILABLE, discarded; operations of the ATU stay. -/
def discardReqs (gone : LineReq → Bool) (s : State) : State :=
  let out (r : LineReq) : Bool := gone r && !r.isAtu
  let rs := s.cache.blocked.filter out ++ (s.cache.mshr.flatMap fun q => q.waiters.filter out) ++ ((s.cache.invs.filterMap (·.held)).filter out)
    ++ s.cache.pool.filterMap fun q => match q.who with
      | .uncached r => if q.port.isNone ∧ out r then some r else none
      | _ => none
  let s := s.onCache fun c =>
    { c with blocked := c.blocked.filter fun r => !out r,
             mshr := c.mshr.map fun q => { q with waiters := q.waiters.filter fun r => !out r },
             invs := c.invs.filter fun o => match o.held with
               | none => true
               | some r => !out r,
             pool := c.pool.filter fun q => match q.who with
               | .uncached r => !(q.port.isNone && out r)
               | _ => true }
  rs.foldl (fun t r => answerReq r (LineRes.st stUnavailable) none t) s

/-- An allocation waiter ends UNAVAILABLE (R250). -/
def waiterLost (h : Half) (w : Waiter) (s : State) : State :=
  match w.who with
  | .thread t _ => raise t 0x08 none (setWaitQ h ((waitQ s h).erase w) (subUsed h w.part s))
  | _ => endWaiter h w stUnavailable s

/-- An atomic that is discarded. -/
def atomLost (a : Atom) (s : State) : State :=
  match a.who with
  | .port p c tag => respond p c tag a.part a.sa stUnavailable 0 false [] s
  | .thread t id => lostResult t id 1 s
  | _ => s

/-- The units of logic domain d lose their caches, registers in use and queues; registers and tables are retained. Whoever still waits
there is answered UNAVAILABLE (R36 edges, R384). -/
def domainLost (d : Nat) (s : State) : State :=
  let h := domHalf d
  if d < 3 then
    let s := (threadsOf h).foldl (fun s i => if hi : i < 72 then freeThread ⟨i, hi⟩ (withdrawAlloc ⟨i, hi⟩ s) else s) s
    let s := (List.range 9).foldl (fun s c => roDropCore (9 * h.idx + c) (startClear (6 + 9 * h.idx + c) s)) s
    let s := s.onSeq fun q => match h with
      | .e => { q with resumeE := [] }
      | .w => { q with resumeW := [] }
    let s := setWalkWait h [] (setWalks h [] (keepTlb h (fun _ => false) s))
    lagOut ((2 + h.idx) :: (List.range 9).map fun c => 8 + 9 * h.idx + c) s
  else if d < 5 then
    let s := discardReqs (fun r => r.home == h) s
    let s := s.onCache fun c =>
      { c with mshr := c.mshr.filter (fun q => !(q.home == h)), invs := c.invs.filter (fun o => !(o.home == h)),
               blocked := c.blocked ++ (c.mshr.flatMap (·.waiters) ++ c.invs.filterMap (·.held)).filter (fun r => r.home == h) }
    lagOut [h.idx, 6 + h.idx] s
  else if d < 7 then
    let s := (waitQ s h).foldl (fun s w => waiterLost h w s) s
    let x := atuHalf s h
    let s := setAtuHalf s h { x with waiting := [], queue := [], held := [], atoms := [] }
    let s := x.atoms.foldl (fun s a => atomLost a s) (x.waiting.foldl (fun s a => answerAddl a.who a.part a.line stUnavailable s) s)
    let s := discardReqs (fun r => r.home == h) s
    let s := s.onCache fun c =>
      { c with offers := c.offers.filter (fun o => !(o.home == h)), pool := c.pool.filter (fun q => !(q.home == h && isWB q)),
               toE := [], toW := [] }
    lagOut [4 + h.idx] (setWaitQ h [] s)
  else
    let ps := domPorts d
    let keep (x : AtuHalf) : AtuHalf := { x with waiting := x.waiting.filter fun a => !portWho ps a.who }
    let s := discardReqs (fun r => portWho ps r.who) (s.onAtu fun a => { a with he := keep a.he, hw := keep a.hw })
    ps.foldl
      (fun s n =>
        let p := port s n
        let s := setLink (putPort s n { Port.zero with en := p.en, gen := p.gen }) n LinkSt.zero
        if n < 6 then ackPort n (loseAnswers n s)
        else
          let f : Fin 2 := if n = 6 then 0 else 1
          poolResend f (offersEnd f s)) s

/-! ## Sensors (R39 to R42) -/

/-- A thermal trip: D1 to D15 go off at once, whatever they hold (R42); a switch or a warm drain under way is abandoned, a cold reset is
not. -/
def thermTrip (s : State) : State :=
  let s := (List.range 9).foldl (fun s i => domainLost (i + 1) s) s
  let s := (List.range 384).foldl
    (fun s r => if (region s r).state = 0 then s else setRegion (wipeRegion r s) r { region s r with state := 0, busy := false }) s
  let s := allOff s
  let cached : Cache := { Cache.reset with offers := [] }
  let s := { s with cache := cached }
  (s.onPwr fun p => { p with trip := true, tripStat := true, cmd := none, resetSt := if p.resetSt = .cold then .cold else .none }).onBoot
    fun b => { b with phase := .waitReset }

def execSensorResult (n : Fin 24) (temp : BitVec 12) (s : State) : Host.Outcome State Fault Refusal :=
  answer s <| genBump s <|
    if !domRuns s (sensorDom n.val) then s
    else
      let s := s.onSense fun x => { x with temp := tset 0 x.temp n.val temp, valid := tset false x.valid n.val true }
      let warn : Nat := min 0x370 s.sense.warn.toNat
      let s := if temp.toInt ≥ (warn : Int) then s.onSense fun x => { x with warnStat := true } else s
      if temp.toInt ≥ 944 ∧ !s.pwr.trip then thermTrip s else s

/-! ## Chip resets (R376 to R381) -/

/-- Trigger a warm reset: nothing more happens while one is under way, or while a trip keeps D1 to D15 off. -/
def warmRequest (byPin : Bool) (s : State) : State :=
  if s.pwr.resetSt = .none ∧ s.pwr.pwrgood ∧ !s.pwr.trip ∧ s.pwr.vaon then s.onPwr fun p => { p with resetSt := .warmReq byPin } else s

def execPwrgoodDeassert (s : State) : Host.Outcome State Fault Refusal :=
  answer s <| if s.pwr.pwrgood then s.onPwr fun p => { p with pwrgood := false, resetSt := .cold } else s

def execColdReset (s : State) : Host.Outcome State Fault Refusal :=
  answer s <| if s.pwr.resetSt = .cold then coldNow s else s

def execResetNAssert (s : State) : Host.Outcome State Fault Refusal :=
  answer s <|
    if s.pwr.resetN then
      let t := s.onPwr fun p => { p with resetN := false }
      if t.boot.phase = .waitReset then t else warmRequest true t
    else s

/-- RESET_N deasserts: the straps are latched, and a loader that waits for it goes on (R29, R380). No row asserts PWRGOOD:
the board holds it asserted by now (R373; log entry 35). -/
def execResetNDeassert (sid : BitVec 8) (bootSel : BitVec 2) (s : State) : Host.Outcome State Fault Refusal :=
  answer s <|
    if s.pwr.resetN ∨ !s.pwr.vaon then s
    else
      let s := s.onGlb fun g => { g with sidStrap := sid, bootSel := bootSel }
      let s := s.onMgt fun m => { m with smbAddr := if s.boot.phase = .waitReset then smbAddrOf sid else m.smbAddr }
      let s := s.onPwr fun p => { p with resetN := true, pwrgood := true }
      if s.boot.phase = .waitReset ∧ !s.pwr.trip then
        bootStart (s.onBoot fun b => { b with phase := .waitPll, since := s.clk.time })
      else s

/-- A write of PWR_RST_CMD (R381). -/
def rstCmd (v : BitVec 32) (s : State) : State :=
  if field v.toNat 0 8 = 0x5A ∧ bit v 8 then warmRequest false s else s

def execPwrRstWarm (v : BitVec 32) (s : State) : Host.Outcome State Fault Refusal := answer s (rstCmd v s)

/-- Step 1: walks end without use, allocation waiters go without a response or a thaw, outstanding offers count as DECLINE. -/
def execWarmReset (s : State) : Host.Outcome State Fault Refusal :=
  answer s <|
    match s.pwr.resetSt with
    | .warmReq byPin =>
      let s := s.onPwr fun p => { p with resetSt := .warm s.clk.time byPin }
      let s := [Half.e, Half.w].foldl
        (fun s h =>
          let s := (waitQ s h).foldl (fun s w => subUsed h w.part s) s
          setWaitQ h [] (setWalkWait h [] (setWalks h [] s))) s
      s.cache.offers.foldl (fun s o => declineOffer o s) s
    | _ => s

/-- The drain has ended: every accepted write, atomic, ADDL and stream unit is applied, writebacks are acknowledged, no region is
in transition and no free is under way (R378 step 2). -/
def warmDrained (s : State) : Bool :=
  !((liveReqs s).any fun r => r.isWrite || r.isAtu) &&
  ((List.range 72).all fun i => (thr s i).s0.flights.isEmpty && (thr s i).s1.flights.isEmpty) &&
  s.atu.he.queue.isEmpty && s.atu.hw.queue.isEmpty && s.atu.he.atoms.isEmpty && s.atu.hw.atoms.isEmpty &&
  (s.cache.asked.all fun a => match a.1 with
    | .source _ _ _ => false
    | .dest _ _ _ => false
    | .tag _ _ _ => false
    | _ => true) &&
  !(s.cache.pool.any isWB) && !(s.cache.invs.any (invDirty s)) && !(s.tables.region.any fun e => e.2.busy) && s.buf.frees.isEmpty

/-- ADDLs held for reordering are discarded and counted (R184); step 3, and the warm boot (R378). -/
def execWarmDrainDone (s : State) : Host.Outcome State Fault Refusal :=
  answer s <|
    match s.pwr.resetSt with
    | .warm _ byPin =>
      if !warmDrained s then s
      else
        let s := [Half.e, Half.w].foldl
          (fun s h => (atuHalf s h).held.foldl (fun s a => cnt 0x023 (some h) (some a.part) 1 s) s) s
        warmNow s (if byPin then 3 else 4)
    | _ => s

def execDrainTmo (s : State) : Host.Outcome State Fault Refusal :=
  answer s <|
    match s.pwr.resetSt with
    | .warm t _ => if due s t 1000000 then fatalNow s 6 else s
    | _ => s

/-- An uncorrectable entry of a shared structure (R328): recorded, then the fatal reset. -/
def execFatalReset (structure_ : BitVec 8) (entry : EntryOf) (s : State) : Host.Outcome State Fault Refusal :=
  answer s <|
    if 4 < structure_.toNat ∨ s.pwr.resetSt = .cold ∨ !s.pwr.vaon then s
    else
      fatalWith { Rec.mk0 7 7 entry.half with detail := pack 128 [(0, structure_.toNat), (8, entry.index.toNat)] } s

/-- VAON comes up: D0 is on, everything at its power-on value (R37, R376). -/
def execVaonPowerOn (s : State) : Host.Outcome State Fault Refusal :=
  .next (if s.pwr.vaon then s else powerOnNow s)

/-- VAON leaves its limits: every D0 store is lost, the timebase included (R37, R374 edges). -/
def execVaonLoss (s : State) : Host.Outcome State Fault Refusal :=
  .next (let t := powerOnNow s; { t with pwr := { t.pwr with vaon := false } })

/-! ## Domain commands (R383) -/

/-- Domain d has something on that requires it (R36). -/
def neededBy (s : State) (d : Nat) : Bool :=
  let on (k : Nat) : Bool := domSt s k != 0
  if d = 3 then on 1 || on 7 || (on 9 && !(domOn s 4 && domOn s 6))
  else if d = 4 then on 2 || on 8 || (on 9 && !(domOn s 3 && domOn s 5))
  else if d = 5 then on 1 || on 3 || on 7 || (on 9 && !(domOn s 4 && domOn s 6))
  else if d = 6 then on 2 || on 4 || on 8 || (on 9 && !(domOn s 3 && domOn s 5))
  else false

/-- What domain d requires is on (R36). -/
def requiredOn (s : State) (d : Nat) : Bool :=
  if d = 1 ∨ d = 7 then domOn s 3 && domOn s 5 else if d = 2 ∨ d = 8 then domOn s 4 && domOn s 6
  else if d = 3 then domOn s 5 else if d = 4 then domOn s 6
  else if d = 9 then (domOn s 3 && domOn s 5) || (domOn s 4 && domOn s 6) else true

def dieRegions (k : Nat) : List Nat := (List.range 64).map fun i => 64 * k + i

/-- Boot or a chip reset is in progress; a thermal trip keeps every domain off (log entry 36). -/
def pwrBusy (s : State) : Bool :=
  s.pwr.cmd.isSome || !(s.pwr.resetSt == .none) || s.pwr.trip || !(s.boot.phase == .started || s.boot.phase == .recovery)

/-- A domain command's result: DOM, CODE and DONE_EVT. -/
def domResult (d code : Nat) (s : State) : State :=
  s.onPwr fun p => { p with resDom := BitVec.ofNat 4 d, resCode := BitVec.ofNat 4 code, resDone := true }

/-- The domain command that runs ends with a CODE. -/
def domEnd (d code : Nat) (s : State) : State := domResult d code (s.onPwr fun p => { p with cmd := none })

/-- The first failing check of R383 before anything starts; 0 when all pass. -/
def domCheck (s : State) (d : Nat) (on : Bool) (gen : BitVec 16) : Nat :=
  if d = 0 then 1
  else if (tget Dom.zero s.pwr.dom d).gen ≠ gen then 2
  else if pwrBusy s then 3
  else if domOn s d == on then 0
  else if on then
    if !requiredOn s d then 4
    else if d < 7 ∧ (loopOf s (d + 1 - 2 * ((d + 1) / 2))).devFault then 8 else 0
  else if d < 10 then (if neededBy s d then 4 else 0)
  else
    let k := d - 10
    let rs := dieRegions k
    if !homeUp s (regionHalf (64 * k)) ∧ (rs.any fun r => decide ((region s r).state ≠ 0)) then 4
    else if (calve s k).phase ≠ 0 then 5
    else if rs.any fun r => (region s r).busy then 6 else 0

/-- The die holds what a switch-off would lose (R385 step 1). -/
def dieHeld (s : State) (k : Nat) : Bool :=
  (s.buf.blk.any fun e => decide (e.1 / 65536 = k) && (e.2.st == 3 || e.2.st == 2) && (region s (e.1 / 1024)).state == 2) ||
  (s.cache.line.any fun e => decide (keyRegion e.1 / 64 = k) && (e.2.sd != 0))

/-- The regulator of a half whose logic is all off is set to at least 850 mV first (R375). -/
def railUp (d : Nat) (s : State) : State :=
  let h := domHalf d
  if d < 7 ∧ domSt s (h.pick 1 2) = 0 ∧ domSt s (h.pick 3 4) = 0 ∧ domSt s (h.pick 5 6) = 0 then
    let l := loopOf s h.idx
    let v := if l.value.toNat < 850 then 850 else l.value
    avsWrite h v (setLoop h.idx { l with value := v } s)
  else s

def setCmd (d : Nat) (on force : Bool) (regions : List (Nat × BitVec 2)) (s : State) : State :=
  s.onPwr fun p => { p with cmd := some { dom := BitVec.ofNat 4 d, on := on, force := force, since := s.clk.time, regions := regions } }

/-- Count n items that FORCE discards. -/
def forceDisc (n : Nat) (s : State) : State := cnt 0x057 none none n (s.onPwr fun p => { p with disc := satAdd p.disc n })

/-- Cut an array die off (R385 step 2): its regions take no more accesses; with FORCE its dirty sectors and blocks are lost. -/
def cutOff (k : Nat) (s : State) : State :=
  let rs := dieRegions k
  let dirty := ((s.cache.line.filter fun e => decide (keyRegion e.1 / 64 = k)).map fun e => popcount e.2.sd).sum
  let blocks := s.buf.blk.filter fun e => decide (e.1 / 65536 = k) && (e.2.st == 3 || e.2.st == 2)
  let s := forceDisc (dirty + blocks.length) s
  let s := blocks.foldl (fun s e => if e.2.st = 3 then subUsed (blockHalf e.1) e.2.owner s else s) s
  let s := s.onBuf fun u => { u with blk := u.blk.filter fun e => !decide (e.1 / 65536 = k) }
  let s := s.cache.line.foldl
    (fun s e => if decide (keyRegion e.1 / 64 = k) && e.2.sd != 0 then setMeta s e.1 { e.2 with sd := 0 } else s) s
  rs.foldl (fun s r => if (region s r).state = 0 then s else setRegion s r { region s r with state := 0 }) s

/-- A domain command (R383): the CODE it ends with, or none while it runs. -/
def domCmd (d : Nat) (on force : Bool) (gen : BitVec 16) (s : State) : State :=
  let c := domCheck s d on gen
  if c ≠ 0 ∨ domOn s d == on then domResult d c s
  else if on then setCmd d true force [] (setDom d 2 (railUp d s))
  else if d < 10 then setCmd d false force [] (setDom d 3 s)
  else
    let k := d - 10
    if dieHeld s k ∧ !force then domResult d 7 s
    else
      let old := (dieRegions k).filterMap fun r => if (region s r).state = 0 then none else some (r, (region s r).state)
      setCmd d false force old (setDom d 3 (cutOff k s))

def execDomainOn (d : BitVec 4) (force : Bool) (gen : BitVec 16) (s : State) : Host.Outcome State Fault Refusal :=
  answer s (domCmd d.toNat true force gen s)
def execDomainOff (d : BitVec 4) (force : Bool) (gen : BitVec 16) (s : State) : Host.Outcome State Fault Refusal :=
  answer s (domCmd d.toNat false force gen s)

/-- The drain of a logic domain ends or has lasted 100 µs (R384 steps 2 to 4). -/
def execDomainDrainEnd (s : State) : Host.Outcome State Fault Refusal :=
  answer s <|
    match s.pwr.cmd with
    | none => s
    | some c =>
      let d := c.dom.toNat
      if c.on ∨ 10 ≤ d then s
      else
        let n := domWork s d
        if n ≠ 0 ∧ !due s c.since 100000 then s
        else if n ≠ 0 ∧ !c.force then domEnd d 7 (setDom d 1 s)
        else
          let s := if n = 0 then s else forceDisc (domLoss s d) s
          domEnd d 0 (setDom d 0 (domainLost d s))

/-- The targets of a domain that comes on start over (R352). -/
def tgtRestart (d : Nat) (s : State) : State :=
  let h := domHalf d
  let ts : List (Half × Nat) :=
    if d < 3 then (List.range 9).map fun t => (h, t)
    else if d = 5 ∨ d = 6 then (List.range 11).map (fun i => (h, 9 + i)) ++ [(.e, 20), (.e, 21), (.w, 20), (.w, 21)] else []
  ts.foldl
    (fun s e => let x := tgt s e.1 e.2; setTgt e.1 e.2 { x with since := 0, next := 0, repeats := 0, state := if x.state = 2 then x.back else x.state } s) s

/-- A domain has switched on; a logic domain's first voltage command has been read back (R375, R386). -/
def execDomainOnDone (s : State) : Host.Outcome State Fault Refusal :=
  answer s <| genBump s <|
    match s.pwr.cmd with
    | none => s
    | some c =>
      let d := c.dom.toNat
      let h := domHalf d
      if !c.on then s
      else if d < 7 ∧ (loopOf s h.idx).devFault then domEnd d 8 (setDom d 0 s)
      else if d < 7 ∧ !(avsOf s h).reads.isEmpty ∧ domSt s (h.pick 1 2) ≠ 1 ∧ domSt s (h.pick 3 4) ≠ 1 ∧ domSt s (h.pick 5 6) ≠ 1 then s
      else
        let s := tgtRestart d (setDom d 1 s)
        let s := (domPorts d).foldl (fun s n => if (port s n).en then portTo n 1 s else s) s
        domEnd d 0 s

/-- One region of a die comes back (R386). -/
def restoreRegion (s : State) (e : Nat × BitVec 2) : State :=
  let s := wipeRegion e.1 s
  let s := setRegion s e.1 { region s e.1 with state := e.2 }
  if e.2 = 2 then openRegion e.1 s else s

def execArrayRestoreDone (die : Fin 6) (s : State) : Host.Outcome State Fault Refusal :=
  answer s <|
    match tget none s.sense.restore die.val with
    | none => s
    | some rs =>
      if domOn s (10 + die.val) ∧ homeUp s (regionHalf (64 * die.val)) then
        let s := s.onSense fun x => { x with restore := tset none x.restore die.val none }
        settle ((rs.filter fun e => !(region s e.1).retired).foldl restoreRegion s)
      else s

/-- Copies of the die's lines are invalidated, then the die goes off (R385 steps 3 and 4). -/
def execArraySweepDone (s : State) : Host.Outcome State Fault Refusal :=
  answer s <|
    match s.pwr.cmd with
    | none => s
    | some c =>
      let d := c.dom.toNat
      let k := d - 10
      if c.on ∨ d < 10 then s
      else
        let mine (key : Nat) : Bool := decide (keyRegion key / 64 = k)
        let s := settle (s.cache.line.foldl
          (fun s e =>
            if mine e.1 && e.2.sv != 0 && (needInv s (metaAt s e.1) || e.2.replica) && !invBusy s e.1 then
              startInv (regionHalf (keyRegion e.1)) e.1 (saOf s e.1) (if e.2.replica then .replica else .drop) s
            else s) s)
        if (s.cache.invs.any fun o => mine o.key) ∨ (s.cache.mshr.any fun q => mine q.key) then s
        else
          let s := (dieRegions k).foldl (fun s r => wipeRegion r s) s
          let s := s.onSense fun x =>
            { x with restore := tset none x.restore k (some c.regions), valid := tset false (tset false x.valid (8 + 2 * k) false) (9 + 2 * k) false }
          domEnd d 0 (setDom d 0 s)

/-! ## Unit commands (R420 to R423) -/

/-- The state word of unit u. -/
def unitWord (s : State) (u : Nat) : BitVec 32 :=
  if u = 0 then 1
  else if u < 16 then
    let d := tget Dom.zero s.pwr.dom u
    pack 32 [(0, d.st.toNat), (16, d.gen.toNat)]
  else if u < 24 then
    let p := port s (u - 16)
    pack 32 [(0, p.state.toNat), (8, b2n p.degraded), (9, p.spares.toNat), (16, p.gen.toNat)]
  else
    let w := unitOwn s u
    pack 32 [(0, w.1), (8, w.2), (16, (tget 0 s.pwr.unitGen u).toNat)]

/-- A unit command: a unit there is none of, STALE, BADARG for an operation the unit lacks, or the action (R422).
    DEDUCED: GEN is compared before the operation (log 52). -/
def unitCmd (u op : Nat) (gen : BitVec 16) (s : State) : State :=
  let done (code : Nat) (s : State) : State :=
    s.onPwr fun p => { p with unitCode := BitVec.ofNat 2 code, unitUnit := BitVec.ofNat 6 u, unitDone := true }
  let isPort : Bool := decide (16 ≤ u ∧ u < 24)
  let isCore : Bool := decide (24 ≤ u ∧ u < 42)
  if 48 ≤ u then done 1 s
  else if (unitWord s u).extractLsb' 16 16 ≠ gen then done 2 s
  else if !(isPort && decide (op < 4) || isCore && decide (op = 3)) then done 1 s
  else if isPort then
    let n := u - 16
    done 0 (if op = 0 then setPortEn n false s else if op = 1 then setPortEn n true s else if op = 2 then enterRecal n s
            else settle (forceDown n s))
  else done 0 (genBump s (tstSwap (coreHalf (u - 24)) (coreInHalf (u - 24)) s))

def execUnitPortDisable (u : BitVec 6) (gen : BitVec 16) (s : State) : Host.Outcome State Fault Refusal := answer s (unitCmd u.toNat 0 gen s)
def execUnitPortEnable (u : BitVec 6) (gen : BitVec 16) (s : State) : Host.Outcome State Fault Refusal := answer s (unitCmd u.toNat 1 gen s)
def execUnitRecal (u : BitVec 6) (gen : BitVec 16) (s : State) : Host.Outcome State Fault Refusal := answer s (unitCmd u.toNat 2 gen s)
def execUnitForceDown (u : BitVec 6) (gen : BitVec 16) (s : State) : Host.Outcome State Fault Refusal := answer s (unitCmd u.toNat 3 gen s)
def execUnitFail (u : BitVec 6) (gen : BitVec 16) (s : State) : Host.Outcome State Fault Refusal := answer s (unitCmd u.toNat 3 gen s)

end Sys2Proof.Machine
end

