-- ==== Sys2Proof/Machine/Cnt.lean ====
section
/-! DEFINITION. The commands of the event counters (R424 to R430). -/

namespace Sys2Proof.Machine

/-- The listed event codes (R429) and 0, which counts nothing (R430). -/
def eventOk (e : Nat) : Bool :=
  decide (e ≤ 0x018 ∨ 0x020 ≤ e ∧ e ≤ 0x024 ∨ 0x030 ≤ e ∧ e ≤ 0x035 ∨ 0x040 ≤ e ∧ e ≤ 0x04B ∨ 0x050 ≤ e ∧ e ≤ 0x05A
    ∨ 0x060 ≤ e ∧ e ≤ 0x064 ∨ e = 0x0FF ∨ 0x200 ≤ e ∧ e < 0x258)

/-- SNAP: every counter at one instant, with the time (R427). -/
def snapAll (s : State) : State := s.onCnt fun c => { c with snap := c.val, snapTime := s.clk.time }

/-- RESET: every counter is 0 (R427). -/
def zeroAll (s : State) : State := s.onCnt fun c => { c with val := [] }

/-- A write of CNT_CMD: the snapshot is taken first (R427). -/
def cntCmd (v : BitVec 32) (s : State) : State :=
  let s := if bit v 0 then snapAll s else s
  if bit v 1 then zeroAll s else s

/-- A write of CNT_SEL[n] (R425). -/
def writeCntSel (n : Nat) (v : BitVec 32) (s : State) : State :=
  let x : CntSel := { event := v.extractLsb' 0 10, half := v.extractLsb' 10 2, part := v.extractLsb' 12 5, partEn := bit v 17,
                      chain := bit v 18 }
  if eventOk x.event.toNat then s.onCnt fun c => { c with sel := tset CntSel.zero c.sel n x }
  else s.onCnt fun c => { c with errSel := true }

def execCntSnap (s : State) : Host.Outcome State Fault Refusal := answer s (snapAll s)
def execCntReset (s : State) : Host.Outcome State Fault Refusal := answer s (zeroAll s)

end Sys2Proof.Machine
end

