-- ==== Sys2Proof/Machine/Regs.lean ====
section
/-! DEFINITION. The register map (chapter 17): which register an offset of the control window names, its width, the domain and
the half that serve it, and who may reach it. -/

namespace Sys2Proof.Machine

/-- Every register of the control window, with its indexes; `sh` says the shadow of a staged one. Tables of 8- and 16-bit
entries are named by the 32-bit word that holds the entries (R432). -/
inductive Reg where
  | glbId | glbStrap | glbEpoch | glbEpochDone | glbEpochCmd | glbEpochStat | glbEpochLag | glbEpochNote
  | pwrRstStat | pwrRstCmd | pwrDomCmd | pwrDomRes | pwrDomStat | pwrDisc | pwrUnitCmd | pwrUnitRes
  | pwrDom (d : Nat) | pwrUnit (u : Nat) | pwrTsens (n : Nat) | pwrTwarn
  | bootStat | bootSeq | bootStart | bootKeyhash (k : Nat) | bootKeyctl | bootFlash
  | loopFrz | loopAlrtEn | loopTime | loopClkStat | loopReg (n off : Nat)
  | partHomecfg (sh : Bool) | partShw (h : Half) (sh : Bool) | partErr | partCtl (p : Nat) (sh : Bool)
  | partGtw (h : Half) (p : Nat) (sh : Bool) | partQuota (h : Half) (p : Nat) (sh : Bool)
  | partFwbase (p w : Nat) (sh : Bool) | partFwctl (p w : Nat) (sh : Bool) | partRegion (r : Nat)
  | partHome (k : Nat) (sh : Bool) | partGown (h : Half) (k : Nat) | partGt (h : Half) (k : Nat)
  | xltInv | xltInvStat | xltErr | xltRoot (p : Nat) (sh : Bool) | xltFqBase (p : Nat) | xltFqCtl (p : Nat)
  | xltFqHead (p : Nat) | xltFqTail (p : Nat) | xltFqStat (p : Nat)
  | cchCtl | cchPlowCmd | cchPlowArg (k : Nat) | cchPlowStat | cchPlowIssued | cchPlowDone | cchPlowLasterr
  | cchDirCtl | cchDirStat | cchDirErr
  | bufFree (h : Half) | bufStat (h : Half) | bufQuery | bufQres | bufRelease | bufErr | bufUsed (h : Half) (p : Nat)
  | bufRgnCtl (r : Nat)
  | atuStat (h : Half) | atuFpstat (h : Half) | atuDisc (h : Half) | atuErr
  | atuOrdBase (n : Nat) | atuOrdCtl (n : Nat) | atuOrdDone (n : Nat) | atuOrdStat (n : Nat)
  | bwrCtl (sh : Bool) | bwrFsum (h : Half) | bwrErr | bwrMcfg (h : Half) (m : Nat) (sh : Bool) | bwrMstat (h : Half) (m : Nat)
  | seqTqBase (q : Nat) | seqTqCtl (q : Nat) | seqTqHead (q : Nat) | seqTqTail (q : Nat) | seqTqStat (q : Nat)
  | seqPartCtl (p : Nat) | seqThawCnt (p : Nat) | seqCtxBase (p : Nat) | seqCtxCtl (p : Nat) | seqCtxStat (p : Nat)
  | seqCtxUsed (p : Nat) | seqCtxPark (p : Nat) | seqWait (i : Nat) | seqWaitT0 (i : Nat)
  | pptCtl (n : Nat) | pptStat (n : Nat) | pptErr (n : Nat) | pptLanemap (n : Nat) | poolCtl
  | intCtl | intChk (h : Half) | intCeThr | intStat | intPass (h : Half) | intPrst | intPrstStat | intInjAddr | intInjCtl
  | intLogHead | intLogTail | intLogStat | intFatalClr | intLog (k w : Nat) | intFatal (k w : Nat)
  | tstCtl | tstStat | tstSpares | tstSwap | tstCalveCmd | tstCalveThr | tstUid | tstPackSa | tstPackCmd | tstPackStat
  | tstPackVer | tstPersist | tstCalveStat (k : Nat) | tstTgt (h : Half) (t : Nat) | tstAge (n : Nat) | tstAgeThr
  | mgtUartBaud | mgtUartBaudx | mgtUartFmt | mgtUartStat | mgtUartData | mgtSvetCtl | mgtSvetStat | mgtAlert
  | mgtSmbCtl | mgtSmbStat | mgtMbCtl | mgtMbOutlen | mgtMbNote | mgtMbIn (k : Nat) | mgtMbOut (k : Nat)
  | cntVal (n : Nat) | cntSnap (n : Nat) | cntSel (n : Nat) | cntCmd | cntSnaptime | cntOvf (k : Nat) | cntErr
  deriving DecidableEq, Repr

/-- 64-bit registers (R439). -/
def Reg.wide (r : Reg) : Bool :=
  match r with
  | .glbEpochNote | .bootStart | .bootKeyhash _ | .loopTime | .partFwbase _ _ _ | .xltInv | .xltRoot _ _ | .xltFqBase _
  | .cchPlowArg _ | .atuOrdBase _ | .seqTqBase _ | .seqCtxBase _ | .seqCtxUsed _ | .seqCtxPark _ | .seqWait _ | .seqWaitT0 _
  | .intInjAddr | .tstUid | .tstPackSa | .mgtMbNote | .cntVal _ | .cntSnap _ | .cntSnaptime => true
  | _ => false

/-- Element k of an array of registers: base, stride and count; the index and the offset within the element. -/
def elem (o base stride count : Nat) : Option (Nat × Nat) :=
  if base ≤ o ∧ o < base + stride * count then some ((o - base) / stride, (o - base) % stride) else none

/-- A register pair by half at two offsets. -/
def pairAt (o e w : Nat) (f : Half → Reg) : Option Reg := if o = e then some (f .e) else if o = w then some (f .w) else none

def glbAt (o : Nat) : Option Reg :=
  if o = 0 then some .glbId else if o = 4 then some .glbStrap else if o = 0x40 then some .glbEpoch
  else if o = 0x44 then some .glbEpochDone else if o = 0x48 then some .glbEpochCmd else if o = 0x4C then some .glbEpochStat
  else if o = 0x50 then some .glbEpochLag else if o = 0x58 then some .glbEpochNote else none

def pwrAt (o : Nat) : Option Reg :=
  if o = 0 then some .pwrRstStat else if o = 4 then some .pwrRstCmd else if o = 0x10 then some .pwrDomCmd
  else if o = 0x14 then some .pwrDomRes else if o = 0x18 then some .pwrDomStat else if o = 0x1C then some .pwrDisc
  else if o = 0x20 then some .pwrUnitCmd else if o = 0x24 then some .pwrUnitRes else if o = 0x360 then some .pwrTwarn
  else match elem o 0x104 4 15 with
    | some (d, _) => some (.pwrDom (d + 1))
    | none => match elem o 0x200 4 48 with
      | some (u, _) => some (.pwrUnit u)
      | none => (elem o 0x300 4 24).map fun x => .pwrTsens x.1

def bootAt (o : Nat) : Option Reg :=
  if o = 0 then some .bootStat else if o = 4 then some .bootSeq else if o = 8 then some .bootStart
  else if o = 0x10 then some (.bootKeyhash 0) else if o = 0x18 then some (.bootKeyhash 1) else if o = 0x20 then some .bootKeyctl
  else if o = 0x24 then some .bootFlash else none

def loopAt (o : Nat) : Option Reg :=
  if o = 0 then some .loopFrz else if o = 4 then some .loopAlrtEn else if o = 0x10 then some .loopTime
  else if o = 0x20 then some .loopClkStat
  else match elem o 0x100 0x40 14 with
    | some (n, k) => if k ≤ 0x10 then some (.loopReg n k) else none
    | none => none

/-- The staged registers of PART, at their own offsets (`sh` false) or at the shadow's (R93). -/
def partStagedAt (o : Nat) (sh : Bool) : Option Reg :=
  if o = 0 then some (.partHomecfg sh) else if o = 8 then some (.partShw .e sh) else if o = 0xC then some (.partShw .w sh)
  else match elem o 0x100 0x40 32 with
    | some (p, k) =>
      if k = 0 then some (.partCtl p sh) else if k = 8 then some (.partGtw .e p sh) else if k = 0xC then some (.partGtw .w p sh)
      else if k = 0x10 then some (.partQuota .e p sh) else if k = 0x14 then some (.partQuota .w p sh) else none
    | none => match elem o 0x1000 0x80 32 with
      | some (p, k) =>
        if k % 16 = 0 then some (.partFwbase p (k / 16) sh) else if k % 16 = 8 then some (.partFwctl p (k / 16) sh) else none
      | none => (elem o 0x4000 4 2048).map fun x => .partHome x.1 sh

def partAt (o : Nat) : Option Reg :=
  if 0x20000 ≤ o then partStagedAt (o - 0x20000) true
  else if o = 0x10 then some .partErr
  else match elem o 0x2000 4 384 with
    | some (r, _) => some (.partRegion r)
    | none => match elem o 0x8000 4 1536 with
      | some (k, _) => some (.partGown .e k)
      | none => match elem o 0xA000 4 1536 with
        | some (k, _) => some (.partGown .w k)
        | none => match elem o 0x10000 4 4096 with
          | some (k, _) => some (.partGt .e k)
          | none => match elem o 0x14000 4 4096 with
            | some (k, _) => some (.partGt .w k)
            | none => partStagedAt o false

def xltAt (o : Nat) : Option Reg :=
  if o = 0 then some .xltInv else if o = 8 then some .xltInvStat else if o = 0xC then some .xltErr
  else match elem o 0x100 0x40 32 with
    | some (p, k) =>
      if k = 0 then some (.xltRoot p false) else if k = 8 then some (.xltFqBase p) else if k = 0x10 then some (.xltFqCtl p)
      else if k = 0x14 then some (.xltFqHead p) else if k = 0x18 then some (.xltFqTail p) else if k = 0x1C then some (.xltFqStat p)
      else none
    | none => match elem o 0x10100 0x40 32 with
      | some (p, k) => if k = 0 then some (.xltRoot p true) else none
      | none => none

def cchAt (o : Nat) : Option Reg :=
  if o = 0 then some .cchCtl else if o = 0x100 then some .cchPlowCmd else if o = 0x108 then some (.cchPlowArg 0)
  else if o = 0x110 then some (.cchPlowArg 1) else if o = 0x118 then some .cchPlowStat else if o = 0x11C then some .cchPlowIssued
  else if o = 0x120 then some .cchPlowDone else if o = 0x124 then some .cchPlowLasterr else if o = 0x200 then some .cchDirCtl
  else if o = 0x204 then some .cchDirStat else if o = 0x208 then some .cchDirErr else none

def bufAt (o : Nat) : Option Reg :=
  match pairAt o 0 4 .bufFree with
  | some r => some r
  | none => match pairAt o 8 0xC .bufStat with
    | some r => some r
    | none =>
      if o = 0x10 then some .bufQuery else if o = 0x14 then some .bufQres else if o = 0x18 then some .bufRelease
      else if o = 0x1C then some .bufErr
      else match elem o 0x100 8 32 with
        | some (p, k) => some (.bufUsed (Half.ofBool (decide (4 ≤ k))) p)
        | none => (elem o 0x1000 4 384).map fun x => .bufRgnCtl x.1

def atuAt (o : Nat) : Option Reg :=
  match pairAt o 0 4 .atuStat with
  | some r => some r
  | none => match pairAt o 8 0xC .atuFpstat with
    | some r => some r
    | none => match pairAt o 0x10 0x14 .atuDisc with
      | some r => some r
      | none =>
        if o = 0x18 then some .atuErr
        else match elem o 0x100 0x20 32 with
          | some (n, k) =>
            if k = 0 then some (.atuOrdBase n) else if k = 8 then some (.atuOrdCtl n) else if k = 0xC then some (.atuOrdDone n)
            else if k = 0x10 then some (.atuOrdStat n) else none
          | none => none

def bwrStagedAt (o : Nat) (sh : Bool) : Option Reg :=
  if o = 0 then some (.bwrCtl sh)
  else match elem o 0x1000 0x10 22 with
    | some (m, k) => if k = 0 then some (.bwrMcfg .e m sh) else if k = 4 ∧ !sh then some (.bwrMstat .e m) else none
    | none => match elem o 0x1400 0x10 22 with
      | some (m, k) => if k = 0 then some (.bwrMcfg .w m sh) else if k = 4 ∧ !sh then some (.bwrMstat .w m) else none
      | none => none

def bwrAt (o : Nat) : Option Reg :=
  if 0x8000 ≤ o then bwrStagedAt (o - 0x8000) true
  else match pairAt o 8 0xC .bwrFsum with
    | some r => some r
    | none => if o = 0x10 then some .bwrErr else bwrStagedAt o false

def seqAt (o : Nat) : Option Reg :=
  match elem o 0x100 0x20 128 with
  | some (q, k) =>
    if k = 0 then some (.seqTqBase q) else if k = 8 then some (.seqTqCtl q) else if k = 0xC then some (.seqTqHead q)
    else if k = 0x10 then some (.seqTqTail q) else if k = 0x14 then some (.seqTqStat q) else none
  | none => match elem o 0x2000 0x40 32 with
    | some (p, k) =>
      if k = 0 then some (.seqPartCtl p) else if k = 4 then some (.seqThawCnt p) else if k = 8 then some (.seqCtxBase p)
      else if k = 0x10 then some (.seqCtxCtl p) else if k = 0x14 then some (.seqCtxStat p) else if k = 0x18 then some (.seqCtxUsed p)
      else if k = 0x20 then some (.seqCtxPark p) else none
    | none => match elem o 0x3000 0x10 72 with
      | some (i, k) => if k = 0 then some (.seqWait i) else if k = 8 then some (.seqWaitT0 i) else none
      | none => none

def pptAt (n o : Nat) : Option Reg :=
  if o = 0 then some (.pptCtl n) else if o = 4 then some (.pptStat n) else if o = 8 then some (.pptErr n)
  else if o = 0xC then some (.pptLanemap n) else none

def poolAt (o : Nat) : Option Reg := if o = 0x2000 then some .poolCtl else if o < 0x2000 then pptAt (6 + o / 0x1000) (o % 0x1000) else none

def intAt (o : Nat) : Option Reg :=
  if o = 0 then some .intCtl else if o = 4 then some (.intChk .e) else if o = 8 then some (.intChk .w) else if o = 0xC then some .intCeThr
  else if o = 0x10 then some .intStat else if o = 0x14 then some (.intPass .e) else if o = 0x18 then some (.intPass .w)
  else if o = 0x40 then some .intPrst else if o = 0x44 then some .intPrstStat else if o = 0x80 then some .intInjAddr
  else if o = 0x88 then some .intInjCtl else if o = 0x100 then some .intLogHead else if o = 0x104 then some .intLogTail
  else if o = 0x108 then some .intLogStat else if o = 0x10C then some .intFatalClr
  else match elem o 0x10000 0x200 64 with
    | some (k, b) => if b < 264 then some (.intLog k (b / 4)) else none
    | none => match elem o 0x18000 0x200 4 with
      | some (k, b) => if b < 264 then some (.intFatal k (b / 4)) else none
      | none => none

def tstAt (o : Nat) : Option Reg :=
  if o = 0 then some .tstCtl else if o = 4 then some .tstStat else if o = 8 then some .tstSpares else if o = 0xC then some .tstSwap
  else if o = 0x10 then some .tstCalveCmd else if o = 0x14 then some .tstCalveThr else if o = 0x18 then some .tstUid
  else if o = 0x40 then some .tstPackSa else if o = 0x48 then some .tstPackCmd else if o = 0x4C then some .tstPackStat
  else if o = 0x50 then some .tstPackVer else if o = 0x60 then some .tstPersist else if o = 0x220 then some .tstAgeThr
  else match elem o 0x80 4 6 with
    | some (k, _) => some (.tstCalveStat k)
    | none => match elem o 0x100 4 22 with
      | some (t, _) => some (.tstTgt .e t)
      | none => match elem o 0x180 4 22 with
        | some (t, _) => some (.tstTgt .w t)
        | none => (elem o 0x200 4 8).map fun x => .tstAge x.1

def mgtAt (o : Nat) : Option Reg :=
  if o = 0 then some .mgtUartBaud else if o = 4 then some .mgtUartBaudx else if o = 8 then some .mgtUartFmt
  else if o = 0xC then some .mgtUartStat else if o = 0x10 then some .mgtUartData else if o = 0x20 then some .mgtSvetCtl
  else if o = 0x24 then some .mgtSvetStat else if o = 0x40 then some .mgtAlert else if o = 0x60 then some .mgtSmbCtl
  else if o = 0x64 then some .mgtSmbStat else if o = 0x100 then some .mgtMbCtl else if o = 0x104 then some .mgtMbOutlen
  else if o = 0x108 then some .mgtMbNote
  else match elem o 0x200 4 64 with
    | some (k, _) => some (.mgtMbIn k)
    | none => (elem o 0x300 4 64).map fun x => .mgtMbOut x.1

def cntAt (o : Nat) : Option Reg :=
  if o < 0x1000 then
    if o % 8 ≠ 0 then none else if o < 0x800 then some (.cntVal (o / 8)) else some (.cntSnap ((o - 0x800) / 8))
  else if o = 0x1400 then some .cntCmd else if o = 0x1408 then some .cntSnaptime else if o = 0x1440 then some .cntErr
  else match elem o 0x1000 4 256 with
    | some (n, _) => some (.cntSel n)
    | none => (elem o 0x1420 4 8).map fun x => .cntOvf x.1

/-- The register that begins at an offset (R431, R439); the offset is a multiple of 4. -/
def regStart (off : Nat) : Option Reg :=
  if off < 0x10000 then glbAt off
  else if off < 0x20000 then pwrAt (off - 0x10000)
  else if off < 0x30000 then bootAt (off - 0x20000)
  else if off < 0x40000 then loopAt (off - 0x30000)
  else if off < 0x80000 then partAt (off - 0x40000)
  else if off < 0xA0000 then xltAt (off - 0x80000)
  else if off < 0xC0000 then cchAt (off - 0xA0000)
  else if off < 0xD0000 then bufAt (off - 0xC0000)
  else if off < 0xE0000 then atuAt (off - 0xD0000)
  else if off < 0x100000 then bwrAt (off - 0xE0000)
  else if off < 0x200000 then seqAt (off - 0x100000)
  else if off < 0x260000 then pptAt ((off - 0x200000) / 0x10000) ((off - 0x200000) % 0x10000)
  else if off < 0x280000 then none
  else if off < 0x2C0000 then poolAt (off - 0x280000)
  else if off < 0x300000 then intAt (off - 0x2C0000)
  else if off < 0x340000 then tstAt (off - 0x300000)
  else if off < 0x380000 then mgtAt (off - 0x340000)
  else cntAt (off - 0x380000)

/-- The register that holds the 32-bit word at an offset, and which of its words it is. -/
def regAt (off : Nat) : Option (Reg × Nat) :=
  match regStart off with
  | some r => some (r, 0)
  | none =>
    match (if off % 8 = 4 then regStart (off - 4) else none) with
    | some r => if r.wide then some (r, 1) else none
    | none => none

/-- The two domains that serve the block at an offset, for E and for W; equal for a block of one domain, D0 included (R431). -/
def serving2 (off : Nat) : Nat × Nat :=
  if off < 0x40000 then (0, 0)
  else if off < 0xC0000 then (3, 4)
  else if off < 0xE0000 then (5, 6)
  else if off < 0x100000 then (3, 4)
  else if off < 0x200000 then (1, 2)
  else if off < 0x280000 then (if off < 0x230000 then (7, 7) else (8, 8))
  else if off < 0x2C0000 then (9, 9)
  else if off < 0x2C0100 then (5, 6)
  else (0, 0)

/-- The half a register belongs to, for the pairs of R434. -/
def Reg.half (r : Reg) : Option Half :=
  match r with
  | .partShw h _ => some h
  | .partGtw h _ _ => some h
  | .partQuota h _ _ => some h
  | .partGown h _ => some h
  | .partGt h _ => some h
  | .bufFree h => some h
  | .bufStat h => some h
  | .bufUsed h _ => some h
  | .atuStat h => some h
  | .atuFpstat h => some h
  | .atuDisc h => some h
  | .bwrFsum h => some h
  | .bwrMcfg h _ _ => some h
  | .bwrMstat h _ => some h
  | .intChk h => some h
  | .intPass h => some h
  | _ => none

/-- The block at an offset can be reached (R431). -/
def blockUp (s : State) (off : Nat) : Bool := domOn s (serving2 off).1 || domOn s (serving2 off).2

/-- The register's own half is on (R434). -/
def halfOn (s : State) (off : Nat) (r : Reg) : Bool :=
  match r.half with
  | none => true
  | some h => domOn s (h.pick (serving2 off).1 (serving2 off).2)

/-- A register that partition p may reach in P mode (R428, R438). -/
def Reg.visible (s : State) (p : Nat) (r : Reg) : Bool :=
  let perf (n : Nat) : Bool := (partReg s.cur p).perfUser && (Machine.cntSel s n).partEn && decide ((Machine.cntSel s n).part.toNat = p)
  match r with
  | .glbId | .glbEpoch | .glbEpochDone | .xltInv | .xltInvStat | .bufFree _ => true
  | .bufUsed _ q => q == p
  | .seqPartCtl q => q == p
  | .seqThawCnt q => q == p
  | .seqCtxStat q => q == p
  | .seqCtxUsed q => q == p
  | .seqCtxPark q => q == p
  | .atuOrdDone n => decide ((ord s n).part.toNat = p)
  | .atuOrdStat n => decide ((ord s n).part.toNat = p)
  | .cntVal n => perf n
  | .cntSnap n => perf n
  | _ => false

end Sys2Proof.Machine
end

