-- ==== Sys2Proof/Machine/RegRead.lean ====
section
/-! DEFINITION. Error records as bytes (R342, R343), the alert sources (R418), and what a read of each register returns (R14, R439). -/

namespace Sys2Proof.Machine

/-! ## Records (R342, R343) -/

/-- A GUID of this format in EFI byte order: {4A17C3Ex-0A7C-4C80-8E24-5D19B06F3A21} with its low digit x. -/
def guidNum (x : Nat) : Nat :=
  ofBytes [BitVec.ofNat 8 (0xE0 + x), 0xC3, 0x17, 0x4A, 0x7C, 0x0A, 0x80, 0x4C, 0x8E, 0x24, 0x5D, 0x19, 0xB0, 0x6F, 0x3A, 0x21]

/-- An uppercase hexadecimal digit. -/
def hexDigit (n : Nat) : Byte := BitVec.ofNat 8 (if n < 10 then 0x30 + n else 0x37 + n)

/-- FRU text: AC8-24 SID and two digits. -/
def fruText (sid : BitVec 8) : List Byte :=
  [0x41, 0x43, 0x38, 0x2D, 0x32, 0x34, 0x20, 0x53, 0x49, 0x44, 0x20, hexDigit (sid.toNat / 16), hexDigit (sid.toNat % 16)]

/-- A number placed at a byte of a record. -/
def at8 (o v : Nat) : Nat := v * 2 ^ (8 * o)

/-- An optional field with its valid bit at a position. -/
def optField {w : Nat} (v : Option (BitVec w)) (bit : Nat) : Nat :=
  match v with
  | none => 0
  | some x => x.toNat + 2 ^ bit

/-- The vendor section (R343). -/
def recSection (r : Rec) : Nat :=
  at8 0 0x0A7C + at8 2 0xAC80 + at8 4 0x10 + at8 5 r.sid.toNat + at8 6 1 + at8 8 r.cls.toNat + at8 9 r.source.toNat
    + at8 10 (r.half.idx + 2 * r.die.toNat + 16 * r.codewords.toNat) + at8 11 (optField r.part 7) + at8 12 (optField r.region 15)
    + at8 14 r.row.toNat + at8 16 (optField r.sa 63) + at8 24 r.time.toNat + at8 32 r.sect.toNat + at8 33 r.action.toNat
    + at8 34 r.master.toNat + at8 36 r.expect.toNat + at8 40 r.actual.toNat + at8 44 r.count.toNat + at8 48 r.detail.toNat

/-- The 264 bytes of a record as a number (R342). -/
def recNum (r : Rec) : Nat :=
  at8 0 0x52455043 + at8 4 0x0100 + at8 6 0xFFFFFFFF + at8 10 1 + at8 12 r.sev.toNat + at8 20 264 + at8 64 (guidNum 1)
    + at8 80 (guidNum 2) + at8 96 (r.id.toNat + r.sid.toNat * 2 ^ 56)
    + at8 104 (b2n (decide (r.sev ≠ 1)) + 2 * b2n r.prev + 4 * b2n r.simulated)
    + at8 128 200 + at8 132 64 + at8 136 0x0100 + at8 138 2
    + at8 140 (1 + 4 * b2n (decide (r.cls.toNat = 7 ∨ r.cls.toNat = 9))) + at8 144 (guidNum 0) + at8 176 r.sev.toNat
    + at8 180 (ofBytes (fruText r.sid)) + at8 200 (recSection r)

/-- The record in a slot of a store. -/
def recAt (t : Tab (Option Rec)) (k : Nat) : Option Rec := tget none t k

/-- Word w of a slot; an empty slot reads 0. -/
def recWord (t : Tab (Option Rec)) (k w : Nat) : BitVec 64 :=
  match recAt t k with
  | none => 0
  | some r => BitVec.ofNat 64 (field (recNum r) (32 * w) 32)

/-! ## Alerts (R418) -/

/-- Loop n asserts (R52). -/
def loopAlert (s : State) (n : Nat) : Bool :=
  let l := loopOf s n
  l.frzBrk || l.devFault || ((l.sat || l.miss) && (decide (n < 2) || s.loops.alrtEn.getLsbD n))

/-- MGT_ALERT.SRC. -/
def alertSrc (s : State) : BitVec 16 :=
  let i := s.integ
  let t := s.tst.stat
  pack 16
    [(0, b2n s.sense.warnStat),
     (1, b2n (s.clk.pclkEvt || (List.range 14).any (loopAlert s))),
     (2, b2n (s.tables.errWin || s.tables.errGtw || s.xlt.errRoot || s.xlt.errFqcfg || s.xlt.fq.any fun e => e.2.qerr)),
     (3, b2n (s.seq.tq.any fun e => e.2.fetchErr)),
     (4, b2n (s.cch.dirErr != 0 || s.links.port.any fun e => e.2.downEvt)),
     (5, b2n (s.bwr.errFsum || s.bwr.errMiss || s.bwr.errCfg || s.atu.ordcfg)),
     (6, b2n (i.ue || i.metaLoss || i.crc || i.tag || i.shelf)),
     (7, b2n (bit t 0 || bit t 3 || bit t 4 || bit t 5 || bit t 6)),
     (8, b2n (s.boot.phase == .strapError || s.boot.phase == .recovery)),
     (9, b2n s.mgt.outFull)]

/-- ALERT_N and SMB_ALERT_N are asserted. -/
def alertOn (s : State) : Bool := alertSrc s != 0

/-! ## Values -/

/-- GLB_STRAP (R33). -/
def strapReg (s : State) : BitVec 32 :=
  pack 32 [(0, s.glb.sidStrap.toNat), (8, s.glb.bootSel.toNat), (16, s.glb.sid.toNat), (24, b2n s.glb.sidOvr)]

def glbIdReg : BitVec 32 := 0xAC810A7C

/-- PWR_RST_STAT (R381). -/
def rstStatReg (s : State) : BitVec 32 :=
  pack 32 [(0, s.pwr.cause.toNat), (4, b2n s.pwr.fatal), (5, b2n s.pwr.tripStat), (6, s.pwr.fcnt.toNat), (16, s.pwr.resets.toNat)]

/-- PWR_DOM_STAT (R383). -/
def domStatReg (s : State) : BitVec 32 := pack 32 ((List.range 16).map fun d => (d, b2n (domOn s d)))

/-- A sensor has a valid result; a domain that is being switched off is still on (R40, R42 edges). -/
def sensorValid (s : State) (n : Nat) : Bool := domRuns s (sensorDom n) && tget false s.sense.valid n

def tsensReg (s : State) (n : Nat) : BitVec 32 :=
  if sensorValid s n then pack 32 [(0, (tget 0 s.sense.temp n).toNat), (31, 1)] else 0

def winReg (w : Win) : BitVec 32 := pack 32 [(0, w.base.toNat), (16, w.log2.toNat)]

/-- The staged values at an address: in force, or the shadow (R93). -/
def stagedView (s : State) (sh : Bool) : Staged := if sh then s.shadow else s.cur

def partCtlReg (s : State) (p : Nat) (sh : Bool) : BitVec 32 :=
  let q := partReg (stagedView s sh) p
  pack 32 [(0, b2n (q.en || p == 0)), (1, b2n q.gmode), (2, b2n q.cacheEn), (3, b2n q.prefDis), (4, b2n q.contain), (5, b2n q.perfUser),
           (6, b2n (tget false s.tables.staleRisk p)), (8, q.ports.toNat)]

def fwctlReg (f : FarWin) : BitVec 32 :=
  pack 32 [(0, b2n f.v), (1, b2n f.r), (2, b2n f.w), (3, b2n f.a), (6, f.log2.toNat)]

def homeNum (e : HomeEnt) : Nat := e.slice.toNat + 256 * e.half.idx + 32768 * b2n e.valid
def gtNum (e : GtEnt) : Nat := e.group.toNat + 32768 * b2n e.valid

def regionReg (s : State) (r : Nat) : BitVec 32 :=
  let g := region s r
  -- a die being switched off keeps its regions' states visible until it is off (R385 step 4)
  let st : BitVec 2 := match s.pwr.cmd with
    | none => g.state
    | some c => if c.on then g.state else match c.regions.find? fun e => e.1 == r with
      | some e => e.2
      | none => g.state
  pack 32 [(0, st.toNat), (2, b2n g.busy), (3, b2n g.retired)]

/-- State and owner of a block for BUF_QRES (R157, R173). -/
def qresReg (s : State) (b : Nat) : BitVec 32 :=
  let g := region s (b / 1024)
  if 393216 ≤ b ∨ g.state ≠ 2 ∨ g.busy then 0
  else
    let x := blk s b
    pack 32 [(0, if x.st = 3 then x.owner.toNat else 0), (5, x.st.toNat)]

def mcfgReg (c : MCfg) : BitVec 32 := pack 32 [(0, c.floor.toNat), (16, c.ceil.toNat), (30, c.prio.toNat)]

/-- Sum of the floors of a half (R304). -/
def floorSum (v : Staged) (h : Half) : Nat := ((List.range 22).map fun m => (mcfg v h m).floor.toNat).sum

def tqCtlReg (x : TaskQ) : BitVec 32 :=
  pack 32 [(0, b2n x.en), (1, x.part.toNat), (6, x.prio.toNat), (8, x.half.idx), (9, x.log2n.toNat)]

/-- A thread without a wait of its own pauses for its core's self-test step or repair: a wait in hardware (R350, R357, R358). -/
def pauses (s : State) (i : Nat) : Bool :=
  (thr s i).phase == .running && (corePaused s (thrCore i) || (logicalCore s (thrCore i)).isNone)

/-- SEQ_WAIT[i] (R244). -/
def waitReg (s : State) (i : Nat) : BitVec 64 :=
  let th := thr s i
  match th.wait with
  | none => if pauses s i then pack 64 [(0, 6), (6, th.part.toNat)] else 0
  | some w => pack 64 [(0, w.kind.toNat), (3, w.tok.toNat), (6, th.part.toNat), (12, w.sa.toNat)]

def waitT0Reg (s : State) (i : Nat) : BitVec 64 :=
  let k := thrCore i
  match (thr s i).wait with
  | none => if pauses s i then (tgt s (coreHalf k) (coreInHalf k)).began else 0
  | some w => w.start

/-- TST_SPARES (R371): before boot has loaded the targets it reads 0. -/
def sparesReg (s : State) : BitVec 32 :=
  let any (h : Half) (lo n : Nat) : Nat := b2n ((List.range n).any fun i => isSpare (tgt s h (lo + i)))
  if s.tst.tgt.any fun e => e.2.state != 0 then
    pack 32 ([(0, any .e 0 9), (1, any .w 0 9), (2, any .e 9 9), (3, any .w 9 9), (4, any .e 18 2), (5, any .w 18 2),
              (6, b2n s.rep.linkSpare.isNone)]
             ++ (List.range 6).map fun k => (8 + 2 * k, 2 - b2n (tget false s.tst.spareUsed (2 * k)) - b2n (tget false s.tst.spareUsed (2 * k + 1))))
  else 0

def baudReg (div : BitVec 12) (osr : BitVec 2) : BitVec 32 := pack 32 [(0, div.toNat), (12, osr.toNat)]
def fmtReg (c : UartCfg) : BitVec 32 :=
  pack 32 [(0, c.data.toNat), (4, c.parity.toNat), (7, c.stop.toNat), (9, b2n c.fc), (10, b2n c.raw)]

def uartStatReg (u : Uart) : BitVec 32 :=
  pack 32 [(0, b2n u.idle), (1, b2n u.fe), (2, b2n u.pe), (3, b2n u.ovr), (4, b2n u.brk), (5, b2n (u.act.raw && !u.rx.isEmpty)),
           (6, b2n (decide (64 ≤ u.tx.length))), (16, u.errs.toNat)]

/-- A read of MGT_UART_DATA: removes a character in RAW mode (R407). -/
def uartPop (s : State) : BitVec 32 × State :=
  if !s.uart.act.raw then (0, s)
  else
    match s.uart.rx with
    | [] => (0, s)
    | c :: rest => (pack 32 [(0, c.ch.toNat), (9, b2n c.pe), (10, b2n c.fe), (15, 1)], s.onUart fun u => { u with rx := rest })

def mbCtlReg (m : Mgt) : BitVec 32 :=
  pack 32 [(0, m.inLen.toNat), (9, b2n m.inFull), (16, m.outLen.toNat), (25, b2n m.outFull), (26, b2n m.noteErr), (27, b2n m.outRef)]

/-- Word k of a mailbox buffer. -/
def mbWord (t : Tab Byte) (k : Nat) : BitVec 32 := BitVec.ofNat 32 (ofBytes (tbytes 0 t (4 * k) 4))

def cntSelReg (c : CntSel) : BitVec 32 :=
  pack 32 [(0, c.event.toNat), (10, c.half.toNat), (12, c.part.toNat), (17, b2n c.partEn), (18, b2n c.chain)]

/-- The half whose engine works on a command (R148): both, or the one that a REGROUP command names. -/
def plowIn (c : PlowCmd) (h : Half) : Bool :=
  if c.op.toNat ≤ 5 then true
  else if c.op.toNat = opRegion then regionHalf c.arg0.toNat == h else c.half == h

/-- A half's plow engine works from the start of a command until its end (R154; log entry 130). -/
def plowBusy (s : State) (h : Half) : Bool :=
  match s.cch.plow with
  | [] => false
  | c :: _ => c.started && c.code == 0 && plowIn c h && domRuns s (h.pick 3 4)

def plowStatReg (s : State) : BitVec 32 :=
  pack 32 [(0, b2n (!s.cch.plow.isEmpty)), (1, b2n (plowBusy s .e)), (2, b2n (plowBusy s .w)), (3, b2n s.cch.qfull), (4, b2n s.cch.cmderr),
           (9, s.cch.plow.length)]

def portStatReg (p : Port) : BitVec 32 :=
  pack 32 [(0, p.state.toNat), (3, b2n p.degraded), (4, p.spares.toNat), (6, b2n p.upEvt), (7, b2n p.downEvt)]

def loopValReg (s : State) (n off : Nat) : BitVec 32 :=
  let l := loopOf s n
  if off = 0 then pack 32 [(0, b2n l.en), (8, if n < 2 then l.hyst.toNat else 0)]
  else if off = 4 then l.target.setWidth 32
  else if off = 8 then pack 32 [(0, l.lo.toNat), (16, l.hi.toNat)]
  else if off = 12 then pack 32 [(0, l.value.toNat), (16, if loopInput s n then l.measure.toNat else 0)]
  else pack 32 [(0, b2n l.atLo), (1, b2n l.atHi), (2, b2n l.sat), (3, b2n l.miss), (4, b2n l.cfgErr), (5, b2n l.frzBrk),
                (6, b2n l.devFault)]

/-! ## Reading (R14) -/

/-- What a register returns, without the effect of a read. 32-bit registers stand in the low word. -/
def readVal (r : Reg) (part : Part) (s : State) : BitVec 64 :=
  let w (v : BitVec 32) : BitVec 64 := v.setWidth 64
  match r with
  | .glbId => w glbIdReg
  | .glbStrap => w (strapReg s)
  | .glbEpoch => w s.glb.epoch
  | .glbEpochDone => w s.glb.epochDone
  | .glbEpochCmd => 0
  | .glbEpochStat => w (pack 32 [(0, b2n s.glb.pending), (1, b2n s.glb.doneEvt), (2, b2n s.glb.refused), (3, b2n s.glb.noteErr),
                                 (4, s.glb.reason.toNat)])
  | .glbEpochLag => s.glb.lag.setWidth 64
  | .glbEpochNote => pack 64 [(3, s.glb.note.toNat)]
  | .pwrRstStat => w (rstStatReg s)
  | .pwrRstCmd => 0
  | .pwrDomCmd => 0
  | .pwrDomRes => w (pack 32 [(0, s.pwr.resDom.toNat), (4, s.pwr.resCode.toNat), (8, b2n s.pwr.cmd.isSome), (9, b2n s.pwr.resDone)])
  | .pwrDomStat => w (domStatReg s)
  | .pwrDisc => w s.pwr.disc
  | .pwrUnitCmd => 0
  | .pwrUnitRes => w (pack 32 [(0, s.pwr.unitCode.toNat), (2, s.pwr.unitUnit.toNat), (8, b2n s.pwr.unitDone)])
  | .pwrDom d => w (unitWord s d)
  | .pwrUnit u => w (unitWord s u)
  | .pwrTsens n => w (tsensReg s n)
  | .pwrTwarn => w (pack 32 [(0, s.sense.warn.toNat), (16, b2n s.sense.warnStat)])
  | .bootStat => w (Machine.bootStat s)
  | .bootSeq => w s.boot.seq
  | .bootStart => s.boot.start
  | .bootKeyhash k => s.boot.keyhash.extractLsb' (64 * k) 64
  | .bootKeyctl => BitVec.ofNat 64 (b2n s.boot.keyset)
  | .bootFlash => w (pack 32 [(0, s.boot.eraseLog2.toNat), (8, s.boot.pageLog2.toNat)])
  | .loopFrz => s.loops.frz.setWidth 64
  | .loopAlrtEn => s.loops.alrtEn.setWidth 64
  | .loopTime => s.clk.time
  | .loopClkStat => w (pack 32 [(0, b2n s.clk.pllLock), (1, b2n s.clk.pllLock), (2, b2n (!s.clk.pllLock)), (3, b2n s.clk.pclkEvt),
                                (4, b2n s.clk.xtalFail)])
  | .loopReg n off => w (loopValReg s n off)
  | .partHomecfg sh => BitVec.ofNat 64 (b2n (stagedView s sh).tabEn)
  | .partShw h sh => w (winReg (commonWin (stagedView s sh) h))
  | .partErr => BitVec.ofNat 64 (b2n s.tables.errWin + 2 * b2n s.tables.errGtw)
  | .partCtl p sh => w (partCtlReg s p sh)
  | .partGtw h p sh => w (winReg (partWin (stagedView s sh) h p))
  | .partQuota h p sh => (h.pick (partReg (stagedView s sh) p).quotaE (partReg (stagedView s sh) p).quotaW).setWidth 64
  | .partFwbase p k sh => pack 64 [(12, (tget FarWin.zero (partReg (stagedView s sh) p).fw k).base.toNat)]
  | .partFwctl p k sh => w (fwctlReg (tget FarWin.zero (partReg (stagedView s sh) p).fw k))
  | .partRegion r => w (regionReg s r)
  | .partHome k sh =>
    let e (i : Nat) : Nat := homeNum (tget HomeEnt.zero (stagedView s sh).home (2 * k + i))
    BitVec.ofNat 64 (e 0 + 65536 * e 1)
  | .partGown h k =>
    let e (i : Nat) : Nat := (gown s h (4 * k + i)).toNat
    BitVec.ofNat 64 (e 0 + 256 * e 1 + 65536 * e 2 + 16777216 * e 3)
  | .partGt h k => BitVec.ofNat 64 (gtNum (gtEnt s h (2 * k)) + 65536 * gtNum (gtEnt s h (2 * k + 1)))
  | .xltInv => 0
  | .xltInvStat => BitVec.ofNat 64 (b2n s.xlt.inv.isSome + 2 * b2n (s.xlt.ref.getLsbD part.toNat))
  | .xltErr => BitVec.ofNat 64 (b2n s.xlt.errRoot + 2 * b2n s.xlt.errInvBusy + 4 * b2n s.xlt.errFqcfg + 8 * b2n s.xlt.errHead)
  | .xltRoot p sh =>
    let q := partReg (stagedView s sh) p
    pack 64 [(0, b2n q.rootEn), (12, q.root.toNat)]
  | .xltFqBase p => pack 64 [(12, (faultQ s p).base.toNat)]
  | .xltFqCtl p => pack 64 [(0, b2n (faultQ s p).en), (4, (faultQ s p).log2n.toNat)]
  | .xltFqHead p => w (faultQ s p).head
  | .xltFqTail p => w (faultQ s p).tail
  | .xltFqStat p =>
    let q := faultQ s p
    pack 64 [(0, q.lost.toNat), (16, b2n q.qerr), (17, b2n (q.tail != q.head))]
  | .cchCtl => BitVec.ofNat 64 (b2n s.cch.offerEn)
  | .cchPlowCmd => 0
  | .cchPlowArg k => if k = 0 then s.cch.arg0 else s.cch.arg1
  | .cchPlowStat => w (plowStatReg s)
  | .cchPlowIssued => w s.cch.issued
  | .cchPlowDone => w s.cch.done
  | .cchPlowLasterr => pack 64 [(0, s.cch.errCode.toNat), (4, s.cch.errSeq.toNat)]
  | .cchDirCtl => s.cch.invTmo.setWidth 64
  | .cchDirStat => s.cch.clrBusy.setWidth 64
  | .cchDirErr => s.cch.dirErr.setWidth 64
  | .bufFree h => BitVec.ofNat 64 (freeCount s h)
  | .bufStat h => pack 64 [(0, (waitQ s h).length), (7, b2n (relBusy s h)), (8, (h.pick s.buf.wqFullE s.buf.wqFullW).toNat)]
  | .bufQuery => s.buf.query.setWidth 64
  | .bufQres => w (qresReg s s.buf.query.toNat)
  | .bufRelease => 0
  | .bufErr => BitVec.ofNat 64 (b2n s.buf.errRel)
  | .bufUsed h p => (used s h (BitVec.ofNat 5 p)).setWidth 64
  | .bufRgnCtl r => pack 64 [(0, b2n (tget false s.buf.drain r)), (16, if (region s r).state = 2 ∧ !(region s r).busy then (blocksIn s r 4).length else 0)]
  | .atuStat h => pack 64 [(0, (atuHalf s h).queue.length), (9, (atuHalf s h).held.length)]
  | .atuFpstat h =>
    let x := atuHalf s h
    BitVec.ofNat 64 (b2n x.nv + 2 * b2n x.of + 4 * b2n x.uf + 8 * b2n x.nx)
  | .atuDisc h => pack 64 [(0, (atuHalf s h).discPoison.toNat), (16, (atuHalf s h).discReset.toNat)]
  | .atuErr => BitVec.ofNat 64 (b2n s.atu.ordcfg)
  | .atuOrdBase n => pack 64 [(7, (ord s n).base.toNat)]
  | .atuOrdCtl n =>
    let o := ord s n
    pack 64 [(0, b2n o.en), (1, o.part.toNat), (8, o.nl.toNat), (16, o.k.toNat)]
  | .atuOrdDone n => w (ord s n).done
  | .atuOrdStat n => pack 64 [(0, (ord s n).homed.toNat), (9, b2n (ord s n).err), (10, b2n (ord s n).tmo)]
  | .bwrCtl sh => BitVec.ofNat 64 (b2n (stagedView s sh).bwrEn)
  | .bwrFsum h => pack 64 [(0, floorSum s.cur h), (16, floorSum s.shadow h)]
  | .bwrErr => BitVec.ofNat 64 (b2n s.bwr.errFsum + 2 * b2n s.bwr.errMiss + 4 * b2n s.bwr.errCfg)
  | .bwrMcfg h m sh => w (mcfgReg (mcfg (stagedView s sh) h m))
  | .bwrMstat h m => pack 64 [(0, (mstat s h m).last.toNat), (14, b2n (mstat s h m).floorMiss), (15, b2n (mstat s h m).demoted)]
  | .seqTqBase q => pack 64 [(12, (tq s q).base.toNat)]
  | .seqTqCtl q => w (tqCtlReg (tq s q))
  | .seqTqHead q => w (tq s q).head
  | .seqTqTail q => w (tq s q).tail
  | .seqTqStat q => pack 64 [(0, b2n (tq s q).dbErr), (1, b2n (tq s q).cfg), (2, b2n (tq s q).fetchErr), (16, (tq s q).doneLost.toNat)]
  | .seqPartCtl p => (spReg s p).thaw.setWidth 64
  | .seqThawCnt p => w (spReg s p).thawCnt
  | .seqCtxBase p => pack 64 [(12, (spReg s p).ctxBase.toNat)]
  | .seqCtxCtl p => (spReg s p).ctxLog2n.setWidth 64
  | .seqCtxStat p =>
    let x := spReg s p
    pack 64 [(0, b2n x.badcmd), (1, b2n x.werr), (2, b2n x.noslot), (3, b2n x.cfg), (16, x.preempts.toNat)]
  | .seqCtxUsed p => (spReg s p).used
  | .seqCtxPark p => (spReg s p).park
  | .seqWait i => waitReg s i
  | .seqWaitT0 i => waitT0Reg s i
  | .pptCtl n => BitVec.ofNat 64 (b2n (port s n).en)
  | .pptStat n => w (portStatReg (port s n))
  | .pptErr n => BitVec.ofNat 64 (b2n (port s n).spareFail + 2 * b2n (port s n).cfgErr + 4 * b2n (port s n).badframe)
  | .pptLanemap n => pack 64 [(0, (port s n).sub16.toNat), (5, (port s n).sub17.toNat)]
  | .poolCtl => BitVec.ofNat 64 (b2n s.links.split)
  | .intCtl => BitVec.ofNat 64 (b2n s.integ.patrolEn + 2 * b2n s.integ.lcrcChk)
  | .intChk h => (h.pick s.integ.budgetE s.integ.budgetW).setWidth 64
  | .intCeThr => s.integ.ceThr.setWidth 64
  | .intStat =>
    let i := s.integ
    BitVec.ofNat 64 (b2n i.ue + 2 * b2n i.metaLoss + 4 * b2n i.crc + 8 * b2n i.tag + 16 * b2n i.shelf)
  | .intPass h => w (h.pick s.integ.passE s.integ.passW)
  | .intPrst => 0
  | .intPrstStat =>
    pack 64 [(0, b2n (!s.integ.prst.isEmpty)), (1, s.integ.prstPart.toNat), (6, s.integ.prstCause.toNat), (8, b2n s.integ.prstRefused),
             (16, s.integ.prstDisc.toNat)]
  | .intInjAddr => pack 64 [(7, s.integ.injAddr.toNat)]
  | .intInjCtl => pack 64 [(0, s.integ.injSector.toNat), (2, s.integ.injKind.toNat), (4, b2n s.integ.injArm)]
  | .intLogHead => w s.log.head
  | .intLogTail => w s.log.tail
  | .intLogStat => pack 64 [(0, s.log.lost.toNat), (16, b2n (s.log.tail != s.log.head)), (17, b2n s.log.headErr)]
  | .intFatalClr => pack 64 ((List.range 4).map fun k => (k, b2n (recAt s.log.fatal k).isSome))
  | .intLog k i => recWord s.log.ring k i
  | .intFatal k i => recWord s.log.fatal k i
  | .tstCtl => BitVec.ofNat 64 (b2n s.tst.en + 2 * b2n s.tst.autoCalve + 4 * b2n s.tst.retireEn + 8 * b2n s.tst.persistEn)
  | .tstStat => s.tst.stat.setWidth 64
  | .tstSpares => w (sparesReg s)
  | .tstSwap => 0
  | .tstCalveCmd => 0
  | .tstCalveThr => pack 64 [(0, s.tst.thrCe.toNat), (16, s.tst.thrUe.toNat)]
  | .tstUid => s.tst.uid
  | .tstPackSa => pack 64 [(6, s.tst.packSa.toNat)]
  | .tstPackCmd => 0
  | .tstPackStat => pack 64 [(0, b2n s.tst.packBusy), (1, s.tst.packResult.toNat)]
  | .tstPackVer => w s.tst.pack.ver
  | .tstPersist => pack 64 [(0, s.tst.queue.length), (8, s.tst.written.toNat)]
  | .tstCalveStat k =>
    let c := calve s k
    pack 64 [(0, c.phase.toNat), (2, c.bank.toNat), (8, c.rows.toNat), (26, b2n c.abort)]
  | .tstTgt h t => pack 64 [(0, (tgt s h t).state.toNat), (2, (tgt s h t).next.toNat), (8, (tgt s h t).trans.toNat)]
  | .tstAge n => (tget 0 s.tst.degr n).setWidth 64
  | .tstAgeThr => s.tst.ageThr.setWidth 64
  | .mgtUartBaud => w (baudReg s.uart.cfg.div s.uart.cfg.osr)
  | .mgtUartBaudx => w (baudReg s.uart.cfg.divX s.uart.cfg.osrX)
  | .mgtUartFmt => w (fmtReg s.uart.cfg)
  | .mgtUartStat => w (uartStatReg s.uart)
  | .mgtUartData => w (uartPop s).1
  | .mgtSvetCtl => BitVec.ofNat 64 (b2n s.mgt.lock + 2 * b2n s.mgt.echo + 4 * b2n s.mgt.bin)
  | .mgtSvetStat => pack 64 [(0, s.mgt.badframe.toNat), (16, s.mgt.cmds.toNat)]
  | .mgtAlert => (alertSrc s).setWidth 64
  | .mgtSmbCtl => pack 64 [(0, s.mgt.smbAddr.toNat), (7, b2n s.mgt.smbEn)]
  | .mgtSmbStat => pack 64 [(0, s.mgt.pecErr.toNat), (16, b2n s.mgt.mbref)]
  | .mgtMbCtl => w (mbCtlReg s.mgt)
  | .mgtMbOutlen => 0
  | .mgtMbNote => pack 64 [(3, s.mgt.note.toNat)]
  | .mgtMbIn k => w (mbWord s.mbox.inb k)
  | .mgtMbOut k => w (mbWord s.mbox.outb k)
  | .cntVal n => (Machine.cntVal s n).setWidth 64
  | .cntSnap n => (tget 0 s.cnt.snap n).setWidth 64
  | .cntSel n => w (cntSelReg (Machine.cntSel s n))
  | .cntCmd => 0
  | .cntSnaptime => s.cnt.snapTime
  | .cntOvf k => (s.cnt.ovf.extractLsb' (32 * k) 32).setWidth 64
  | .cntErr => BitVec.ofNat 64 (b2n s.cnt.errSel)

/-- The effect of a read: the fields of code RC clear (R14), and MGT_UART_DATA loses its character. -/
def readEffect (r : Reg) (s : State) : State :=
  match r with
  | .pwrDisc => s.onPwr fun p => { p with disc := 0 }
  | .xltFqStat p => setFaultQ s p { faultQ s p with lost := 0 }
  | .bufStat h => s.onBuf fun b => match h with
    | .e => { b with wqFullE := 0 }
    | .w => { b with wqFullW := 0 }
  | .atuDisc h => setAtuHalf s h { atuHalf s h with discPoison := 0, discReset := 0 }
  | .seqTqStat q => setTq q { tq s q with doneLost := 0 } s
  | .seqCtxStat p => modSp s p fun x => { x with preempts := 0 }
  | .intPrstStat => s.onInteg fun i => { i with prstDisc := 0 }
  | .intLogStat => s.onLog fun l => { l with lost := 0 }
  | .mgtUartStat => s.onUart fun u => { u with errs := 0 }
  | .mgtUartData => (uartPop s).2
  | .mgtSvetStat => s.onMgt fun m => { m with badframe := 0, cmds := 0 }
  | .mgtSmbStat => s.onMgt fun m => { m with pecErr := 0 }
  | _ => s

end Sys2Proof.Machine
end

