-- ==== Sys2Proof/Machine/RegWrite.lean ====
section
/-! DEFINITION. What a write of each register does (R14, R439), and the control-window access as a whole: address, rights,
availability (R431 to R434, R437, R438). -/

namespace Sys2Proof.Machine

/-! ## Staged registers (R88, R90, R304) -/

/-- Write 1 to clear: bit i of v clears b. -/
def w1c {n : Nat} (b : Bool) (v : BitVec n) (i : Nat) : Bool := b && !bit v i

/-- The shadow with partition p's registers changed. -/
def shadowPart (s : State) (p : Nat) (f : PartReg → PartReg) : Staged :=
  { s.shadow with part := tmod PartReg.zero s.shadow.part p f }

def setErrWin (s : State) : State := s.onTables fun t => { t with errWin := true }
def setErrGtw (s : State) : State := s.onTables fun t => { t with errGtw := true }

/-- A window register's value (R86). -/
def winOf32 (v : BitVec 32) : Win := { base := v.extractLsb' 0 13, log2 := v.extractLsb' 16 4 }

/-- A write of a group-table window: w is what it holds, v the shadow after it (R88). -/
def writeWin (w : Win) (v : Staged) (s : State) : State :=
  if !winOk w || winsOverlap v .e || winsOverlap v .w then setErrGtw s else { s with shadow := v }

/-- The valid FAR windows of partition p in v. -/
def farWins (v : Staged) (p : Nat) : List FarWin := (((partReg v p).fw).map fun e => e.2).filter fun f => f.v

/-- Two FAR windows share an address. -/
def farMeet (a b : FarWin) : Bool :=
  decide (a.base.toNat * 4096 < b.base.toNat * 4096 + 2 ^ b.log2.toNat ∧ b.base.toNat * 4096 < a.base.toNat * 4096 + 2 ^ a.log2.toNat)

/-- Partition p counts as tenant-sliced: GMODE in force or in the shadow (R90). -/
def farTenant (s : State) (v : Staged) (p : Nat) : Bool := (partReg s.cur p).gmode || (partReg v p).gmode

/-- Window f of p would break R90 against another partition's windows, in force or staged. -/
def farClash (s : State) (v : Staged) (p : Nat) (f : FarWin) : Bool :=
  (List.range 32).any fun q => q != p && (farTenant s v p || farTenant s v q) && (farWins s.cur q ++ farWins v q).any (farMeet f)

/-- LOG2SIZE and alignment of a valid FAR window (R90). -/
def farShapeOk (f : FarWin) : Bool :=
  decide (12 ≤ f.log2.toNat ∧ f.log2.toNat ≤ 51) && decide (f.base.toNat * 4096 % 2 ^ f.log2.toNat = 0)

/-- A write that leaves FAR window k of p as f. -/
def writeFar (p k : Nat) (f : FarWin) (s : State) : State :=
  let v := shadowPart s p fun q => { q with fw := tset FarWin.zero q.fw k f }
  if f.v && (!farShapeOk f || farClash s v p f) then setErrWin s else { s with shadow := v }

/-- A write of PART_CTL's shadow (R88 to R90). -/
def writePartCtl (p : Nat) (x : BitVec 32) (s : State) : State :=
  let v := shadowPart s p fun q =>
    { q with en := bit x 0 || p == 0, gmode := bit x 1, cacheEn := bit x 2, prefDis := bit x 3, contain := bit x 4, perfUser := bit x 5,
             ports := x.extractLsb' 8 6 }
  let win : Bool := bit x 1 && (farWins s.cur p ++ farWins v p).any (farClash s v p)
  let gtw : Bool := (partReg s.shadow p).gmode != bit x 1 && (winsOverlap v .e || winsOverlap v .w)
  if win || gtw then
    let s := if win then setErrWin s else s
    if gtw then setErrGtw s else s
  else { s with shadow := v }

/-- A write of a bandwidth setting's shadow (R304). -/
def writeMcfg (h : Half) (m : Nat) (x : BitVec 32) (s : State) : State :=
  let c : MCfg := { floor := x.extractLsb' 0 14, ceil := x.extractLsb' 16 14, prio := x.extractLsb' 30 2 }
  let v := { s.shadow with mcfg := tset MCfg.zero s.shadow.mcfg (22 * h.idx + m) c }
  let fsum : Bool := decide (8000 < floorSum v h)
  let cfg : Bool := decide (c.ceil.toNat < c.floor.toNat)
  if fsum || cfg then s.onBwr fun b => { b with errFsum := b.errFsum || fsum, errCfg := b.errCfg || cfg }
  else { s with shadow := v }

/-- A home-table entry's value (R78). -/
def homeEntOf (x : BitVec 16) : HomeEnt := { slice := x.extractLsb' 0 8, half := Half.ofBool (bit x 8), valid := bit x 15 }

/-- Entry k of the shadow home table. -/
def setHome (k : Nat) (x : BitVec 16) (s : State) : State :=
  s.onShadow fun v => { v with home := tset HomeEnt.zero v.home k (homeEntOf x) }

/-! ## Management registers -/

/-- New UART settings take effect once the transmit FIFO is empty (R406). -/
def uartTake (u : Uart) : Uart := if u.tx.isEmpty then { u with act := u.cfg } else u

def uartCfg (f : UartCfg → UartCfg) (s : State) : State := s.onUart fun u => uartTake { u with cfg := f u.cfg }

/-- A write of MGT_UART_DATA queues a character, in RAW mode and with room (R407). -/
def uartPush (c : BitVec 9) (s : State) : State :=
  if s.uart.act.raw ∧ s.uart.tx.length < 64 then s.onUart fun u => { u with tx := u.tx ++ [c] } else s

/-- A write of MGT_MB_OUTLEN: 1 to 256, and not while OUT_FULL is 1 (R415, R419). -/
def mbOutLen (n : BitVec 9) (s : State) : State :=
  s.onMgt fun m =>
    if m.outFull ∨ n = 0 ∨ 256 < n.toNat then { m with outRef := true } else { m with outLen := n, outFull := true }

/-- A write of MGT_MB_OUT (R415). -/
def mbOutWrite (k : Nat) (x : BitVec 32) (s : State) : State :=
  if s.mgt.outFull then s.onMgt fun m => { m with outRef := true }
  else s.onMbox fun b => { b with outb := tputBytes 0 b.outb (4 * k) (toBytes 4 x.toNat) }

/-- A write of INT_LOG_HEAD: whether it was taken (R345). -/
def logHead (v : BitVec 32) (s : State) : Bool × State :=
  if headOk s.log.head s.log.tail v then (true, s.onLog fun l => { l with head := v })
  else (false, s.onLog fun l => { l with headErr := true })

/-- Fatal slots freed by INT_FATAL_CLR. -/
def fatalClr (v : BitVec 32) (s : State) : State :=
  s.onLog fun l => { l with fatal := l.fatal.filter fun e => !bit v e.1 }

/-- A write of PPT_CTL (R300). -/
def writePpt (n : Nat) (v : BitVec 32) (s : State) : State :=
  let s := if bit v 0 ≠ (port s n).en then setPortEn n (bit v 0) s else s
  let s := if bit v 1 then enterRecal n s else s
  let s := if bit v 2 then forceDown n s else s
  if bit v 3 then requestSpare n (v.extractLsb' 4 5) s else s

/-! ## The write of one register -/

/-- The effect of a write on a 32-bit register. -/
def write32 (r : Reg) (v : BitVec 32) (s : State) : State :=
  match r with
  | .glbEpochCmd => if bit v 0 then (epochAdvance s).2 else s
  | .glbEpochStat => s.onGlb fun g => { g with doneEvt := w1c g.doneEvt v 1, refused := w1c g.refused v 2, noteErr := w1c g.noteErr v 3 }
  | .pwrRstStat => s.onPwr fun p =>
      { p with fatal := w1c p.fatal v 4, fcnt := if bit v 4 then 0 else p.fcnt, tripStat := w1c p.tripStat v 5 }
  | .pwrRstCmd => rstCmd v s
  | .pwrDomCmd => domCmd (v.toNat % 16) (bit v 4) (bit v 5) (v.extractLsb' 16 16) s
  | .pwrDomRes => s.onPwr fun p => { p with resDone := w1c p.resDone v 9 }
  | .pwrUnitCmd => unitCmd (v.toNat % 64) (field v.toNat 8 2) (v.extractLsb' 16 16) s
  | .pwrUnitRes => s.onPwr fun p => { p with unitDone := w1c p.unitDone v 8 }
  | .pwrTwarn => s.onSense fun x => { x with warn := v.extractLsb' 0 12, warnStat := w1c x.warnStat v 16 }
  | .loopFrz => s.onLoops fun l => { l with frz := v.extractLsb' 0 14 }
  | .loopAlrtEn => s.onLoops fun l => { l with alrtEn := v.extractLsb' 0 14 }
  | .loopClkStat => s.onClk fun c => { c with pclkEvt := w1c c.pclkEvt v 3, xtalFail := w1c c.xtalFail v 4 }
  | .loopReg n off => if off = 16 then loopStatWrite n v s else loopWrite n off v s
  | .partHomecfg _ => s.onShadow fun x => { x with tabEn := bit v 0 }
  | .partShw h _ =>
    let w := winOf32 v
    writeWin w (h.pick { s.shadow with shwE := w } { s.shadow with shwW := w }) s
  | .partErr => s.onTables fun t => { t with errWin := w1c t.errWin v 0, errGtw := w1c t.errGtw v 1 }
  | .partCtl p _ => writePartCtl p v s
  | .partGtw h p _ =>
    let w := winOf32 v
    writeWin w (shadowPart s p fun q => h.pick { q with gtwE := w } { q with gtwW := w }) s
  | .partQuota h p _ =>
    { s with shadow := shadowPart s p fun q => h.pick { q with quotaE := v.extractLsb' 0 20 } { q with quotaW := v.extractLsb' 0 20 } }
  | .partFwctl p k _ =>
    writeFar p k { tget FarWin.zero (partReg s.shadow p).fw k with
                   v := bit v 0, r := bit v 1, w := bit v 2, a := bit v 3, log2 := v.extractLsb' 6 6 } s
  | .partHome k _ => setHome (2 * k + 1) (v.extractLsb' 16 16) (setHome (2 * k) (v.extractLsb' 0 16) s)
  | .xltErr => s.onXlt fun x => { x with errRoot := w1c x.errRoot v 0, errInvBusy := w1c x.errInvBusy v 1,
                                         errFqcfg := w1c x.errFqcfg v 2, errHead := w1c x.errHead v 3 }
  | .xltFqCtl p => writeFq p (bit v 0) (faultQ s p).base (v.extractLsb' 4 4) s
  | .xltFqHead p => writeFqHead p v s
  | .xltFqStat p => setFaultQ s p { faultQ s p with qerr := w1c (faultQ s p).qerr v 16 }
  | .cchCtl => s.onCch fun c => { c with offerEn := bit v 0 }
  | .cchPlowCmd => plowReg (v.toNat % 16) (v.extractLsb' 4 2) (v.extractLsb' 6 5) (Half.ofBool (bit v 11)) s
  | .cchPlowStat => s.onCch fun c => { c with qfull := w1c c.qfull v 3, cmderr := w1c c.cmderr v 4 }
  | .cchDirCtl => s.onCch fun c => { c with invTmo := v.extractLsb' 0 16 }
  | .cchDirErr => s.onCch fun c => { c with dirErr := c.dirErr &&& ~~~v.extractLsb' 0 6 }
  | .bufQuery => s.onBuf fun b => { b with query := v.extractLsb' 0 19 }
  | .bufRelease => releaseAll (v.extractLsb' 0 5) s
  | .bufErr => s.onBuf fun b => { b with errRel := w1c b.errRel v 0 }
  | .bufRgnCtl r => setDrain r (bit v 0) s
  | .atuFpstat h =>
    let x := atuHalf s h
    setAtuHalf s h { x with nv := w1c x.nv v 0, of := w1c x.of v 1, uf := w1c x.uf v 2, nx := w1c x.nx v 3 }
  | .atuErr => s.onAtu fun a => { a with ordcfg := w1c a.ordcfg v 0 }
  | .atuOrdCtl n => writeOrdCtl (Fin.ofNat 32 n) v s
  | .atuOrdStat n => setOrd s n { ord s n with err := w1c (ord s n).err v 9, tmo := w1c (ord s n).tmo v 10 }
  | .bwrCtl _ => s.onShadow fun x => { x with bwrEn := bit v 0 }
  | .bwrErr => s.onBwr fun b => { b with errFsum := w1c b.errFsum v 0, errMiss := w1c b.errMiss v 1, errCfg := w1c b.errCfg v 2 }
  | .bwrMcfg h m _ => writeMcfg h m v s
  | .bwrMstat h m =>
    let x := mstat s h m
    setMstat h m { x with floorMiss := w1c x.floorMiss v 14, demoted := w1c x.demoted v 15 } s
  | .seqTqCtl q => writeTqCtl q v s
  | .seqTqStat q =>
    let x := tq s q
    setTq q { x with dbErr := w1c x.dbErr v 0, cfg := w1c x.cfg v 1, fetchErr := w1c x.fetchErr v 2 } s
  | .seqPartCtl p => modSp s p fun x => { x with thaw := v.extractLsb' 0 24 }
  | .seqCtxCtl p => writeCtx p (spReg s p).ctxBase (v.extractLsb' 0 3) s
  | .seqCtxStat p => modSp s p fun x =>
      { x with badcmd := w1c x.badcmd v 0, werr := w1c x.werr v 1, noslot := w1c x.noslot v 2, cfg := w1c x.cfg v 3 }
  | .pptCtl n => writePpt n v s
  | .pptStat n => setPort s n { port s n with upEvt := w1c (port s n).upEvt v 6, downEvt := w1c (port s n).downEvt v 7 }
  | .pptErr n => setPort s n { port s n with spareFail := w1c (port s n).spareFail v 0, cfgErr := w1c (port s n).cfgErr v 1,
                                             badframe := w1c (port s n).badframe v 2 }
  | .poolCtl => s.onLinks fun l => { l with split := bit v 0 }
  | .intCtl => s.onInteg fun i => { i with patrolEn := bit v 0, lcrcChk := bit v 1 }
  | .intChk h => s.onInteg fun i => h.pick { i with budgetE := v.extractLsb' 0 3 } { i with budgetW := v.extractLsb' 0 3 }
  | .intCeThr => s.onInteg fun i => { i with ceThr := v.extractLsb' 0 8 }
  | .intStat => s.onInteg fun i => { i with ue := w1c i.ue v 0, metaLoss := w1c i.metaLoss v 1, crc := w1c i.crc v 2,
                                            tag := w1c i.tag v 3, shelf := w1c i.shelf v 4 }
  | .intPrst => if bit v 5 then prstGo (v.extractLsb' 0 5) s else s
  | .intPrstStat => s.onInteg fun i => { i with prstRefused := w1c i.prstRefused v 8 }
  | .intInjCtl => writeInj v s
  | .intLogHead => (logHead v s).2
  | .intLogStat => s.onLog fun l => { l with headErr := w1c l.headErr v 17 }
  | .intFatalClr => fatalClr v s
  | .tstCtl => s.onTst fun t => { t with en := bit v 0, autoCalve := bit v 1, retireEn := bit v 2, persistEn := bit v 3 }
  | .tstStat => s.onTst fun t => { t with stat := t.stat &&& ~~~v.extractLsb' 0 7 }
  | .tstSwap => if bit v 6 then genBump s (tstSwap (Half.ofBool (bit v 0)) (field v.toNat 1 5) s) else s
  | .tstCalveCmd => if bit v 8 then calveGo (v.toNat % 8) (field v.toNat 3 5) s else s
  | .tstCalveThr => s.onTst fun t => { t with thrCe := v.extractLsb' 0 16, thrUe := v.extractLsb' 16 4 }
  | .tstPackCmd => if bit v 0 then packLoad s else s
  | .tstCalveStat k => setCalve k { calve s k with abort := w1c (calve s k).abort v 26 } s
  | .tstAgeThr => s.onTst fun t => { t with ageThr := v.extractLsb' 0 16 }
  | .mgtUartBaud => uartCfg (fun c => { c with div := v.extractLsb' 0 12, osr := v.extractLsb' 12 2 }) s
  | .mgtUartBaudx => uartCfg (fun c => { c with divX := v.extractLsb' 0 12, osrX := v.extractLsb' 12 2 }) s
  | .mgtUartFmt => uartCfg (fun c => { c with data := v.extractLsb' 0 4, parity := v.extractLsb' 4 3, stop := v.extractLsb' 7 2,
                                              fc := bit v 9, raw := bit v 10 }) s
  | .mgtUartStat => s.onUart fun u => { u with idle := w1c u.idle v 0, fe := w1c u.fe v 1, pe := w1c u.pe v 2, ovr := w1c u.ovr v 3,
                                               brk := w1c u.brk v 4 }
  | .mgtUartData => uartPush (v.extractLsb' 0 9) s
  | .mgtSvetCtl => s.onMgt fun m => { m with lock := m.lock || bit v 0, echo := bit v 1 }
  | .mgtSmbCtl => s.onMgt fun m => { m with smbAddr := v.extractLsb' 0 7, smbEn := bit v 7 }
  | .mgtSmbStat => s.onMgt fun m => { m with mbref := w1c m.mbref v 16 }
  | .mgtMbCtl => s.onMgt fun m => { m with inFull := w1c m.inFull v 9, noteErr := w1c m.noteErr v 26, outRef := w1c m.outRef v 27 }
  | .mgtMbOutlen => mbOutLen (v.extractLsb' 0 9) s
  | .mgtMbOut k => mbOutWrite k v s
  | .cntSel n => writeCntSel n v s
  | .cntCmd => cntCmd v s
  | .cntOvf k => s.onCnt fun c => { c with ovf := c.ovf &&& ~~~(v.setWidth 256 <<< (32 * k)) }
  | .cntErr => s.onCnt fun c => { c with errSel := w1c c.errSel v 0 }
  | _ => s

/-- The effect of a write on a 64-bit register. -/
def write64 (r : Reg) (part : Part) (v : BitVec 64) (s : State) : State :=
  match r with
  | .glbEpochNote => s.onGlb fun g => { g with note := v.extractLsb' 3 49 }
  | .partFwbase p k _ => writeFar p k { tget FarWin.zero (partReg s.shadow p).fw k with base := v.extractLsb' 12 39 } s
  | .xltInv => xltInv part v s
  | .xltRoot p _ => writeRoot p v s
  | .xltFqBase p => writeFq p (faultQ s p).en (v.extractLsb' 12 40) (faultQ s p).log2n s
  | .cchPlowArg k => s.onCch fun c => if k = 0 then { c with arg0 := v } else { c with arg1 := v }
  | .atuOrdBase n => writeOrdBase (Fin.ofNat 32 n) v s
  | .seqTqBase q => writeTqBase q v s
  | .seqCtxBase p => writeCtx p (v.extractLsb' 12 40) (spReg s p).ctxLog2n s
  | .intInjAddr => s.onInteg fun i => { i with injAddr := v.extractLsb' 7 45 }
  | .tstPackSa => s.onTst fun t => { t with packSa := v.extractLsb' 6 46 }
  | .mgtMbNote => s.onMgt fun m => { m with note := v.extractLsb' 3 49 }
  | _ => s

/-- The register itself, or its shadow if it is staged: what a write stores into (R93). -/
def Reg.stored (r : Reg) : Reg :=
  match r with
  | .partFwbase p k _ => .partFwbase p k true
  | .xltRoot p _ => .xltRoot p true
  | x => x

/-- A write of word w of a register (R432): half of a 64-bit one keeps the other half. -/
def writeWord (r : Reg) (w : Nat) (part : Part) (v : BitVec 32) (s : State) : State :=
  if r.wide then
    let old := readVal r.stored part s
    let lo : BitVec 32 := if w = 0 then v else old.extractLsb' 0 32
    let hi : BitVec 32 := if w = 0 then old.extractLsb' 32 32 else v
    write64 r part (hi ++ lo) s
  else write32 r v s

/-- A read of word w of a register, with its effect; LOOP_TIME's latch is per requester (R72). -/
def readWord (r : Reg) (w : Nat) (who : Requester) (part : Part) (s : State) : BitVec 32 × State :=
  match r with
  | .loopTime => if w = 0 then timeLow who s else timeHigh who s
  | _ => ((readVal r part s).extractLsb' (32 * w) 32, readEffect r s)

/-! ## The access (R431 to R434) -/

/-- One word of an access: its offset, register and place in it. -/
structure CtlWord where
  off : Nat
  reg : Reg
  word : Nat
  deriving DecidableEq, Repr

def ctlWord (off : Nat) : Option CtlWord :=
  match regAt off with
  | none => none
  | some (r, w) => some { off, reg := r, word := w }

/-- The words of an access of n bytes; none where it ends ADDRESS (R432, R433). -/
def ctlWords (off n : Nat) : Option (List CtlWord) :=
  if (n ≠ 4 ∧ n ≠ 8) ∨ off % n ≠ 0 then none
  else if n = 4 then (ctlWord off).map fun x => [x]
  else
    match ctlWord off, ctlWord (off + 4) with
    | some a, some b => some [a, b]
    | _, _ => none

/-- The access covers a whole 64-bit register. -/
def wholeWide (ws : List CtlWord) : Option CtlWord :=
  match ws with
  | [a, _] => if a.reg.wide then some a else none
  | _ => none

/-- A P-mode access may reach every register it covers (R437, R438). -/
def ctlRights (s : State) (part : Part) (ws : List CtlWord) : Bool := part == 0 || ws.all fun x => x.reg.visible s part.toNat

/-- A register the access covers is served by a domain that is on (R431). -/
def ctlUp (s : State) (ws : List CtlWord) : Bool := ws.all fun x => blockUp s x.off

/-- A read of the control window: status (R289), data, state. -/
def ctlRead (who : Requester) (part : Part) (off n : Nat) (s : State) : Nat × BitVec 64 × State :=
  match ctlWords off n with
  | none => (stAddress, 0, s)
  | some ws =>
    if !ctlRights s part ws then (stRights, 0, s)
    else if !ctlUp s ws then (stUnavailable, 0, s)
    else
      match wholeWide ws with
      | some x => (stOk, readVal x.reg part s, readEffect x.reg s)
      | none =>
        let lo := match ws with
          | x :: _ => readWord x.reg x.word who part s
          | [] => (0, s)
        match ws with
        | [_, y] =>
          let hi := readWord y.reg y.word who part lo.2
          (stOk, hi.1 ++ lo.1, hi.2)
        | _ => (stOk, lo.1.setWidth 64, lo.2)

/-- One word of a write: not stored, and UNAVAILABLE, in a half that is off (R434). -/
def ctlStore (part : Part) (x : CtlWord) (v : BitVec 32) (a : Nat × State) : Nat × State :=
  if halfOn a.2 x.off x.reg then (a.1, writeWord x.reg x.word part v a.2) else (stUnavailable, a.2)

/-- A write of the control window: status, state. -/
def ctlWrite (part : Part) (off n : Nat) (v : BitVec 64) (s : State) : Nat × State :=
  match ctlWords off n with
  | none => (stAddress, s)
  | some ws =>
    if n = 4 ∧ ws.any (fun x => x.reg == .xltInv) then (stAddress, s)
    else if !ctlRights s part ws then (stRights, s)
    else if !ctlUp s ws then (stUnavailable, s)
    else
      match wholeWide ws with
      | some x => (stOk, settle (write64 x.reg part v s))
      | none =>
        match ws with
        | [x] => let a := ctlStore part x (v.extractLsb' 0 32) (stOk, s); (a.1, settle a.2)
        | [x, y] =>
          let a := ctlStore part y (v.extractLsb' 32 32) (ctlStore part x (v.extractLsb' 0 32) (stOk, s))
          (a.1, settle a.2)
        | _ => (stOk, s)

/-- A write of a register without a row of its own (R14). The writer's status is its own affair: a partner's WRM, a thread's
store and Svet's WR answer it in their rows. -/
def execRegisterWrite (_r : Requester) (part : Part) (off : BitVec 24) (wide : Bool) (v : BitVec 64) (s : State) :
    Host.Outcome State Fault Refusal :=
  answer s (ctlWrite part off.toNat (if wide then 8 else 4) v s).2

end Sys2Proof.Machine
end

