-- ==== Sys2Proof/Machine/Boot.lean ====
section
/-! DEFINITION. The boot loader (R387 to R398): discovery, the check of an image, its application, the supervisor's start. -/

namespace Sys2Proof.Machine

/-! ## The image (R389 to R392) -/

/-- Flash offset of a slot (R389). -/
def slotBase (k : Slot) : Nat :=
  match k with
  | .a => 0
  | .b => 0x600000

/-- A section's table entry (R390). -/
structure Sect where
  type : Nat
  off : Nat
  len : Nat
  crc : Nat
  ok : Bool
  deriving DecidableEq, Repr

/-- Entry i of the section table. -/
def sectAt (s : State) (base i : Nat) : Sect :=
  let b := flashBytes s (base + 256 + 16 * i) 16
  { type := leAt b 0 2, off := leAt b 4 4, len := leAt b 8 4, crc := leAt b 12 4,
    ok := decide (leAt b 2 2 = 1 ∧ leAt b 4 4 % 16 = 0) }

def sectTable (s : State) (k : Slot) : List Sect :=
  let n := (flashByte s (slotBase k + 11)).toNat
  (List.range n).map fun i => sectAt s (slotBase k) i

/-- The section of a type. -/
def sectOf? (s : State) (k : Slot) (type : Nat) : Option Sect := (sectTable s k).find? fun x => x.type == type

/-- The bytes of a section; none, empty, for a section that is absent. -/
def sectBytes (s : State) (k : Slot) (type : Nat) : List Byte :=
  match sectOf? s k type with
  | none => []
  | some x => flashBytes s (slotBase k + x.off) x.len

/-- The table is well formed (R390, R391): known types, each at most once, the required ones present, every section inside LEN
and clear of header, table and the others. -/
def tableOk (xs : List Sect) (len : Nat) : Bool :=
  let first := 256 + 16 * xs.length
  xs.all (fun x => x.ok && decide (1 ≤ x.type ∧ x.type ≤ 7) && decide (first ≤ x.off) && decide (x.off + x.len ≤ len) &&
    decide ((xs.filter fun y => y.type == x.type).length = 1) &&
    xs.all fun y => y.type == x.type || decide (x.off + x.len ≤ y.off) || decide (y.off + y.len ≤ x.off)) &&
  [5, 6, 7].all fun t => xs.any fun x => x.type == t

/-- Codes 1 to 4 of R392; 0 when the header passes. -/
def headCode (s : State) (k : Slot) : Nat :=
  let h := flashBytes s (slotBase k) 256
  let len := leAt h 16 4
  let n := leAt h 11 1
  if leAt h 0 4 = 0xFFFFFFFF then 1
  else if leAt h 252 4 ≠ (crc32c (slice h 0 252)).toNat then 2
  else if leAt h 0 4 ≠ 0x494A5653 ∨ leAt h 4 2 ≠ 1 ∨ 4 ≤ leAt h 9 1 ∨ n = 0 ∨ 32 < n ∨ len % 16 ≠ 0 ∨ 0x5FFFC0 < len ∨
      !zerosAt h 28 4 ∨ !zerosAt h 112 136 ∨ !tableOk (sectTable s k) len then 3
  else if leAt h 6 2 ≠ 0xAC80 ∨ (leAt h 8 1 ≠ 0x10 ∧ leAt h 8 1 ≠ 0xFF) then 4
  else 0

/-- The image carries a signature. -/
def imgSigned (s : State) (k : Slot) : Bool := bit (flashByte s (slotBase k + 9)) 0

/-- Codes 5 to 7 of R392; 0 when the image passes. -/
def bodyCode (s : State) (k : Slot) : Nat :=
  let base := slotBase k
  let h := flashBytes s base 256
  let len := leAt h 16 4
  let key := slice h 48 64
  if leAt h 248 4 ≠ (crc32c (flashBytes s (base + 256) (len - 256))).toNat ∨
      (sectTable s k).any (fun x => decide (¬ x.crc = (crc32c (flashBytes s (base + x.off) x.len)).toNat)) then 5
  else if s.boot.keyset ∧ (!imgSigned s k ∨ digest16 (Config.sha256 key) ≠ s.boot.keyhash) then 6
  else if imgSigned s k ∧
      !Config.p256Verify (Config.sha256 (flashBytes s base len)) (BitVec.ofNat 512 (ofBytesBE key))
        (BitVec.ofNat 512 (ofBytesBE (flashBytes s (base + len) 64))) then 7
  else 0

/-! ## Slots and their order (R393) -/

def otherSlot : Slot → Slot
  | .a => .b
  | .b => .a

def slotLeft (s : State) (k : Slot) : Bool :=
  match k with
  | .a => s.boot.leftA
  | .b => s.boot.leftB

/-- A slot is left, with its code. -/
def leaveSlot (k : Slot) (code : Nat) (s : State) : State :=
  s.onBoot fun b =>
    match k with
    | .a => { b with leftA := true, errA := BitVec.ofNat 4 code }
    | .b => { b with leftB := true, errB := BitVec.ofNat 4 code }

/-- Go on with the other slot, or to console recovery when both have failed (R393, R397). -/
def nextSlot (k : Slot) (s : State) : State :=
  if slotLeft s (otherSlot k) then enterRecovery s else s.onBoot fun b => { b with phase := .reading (otherSlot k) }

/-- SEQ of a slot's header. -/
def slotSeq (s : State) (k : Slot) : Nat := leAt (flashBytes s (slotBase k + 12) 4) 0 4

/-- The order of the slots is set (R393): with BOOT_SEL 0b01 B, then A; else the candidates, the higher SEQ first. -/
def slotOrder (s : State) : State :=
  let go (k : Slot) (s : State) : State := s.onBoot fun b => { b with first := k, phase := .reading k }
  if s.glb.bootSel = 1 then go .b s
  else
    let ca := headCode s .a
    let cb := headCode s .b
    let s := if ca = 0 then s else leaveSlot .a ca s
    let s := if cb = 0 then s else leaveSlot .b cb s
    if ca ≠ 0 ∧ cb ≠ 0 then enterRecovery s
    else if ca ≠ 0 then go .b s
    else if cb ≠ 0 then go .a s
    else if slotSeq s .a < slotSeq s .b then go .b s else go .a s

/-- What discovery finds (R388): false when it fails with READ, for a flash that does not answer or is too small (log entry 38). -/
def discoverFlash (f : Sfdp) (s : State) : Bool × State :=
  if !f.present ∨ (f.valid ∧ f.tooSmall) then (false, s.onBoot fun b => { b with sfdp := false, spimode := 0, eraseLog2 := 0, pageLog2 := 0 })
  else
    let quad : Bool := f.has144 && (f.qer0 || f.qeSet)
    let mode : BitVec 2 := if s.boot.slowclk || !f.valid then 0 else if quad then 2 else 1
    (true, s.onBoot fun b =>
      { b with sfdp := f.valid, spimode := mode, eraseLog2 := if f.valid then f.eraseLog2 else 12,
               pageLog2 := if f.valid then f.pageLog2.getD 8 else 8 })

/-- Discovery, at step 3 of a boot; in console recovery entered before it, for the Svet flash commands (log entry 38). -/
def execFlashDiscovery (f : Sfdp) (s : State) : Host.Outcome State Fault Refusal :=
  answer s <|
    if s.boot.phase = .discover then
      let r := discoverFlash f (s.onBoot fun b => { b with leftA := false, leftB := false, errA := 0, errB := 0 })
      if r.1 then slotOrder r.2 else enterRecovery (leaveSlot .a 9 (leaveSlot .b 9 r.2))
    else if s.boot.phase = .recovery ∧ s.boot.eraseLog2 = 0 then (discoverFlash f s).2
    else s

/-- No PLL lock within 1 ms: the boot goes on from the crystal (R387). -/
def execPllWaitTimeout (s : State) : Host.Outcome State Fault Refusal :=
  answer s <|
    if s.boot.phase = .waitPll ∧ due s s.boot.since 1000000 then bootGo (s.onBoot fun b => { b with slowclk := true }) else s

/-- A slot has been read and checked (R392). -/
def execImageReadDone (k : Slot) (s : State) : Host.Outcome State Fault Refusal :=
  answer s <|
    if s.boot.phase = .reading k then
      let c := if headCode s k ≠ 0 then headCode s k else bodyCode s k
      if c = 0 then s.onBoot fun b => { b with phase := .apply k } else nextSlot k (leaveSlot k c s)
    else s

/-! ## Step 5: identity, repairs, trims (R394, R368) -/

/-- The targets of a part without repairs: one spare core, lane and datapath in each half. -/
def baseTargets (s : State) : State :=
  let one (h : Half) (s : State) : State :=
    [8, 17, 19].foldl (fun s t => setTgt h t { Target.zero with state := 1, back := 1 } s) s
  one .w (one .e (s.onTst fun t => { t with tgt := [], spareUsed := [], bankMap := [] }))

/-- A repair with a spare target, unless the spare is in use. -/
def spareRepair (h : Half) (t i : Nat) (s : State) : State :=
  if t = i ∨ !isSpare (tgt s h i) then s
  else
    let s := takeSpare h i (failTgt h t s)
    if t < 9 then
      let k := 9 * h.idx + t
      let j := 9 * h.idx + i
      let l := (logicalCore s k).getD 0xFF
      s.onRep fun r => { r with logical := tset none (tset none r.logical j (some (BitVec.ofNat 8 l))) k (some 0xFF) }
    else s

/-- One repair record (R366): a record that names a spare already in use is ignored (R368). -/
def applyRepair (s : State) (r : Repair) : State :=
  let t := r.unit.toNat
  let i := r.subst.toNat
  let k := r.die.toNat
  match r.type.toNat with
  | 1 => if t < 9 ∧ i < 9 then spareRepair r.half t i s else s
  | 2 => if 9 ≤ t ∧ t < 18 ∧ i < 9 then spareRepair r.half t (9 + i) s else s
  | 3 => if 18 ≤ t ∧ t < 20 ∧ i < 2 then spareRepair r.half t (18 + i) s else s
  | 4 => if t < 32 ∧ s.rep.linkSpare.isNone then s.onRep fun x => { x with linkSpare := some (Fin.ofNat 32 t) } else s
  | 5 =>
    if k < 6 ∧ t < 34 ∧ (i = 32 ∨ i = 33) ∧ !tget false s.tst.spareUsed (2 * k + (i - 32)) then
      s.onTst fun x => { x with bankMap := tset none x.bankMap (34 * k + t) (some (BitVec.ofNat 6 i)),
                                spareUsed := tset false x.spareUsed (2 * k + (i - 32)) true }
    else s
  | 6 => if r.region.toNat < 384 then setRegion s r.region.toNat { state := 0, busy := false, retired := true } else s
  | 7 =>
    if t < 22 then
      let s := failTgt r.half t s
      if t < 9 then s.onRep fun x => { x with logical := tset none x.logical (9 * r.half.idx + t) (some 0xFF) }
      else if t < 20 then s
      else s.onRep fun x => { x with groupsOut := setBit x.groupsOut (2 * r.half.idx + (t - 20)) true }
    else s
  | 8 =>
    if k < 6 then
      if t = 32 ∨ t = 33 then s.onTst fun x => { x with spareUsed := tset false x.spareUsed (2 * k + (t - 32)) true } else s
    else if t < 20 then failTgt r.half t s else s
  | _ => s

/-- The 32-byte records of a section. -/
def chunks (bs : List Byte) (n : Nat) : List (List Byte) := (List.range (bs.length / n)).map fun i => slice bs (n * i) n

/-- The flash records of the part's area in slot order, up to the first that is unwritten or whose CRC fails (R368). -/
def areaRecords (s : State) : List Repair :=
  let off := s.boot.repOff.toNat
  let len := s.boot.repLen.toNat
  match areaHalf s off len with
  | none => []
  | some (a, _) => ((areaSlots s (a + 32) 0 (len / 2 / 32 - 1)).takeWhile repairOk).map parseRepair

/-- A part without an area of its own starts one with GEN 1 (R368). -/
def startArea (s : State) : State :=
  let off := s.boot.repOff.toNat
  let len := s.boot.repLen.toNat
  if off = 0 ∨ len < 64 ∨ (areaHalf s off len).isSome then s
  else flashProgram off (areaHeader 1 s.tst.uid) (flashErase off (len / 2) s)

/-- Repairs of a cold boot: the image's, then the part's. -/
def bootRepairs (k : Slot) (s : State) : State :=
  let s := baseTargets s
  let s := ((chunks (sectBytes s k 1) 32).map parseRepair).foldl applyRepair s
  let s := startArea s
  let rs := areaRecords s
  let n := match rs.getLast? with
    | none => 0
    | some r => r.seq
  rs.foldl applyRepair (s.onTst fun t => { t with repSeq := n })

/-- REPAIRMAP and TRIM are well formed (R391). -/
def repairTrimOk (s : State) (k : Slot) : Bool :=
  let m := sectBytes s k 1
  let t := sectBytes s k 2
  decide (m.length % 32 = 0) && (chunks m 32).all repairOk && decide (t.length % 48 = 0) && (chunks t 48).all fun b => zerosAt b 40 8

/-- An entry of TRIM for this part, or the default one, exists. -/
def trimUsable (s : State) (k : Slot) : Bool :=
  (chunks (sectBytes s k 2) 48).any fun b => leAt b 0 8 == s.tst.uid.toNat || leAt b 0 8 == 0

/-- The ring coefficients of this part's TRIM entry, else of the default one (R53, R391): eight, in the order of R391. -/
def trimOf (s : State) (k : Slot) : Tab (BitVec 32) :=
  let es := chunks (sectBytes s k 2) 48
  match (es.find? fun b => leAt b 0 8 == s.tst.uid.toNat).orElse fun _ => es.find? fun b => leAt b 0 8 == 0 with
  | none => []
  | some b => (List.range 8).foldl (fun t i => tset 0 t i (BitVec.ofNat 32 (leAt b (8 + 4 * i) 4))) []

/-- The header fields that outlive the boot, the slice ID, the repairs and the trims. -/
def bootIdentity (k : Slot) (s : State) : State :=
  let h := flashBytes s (slotBase k) 256
  let ovr : Bool := bit (flashByte s (slotBase k + 9)) 1
  let s := s.onGlb fun g => { g with sid := if ovr then BitVec.ofNat 8 (leAt h 10 1) else g.sidStrap, sidOvr := ovr }
  let s := s.onBoot fun b =>
    { b with packKey := BitVec.ofNat 128 (leAt h 32 16), repOff := BitVec.ofNat 32 (leAt h 20 4), repLen := BitVec.ofNat 32 (leAt h 24 4),
             notrim := !trimUsable s k }
  let s := s.onLoops fun x => { x with trim := trimOf s k }
  if s.boot.warmBoot then s else bootRepairs k s

/-! ## Steps 6 and 7: voltage and domains -/

/-- A domain comes on at boot: its targets start over, its ports leave DISABLED (R386, R296). -/
def bootDom (s : State) (d : Nat) : State :=
  if domOn s d then s
  else
    let s := tgtRestart d (setDom d 1 (setDom d 2 s))
    (domPorts d).foldl (fun s n => if (port s n).en then portTo n 1 s else s) s

/-! ## Step 8: regions and groups -/

/-- The entries' conditions that no window bears on (R88): the windows come with REGS, and the advance of step 9 checks every
condition (log entry 39). -/
def entriesOk (s : State) : Bool :=
  s.tables.gt.all fun e =>
    let h := Half.ofBool (decide (8192 ≤ e.1))
    let g := e.2.group.toNat
    !e.2.valid || (decide (g < 6144) && decide (g % 128 = e.1 % 8192 % 128) && (region s (groupRegion h g)).state == 1)

/-- A 16-bit group-table entry (R85). -/
def gtEntOf (x : Nat) : GtEnt := { group := BitVec.ofNat 13 x, valid := decide (32768 ≤ x) }

/-- GROUPS (R391): both group tables, both owner tables. -/
def loadGroups (g : List Byte) (s : State) : State :=
  let s := (List.range 16384).foldl
    (fun s i => setGt (Half.ofBool (decide (8192 ≤ i))) (i % 8192) (gtEntOf (leAt g (2 * i) 2)) s) s
  (List.range 12288).foldl
    (fun s i => setGown (Half.ofBool (decide (6144 ≤ i))) (i % 6144) ((g.getD (32768 + i) 0).setWidth 6) s) s

/-- REGIONS and GROUPS of a cold boot; none when they are refused. -/
def bootRegions (k : Slot) (s : State) : Option State :=
  let rs := sectBytes s k 5
  let g := sectBytes s k 6
  if rs.length ≠ 384 ∨ g.length ≠ 45056 ∨ rs.any (fun b => decide (3 ≤ b.toNat)) then none
  else
    let live := ((List.range 384).map fun r => (r, (rs.getD r 0).setWidth 2)).filter fun e =>
      decide (¬ e.2 = (0 : BitVec 2)) && !(region s e.1).retired
    let s := live.foldl (fun s e => setRegion s e.1 { region s e.1 with state := e.2 }) s
    let s := loadGroups g s
    if entriesOk s then some (live.foldl restoreRegion s) else none

/-- Step 8 of a warm boot (R395): dies that were off restore their regions; the sweep clears SHARERS and RHELD and drops
replicas. -/
def warmSweep (s : State) : State :=
  let s := (List.range 6).foldl
    (fun s k => match tget none s.sense.restore k with
      | none => s
      | some rs => (rs.filter fun e => !(region s e.1).retired).foldl restoreRegion
          (s.onSense fun x => { x with restore := tset none x.restore k none })) s
  s.cache.line.foldl
    (fun s e => if e.2.replica then clearLine e.1 (replicaLeft (regionHalf (keyRegion e.1)) e.2 s) else setMeta s e.1 { e.2 with sharers := 0, rheld := false }) s

/-! ## Step 9: loops, registers, the advance -/

/-- One LOOPS entry (R391); none when a value would be refused. Without a usable trim the LRS loops stay at EN 0 with VALUE 850. -/
def loadLoop (s : State) (b : List Byte) : Option State :=
  let n := leAt b 0 1
  let lo := leAt b 6 2
  let hi := leAt b 8 2
  let v := leAt b 10 2
  if 14 ≤ n ∨ 4 ≤ leAt b 1 1 ∨ !zerosAt b 3 1 ∨ !zerosAt b 12 4 ∨ !limitsOk n lo hi ∨ !targetOk n (leAt b 4 2) ∨ v < lo ∨ hi < v then none
  else
    let hold : Bool := decide (n < 2) && s.boot.notrim
    let old := loopOf s n
    let l := { old with
      en := bit (b.getD 1 0) 0 && !hold, hyst := if n < 2 then b.getD 2 0 else 0, target := BitVec.ofNat 16 (leAt b 4 2),
      lo := BitVec.ofNat 16 lo, hi := BitVec.ofNat 16 hi, value := if hold then old.value else BitVec.ofNat 16 v }
    let s := (setLoop n l s).onLoops fun x => { x with frz := setBit x.frz n (bit (b.getD 1 0) 1) }
    if n < 2 ∧ l.value ≠ old.value then some (avsWrite (Half.ofBool (decide (n = 1))) l.value s) else some s

/-- Apply a list of entries until one is refused. -/
def applyAll {α : Type} (f : State → α → Option State) : List α → State → Option State
  | [], s => some s
  | x :: xs, s => match f s x with
    | none => none
    | some t => applyAll f xs t

/-- LOOPS: absent, or one entry for each loop. -/
def bootLoops (k : Slot) (s : State) : Option State :=
  let b := sectBytes s k 3
  if b.isEmpty then some s
  else if b.length ≠ 224 ∨ (List.range 14).any (fun n => !(chunks b 16).any fun e => leAt e 0 1 == n) then none
  else applyAll loadLoop (chunks b 16) s

/-- Some register has reported a refusal (R394 step 9); HEAD_ERR of the kept error ring may be an old one. -/
def anyRefused (was : Bool) (s : State) : Bool :=
  s.tables.errWin || s.tables.errGtw || s.xlt.errRoot || s.xlt.errFqcfg || s.xlt.errHead || s.xlt.errInvBusy || s.cch.qfull ||
  s.buf.errRel || s.atu.ordcfg || s.bwr.errFsum || s.bwr.errCfg || (s.seq.tq.any fun e => e.2.cfg) || (s.seq.sp.any fun e => e.2.cfg) ||
  s.cnt.errSel || (s.log.headErr && !was) || (s.loops.loop.any fun e => e.2.cfgErr) || s.glb.refused || s.mgt.outRef

/-- Registers whose only access code is WO. -/
def Reg.writeOnly (r : Reg) : Bool :=
  match r with
  | .glbEpochCmd | .pwrRstCmd | .pwrDomCmd | .pwrUnitCmd | .xltInv | .cchPlowCmd | .bufRelease | .intPrst | .tstSwap | .tstCalveCmd
  | .tstPackCmd | .mgtMbOutlen | .cntCmd => true
  | _ => false

/-- One REGS entry (R391). The loader's writes reach blocks whose domains are not on yet: their values are held in D0. -/
def loadReg (s : State) (b : List Byte) : Option State :=
  let off := leAt b 0 3
  let wide : Bool := bit (b.getD 3 0) 0
  let v := BitVec.ofNat 64 (leAt b 8 8)
  if 2 ≤ leAt b 3 1 ∨ !zerosAt b 4 4 then none
  else if s.boot.warmBoot ∧ ((0x40000 ≤ off ∧ off < 0xA0000) ∨ (0xC0000 ≤ off ∧ off < 0xD0000)) then some s
  else if 0x10000 ≤ off ∧ off < 0x30000 then none
  else
    match ctlWords off (if wide then 8 else 4) with
    | none => none
    | some ws =>
      if ws.any fun x => x.reg.writeOnly then none
      else
        let t := match wholeWide ws with
          | some x => write64 x.reg 0 v s
          | none => (ws.foldl (fun (a : Nat × State) x => (a.1 + 1, writeWord x.reg x.word 0 (v.extractLsb' (32 * a.1) 32) a.2)) (0, s)).2
        if anyRefused s.log.headErr t then none else some t

/-- REGS, then the root of partition 0. -/
def bootRegs (k : Slot) (root : Nat) (s : State) : Option State :=
  let b := sectBytes s k 4
  if b.length % 16 ≠ 0 then none
  else (applyAll loadReg (chunks b 16) s).map fun s => writeRoot 0 (BitVec.ofNat 64 (root + 1)) s

/-- The advance, and every unit's switch; none when it is refused. -/
def bootEpoch (s : State) : Option State :=
  let r := epochAdvance s
  if r.1 ≠ 0 then none else some ((List.range 26).foldl (fun s u => unitSwitch u s) r.2)

/-! ## Step 11: the program -/

/-- PROGRAM's header fields, when they are well formed (R391): DEST, ENTRY, ROOT, SIZE. -/
def programHead (s : State) (k : Slot) : Option (Nat × Nat × Nat × Nat) :=
  let b := sectBytes s k 7
  let dest := leAt b 0 8
  let entry := leAt b 8 8
  let root := leAt b 16 8
  let size := leAt b 24 4
  if b.length = 32 + size ∧ 32 ≤ b.length ∧ zerosAt b 28 4 ∧ dest / 2 ^ 50 = 2 ∧ field dest 42 8 = s.glb.sid.toNat ∧ field dest 35 7 = 0 ∧
      field dest 26 9 < 384 ∧ dest % 65536 = 0 ∧ field dest 0 42 + size ≤ 384 * 2 ^ 26 ∧ entry < 2 ^ 48 ∧ entry % 8 = 0 ∧ root % 4096 = 0 ∧
      dest ≤ root ∧ root < dest + size then some (dest, entry, root, size)
  else none

/-- One block of DEST becomes partition 0's (R394, R395). -/
def claimBlock (s : State) (b : Nat) : Option State :=
  let x := blk s b
  if (region s (b / 1024)).state ≠ 2 then none
  else if x.st = 3 ∧ x.owner = 0 ∧ s.boot.warmBoot then some s
  else if x.st = 1 then some (addUsed (blockHalf b) 0 (setBlk s b { st := 3, owner := 0 }))
  else none

/-- Copy the program's bytes line by line. -/
def copyProgram (dest : Nat) (bs : List Byte) (s : State) : State :=
  (List.range ((bs.length + 127) / 128)).foldl
    (fun s i =>
      let part := slice bs (128 * i) 128
      let sa : Sa := BitVec.ofNat 52 (dest + 128 * i)
      let key := bufKey sa
      let d := mergeBytes (byteMask 0 part.length) (lineData s key) (BitVec.ofNat 1024 (ofBytes part))
      let m := metaAt s key
      let whole := sectors fun j => decide (32 * j + 32 ≤ part.length)
      storeLine key sa d { m with sp := m.sp &&& ~~~whole } s) s

/-- Steps 5 to 11; none on a CONTENT failure. -/
def applyImage (k : Slot) (s : State) : Option State :=
  if !repairTrimOk s k then none
  else
    let s := bootIdentity k s
    let s := avsWrite .w 850 (avsWrite .e 850 s)
    let s := [10, 11, 12, 13, 14, 15, 5, 6, 3, 4].foldl bootDom s
    match (if s.boot.warmBoot then some (warmSweep s) else bootRegions k s) with
    | none => none
    | some s =>
      match bootLoops k s, programHead s k with
      | some s, some (dest, entry, root, size) =>
        match bootRegs k root s with
        | none => none
        | some s =>
          match bootEpoch s with
          | none => none
          | some s =>
            let s := [1, 2, 9, 7, 8].foldl bootDom s
            match applyAll claimBlock ((List.range ((size + 65535) / 65536)).map fun i => field dest 0 42 / 65536 + i) s with
            | none => none
            | some s =>
              some ((copyProgram dest ((sectBytes s k 7).drop 32) s).onBoot fun b =>
                { b with dest := BitVec.ofNat 52 dest, entry := BitVec.ofNat 64 entry })
      | _, _ => none

/-- After a CONTENT failure D1 to D15 are off and their state is at its reset values (R394); the next slot boots cold. -/
def contentFail (s : State) : State :=
  let z := State.reset
  let s := allOff s
  { s with
    cur := z.cur, prev := z.prev, shadow := z.shadow, tables := z.tables, xlt := z.xlt, cch := z.cch, cache := z.cache, buf := z.buf,
    atu := z.atu, seq := z.seq, links := z.links, bwr := z.bwr, integ := z.integ, rep := z.rep,
    glb := { s.glb with epoch := 0, epochDone := 0, pending := false, doneEvt := false, refused := false, reason := 0, lag := 0 },
    sense := { s.sense with restore := [] },
    boot := { s.boot with warmBoot := false, warm := false } }

/-- The image is applied (R394, R395). -/
def execBootApply (s : State) : Host.Outcome State Fault Refusal :=
  answer s <|
    match s.boot.phase with
    | .apply k =>
      match applyImage k s with
      | none => nextSlot k (leaveSlot k 8 (contentFail s))
      | some t =>
        settle (t.onBoot fun b =>
          { b with phase := .ready, slot := match k with
                     | .a => 0
                     | .b => 1,
                   fallback := decide (¬ k = b.first), signed := imgSigned s k, seq := BitVec.ofNat 32 (slotSeq s k) })
    | _ => s

/-! ## The supervisor (R396) -/

/-- Thread 0 of the lowest logical core in service of half E, or else of half W. -/
def supervisorThread (s : State) : Option Nat :=
  let inHalf (h : Half) : Option Nat :=
    ((List.range 8).findSome? fun l => (List.range 9).find? fun c => logicalCore s (9 * h.idx + c) == some l).map fun c => 36 * h.idx + 4 * c
  match inHalf .e with
  | some t => some t
  | none => inHalf .w

/-- An integrity datapath is left in the slice. -/
def datapathLeft (s : State) : Bool :=
  [Half.e, Half.w].any fun h => [18, 19].any fun t => (tgt s h t).state != 3

/-- The supervisor's task. -/
def supervisorTask (s : State) : Thread :=
  { Thread.zero with
    phase := .running, pc := s.boot.entry.setWidth 48,
    g := tset 0 (tset 0 (tset 0 [] 1 ((bootStat s).setWidth 64)) 2 (s.boot.dest.setWidth 64)) 3 (s.glb.sid.setWidth 64),
    prio := 3, part := 0, started := s.clk.time }

def execSupervisorStart (s : State) : Host.Outcome State Fault Refusal :=
  answer s <| genBump s <|
    if s.boot.phase = .ready then
      let s := s.onBoot fun b => { b with phase := .started }
      match (if datapathLeft s then supervisorThread s else none) with
      | none => bootLine false s
      | some t => bootLine false ((setThr s t (supervisorTask s)).onBoot fun b => { b with start := s.clk.time })
    else s

end Sys2Proof.Machine
end

