-- ==== Sys2Proof/Machine/Mgmt.lean ====
section
/-! DEFINITION. The UART (R400 to R407), the Svet commands (R408 to R414), the mailbox (R415) and the SMBus target (R416, R417).
Svet's commands come with their arguments parsed; its answers stand in Mgt.answers, newest first (log entry 40). -/

namespace Sys2Proof.Machine

/-! ## UART -/

/-- Data bits in effect: other values act as 8 (R407). -/
def uartBits (c : UartCfg) : Nat := if 5 ≤ c.data.toNat ∧ c.data.toNat ≤ 9 then c.data.toNat else 8

/-- Svet receives characters: not in RAW mode, and only with 8 data bits. -/
def svetOn (s : State) : Bool := s.pwr.vaon && !s.uart.act.raw && decide (uartBits s.uart.act = 8)

/-- A cold reset lasts: PWRGOOD is away, or the loader waits for RESET_N (R380). -/
def inCold (s : State) : Bool :=
  s.pwr.resetSt == .cold || (s.boot.phase == .waitReset && !s.pwr.trip && !s.boot.warmBoot)

/-- MGT_RTS_N is asserted: 16 free places in the receive FIFO, or no flow control (R405); it is driven high in a cold reset (R28). -/
def uartRts (s : State) : Bool := !inCold s && (!s.uart.act.fc || decide (s.uart.rx.length + 16 ≤ 64))

/-- The low-speed outputs (R28). -/
inductive OutPin where
  | fatalN | alertN | thermtripN | mgtTxd | mgtRtsN | spiSck | spiCsN | spiIo | smbScl | smbSda | smbAlertN | tdo
  | avsClk (h : Half) | avsMdata (h : Half)
  deriving DecidableEq, Repr

/-- What a pin carries. -/
inductive PinLevel where
  | low | high | released | input | highZ
  deriving DecidableEq, Repr

/-- A pin during cold reset (R28). -/
def coldPin (p : OutPin) : PinLevel :=
  match p with
  | .fatalN | .alertN | .thermtripN | .smbScl | .smbSda | .smbAlertN => .released
  | .mgtTxd | .mgtRtsN | .spiCsN => .high
  | .spiSck | .avsClk _ | .avsMdata _ => .low
  | .spiIo => .input
  | .tdo => .highZ

/-- An open-drain output. -/
def drain (on : Bool) : PinLevel := if on then .low else .released

/-- A pin's level; none for a bus that carries transfers, or while VAON is away. -/
def pinLevel (p : OutPin) (s : State) : Option PinLevel :=
  if !s.pwr.vaon then none
  else if inCold s then some (coldPin p)
  else
    match p with
    | .fatalN => some (drain s.pwr.fatal)
    | .thermtripN => some (drain s.pwr.trip)
    | .alertN | .smbAlertN => some (drain (alertOn s))
    | .mgtRtsN => some (if uartRts s then .low else .high)
    | .mgtTxd => if s.uart.tx.isEmpty then some .high else none
    | _ => none

/-- A character joins the transmit FIFO while it has room. -/
def uartSend (c : BitVec 9) (s : State) : State :=
  if s.uart.tx.length < 64 then s.onUart fun u => { u with tx := u.tx ++ [c] } else s

def countBadFrame (s : State) : State := s.onMgt fun m => { m with badframe := satAdd m.badframe 1 }

/-- An answer, counted as a command executed (R419). -/
def svetAnswer (cmd status : Nat) (data : List Byte) (s : State) : State :=
  s.onMgt fun m => { m with cmds := satAdd m.cmds 1,
                            answers := { cmd := BitVec.ofNat 8 cmd, status := BitVec.ofNat 8 status, data := data } :: m.answers }

/-- A binary frame ends (R410): its own command performs a good one. -/
def frameEnd (s : State) : State :=
  let bs := s.mgt.partial_
  let s := s.onMgt fun m => { m with partial_ := [] }
  match cobsDecode bs.length bs with
  | none => countBadFrame s
  | some d => if 1040 < d.length ∨ !frameOk d then countBadFrame s else s

/-- A text line ends (R409): its own command performs it; a line that is too long is answered so. -/
def lineEnd (s : State) : State :=
  let long : Bool := decide (640 < s.mgt.partial_.length)
  let s := s.onMgt fun m => { m with partial_ := [] }
  if long then s.onMgt fun m => { m with answers := { cmd := 0, status := 12, data := [] } :: m.answers } else s

/-- Svet takes a character. -/
def svetChar (c : Byte) (s : State) : State :=
  let put (s : State) : State := s.onMgt fun m => { m with partial_ := m.partial_ ++ [c], partialAt := s.clk.time }
  if s.mgt.bin then if c = 0 then frameEnd s else put s
  else
    let s := if s.mgt.echo then uartSend (c.setWidth 9) s else s
    if c = 0x0D ∨ c = 0x0A then lineEnd s
    else if c = 0x08 ∨ c = 0x7F then s.onMgt fun m => { m with partial_ := m.partial_.dropLast }
    else put s

/-- A character arrives (R404). -/
def execUartCharReceived (ch : BitVec 9) (parityBad stopLow : Bool) (s : State) : Host.Outcome State Fault Refusal :=
  answer s <|
    if !s.pwr.vaon then s
    else
      let pe : Bool := parityBad && decide (1 ≤ s.uart.act.parity.toNat ∧ s.uart.act.parity.toNat ≤ 4)
      let mask : BitVec 9 := BitVec.ofNat 9 (2 ^ uartBits s.uart.act - 1)
      let c := ch &&& mask
      let full : Bool := s.uart.act.raw && decide (64 ≤ s.uart.rx.length)
      let s := s.onUart fun u =>
        { u with fe := u.fe || stopLow, pe := u.pe || pe, ovr := u.ovr || full, gap := true,
                 errs := satAdd u.errs (b2n stopLow + b2n pe + b2n full) }
      if s.uart.act.raw then
        if full then s else s.onUart fun u => { u with rx := u.rx ++ [{ ch := c, pe := pe, fe := stopLow }] }
      else if svetOn s then svetChar (c.setWidth 8) s
      else s

/-- The line has been high for one character time after a character (R404): once per gap. -/
def execUartIdle (s : State) : Host.Outcome State Fault Refusal :=
  answer s <| if s.uart.gap then s.onUart fun u => { u with idle := true, gap := false } else s

/-- A break (R404, R408). -/
def execUartBreak (s : State) : Host.Outcome State Fault Refusal :=
  answer s <|
    if s.pwr.vaon then (s.onUart fun u => { u with brk := true }).onMgt fun m => { m with partial_ := [], bin := false } else s

/-- The transmitter may start a character (R405). -/
def uartMay (u : Uart) : Bool := !u.tx.isEmpty && (!u.act.fc || u.cts)

/-- The next character is sent; the settings written meanwhile take effect with the FIFO empty (R405, R406). -/
def uartNext (s : State) : State :=
  if uartMay s.uart then s.onUart fun u => uartTake { u with tx := u.tx.tail, sent := u.tx.head?.toList ++ u.sent } else s

def execUartCharTransmitted (s : State) : Host.Outcome State Fault Refusal := answer s (uartNext s)

/-- MGT_CTS_N becomes asserted: a stalled transmitter goes on (R405). -/
def execMgtCtsNAssert (s : State) : Host.Outcome State Fault Refusal :=
  answer s <|
    let stalled : Bool := s.uart.act.fc && !s.uart.cts
    let s := s.onUart fun u => { u with cts := true }
    if stalled then uartNext s else s

def execUartDataWrite (v : BitVec 32) (s : State) : Host.Outcome State Fault Refusal := answer s (uartPush (v.extractLsb' 0 9) s)

def execUartDataRead (s : State) : Host.Outcome State Fault Refusal :=
  answer s <| let r := uartPop s; r.2.onUart fun u => { u with read := r.1 }

/-! ## Svet (R410 to R413) -/

/-- Where a command runs (R412). -/
inductive SvetRun where
  | any
  | run
  | recovery
  deriving DecidableEq, Repr

/-- A command: DENIED outside its boot states, LOCKED if it is one of those that LOCK refuses, else its body (R412, R413; log
entry 41 for the order). With Svet off nothing happens. -/
def svet (cmd : Nat) (r : SvetRun) (lockable : Bool) (body : State → State) (s : State) : State :=
  if !svetOn s then s
  else if (r = .run ∧ s.boot.phase = .recovery) ∨ (r = .recovery ∧ s.boot.phase ≠ .recovery) then svetAnswer cmd 5 [] s
  else if lockable ∧ s.mgt.lock then svetAnswer cmd 11 [] s
  else body s

/-- The status of a control-window access for Svet (R413, R433). -/
def svetStatus (st : Nat) : Nat := if st = stOk then 0 else if st = stUnavailable then 7 else 6

/-- Identity, straps, boot and reset status (R412, R417). -/
def idBytes (s : State) : List Byte :=
  toBytes 4 glbIdReg.toNat ++ toBytes 4 (strapReg s).toNat ++ toBytes 4 (bootStat s).toNat ++ toBytes 4 (rstStatReg s).toNat

def execSvetId (s : State) : Host.Outcome State Fault Refusal :=
  answer s (svet 1 .any false (fun s => svetAnswer 1 0 (idBytes s ++ toBytes 8 s.tst.uid.toNat) s) s)

/-- Bits [30:24] of an RD or WR argument must be 0. -/
def svetArgOk (arg : BitVec 32) : Bool := decide (field arg.toNat 24 7 = 0)
def svetSize (arg : BitVec 32) : Nat := if bit arg 31 then 8 else 4

def execSvetRd (arg : BitVec 32) (s : State) : Host.Outcome State Fault Refusal :=
  answer s (svet 2 .any false (fun s =>
    if !svetArgOk arg then svetAnswer 2 2 [] s
    else
      let r := ctlRead .svet 0 (arg.toNat % 2 ^ 24) (svetSize arg) s
      svetAnswer 2 (svetStatus r.1) (if r.1 = stOk then toBytes 8 r.2.1.toNat else []) r.2.2) s)

def execSvetWr (arg : BitVec 32) (v : BitVec 64) (s : State) : Host.Outcome State Fault Refusal :=
  answer s (svet 3 .any true (fun s =>
    if !svetArgOk arg then svetAnswer 3 2 [] s
    else
      let r := ctlWrite 0 (arg.toNat % 2 ^ 24) (svetSize arg) v s
      svetAnswer 3 (svetStatus r.1) [] r.2) s)

def execSvetState (u : BitVec 8) (s : State) : Host.Outcome State Fault Refusal :=
  answer s (svet 4 .any false (fun s =>
    if 47 < u.toNat then svetAnswer 4 2 [] s else svetAnswer 4 0 (toBytes 4 (unitWord s u.toNat).toNat) s) s)

def execSvetUnit (u op : BitVec 8) (gen : BitVec 16) (s : State) : Host.Outcome State Fault Refusal :=
  answer s (svet 5 .run true (fun s =>
    if 47 < u.toNat ∨ 3 < op.toNat then svetAnswer 5 2 [] s
    else
      let t := unitCmd u.toNat op.toNat gen s
      let w := toBytes 4 (unitWord t u.toNat).toNat
      if t.pwr.unitCode = 1 then svetAnswer 5 2 [] t
      else if t.pwr.unitCode = 2 then svetAnswer 5 3 w t
      else svetAnswer 5 0 w t) s)

/-- The status that goes with a CODE of R383 (log entry 42). -/
def domStatus (code : Nat) : Nat :=
  if code = 0 then 0 else if code = 1 then 2 else if code = 2 then 3 else if code = 3 then 4 else 8

/-- DOM answers when the command has been taken or refused: a command that goes on answers CODE 0 (log entry 42). -/
def execSvetDom (d flags : BitVec 8) (gen : BitVec 16) (s : State) : Host.Outcome State Fault Refusal :=
  answer s (svet 6 .run true (fun s =>
    if 15 < d.toNat ∨ 3 < flags.toNat then svetAnswer 6 2 [] s
    else
      let t := domCmd d.toNat (bit flags 0) (bit flags 1) gen s
      let code := if s.pwr.cmd.isNone ∧ t.pwr.cmd.isSome then 0 else t.pwr.resCode.toNat
      svetAnswer 6 (domStatus code) (toBytes 1 code ++ toBytes 4 (unitWord t d.toNat).toNat) t) s)

def execSvetEpoch (s : State) : Host.Outcome State Fault Refusal :=
  answer s (svet 7 .run true (fun s =>
    let r := epochAdvance s
    if r.1 = 0 then svetAnswer 7 0 (toBytes 4 r.2.glb.epoch.toNat) r.2 else svetAnswer 7 8 (toBytes 1 r.1) r.2) s)

/-- The answer is sent before the reset starts (R412). -/
def execSvetReset (key : BitVec 8) (s : State) : Host.Outcome State Fault Refusal :=
  answer s (svet 8 .run true (fun s => if key ≠ 0x5A then svetAnswer 8 2 [] s else rstCmd 0x15A (svetAnswer 8 0 [] s)) s)

/-- The record LOG names: in the ring, the last 64 before TAIL; in the fatal store, slot 0 to 3. -/
def logRecord (s : State) (k : BitVec 32) : Option Rec :=
  if bit k 31 then recAt s.log.fatal (k.toNat % 2 ^ 31)
  else if 1 ≤ (s.log.tail - k).toNat ∧ (s.log.tail - k).toNat ≤ 64 then recAt s.log.ring (k.toNat % 64)
  else none

def execSvetLog (k : BitVec 32) (s : State) : Host.Outcome State Fault Refusal :=
  answer s (svet 9 .any false (fun s =>
    if bit k 31 ∧ 4 ≤ k.toNat % 2 ^ 31 then svetAnswer 9 2 [] s
    else
      match logRecord s k with
      | none => svetAnswer 9 10 [] s
      | some r => svetAnswer 9 0 (toBytes 264 (recNum r)) s) s)

def execSvetLogack (head : BitVec 32) (s : State) : Host.Outcome State Fault Refusal :=
  answer s (svet 10 .any false (fun s => let r := logHead head s; svetAnswer 10 (if r.1 then 0 else 8) [] r.2) s)

/-- CNT: first and n are checked for every op (R412). -/
def svetCnt (lockable : Bool) (first n : BitVec 8) (body : State → State) (s : State) : State :=
  svet 11 .any lockable (fun s =>
    if n = 0 ∨ 128 < n.toNat ∨ 256 < first.toNat + n.toNat then svetAnswer 11 2 [] s else body s) s

/-- n counters' values from a first one. -/
def cntBytes (f : Nat → BitVec 48) (first n : Nat) : List Byte := (List.range n).flatMap fun i => toBytes 8 (f (first + i)).toNat

def execSvetCntRead (first n : BitVec 8) (s : State) : Host.Outcome State Fault Refusal :=
  answer s (svetCnt false first n (fun s => svetAnswer 11 0 (cntBytes (cntVal s) first.toNat n.toNat) s) s)
def execSvetCntReadSnapshot (first n : BitVec 8) (s : State) : Host.Outcome State Fault Refusal :=
  answer s (svetCnt false first n (fun s => svetAnswer 11 0 (cntBytes (fun k => tget 0 s.cnt.snap k) first.toNat n.toNat) s) s)
def execSvetCntSnapshot (first n : BitVec 8) (s : State) : Host.Outcome State Fault Refusal :=
  answer s (svetCnt true first n (fun s => svetAnswer 11 0 [] (snapAll s)) s)
def execSvetCntReset (first n : BitVec 8) (s : State) : Host.Outcome State Fault Refusal :=
  answer s (svetCnt true first n (fun s => svetAnswer 11 0 [] (zeroAll s)) s)
def execSvetCntSnapshotReset (first n : BitVec 8) (s : State) : Host.Outcome State Fault Refusal :=
  answer s (svetCnt true first n (fun s => svetAnswer 11 0 [] (zeroAll (snapAll s))) s)

/-- A binary frame with no byte for 10 ms is discarded and counted (R410). -/
def execSvetFrameTimeout (s : State) : Host.Outcome State Fault Refusal :=
  answer s <|
    if s.mgt.bin ∧ !s.mgt.partial_.isEmpty ∧ due s s.mgt.partialAt 10000000 then countBadFrame (s.onMgt fun m => { m with partial_ := [] })
    else s

/-- BIN has no binary code: there it is an unknown command (R408, R412). -/
def execBin (s : State) : Host.Outcome State Fault Refusal :=
  answer s (svet 0 .any false (fun s =>
    if s.mgt.bin then svetAnswer 0 1 [] s else (svetAnswer 0 0 [] s).onMgt fun m => { m with bin := true, partial_ := [] }) s)

/-- The verbs of R412. -/
def verbs : List Byte :=
  "ID RD WR STATE UNIT DOM EPOCH RESET LOG LOGACK CNT MBPUT MBGET FLRD FLER FLPR BOOT REPERASE BIN HELP".toList.map fun c =>
    BitVec.ofNat 8 c.toNat

/-- HELP lists the verbs; its form is the model's (log entry 43). -/
def execHelp (s : State) : Host.Outcome State Fault Refusal :=
  answer s (svet 0 .any false (fun s => if s.mgt.bin then svetAnswer 0 1 [] s else svetAnswer 0 0 verbs s) s)

/-- EXIT is a binary command: text mode has no such verb. -/
def execExit (s : State) : Host.Outcome State Fault Refusal :=
  answer s (svet 0x1F .any false (fun s =>
    if s.mgt.bin then (svetAnswer 0x1F 0 [] s).onMgt fun m => { m with bin := false, partial_ := [] } else svetAnswer 0x1F 1 [] s) s)

/-! ## Mailbox (R415) -/

/-- A message is put into IN as one step, and the count of puts is stored at the notification word. The bytes beyond its length in
the last word are unspecified: free values. -/
def mbPut (bs : List Byte) (s : State) : State :=
  let f := freeVal s
  let pad := (toBytes 3 f.1.toNat).take ((4 - bs.length % 4) % 4)
  let s := f.2.onMbox fun b => { b with inb := tputBytes 0 b.inb 0 (bs ++ pad) }
  let s := s.onMgt fun m => { m with inLen := BitVec.ofNat 9 bs.length, inFull := true, puts := m.puts + 1 }
  if s.mgt.note = 0 then s
  else
    let r := noteStore (BitVec.ofNat 52 (s.mgt.note.toNat * 8)) 8 s.mgt.puts.toNat s
    if r.1 then settle r.2 else s.onMgt fun m => { m with noteErr := true }

def execMbput (data : List Byte) (s : State) : Host.Outcome State Fault Refusal :=
  answer s (svet 12 .any false (fun s =>
    if data.isEmpty ∨ 256 < data.length then svetAnswer 12 2 [] s
    else if s.mgt.inFull then svetAnswer 12 4 [] s
    else svetAnswer 12 0 [] (mbPut data s)) s)

def outClear (s : State) : State := s.onMgt fun m => { m with outFull := false }

def execMbget (s : State) : Host.Outcome State Fault Refusal :=
  answer s (svet 13 .any false (fun s =>
    if s.mgt.outFull then svetAnswer 13 0 (tbytes 0 s.mbox.outb 0 s.mgt.outLen.toNat) (outClear s) else svetAnswer 13 10 [] s) s)

def execMbOutlenWrite (v : BitVec 32) (s : State) : Host.Outcome State Fault Refusal := answer s (mbOutLen (v.extractLsb' 0 9) s)

/-! ## Flash commands (R414) -/

/-- The flash has been discovered. -/
def flashKnown (s : State) : Bool := s.boot.eraseLog2 != 0

/-- The repair area a slot header names. -/
def namedArea (s : State) (k : Slot) : List (Nat × Nat) :=
  let h := flashBytes s (slotBase k) 256
  if headCode s k = 0 ∧ leAt h 20 4 ≠ 0 then [(leAt h 20 4, leAt h 24 4)] else []

/-- The repair areas: of the image in use, or in console recovery of every good header. -/
def repairAreas (s : State) : List (Nat × Nat) :=
  if s.boot.phase = .recovery then namedArea s .a ++ namedArea s .b
  else if s.boot.repOff = 0 then [] else [(s.boot.repOff.toNat, s.boot.repLen.toNat)]

/-- Two ranges share a byte. -/
def meets (a n b m : Nat) : Bool := decide (a < b + m ∧ b < a + n)

/-- A range of n bytes at off ends RANGE. -/
def flashRange (s : State) (off n : Nat) : Bool :=
  decide (2 ^ 24 < off + n) || decide (2 ^ 24 ≤ off) || (repairAreas s).any fun e => meets off n e.1 e.2

/-- Outside console recovery a change inside the slot in use ends DENIED. -/
def flashDenied (s : State) (off n : Nat) : Bool :=
  s.boot.phase != .recovery &&
  ((s.boot.slot == 0 && meets off n (slotBase .a) 0x600000) || (s.boot.slot == 1 && meets off n (slotBase .b) 0x600000))

def execFlrd (off : BitVec 32) (len : BitVec 16) (s : State) : Host.Outcome State Fault Refusal :=
  answer s (svet 16 .any false (fun s =>
    if len = 0 ∨ 1024 < len.toNat then svetAnswer 16 2 [] s
    else if !flashKnown s then svetAnswer 16 9 [] s
    else if flashRange s off.toNat len.toNat then svetAnswer 16 6 [] s
    else svetAnswer 16 0 (flashBytes s off.toNat len.toNat) s) s)

/-- `ok` false: the flash fails the erase; what it then holds is not the slice's state, and the model leaves it (log entry 44). -/
def execFler (off : BitVec 32) (count : BitVec 16) (ok : Bool) (s : State) : Host.Outcome State Fault Refusal :=
  answer s (svet 17 .any true (fun s =>
    let n := count.toNat * 2 ^ s.boot.eraseLog2.toNat
    if count = 0 then svetAnswer 17 2 [] s
    else if !flashKnown s then svetAnswer 17 9 [] s
    else if off.toNat % 2 ^ s.boot.eraseLog2.toNat ≠ 0 then svetAnswer 17 2 [] s
    else if flashRange s off.toNat n then svetAnswer 17 6 [] s
    else if flashDenied s off.toNat n then svetAnswer 17 5 [] s
    else if !ok then svetAnswer 17 9 [] s
    else svetAnswer 17 0 [] (flashErase off.toNat n s)) s)

/-- A program is read back: bits that were 0 already fail it. -/
def execFlpr (off : BitVec 32) (data : List Byte) (ok : Bool) (s : State) : Host.Outcome State Fault Refusal :=
  answer s (svet 18 .any true (fun s =>
    let n := data.length
    let page := 2 ^ s.boot.pageLog2.toNat
    if n = 0 ∨ 256 < n then svetAnswer 18 2 [] s
    else if !flashKnown s then svetAnswer 18 9 [] s
    else if page < off.toNat % page + n then svetAnswer 18 2 [] s
    else if flashRange s off.toNat n then svetAnswer 18 6 [] s
    else if flashDenied s off.toNat n then svetAnswer 18 5 [] s
    else if !ok then svetAnswer 18 9 [] s
    else
      let t := flashProgram off.toNat data s
      svetAnswer 18 (if flashBytes t off.toNat n = data then 0 else 9) [] t) s)

/-- BOOT restarts R394 from step 3 (R397): everything but D0 is at its reset values, and the boot is a cold one. -/
def execSvetBoot (s : State) : Host.Outcome State Fault Refusal :=
  answer s (svet 19 .recovery false (fun s =>
    (contentFail (svetAnswer 19 0 [] s)).onBoot fun b =>
      { b with phase := .discover, slot := 3, fallback := false, recovery := false, notrim := false, signed := false, errA := 0, errB := 0,
               seq := 0 }) s)

def execReperase (key : BitVec 8) (ok : Bool) (s : State) : Host.Outcome State Fault Refusal :=
  answer s (svet 20 .recovery true (fun s =>
    if key ≠ 0x5A then svetAnswer 20 2 [] s
    else if !flashKnown s then svetAnswer 20 9 [] s
    else if (repairAreas s).isEmpty then svetAnswer 20 6 [] s
    else if !ok then svetAnswer 20 9 [] s
    else svetAnswer 20 0 [] ((repairAreas s).foldl (fun t e => flashErase e.1 e.2 t) s)) s)

/-! ## SMBus (R416, R417) -/

/-- The target's reply; none is a NACK. -/
def smbSet (r : Option (List Byte)) (s : State) : State := s.onMgt fun m => { m with smbReply := r }

/-- The target is powered and enabled (R37, R416). -/
def smbOn (s : State) : Bool := s.pwr.vaon && s.mgt.smbEn

/-- A read: only while the target is enabled. -/
def smbRead (r : State → List Byte) (s : State) : State := if smbOn s then smbSet (some (r s)) s else smbSet none s

/-- A write: a wrong PEC discards and counts it; the body says whether it is acknowledged. -/
def smbWrite (pecOk : Bool) (body : State → Bool × State) (s : State) : State :=
  if !smbOn s then smbSet none s
  else if !pecOk then smbSet none (s.onMgt fun m => { m with pecErr := satAdd m.pecErr 1 })
  else
    let r := body s
    smbSet (if r.1 then some [] else none) r.2

/-- TEMP sign-extended to 16 bits; 0x8000 for none (R417). -/
def tempWord (v : Option (BitVec 12)) : List Byte :=
  match v with
  | none => toBytes 2 0x8000
  | some t => toBytes 2 (t.signExtend 16).toNat

/-- Sensor n's reading. -/
def sensorTemp (s : State) (n : Nat) : Option (BitVec 12) := if sensorValid s n then some (tget 0 s.sense.temp n) else none

/-- The hottest valid sensor. -/
def hottestTemp (s : State) : Option (BitVec 12) :=
  (List.range 24).foldl
    (fun m n => match m, sensorTemp s n with
      | none, t => t
      | m, none => m
      | some a, some b => if a.toInt < b.toInt then some b else some a) none

def execSmbReadId (s : State) : Host.Outcome State Fault Refusal := answer s (smbRead idBytes s)
def execSmbReadTemp (s : State) : Host.Outcome State Fault Refusal := answer s (smbRead (fun s => tempWord (hottestTemp s)) s)

/-- The estimate is a free value of the configuration (log entry 11). -/
def execSmbReadPower (s : State) : Host.Outcome State Fault Refusal :=
  answer s { smbRead (fun s => toBytes 2 (Config.power s.freeCtr).toNat) s with freeCtr := s.freeCtr + 1 }

def statusBytes (s : State) : List Byte :=
  toBytes 2 (domStatReg s).toNat ++ ((List.range 8).map fun n => (port s n).state.setWidth 8) ++ toBytes 2 (alertSrc s).toNat
    ++ toBytes 1 (readVal .intStat 0 s).toNat ++ toBytes 1 (readVal .tstStat 0 s).toNat ++ toBytes 2 (bootStat s).toNat

def execSmbReadStatus (s : State) : Host.Outcome State Fault Refusal := answer s (smbRead statusBytes s)
def execSmbReadAlert (s : State) : Host.Outcome State Fault Refusal := answer s (smbRead (fun s => toBytes 2 (alertSrc s).toNat) s)
def execSmbReadSensor (n : Fin 24) (s : State) : Host.Outcome State Fault Refusal :=
  answer s (smbRead (fun s => tempWord (sensorTemp s n.val)) s)

/-- 0x30: an offset above 255 is NACKed. -/
def execSmbStagingOffset (v : BitVec 16) (pecOk : Bool) (s : State) : Host.Outcome State Fault Refusal :=
  answer s (smbWrite pecOk (fun s => if v.toNat < 256 then (true, s.onMgt fun m => { m with stageOff := v.toNat }) else (false, s)) s)

/-- 0x31: 1 to 32 bytes at the offset, which advances; both wrap within the 256 bytes (log entry 45). -/
def stagePut (bs : List Byte) (m : Mgt) : Mgt :=
  bs.foldl (fun m b => { m with staging := tset 0 m.staging m.stageOff b, stageOff := (m.stageOff + 1) % 256 }) m

def execSmbStageWrite (data : List Byte) (pecOk : Bool) (s : State) : Host.Outcome State Fault Refusal :=
  answer s (smbWrite pecOk (fun s => if data.isEmpty ∨ 32 < data.length then (false, s) else (true, s.onMgt (stagePut data))) s)

/-- 0x32: the first LEN staged bytes as one put; NACKed with MBREF while IN_FULL is 1. -/
def execSmbCommit (len : BitVec 16) (pecOk : Bool) (s : State) : Host.Outcome State Fault Refusal :=
  answer s (smbWrite pecOk (fun s =>
    if len = 0 ∨ 256 < len.toNat then (false, s)
    else if s.mgt.inFull then (false, s.onMgt fun m => { m with mbref := true })
    else (true, mbPut (tbytes 0 s.mgt.staging 0 len.toNat) s)) s)

/-- 0x33: 32 bytes of OUT from the offset, which advances. -/
def execSmbReadOut (s : State) : Host.Outcome State Fault Refusal :=
  answer s <|
    if smbOn s then
      let bs := (List.range 32).map fun i => tget 0 s.mbox.outb ((s.mgt.stageOff + i) % 256)
      (smbSet (some bs) s).onMgt fun m => { m with stageOff := (m.stageOff + 32) % 256 }
    else smbSet none s

def execSmbReadMbStatus (s : State) : Host.Outcome State Fault Refusal :=
  answer s (smbRead (fun s =>
    toBytes 2 (s.mgt.outLen.toNat + 16384 * b2n s.mgt.inFull + 32768 * b2n s.mgt.outFull)) s)

def execSmbClearOutFull (pecOk : Bool) (s : State) : Host.Outcome State Fault Refusal :=
  answer s (smbWrite pecOk (fun s => (true, outClear s)) s)

/-- The target answers the Alert Response Address with its own address, while SMB_ALERT_N is asserted (R416). -/
def execAlertResponse (s : State) : Host.Outcome State Fault Refusal :=
  answer s <| if smbOn s ∧ alertOn s then smbSet (some [BitVec.ofNat 8 (2 * s.mgt.smbAddr.toNat)]) s else smbSet none s

/-- SMB_SCL low for too long: the interface forgets its transaction (R453). -/
def execSmbTimeout (s : State) : Host.Outcome State Fault Refusal := answer s (smbSet none s)

end Sys2Proof.Machine
end

