-- ==== Sys2Proof/Machine/Jtag.lean ====
section
/-! DEFINITION. The boundary-scan port (R32, R452): the IEEE 1149.1 controller, its instruction register and the boundary
register of the 39 pins. The instruction codes are the model's (log entry 46): 0 EXTEST, 1 SAMPLE/PRELOAD, 2 and 3 BYPASS. -/

namespace Sys2Proof.Machine

/-- The controller's next state (IEEE 1149.1). -/
def Tap.next (t : Tap) (tms : Bool) : Tap :=
  match t, tms with
  | .reset, true => .reset
  | .reset, false => .idle
  | .idle, true => .selDr
  | .idle, false => .idle
  | .selDr, true => .selIr
  | .selDr, false => .capDr
  | .capDr, true => .exit1Dr
  | .capDr, false => .shiftDr
  | .shiftDr, true => .exit1Dr
  | .shiftDr, false => .shiftDr
  | .exit1Dr, true => .updDr
  | .exit1Dr, false => .pauseDr
  | .pauseDr, true => .exit2Dr
  | .pauseDr, false => .pauseDr
  | .exit2Dr, true => .updDr
  | .exit2Dr, false => .shiftDr
  | .updDr, true => .selDr
  | .updDr, false => .idle
  | .selIr, true => .reset
  | .selIr, false => .capIr
  | .capIr, true => .exit1Ir
  | .capIr, false => .shiftIr
  | .shiftIr, true => .exit1Ir
  | .shiftIr, false => .shiftIr
  | .exit1Ir, true => .updIr
  | .exit1Ir, false => .pauseIr
  | .pauseIr, true => .exit2Ir
  | .pauseIr, false => .pauseIr
  | .exit2Ir, true => .updIr
  | .exit2Ir, false => .shiftIr
  | .updIr, true => .selDr
  | .updIr, false => .idle

/-- The boundary register is selected. -/
def Jtag.boundary (j : Jtag) : Bool := decide (j.ir.toNat < 2)

/-- A rising edge: capture, shift, and the controller moves. -/
def jtagRise (tms tdi : Bool) (pins : BitVec 39) (j : Jtag) : Jtag :=
  let j :=
    match j.tap with
    | .capDr => if j.boundary then { j with shift := pins } else { j with bypass := false }
    | .shiftDr => if j.boundary then { j with shift := setBit (j.shift >>> 1) 38 tdi } else { j with bypass := tdi }
    | .capIr => { j with irShift := 1 }
    | .shiftIr => { j with irShift := setBit (j.irShift >>> 1) 1 tdi }
    | _ => j
  { j with tap := j.tap.next tms }

/-- A falling edge: updates, and TDO. -/
def jtagFall (j : Jtag) : Jtag :=
  match j.tap with
  | .reset => { j with ir := 3, tdo := none }
  | .updIr => { j with ir := j.irShift, tdo := none }
  | .updDr => { (if j.boundary then { j with latch := j.shift } else j) with tdo := none }
  | .shiftDr => { j with tdo := some (if j.boundary then bit j.shift 0 else j.bypass) }
  | .shiftIr => { j with tdo := some (bit j.irShift 0) }
  | _ => { j with tdo := none }

/-- An edge of TCK; TRST_N low resets the controller. JTAG works while VAON is within limits. -/
def execJtagTckEdge (rising trstN tms tdi : Bool) (pins : BitVec 39) (s : State) : Host.Outcome State Fault Refusal :=
  answer s <|
    if !s.pwr.vaon then s
    else if !trstN then { s with jtag := { s.jtag with tap := .reset, ir := 3, tdo := none } }
    else if rising then { s with jtag := jtagRise tms tdi pins s.jtag }
    else { s with jtag := jtagFall s.jtag }

end Sys2Proof.Machine
end

