-- ==== Sys2Proof/Machine/Partner.lean ====
section
/-! DEFINITION. The requests of the partners (R286 to R291): reads, writes, block writes, atomics, ADDLs, allocations and frees,
each answered exactly once. -/

namespace Sys2Proof.Machine

/-! ## The frame of a partner request -/

/-- Take a partner request of opcode `opc` with n data bytes from an ACTIVE port. A frame too long for its class is a framing
violation (R283, R286 edges). -/
def partner (m : PHdr) (opc n : Nat) (f : State → State) (s : State) : State :=
  if !portOpen s m.port.val then s
  else
    let s := takeRx m.port.val opc m.tag s
    if classMax m.cls < (16 + n + 61) / 62 then badFrame m.port.val s else settle (f s)

/-- A request that stays in its link credits until its acceptance decides it (R183): only f takes its frame. -/
def partnerHeld (m : PHdr) (f : State → State) (s : State) : State :=
  if !portOpen s m.port.val then s
  else if classMax m.cls < (16 + 128 + 61) / 62 then badFrame m.port.val (takeRx m.port.val 0x18 m.tag s)
  else settle (f s)

/-- Who is answered. -/
def hdrWho (m : PHdr) : Who := .port m.port m.cls m.tag

/-- The half a request enters (R142). -/
def hdrHalf (m : PHdr) : Half := portHalf m.port.val

/-- The checks of R75 for an address. -/
def hdrCheck (m : PHdr) (need : Rights) (sa : Sa) (s : State) : Except Nat Space :=
  checkSa s (pipeView s (hdrHalf m)) m.part (some m.port.val) need sa

/-- The checks of a request that CTL and doorbell space do not take: those end ADDRESS, before RIGHTS (R75, R288). -/
def memCheck (m : PHdr) (need : Rights) (sa : Sa) (s : State) : Except Nat Space :=
  match decodeSa s (pipeView s (hdrHalf m)) sa with
  | .error e => .error e
  | .ok x => if x.isDev then .error stAddress else hdrCheck m need sa s

/-- The home half of a checked memory address: UNAVAILABLE while its logic is off (R289). -/
def memHome (m : PHdr) (need : Rights) (sa : Sa) (s : State) : Except Nat Half :=
  match memCheck m need sa s with
  | .error e => .error e
  | .ok x =>
    let h := x.half (hdrHalf m)
    if unavailable s h (hdrHalf m) then .error stUnavailable else .ok h

/-- Check a memory request and enter it into its line's order, or answer its status. -/
def memReq (m : PHdr) (need : Rights) (op : LineOp) (s : State) : State :=
  match memHome m need m.sa s with
  | .error e => reply m e s
  | .ok h => enqueue (mkReq s (hdrWho m) op m.sa m.part (hdrHalf m) h) s

/-! ## Reads (R288) -/

/-- The access size of a control read: a 64-bit register at an 8-byte aligned offset is read whole (log entry 47). -/
def ctlSize (off : Nat) : Nat :=
  match regAt off with
  | some (r, _) => if r.wide ∧ off % 8 = 0 then 8 else 4
  | none => 4

/-- The data of a sector that holds v in n bytes at an offset. -/
def sectorWith (off n : Nat) (v : BitVec 64) : List Byte := toBytes 32 (v.toNat % 2 ^ (8 * n) * 2 ^ (8 * (off % 32)))

/-- A control access that ends ADDRESS (R432, R433); 4-byte writes of XLT_INV are among them (R110). -/
def ctlBad (off n : Nat) (write : Bool) : Bool :=
  match ctlWords off n with
  | none => true
  | some ws => write && n == 4 && ws.any fun x => x.reg == .xltInv

/-- A doorbell write that ends ADDRESS (R222). -/
def bellBad (off n : Nat) : Bool := (n != 4 && n != 8) || off % 8 != 0 || decide (0x600 ≤ off)

/-- A write of the doorbell page: status, effect (R222). -/
def bellWrite (part : Part) (off n : Nat) (v : BitVec 64) (s : State) : Nat × State :=
  if bellBad off n then (stAddress, s)
  else if off < 0x400 then bellTail part (off / 8) (v.extractLsb' 0 32) s
  else if off < 0x500 then bellResume part (BitVec.ofNat 5 ((off - 0x400) / 8)) (field v.toNat 0 6) s
  else bellDiscard part (BitVec.ofNat 5 ((off - 0x500) / 8)) (field v.toNat 0 6) s

/-- A read of n bytes of CTL or doorbell space: status, data, state (R222, R432). -/
def devRead (who : Requester) (part : Part) (x : Space) (n : Nat) (s : State) : Nat × BitVec 64 × State :=
  match x with
  | .ctl off => ctlRead who part off n s
  | .bell _ => (stOk, 0, s)
  | _ => (stAddress, 0, s)

/-- A write of n bytes of CTL or doorbell space: status, state. -/
def devWrite (part : Part) (x : Space) (n : Nat) (v : BitVec 64) (s : State) : Nat × State :=
  match x with
  | .ctl off => ctlWrite part off n v s
  | .bell off => bellWrite part off n v s
  | _ => (stAddress, s)

/-- Whether an access of n bytes at a place of CTL or doorbell space names something there. -/
def devOk (n : Nat) (write : Bool) (x : Space) : Bool :=
  match x with
  | .ctl off => !ctlBad off n write
  | .bell off => (n == 4 || n == 8) && (!write || !bellBad off n)
  | _ => false

/-- The access size of a partner's read of a place. -/
def Space.readSize (x : Space) : Nat :=
  match x with
  | .ctl off => ctlSize off
  | _ => 4

/-- RDS of CTL or doorbell space (R222, R288, R431 to R434), or of memory. -/
def readSector (m : PHdr) (melt : Bool) (s : State) : State :=
  match decodeSa s (pipeView s (hdrHalf m)) m.sa with
  | .error e => reply m e s
  | .ok x =>
    if !x.isDev then memReq m Rights.rd (.read .sector none melt) s
    else if !devOk x.readSize false x then reply m stAddress s
    else
      match hdrCheck m Rights.rd m.sa s with
      | .error e => reply m e s
      | .ok x =>
        let r := devRead (.port m.port) m.part x x.readSize s
        if r.1 = stOk then
          respond m.port m.cls m.tag m.part m.sa stOk 0 false (sectorWith m.sa.toNat x.readSize r.2.1) r.2.2
        else reply m r.1 r.2.2

def execRds (m : PHdr) (melt : Bool) (s : State) : Host.Outcome State Fault Refusal :=
  answer s (partner m 0x01 0 (readSector m melt) s)

def execRdl (m : PHdr) (melt : Bool) (s : State) : Host.Outcome State Fault Refusal :=
  answer s (partner m 0x02 0 (memReq m Rights.rd (.read .line none melt)) s)

/-- RDRO records the port's sharer bit (R195). -/
def execRdro (m : PHdr) (line melt : Bool) (s : State) : Host.Outcome State Fault Refusal :=
  answer s (partner m 0x03 0
    (memReq m Rights.rd (.read (if line then .line else .sector) (some m.port.val) melt)) s)

/-! ## Writes (R288) -/

/-- Byte mask and data of the sector at SA within its line. -/
def sectorAt (sa : Sa) (mask : BitVec 32) (d : BitVec 256) : BitVec 128 × BitVec 1024 :=
  (BitVec.ofNat 128 (mask.toNat * 2 ^ (32 * sectorOf sa)), BitVec.ofNat 1024 (d.toNat * 2 ^ (256 * sectorOf sa)))

def execWrs (m : PHdr) (data : BitVec 256) (s : State) : Host.Outcome State Fault Refusal :=
  answer s (partner m 0x08 32
    (let w := sectorAt m.sa (BitVec.allOnes 32) data; memReq m Rights.wr (.write w.1 w.2)) s)

/-- The offset and size that a mask selects in a sector: 4 or 8 naturally aligned bytes (R288). -/
def maskRun (mask : BitVec 32) : Option (Nat × Nat) :=
  ((List.range 8).findSome? fun i => if mask.toNat = 15 * 2 ^ (4 * i) then some (4 * i, 4) else none).orElse fun _ =>
    (List.range 4).findSome? fun i => if mask.toNat = 255 * 2 ^ (8 * i) then some (8 * i, 8) else none

/-- An offset in CTL or doorbell space, moved to byte o of its sector. -/
def Space.inSector (x : Space) (o : Nat) : Space :=
  match x with
  | .ctl off => .ctl (off / 32 * 32 + o)
  | .bell off => .bell (off / 32 * 32 + o)
  | _ => x

/-- WRM of CTL or doorbell space, or of memory; a mask of 0 performs nothing beyond the checks (R288, R293 edges). -/
def maskedWrite (m : PHdr) (mask : BitVec 32) (data : BitVec 256) (s : State) : State :=
  match decodeSa s (pipeView s (hdrHalf m)) m.sa with
  | .error e => reply m e s
  | .ok x =>
    if mask = 0 then
      match hdrCheck m Rights.wr m.sa s with
      | .error e => reply m e s
      | .ok _ => reply m stOk s
    else if !x.isDev then
      let w := sectorAt m.sa mask data
      memReq m Rights.wr (.write w.1 w.2) s
    else
      match maskRun mask with
      | none => reply m stAddress s
      | some (o, n) =>
        let y := x.inSector o
        if !devOk n true y then reply m stAddress s
        else
          match hdrCheck m Rights.wr m.sa s with
          | .error e => reply m e s
          | .ok _ =>
            let r := devWrite m.part y n (BitVec.ofNat 64 (field data.toNat (8 * o) (8 * n))) s
            reply m r.1 r.2

def execWrm (m : PHdr) (mask : BitVec 32) (data : BitVec 256) (s : State) : Host.Outcome State Fault Refusal :=
  answer s (partner m 0x09 32 (maskedWrite m mask data) s)

def execWrl (m : PHdr) (data : BitVec 1024) (s : State) : Host.Outcome State Fault Refusal :=
  answer s (partner m 0x0A 128 (memReq m Rights.wr (.write (BitVec.allOnes 128) data)) s)

/-! ## Block writes (R290, R335) -/

/-- Line k of a block. -/
def blockData (data : BitVec 32768) (k : Nat) : BitVec 1024 := data.extractLsb' (1024 * k) 1024

/-- The check tag of a block's data (R330). -/
def blockTag (data : BitVec 32768) : BitVec 32 :=
  (List.range 32).foldl (fun r k => r ^^^ lineCrc (blockData data k) k) 0

/-- Perform a block write line by line (R290). -/
def writeLines (m : PHdr) (base : Sa) (h : Half) (data : BitVec 32768) (s : State) : State :=
  let b : BlockWr := { port := m.port, cls := m.cls, tag := m.tag, part := m.part, sa := m.sa, left := 32, status := 0 }
  let s := s.onLinks fun l => { l with blocks := l.blocks ++ [b] }
  (List.range 32).foldl
    (fun t k =>
      enqueue (mkReq t (.block m.port m.tag k) (.write (BitVec.allOnes 128) (blockData data k))
        (base + BitVec.ofNat 52 (128 * k)) m.part (hdrHalf m) h) t) s

/-- The block's lines as they stand. -/
def blockLines (m : PHdr) (base : Sa) (h : Half) (s : State) : List (Nat × LineReq) :=
  (List.range 32).map fun k => (k, mkReq s .own (.read .line none false) (base + BitVec.ofNat 52 (128 * k)) m.part (hdrHalf m) h)

/-- A WRB: its block is the one that holds SA; with CHK, a chosen block's tag is compared first (R335). -/
def blockWrite (m : PHdr) (chk : Bool) (ctag : BitVec 32) (data : BitVec 32768) (s : State) : State :=
  let base : Sa := m.sa &&& ~~~(4095 : BitVec 52)
  match memHome m Rights.wr base s with
  | .error e => reply m e s
  | .ok h =>
    if !chk then writeLines m base h data s
    else
      let r := sample h s
      if !r.1 then writeLines m base h data (cnt 0x054 (some h) (some m.part) 1 r.2)
      else
        let s := cnt 0x053 (some h) (some m.part) 1 r.2
        let got := blockTag data
        if got = ctag then writeLines m base h data s
        else reply m stCheck (tagRecord 5 h m.part base ctag got m.port.val (tagInjected s (blockLines m base h s)) s)

def execWrb (m : PHdr) (chk : Bool) (ctag : BitVec 32) (data : BitVec 32768) (s : State) : Host.Outcome State Fault Refusal :=
  answer s (partner m 0x0B 4096 (blockWrite m chk ctag data) s)

/-! ## Atomics and ADDLs (R174 to R187) -/

/-- Check an atomic (ALIGN first, R177) and accept it. -/
def atomReq (m : PHdr) (k : AtomKind) (wide : Bool) (v cmp : BitVec 64) (s : State) : State :=
  if m.sa.toNat % (if wide then 8 else 4) ≠ 0 then reply m stAlign s
  else
    match memHome m Rights.atom m.sa s with
    | .error e => reply m e s
    | .ok h => acceptAtom (hdrWho m) k wide v cmp m.sa m.part (hdrHalf m) h m.port.val s

/-- Bytes 4 to 7 of a 4-byte operand are 0, as R288 demands. -/
def operandOk (wide : Bool) (v : BitVec 64) : Bool := wide || decide (v.toNat < 2 ^ 32)

/-- A partner's atomic; what a breach of R288 does is undefined (R11). -/
def linkAtom (m : PHdr) (opc n : Nat) (k : AtomKind) (wide : Bool) (v cmp : BitVec 64) (s : State) :
    Host.Outcome State Fault Refusal :=
  if operandOk wide v && operandOk wide cmp then answer s (partner m opc n (atomReq m k wide v cmp) s) else .fault .breach

def execLinkAadd (m : PHdr) (wide : Bool) (v : BitVec 64) (s : State) : Host.Outcome State Fault Refusal :=
  linkAtom m 0x10 8 .add wide v 0 s
def execLinkAcas (m : PHdr) (wide : Bool) (v cmp : BitVec 64) (s : State) : Host.Outcome State Fault Refusal :=
  linkAtom m 0x11 16 .cas wide v cmp s
def execLinkAswp (m : PHdr) (wide : Bool) (v : BitVec 64) (s : State) : Host.Outcome State Fault Refusal :=
  linkAtom m 0x12 8 .swp wide v 0 s
def execLinkAmin (m : PHdr) (wide signed : Bool) (v : BitVec 64) (s : State) : Host.Outcome State Fault Refusal :=
  linkAtom m 0x13 8 (.min signed) wide v 0 s
def execLinkAmax (m : PHdr) (wide signed : Bool) (v : BitVec 64) (s : State) : Host.Outcome State Fault Refusal :=
  linkAtom m 0x14 8 (.max signed) wide v 0 s

/-- An ADDL: ALIGN, the checks of R75, BADARG for a reserved format, then its acceptance; while the queue is full it waits in its
link credits (R177, R182, R183). -/
def addlReq (m : PHdr) (fmt : BitVec 3) (atag : BitVec 32) (data : BitVec 1024) (s : State) : State :=
  let refuse (st : Nat) : State := reply m st (takeRx m.port.val 0x18 m.tag s)
  if m.sa.toNat % 128 ≠ 0 then refuse stAlign
  else
    match memHome m Rights.atom m.sa s with
    | .error e => refuse e
    | .ok h =>
      if (addlWidth fmt.toNat).isNone then refuse stBadarg
      else
        let x := atuHalf s h
        let w : AddlWait := { who := (hdrWho m), fmt := fmt.setWidth 4, atag := atag, line := m.sa, data := data, part := m.part,
                              arrival := (hdrHalf m), master := m.port.val }
        let wait := setAtuHalf s h { x with waiting := x.waiting ++ [w] }
        if !x.waiting.isEmpty then wait
        else
          let r := decideAddl (fmt.setWidth 4) atag m.sa data m.part (hdrHalf m) h m.port.val s
          match r.1 with
          | none => wait
          | some st => answerAddl (hdrWho m) m.part m.sa st r.2

def execLinkAddl (m : PHdr) (fmt : BitVec 3) (atag : BitVec 32) (data : BitVec 1024) (s : State) :
    Host.Outcome State Fault Refusal :=
  answer s (partnerHeld m (addlReq m fmt atag data) s)

/-! ## Allocations and frees (R160 to R168) -/

/-- The partition may act through the port, and no reset has fenced it (R91, R337). -/
def mayAct (s : State) (v : Staged) (p : Part) (via : Option Nat) : Bool :=
  let q := partReg v p.toNat
  (q.en || p == 0) && !(s.integ.prst.any fun r => r.running && r.part == p) &&
  (match via with
   | none => true
   | some n => q.ports.getLsbD n)

/-- An ALLOC: RIGHTS first, under the epoch of the allocator that decides (R160, R314). -/
def allocReq (m : PHdr) (sel : BitVec 2) (wait : Bool) (s : State) : State :=
  let h : Half := if sel = 0 then .e else if sel = 1 then .w else (hdrHalf m)
  if !mayAct s (allocView s h) m.part (some m.port.val) then reply m stRights s
  else allocate (hdrWho m) m.part sel.toNat wait (hdrHalf m) m.sa (thawNs s m.part.toNat) s

def execAlloc (m : PHdr) (sel : BitVec 2) (wait : Bool) (s : State) : Host.Outcome State Fault Refusal :=
  answer s (partner m 0x20 0 (allocReq m sel wait) s)

/-- Where a free is decided: the block, or a status; an SA outside BUF space ends ADDRESS (R167, R267). -/
def freeTarget (s : State) (v : Staged) (p : Part) (via : Option Nat) (arrival : Half) (sa : Sa) : Except Nat Nat :=
  match decodeSa s v sa with
  | .error e => .error e
  | .ok (.buf r off) =>
    if !mayAct s v p via then .error stRights
    else if unavailable s (regionHalf r) arrival then .error stUnavailable
    else .ok (blockOf r off)
  | .ok _ => .error stAddress

def freeReq (m : PHdr) (s : State) : State :=
  match freeTarget s (pipeView s (hdrHalf m)) m.part (some m.port.val) (hdrHalf m) m.sa with
  | .error e => reply m e s
  | .ok b => freeBlock (some ((hdrWho m), m.part, m.sa)) m.part b s

def execFree (m : PHdr) (s : State) : Host.Outcome State Fault Refusal := answer s (partner m 0x21 0 (freeReq m) s)

end Sys2Proof.Machine
end

