-- ==== Sys2Proof/Machine/TroxoAlu.lean ====
section
/-! DEFINITION. Integer and control instructions of a thread (R255 to R257). -/

namespace Sys2Proof.Machine

/-! ## Legal words (R246) -/

/-- V and C are not used. -/
def noVC (f : TFields) : Bool := f.v == 0 && f.c == 0

/-- No operand but D and IMM. -/
def onlyDI (f : TFields) : Bool := f.a == 0 && f.b == 0 && noVC f

/-- A condition is one of R256. -/
def condOk (v : BitVec 4) : Bool := decide (v.toNat < 6)

/-! ## Integer instructions (R255) -/

/-- gd takes the value that op gives for ga and y. -/
def alu (t : ThreadId) (c : Instr) (f : TFields) (legal : Bool) (op : BitVec 64 → BitVec 64 → BitVec 64) (s : State) :
    Host.Outcome State Fault Refusal :=
  answer s (instr t c legal true [f.d.toNat, f.a.toNat, f.b.toNat] 0
    (fun th => retire t fun x => (x.setG f.d.toNat (op (gReg th f.a.toNat) (secondOp th f))).next) s)

def execAdd (t : ThreadId) (f : TFields) (s : State) : Host.Outcome State Fault Refusal := alu t (.add t f) f (noVC f) (· + ·) s
def execSub (t : ThreadId) (f : TFields) (s : State) : Host.Outcome State Fault Refusal := alu t (.sub t f) f (noVC f) (· - ·) s
def execMul (t : ThreadId) (f : TFields) (s : State) : Host.Outcome State Fault Refusal := alu t (.mul t f) f (noVC f) (· * ·) s
def execDiv (t : ThreadId) (f : TFields) (s : State) : Host.Outcome State Fault Refusal := alu t (.div t f) f (noVC f) divW s
def execRem (t : ThreadId) (f : TFields) (s : State) : Host.Outcome State Fault Refusal := alu t (.rem t f) f (noVC f) remW s
def execAnd (t : ThreadId) (f : TFields) (s : State) : Host.Outcome State Fault Refusal := alu t (.and_ t f) f (noVC f) (· &&& ·) s
def execOr (t : ThreadId) (f : TFields) (s : State) : Host.Outcome State Fault Refusal := alu t (.or_ t f) f (noVC f) (· ||| ·) s
def execXor (t : ThreadId) (f : TFields) (s : State) : Host.Outcome State Fault Refusal := alu t (.xor t f) f (noVC f) (· ^^^ ·) s

/-- Shifts take y[5:0]. -/
def shiftOf (y : BitVec 64) : Nat := y.toNat % 64

def execShl (t : ThreadId) (f : TFields) (s : State) : Host.Outcome State Fault Refusal :=
  alu t (.shl t f) f (noVC f) (fun a y => a <<< shiftOf y) s
def execShr (t : ThreadId) (f : TFields) (s : State) : Host.Outcome State Fault Refusal :=
  alu t (.shr t f) f (noVC f) (fun a y => a >>> shiftOf y) s
def execSar (t : ThreadId) (f : TFields) (s : State) : Host.Outcome State Fault Refusal :=
  alu t (.sar t f) f (noVC f) (fun a y => a.sshiftRight (shiftOf y)) s

def execSet (t : ThreadId) (f : TFields) (s : State) : Host.Outcome State Fault Refusal :=
  alu t (.set_ t f) f (condOk f.v && f.c == 0) (fun a y => if cond f.v.toNat a y then 1 else 0) s

/-- LIH: IMM above ga[31:0]. -/
def execLih (t : ThreadId) (f : TFields) (s : State) : Host.Outcome State Fault Refusal :=
  alu t (.lih t f) f (f.b == 0 && noVC f) (fun a _ => f.imm ++ a.extractLsb' 0 32) s

/-- ADDPC: pc + imm. -/
def execAddpc (t : ThreadId) (f : TFields) (s : State) : Host.Outcome State Fault Refusal :=
  answer s (instr t (.addpc t f) (onlyDI f) true [f.d.toNat] 0
    (fun th => retire t fun x => (x.setG f.d.toNat (th.pc.setWidth 64 + immS f)).next) s)

/-! ## Control (R257) -/

/-- Go to a new pc, with an effect on the registers; PVA-RANGE when it has a bit of [63:48] set. -/
def jumpTo (t : ThreadId) (npc : BitVec 64) (g : Thread → Thread) (s : State) : State :=
  if inRange npc then retire t (fun x => { g x with pc := npc.setWidth 48 }) s
  else raise t 0x17 (some (faultInfo t.val npc 3 7 none)) s

/-- The address after the instruction. -/
def linkPc (th : Thread) : BitVec 64 := th.pc.setWidth 64 + 8

def execBr (t : ThreadId) (f : TFields) (s : State) : Host.Outcome State Fault Refusal :=
  answer s (instr t (.br t f) (f.d == 0 && condOk f.v && f.c == 0) true [f.a.toNat, f.b.toNat] 0
    (fun th s =>
      if cond f.v.toNat (gReg th f.a.toNat) (gReg th f.b.toNat) then jumpTo t (target th f) id s
      else retire t Thread.next s) s)

def execJmp (t : ThreadId) (f : TFields) (s : State) : Host.Outcome State Fault Refusal :=
  answer s (instr t (.jmp t f) (f.d == 0 && onlyDI f) true [] 0 (fun th s => jumpTo t (target th f) id s) s)

def execCall (t : ThreadId) (f : TFields) (s : State) : Host.Outcome State Fault Refusal :=
  answer s (instr t (.call t f) (onlyDI f) true [f.d.toNat] 0
    (fun th s => jumpTo t (target th f) (fun x => x.setG f.d.toNat (linkPc th)) s) s)

/-- JR: t is computed from the old ga, and must be 8-byte aligned. -/
def execJr (t : ThreadId) (f : TFields) (s : State) : Host.Outcome State Fault Refusal :=
  answer s (instr t (.jr t f) (f.b == 0 && noVC f) true [f.d.toNat, f.a.toNat] 0
    (fun th s =>
      let n := effAddr th f
      if n.toNat % 8 ≠ 0 then raise t 0x03 none s
      else jumpTo t n (fun x => x.setG f.d.toNat (linkPc th)) s) s)

/-- LOOP: ga falls by 1; the branch is taken while it is not 0. -/
def execLoop (t : ThreadId) (f : TFields) (s : State) : Host.Outcome State Fault Refusal :=
  answer s (instr t (.loop t f) (f.d == 0 && f.a != 0 && f.b == 0 && noVC f) true [f.a.toNat] 0
    (fun th s =>
      let n := gReg th f.a.toNat - 1
      if n ≠ 0 then jumpTo t (target th f) (fun x => x.setG f.a.toNat n) s
      else retire t (fun x => (x.setG f.a.toNat n).next) s) s)

end Sys2Proof.Machine
end

