-- ==== Sys2Proof/Machine/TroxoMem.lean ====
section
/-! DEFINITION. Loads, stores, atomics and ADDL of a thread (R258 to R262). -/

namespace Sys2Proof.Machine

/-! ## An access -/

/-- The access waits for its translation (R107); `silent`: a fault drops it (R101). -/
def askXl (t : ThreadId) (pva : BitVec 64) (need : Rights) (kind : Nat) (silent : Bool) (s : State) : State :=
  stall t (missInstr t pva need kind silent s)

/-- The checks of R251 steps 3 to 6 for an access at a PVA, and what follows them. -/
def access (t : ThreadId) (pva : BitVec 64) (align : Nat) (need : Rights) (kind : Nat) (devOk : Space → Bool)
    (k : Space → Sa → State → State) (s : State) : State :=
  if pva.toNat % align ≠ 0 then raise t 0x02 none s
  else
    let th := thr s t.val
    let r := reach t.val th.part pva need need kind devOk th.hit s
    match r.1 with
    | .wait => askXl t pva need kind false r.2
    | .fault c i => raiseAny t c i r.2
    | .go x sa => k x sa r.2

/-- A thread's access to CTL or doorbell space that ends in a status: its exception (R250, R431). -/
def devCause (t : ThreadId) (pva : BitVec 64) (sa : Sa) (kind st : Nat) (s : State) : State :=
  if st = stUnavailable then raise t 0x08 none s
  else raise t (0x17 + st) (some (faultInfo t.val pva kind (7 + st) (some sa))) s

/-- Issue an access to memory: outstanding, and in its line's order. -/
def issueLine (t : ThreadId) (x : Space) (sa : Sa) (pva : BitVec 64) (store : Bool) (dest : BitVec 5) (count : Nat)
    (viaRo : Bool) (op : LineOp) (g : Thread → Thread) (s : State) : State :=
  let th := thr s t.val
  let r := issueOut t sa store dest count (pva.setWidth 48) viaRo s
  let s := retire t (fun y => (g y).next) r.2
  settle (enqueue (mkReq s (.thread t r.1) op sa th.part (thrHalf t.val) (x.home t.val)) s)

/-- Issue a store to memory; the instruction that follows it has been fetched before it where it overwrites that one's line (R219;
log entry 127). -/
def issueStore (t : ThreadId) (x : Space) (sa : Sa) (pva : BitVec 64) (mask : BitVec 128) (d : BitVec 1024) (s : State) : State :=
  let r := fetchAhead t sa s
  match r.1 with
  | none => r.2
  | some w =>
    issueLine t x sa pva true 0 0 false (.write mask d) (fun y => { y with ahead := w.map fun i => (y.pc + 8, i) }) r.2

/-! ## Loads (R258) -/

/-- Bytes of an LD or ST, and the sign extension of an LD. -/
def sizeOf (f : TFields) : Nat := 2 ^ (f.v.toNat % 4)
def signedLd (f : TFields) : Bool := f.v.getLsbD 2 && sizeOf f != 8

/-- The register value of n bytes at a bit-0 value. -/
def regOf (n : Nat) (signed : Bool) (v : Nat) : BitVec 64 :=
  (spanRegs (.bytes 0 n signed) (BitVec.ofNat 1024 v)).headD 0

/-- A store of a thread of the core to the line is outstanding (R218). -/
def coreStores (s : State) (k : Nat) (line : Sa) : Bool :=
  (List.range 4).any fun i => (thr s (4 * k + i)).outs.any fun o => o.store && o.line == line

/-- An ADDL of a thread of the core to the line has been accepted and is not applied yet (R207). -/
def coreAdds (s : State) (h : Half) (t : ThreadId) (line : Sa) : Bool :=
  (atuHalf s h).queue.any fun a => a.line == line && a.master == thrMaster s t.val

/-- A load through the constant cache (R218). -/
def constLoad (t : ThreadId) (f : TFields) (x : Space) (sa : Sa) (pva : BitVec 64) (s : State) : State :=
  let k := thrCore t.val
  if coreStores s k (lineOf sa) ∨ coreAdds s (x.home t.val) t (lineOf sa) then stall t s
  else
    match roFind s k .konst sa with
    | some e =>
      let v := regOf (sizeOf f) (signedLd f) (e.data.toNat / 2 ^ (8 * (sa.toNat % 32)))
      retire t (fun y => (y.setG f.d.toNat v).next) (roTouch k .konst sa s)
    | none =>
      let s := cnt 0x04B (some (thrHalf t.val)) (some (thr s t.val).part) 1 s
      issueLine t x sa pva false f.d 1 true
        (.read (.bytes (field sa.toNat 0 7) (sizeOf f) (signedLd f)) (some (coreBit t.val)) false) id s

def execLd (t : ThreadId) (f : TFields) (s : State) : Host.Outcome State Fault Refusal :=
  answer s (instr t (.ld t f) (f.b == 0 && f.c == 0) true [f.d.toNat, f.a.toNat] 0
    (fun th s =>
      let pva := effAddr th f
      let n := sizeOf f
      access t pva n Rights.rd 0 (devOk n false)
        (fun x sa s =>
          if outsFull s t then stall t s
          else if x.isDev then
            let r := devRead (.thread t) th.part x n s
            if r.1 = stOk then retire t (fun y => (y.setG f.d.toNat (regOf n (signedLd f) r.2.1.toNat)).next) r.2.2
            else devCause t pva sa 0 r.1 s
          else if f.v.getLsbD 3 then constLoad t f x sa pva s
          else issueLine t x sa pva false f.d 1 false (.read (.bytes (field sa.toNat 0 7) n (signedLd f)) none false) id s) s) s)

def execSt (t : ThreadId) (f : TFields) (s : State) : Host.Outcome State Fault Refusal :=
  answer s (instr t (.st t f) (f.d == 0 && decide (f.v.toNat < 4) && f.c == 0) true [f.a.toNat, f.b.toNat] 0
    (fun th s =>
      let pva := effAddr th f
      let n := sizeOf f
      let v := gReg th f.b.toNat
      access t pva n Rights.wr 1 (devOk n true)
        (fun x sa s =>
          if outsFull s t then stall t s
          else if x.isDev then
            let r := devWrite th.part x n v s
            if r.1 = stOk then retire t Thread.next r.2 else devCause t pva sa 1 r.1 r.2
          else
            let off := field sa.toNat 0 7
            issueStore t x sa pva (byteMask off n) (BitVec.ofNat 1024 (v.toNat % 2 ^ (8 * n) * 2 ^ (8 * off))) s) s) s)

def execLdl (t : ThreadId) (f : TFields) (s : State) : Host.Outcome State Fault Refusal :=
  answer s (instr t (.ldl t f) (groupOk f.d && f.b == 0 && noVC f) true (f.a.toNat :: groupRegs f.d) 0
    (fun th s =>
      let pva := effAddr th f
      access t pva 128 Rights.rd 0 noDev
        (fun x sa s =>
          if outsFull s t then stall t s
          else issueLine t x sa pva false f.d 16 false (.read .line none false) id s) s) s)

def execStl (t : ThreadId) (f : TFields) (s : State) : Host.Outcome State Fault Refusal :=
  answer s (instr t (.stl t f) (f.d == 0 && groupOk f.b && noVC f) true (f.a.toNat :: groupRegs f.b) 0
    (fun th s =>
      let pva := effAddr th f
      access t pva 128 Rights.wr 1 noDev
        (fun x sa s =>
          if outsFull s t then stall t s
          else issueStore t x sa pva (BitVec.allOnes 128) (groupLine th f.b) s) s) s)

/-! ## Atomics (R261, R269) -/

/-- Issue an atomic at EA on n bytes. -/
def atomic (t : ThreadId) (c : Instr) (f : TFields) (legal : Bool) (k : AtomKind) (wide : Bool) (v cmp : Thread → BitVec 64) (s : State) :
    Host.Outcome State Fault Refusal :=
  answer s (instr t c legal true [f.d.toNat, f.a.toNat, f.b.toNat, f.c.toNat] 0
    (fun th s =>
      let pva := effAddr th f
      access t pva (if wide then 8 else 4) Rights.atom 2 noDev
        (fun x sa s =>
          if outsFull s t then stall t s
          else
            let r := issueOut t sa true f.d 1 (pva.setWidth 48) false s
            let s := retire t Thread.next r.2
            settle (acceptAtom (.thread t r.1) k wide (v th) (cmp th) sa th.part (thrHalf t.val) (x.home t.val)
              (thrMaster s t.val) s)) s) s)

/-- V[0] selects 8 bytes, V[1] a signed comparison where the operation has one. -/
def wideV (f : TFields) : Bool := f.v.getLsbD 0
def signedV (f : TFields) : Bool := f.v.getLsbD 1
def opB (f : TFields) (th : Thread) : BitVec 64 := gReg th f.b.toNat
def opC (f : TFields) (th : Thread) : BitVec 64 := gReg th f.c.toNat
def noOp (_ : Thread) : BitVec 64 := 0

def execAadd (t : ThreadId) (f : TFields) (s : State) : Host.Outcome State Fault Refusal :=
  atomic t (.aadd t f) f (decide (f.v.toNat < 2) && f.c == 0) .add (wideV f) (opB f) noOp s
def execAcas (t : ThreadId) (f : TFields) (s : State) : Host.Outcome State Fault Refusal :=
  atomic t (.acas t f) f (decide (f.v.toNat < 2)) .cas (wideV f) (opB f) (opC f) s
def execAswp (t : ThreadId) (f : TFields) (s : State) : Host.Outcome State Fault Refusal :=
  atomic t (.aswp t f) f (decide (f.v.toNat < 2) && f.c == 0) .swp (wideV f) (opB f) noOp s
def execAmin (t : ThreadId) (f : TFields) (s : State) : Host.Outcome State Fault Refusal :=
  atomic t (.amin t f) f (decide (f.v.toNat < 4) && f.c == 0) (.min (signedV f)) (wideV f) (opB f) noOp s
def execAmax (t : ThreadId) (f : TFields) (s : State) : Host.Outcome State Fault Refusal :=
  atomic t (.amax t f) f (decide (f.v.toNat < 4) && f.c == 0) (.max (signedV f)) (wideV f) (opB f) noOp s

/-- SEMS adds 1 as one 8-byte atomic. -/
def execSems (t : ThreadId) (f : TFields) (s : State) : Host.Outcome State Fault Refusal :=
  atomic t (.sems t f) f (f.b == 0 && noVC f) .add true (fun _ => 1) noOp s

/-! ## ADDL (R262) -/

/-- A tag with its fixed bits right. -/
def tagOk (c : BitVec 64) : Bool := bit c 31 && decide (field c.toNat 13 18 = 0 ∧ c.toNat < 2 ^ 32)

/-- An ADDL that has passed its checks: BADARG for a malformed tag, else its acceptance; a full queue stalls the thread (R183). -/
def addlIssue (t : ThreadId) (f : TFields) (th : Thread) (x : Space) (sa : Sa) (s : State) : State :=
  let tagged : Bool := f.c != 0
  let done (st : Nat) (s : State) : State :=
    settle (retire t (fun y => (if tagged then y.setG f.d.toNat (BitVec.ofNat 64 (troxoStatus st)) else y).next) s)
  if tagged ∧ !tagOk (opC f th) then done stBadarg s
  else
    let tag : BitVec 32 := if tagged then (opC f th).setWidth 32 else 0
    let r := decideAddl f.v tag sa (groupLine th f.b) th.part (thrHalf t.val) (x.home t.val) (thrMaster s t.val) s
    match r.1 with
    | none => stall t r.2
    | some st => done st r.2

def execAddl (t : ThreadId) (f : TFields) (s : State) : Host.Outcome State Fault Refusal :=
  answer s (instr t (.addl t f) (groupOk f.b && (addlWidth f.v.toNat).isSome && (f.c != 0 || f.d == 0)) true
    (f.d.toNat :: f.a.toNat :: f.c.toNat :: groupRegs f.b) 0
    (fun th s =>
      access t (effAddr th f) 128 Rights.atom 2 noDev
        (fun x sa s => if outsFull s t then stall t s else addlIssue t f th x sa s) s) s)

end Sys2Proof.Machine
end

