-- ==== Sys2Proof/Machine/TroxoStream.lean ====
section
/-! DEFINITION. Stream instructions (R237, R240, R263), cache policy and PLOW (R264, R265), CKTAG (R275). -/

namespace Sys2Proof.Machine

/-! ## SMOV (R237, R263) -/

/-- A stream slot that no RUN or FAULTED stream takes. -/
def freeStream (th : Thread) : Option (Fin 2) := if !th.s0.used then some 0 else if !th.s1.used then some 1 else none

/-- A wait that thaws (R242): it starts now. -/
def thawWait (s : State) (th : Thread) (kind : Nat) (tok : Nat) (d : BitVec 5) : Wait :=
  { kind := BitVec.ofNat 3 kind, tok := BitVec.ofNat 3 tok, sa := 0, start := s.clk.time, limit := thawLimit s th, dest := d, pva := 0,
    cond := 0, cmp := 0, eval := none, again := false, desc := 0 }

/-- Start a stream on token k, its status for d; with both slots taken the SMOV waits and keeps its copy of the descriptor. -/
def smovStart (t : ThreadId) (k : Nat) (d : BitVec 5) (desc : BitVec 512) (s : State) : State :=
  let th := thr s t.val
  let st := tokOf th k
  if st = tokRun ∨ st = tokFaulted then raise t 0x06 none s
  else if !descOk s desc then raise t 0x07 none s
  else
    match freeStream th with
    | some i =>
      let x := { Stream.zero with used := true, tok := BitVec.ofNat 3 k, desc := desc }
      retire t (fun y => (((y.setSlot i x).setTok k tokRun).setG d.toNat 0).next) s
    | none => modThr (firstIssue t s) t.val fun y => { y with wait := some { thawWait s th 5 k d with desc := desc }, hit := none, xl := none }

/-- The descriptor is read through the core's descriptor cache. -/
def smovRead (t : ThreadId) (f : TFields) (pva : BitVec 64) (x : Space) (sa : Sa) (s : State) : State :=
  let th := thr s t.val
  let h := x.home t.val
  let g := roGather (.smov t) t .desc th.part [(sa, h), (sa + 32, h)] s
  match g.1 with
  | none => stall t g.2
  | some ds =>
    if ds.any (·.2) then raiseAny t 0x1C (some (faultInfo t.val pva 6 0x0C (some sa))) g.2
    else smovStart t (f.c.toNat % 8) f.d ((ds.getD 1 (0, true)).1 ++ (ds.getD 0 (0, true)).1) g.2

def execSmov (t : ThreadId) (f : TFields) (s : State) : Host.Outcome State Fault Refusal :=
  answer s (instr t (.smov t f) (tokenOk f.c && f.b == 0 && f.v == 0) true [f.d.toNat, f.a.toNat] 5
    (fun th s =>
      match th.wait with
      | some w =>
        -- a SMOV that waits for a slot has its descriptor
        if (freeStream th).isSome then smovStart t w.tok.toNat w.dest w.desc s else s
      | none => access t (effAddr th f) 64 Rights.rd 6 noDev (smovRead t f (effAddr th f)) s) s)

/-! ## SWAIT, SPOLL, SRESUME, SCANCEL (R240, R263) -/

/-- Only D and a token are used. -/
def tokenOnly (f : TFields) : Bool := tokenOk f.c && f.a == 0 && f.b == 0 && f.v == 0 && f.imm == 0

/-- The token a word names. -/
def tokenNo (f : TFields) : Nat := f.c.toNat % 8

/-- Complete with a status and LINE. -/
def streamStatus (t : ThreadId) (f : TFields) (st : Nat) (hi : BitVec 32) (g : Thread → Thread) (s : State) : State :=
  retire t (fun y => ((g y).setG f.d.toNat (statusWord st hi)).next) s

/-- SWAIT completes at once unless its token is RUN. -/
def execSwait (t : ThreadId) (f : TFields) (s : State) : Host.Outcome State Fault Refusal :=
  answer s (instr t (.swait t f) (tokenOnly f) true [f.d.toNat] 0
    (fun th s => swaitCheck t (modThr (firstIssue t s) t.val fun y => { y with wait := some (thawWait s th 1 (tokenNo f) f.d) })) s)

def execSpoll (t : ThreadId) (f : TFields) (s : State) : Host.Outcome State Fault Refusal :=
  answer s (instr t (.spoll t f) (tokenOnly f) true [f.d.toNat] 0
    (fun th s =>
      let k := tokenNo f
      let st := tokOf th k
      if st = tokRun then streamStatus t f 11 (tokLine th k) id s
      else if st = tokDone then streamStatus t f 0 (tokLine th k) (fun y => y.setTok k tokIdle) s
      else if st = tokFaulted then streamStatus t f 9 (tokLine th k) id s
      else streamStatus t f 10 0 id s) s)

def execSresume (t : ThreadId) (f : TFields) (s : State) : Host.Outcome State Fault Refusal :=
  answer s (instr t (.sresume t f) (tokenOnly f) true [f.d.toNat] 0
    (fun th s =>
      let k := tokenNo f
      if tokOf th k = tokFaulted then streamStatus t f 0 0 (fun y => y.setTok k tokRun) s else streamStatus t f 5 0 id s) s)

/-- SCANCEL: no unit starts any more; once none is in flight the token is IDLE. -/
def execScancel (t : ThreadId) (f : TFields) (s : State) : Host.Outcome State Fault Refusal :=
  answer s (instr t (.scancel t f) (tokenOnly f) true [f.d.toNat] 0
    (fun th s =>
      let k := tokenNo f
      match slotOfTok th k with
      | some i =>
        if inFlight s t i ∨ (th.slotOf i).stop.isSome then stall t (modThr s t.val fun y => y.setSlot i { y.slotOf i with cancel := true })
        else streamStatus t f 0 (tokLine th k) (fun y => (y.setSlot i Stream.zero).setTok k tokIdle) s
      | none =>
        if tokOf th k = tokDone then streamStatus t f 0 (tokLine th k) (fun y => y.setTok k tokIdle) s
        else streamStatus t f 10 0 id s) s)

/-! ## HINT, MELT, PREF (R264) -/

/-- An access that would fault is dropped (R101); otherwise its effect on memory, none in CTL and doorbell space (R104). -/
def quiet_ (t : ThreadId) (pva : BitVec 64) (k : Space → Sa → State → State) (s : State) : State :=
  let th := thr s t.val
  let r := reach t.val th.part pva Rights.rd Rights.rd 0 noDev th.hit s
  match r.1 with
  | .wait => askXl t pva Rights.rd 0 true r.2
  | .fault _ _ => retire t Thread.next r.2
  | .go x sa => settle (k x sa (retire t Thread.next r.2))

/-- DEMOTE or KEEP, in the line's order; it never waits for the limit of outstanding accesses (R260). -/
def hintLine (keep : Bool) (t : ThreadId) (x : Space) (sa : Sa) (s : State) : State := postLine t (.hint keep) sa (x.home t.val) s

def execHint (t : ThreadId) (f : TFields) (s : State) : Host.Outcome State Fault Refusal :=
  answer s (instr t (.hint t f) (f.d == 0 && f.b == 0 && decide (f.v.toNat < 2) && f.c == 0) true [f.a.toNat] 0
    (fun th s => quiet_ t (effAddr th f) (hintLine (f.v == 1) t) s) s)

/-- Only A and IMM are used. -/
def onlyAI (f : TFields) : Bool := f.d == 0 && f.b == 0 && noVC f

/-- PREF brings a line in while at least 32 miss registers of its half are free. -/
def prefLine (t : ThreadId) (x : Space) (sa : Sa) (s : State) : State :=
  if 224 < mshrCount s (x.home t.val) then s else postLine t .fill sa (x.home t.val) s

def execPref (t : ThreadId) (f : TFields) (s : State) : Host.Outcome State Fault Refusal :=
  answer s (instr t (.pref t f) (onlyAI f) true [f.a.toNat] 0 (fun th s => quiet_ t (effAddr th f) (prefLine t) s) s)

/-- An address of CTL or doorbell space, whatever stands there (R71). -/
def inDev (sa : Sa) : Bool := decide (sa.toNat / 2 ^ 50 = 3)

/-- The page of a MELT lies in CTL or doorbell space: MELT has no effect there and raises nothing (R104). -/
def meltDev (t : ThreadId) (pva : BitVec 64) (s : State) : Bool :=
  inRange pva && match (xlook (thrHalf t.val) (thr s t.val).part pva.toNat Rights.wr (thr s t.val).hit s).1 with
  | none => false
  | some e => inDev (e.target pva.toNat)

/-- MELT is an access of its own, in its line's order. The KIND of its fault records is that of a store (log entry 116). -/
def execMelt (t : ThreadId) (f : TFields) (s : State) : Host.Outcome State Fault Refusal :=
  answer s (instr t (.melt t f) (onlyAI f) true [f.a.toNat] 0
    (fun th s =>
      let pva := effAddr th f
      if meltDev t pva s then (if outsFull s t then stall t s else retire t Thread.next s)
      else
        access t pva 1 Rights.wr 1 noDev
          (fun x sa s => if outsFull s t then stall t s else issueLine t x sa pva false 0 0 false .melt id s) s) s)

/-! ## PLOW (R265) -/

/-- The options in IMM. -/
def plowScope (f : TFields) : BitVec 2 := f.imm.extractLsb' 0 2
def plowRaw (f : TFields) : Bool := bit f.imm 8

/-- A legal word: an OP of R149, no reserved option; with SA = 0 only OP 1 to 5 and SCOPE 0, but scopes 1 and 2 in P mode are a breach
of privilege (log entry 49). -/
def plowLegal (smode : Bool) (f : TFields) : Bool :=
  decide (1 ≤ f.v.toNat ∧ f.v.toNat ≤ 8) && f.c == 0 && decide (f.imm.toNat < 512) &&
    (plowRaw f || (decide (f.v.toNat ≤ 5) && (plowScope f == 0 || (!smode && plowScope f != 3))))

/-- A form that P mode may use. -/
def plowUser (f : TFields) : Bool := !plowRaw f && plowScope f == 0 && decide (f.v.toNat ≤ 5)

/-- Enter the command: OK with its sequence number, or QFULL. -/
def plowIssue (t : ThreadId) (f : TFields) (user : Option Part) (a0 a1 : BitVec 64) (s : State) : State :=
  let c := PlowCmd.mk0 f.v.toNat (plowScope f) (f.imm.extractLsb' 2 5) (Half.ofBool (bit f.imm 7)) a0 a1 user
  let r := plowAccept c s
  streamStatus t f (if r.1 then 0 else 12) (if r.1 then r.2.cch.issued else 0) id r.2

/-- The form with a PVA: translated as a store; the range must lie in the page. -/
def plowPva (t : ThreadId) (f : TFields) (th : Thread) (s : State) : State :=
  let pva := gReg th f.a.toNat
  let n := gReg th f.b.toNat
  if pva.toNat % 4096 ≠ 0 then raise t 0x02 none s
  else if !inRange pva then raise t 0x17 (some (faultInfo t.val pva 1 7 none)) s
  else
    let r := xlook (thrHalf t.val) th.part pva.toNat Rights.wr th.hit s
    match r.1 with
    | none => askXl t pva Rights.wr 1 false r.2
    | some e =>
      let page := 2 ^ pageLog e.size
      if n = 0 ∨ page < pva.toNat % page + n.toNat * 4096 then streamStatus t f 5 0 id r.2
      else plowIssue t f (if sMode th then none else some th.part) ((e.target pva.toNat).setWidth 64) n r.2

/-- The form with SA = 1: a range of no block is refused at once, like one with a PVA. -/
def plowRange (t : ThreadId) (f : TFields) (th : Thread) (s : State) : State :=
  let n := gReg th f.b.toNat
  if f.v.toNat ≤ 5 ∧ plowScope f = 0 ∧ n.toNat % 2 ^ 32 = 0 then streamStatus t f 5 0 id s
  else plowIssue t f none (gReg th f.a.toNat) n s

def execPlow (t : ThreadId) (f : TFields) (s : State) : Host.Outcome State Fault Refusal :=
  answer s (instr t (.plow t f) (plowLegal (sMode (thr s t.val)) f) (sMode (thr s t.val) || plowUser f) [f.d.toNat, f.a.toNat, f.b.toNat] 0
    (fun th s => if plowRaw f then plowRange t f th s else plowPva t f th s) s)

/-! ## CKTAG (R275) -/

/-- Poison in the block: all ones, a record, and containment (R259, R336). -/
def cktagPoison (t : ThreadId) (f : TFields) (pva : BitVec 64) (sa : Sa) (s : State) : State :=
  let th := thr s t.val
  let s := writeFault (faultInfo t.val pva 0 0x0C (some sa)) th.part s
  let c := consume th.part s
  if c.1 then settle c.2 else settle (retire t (fun y => (y.setG f.d.toNat (BitVec.allOnes 64)).next) c.2)

def execCktag (t : ThreadId) (f : TFields) (s : State) : Host.Outcome State Fault Refusal :=
  answer s (instr t (.cktag t f) (f.b == 0 && noVC f) true [f.d.toNat, f.a.toNat] 0
    (fun th s =>
      let pva := effAddr th f
      access t pva 4096 Rights.rd 0 noDev
        (fun x sa s =>
          if outsFull s t then stall t s
          else
            let g := gather (.cktag t) (blockReqs s t (.cktag t) sa (x.home t.val)) s
            match g.1 with
            | none => stall t g.2
            | some xs =>
              if xs.any fun y => y.status != 0 then cktagPoison t f pva sa g.2
              else retire t (fun y => (y.setG f.d.toNat ((tagOf xs).setWidth 64)).next) g.2) s) s)

end Sys2Proof.Machine
end

