-- ==== Sys2Proof/Machine/TroxoSys.lean ====
section
/-! DEFINITION. Buffers, synchronisation and the system instructions of a thread (R253, R254, R266 to R274). -/

namespace Sys2Proof.Machine

/-! ## Buffers (R266, R267) -/

/-- Only D is used. -/
def onlyD (f : TFields) : Bool := onlyDI f && f.imm == 0

/-- No operand is used. -/
def noField (f : TFields) : Bool := f.d == 0 && onlyD f

/-- The half whose allocator a selector names (R162). -/
def allocHalf (sel : Nat) (arrival : Half) : Half := if sel = 0 then .e else if sel = 1 then .w else arrival

/-- BALLOC: RIGHTS, BADARG, then the allocator (R160); its timeout is the partition's, or what a restored task has left. -/
def ballocIssue (t : ThreadId) (f : TFields) (th : Thread) (s : State) : State :=
  let sel := f.v.toNat % 4
  let arrival := thrHalf t.val
  let h := allocHalf sel arrival
  if !mayAct s (allocView s h) th.part none then streamStatus t f 4 0 id s
  else if sel = 3 then streamStatus t f 5 0 id s
  else if unavailable s h arrival then raise t 0x08 none s
  else
    let limit := match th.waitLeft with
      | some x => x.toNat
      | none => thawNs s th.part.toNat
    let s := modThr (countIssue t s) t.val fun y => { y with hit := none, xl := none, wait := none, ahead := none }
    settle (allocate (.thread t f.d.toNat) th.part sel (f.v.getLsbD 2) arrival 0 limit s)

def execBalloc (t : ThreadId) (f : TFields) (s : State) : Host.Outcome State Fault Refusal :=
  answer s (instr t (.balloc t f) (f.a == 0 && f.b == 0 && decide (f.v.toNat < 8) && f.c == 0 && f.imm == 0) true [f.d.toNat] 0
    (ballocIssue t f) s)

/-- BFREE of the block that holds an SA; bits above SA[51] are not looked at (log entry 50). The KIND of its fault
records is 7, other (log entry 116). -/
def bfreeIssue (t : ThreadId) (f : TFields) (th : Thread) (s : State) : State :=
  let a := effAddr th f
  let sa : Sa := a.setWidth 52
  match freeTarget s (pipeView s (thrHalf t.val)) th.part none (thrHalf t.val) sa with
  | .error st =>
    if st = stUnavailable then raise t 0x08 none s
    else raise t (0x17 + st) (some (faultInfo t.val 0 7 (7 + st) (some sa))) s
  | .ok b =>
    let s := modThr (countIssue t s) t.val fun y => { y with hit := none, xl := none, wait := none, ahead := none }
    let s := freeBlock (some (.thread t f.d.toNat, th.part, sa)) th.part b s
    settle (if freePending s t then stall t s else s)

def execBfree (t : ThreadId) (f : TFields) (s : State) : Host.Outcome State Fault Refusal :=
  answer s (instr t (.bfree t f) (f.b == 0 && noVC f) true [f.d.toNat, f.a.toNat] 0 (bfreeIssue t f) s)

/-! ## Synchronisation (R208, R220, R268 to R271) -/

/-- FENCE and IFENCE complete once nothing is outstanding. -/
def fence (t : ThreadId) (s : State) : State :=
  if (thr s t.val).outs.isEmpty then retire t Thread.next s else stall t s

def execFence (t : ThreadId) (f : TFields) (s : State) : Host.Outcome State Fault Refusal :=
  answer s (instr t (.fence t f) (noField f) true [] 0 (fun _ s => fence t s) s)

/-- An instruction is fetched when it executes, so there is nothing fetched and not executed to discard (R220). -/
def execIfence (t : ThreadId) (f : TFields) (s : State) : Host.Outcome State Fault Refusal :=
  answer s (instr t (.ifence t f) (noField f) true [] 0 (fun _ s => fence t s) s)

/-- Begin a wait on memory, until cond(c, value, cmp) holds, and evaluate it for the first time (R271). -/
def memWait (t : ThreadId) (f : TFields) (kind : Nat) (pva : BitVec 64) (c : BitVec 4) (cmp : BitVec 64) (x : Space) (sa : Sa) (s : State) : State :=
  let th := thr s t.val
  let w : Wait := { thawWait s th kind 0 f.d with sa := sa, pva := pva.setWidth 48, cond := c, cmp := cmp }
  if outsFull s t then stall t s
  else settle (issueEval t x w (modThr s t.val fun y => { y with hit := none, xl := none }))

def execSemw (t : ThreadId) (f : TFields) (s : State) : Host.Outcome State Fault Refusal :=
  answer s (instr t (.semw t f) (f.b == 0 && noVC f) true [f.d.toNat, f.a.toNat] 0
    (fun th s => access t (effAddr th f) 8 Rights.atom 2 noDev (memWait t f 2 (effAddr th f) 1 0) s) s)

def execWaitt (t : ThreadId) (f : TFields) (s : State) : Host.Outcome State Fault Refusal :=
  answer s (instr t (.waitt t f) (condOk f.v && f.c == 0) true [f.d.toNat, f.a.toNat, f.b.toNat] 0
    (fun th s => access t (effAddr th f) 8 Rights.rd 0 noDev (memWait t f 3 (effAddr th f) f.v (opB f th)) s) s)

/-! ## CSRs (R253, R254) -/

/-- A listed index. -/
def csrListed (n : Nat) : Bool := decide (n ≤ 4) || n == 6 || n == 7

/-- The epoch number in force at a core (R314). -/
def coreEpoch (s : State) (k : Nat) : BitVec 32 := if s.glb.lag.getLsbD (8 + k) then s.glb.epoch - 1 else s.glb.epoch

/-- TH_TASK. -/
def thTask (t : ThreadId) (th : Thread) : BitVec 64 :=
  pack 64 [(0, th.queue.toNat), (7, th.slot.toNat), (13, b2n th.slotV), (14, th.prio.toNat), (16, th.part.toNat), (21, t.val),
           (28, b2n (sMode th))]

/-- The whole CSR. -/
def csrValue (s : State) (t : ThreadId) (th : Thread) (n : Nat) : BitVec 64 :=
  if n = 0 then thTask t th
  else if n = 1 then BitVec.ofNat 64 (b2n th.precise)
  else if n = 2 then th.thaw.setWidth 64
  else if n = 3 then th.toks.setWidth 64
  else if n = 4 then s.clk.time
  else if n = 6 then (coreEpoch s (thrCore t.val)).setWidth 64
  else s.cch.done.setWidth 64

/-- Apply a write: TH_MODE and TH_THAW have RW fields, the others ignore it (R14, R253). -/
def csrApply (n : Nat) (v : BitVec 64) (th : Thread) : Thread :=
  if n = 1 then { th with precise := bit v 0 } else if n = 2 then { th with thaw := v.extractLsb' 0 24 } else th

/-- IMM[31:12] is reserved. -/
def csrImmOk (f : TFields) : Bool := decide (f.imm.toNat < 4096)

def execCsrr (t : ThreadId) (f : TFields) (s : State) : Host.Outcome State Fault Refusal :=
  answer s (instr t (.csrr t f) (f.a == 0 && f.b == 0 && noVC f && csrImmOk f) true [f.d.toNat] 0
    (fun th s =>
      if !csrListed f.imm.toNat then raise t 0x05 none s
      else retire t (fun y => (y.setG f.d.toNat (csrValue s t th f.imm.toNat)).next) s) s)

def execCsrw (t : ThreadId) (f : TFields) (s : State) : Host.Outcome State Fault Refusal :=
  answer s (instr t (.csrw t f) (onlyAI f && csrImmOk f) true [f.a.toNat] 0
    (fun th s =>
      if !csrListed f.imm.toNat then raise t 0x05 none s
      else retire t (fun y => (csrApply f.imm.toNat (gReg th f.a.toNat) y).next) s) s)

/-! ## EPOCH, TRAP, YIELD, HALT (R225, R232, R233, R273, R274) -/

/-- EPOCH is S only: OK with the new epoch number, or BUSY. -/
def execEpoch (t : ThreadId) (f : TFields) (s : State) : Host.Outcome State Fault Refusal :=
  answer s (instr t (.epoch t f) (onlyD f) (sMode (thr s t.val)) [f.d.toNat] 0
    (fun _ s =>
      let r := epochAdvance s
      if r.1 = 0 then streamStatus t f 0 r.2.glb.epoch id r.2 else streamStatus t f 13 0 id r.2) s)

/-- TRAP parks the task with KIND 2, its pc after the TRAP. -/
def execTrap (t : ThreadId) (f : TFields) (s : State) : Host.Outcome State Fault Refusal :=
  answer s (instr t (.trap t f) (noField f) true [] 0 (fun _ s => settle (stopThread t 2 0x04 (retire t Thread.next s))) s)

/-- YIELD: saved with KIND 3 when a candidate of equal or higher priority waits and a slot is free, else BUSY. -/
def execYield (t : ThreadId) (f : TFields) (s : State) : Host.Outcome State Fault Refusal :=
  answer s (instr t (.yield t f) (onlyD f) true [f.d.toNat] 0
    (fun th s =>
      let s := countIssue t s
      let waits : Bool := (candidates s (thrHalf t.val)).any fun c => decide (th.prio.toNat ≤ c.1)
      let go (st : Nat) (s : State) : State :=
        modThr s t.val fun y => { (y.setG f.d.toNat (BitVec.ofNat 64 st)).next with wait := none, waitLeft := none, hit := none, xl := none, ahead := none }
      match freeSlot s th.part.toNat with
      | some k =>
        if waits then
          stopThread t 3 0 (modThr (takeSlot th.part.toNat k (go 0 s)) t.val fun y => { y with held := some (BitVec.ofNat 6 k) })
        else go 13 s
      | none => go 13 s) s)

/-- HALT waits in hardware for every access and stream, then ends the task. -/
def execHalt (t : ThreadId) (f : TFields) (s : State) : Host.Outcome State Fault Refusal :=
  answer s (instr t (.halt t f) (noField f) true [] 0 (fun _ s => settle (haltCheck t (retire t id s |> fun u => modThr u t.val fun y => { y with phase := .halting, wait := some (hardWait u) }))) s)

end Sys2Proof.Machine
end

