-- ==== Sys2Proof/Machine/Dispatch.lean ====
section
/-! DEFINITION. The dispatch: one arm per command, each a direct call of its meaning. -/

namespace Sys2Proof.Machine

/-- The effect of a command on everything but the queue. -/
def exec (i : Instr) (s : State) : Host.Outcome State Fault Refusal :=
  match i with
  | .add t f => Sys2Proof.Machine.execAdd t f s
  | .sub t f => Sys2Proof.Machine.execSub t f s
  | .mul t f => Sys2Proof.Machine.execMul t f s
  | .div t f => Sys2Proof.Machine.execDiv t f s
  | .rem t f => Sys2Proof.Machine.execRem t f s
  | .and_ t f => Sys2Proof.Machine.execAnd t f s
  | .or_ t f => Sys2Proof.Machine.execOr t f s
  | .xor t f => Sys2Proof.Machine.execXor t f s
  | .shl t f => Sys2Proof.Machine.execShl t f s
  | .shr t f => Sys2Proof.Machine.execShr t f s
  | .sar t f => Sys2Proof.Machine.execSar t f s
  | .set_ t f => Sys2Proof.Machine.execSet t f s
  | .lih t f => Sys2Proof.Machine.execLih t f s
  | .addpc t f => Sys2Proof.Machine.execAddpc t f s
  | .br t f => Sys2Proof.Machine.execBr t f s
  | .jmp t f => Sys2Proof.Machine.execJmp t f s
  | .call t f => Sys2Proof.Machine.execCall t f s
  | .jr t f => Sys2Proof.Machine.execJr t f s
  | .loop t f => Sys2Proof.Machine.execLoop t f s
  | .ld t f => Sys2Proof.Machine.execLd t f s
  | .st t f => Sys2Proof.Machine.execSt t f s
  | .ldl t f => Sys2Proof.Machine.execLdl t f s
  | .stl t f => Sys2Proof.Machine.execStl t f s
  | .aadd t f => Sys2Proof.Machine.execAadd t f s
  | .acas t f => Sys2Proof.Machine.execAcas t f s
  | .aswp t f => Sys2Proof.Machine.execAswp t f s
  | .amin t f => Sys2Proof.Machine.execAmin t f s
  | .amax t f => Sys2Proof.Machine.execAmax t f s
  | .addl t f => Sys2Proof.Machine.execAddl t f s
  | .smov t f => Sys2Proof.Machine.execSmov t f s
  | .swait t f => Sys2Proof.Machine.execSwait t f s
  | .spoll t f => Sys2Proof.Machine.execSpoll t f s
  | .sresume t f => Sys2Proof.Machine.execSresume t f s
  | .scancel t f => Sys2Proof.Machine.execScancel t f s
  | .hint t f => Sys2Proof.Machine.execHint t f s
  | .melt t f => Sys2Proof.Machine.execMelt t f s
  | .pref t f => Sys2Proof.Machine.execPref t f s
  | .plow t f => Sys2Proof.Machine.execPlow t f s
  | .balloc t f => Sys2Proof.Machine.execBalloc t f s
  | .bfree t f => Sys2Proof.Machine.execBfree t f s
  | .fence t f => Sys2Proof.Machine.execFence t f s
  | .ifence t f => Sys2Proof.Machine.execIfence t f s
  | .sems t f => Sys2Proof.Machine.execSems t f s
  | .semw t f => Sys2Proof.Machine.execSemw t f s
  | .waitt t f => Sys2Proof.Machine.execWaitt t f s
  | .csrr t f => Sys2Proof.Machine.execCsrr t f s
  | .csrw t f => Sys2Proof.Machine.execCsrw t f s
  | .epoch t f => Sys2Proof.Machine.execEpoch t f s
  | .trap t f => Sys2Proof.Machine.execTrap t f s
  | .yield t f => Sys2Proof.Machine.execYield t f s
  | .halt t f => Sys2Proof.Machine.execHalt t f s
  | .cktag t f => Sys2Proof.Machine.execCktag t f s
  | .threadAccessComplete t k => Sys2Proof.Machine.execThreadAccessComplete t k s
  | .thaw t => Sys2Proof.Machine.execThaw t s
  | .waitReevaluate t => Sys2Proof.Machine.execWaitReevaluate t s
  | .streamUnitComplete t slot unit => Sys2Proof.Machine.execStreamUnitComplete t slot unit s
  | .translationMiss t src => Sys2Proof.Machine.execTranslationMiss t src s
  | .walkTableRead h k => Sys2Proof.Machine.execWalkTableRead h k s
  | .xltInv part v => Sys2Proof.Machine.execXltInv part v s
  | .xltInvComplete => Sys2Proof.Machine.execXltInvComplete s
  | .doorbellTail part q v => Sys2Proof.Machine.execDoorbellTail part q v s
  | .doorbellResume part p slot => Sys2Proof.Machine.execDoorbellResume part p slot s
  | .doorbellDiscard part p slot => Sys2Proof.Machine.execDoorbellDiscard part p slot s
  | .tqCtlWrite q v => Sys2Proof.Machine.execTqCtlWrite q v s
  | .dispatch h k => Sys2Proof.Machine.execDispatch h k s
  | .descriptorFetch t => Sys2Proof.Machine.execDescriptorFetch t s
  | .saveRecordDone t => Sys2Proof.Machine.execSaveRecordDone t s
  | .restore t => Sys2Proof.Machine.execRestore t s
  | .rds m melt => Sys2Proof.Machine.execRds m melt s
  | .rdl m melt => Sys2Proof.Machine.execRdl m melt s
  | .rdro m line melt => Sys2Proof.Machine.execRdro m line melt s
  | .wrs m data => Sys2Proof.Machine.execWrs m data s
  | .wrm m mask data => Sys2Proof.Machine.execWrm m mask data s
  | .wrl m data => Sys2Proof.Machine.execWrl m data s
  | .wrb m chk ctag data => Sys2Proof.Machine.execWrb m chk ctag data s
  | .linkAadd m wide v => Sys2Proof.Machine.execLinkAadd m wide v s
  | .linkAcas m wide v cmp => Sys2Proof.Machine.execLinkAcas m wide v cmp s
  | .linkAswp m wide v => Sys2Proof.Machine.execLinkAswp m wide v s
  | .linkAmin m wide signed v => Sys2Proof.Machine.execLinkAmin m wide signed v s
  | .linkAmax m wide signed v => Sys2Proof.Machine.execLinkAmax m wide signed v s
  | .linkAddl m fmt atag data => Sys2Proof.Machine.execLinkAddl m fmt atag data s
  | .alloc m sel wait => Sys2Proof.Machine.execAlloc m sel wait s
  | .free m => Sys2Proof.Machine.execFree m s
  | .invAck port tag sa => Sys2Proof.Machine.execInvAck port tag sa s
  | .replicaInstall h => Sys2Proof.Machine.execReplicaInstall h s
  | .replicaDropNotice h => Sys2Proof.Machine.execReplicaDropNotice h s
  | .replicaInvalidate h => Sys2Proof.Machine.execReplicaInvalidate h s
  | .linkcfg n cfg => Sys2Proof.Machine.execLinkcfg n cfg s
  | .ping n => Sys2Proof.Machine.execPing n s
  | .pong n => Sys2Proof.Machine.execPong n s
  | .pingSend n => Sys2Proof.Machine.execPingSend n s
  | .pingTimeout n => Sys2Proof.Machine.execPingTimeout n s
  | .filld f tag sa status poison mask crc data => Sys2Proof.Machine.execFilld f tag sa status poison mask crc data s
  | .wack f tag sa status => Sys2Proof.Machine.execWack f tag sa status s
  | .accept f tag sa => Sys2Proof.Machine.execAccept f tag sa s
  | .decline f tag sa => Sys2Proof.Machine.execDecline f tag sa s
  | .offerTimeout h tag => Sys2Proof.Machine.execOfferTimeout h tag s
  | .serr f tag sa lines etype => Sys2Proof.Machine.execSerr f tag sa lines etype s
  | .shelfResponseTimeout f tag => Sys2Proof.Machine.execShelfResponseTimeout f tag s
  | .blockReceived n good corrected bseq flits => Sys2Proof.Machine.execBlockReceived n good corrected bseq flits s
  | .ack n seq cred => Sys2Proof.Machine.execAck n seq cred s
  | .nak n seq cred => Sys2Proof.Machine.execNak n seq cred s
  | .ackSendTimer n => Sys2Proof.Machine.execAckSendTimer n s
  | .replayTimeout n => Sys2Proof.Machine.execReplayTimeout n s
  | .recalReq n => Sys2Proof.Machine.execRecalReq n s
  | .spareSwitch n lane spare block => Sys2Proof.Machine.execSpareSwitch n lane spare block s
  | .spareMarginTimeout n => Sys2Proof.Machine.execSpareMarginTimeout n s
  | .signalDetect n => Sys2Proof.Machine.execSignalDetect n s
  | .trainDone r => Sys2Proof.Machine.execTrainDone r s
  | .trainTimeout n => Sys2Proof.Machine.execTrainTimeout n s
  | .configTimeout n => Sys2Proof.Machine.execConfigTimeout n s
  | .recalDone n => Sys2Proof.Machine.execRecalDone n s
  | .recalTimeout n => Sys2Proof.Machine.execRecalTimeout n s
  | .noValidBlockTimeout n => Sys2Proof.Machine.execNoValidBlockTimeout n s
  | .downQuietEnd n => Sys2Proof.Machine.execDownQuietEnd n s
  | .invTimeout port => Sys2Proof.Machine.execInvTimeout port s
  | .sharerClearDone k => Sys2Proof.Machine.execSharerClearDone k s
  | .pptRecal n => Sys2Proof.Machine.execPptRecal n s
  | .pptForceDown n => Sys2Proof.Machine.execPptForceDown n s
  | .pptSpare n lane => Sys2Proof.Machine.execPptSpare n lane s
  | .pllLock => Sys2Proof.Machine.execPllLock s
  | .pllLockLoss => Sys2Proof.Machine.execPllLockLoss s
  | .xtalFail => Sys2Proof.Machine.execXtalFail s
  | .loopTimeLowRead r => Sys2Proof.Machine.execLoopTimeLowRead r s
  | .loopTimeHighRead r => Sys2Proof.Machine.execLoopTimeHighRead r s
  | .lrsEvaluate h seqR tagR dataR linkR => Sys2Proof.Machine.execLrsEvaluate h seqR tagR dataR linkR s
  | .avsReadback h r => Sys2Proof.Machine.execAvsReadback h r s
  | .eqLoopEvaluate pool n lane taps dfeEnd code => Sys2Proof.Machine.execEqLoopEvaluate pool n lane taps dfeEnd code s
  | .scrubLoopEvaluate h => Sys2Proof.Machine.execScrubLoopEvaluate h s
  | .refrLoopEvaluate h => Sys2Proof.Machine.execRefrLoopEvaluate h s
  | .prefLoopEvaluate h => Sys2Proof.Machine.execPrefLoopEvaluate h s
  | .slotLoopEvaluate h => Sys2Proof.Machine.execSlotLoopEvaluate h s
  | .driftLoopEvaluate h => Sys2Proof.Machine.execDriftLoopEvaluate h s
  | .sensorResult n temp => Sys2Proof.Machine.execSensorResult n temp s
  | .windowEnd => Sys2Proof.Machine.execWindowEnd s
  | .arrayGrant h ready unreg plow => Sys2Proof.Machine.execArrayGrant h ready unreg plow s
  | .epochAdvance => Sys2Proof.Machine.execEpochAdvance s
  | .unitEpochSwitch u => Sys2Proof.Machine.execUnitEpochSwitch u s
  | .clean scope part => Sys2Proof.Machine.execClean scope part s
  | .invalidate scope part => Sys2Proof.Machine.execInvalidate scope part s
  | .flush scope part => Sys2Proof.Machine.execFlush scope part s
  | .demote scope part => Sys2Proof.Machine.execDemote scope part s
  | .meltRange scope part => Sys2Proof.Machine.execMeltRange scope part s
  | .regroupEntry h => Sys2Proof.Machine.execRegroupEntry h s
  | .regroupOwner h => Sys2Proof.Machine.execRegroupOwner h s
  | .regroupRegion => Sys2Proof.Machine.execRegroupRegion s
  | .plowLineStep h key => Sys2Proof.Machine.execPlowLineStep h key s
  | .plowCommandDone => Sys2Proof.Machine.execPlowCommandDone s
  | .regionConversionDone r => Sys2Proof.Machine.execRegionConversionDone r s
  | .addlApply h k => Sys2Proof.Machine.execAddlApply h k s
  | .atomicPerform h k => Sys2Proof.Machine.execAtomicPerform h k s
  | .ordTimeout n => Sys2Proof.Machine.execOrdTimeout n s
  | .ordCtlWrite n v => Sys2Proof.Machine.execOrdCtlWrite n v s
  | .scrubDone b => Sys2Proof.Machine.execScrubDone b s
  | .allocWaiterThaw h k => Sys2Proof.Machine.execAllocWaiterThaw h k s
  | .bufRelease part => Sys2Proof.Machine.execBufRelease part s
  | .drain r on => Sys2Proof.Machine.execDrain r on s
  | .patrolStep h => Sys2Proof.Machine.execPatrolStep h s
  | .refresh die => Sys2Proof.Machine.execRefresh die s
  | .errorInjectArm v => Sys2Proof.Machine.execErrorInjectArm v s
  | .intPrstGo part => Sys2Proof.Machine.execIntPrstGo part s
  | .partitionReset => Sys2Proof.Machine.execPartitionReset s
  | .partitionResetDone => Sys2Proof.Machine.execPartitionResetDone s
  | .idleStep h t => Sys2Proof.Machine.execIdleStep h t s
  | .forcedStep h t => Sys2Proof.Machine.execForcedStep h t s
  | .testStepDone h t sig lane => Sys2Proof.Machine.execTestStepDone h t sig lane s
  | .coreSwapIn h crcOk => Sys2Proof.Machine.execCoreSwapIn h crcOk s
  | .tstSwap h t => Sys2Proof.Machine.execTstSwap h t s
  | .tstPackLoad => Sys2Proof.Machine.execTstPackLoad s
  | .packLoadDone => Sys2Proof.Machine.execPackLoadDone s
  | .tstCalveGo die bank => Sys2Proof.Machine.execTstCalveGo die bank s
  | .calveRowCopy die verified => Sys2Proof.Machine.execCalveRowCopy die verified s
  | .regionRetire die bank => Sys2Proof.Machine.execRegionRetire die bank s
  | .repairRecordProgram ok => Sys2Proof.Machine.execRepairRecordProgram ok s
  | .ageMeasure n degr => Sys2Proof.Machine.execAgeMeasure n degr s
  | .pwrgoodDeassert => Sys2Proof.Machine.execPwrgoodDeassert s
  | .vaonPowerOn => Sys2Proof.Machine.execVaonPowerOn s
  | .resetNAssert => Sys2Proof.Machine.execResetNAssert s
  | .resetNDeassert sid bootSel => Sys2Proof.Machine.execResetNDeassert sid bootSel s
  | .pwrRstWarm v => Sys2Proof.Machine.execPwrRstWarm v s
  | .warmReset => Sys2Proof.Machine.execWarmReset s
  | .warmDrainDone => Sys2Proof.Machine.execWarmDrainDone s
  | .drainTmo => Sys2Proof.Machine.execDrainTmo s
  | .fatalReset structure_ entry => Sys2Proof.Machine.execFatalReset structure_ entry s
  | .coldReset => Sys2Proof.Machine.execColdReset s
  | .domainOn d force gen => Sys2Proof.Machine.execDomainOn d force gen s
  | .domainOff d force gen => Sys2Proof.Machine.execDomainOff d force gen s
  | .domainDrainEnd => Sys2Proof.Machine.execDomainDrainEnd s
  | .domainOnDone => Sys2Proof.Machine.execDomainOnDone s
  | .arrayRestoreDone die => Sys2Proof.Machine.execArrayRestoreDone die s
  | .arraySweepDone => Sys2Proof.Machine.execArraySweepDone s
  | .unitPortDisable u gen => Sys2Proof.Machine.execUnitPortDisable u gen s
  | .unitPortEnable u gen => Sys2Proof.Machine.execUnitPortEnable u gen s
  | .unitRecal u gen => Sys2Proof.Machine.execUnitRecal u gen s
  | .unitForceDown u gen => Sys2Proof.Machine.execUnitForceDown u gen s
  | .unitFail u gen => Sys2Proof.Machine.execUnitFail u gen s
  | .flashDiscovery f => Sys2Proof.Machine.execFlashDiscovery f s
  | .pllWaitTimeout => Sys2Proof.Machine.execPllWaitTimeout s
  | .imageReadDone slot => Sys2Proof.Machine.execImageReadDone slot s
  | .bootApply => Sys2Proof.Machine.execBootApply s
  | .supervisorStart => Sys2Proof.Machine.execSupervisorStart s
  | .uartCharReceived ch parityBad stopLow => Sys2Proof.Machine.execUartCharReceived ch parityBad stopLow s
  | .uartIdle => Sys2Proof.Machine.execUartIdle s
  | .uartBreak => Sys2Proof.Machine.execUartBreak s
  | .uartCharTransmitted => Sys2Proof.Machine.execUartCharTransmitted s
  | .uartDataWrite v => Sys2Proof.Machine.execUartDataWrite v s
  | .uartDataRead => Sys2Proof.Machine.execUartDataRead s
  | .svetFrameTimeout => Sys2Proof.Machine.execSvetFrameTimeout s
  | .svetId => Sys2Proof.Machine.execSvetId s
  | .svetRd arg => Sys2Proof.Machine.execSvetRd arg s
  | .svetWr arg v => Sys2Proof.Machine.execSvetWr arg v s
  | .svetState u => Sys2Proof.Machine.execSvetState u s
  | .svetUnit u op gen => Sys2Proof.Machine.execSvetUnit u op gen s
  | .svetDom d flags gen => Sys2Proof.Machine.execSvetDom d flags gen s
  | .svetEpoch => Sys2Proof.Machine.execSvetEpoch s
  | .svetReset key => Sys2Proof.Machine.execSvetReset key s
  | .svetLog k => Sys2Proof.Machine.execSvetLog k s
  | .svetLogack head => Sys2Proof.Machine.execSvetLogack head s
  | .svetCntRead first n => Sys2Proof.Machine.execSvetCntRead first n s
  | .svetCntReadSnapshot first n => Sys2Proof.Machine.execSvetCntReadSnapshot first n s
  | .svetCntSnapshot first n => Sys2Proof.Machine.execSvetCntSnapshot first n s
  | .svetCntReset first n => Sys2Proof.Machine.execSvetCntReset first n s
  | .svetCntSnapshotReset first n => Sys2Proof.Machine.execSvetCntSnapshotReset first n s
  | .mbput data => Sys2Proof.Machine.execMbput data s
  | .mbget => Sys2Proof.Machine.execMbget s
  | .flrd off len => Sys2Proof.Machine.execFlrd off len s
  | .fler off count ok => Sys2Proof.Machine.execFler off count ok s
  | .flpr off data ok => Sys2Proof.Machine.execFlpr off data ok s
  | .svetBoot => Sys2Proof.Machine.execSvetBoot s
  | .reperase key ok => Sys2Proof.Machine.execReperase key ok s
  | .bin => Sys2Proof.Machine.execBin s
  | .help => Sys2Proof.Machine.execHelp s
  | .exit => Sys2Proof.Machine.execExit s
  | .mbOutlenWrite v => Sys2Proof.Machine.execMbOutlenWrite v s
  | .smbReadId => Sys2Proof.Machine.execSmbReadId s
  | .smbReadTemp => Sys2Proof.Machine.execSmbReadTemp s
  | .smbReadPower => Sys2Proof.Machine.execSmbReadPower s
  | .smbReadStatus => Sys2Proof.Machine.execSmbReadStatus s
  | .smbReadAlert => Sys2Proof.Machine.execSmbReadAlert s
  | .smbReadSensor n => Sys2Proof.Machine.execSmbReadSensor n s
  | .smbStagingOffset v pecOk => Sys2Proof.Machine.execSmbStagingOffset v pecOk s
  | .smbStageWrite data pecOk => Sys2Proof.Machine.execSmbStageWrite data pecOk s
  | .smbCommit len pecOk => Sys2Proof.Machine.execSmbCommit len pecOk s
  | .smbReadOut => Sys2Proof.Machine.execSmbReadOut s
  | .smbReadMbStatus => Sys2Proof.Machine.execSmbReadMbStatus s
  | .smbClearOutFull pecOk => Sys2Proof.Machine.execSmbClearOutFull pecOk s
  | .alertResponse => Sys2Proof.Machine.execAlertResponse s
  | .smbTimeout => Sys2Proof.Machine.execSmbTimeout s
  | .cntSnap => Sys2Proof.Machine.execCntSnap s
  | .cntReset => Sys2Proof.Machine.execCntReset s
  | .registerWrite r part off wide v => Sys2Proof.Machine.execRegisterWrite r part off wide v s
  | .vaonLoss => Sys2Proof.Machine.execVaonLoss s
  | .mgtCtsNAssert => Sys2Proof.Machine.execMgtCtsNAssert s
  | .replicaSweepDone h => Sys2Proof.Machine.execReplicaSweepDone h s
  | .jtagTckEdge rising trstN tms tdi pins => Sys2Proof.Machine.execJtagTckEdge rising trstN tms tdi pins s

end Sys2Proof.Machine
end

