-- ==== Sys2Proof/WellFormed.lean ====
section
/-! DEFINITION. Well-formed commands: what a message, a block or an event can carry at all. The machine runs an ill-formed
command too, as the rules it breaks say (a frame too long for its class is a framing violation); a well-formed one is what the
outside world can send. -/

namespace Sys2Proof

/-- Bytes 4 to 7 of a 4-byte operand are 0 (R288). -/
def operandZero (wide : Bool) (v : BitVec 64) : Bool := wide || decide (v.toNat < 2 ^ 32)

/-- A good block carries 20 flits (R279); WRB travels in C3 and the three-flit requests not in C0 (R283); a 4-byte atomic's operand
bytes 4 to 7 are 0 (R288); MBPUT and FLPR carry 1 to 256 bytes, a staging write 1 to 32 (R414, R415, R417); an array index
names a line of the 384 regions; a thread has at most 16 accesses outstanding (R214). A STREAM_UNIT_COMPLETE's number is a unit's, or that of
a check tag after the last unit. Of every other command the types of its operands say all there is to say. -/
def Instr.wf (i : Instr) : Bool :=
  match i with
  | .threadAccessComplete _ k => decide (k < 16)
  | .streamUnitComplete _ _ unit => decide (unit < 2 ^ 33)
  | .wrl m _ => m.cls != 0
  | .wrb m _ _ _ => m.cls == 3
  | .linkAadd _ wide v => operandZero wide v
  | .linkAcas _ wide v cmp => operandZero wide v && operandZero wide cmp
  | .linkAswp _ wide v => operandZero wide v
  | .linkAmin _ wide _ v => operandZero wide v
  | .linkAmax _ wide _ v => operandZero wide v
  | .linkAddl m _ _ _ => m.cls != 0
  | .blockReceived _ good _ _ flits => !good || flits.length == 20
  | .plowLineStep _ key => decide (key < 384 * 2 ^ 19)
  | .mbput data => decide (1 ≤ data.length ∧ data.length ≤ 256)
  | .flpr _ data _ => decide (1 ≤ data.length ∧ data.length ≤ 256)
  | .smbStageWrite data _ => decide (1 ≤ data.length ∧ data.length ≤ 32)
  | _ => true

end Sys2Proof
end

