-- ==== Sys2Proof/Safety.lean ====
section
/-! DEFINITION. The terms the claims use: what a state must satisfy for a command to be carried out, and what a command leaves
unchanged. -/

namespace Sys2Proof.Safety

open Sys2Proof.Machine

/-! ## Frames -/

/-- The blocks of the state. The queue and the timebase's count are no part of them: no command but those of restartsTime changes
either (R71). -/
inductive Block where
  | clk | loops | glb | cur | prev | shadow | tables | xlt | cch | cache | buf | atu | seq | links | bwr | integ | log | tst
  | rep | pwr | sense | boot | uart | mgt | mbox | cnt | jtag | freeCtr
  deriving DecidableEq, Repr

/-- A block is the same in two states. -/
def Block.same (b : Block) (s u : State) : Prop :=
  match b with
  | .clk => { u.clk with time := 0 } = { s.clk with time := 0 }
  | .loops => u.loops = s.loops
  | .glb => u.glb = s.glb
  | .cur => u.cur = s.cur
  | .prev => u.prev = s.prev
  | .shadow => u.shadow = s.shadow
  | .tables => u.tables = s.tables
  | .xlt => u.xlt = s.xlt
  | .cch => u.cch = s.cch
  | .cache => u.cache = s.cache
  | .buf => u.buf = s.buf
  | .atu => u.atu = s.atu
  | .seq => u.seq = s.seq
  | .links => u.links = s.links
  | .bwr => u.bwr = s.bwr
  | .integ => u.integ = s.integ
  | .log => u.log = s.log
  | .tst => u.tst = s.tst
  | .rep => u.rep = s.rep
  | .pwr => u.pwr = s.pwr
  | .sense => u.sense = s.sense
  | .boot => u.boot = s.boot
  | .uart => u.uart = s.uart
  | .mgt => u.mgt = s.mgt
  | .mbox => u.mbox = s.mbox
  | .cnt => u.cnt = s.cnt
  | .jtag => u.jtag = s.jtag
  | .freeCtr => u.freeCtr = s.freeCtr

/-- Every block that is not named is the same. -/
def changesOnly (bs : List Block) (s u : State) : Prop := ∀ b : Block, b ∉ bs → b.same s u

/-- Every byte of the array reads the same. -/
def sameBytes (s u : State) : Prop := ∀ a : Nat, memByte u.cache.data a = memByte s.cache.data a

/-- Every byte of the array outside line `key` reads the same. -/
def sameBytesBut (key : Nat) (s u : State) : Prop :=
  ∀ a : Nat, a < 128 * key ∨ 128 * key + 128 ≤ a → memByte u.cache.data a = memByte s.cache.data a

/-! ## A machine with no work waiting in its pipelines -/

/-- No request, miss, invalidation or free waits, and no ADDL waits for room. -/
def calm (s : State) : Bool := quiet s && addlsIdle s && s.buf.frees.isEmpty

/-! ## A thread that executes an instruction -/

/-- Thread t stands at an instruction boundary and may run (R219, R251 step 1), and no register in `regs` waits for an outstanding
access (R214). The state after the fetch is `fetched t s`. -/
def fetched (t : ThreadId) (s : State) : State := (fetch t s).2

abbrev issues (t : ThreadId) (regs : List Nat) (s : State) : Prop :=
  (thr s t.val).phase = .running ∧ warmFenced s = false ∧ coreUp s (thrCore t.val) = true ∧
  corePaused s (thrCore t.val) = false ∧ freePending s t = false ∧ (thr s t.val).xl = none ∧ (thr s t.val).wait = none ∧
  (thr s t.val).raised = none ∧ ∀ r ∈ regs, pendingReg (thr (fetched t s) t.val) r = false

/-- The instruction of thread t whose word its fetch delivers (R245, R248). -/
def fetchedInstr (t : ThreadId) (s : State) : Option Instr :=
  match (fetch t s).1 with
  | .ok w => decodeTroxo t w
  | _ => none

/-- The word that the fetch delivers is that of instruction c. -/
abbrev standsAt (t : ThreadId) (c : Instr) (s : State) : Prop := fetchedInstr t s = some c

/-- The thread's own state after an instruction that sets its registers to those of `th` and its pc: the waits of the instruction are
over, and a restored task's slot is no longer held (R231). -/
def ended (th : Thread) : Thread := { th with wait := none, waitLeft := none, hit := none, xl := none, ahead := none, held := none }

/-- Every other thread is the same. -/
def otherThreads (t : ThreadId) (s u : State) : Prop := ∀ k, k ≠ t.val → thr u k = thr s k

/-- Of the sequencer, only the threads and, for a task that was just restored, the slots of its partition. -/
def seqKept (t : ThreadId) (s u : State) : Prop :=
  u.seq.tq = s.seq.tq ∧ u.seq.ro = s.seq.ro ∧ u.seq.resumeE = s.seq.resumeE ∧ u.seq.resumeW = s.seq.resumeW ∧
  ((thr s t.val).held = none → u.seq.sp = s.seq.sp)

/-- An instruction of thread t has executed: its pc is `pc`, register d holds v (nothing is written for d = 0), every other register
and everything else of the thread is as before, and nothing else changes but counters. -/
def executed (t : ThreadId) (d : Nat) (v : BitVec 64) (pc : Pva) (s u : State) : Prop :=
  (thr u t.val).pc = pc ∧
  (∀ r, gReg (thr u t.val) r = if r = d ∧ d ≠ 0 then v else gReg (thr s t.val) r) ∧
  thr u t.val = ended { thr s t.val with pc := (thr u t.val).pc, g := (thr u t.val).g } ∧
  otherThreads t s u ∧ seqKept t s u ∧ changesOnly [.seq, .cnt, .tst] s u

/-- An instruction that writes no register. -/
def executedOnly (t : ThreadId) (pc : Pva) (s u : State) : Prop := executed t 0 0 pc s u

/-- An instruction of thread t has executed: its thread is now `th`, its waits over, and nothing else changes but counters and the
blocks bs. -/
def becameWith (bs : List Block) (t : ThreadId) (th : Thread) (s u : State) : Prop :=
  thr u t.val = ended th ∧ otherThreads t s u ∧ seqKept t s u ∧ changesOnly ([.seq, .cnt, .tst] ++ bs) s u

def became (t : ThreadId) (th : Thread) (s u : State) : Prop := becameWith [] t th s u

/-- The metadata of the line at index `key` is m; every other line's, and every byte, is as before. -/
def lineMarked (key : Nat) (m : Meta) (s u : State) : Prop :=
  metaAt u key = m ∧ (∀ k, k ≠ key → metaAt u k = metaAt s k) ∧ sameBytes s u

/-! ## A thread's accesses -/

/-- No codeword of the row of `key` is damaged (R321). -/
def rowClean (s : State) (key : Nat) : Bool :=
  s.cache.ecc.all fun e => !decide (4 * (key / 8 * 8) ≤ e.1 ∧ e.1 < 4 * (key / 8 * 8) + 32)

/-- In a calm machine an access by partition p from half `arrival` to the line of sa, homed in `home`, meets its line at array index
`key` with every sector it needs: a pinned line, or a cached line that hits (R122, R123). The half is on, no table that the lookup reads is
damaged, and no uncached access to the line is still with the shelf. -/
def lineHere (s : State) (op : LineOp) (sa : Sa) (p : Part) (arrival home : Half) (key : Nat) : Bool :=
  let r := mkReq s .own op sa p arrival home
  calm s && rowClean s key && domRuns s (home.pick 3 4) && s.tables.damage.isEmpty &&
  (if isBuf sa then key == bufKey sa
   else !uncachedBusy s (lineOf sa) && (replicaRow s r).all (rowClean s) && replicaKey s r == none &&
     (match r.gi with
      | none => false
      | some i => (gtLive s home i).valid && findWay s (setKey home (gtLive s home i).group.toNat (farSet sa)) (farTag sa) == some key &&
          reqSectors op sa &&& ~~~(metaAt s key).sv == 0))

/-- In a calm machine an access by partition p from half `arrival` to the line of sa, of FAR space and homed in `home`, finds no way of the line
(R124). The half is on, no table that the lookup reads is damaged, and no uncached access to the line is still with the shelf. -/
def lineAway (s : State) (op : LineOp) (sa : Sa) (p : Part) (arrival home : Half) : Bool :=
  let r := mkReq s .own op sa p arrival home
  calm s && domRuns s (home.pick 3 4) && s.tables.damage.isEmpty && !isBuf sa && !uncachedBusy s (lineOf sa) && residentOf s r == none &&
  (match r.gi with
    | none => true
    | some i => rowClean s (setKey home (gtLive s home i).group.toNat (farSet sa)))

/-- No copy of the line is held outside its way (R198). -/
def noCopies (s : State) (key : Nat) : Bool := (metaAt s key).sharers == 0 && !(metaAt s key).rheld

/-- An access of thread t at pva passes the checks of R251 steps 3 to 6 and reaches sa in space x; the state after it is
`reached`. -/
abbrev reachesAt (t : ThreadId) (pva : BitVec 64) (align : Nat) (need : Rights) (kind : Nat) (dev : Space → Bool) (x : Space) (sa : Sa)
    (s : State) : Prop :=
  pva.toNat % align = 0 ∧ (reach t.val (thr s t.val).part pva need need kind dev (thr s t.val).hit s).1 = Reach.go x sa

def reached (t : ThreadId) (pva : BitVec 64) (need : Rights) (kind : Nat) (dev : Space → Bool) (s : State) : State :=
  (reach t.val (thr s t.val).part pva need need kind dev (thr s t.val).hit s).2

/-- Every other thread's task is as before, but for the wait that a completed write may wake (R271). -/
def otherTasks (t : ThreadId) (s u : State) : Prop :=
  ∀ k, k ≠ t.val → { thr u k with wait := none } = { thr s k with wait := none }

/-- The outstanding accesses of a thread once o is the youngest: an answer goes to the access of its number. -/
def outsWith (outs : List Outst) (o : Outst) : List Outst :=
  outs.map (fun p => if p.id = o.id then { p with result := o.result.or p.result } else p) ++ [o]

/-- Thread t has issued an access to sa: it goes on at pc + 8 with its registers as before, and `o` is the youngest of its outstanding
accesses (R214). -/
def issued (t : ThreadId) (sa : Sa) (o : Outst) (s u : State) : Prop :=
  (thr u t.val).pc = (thr s t.val).pc + 8 ∧ (∀ r, gReg (thr u t.val) r = gReg (thr s t.val) r) ∧
  (thr u t.val).outs = outsWith (thr s t.val).outs o ∧ o.id = (thr s t.val).nextId ∧ o.line = lineOf sa ∧ otherTasks t s u

/-- The n bytes at offset `off` of a line, as a number (R7). -/
def lineField (s : State) (key off n : Nat) : Nat := memRead s.cache.data (128 * key + off) n

/-- After a store of the n low bytes of v at offset `off` of line `key`, every byte of the array is as before but those n (R7). -/
def bytesStored (key off n v : Nat) (s u : State) : Prop :=
  (∀ i, i < n → memByte u.cache.data (128 * key + off + i) = BitVec.ofNat 8 (v / 256 ^ i)) ∧
  (∀ a, a < 128 * key + off ∨ 128 * key + off + n ≤ a → memByte u.cache.data a = memByte s.cache.data a)

/-! ## Frames on the links -/

/-- Port n's transmitter is idle, and its buffer and its credits let frame f leave at once (R285, R294). -/
def mayLeave (n : Nat) (f : Frame) (s : State) : Bool :=
  let x := link s n
  portActive s n && x.wait.isEmpty && x.buf.isEmpty && bufRoom n x f && decide (frameFlits f ≤ creditOf x.cred f.cls f.invsc)

/-- Port n has been handed frame f: its last flit has left, or the frame stands in the transmit buffer, or its source holds it for want of
room; flits sent before stay in order (R285, R294, R297). Where nothing holds it back, exactly its flits have left. -/
def sends (n : Nat) (f : Frame) (s u : State) : Prop :=
  (∃ sent, (link u n).tx = (link s n).tx ++ sent ∧
    ((f, frameFlits f - 1) ∈ sent ∨ (∃ k, (f, k) ∈ (link u n).buf) ∨ f ∈ (link u n).wait)) ∧
  (mayLeave n f s = true →
    (link u n).tx = (link s n).tx ++ (List.range (frameFlits f)).map (fun k => (f, k)) ∧ (link u n).buf = [] ∧ (link u n).wait = [])

/-- The response to a partner's request (R287, R288): RSP, or RSPD with data; AUX holds the status, and UNTRK. -/
def rsp (m : PHdr) (status : Nat) (untrk : Bool) (data : List Byte) : Frame :=
  { Frame.mk0 (if data.isEmpty then 0x80 else 0x81) m.tag m.part m.sa m.cls with
    aux := BitVec.ofNat 32 (status + (if untrk then 4096 else 0)), data := data }

/-- Port n's registers are x; those of every other port are as before. -/
def portBecomes (n : Nat) (x : Port) (s u : State) : Prop := port u n = x ∧ ∀ k, k ≠ n → port u k = port s k

/-- Port n has gone to state st (R296), which counts as a change of its unit (R420). -/
def portMoves (n : Nat) (st : BitVec 3) (s u : State) : Prop :=
  portBecomes n { port s n with state := st, since := s.clk.time, gen := (port s n).gen + 1 } s u

/-- Port n is DOWN: its transmit buffer is lost (R298), and what a partner's port shared is being cleared (R202). -/
def portIsDown (n : Nat) (s u : State) : Prop :=
  portBecomes n { port s n with state := 6, downEvt := true, degraded := false, since := s.clk.time, gen := (port s n).gen + 1 } s u ∧
  link u n = LinkSt.zero ∧ u.cch.clrBusy = (if n < 6 then setBit s.cch.clrBusy n true else s.cch.clrBusy)

/-- Nothing waits in the pipelines but invalidation o. -/
abbrev onlyInv (o : InvOp) (s : State) : Prop :=
  s.cache.invs = [o] ∧ calm (s.onCache fun c => { c with invs := [] }) = true

/-- Test target t of half h is x; every other target is as before. -/
def targetBecomes (h : Half) (t : Nat) (x : Target) (s u : State) : Prop :=
  tgt u h t = x ∧ ∀ (g : Half) (k : Nat), k < 22 → ¬ (g = h ∧ k = t) → tgt u g k = tgt s g k

/-! ## Answers of the management interfaces -/

/-- Svet has executed a command and answered it (R410, R412); of the management state nothing else has changed. -/
def svetSays (cmd status : BitVec 8) (data : List Byte) (s u : State) : Prop :=
  u.mgt = { s.mgt with cmds := satAdd s.mgt.cmds 1, answers := { cmd := cmd, status := status, data := data } :: s.mgt.answers }

/-- The SMBus target has replied, or has not acknowledged, and nothing else has changed (R417). -/
def smbSays (r : Option (List Byte)) (s u : State) : Prop :=
  u.mgt = { s.mgt with smbReply := r } ∧ changesOnly [.mgt] s u

/-! ## Completion -/

/-- Command c answers a next state with property P. -/
def completesWith (c : Instr) (s : State) (P : State → Prop) : Prop :=
  ∃ u, exec c s = Host.Outcome.next u ∧ P u

/-! ## The timebase -/

/-- The two commands with which the always-on supply comes or goes: the timebase starts again (R37, R376). -/
def restartsTime (c : Instr) : Bool :=
  match c with
  | .vaonPowerOn => true
  | .vaonLoss => true
  | _ => false

/-- The timebase counts by 5 or 40 from 0 (R71): below its wrap it is a multiple of 5. -/
def timeOk (s : State) : Prop := s.clk.time.toNat % 5 = 0

/-- The array's bytes are in canonical form. -/
def arrayOk (s : State) : Prop := Memory.wf s.cache.data = true

end Sys2Proof.Safety
end

