-- ==== Sys2Proof/Certificates/Slice0/Obligations.lean ====
section
/-! DEFINITION. The statements for the provers. -/

open Sys2Proof Sys2Proof.Machine Sys2Proof.Safety

/-! ## The queue and the timebase -/

/-- A step takes the command at the front of the queue and runs it with the queue's rest. -/
def Obligations.StepRunsFront : Prop :=
  ∀ (c : Instr) (rest : List Instr) (s : State),
    step { s with pending := c :: rest } = exec c { s with pending := rest }

/-- On an empty queue the timebase takes one edge (the model's choice, log entry 1): 5 from the PLL, 40 from the crystal, none when
both are dead or the always-on supply is off (R71, R73); only the timebase and the counters change. -/
def Obligations.IdleStepTicks : Prop :=
  ∀ s : State, s.pending = [] →
    ∃ u, step s = Host.Outcome.next u ∧
      u.clk = { s.clk with time := s.clk.time + (if s.pwr.vaon then (if s.clk.pllLock then 5 else if s.clk.xtalOn then 40 else 0) else 0) } ∧
      changesOnly [.clk, .cnt] s u ∧ u.pending = []

/-- The headline: every command, well formed or not, in every state, completes, keeps the queue, and leaves the timebase alone unless
the always-on supply comes or goes, which start it again at 0 (R71); but for a partner's 4-byte atomic whose operand bytes 4 to 7 are not 0 (R288), which
stops with the fault named for it.

Where the manual is silent this rests on the model's own choices: log entry 16. -/
def Obligations.EveryCommandCompletes : Prop :=
  ∀ (c : Instr) (s : State),
    (∃ u, exec c s = Host.Outcome.next u ∧ (restartsTime c = false → u.clk.time = s.clk.time ∧ u.pending = s.pending) ∧
      (restartsTime c = true → s.pwr.vaon = false ∨ c = .vaonLoss → u.clk.time = 0 ∧ u.pending = s.pending)) ∨
    (exec c s = Host.Outcome.fault Fault.breach ∧ c.wf = false ∧
      ((∃ m v, c = .linkAadd m false v) ∨ (∃ m v w, c = .linkAcas m false v w) ∨ (∃ m v, c = .linkAswp m false v) ∨
       (∃ m sg v, c = .linkAmin m false sg v) ∨ (∃ m sg v, c = .linkAmax m false sg v)))

/-- An invariant of every step: the timebase is a multiple of 5, until the edge at which its 64 bits wrap.

Where the manual is silent this rests on the model's own choices: log entry 1. -/
def Obligations.TimebaseInvariant : Prop :=
  ∀ s u : State, timeOk s → s.clk.time.toNat + 40 < 2 ^ 64 → step s = Host.Outcome.next u → timeOk u

/-- An invariant of every step: the array's bytes stay in canonical form.

Where the manual is silent this rests on the model's own choices: log entry 4. -/
def Obligations.ArrayInvariant : Prop :=
  ∀ s u : State, arrayOk s → step s = Host.Outcome.next u → arrayOk u

/-- What reset leaves: D0 alone on, the epoch and the timebase 0, no region, no block owned, every thread free, every port DISABLED, the UART at
921,600 Bd from the PLL, the warning limit at 95 °C, the thaw timeout of 100 µs, nothing queued, and both invariants.

Where the manual is silent this rests on the model's own choices: log entries 4, 12. -/
def Obligations.ResetState : Prop :=
  timeOk State.reset ∧ arrayOk State.reset ∧ State.reset.clk.time = 0 ∧ State.reset.pending = [] ∧ domOn State.reset 0 = true ∧
  (∀ d, 1 ≤ d → d < 16 → domSt State.reset d = 0) ∧ State.reset.glb.epoch = 0 ∧ (∀ r, (region State.reset r).state = 0) ∧
  (∀ h p, used State.reset h p = 0) ∧ (∀ t, (thr State.reset t).phase = .free) ∧ (∀ n, (Machine.port State.reset n).state = 0) ∧
  State.reset.uart.act.div = 109 ∧ State.reset.uart.act.osr = 0 ∧ State.reset.sense.warn = 0x2F8 ∧ (∀ p, thawNs State.reset p = 100000) ∧
  State.reset.pwr.cause = 1

/-! ## Troxo threads: integer and control instructions -/

/-- R255, R247: what the integer instructions compute, for every operand and every pending state outside the fetch; gd alone changes
(g0 stays 0), and the thread goes on at pc + 8. -/
def Obligations.IntegerResults : Prop :=
  ∀ (t : ThreadId) (f : TFields) (s : State), issues t [f.d.toNat, f.a.toNat, f.b.toNat] s →
    let s1 := fetched t s
    let th := thr s1 t.val
    let ga := gReg th f.a.toNat
    let y := gReg th f.b.toNat + f.imm.signExtend 64
    let sh := y.toNat % 64
    let gives (c : Instr) (v : BitVec 64) : Prop := standsAt t c s → completesWith c s (executed t f.d.toNat v (th.pc + 8) s1)
    (f.v = 0 → f.c = 0 →
      gives (.add t f) (ga + y) ∧ gives (.sub t f) (ga - y) ∧ gives (.mul t f) (ga * y) ∧
      gives (.and_ t f) (ga &&& y) ∧ gives (.or_ t f) (ga ||| y) ∧ gives (.xor t f) (ga ^^^ y) ∧
      gives (.shl t f) (ga <<< sh) ∧ gives (.shr t f) (ga >>> sh) ∧ gives (.sar t f) (ga.sshiftRight sh) ∧
      gives (.div t f) (if y = 0 then ~~~0 else if ga = BitVec.intMin 64 ∧ y = -1 then BitVec.intMin 64
                        else BitVec.ofInt 64 (ga.toInt.tdiv y.toInt)) ∧
      gives (.rem t f) (if y = 0 then ga else if ga = BitVec.intMin 64 ∧ y = -1 then 0
                        else BitVec.ofInt 64 (ga.toInt - y.toInt * ga.toInt.tdiv y.toInt)) ∧
      (f.b = 0 → gives (.lih t f) ((f.imm.setWidth 64 <<< 32) ||| (ga &&& 0xFFFFFFFF))) ∧
      (f.a = 0 → f.b = 0 → gives (.addpc t f) (th.pc.setWidth 64 + f.imm.signExtend 64))) ∧
    (f.v.toNat < 6 → f.c = 0 →
      gives (.set_ t f)
        (if (f.v = 0 ∧ ga = y) ∨ (f.v = 1 ∧ ga ≠ y) ∨ (f.v = 2 ∧ ga.toInt < y.toInt) ∨ (f.v = 3 ∧ y.toInt ≤ ga.toInt) ∨
            (f.v = 4 ∧ ga.toNat < y.toNat) ∨ (f.v = 5 ∧ y.toNat ≤ ga.toNat) then 1 else 0))

/-- R257, R256: branches, jumps, calls and LOOP whose new pc lies in the 48-bit range. -/
def Obligations.ControlResults : Prop :=
  ∀ (t : ThreadId) (f : TFields) (s : State), issues t [f.d.toNat, f.a.toNat, f.b.toNat] s →
    let s1 := fetched t s
    let th := thr s1 t.val
    let ga := gReg th f.a.toNat
    let gb := gReg th f.b.toNat
    let target := th.pc.setWidth 64 + 8 * f.imm.signExtend 64
    let ea := ga + f.imm.signExtend 64
    let link := th.pc.setWidth 64 + 8
    let holds : Prop := (f.v = 0 ∧ ga = gb) ∨ (f.v = 1 ∧ ga ≠ gb) ∨ (f.v = 2 ∧ ga.toInt < gb.toInt) ∨
      (f.v = 3 ∧ gb.toInt ≤ ga.toInt) ∨ (f.v = 4 ∧ ga.toNat < gb.toNat) ∨ (f.v = 5 ∧ gb.toNat ≤ ga.toNat)
    let gives (c : Instr) (d : Nat) (v : BitVec 64) (pc : Pva) : Prop := standsAt t c s → completesWith c s (executed t d v pc s1)
    (f.d = 0 → f.v.toNat < 6 → f.c = 0 → ¬ holds → gives (.br t f) 0 0 (th.pc + 8)) ∧
    (f.v = 0 → f.c = 0 → ea.toNat < 2 ^ 48 → ea.toNat % 8 = 0 → f.b = 0 →
      gives (.jr t f) f.d.toNat link (ea.setWidth 48)) ∧
    (f.d = 0 → f.a ≠ 0 → f.b = 0 → f.v = 0 → f.c = 0 → ga = 1 → gives (.loop t f) f.a.toNat 0 (th.pc + 8)) ∧
    (target.toNat < 2 ^ 48 →
      (f.d = 0 → f.v.toNat < 6 → f.c = 0 → holds → gives (.br t f) 0 0 (target.setWidth 48)) ∧
      (f.a = 0 → f.b = 0 → f.v = 0 → f.c = 0 → gives (.call t f) f.d.toNat link (target.setWidth 48) ∧
        (f.d = 0 → gives (.jmp t f) 0 0 (target.setWidth 48))) ∧
      (f.d = 0 → f.a ≠ 0 → f.b = 0 → f.v = 0 → f.c = 0 → ga ≠ 1 →
        gives (.loop t f) f.a.toNat (ga - 1) (target.setWidth 48)))

/-- R245, R248: the word of each opcode of the map stands for its instruction with the fields of the word.

R232, R246, R251: an instruction word with an opcode that the map does not list, with a field that its format does not use, a condition that R256 lacks, an
instruction of S mode in P mode, a jump to a pc that is not a multiple of 8, and a load that is not aligned, raise their exceptions: the task stops for a save
with KIND 1 and the cause, its pc at the instruction; no register and no byte changes.

Where the manual is silent this rests on the model's own choices: log entry 57. -/
def Obligations.ExceptionsTaken : Prop :=
  (∀ (t : ThreadId) (f : TFields), ∀ e ∈ troxoOps, decodeTroxo t (f.word e.1) = some (e.2 t f)) ∧
  ∀ (t : ThreadId) (f : TFields) (s : State), issues t [f.d.toNat, f.a.toNat] s → calm (fetched t s) = true →
    let s1 := fetched t s
    let th := thr s1 t.val
    let stops (c : Instr) (cause : BitVec 8) : Prop := completesWith c s fun u =>
      (thr u t.val).phase = .draining 1 cause ∧ (thr u t.val).pc = th.pc ∧ (thr u t.val).g = th.g ∧ (thr u t.val).toks = th.toks ∧
      otherThreads t s1 u ∧ sameBytes s1 u ∧ changesOnly [.seq, .cache] s1 u
    let takes (c : Instr) (cause : BitVec 8) : Prop := standsAt t c s → stops c cause
    let words : List Instr := [.add t f, .sub t f, .mul t f, .div t f, .rem t f, .and_ t f, .or_ t f, .xor t f, .shl t f, .shr t f, .sar t f, .set_ t f,
      .lih t f, .addpc t f, .br t f, .jmp t f, .call t f, .jr t f, .loop t f, .ld t f, .st t f, .fence t f, .trap t f, .halt t f, .yield t f]
    (∀ w, (fetch t s).1 = Fetch.ok w → (∀ e ∈ troxoOps, e.1 ≠ opcodeOf w) → ∀ c ∈ words, stops c 0) ∧
    (f.c ≠ 0 → ∀ c ∈ words, takes c 0) ∧
    (6 ≤ f.v.toNat → takes (.set_ t f) 0 ∧ takes (.br t f) 0) ∧
    (f.a = 0 → f.b = 0 → f.v = 0 → f.c = 0 → f.imm = 0 → (thr s t.val).part ≠ 0 → takes (.epoch t f) 1) ∧
    (f.b = 0 → f.v = 0 → f.c = 0 → (gReg th f.a.toNat + f.imm.signExtend 64).toNat % 8 ≠ 0 → takes (.jr t f) 3) ∧
    (f.b = 0 → f.c = 0 → (gReg th f.a.toNat + f.imm.signExtend 64).toNat % 2 ^ (f.v.toNat % 4) ≠ 0 → takes (.ld t f) 2)

/-! ## Troxo threads: memory -/

/-- R258: a load of 1, 2, 4 or 8 bytes, and LDL of a line, from a line that is there: the result is the line's bytes, sign-extended
when V[2] says so, and waits as an outstanding access for its completion; no byte of memory changes. -/
def Obligations.LoadResults : Prop :=
  ∀ (t : ThreadId) (f : TFields) (s : State) (x : Space) (sa : Sa) (key : Nat),
    let s1 := fetched t s
    let th := thr s1 t.val
    let pva := gReg th f.a.toNat + f.imm.signExtend 64
    let n := 2 ^ (f.v.toNat % 4)
    let sg : Bool := f.v.getLsbD 2 && n != 8
    let off := sa.toNat % 128
    let here (sp : Span) (s2 : State) : Prop :=
      x.isDev = false ∧ th.outs.length < 16 ∧ (thr s2 t.val).outs = th.outs ∧
      lineHere s2 (.read sp none false) sa th.part (thrHalf t.val) (x.home t.val) key ∧ (metaAt s2 key).sp = 0
    (issues t [f.d.toNat, f.a.toNat] s → standsAt t (.ld t f) s → f.b = 0 → f.c = 0 → f.v.getLsbD 3 = false →
      reachesAt t pva n Rights.rd 0 (devOk n false) x sa s1 →
      let s2 := reached t pva Rights.rd 0 (devOk n false) s1
      here (.bytes off n sg) s2 →
      completesWith (.ld t f) s fun u => ∃ o, issued t sa o s2 u ∧ o.dest = f.d ∧ o.count = 1 ∧ o.store = false ∧ sameBytes s2 u ∧
        o.result = some [if sg then (BitVec.ofNat (8 * n) (lineField s2 key off n)).signExtend 64
                         else BitVec.ofNat 64 (lineField s2 key off n)]) ∧
    (issues t (f.a.toNat :: (List.range 16).map fun i => f.d.toNat + i) s → standsAt t (.ldl t f) s → 1 ≤ f.d.toNat → f.d.toNat ≤ 16 → f.b = 0 → f.v = 0 → f.c = 0 →
      reachesAt t pva 128 Rights.rd 0 (fun _ => false) x sa s1 →
      let s2 := reached t pva Rights.rd 0 (fun _ => false) s1
      here .line s2 →
      completesWith (.ldl t f) s fun u => ∃ o, issued t sa o s2 u ∧ o.dest = f.d ∧ o.count = 16 ∧ o.store = false ∧ sameBytes s2 u ∧
        o.result = some ((List.range 16).map fun i => BitVec.ofNat 64 (lineField s2 key (8 * i) 8)))

/-- R258: a store of 1, 2, 4 or 8 bytes, and STL of a line, to a line that is there with no copy elsewhere: exactly the bytes at the
stored address change, to the low bytes of gb or to those of the group.

R219: a store to the line of the next instruction overtakes its fetch: the word that the thread then executes at pc + 8 is the one from before the store.

Where the manual is silent this rests on the model's own choices: log entry 127. -/
def Obligations.StoreResults : Prop :=
  ∀ (t : ThreadId) (f : TFields) (s : State) (x : Space) (sa : Sa) (key : Nat),
    let s1 := fetched t s
    let th := thr s1 t.val
    let pva := gReg th f.a.toNat + f.imm.signExtend 64
    let n := 2 ^ (f.v.toNat % 4)
    let off := sa.toNat % 128
    let here (op : LineOp) (s3 : State) : Prop :=
      x.isDev = false ∧ th.outs.length < 16 ∧ (thr s3 t.val).outs = th.outs ∧ s3.integ.injArm = false ∧
      lineHere s3 op sa th.part (thrHalf t.val) (x.home t.val) key ∧ noCopies s3 key
    let stores (c : Instr) (w : Option (BitVec 64)) (s3 : State) (P : State → Prop) : Prop :=
      completesWith c s fun u => ∃ o, issued t sa o s3 u ∧ o.store = true ∧ o.result = some [] ∧
        (thr u t.val).ahead = w.map (fun i => (th.pc + 8, i)) ∧ P u
    (issues t [f.a.toNat, f.b.toNat] s → standsAt t (.st t f) s → f.d = 0 → f.v.toNat < 4 → f.c = 0 →
      reachesAt t pva n Rights.wr 1 (devOk n true) x sa s1 →
      let r := fetchAhead t sa (reached t pva Rights.wr 1 (devOk n true) s1)
      ∀ w, r.1 = some w → here (.write (byteMask off n) 0) r.2 →
      stores (.st t f) w r.2 fun u => bytesStored key off n (gReg th f.b.toNat).toNat r.2 u) ∧
    (issues t (f.a.toNat :: (List.range 16).map fun i => f.b.toNat + i) s → standsAt t (.stl t f) s → f.d = 0 → 1 ≤ f.b.toNat → f.b.toNat ≤ 16 →
      f.v = 0 → f.c = 0 → reachesAt t pva 128 Rights.wr 1 (fun _ => false) x sa s1 →
      let r := fetchAhead t sa (reached t pva Rights.wr 1 (fun _ => false) s1)
      ∀ w, r.1 = some w → here (.write (BitVec.allOnes 128) 0) r.2 →
      stores (.stl t f) w r.2 fun u =>
        (∀ i, i < 16 → lineField u key (8 * i) 8 = (gReg th (f.b.toNat + i)).toNat) ∧ sameBytesBut key r.2 u)

/-- R174, R177, R261, R269: an atomic is accepted in order at its home: the thread goes on with the access outstanding, and the operation
with its operands waits for its activation; no byte changes yet. -/
def Obligations.AtomicsAccepted : Prop :=
  ∀ (t : ThreadId) (f : TFields) (s : State) (x : Space) (sa : Sa) (key : Nat),
    issues t [f.d.toNat, f.a.toNat, f.b.toNat, f.c.toNat] s →
    let s1 := fetched t s
    let th := thr s1 t.val
    let pva := gReg th f.a.toNat + f.imm.signExtend 64
    let h := x.home t.val
    let accepts (c : Instr) (wide : Bool) (k : AtomKind) (v cmp : BitVec 64) : Prop :=
      standsAt t c s → reachesAt t pva (if wide then 8 else 4) Rights.atom 2 (fun _ => false) x sa s1 →
      let s2 := reached t pva Rights.atom 2 (fun _ => false) s1
      x.isDev = false → th.outs.length < 16 → (thr s2 t.val).outs = th.outs →
      lineHere s2 (.atu 0) sa th.part (thrHalf t.val) h key → noCopies s2 key →
      findAtom s2 h s2.atu.ids = none →
      completesWith c s fun u => ∃ o a, issued t sa o s2 u ∧ o.dest = f.d ∧ o.count = 1 ∧ o.result = none ∧ o.store = true ∧
        (atuHalf u h).atoms = (atuHalf s2 h).atoms ++ [a] ∧ a.kind = k ∧ a.wide = wide ∧ a.v = v ∧ a.cmp = cmp ∧ a.sa = sa ∧
        a.part = th.part ∧ a.who = Who.thread t o.id ∧ a.go = false ∧ sameBytes s2 u
    let gb := gReg th f.b.toNat
    let gc := gReg th f.c.toNat
    let wide := f.v.getLsbD 0
    (f.v.toNat < 2 →
      accepts (.acas t f) wide .cas gb gc ∧
      (f.c = 0 → accepts (.aadd t f) wide .add gb 0 ∧ accepts (.aswp t f) wide .swp gb 0)) ∧
    (f.v.toNat < 4 → f.c = 0 →
      accepts (.amin t f) wide (.min (f.v.getLsbD 1)) gb 0 ∧ accepts (.amax t f) wide (.max (f.v.getLsbD 1)) gb 0) ∧
    (f.b = 0 → f.v = 0 → f.c = 0 → accepts (.sems t f) true .add 1 0)

/-- R174, R177: when the activation of an atomic is due and its line is there with no copy elsewhere, the operation's bytes of the line take
the new value, and nothing else in memory changes; the old value answers the thread that issued it.

Where the manual is silent this rests on the model's own choices: log entry 99. -/
def Obligations.AtomicsPerformed : Prop :=
  ∀ (h : Half) (k : Nat) (s : State) (a : Atom) (r : LineReq) (t : ThreadId) (id : Nat) (o : Outst),
    (atuHalf s h).atoms[k]? = some a → findAtom s h a.id = some a → a.who = Who.thread t id → a.go = false →
    (∀ b ∈ (atuHalf s h).atoms, b.id = a.id → b = a) →
    s.cache.blocked = [r] → calm (s.onCache fun c => { c with blocked := [] }) = true → domRuns s (h.pick 3 4) = true → s.tables.damage = [] →
    r.op = .atu a.id → r.sa = a.sa → r.home = h → isBuf a.sa = true → rowClean s (bufKey a.sa) = true → noCopies s (bufKey a.sa) →
    (metaAt s (bufKey a.sa)).sp = 0 → s.integ.injArm = false →
    (thr s t.val).wait = none → o ∈ (thr s t.val).outs → o.id = id → (∀ p ∈ (thr s t.val).outs, p.id = id → p = o) →
    let n := if a.wide then 8 else 4
    let off := a.sa.toNat % 128
    a.sa.toNat % n = 0 →
    let key := bufKey a.sa
    let old := lineField s key off n
    let v := a.v.toNat % 2 ^ (8 * n)
    let signed (y : Nat) : Int := (BitVec.ofNat (8 * n) y).toInt
    let new : Nat := match a.kind with
      | .add => (old + v) % 2 ^ (8 * n)
      | .cas => if old = a.cmp.toNat % 2 ^ (8 * n) then v else old
      | .swp => v
      | .min sg => if (if sg then decide (signed v < signed old) else decide (v < old)) then v else old
      | .max sg => if (if sg then decide (signed old < signed v) else decide (old < v)) then v else old
      | .semw => old - 1
    let reg : BitVec 64 := match a.kind with
      | .min true => (BitVec.ofNat (8 * n) old).signExtend 64
      | .max true => (BitVec.ofNat (8 * n) old).signExtend 64
      | _ => BitVec.ofNat 64 old
    completesWith (.atomicPerform h k) s fun u =>
      bytesStored key off n new s u ∧ (∀ b ∈ (atuHalf u h).atoms, b.id ≠ a.id) ∧
      ∃ p ∈ (thr u t.val).outs, p.id = id ∧ p.result = some [reg] ∧ p.dest = o.dest

/-- R214, R258: the completion of an outstanding access writes its registers (g0 stays 0), ends the access, and changes nothing else of
the thread. -/
def Obligations.AccessCompletes : Prop :=
  ∀ (t : ThreadId) (k : Nat) (s : State) (o : Outst) (v : List (BitVec 64)),
    (thr s t.val).outs[k]? = some o → o.result = some v → (thr s t.val).phase = .running → (thr s t.val).wait = none →
    completesWith (.threadAccessComplete t k) s fun u =>
      (∀ r, gReg (thr u t.val) r =
        if r ≠ 0 ∧ o.dest.toNat ≤ r ∧ r < o.dest.toNat + o.count then v.getD (r - o.dest.toNat) 0 else gReg (thr s t.val) r) ∧
      thr u t.val = { thr s t.val with outs := (thr s t.val).outs.erase o, g := (thr u t.val).g } ∧
      otherThreads t s u ∧ changesOnly [.seq] s u

/-- R262, R182: an untagged ADDL whose line is there is accepted while the queue has room, and its activation adds the payload to the line,
element by element; the same of a partner's.

R182, R184, R186: a partner's untagged ADDL on a line that is there is accepted while the queue has room, and answered OK at once;
its activation adds the payload to the line, element by element in the format's width (the sums of the integer formats wrap, R180), sets the flags that the
arithmetic raises (R181), and changes no other byte. -/
def Obligations.Reductions : Prop :=
  (∀ (t : ThreadId) (f : TFields) (s : State) (x : Space) (sa : Sa) (key : Nat),
      issues t (f.a.toNat :: f.c.toNat :: f.d.toNat :: (List.range 16).map fun i => f.b.toNat + i) s → standsAt t (.addl t f) s →
      1 ≤ f.b.toNat → f.b.toNat ≤ 16 → f.v.toNat < 5 → f.c = 0 → f.d = 0 →
      let s1 := fetched t s
      let th := thr s1 t.val
      let pva := gReg th f.a.toNat + f.imm.signExtend 64
      let h := x.home t.val
      reachesAt t pva 128 Rights.atom 2 (fun _ => false) x sa s1 →
      let s2 := reached t pva Rights.atom 2 (fun _ => false) s1
      x.isDev = false → th.outs.length < 16 → (thr s2 t.val).outs = th.outs → (atuHalf s2 h).queue.length < 256 →
      lineHere s2 (.atu 0) sa th.part (thrHalf t.val) h key → noCopies s2 key →
      findAtom s2 h s2.atu.ids = none → findAddl s2 h s2.atu.ids = none →
      completesWith (.addl t f) s fun u => ∃ a : Addl,
        (atuHalf u h).queue = (atuHalf s2 h).queue ++ [a] ∧ a.fmt = f.v ∧ a.line = sa ∧ a.part = th.part ∧ a.ctx = none ∧ a.go = false ∧
        (∀ i, i < 16 → (a.data.extractLsb' (64 * i) 64) = gReg th (f.b.toNat + i)) ∧
        (thr u t.val).pc = th.pc + 8 ∧ (∀ r, gReg (thr u t.val) r = gReg th r) ∧ sameBytes s2 u) ∧
  ((∀ (m : PHdr) (fmt : BitVec 3) (data : BitVec 1024) (s : State) (h : Half) (key : Nat),
      let n := m.port.val
      portOpen s n = true → m.cls ≠ 0 → m.sa.toNat % 128 = 0 → memHome m Rights.atom m.sa s = .ok h → fmt.toNat < 5 →
      lineHere s (.atu 0) m.sa m.part (portHalf n) h key → noCopies s key → (atuHalf s h).queue.length < 256 →
      findAtom s h s.atu.ids = none → findAddl s h s.atu.ids = none →
      completesWith (.linkAddl m fmt 0 data) s fun u => ∃ a,
        (atuHalf u h).queue = (atuHalf s h).queue ++ [a] ∧ a.fmt.toNat = fmt.toNat ∧ a.line = m.sa ∧ a.data = data ∧ a.part = m.part ∧
        a.ctx = none ∧ a.go = false ∧ sends n (rsp m 0 false []) s u ∧ sameBytes s u) ∧
    (∀ (h : Half) (k : Nat) (s : State) (a : Addl) (r : LineReq),
      (atuHalf s h).queue[k]? = some a → findAtom s h a.id = none → findAddl s h a.id = some a →
      (∀ b ∈ (atuHalf s h).queue, b.id = a.id → b = a) →
      s.cache.blocked = [r] → calm (s.onCache fun c => { c with blocked := [] }) = true → domRuns s (h.pick 3 4) = true → s.tables.damage = [] →
      r.op = .atu a.id → r.sa = a.line → r.home = h →
      isBuf a.line = true → a.line.toNat % 128 = 0 → rowClean s (bufKey a.line) = true → noCopies s (bufKey a.line) →
      (metaAt s (bufKey a.line)).sp = 0 → s.integ.injArm = false →
      let key := bufKey a.line
      let sum := addlLine a.fmt.toNat (lineData s key) a.data
      completesWith (.addlApply h k) s fun u =>
        lineData u key = sum.1 ∧ sameBytesBut key s u ∧ (∀ b ∈ (atuHalf u h).queue, b.id ≠ a.id) ∧
        (atuHalf u h).nv = ((atuHalf s h).nv || sum.2.nv) ∧ (atuHalf u h).of = ((atuHalf s h).of || sum.2.of) ∧
        (atuHalf u h).uf = ((atuHalf s h).uf || sum.2.uf) ∧ (atuHalf u h).nx = ((atuHalf s h).nx || sum.2.nx) ∧
        (a.fmt = 3 → ∀ i, i < 32 → lineField u key (4 * i) 4 = (lineField s key (4 * i) 4 + a.data.toNat / 2 ^ (32 * i) % 2 ^ 32) % 2 ^ 32) ∧
        (a.fmt = 4 → ∀ i, i < 64 → lineField u key (2 * i) 2 = (lineField s key (2 * i) 2 + a.data.toNat / 2 ^ (16 * i) % 2 ^ 16) % 2 ^ 16)))

/-- R208, R220: FENCE and IFENCE with nothing outstanding only go on; with an access outstanding they wait.

R269, R271: SEMW and WAITT on a line that is there begin their wait, with its first evaluation issued. -/
def Obligations.FencesAndWaits : Prop :=
  (∀ (t : ThreadId) (f : TFields) (s : State), issues t [] s → f.d = 0 → f.a = 0 → f.b = 0 → f.v = 0 → f.c = 0 → f.imm = 0 →
      let s1 := fetched t s
      let th := thr s1 t.val
      ∀ c, c = .fence t f ∨ c = .ifence t f → standsAt t c s →
        (th.outs = [] → completesWith c s (became t th.next s1)) ∧
        (th.outs ≠ [] → completesWith c s fun u => (thr u t.val).pc = th.pc ∧ (thr u t.val).outs = th.outs ∧ (thr u t.val).g = th.g ∧
          ∃ w, (thr u t.val).wait = some w ∧ w.kind = 6)) ∧
  (∀ (t : ThreadId) (f : TFields) (s : State) (x : Space) (sa : Sa) (key : Nat),
      issues t [f.d.toNat, f.a.toNat, f.b.toNat] s → f.c = 0 →
      let s1 := fetched t s
      let th := thr s1 t.val
      let pva := gReg th f.a.toNat + f.imm.signExtend 64
      let waits (c : Instr) (kind : Nat) (c1 : BitVec 4) (cmp : BitVec 64) (s2 : State) (P : State → Outst → Prop) : Prop :=
        standsAt t c s → completesWith c s fun u => ∃ o w, (thr u t.val).outs = outsWith th.outs o ∧ o.id = th.nextId ∧ o.line = lineOf sa ∧
          o.count = 0 ∧ o.store = false ∧
          (thr u t.val).wait = some w ∧ w.kind.toNat = kind ∧ w.sa = sa ∧ w.dest = f.d ∧ w.cond = c1 ∧ w.cmp = cmp ∧ w.eval = some o.id ∧
          w.start = s2.clk.time ∧ w.limit = thawLimit s2 th ∧ (thr u t.val).pc = th.pc ∧ (thr u t.val).g = th.g ∧ sameBytes s2 u ∧ P u o
      x.isDev = false → th.outs.length < 16 →
      (f.b = 0 → f.v = 0 → reachesAt t pva 8 Rights.atom 2 (fun _ => false) x sa s1 →
        let s2 := reached t pva Rights.atom 2 (fun _ => false) s1
        let h := x.home t.val
        thr s2 t.val = th → lineHere s2 (.atu 0) sa th.part (thrHalf t.val) h key → noCopies s2 key →
        findAtom s2 h s2.atu.ids = none →
        waits (.semw t f) 2 1 0 s2 fun u o => ∃ a, (atuHalf u h).atoms = (atuHalf s2 h).atoms ++ [a] ∧ a.kind = .semw ∧ a.wide = true ∧
          a.sa = sa ∧ a.who = Who.thread t o.id ∧ a.go = false) ∧
      (f.v.toNat < 6 → reachesAt t pva 8 Rights.rd 0 (fun _ => false) x sa s1 →
        let s2 := reached t pva Rights.rd 0 (fun _ => false) s1
        let off := sa.toNat % 128
        thr s2 t.val = th → lineHere s2 (.read (.bytes off 8 false) none false) sa th.part (thrHalf t.val) (x.home t.val) key →
        (metaAt s2 key).sp = 0 →
        waits (.waitt t f) 3 f.v (gReg th f.b.toNat) s2 fun _ o => o.result = some [BitVec.ofNat 64 (lineField s2 key off 8)]))

/-! ## Troxo threads: streams, caches, buffers and tasks -/

/-- R263, R249, R240: what SPOLL, SWAIT, SRESUME and SCANCEL answer in each state of their token, what they make of the token, and how
an SMOV whose descriptor is in the core's descriptor cache starts its stream.

R235, R236, R238, R239: unit LINE of a running stream with a pinned destination, no check tags and no MELT, both of whose lines are there: the elements
of the unit are moved from the source line to the destination line, no other line changes, and LINE moves on by one. -/
def Obligations.Streams : Prop :=
  (∀ (t : ThreadId) (f : TFields) (s : State),
      let s1 := fetched t s
      let th := thr s1 t.val
      let k := f.c.toNat
      let line := tokLine th k
      let gives (c : Instr) (st : Nat) (hi : BitVec 32) (g : Thread → Thread) : Prop :=
        standsAt t c s → completesWith c s (became t ((g th).setG f.d.toNat (BitVec.ofNat 64 (st + hi.toNat * 2 ^ 32))).next s1)
      (issues t [f.d.toNat] s → k < 8 → f.a = 0 → f.b = 0 → f.v = 0 → f.imm = 0 →
        (tokOf th k = tokRun → gives (.spoll t f) 11 line id ∧ gives (.sresume t f) 5 0 id ∧
          (standsAt t (.swait t f) s → completesWith (.swait t f) s fun u => ∃ w, (thr u t.val).wait = some w ∧ w.kind = 1 ∧ w.tok.toNat = k ∧ w.dest = f.d ∧
            w.start = s1.clk.time ∧ w.limit = thawLimit s1 th ∧ (thr u t.val).pc = th.pc)) ∧
        (tokOf th k = tokDone → gives (.spoll t f) 0 line (fun y => y.setTok k tokIdle) ∧
          gives (.swait t f) 0 line (fun y => y.setTok k tokIdle) ∧ gives (.sresume t f) 5 0 id ∧
          (slotOfTok th k = none → gives (.scancel t f) 0 line (fun y => y.setTok k tokIdle))) ∧
        (tokOf th k = tokFaulted → gives (.spoll t f) 9 line id ∧ gives (.swait t f) 9 line id ∧
          gives (.sresume t f) 0 0 (fun y => y.setTok k tokRun)) ∧
        (tokOf th k = tokIdle → gives (.spoll t f) 10 0 id ∧ gives (.swait t f) 10 0 id ∧ gives (.sresume t f) 5 0 id ∧
          (slotOfTok th k = none → gives (.scancel t f) 10 0 id)) ∧
        (∀ i, slotOfTok th k = some i → inFlight s1 t i = false → (th.slotOf i).stop = none →
          gives (.scancel t f) 0 line (fun y => (y.setSlot i Stream.zero).setTok k tokIdle))) ∧
      (issues t [f.d.toNat, f.a.toNat] s → standsAt t (.smov t f) s → k < 8 → f.b = 0 → f.v = 0 → tokOf th k ≠ tokRun → tokOf th k ≠ tokFaulted →
        ∀ (x : Space) (sa : Sa) (lo hi : RoEnt) (i : Fin 2),
        let pva := gReg th f.a.toNat + f.imm.signExtend 64
        reachesAt t pva 64 Rights.rd 6 (fun _ => false) x sa s1 →
        let s2 := reached t pva Rights.rd 6 (fun _ => false) s1
        calm s2 = true → (∀ p ∈ s2.cache.asked, p.1 ≠ Consumer.smov t) →
        roFind s2 (thrCore t.val) .desc sa = some lo → roFind s2 (thrCore t.val) .desc (sa + 32) = some hi →
        descOk s2 (hi.data ++ lo.data) = true → freeStream th = some i →
        completesWith (.smov t f) s fun u =>
          thr u t.val = ended ((((th.setSlot i { Stream.zero with used := true, tok := BitVec.ofNat 3 k, desc := hi.data ++ lo.data }).setTok k
            tokRun).setG f.d.toNat 0).next) ∧ sameBytes s1 u)) ∧
  (∀ (t : ThreadId) (i : Fin 2) (s : State) (sp dp : Space) (sa da : Sa) (key1 key2 : Nat),
      let th := thr s t.val
      let x := th.slotOf i
      let d := parseDesc x.desc
      let unit := x.line.toNat
      let e := d.unitStart unit
      let n := d.unitEnd d.total e - e
      th.phase = .running → slotRuns th i = true → x.stop = none → x.cancel = false → x.flights = [] → x.hit = [] → x.donemap = 0 →
      seqRuns s (thrHalf t.val) = true → warmFenced s = false → coreUp s (thrCore t.val) = true → coreMoving s (thrCore t.val) = false →
      d.pin = true → d.chk = 0 → d.melt = false → unit + 1 < d.units → s.cache.asked = [] → s.cache.got = [] → s.integ.injArm = false →
      (reach t.val th.part (BitVec.ofNat 64 (d.srcAt e)) Rights.rd Rights.rd 4 (fun _ => false) x.src s).1 = .go sp sa →
      reachSa s t.val th.part 0 (BitVec.ofNat 52 (d.dstAt e)) Rights.wr 5 (fun _ => false) = .go dp da →
      sp.isDev = false → dp.isDev = false → isBuf sa = true → isBuf da = true → key1 ≠ key2 → (metaAt s key1).pinned = true →
      let m := d.move (lineData s key1) e n
      lineHere s (.read (.some_ (d.srcSectors e n)) none false) sa th.part (thrHalf t.val) (sp.home t.val) key1 → (metaAt s key1).sp = 0 →
      lineHere s (.write m.1 m.2) da th.part (thrHalf t.val) (dp.home t.val) key2 → noCopies s key2 →
      completesWith (.streamUnitComplete t i unit) s fun u =>
        lineData u key2 = mergeBytes m.1 (lineData s key2) m.2 ∧ sameBytesBut key2 s u ∧
        ((thr u t.val).slotOf i).line = x.line + 1 ∧ ((thr u t.val).slotOf i).used = true ∧ (thr u t.val).toks = th.toks ∧
        (thr u t.val).pc = th.pc ∧ (thr u t.val).g = th.g)

/-- R264, R139: HINT, PREF and MELT of a line that is there, and HINT and MELT of one that is not resident: HINT sets the line's replacement
state, PREF references it, MELT marks it for discard, and none of them touches a pinned line's or a replica's mark; a MELT is an access of its own, whose
completion is pending. The thread goes on at pc + 8 with its registers as before and no byte changes.

R104: MELT of CTL or doorbell space, and HINT and PREF that would fault (R101), only go on.

Where the manual is silent this rests on the model's own choices: log entries 62, 99. -/
def Obligations.CacheInstructions : Prop :=
  ∀ (t : ThreadId) (f : TFields) (s : State), issues t [f.a.toNat] s → f.d = 0 → f.b = 0 → f.c = 0 →
    let s1 := fetched t s
    let th := thr s1 t.val
    let pva := gReg th f.a.toNat + f.imm.signExtend 64
    let marked (key : Nat) (m : Meta) (s2 u : State) : Prop :=
      lineMarked key (if (metaAt s2 key).pinned ∨ (metaAt s2 key).replica then metaAt s2 key else m) s2 u
    let unmarked (s2 u : State) : Prop := (∀ k, metaAt u k = metaAt s2 k) ∧ sameBytes s2 u
    let goesOn (s1 u : State) : Prop := becameWith [.xlt, .cache, .bwr] t { th.next with nextId := th.nextId + 1 } s1 u
    (∀ (x : Space) (sa : Sa), x.isDev = false →
      (reachesAt t pva 1 Rights.rd 0 (fun _ => false) x sa s1 → f.v.toNat < 2 → standsAt t (.hint t f) s →
        let s2 := reached t pva Rights.rd 0 (fun _ => false) s1
        (∀ key, lineHere s2 (.hint (f.v == 1)) sa th.part (thrHalf t.val) (x.home t.val) key →
          completesWith (.hint t f) s fun u => goesOn s1 u ∧ marked key { metaAt s2 key with ref := f.v == 1, demoted := f.v == 0 } s2 u) ∧
        (lineAway s2 (.hint (f.v == 1)) sa th.part (thrHalf t.val) (x.home t.val) →
          completesWith (.hint t f) s fun u => goesOn s1 u ∧ unmarked s2 u)) ∧
      (reachesAt t pva 1 Rights.rd 0 (fun _ => false) x sa s1 → f.v = 0 → standsAt t (.pref t f) s →
        let s2 := reached t pva Rights.rd 0 (fun _ => false) s1
        ∀ key, lineHere s2 .fill sa th.part (thrHalf t.val) (x.home t.val) key →
          completesWith (.pref t f) s fun u =>
            becameWith [.xlt, .cache, .bwr, .loops] t { th.next with nextId := th.nextId + 1 } s1 u ∧
            lineMarked key { metaAt s2 key with ref := true, demoted := false, pf := false } s2 u) ∧
      (reachesAt t pva 1 Rights.wr 1 (fun _ => false) x sa s1 → f.v = 0 → standsAt t (.melt t f) s → meltDev t pva s1 = false →
        th.outs.length < 16 →
        let s2 := reached t pva Rights.wr 1 (fun _ => false) s1
        let issues_ (u : State) : Prop :=
          ∃ o, issued t sa o s2 u ∧ o.count = 0 ∧ o.store = false ∧ o.result = some [] ∧ changesOnly [.seq, .cnt, .tst, .xlt, .cache, .bwr] s1 u
        (∀ key, lineHere s2 .melt sa th.part (thrHalf t.val) (x.home t.val) key →
          completesWith (.melt t f) s fun u => issues_ u ∧ marked key { metaAt s2 key with melt := true } s2 u) ∧
        (lineAway s2 .melt sa th.part (thrHalf t.val) (x.home t.val) → completesWith (.melt t f) s fun u => issues_ u ∧ unmarked s2 u))) ∧
    (f.v = 0 → standsAt t (.melt t f) s → meltDev t pva s1 = true → th.outs.length < 16 → completesWith (.melt t f) s (became t th.next s1)) ∧
    (∀ c : Instr, (c = .hint t f ∧ f.v.toNat < 2) ∨ (c = .pref t f ∧ f.v = 0) → standsAt t c s → 2 ^ 48 ≤ pva.toNat →
      completesWith c s (became t th.next s1))

/-- R275, R192: CKTAG of a block of BUF space whose lines are all there, undamaged and without poison: gd receives the XOR of the 32 line CRCs;
no byte changes.

Where the manual is silent this rests on the model's own choices: log entry 99. -/
def Obligations.BlockTags : Prop :=
  ∀ (t : ThreadId) (f : TFields) (s : State) (x : Space) (sa : Sa), issues t [f.d.toNat, f.a.toNat] s → standsAt t (.cktag t f) s →
    f.b = 0 → f.v = 0 → f.c = 0 →
    let s1 := fetched t s
    let th := thr s1 t.val
    let pva := gReg th f.a.toNat + f.imm.signExtend 64
    reachesAt t pva 4096 Rights.rd 0 (fun _ => false) x sa s1 →
    let s2 := reached t pva Rights.rd 0 (fun _ => false) s1
    th.outs.length < 16 → isBuf sa = true → sa.toNat % 4096 = 0 → x.isDev = false → calm s2 = true → s2.tables.damage = [] →
    s2.cache.asked = [] → s2.cache.got = [] →
    (∀ i, i < 32 →
      (∃ y, decodeSa s2 (pipeView s2 (thrHalf t.val)) (sa + BitVec.ofNat 52 (128 * i)) = .ok y ∧ domRuns s2 ((y.home t.val).pick 3 4) = true) ∧
      rowClean s2 (bufKey sa + i) = true ∧ (metaAt s2 (bufKey sa + i)).sp = 0) →
    completesWith (.cktag t f) s fun u =>
      thr u t.val = ended (th.setG f.d.toNat
        (((List.range 32).foldl (fun v i => v ^^^ (metaAt s2 (bufKey sa + i)).lcrc) (0 : BitVec 32)).setWidth 64)).next ∧
      otherThreads t s1 u ∧ sameBytes s2 u

/-- R265, R148: PLOW with untranslated arguments in S mode enters its command, and answers OK with its sequence number; a full queue
answers QFULL and changes nothing; a range of no block answers BADARG and enters nothing.

R148, R149, R154: each of the eight operations that CCH_PLOW_CMD takes enters the queue behind a command that runs, with the arguments of the argument registers
and the next sequence number; a full queue sets QFULL and nothing else.

Where the manual is silent this rests on the model's own choices: log entries 25, 49. -/
def Obligations.PlowCommands : Prop :=
  (∀ (t : ThreadId) (f : TFields) (s : State), issues t [f.d.toNat, f.a.toNat, f.b.toNat] s → standsAt t (.plow t f) s →
      let s1 := fetched t s
      let th := thr s1 t.val
      let noBlock : Prop := f.v.toNat ≤ 5 ∧ f.imm.toNat % 4 = 0 ∧ (gReg th f.b.toNat).toNat % 2 ^ 32 = 0
      (thr s t.val).part = 0 → 1 ≤ f.v.toNat → f.v.toNat ≤ 8 → f.c = 0 → f.imm.toNat < 512 → f.imm.getLsbD 8 = true →
      (noBlock → completesWith (.plow t f) s (became t (th.setG f.d.toNat 5).next s1)) ∧ (¬ noBlock →
      (s1.cch.plow.length < 16 →
        completesWith (.plow t f) s fun u =>
          becameWith [.cch] t (th.setG f.d.toNat (BitVec.ofNat 64 ((s1.cch.issued + 1).toNat * 2 ^ 32))).next s1 u ∧
          u.cch.issued = s1.cch.issued + 1 ∧
          ∃ c, u.cch.plow = s1.cch.plow ++ [c] ∧ c.op = f.v ∧ c.scope = f.imm.extractLsb' 0 2 ∧ c.part = f.imm.extractLsb' 2 5 ∧
            c.half = Half.ofBool (f.imm.getLsbD 7) ∧ c.arg0 = gReg th f.a.toNat ∧ c.arg1 = gReg th f.b.toNat ∧ c.user = none ∧
            c.seq = s1.cch.issued + 1 ∧ c.started = false) ∧
      (16 ≤ s1.cch.plow.length → completesWith (.plow t f) s (became t (th.setG f.d.toNat 12).next s1)))) ∧
  (∀ (s : State) (head : PlowCmd) (tail : List PlowCmd), domOn s 3 = true ∨ domOn s 4 = true → calm s = true → s.cch.plow = head :: tail →
      head.started = true →
      let enters (c : Instr) (op : BitVec 4) (scope : BitVec 2) (part : Part) (h : Half) : Prop :=
        (tail.length < 15 → completesWith c s fun u => ∃ x,
          u.cch = { s.cch with issued := s.cch.issued + 1, plow := s.cch.plow ++ [x] } ∧ x.op = op ∧ x.scope = scope ∧ x.part = part ∧
          x.half = h ∧ x.arg0 = s.cch.arg0 ∧ x.arg1 = s.cch.arg1 ∧ x.user = none ∧ x.seq = s.cch.issued + 1 ∧ x.started = false ∧
          changesOnly [.cch] s u) ∧
        (15 ≤ tail.length → completesWith c s fun u => u.cch = { s.cch with qfull := true } ∧ changesOnly [.cch] s u)
      (∀ scope part, enters (.clean scope part) 1 scope part .e ∧ enters (.invalidate scope part) 2 scope part .e ∧
        enters (.flush scope part) 3 scope part .e ∧ enters (.demote scope part) 4 scope part .e ∧ enters (.meltRange scope part) 5 scope part .e) ∧
      (∀ h, enters (.regroupEntry h) 6 0 0 h ∧ enters (.regroupOwner h) 7 0 0 h) ∧ enters .regroupRegion 8 0 0 .e)

/-- R266, R161, R162: BALLOC in a calm machine with quota left and a block free in the half it names: it gives one block that was free, in a PINNED region
of that half, to the thread's partition, and gd receives its SA; no other block changes. Which free block it is, the spec leaves open.

R267, R168: BFREE of a block that the partition owns, with no copy of a line of it held outside: the block goes to SCRUB, the partition's
count falls, and gd receives OK; no byte changes yet.

Where the manual is silent this rests on the model's own choices: log entries 6, 50. -/
def Obligations.BufferInstructions : Prop :=
  (∀ (t : ThreadId) (f : TFields) (s : State), issues t [f.d.toNat] s → standsAt t (.balloc t f) s → f.a = 0 → f.b = 0 → f.c = 0 → f.imm = 0 →
      f.v.toNat < 8 →
      let s1 := fetched t s
      let th := thr s1 t.val
      let arrival := thrHalf t.val
      let h : Half := if f.v.toNat % 4 = 0 then .e else if f.v.toNat % 4 = 1 then .w else arrival
      let q := partReg (allocView s1 h) th.part.toNat
      f.v.toNat % 4 ≠ 3 → calm s1 = true → mayAct s1 (allocView s1 h) th.part none = true → unavailable s1 h arrival = false →
      (th.part = 0 ∨ (used s1 h th.part).toNat < min 196608 (h.pick q.quotaE q.quotaW).toNat) →
      twf Blk.zero s1.buf.blk = true → twf Region.zero s1.tables.region = true → freeCount s1 h ≠ 0 →
      completesWith (.balloc t f) s fun u => ∃ b : Nat,
        regionHalf (b / 1024) = h ∧ (region s1 (b / 1024)).state = 2 ∧ (region s1 (b / 1024)).busy = false ∧ (blk s1 b).st = 1 ∧
        (blk u b).st = 3 ∧ (blk u b).owner = th.part ∧ (∀ c, c ≠ b → blk u c = blk s1 c) ∧
        used u h th.part = used s1 h th.part + 1 ∧
        thr u t.val = ended (th.setG f.d.toNat ((blockSa s1 b).setWidth 64)).next ∧ sameBytes s1 u) ∧
  (∀ (t : ThreadId) (f : TFields) (s : State) (b : Nat), issues t [f.d.toNat, f.a.toNat] s → standsAt t (.bfree t f) s → f.b = 0 → f.v = 0 →
      f.c = 0 →
      let s1 := fetched t s
      let th := thr s1 t.val
      let sa : Sa := (gReg th f.a.toNat + f.imm.signExtend 64).setWidth 52
      let h := blockHalf b
      calm s1 = true → freeTarget s1 (pipeView s1 (thrHalf t.val)) th.part none (thrHalf t.val) sa = .ok b →
      (region s1 (b / 1024)).state = 2 → (blk s1 b).st = 3 → ((blk s1 b).owner = th.part ∨ th.part = 0) →
      (∀ e ∈ s1.cache.line, e.1 / 512 = b → e.2.sharers = 0 ∧ e.2.rheld = false) →
      completesWith (.bfree t f) s fun u =>
        (blk u b).st = 2 ∧ (blk u b).owner = (blk s1 b).owner ∧ (∀ c, c ≠ b → blk u c = blk s1 c) ∧
        used u h (blk s1 b).owner = used s1 h (blk s1 b).owner - 1 ∧
        thr u t.val = ended (th.setG f.d.toNat 0).next ∧ sameBytes s1 u)

/-- R253, R254: CSRR reads each register that the spec lists, and CSRW writes the fields that software may write; an index that is not listed
raises CSR (cause 5).

R274, R225, R232, R233: TRAP stops the task for a save with KIND 2 and cause 4, its pc after it; YIELD with no candidate of its priority or
better, or with no slot free, answers BUSY, and with both it stops the task for a save with KIND 3; HALT with nothing
outstanding, and no completion word to write, frees the thread. -/
def Obligations.TaskInstructions : Prop :=
  (∀ (t : ThreadId) (f : TFields) (s : State), issues t [f.d.toNat, f.a.toNat] s → f.b = 0 → f.v = 0 → f.c = 0 →
      let s1 := fetched t s
      let th := thr s1 t.val
      let n := f.imm.toNat
      let ga := gReg th f.a.toNat
      let reads (v : BitVec 64) : Prop := standsAt t (.csrr t f) s → f.a = 0 → completesWith (.csrr t f) s (became t (th.setG f.d.toNat v).next s1)
      let writes (y : Thread) : Prop := standsAt t (.csrw t f) s → f.d = 0 → completesWith (.csrw t f) s (became t y.next s1)
      (n = 0 → reads (thTask t th) ∧ writes th) ∧
      (n = 1 → reads (if th.precise then 1 else 0) ∧ writes { th with precise := ga.getLsbD 0 }) ∧
      (n = 2 → reads (th.thaw.setWidth 64) ∧ writes { th with thaw := ga.extractLsb' 0 24 }) ∧
      (n = 3 → reads (th.toks.setWidth 64) ∧ writes th) ∧
      (n = 4 → reads s1.clk.time ∧ writes th) ∧
      (n = 6 → reads ((if s1.glb.lag.getLsbD (8 + thrCore t.val) then s1.glb.epoch - 1 else s1.glb.epoch).setWidth 64) ∧ writes th) ∧
      (n = 7 → reads (s1.cch.done.setWidth 64) ∧ writes th) ∧
      (n = 5 ∨ 7 < n → n < 4096 → calm s1 = true →
        (standsAt t (.csrr t f) s → f.a = 0 → completesWith (.csrr t f) s fun u => (thr u t.val).phase = .draining 1 5 ∧ (thr u t.val).pc = th.pc ∧ (thr u t.val).g = th.g) ∧
        (standsAt t (.csrw t f) s → f.d = 0 → completesWith (.csrw t f) s fun u => (thr u t.val).phase = .draining 1 5 ∧ (thr u t.val).pc = th.pc ∧ (thr u t.val).g = th.g))) ∧
  (∀ (t : ThreadId) (f : TFields) (s : State), issues t [f.d.toNat] s → f.a = 0 → f.b = 0 → f.v = 0 → f.c = 0 → f.imm = 0 →
      let s1 := fetched t s
      let th := thr s1 t.val
      let waits : Bool := (candidates s1 (thrHalf t.val)).any fun c => decide (th.prio.toNat ≤ c.1)
      (f.d = 0 → calm s1 = true →
        (standsAt t (.trap t f) s → completesWith (.trap t f) s fun u => (thr u t.val).phase = .draining 2 4 ∧ (thr u t.val).pc = th.pc + 8 ∧ (thr u t.val).g = th.g ∧
          otherThreads t s1 u) ∧
        (th.outs = [] → slotRuns th 0 = false → slotRuns th 1 = false → inFlight s1 t 0 = false → inFlight s1 t 1 = false → th.donePva = 0 →
          th.word = none → standsAt t (.halt t f) s →
          completesWith (.halt t f) s fun u => thr u t.val = { Thread.zero with nextId := th.nextId } ∧ otherThreads t s1 u)) ∧
      (th.held = none → standsAt t (.yield t f) s →
        (waits = false ∨ freeSlot s1 th.part.toNat = none → completesWith (.yield t f) s (became t (th.setG f.d.toNat 13).next s1)) ∧
        (∀ k, waits = true → freeSlot s1 th.part.toNat = some k →
          completesWith (.yield t f) s fun u =>
            (thr u t.val).phase = .draining 3 0 ∧ (thr u t.val).pc = th.pc + 8 ∧ (thr u t.val).g = (th.setG f.d.toNat 0).g ∧
            (thr u t.val).held = some (BitVec.ofNat 6 k) ∧
            slotUsed u th.part.toNat k = true ∧ otherThreads t s1 u)))

/-! ## The sequencer -/

/-- R222, R233: a doorbell TAIL write in range, by the queue's partition or partition 0, moves TAIL; one that is out of range, or for a disabled
queue, only sets DBERR; RESUME moves a PARKED slot to the resume list of its half; DISCARD frees it; both on a
slot that is not PARKED set BADCMD. Another partition changes nothing.

R221: a write of SEQ_TQ_CTL while a sequencer domain is on: enabling a queue puts HEAD and TAIL at 0; LOG2N outside 4 to 12, or a change of
the partition, the half or the size of an enabled queue, is refused with CFG.

Where the manual is silent this rests on the model's own choices: log entry 37. -/
def Obligations.QueuesAndDoorbells : Prop :=
  (∀ (part p : Part) (q : Fin 128) (v : BitVec 32) (slot : BitVec 6) (s : State),
      let x := tq s q.val
      let ok : Prop := x.en = true ∧ (v - x.tail).toNat < 2 ^ 31 ∧ (v - x.head).toNat ≤ 2 ^ x.log2n.toNat
      let tails (y : TaskQ) : Prop := completesWith (.doorbellTail part q v) s fun u =>
        tq u q.val = y ∧ (∀ k, k ≠ q.val → tq u k = tq s k) ∧ u.seq = { s.seq with tq := u.seq.tq } ∧ changesOnly [.seq] s u
      let parked := slotParked s p.toNat slot.toNat
      let keeps (P : State → Prop) (u : State) : Prop := changesOnly [.seq] s u ∧ u.seq.th = s.seq.th ∧ u.seq.tq = s.seq.tq ∧ P u
      ((part = 0 ∨ part = x.part) → (ok → tails { x with tail := v }) ∧ (¬ ok → tails { x with dbErr := true })) ∧
      (part ≠ 0 → part ≠ x.part → tails x) ∧
      ((part = 0 ∨ part = p) →
        (parked = true →
          (completesWith (.doorbellResume part p slot) s (keeps fun u =>
            slotParked u p.toNat slot.toNat = false ∧ slotUsed u p.toNat slot.toNat = slotUsed s p.toNat slot.toNat ∧
            ((tget { half := .e, prio := 0 } (spReg s p.toNat).slots slot.toNat).half = .e →
              u.seq.resumeE = s.seq.resumeE ++ [{ part := p, slot := slot, prio := (tget { half := .e, prio := 0 } (spReg s p.toNat).slots slot.toNat).prio }]) ∧
            ((tget { half := .e, prio := 0 } (spReg s p.toNat).slots slot.toNat).half = .w →
              u.seq.resumeW = s.seq.resumeW ++ [{ part := p, slot := slot, prio := (tget { half := .e, prio := 0 } (spReg s p.toNat).slots slot.toNat).prio }]))) ∧
          (completesWith (.doorbellDiscard part p slot) s (keeps fun u =>
            slotParked u p.toNat slot.toNat = false ∧ slotUsed u p.toNat slot.toNat = false ∧ u.seq.resumeE = s.seq.resumeE ∧
            u.seq.resumeW = s.seq.resumeW))) ∧
        (parked = false → ∀ c : Instr, c = .doorbellResume part p slot ∨ c = .doorbellDiscard part p slot →
          completesWith c s (keeps fun u => spReg u p.toNat = { spReg s p.toNat with badcmd := true } ∧ u.seq.resumeE = s.seq.resumeE ∧
            u.seq.resumeW = s.seq.resumeW))) ∧
      (part ≠ 0 → part ≠ p → ∀ c : Instr, c = .doorbellResume part p slot ∨ c = .doorbellDiscard part p slot →
        completesWith c s (keeps fun u => u.seq = s.seq))) ∧
  (∀ (q : Fin 128) (v : BitVec 32) (s : State), domOn s 1 = true ∨ domOn s 2 = true →
      let x := tq s q.val
      let y : TaskQ := { x with en := v.getLsbD 0, part := v.extractLsb' 1 5, prio := v.extractLsb' 6 2,
                                half := Half.ofBool (v.getLsbD 8), log2n := v.extractLsb' 9 4 }
      let refused : Prop := (x.en = true ∧ ¬ (y.part = x.part ∧ y.half = x.half ∧ y.log2n = x.log2n)) ∨ y.log2n.toNat < 4 ∨ 12 < y.log2n.toNat
      let becomes (z : TaskQ) : Prop := completesWith (.tqCtlWrite q v) s fun u =>
        tq u q.val = z ∧ (∀ k, k ≠ q.val → tq u k = tq s k) ∧ u.seq = { s.seq with tq := u.seq.tq } ∧ changesOnly [.seq] s u
      (refused → becomes { x with cfg := true }) ∧
      (¬ refused → y.en = true → x.en = false → becomes { y with head := 0, tail := 0 }) ∧
      (¬ refused → ¬ (y.en = true ∧ x.en = false) → becomes y))

/-- R218, R219: a fetch whose translation and checks succeed and whose sector is in the core's instruction cache delivers the word at the pc at once, and
changes nothing but reference bits of the translation cache and of the instruction cache; the word that a store has overtaken is delivered as it was fetched.

R226: with a free thread, no task waiting to move, and a best candidate: the candidate starts on the thread. A queue's descriptor fetch
begins there, and the round-robin point moves to the queue; a resumed slot's restore begins there, and it leaves the list.

R223, R224: a thread that fetches the descriptor of its queue, with both its sectors in the core's descriptor cache, starts the task: the pc, g1 to g4, DONE, the
tag, TH_THAW and PRECISE come from the descriptor, and HEAD moves; a malformed descriptor ends the task KILLED, which frees the thread when it has no
completion word.

Where the manual is silent this rests on the model's own choices: log entry 90. -/
def Obligations.TasksStart : Prop :=
  (∀ (t : ThreadId) (s : State) (x : Space) (sa : Sa) (e : RoEnt),
      let th := thr s t.val
      let r := reach t.val th.part (th.pc.setWidth 64) { r := false, w := false, a := false, x := true } Rights.rd 3 (fun _ => false) th.hit s
      (∀ w, th.ahead = some (th.pc, w) → fetch t s = (Fetch.ok w, s)) ∧
      (th.ahead = none → r.1 = Reach.go x sa → roFind s (thrCore t.val) .instr sa = some e →
      (fetch t s).1 = Fetch.ok (BitVec.ofNat 64 (e.data.toNat / 2 ^ (8 * (sa.toNat % 32)))) ∧ changesOnly [.xlt, .seq] s (fetched t s) ∧
      (fetched t s).seq = { s.seq with ro := (fetched t s).seq.ro } ∧ (fetched t s).xlt = { s.xlt with tlb := (fetched t s).xlt.tlb } ∧
      ∃ e', roFind (fetched t s) (thrCore t.val) .instr sa = some e' ∧ e'.sector = e.sector ∧ e'.data = e.data)) ∧
  (∀ (h : Half) (k : Fin 36) (s : State) (c : Nat × Cand) (cs : List (Nat × Cand)),
      let i := 36 * h.idx + k.val
      seqUp s h = true → warmFenced s = false → isFree s i = true → movers s h = [] → candidates s h = c :: cs →
      (∀ q, (hq : q < 128) → c.2 = .queue q →
        completesWith (.dispatch h k) s fun u =>
          thr u i = { Thread.zero with nextId := (thr s i).nextId, phase := .fetching ⟨q, hq⟩, part := (tq s q).part, prio := (tq s q).prio,
                                       queue := BitVec.ofNat 7 q } ∧
          (∀ j, j ≠ i → thr u j = thr s j) ∧ tq u q = { tq s q with fetching := true } ∧
          (h.pick u.seq.rrE u.seq.rrW) = BitVec.ofNat 7 q ∧ changesOnly [.seq] s u) ∧
      (∀ e, c.2 = .resume e →
        completesWith (.dispatch h k) s fun u =>
          thr u i = { Thread.zero with nextId := (thr s i).nextId, phase := .restoring e.part e.slot, part := e.part, prio := e.prio } ∧
          (∀ j, j ≠ i → thr u j = thr s j) ∧ (h.pick u.seq.resumeE u.seq.resumeW) = (h.pick s.seq.resumeE s.seq.resumeW).erase e ∧
          changesOnly [.seq] s u)) ∧
  (∀ (t : ThreadId) (q : Fin 128) (s : State) (x : Space) (lo hi : RoEnt),
      (thr s t.val).phase = .fetching q →
      let y := tq s q.val
      let sa : Sa := BitVec.ofNat 52 (y.base.toNat * 4096 + 64 * (y.head.toNat % 2 ^ y.log2n.toNat))
      let d := (hi.data ++ lo.data).toNat
      let word (i : Nat) : BitVec 64 := BitVec.ofNat 64 (d / 2 ^ (64 * i))
      checkSa s (pipeView s (thrHalf t.val)) y.part none Rights.rd sa = .ok x → x.isDev = false →
      unavailable s (x.home t.val) (thrHalf t.val) = false → calm s = true → (∀ p ∈ s.cache.asked, p.1 ≠ Consumer.desc t) →
      roFind s (thrCore t.val) .desc sa = some lo → roFind s (thrCore t.val) .desc (sa + 32) = some hi →
      (taskDescOk d = true →
        completesWith (.descriptorFetch t) s fun u =>
          let th := thr u t.val
          th.phase = .running ∧ th.pc = BitVec.ofNat 48 d ∧ (∀ i, 1 ≤ i → i ≤ 4 → gReg th i = word i) ∧
          (∀ r, 4 < r → gReg th r = gReg (thr s t.val) r) ∧ th.donePva = word 6 ∧ th.tag = word 7 ∧
          th.thaw = BitVec.ofNat 24 (d / 2 ^ 320) ∧ th.precise = decide (d / 2 ^ 352 % 2 = 1) ∧ th.part = (thr s t.val).part ∧
          tq u q.val = { y with head := y.head + 1, fetching := false } ∧ otherThreads t s u) ∧
      (taskDescOk d = false → word 6 = 0 →
        completesWith (.descriptorFetch t) s fun u =>
          thr u t.val = { Thread.zero with nextId := (thr s t.val).nextId } ∧
          tq u q.val = { y with head := y.head + 1, fetching := false } ∧ otherThreads t s u))

/-- R242, R243: a wait whose timeout has come ends THAWED: gd receives code 1, the thread goes on, and its partition's thaw counter counts. A
waiting allocation leaves its queue and gives its reservation back.

R271: a SEMW or WAITT that a completed write has woken evaluates again: its address is translated and checked, the access is issued, and the wait
goes on until its value is known.

Where the manual is silent this rests on the model's own choices: log entry 88. -/
def Obligations.WaitsGoOn : Prop :=
  (∀ (t : ThreadId) (s : State) (w : Wait),
      (thr s t.val).phase = .running → (thr s t.val).wait = some w → due s w.start w.limit = true → w.eval = none →
      (w.kind.toNat ∈ [1, 2, 3, 5] →
        completesWith (.thaw t) s fun u =>
          thr u t.val = ended (((thr s t.val).setG w.dest.toNat (BitVec.ofNat 64
            (1 + if w.kind = 1 then (tokLine (thr s t.val) w.tok.toNat).toNat * 2 ^ 32 else 0))).next) ∧
          (spReg u (thr s t.val).part.toNat).thawCnt = (spReg s (thr s t.val).part.toNat).thawCnt + 1 ∧
          otherThreads t s u ∧ changesOnly [.seq, .cnt, .tst, .cache] s u ∧ sameBytes s u) ∧
      (∀ (h : Half) (a : Waiter) (d : BitVec 5), w.kind = 4 → allocWaiter s t = some (h, a) → a.who = .thread t d.toNat →
        completesWith (.thaw t) s fun u =>
          thr u t.val = { ((thr s t.val).setG d.toNat 1).next with wait := none, waitLeft := none } ∧
          waitQ u h = (waitQ s h).erase a ∧ used u h a.part = used s h a.part - 1 ∧
          (spReg u a.part.toNat).thawCnt = (spReg s a.part.toNat).thawCnt + 1 ∧ otherThreads t s u)) ∧
  (∀ (t : ThreadId) (s s2 : State) (w : Wait) (x : Space) (sa : Sa) (key : Nat),
      let th := thr s t.val
      let h := x.home t.val
      let pva : BitVec 64 := w.pva.setWidth 64
      th.phase = .running → th.wait = some w → w.eval = none → w.again = true → th.xl = none → th.outs.length < 16 → x.isDev = false →
      noCopies s key → sa.toNat % 8 = 0 →
      let goesOn (P : State → Outst → Prop) : Prop := completesWith (.waitReevaluate t) s fun u => ∃ o,
        (thr u t.val).outs = outsWith th.outs o ∧ o.id = th.nextId ∧
        (thr u t.val).wait = some { w with sa := sa, eval := some o.id, again := false } ∧
        (thr u t.val).pc = th.pc ∧ (thr u t.val).g = th.g ∧ sameBytes s u ∧ P u o
      (w.kind = 3 → reach t.val th.part pva Rights.rd Rights.rd 0 (fun _ => false) th.hit s = (.go x sa, s2) →
        lineHere s2 (.read (.bytes (sa.toNat % 128) 8 false) none false) sa th.part (thrHalf t.val) h key → (metaAt s key).sp = 0 →
        goesOn fun _ o => o.result = some [BitVec.ofNat 64 (lineField s key (sa.toNat % 128) 8)]) ∧
      (w.kind = 2 → reach t.val th.part pva Rights.atom Rights.atom 2 (fun _ => false) th.hit s = (.go x sa, s2) →
        lineHere s2 (.atu 0) sa th.part (thrHalf t.val) h key → findAtom s h s.atu.ids = none →
        goesOn fun u o => ∃ a, (atuHalf u h).atoms = (atuHalf s h).atoms ++ [a] ∧ a.kind = .semw ∧ a.wide = true ∧ a.sa = sa ∧
          a.who = Who.thread t o.id))

/-- R228, R230: a preempted task that has drained, whose context slot lies in lines of BUF space that are there with no copy elsewhere: its 512-byte
record, as R230 lays it out, stands in the slot, the thread is free, and the slot is on the resume list.

R231: a restore reads the record of its slot; when its CRC and its reserved bytes are right, the thread takes every field of it and runs,
holding the slot until its first instruction. -/
def Obligations.ContextsKept : Prop :=
  (∀ (t : ThreadId) (s : State) (k : BitVec 6) (cause : BitVec 8),
      let th := thr s t.val
      let p := th.part.toNat
      let sa : Sa := BitVec.ofNat 52 ((spReg s p).ctxBase.toNat * 4096 + 512 * k.toNat)
      let key := bufKey sa
      th.phase = .draining 0 cause → saveReady s t 0 = true → th.held = some k → calm s = true → s.integ.injArm = false → s.tables.damage = [] →
      s.cache.asked = [] → s.cache.got = [] → isBuf sa = true → sa.toNat % 512 = 0 →
      (∀ i, i < 4 → (ownHome s (thrHalf t.val) (sa + BitVec.ofNat 52 (128 * i)) Rights.wr).isSome = true ∧ rowClean s (key + i) = true ∧
        noCopies s (key + i)) →
      completesWith (.saveRecordDone t) s fun u =>
        (∀ i, i < 4 → memRead u.cache.data (128 * (key + i)) 128
          = saveRecord s th 0 cause.toNat (parkedToks th) (th.waitLeft.getD 0).toNat / 2 ^ (1024 * i) % 2 ^ 1024) ∧
        (∀ a, a < 128 * key ∨ 128 * key + 512 ≤ a → memByte u.cache.data a = memByte s.cache.data a) ∧
        thr u t.val = { Thread.zero with nextId := th.nextId } ∧ slotUsed u p k.toNat = true ∧
        (thrHalf t.val).pick u.seq.resumeE u.seq.resumeW
          = (thrHalf t.val).pick s.seq.resumeE s.seq.resumeW ++ [{ part := th.part, slot := k, prio := th.prio }] ∧
        (spReg u p).preempts.toNat = min ((spReg s p).preempts.toNat + 1) 65535) ∧
  (∀ (t : ThreadId) (s : State) (p : Part) (k : BitVec 6),
      let sa : Sa := BitVec.ofNat 52 ((spReg s p.toNat).ctxBase.toNat * 4096 + 512 * k.toNat)
      let key := bufKey sa
      let r := memRead s.cache.data (128 * key) 512
      (thr s t.val).phase = .restoring p k → calm s = true → s.tables.damage = [] → s.cache.asked = [] → s.cache.got = [] → isBuf sa = true → sa.toNat % 512 = 0 →
      (∀ i, i < 4 → (ownHome s (thrHalf t.val) (sa + BitVec.ofNat 52 (128 * i)) Rights.rd).isSome = true ∧ rowClean s (key + i) = true ∧
        (metaAt s (key + i)).sp = 0) →
      recordCrcOk r = true → recordReservedOk r = true → fenced s (BitVec.ofNat 5 (r / 2 ^ (8 * 260 + 25))) = false →
      completesWith (.restore t) s fun u =>
        let th := thr u t.val
        th.phase = .running ∧ th.pc = BitVec.ofNat 48 r ∧ (∀ i, 1 ≤ i → i < 32 → gReg th i = BitVec.ofNat 64 (r / 2 ^ (64 * i))) ∧
        th.precise = decide (r / 2 ^ (8 * 260) % 2 = 1) ∧ th.prio = BitVec.ofNat 2 (r / 2 ^ (8 * 260 + 16)) ∧
        th.queue = BitVec.ofNat 7 (r / 2 ^ (8 * 260 + 18)) ∧ th.part = BitVec.ofNat 5 (r / 2 ^ (8 * 260 + 25)) ∧
        th.thaw = BitVec.ofNat 24 (r / 2 ^ (8 * 264)) ∧ th.donePva = BitVec.ofNat 64 (r / 2 ^ (8 * 280)) ∧
        th.tag = BitVec.ofNat 64 (r / 2 ^ (8 * 288)) ∧ th.held = some k ∧ th.slot = k ∧ th.slotV = true ∧ th.outs = [] ∧ th.wait = none ∧
        th.s0 = recStream r 0 ∧ th.s1 = recStream r 1 ∧ th.toks = restoredToks r ∧ otherThreads t s u ∧ sameBytes s u)

/-! ## Translation -/

/-- R102, R107: a missing translation starts a walk at the root of the partition, when no walk of the half is under way; a second miss for the
same page joins it.

R98, R99, R102, R108: a table read of the only walk of a half, from a line of BUF space that is there: a valid pointer entry takes the walk one level down
and narrows the rights; a valid leaf hands the instruction that waits its translation, and ends the walk.

R110, R111: a write of XLT_INV while none is under way removes every cached translation it covers and keeps the others; a tenant's
covers its own partition only; one while another is under way only sets its error flags. When nothing that was in flight is left, it
ends; while an access that was outstanding is left, it goes on.

Where the manual is silent this rests on the model's own choices: log entry 83. -/
def Obligations.Translation : Prop :=
  (∀ (t : ThreadId) (src : XlSrc) (s : State) (q : XlReq) (qs : List XlReq),
      let m : Miss := { t := t, src := src, num := q.num }
      let h := thrHalf t.val
      let p := (thr s t.val).part
      let page : BitVec 36 := q.pva.extractLsb' 12 36
      seqRuns s h = true → warmFenced s = false → calm s = true → xlReqs s t src = q :: qs → walkWaitOf s h = [] →
      (walks s h = [] → (partReg (walkView s h) p.toNat).rootEn = true →
        completesWith (.translationMiss t src) s fun u =>
          walks u h = [{ id := s.xlt.walkIds, part := p, vpage := page, level := 3, table := (partReg (walkView s h) p.toNat).root,
                         rights := { r := true, w := true, a := true, x := true }, waiters := [m], noFill := false }] ∧
          changesOnly [.xlt, .cnt] s u) ∧
      (∀ w, walks s h = [w] → w.part = p → w.vpage = page → w.noFill = false → m ∉ w.waiters →
        completesWith (.translationMiss t src) s fun u =>
          walks u h = [{ w with waiters := w.waiters ++ [m] }] ∧ changesOnly [.xlt] s u)) ∧
  (∀ (h : Half) (w : Walk) (s : State) (x : Space) (key : Nat),
      let ea : Sa := BitVec.ofNat 52 (w.table.toNat * 4096 + 8 * (w.vpage.toNat / 2 ^ (9 * w.level) % 512))
      walks s h = [w] → walkWaitOf s h = [] → seqRuns s h = true → s.cache.asked = [] → s.cache.got = [] →
      checkSa s (pipeView s h) 0 none Rights.rd ea = .ok x → x.isDev = false → isBuf ea = true → unavailable s (x.half h) h = false →
      lineHere s (.read (.bytes (ea.toNat % 128) 8 false) none false) ea 0 h (x.half h) key → (metaAt s key).sp = 0 →
      let e := lineField s key (ea.toNat % 128) 8
      let rights : Rights := { r := w.rights.r && e.testBit 1, w := w.rights.w && e.testBit 2, a := w.rights.a && e.testBit 3,
                               x := w.rights.x && e.testBit 4 }
      e.testBit 0 = true → formatBad e w.level = false →
      (w.level ≠ 0 → e.testBit 5 = false →
        completesWith (.walkTableRead h 0) s fun u =>
          walks u h = [{ w with level := w.level - 1, table := BitVec.ofNat 40 (e / 4096), rights := rights }] ∧ sameBytes s u) ∧
      (∀ (t : ThreadId) (q : XlReq), (w.level = 0 ∨ e.testBit 5 = true) → w.waiters = [{ t := t, src := .instr, num := q.num }] →
        (thr s t.val).xl = some q →
        (thr s t.val).word = none → rights.pageGrants q.need = true → w.noFill = false →
        completesWith (.walkTableRead h 0) s fun u =>
          walks u h = [] ∧ (thr u t.val).xl = none ∧ (thr u t.val).pc = (thr s t.val).pc ∧ sameBytes s u ∧
          ∃ y, (thr u t.val).hit = some y ∧ y.part = w.part ∧ y.size.toNat = w.level % 4 ∧ y.sa = BitVec.ofNat 40 (e / 4096) ∧ y.rights = rights ∧
            y.vpage.toNat = w.vpage.toNat / 2 ^ (9 * w.level) ∧ (∃ n, tget none u.xlt.tlb n = some y))) ∧
  (∀ (part : Part) (v : BitVec 64) (s : State),
      (domOn s 3 = true ∨ domOn s 4 = true →
        let sc := if v.extractLsb' 53 2 = (3 : BitVec 2) ∨ (v.extractLsb' 53 2 = (2 : BitVec 2) ∧ part ≠ 0) then (1 : BitVec 2) else v.extractLsb' 53 2
        let p : Part := if part = 0 then v.extractLsb' 48 5 else part
        let page : BitVec 36 := v.extractLsb' 12 36
        let covers (e : Tlb) : Prop := sc = 2 ∨ (e.part = p ∧ (sc = 0 → e.vpage.toNat = page.toNat / 2 ^ (9 * e.size.toNat)))
        (s.xlt.inv = none →
          completesWith (.xltInv part v) s fun u =>
            (∀ n e, (n, some e) ∈ u.xlt.tlb ↔ (n, some e) ∈ s.xlt.tlb ∧ (¬ covers e ∨ 4096 ≤ n)) ∧ u.xlt.ref = setBit s.xlt.ref part.toNat false ∧
            (∃ i, u.xlt.inv = some i ∧ i.scope = sc ∧ i.part = p ∧ i.page = page) ∧ changesOnly [.xlt, .seq] s u) ∧
        (s.xlt.inv ≠ none →
          completesWith (.xltInv part v) s fun u =>
            u.xlt = { s.xlt with errInvBusy := true, ref := setBit s.xlt.ref part.toNat true } ∧ changesOnly [.xlt] s u)) ∧
      (∀ i, s.xlt.inv = some i → (∀ a ∈ i.walks, ∀ w ∈ walks s a.1, w.id ≠ a.2) → i.waits = [] →
        (∀ a ∈ i.outs, ∀ o ∈ (thr s a.1.val).outs, o.id ≠ a.2) → (∀ c ∈ i.units, workLeft s c = false) →
        (∀ a ∈ i.posted, a ∉ s.cache.posted) →
        completesWith .xltInvComplete s fun u => u.xlt = { s.xlt with inv := none } ∧ changesOnly [.xlt] s u) ∧
      (∀ i a o, s.xlt.inv = some i → a ∈ i.outs → o ∈ (thr s a.1.val).outs → o.id = a.2 →
        completesWith .xltInvComplete s fun u => u.xlt.inv.isSome = true ∧ changesOnly [.xlt] s u))

/-! ## Partners -/

/-- R288, R195, R196: RDS, RDL and RDRO of memory, from a line that is there without poison: the answer carries the sector or the line;
an RDRO records the port as a sharer, or is served untracked while that sharer is being cleared. No byte changes.

R288, R7: WRS, WRM and WRL of memory, to a line that is there with no copy elsewhere: exactly the bytes named change, and the answer is
OK.

R290: an unchecked WRB of a block of BUF space whose lines have no copy elsewhere stores its 32 lines and is answered once, OK.

Where the manual is silent this rests on the model's own choices: log entry 60. -/
def Obligations.PartnerAccesses : Prop :=
  (∀ (m : PHdr) (melt : Bool) (s : State) (h : Half) (key : Nat),
      let n := m.port.val
      let op (sp : Span) (ro : Option Nat) : LineOp := .read sp ro melt
      let here (sp : Span) (ro : Option Nat) : Prop := lineHere s (op sp ro) m.sa m.part (portHalf n) h key
      let sector := toBytes 32 (lineField s key (32 * sectorOf m.sa) 32)
      let line := toBytes 128 (lineField s key 0 128)
      let tracked (u : State) : Prop := (metaAt u key).sharers.getLsbD n = true
      portOpen s n = true → memHome m Rights.rd m.sa s = .ok h → (metaAt s key).sp = 0 →
      (here .sector none → completesWith (.rds m melt) s fun u => sends n (rsp m 0 false sector) s u ∧ sameBytes s u) ∧
      (here .line none → completesWith (.rdl m melt) s fun u => sends n (rsp m 0 false line) s u ∧ sameBytes s u) ∧
      (here .sector (some n) → s.cch.clrBusy.getLsbD n = false →
        completesWith (.rdro m false melt) s fun u => sends n (rsp m 0 false sector) s u ∧ sameBytes s u ∧ tracked u) ∧
      (here .line (some n) → s.cch.clrBusy.getLsbD n = false →
        completesWith (.rdro m true melt) s fun u => sends n (rsp m 0 false line) s u ∧ sameBytes s u ∧ tracked u) ∧
      (here .sector (some n) → s.cch.clrBusy.getLsbD n = true →
        completesWith (.rdro m false melt) s fun u => sends n (rsp m 0 true sector) s u ∧ sameBytes s u ∧
          (metaAt u key).sharers = (metaAt s key).sharers)) ∧
  (∀ (m : PHdr) (s : State) (h : Half) (key : Nat),
      let n := m.port.val
      let at_ := 128 * key + 32 * sectorOf m.sa
      let here (mask : BitVec 128) (d : BitVec 1024) : Prop := lineHere s (.write mask d) m.sa m.part (portHalf n) h key ∧ noCopies s key
      portOpen s n = true → memHome m Rights.wr m.sa s = .ok h → s.integ.injArm = false →
      (∀ data : BitVec 256, here (sectorAt m.sa (BitVec.allOnes 32) data).1 (sectorAt m.sa (BitVec.allOnes 32) data).2 →
        completesWith (.wrs m data) s fun u => sends n (rsp m 0 false []) s u ∧ bytesStored key (32 * sectorOf m.sa) 32 data.toNat s u) ∧
      (∀ (mask : BitVec 32) (data : BitVec 256), mask ≠ 0 → here (sectorAt m.sa mask data).1 (sectorAt m.sa mask data).2 →
        completesWith (.wrm m mask data) s fun u => sends n (rsp m 0 false []) s u ∧
          (∀ i, i < 32 → memByte u.cache.data (at_ + i)
            = if mask.getLsbD i then data.extractLsb' (8 * i) 8 else memByte s.cache.data (at_ + i)) ∧
          (∀ a, a < at_ ∨ at_ + 32 ≤ a → memByte u.cache.data a = memByte s.cache.data a)) ∧
      (∀ data : BitVec 1024, m.cls ≠ 0 → here (BitVec.allOnes 128) data →
        completesWith (.wrl m data) s fun u => sends n (rsp m 0 false []) s u ∧ lineData u key = data ∧ sameBytesBut key s u)) ∧
  (∀ (m : PHdr) (data : BitVec 32768) (ctag : BitVec 32) (s : State) (h : Half),
      let n := m.port.val
      let base : Sa := m.sa &&& ~~~(4095 : BitVec 52)
      let key := bufKey base
      portOpen s n = true → m.cls = 3 → memHome m Rights.wr base s = .ok h → isBuf base = true → calm s = true → s.integ.injArm = false →
      s.tables.damage = [] → s.links.blocks = [] → (∀ i, i < 32 → rowClean s (key + i) = true ∧ noCopies s (key + i)) →
      completesWith (.wrb m false ctag data) s fun u =>
        sends n (rsp m 0 false []) s u ∧ (∀ i, i < 32 → lineData u (key + i) = data.extractLsb' (1024 * i) 1024) ∧
        (∀ a, a < 128 * key ∨ 128 * key + 4096 ≤ a → memByte u.cache.data a = memByte s.cache.data a) ∧ u.links.blocks = [])

/-- R174, R177, R288: a partner's atomic on a line that is there is accepted in order at its home, with its operands; no byte changes yet, and
the answer waits for its activation.

R288, R11: a partner's 4-byte atomic whose operand bytes 4 to 7 are not all 0 breaks a rule whose breach the spec leaves
undefined: it stops with the fault named for that, and with no other outcome. -/
def Obligations.PartnerAtomics : Prop :=
  (∀ (m : PHdr) (wide : Bool) (v cmp : BitVec 64) (s : State) (h : Half) (key : Nat),
      let n := m.port.val
      let accepts (c : Instr) (k : AtomKind) (w : BitVec 64) : Prop := completesWith c s fun u => ∃ a,
        (atuHalf u h).atoms = (atuHalf s h).atoms ++ [a] ∧ a.who = Who.port m.port m.cls m.tag ∧ a.kind = k ∧ a.wide = wide ∧ a.v = v ∧
        a.cmp = w ∧ a.sa = m.sa ∧ a.part = m.part ∧ a.go = false ∧ (link u n).tx = (link s n).tx ∧ sameBytes s u
      portOpen s n = true → m.sa.toNat % (if wide then 8 else 4) = 0 → memHome m Rights.atom m.sa s = .ok h →
      (wide = true ∨ (v.toNat < 2 ^ 32 ∧ cmp.toNat < 2 ^ 32)) → lineHere s (.atu 0) m.sa m.part (portHalf n) h key → noCopies s key →
      findAtom s h s.atu.ids = none →
      accepts (.linkAadd m wide v) .add 0 ∧ accepts (.linkAcas m wide v cmp) .cas cmp ∧ accepts (.linkAswp m wide v) .swp 0 ∧
      (∀ sg, accepts (.linkAmin m wide sg v) (.min sg) 0 ∧ accepts (.linkAmax m wide sg v) (.max sg) 0)) ∧
  (∀ (m : PHdr) (v cmp : BitVec 64) (sg : Bool) (s : State),
      (2 ^ 32 ≤ v.toNat → exec (.linkAadd m false v) s = .fault .breach ∧ exec (.linkAswp m false v) s = .fault .breach ∧
        exec (.linkAmin m false sg v) s = .fault .breach ∧ exec (.linkAmax m false sg v) s = .fault .breach) ∧
      (2 ^ 32 ≤ v.toNat ∨ 2 ^ 32 ≤ cmp.toNat → exec (.linkAcas m false v cmp) s = .fault .breach))

/-- R160, R161, R167, R168: a partner's ALLOC with quota left and a block free in the half it names gets one block that was free; its FREE of a block that the
partition owns puts the block into SCRUB; both are answered OK.

Where the manual is silent this rests on the model's own choices: log entry 6. -/
def Obligations.PartnerBlocks : Prop :=
  (∀ (m : PHdr) (sel : BitVec 2) (wait : Bool) (s : State),
    let n := m.port.val
    let h : Half := if sel = 0 then .e else if sel = 1 then .w else portHalf n
    let q := partReg (allocView s h) m.part.toNat
    sel ≠ 3 → portOpen s n = true → calm s = true → mayAct s (allocView s h) m.part (some n) = true →
    unavailable s h (portHalf n) = false →
    (m.part = 0 ∨ (used s h m.part).toNat < min 196608 (h.pick q.quotaE q.quotaW).toNat) →
    twf Blk.zero s.buf.blk = true → twf Region.zero s.tables.region = true → freeCount s h ≠ 0 →
    completesWith (.alloc m sel wait) s fun u => ∃ b : Nat,
      regionHalf (b / 1024) = h ∧ (region s (b / 1024)).state = 2 ∧ (region s (b / 1024)).busy = false ∧ (blk s b).st = 1 ∧ (blk u b).st = 3 ∧ (blk u b).owner = m.part ∧
      (∀ c, c ≠ b → blk u c = blk s c) ∧ used u h m.part = used s h m.part + 1 ∧
      sends n (rsp { m with sa := blockSa s b } 0 false []) s u ∧ sameBytes s u) ∧
  (∀ (m : PHdr) (b : Nat) (s : State),
    let n := m.port.val
    portOpen s n = true → calm s = true → freeTarget s (pipeView s (portHalf n)) m.part (some n) (portHalf n) m.sa = .ok b →
    (region s (b / 1024)).state = 2 → (blk s b).st = 3 → ((blk s b).owner = m.part ∨ m.part = 0) →
    (∀ e ∈ s.cache.line, e.1 / 512 = b → e.2.sharers = 0 ∧ e.2.rheld = false) →
    completesWith (.free m) s fun u =>
      (blk u b).st = 2 ∧ (blk u b).owner = (blk s b).owner ∧ (∀ c, c ≠ b → blk u c = blk s c) ∧
      used u (blockHalf b) (blk s b).owner = used s (blockHalf b) (blk s b).owner - 1 ∧ sends n (rsp m 0 false []) s u ∧ sameBytes s u)

/-! ## Coherence -/

/-- R198 steps 1 to 3: a partner's line write to a pinned line that partner ports share, at least one of them up, changes no byte yet: the line is invalidated first,
and the write waits for the acknowledgements of exactly the sharers whose ports are up.

R198 steps 4 and 5: with the last acknowledgement of a write's invalidation the sharers are cleared, the write is applied, and its
requester is answered.

Where the manual is silent this rests on the model's own choices: log entry 85. -/
def Obligations.WriteInvalidation : Prop :=
  (∀ (m : PHdr) (data : BitVec 1024) (s : State) (h : Half) (key : Nat),
      let n := m.port.val
      let sh := (metaAt s key).sharers
      portOpen s n = true → m.cls ≠ 0 → memHome m Rights.wr m.sa s = .ok h → isBuf m.sa = true →
      lineHere s (.write (BitVec.allOnes 128) data) m.sa m.part (portHalf n) h key →
      (metaAt s key).rheld = false → s.cch.clrBusy = 0 → sh.toNat < 64 → (∃ k, k < 6 ∧ sh.getLsbD k = true ∧ portLive s k = true) →
      completesWith (.wrl m data) s fun u =>
        sameBytes s u ∧ (metaAt u key).sharers = sh ∧
        ∃ o r, u.cache.invs = [o] ∧ o.key = key ∧ o.line = lineOf m.sa ∧ o.act = .perform r ∧ r.who = Who.port m.port m.cls m.tag ∧
          r.op = .write (BitVec.allOnes 128) data ∧ (∀ k, k < 6 → o.ports.getLsbD k = (sh.getLsbD k && portLive s k))) ∧
  (∀ (port p : PartnerPort) (c : Fin 4) (tag tg : BitVec 12) (sa : Sa) (s : State) (o : InvOp) (r : LineReq) (mask : BitVec 128)
      (d : BitVec 1024),
      portActive s port.val = true → portActive s p.val = true → onlyInv o s → o.tag = tag → o.line = lineOf sa → o.replica = false →
      (∀ k, k < 6 → o.ports.getLsbD k = decide (k = port.val)) → o.act = .perform r → r.op = .write mask d → r.who = Who.port p c tg →
      s.integ.injArm = false →
      completesWith (.invAck port tag sa) s fun u =>
        u.cache.invs = [] ∧ lineData u o.key = mergeBytes mask (lineData s o.key) d ∧ sameBytesBut o.key s u ∧ noCopies u o.key ∧
        sends p.val (rsp { port := p, cls := c, tag := tg, part := r.part, sa := r.sa } 0 false []) s u)

/-- R144, R66: a replica that finds a way empty in its set is stored there, clean, with REF 0; a drop notice ends RHELD of the home line; an
invalidation that finds no replica is acknowledged at once.

R201, R202, R203, R327: an invalidation whose INV has been with a port for its limit declares the port DOWN and sets the port's error bit; the sweep of a sharer that is being cleared
clears its bit in every line; the sweep after a metadata loss, with no replica left, allows replica hits again. -/
def Obligations.SharersKept : Prop :=
  (∀ (h : Half) (s : State) (rest : List HalfMsg), domRuns s 5 = true → domRuns s 6 = true →
      let first (x : HalfMsg) : Prop := h.pick s.cache.toE s.cache.toW = x :: rest
      let popped (u : State) : Prop := h.pick u.cache.toE u.cache.toW = rest
      (∀ (line : Sa) (p : Part) (d : BitVec 1024) (crcV : Bool) (crc : BitVec 32) (sp : BitVec 4) (i key : Nat),
        let e := gtLive s h i
        let k0 := setKey h e.group.toNat (farSet line)
        first (.install line p d crcV crc sp (some i)) → calm s = true → e.valid = true → rowClean s k0 = true →
        ((waysOf k0).filter fun k => (metaAt s k).replica).length < 2 →
        victim s k0 = some (key, s) → (metaAt s key).sv = 0 →
        completesWith (.replicaInstall h) s fun u =>
          popped u ∧ lineData u key = d ∧ sameBytesBut key s u ∧
          metaAt u key = { Meta.zero with tag := BitVec.ofNat 26 (farTag line), part := p, sv := 15, sp := sp, replica := true, lcrcV := crcV,
                                          lcrc := crc }) ∧
      (∀ (line : Sa) (key : Nat), first (.drop line) → calm s = true → findLine s h line false = some key →
        completesWith (.replicaDropNotice h) s fun u => popped u ∧ lineMarked key { metaAt s key with rheld := false } s u ∧
          changesOnly [.cache] s u) ∧
      (∀ (line : Sa) (p : Part) (o : InvOp), first (.inv line p) → findLine s h line true = none → onlyInv o s → o.line = line →
        o.home = h.other → o.ports ≠ 0 →
        completesWith (.replicaInvalidate h) s fun u => popped u ∧ u.cache.invs = [{ o with replica := false }] ∧ sameBytes s u)) ∧
  (∀ (s : State),
      (∀ (port : PartnerPort) (o : InvOp) (t : BitVec 64), portActive s port.val = true → onlyInv o s → o.ports.getLsbD port.val = true →
        (port.val, t) ∈ o.sent → due s t (1000 * max 10 s.cch.invTmo.toNat) = true →
        (∃ k, k < 6 ∧ k ≠ port.val ∧ o.ports.getLsbD k = true) →
        completesWith (.invTimeout port) s fun u =>
          (Machine.port u port.val).state = 6 ∧ (Machine.port u port.val).downEvt = true ∧ u.cch.dirErr.getLsbD port.val = true ∧
          u.cch.clrBusy.getLsbD port.val = true ∧ sameBytes s u ∧
          ∃ o2, u.cache.invs = [o2] ∧ o2.ports = setBit o.ports port.val false ∧ o2.tag = o.tag ∧ o2.key = o.key ∧ o2.line = o.line) ∧
      (∀ k : Fin 24, s.cch.clrBusy.getLsbD k.val = true →
        (∀ e ∈ s.cache.line, e.2 = metaAt s e.1) →
        completesWith (.sharerClearDone k) s fun u =>
          u.cch.clrBusy.getLsbD k.val = false ∧ (∀ key, (metaAt u key).sharers = setBit (metaAt s key).sharers k.val false) ∧
          sameBytes s u ∧ changesOnly [.cache, .cch] s u) ∧
      (∀ h : Half, h.pick s.cache.stopE s.cache.stopW = true → calm s = true → replicasIn s h = [] →
        completesWith (.replicaSweepDone h) s fun u =>
          h.pick u.cache.stopE u.cache.stopW = false ∧ sameBytes s u ∧ changesOnly [.cache] s u))

/-! ## The links -/

/-- R295, R296: a port comes up through DETECT, TRAIN and CONFIG: signal detection starts training, which when done has adapted its lanes, unless their loop is frozen (R59, R61), and sends the
slice's LINKCFG, a lane that training finds failed moved onto a spare; a good LINKCFG of the far end makes the port ACTIVE with its credits, a bad one sends it back to training with CFG_ERR; the limits of
training and configuration, and the quiet time of DOWN, move it as R296 says.

R298, R287: a PING is answered by a PONG with its TAG, PART and SA, which ends the far end's wait; a PING is sent after 10 µs without a frame, and its answer's limit, like the
limit of RECAL and FORCE_DOWN, takes the port DOWN.

R297: an ACTIVE port enters RECAL when the far end asks, when software asks, or after 10 µs without a good block, and keeps its transmit buffer;
recalibration done, it is ACTIVE again, and its first exchange is an ACK.

Where the manual is silent this rests on the model's own choices: log entries 102, 132. -/
def Obligations.LinkStates : Prop :=
  (∀ (n : PortId) (s : State),
      let p := port s n
      let st (k : BitVec 3) : Prop := p.state = k
      let moves (c : Instr) (k : BitVec 3) : Prop :=
        completesWith c s fun u => portMoves n k s u ∧ link u n = link s n ∧ changesOnly [.links] s u
      (st 1 → moves (.signalDetect n) 2) ∧
      (st 2 →
        (∀ eq : List LaneEq, completesWith (.trainDone { port := n, failed := 0, eq := eq }) s fun u => portMoves n 3 s u ∧
          (s.loops.frz.getLsbD (eqLoop n) = true → u.loops.laneEq = s.loops.laneEq) ∧
          (s.loops.frz.getLsbD (eqLoop n) = false → ∀ (k : Fin 16) (x : LaneEq), eq[k.val]? = some x →
            let l := loopOf s (eqLoop n)
            tget LaneEq.zero u.loops.laneEq (16 * n.val + k.val) =
              { x with ctle := BitVec.ofNat 16 (max l.lo.toNat (min l.hi.toNat x.ctle.toNat)) }) ∧
          (link u n).tx = [({ Frame.mk0 0xC0 0 0 0 0 with data := linkcfgData s n }, 0)] ∧ (link u n).expect = 0 ∧ (link u n).base = 0) ∧
        (∀ (k : Fin 16) (eq : List LaneEq), p.spares ≠ 0 → p.sub16 = 0x1F →
          completesWith (.trainDone { port := n, failed := setBit 0 k.val true, eq := eq }) s fun u =>
          portBecomes n { p with state := 3, since := s.clk.time, spares := p.spares - 1, sub16 := BitVec.ofNat 5 k.val, gen := p.gen + 2 } s u) ∧
        (due s p.since 50000000 = true → moves (.trainTimeout n) 1)) ∧
      (st 3 →
        (due s p.since 1000000 = true → moves (.configTimeout n) 2) ∧
        (∀ cfg : LinkCfg, cfg.role = (if n.val < 6 then 0 else 2) → cfg.proto = 1 → creditsOk n cfg.credits = true → calm s = true →
          s.cache.pool = [] → (link s n).buf = [] → (link s n).wait = [] →
          completesWith (.linkcfg n cfg) s fun u =>
            portBecomes n { p with state := 4, upEvt := true, since := s.clk.time, gen := p.gen + 1 } s u ∧ (link u n).cred = cfg.credits) ∧
        (∀ cfg : LinkCfg, cfg.role ≠ (if n.val < 6 then 0 else 2) ∨ cfg.proto ≠ 1 ∨ creditsOk n cfg.credits = false →
          completesWith (.linkcfg n cfg) s fun u =>
            portBecomes n { p with state := 2, cfgErr := true, since := s.clk.time, gen := p.gen + 1 } s u)) ∧
      (st 6 → due s p.since 100000 = true →
        completesWith (.downQuietEnd n) s fun u =>
          portBecomes n { p with failed := 0, state := if p.en && domOn s (portDom n) then 1 else 0, since := s.clk.time, gen := p.gen + 1 } s u)) ∧
  (∀ (n : PortId) (s : State),
      let active : Prop := portActive s n = true
      let calmLinks : Prop := calm s = true ∧ s.cache.pool = [] ∧ s.cache.offers = []
      (∀ f rest, active → (link s n).rx = f :: rest → f.opc = 0xC1 →
        completesWith (.ping n) s fun u => sends n (Frame.mk0 0xC2 f.tag f.part f.sa 0) s u ∧ (link u n).rx = rest ∧
          changesOnly [.links, .cnt, .cache] s u) ∧
      (active → completesWith (.pong n) s fun u => (link u n).pingAt = none ∧ (link u n).tx = (link s n).tx ∧ changesOnly [.links] s u) ∧
      (active → due s (link s n).lastFrame 10000 = true → (link s n).pingAt = none →
        completesWith (.pingSend n) s fun u => sends n (Frame.mk0 0xC1 0 0 0 0) s u ∧ (link u n).pingAt = some s.clk.time ∧
          changesOnly [.links, .cnt, .cache] s u) ∧
      (∀ t, active → (link s n).pingAt = some t → due s t 100000 = true → calmLinks →
        completesWith (.pingTimeout n) s fun u => portIsDown n s u) ∧
      ((port s n).state = 5 → due s (port s n).since 2000000 = true → calmLinks →
        completesWith (.recalTimeout n) s fun u => portIsDown n s u) ∧
      (domOn s (portDom n) = true → (port s n).state ≠ 0 → (port s n).state ≠ 6 → calmLinks →
        completesWith (.pptForceDown n) s fun u => portIsDown n s u)) ∧
  (∀ (n : PortId) (s : State),
      let recals (c : Instr) : Prop := completesWith c s fun u => portMoves n 5 s u ∧ link u n = link s n ∧ changesOnly [.links, .cnt] s u
      (portActive s n = true → domOn s (portDom n) = true → recals (.recalReq n) ∧ recals (.pptRecal n)) ∧
      (portActive s n = true → due s (link s n).lastBlock 10000 = true → recals (.noValidBlockTimeout n)) ∧
      ((port s n).state = 5 → withholds s = false → (link s n).buf = [] → (link s n).wait = [] → calm s = true → s.cache.pool = [] →
        completesWith (.recalDone n) s fun u => portMoves n 4 s u ∧ (link u n).tx = (link s n).tx ∧
          (link u n).ctrl = (link s n).ctrl ++ [(0, (link s n).expect, (link s n).freed, 0)] ∧ (link u n).unacked = 0 ∧ (link u n).replays = 0))

/-- R285, R294: an ACK frees the oldest flits below its sequence number and returns credits; a NAK that frees nothing, and 10 µs without progress, start a
replay; what has been received is acknowledged with the credits it has freed, which are kept back while the transmit buffer is full (R297) or a warm reset
withholds them (R378).

R280, R282, R287, R294: a damaged block, or one out of sequence, is discarded with a NAK, its corrected symbols counted for the equalizer all the same; a good block in sequence whose one frame flit starts and ends a
frame of a known opcode delivers that frame.

Where the manual is silent this rests on the model's own choices: log entries 53, 84, 87. -/
def Obligations.LinkBlocks : Prop :=
  (∀ (n : PortId) (s : State),
      let x := link s n
      let sum (c d : BitVec 16) : BitVec 16 := satAdd c d.toNat
      let added (c : Credits) : Credits := { c0 := sum x.cred.c0 c.c0, c1 := sum x.cred.c1 c.c1, c2 := sum x.cred.c2 c.c2,
                                              c3 := sum x.cred.c3 c.c3, invsc := sum x.cred.invsc c.invsc }
      let keeps (y : LinkSt) (u : State) : Prop := link u n = y ∧ (∀ k, k ≠ n.val → link u k = link s k) ∧ changesOnly [.links, .cnt] s u
      portActive s n = true →
      (∀ (c : Credits) (k : Nat), 0 < k → k < 1024 → k ≤ x.tx.length → x.buf = [] → x.wait = [] →
        completesWith (.ack n (x.base + BitVec.ofNat 10 k) c) s
          (keeps { x with cred := added c, tx := x.tx.drop k, base := x.base + BitVec.ofNat 10 k, replays := 0, progress := s.clk.time })) ∧
      (∀ c : Credits, x.buf = [] → x.wait = [] → txFlits x ≠ 0 → x.replays < 2 →
        completesWith (.nak n x.base c) s (keeps { x with cred := added c, replays := x.replays + 1, progress := s.clk.time })) ∧
      (txFlits x ≠ 0 → x.replays < 2 → due s x.progress 10000 = true →
        completesWith (.replayTimeout n) s (keeps { x with replays := x.replays + 1, progress := s.clk.time })) ∧
      (txFlits x ≠ 0 → 2 ≤ x.replays → due s x.progress 10000 = true →
        completesWith (.replayTimeout n) s fun u => portMoves n 5 s u) ∧
      (x.unacked ≠ 0 ∨ x.freed ≠ Credits.zero →
        (withholds s = false → x.wait = [] → completesWith (.ackSendTimer n) s
          (keeps { x with ctrl := x.ctrl ++ [(0, x.expect, x.freed, 0)], unacked := 0, freed := Credits.zero })) ∧
        (withholds s = true ∨ x.wait ≠ [] → completesWith (.ackSendTimer n) s
          (keeps { x with ctrl := x.ctrl ++ [(0, x.expect, Credits.zero, 0)], unacked := 0 })))) ∧
  (∀ (n : PortId) (s : State) (corrected : List (Fin 16)) (bseq : BitVec 8),
      let x := link s n
      let symbols := (x.symErr.filter fun e => !due s e.1 1000000) ++ corrected.map fun l => (s.clk.time, l)
      (port s n).state = 4 → withholds s = false → x.wait = [] →
      (∀ flits, completesWith (.blockReceived n false corrected bseq flits) s fun u =>
        link u n = { x with nak := true, ctrl := x.ctrl ++ [(1, x.expect, x.freed, 0)], unacked := 0, freed := Credits.zero, symErr := symbols } ∧
        changesOnly [.links, .cnt] s u) ∧
      (∀ flits, bseq ≠ x.expect.setWidth 8 → x.nak = false →
        completesWith (.blockReceived n true corrected bseq flits) s fun u =>
          link u n = { x with nak := true, ctrl := x.ctrl ++ [(1, x.expect, x.freed, 0)], unacked := 0, freed := Credits.zero, symErr := symbols } ∧
          changesOnly [.links, .cnt] s u) ∧
      (∀ (f : Flit) (idle : List Flit), bseq = x.expect.setWidth 8 → f.kind = 1 → f.sof = true → f.eof = true → (∀ g ∈ idle, g.kind = 0) →
        x.open_ = [] → x.unacked < 63 → rxHeld x f.cls f.invsc < creditOf (sliceCredits n) f.cls f.invsc →
        let g := parseFrame n f.cls f.invsc (toBytes 62 f.content.toNat)
        (∃ k, opcData n g.opc.toNat g.aux.toNat = some k ∧ k ≤ 46) →
        completesWith (.blockReceived n true corrected bseq (f :: idle)) s fun u =>
          (link u n).rx = x.rx ++ [g] ∧ (link u n).expect = x.expect + 1 ∧ (link u n).unacked = x.unacked + 1 ∧ (link u n).nak = false ∧
          (link u n).lastBlock = s.clk.time ∧ (link u n).open_ = [] ∧ port u n = port s n))

/-- R299, R286: software's sparing request of an ACTIVE port asks the far end, naming lane, spare and a block; the answer with the same three moves the lane
onto the spare and counts, any other is ignored; a request of the far end is answered with the same three and carried out; without an answer in 100 µs
the slice's own ends with SPARE_FAIL.

Where the manual is silent this rests on the model's own choices: log entry 108. -/
def Obligations.LaneSparing : Prop :=
  ∀ (n : PortId) (s : State) (lane : BitVec 5),
    let x := link s n
    let p := port s n
    let named (spare : Bool) : BitVec 6 := BitVec.ofNat 6 (lane.toNat + 32 * b2n spare)
    let spared (y : LinkSt) (u : State) : Prop :=
      link u n = y ∧ portBecomes n { p with spares := p.spares - 1, sub16 := lane, gen := p.gen + 1 } s u ∧ changesOnly [.links, .cnt] s u
    (portActive s n = true → domOn s (portDom n) = true → lane.toNat < 16 → x.sparing = none → p.spares ≠ 0 → calm s = true →
      completesWith (.pptSpare n lane) s fun u => ∃ b,
        link u n = { x with sparing := some { lane := lane, spare := p.sub16 != 0x1F, since := s.clk.time, block := b },
                            ctrl := x.ctrl ++ [(2, b, Credits.zero, named (p.sub16 != 0x1F))] } ∧ changesOnly [.links, .freeCtr] s u) ∧
    (∀ block : BitVec 10, portActive s n = true → lane.toNat < 16 → p.sub16 = 0x1F → p.spares ≠ 0 →
      (x.sparing = none → completesWith (.spareSwitch n lane false block) s
        (spared { x with ctrl := x.ctrl ++ [(2, block, Credits.zero, named false)] })) ∧
      (∀ q : Sparing, x.sparing = some q → q.lane = lane → q.spare = false →
        (q.block = block → completesWith (.spareSwitch n lane false block) s (spared { x with sparing := none })) ∧
        (q.block ≠ block → completesWith (.spareSwitch n lane false block) s (changesOnly [] s)))) ∧
    (∀ q, x.sparing = some q → due s q.since 100000 = true →
      completesWith (.spareMarginTimeout n) s fun u =>
        link u n = { x with sparing := none } ∧ portBecomes n { p with spareFail := true } s u ∧ changesOnly [.links] s u)

/-! ## The shelf -/

/-- R121, R129, R292: a whole, unspoiled fill of a line miss is stored in its way, the read that waits for it is answered with the line, and the miss
register is free.

R132, R137, R292: an acknowledgement ends its write and answers the requester of a write-through, once every sector that it touches has been sent; ACCEPT sends the offered sectors as OFFD; DECLINE and the
offer's limit free its slot.

R329, R318: a shelf's error report makes the valid, unpoisoned sectors of the resident lines it names dirty, is recorded and acknowledged; a request
unanswered for 1 ms takes its pool port DOWN, and a writeback then waits for a port.

Where the manual is silent this rests on the model's own choices: log entry 100. -/
def Obligations.ShelfResponses : Prop :=
  (∀ (f : Fin 2) (tag tg : BitVec 12) (sa : Sa) (s : State) (q : PoolReq) (x : Mshr) (r : LineReq) (p : PartnerPort) (c : Fin 4)
      (data : BitVec 1024),
      portActive s (6 + f.val) = true → portActive s p.val = true → s.cache.pool = [q] → q.kind = .fill → q.tag = tag → q.port = some f →
      q.who = .mshr → q.mask = 15 → q.var = 0 → lineOf q.line = lineOf sa → s.cache.mshr = [x] → x.home = q.home → x.line = q.line →
      x.evicting = false → x.fetch = 15 → x.waiters = [r] → r.op = .read .line none false → r.who = .port p c tg →
      calm (s.onCache fun k => { k with mshr := [], pool := [] }) = true → rowClean s x.key = true → s.integ.injArm = false →
      completesWith (.filld f tag sa 0 0 15 none data) s fun u =>
        lineData u x.key = data ∧ sameBytesBut x.key s u ∧ (metaAt u x.key).sv = 15 ∧ (metaAt u x.key).sp = 0 ∧
        u.cache.mshr = [] ∧ u.cache.pool = [] ∧
        sends p.val (rsp { port := p, cls := c, tag := tg, part := r.part, sa := r.sa } 0 false (toBytes 128 data.toNat)) s u) ∧
  (∀ (f : Fin 2) (tag tg : BitVec 12) (sa : Sa) (s : State), portActive s (6 + f.val) = true →
      (∀ (q : PoolReq) (r : LineReq) (p : PartnerPort) (c : Fin 4) (mask : BitVec 128) (d : BitVec 1024), calm s = true → s.cache.pool = [q] →
        q.kind = .wt → q.tag = tag → q.port = some f → q.who = .uncached r → r.op = .write mask d → r.who = .port p c tg →
        lineOf q.line = lineOf sa → portActive s p.val = true →
        (q.var = 0 ∨ withoutSector mask (firstSector mask) = 0 →
          completesWith (.wack f tag sa 0) s fun u =>
            u.cache.pool = [] ∧ sends p.val (rsp { port := p, cls := c, tag := tg, part := r.part, sa := r.sa } 0 false []) s u ∧ sameBytes s u) ∧
        (q.var ≠ 0 → withoutSector mask (firstSector mask) ≠ 0 →
          completesWith (.wack f tag sa 0) s fun u => sameBytes s u ∧ link u p.val = link s p.val ∧
            ∃ y z, u.cache.pool = [y] ∧ y.kind = .wt ∧ y.var = 1 ∧ y.who = .uncached z ∧
              z.op = .write (withoutSector mask (firstSector mask)) d ∧ z.who = r.who)) ∧
      (∀ (o : Offer) (g : Fin 2), calm s = true → s.cache.offers = [o] → o.tag = tag → o.line = lineOf sa → o.poison = 0 → o.lcrc = none →
        poolPort s o.line = some g →
        completesWith (.accept f tag sa) s fun u =>
          u.cache.offers = [] ∧ sameBytes s u ∧
          sends (6 + g.val) { Frame.mk0 0x44 tag o.part o.line 2 with aux := o.valid.setWidth 32, data := sectorBytes o.valid o.data } s u) ∧
      (∀ (o : Offer), s.cache.offers = [o] → o.tag = tag →
        (o.line = lineOf sa → completesWith (.decline f tag sa) s fun u => u.cache.offers = [] ∧ changesOnly [.cache, .links, .cnt] s u) ∧
        (due s o.since 10000 = true → completesWith (.offerTimeout o.home tag) s fun u => u.cache.offers = [] ∧ changesOnly [.cache, .cnt] s u))) ∧
  (∀ (f : Fin 2) (tag : BitVec 12) (s : State), portActive s (6 + f.val) = true →
      (∀ (sa : Sa) (lines : BitVec 16) (etype : BitVec 8) (h : Half), decodeSa s s.cur sa = .ok (.far h) → homeUp s h = true →
        etype.toNat ≤ 1 →
        completesWith (.serr f tag sa lines etype) s fun u =>
          sends (6 + f.val) (Frame.mk0 0x45 tag 0 sa 0) s u ∧ u.integ.shelf = true ∧ u.log.tail = (if (s.log.tail - s.log.head).toNat < 64 then s.log.tail + 1 else s.log.tail) ∧
          sameBytes s u ∧
          ∀ key ∈ residentIn s (lineOf sa).toNat (lines.toNat + 1),
            homeOf s s.cur (farSaOf (metaAt s key).tag key) = .ok (regionHalf (keyRegion key)) →
            (metaAt u key).sd = (metaAt s key).sd ||| ((metaAt s key).sv &&& ~~~(metaAt s key).sp)) ∧
      (∀ q : PoolReq, calm s = true → s.cache.pool = [q] → s.cache.offers = [] → q.kind = .wb → q.tag = tag → q.port = some f →
        portActive s (6 + (1 - f.val)) = false → due s q.since 1000000 = true →
        completesWith (.shelfResponseTimeout f tag) s fun u =>
          portIsDown (6 + f.val) s u ∧ u.cache.pool = [{ q with port := none }] ∧ sameBytes s u))

/-! ## Clocks, loops, regulation and epochs -/

/-- R70, R72, R73, R297: lock of the PLL and its loss, with recalibration of every ACTIVE link; failure of the crystal; a read of the low word of the timebase
latches the high word, which the same requester's next read of the high word takes, and no other does. -/
def Obligations.ClockEvents : Prop :=
  ∀ s : State,
    (s.pwr.vaon = true → s.clk.pllLock = false →
      completesWith .pllLock s fun u => u.clk.pllLock = true ∧ u.clk.pclkEvt = true ∧ u.clk.time = s.clk.time) ∧
    (s.clk.pllLock = true →
      completesWith .pllLockLoss s fun u => u.clk = { s.clk with pllLock := false, pclkEvt := true } ∧
        (∀ n, n < 8 → (port u n).state = if portActive s n then 5 else (port s n).state) ∧ changesOnly [.clk, .links, .cnt] s u) ∧
    (completesWith .xtalFail s fun u => u.clk = { s.clk with xtalOn := false, xtalFail := s.clk.xtalFail || s.clk.pllLock } ∧
      changesOnly [.clk] s u) ∧
    (∀ r : Requester,
      (completesWith (.loopTimeLowRead r) s fun u => u.clk.read = s.clk.time.extractLsb' 0 32 ∧
        tget none u.clk.latch (latchIdx r) = some (s.clk.time.extractLsb' 32 32) ∧
        (∀ k, k ≠ latchIdx r → tget none u.clk.latch k = tget none s.clk.latch k) ∧ changesOnly [.clk] s u) ∧
      (completesWith (.loopTimeHighRead r) s fun u =>
        u.clk.read = (match tget none s.clk.latch (latchIdx r) with | some v => v | none => s.clk.time.extractLsb' 32 32) ∧
        tget none u.clk.latch (latchIdx r) = none ∧
        (∀ k, k ≠ latchIdx r → tget none u.clk.latch k = tget none s.clk.latch k) ∧ changesOnly [.clk] s u))

/-- R53, R54, R55, R48: one evaluation of a live LRS loop whose VALUE stands within its limits, 1 µs or more after the last: the slowest ring of the domains that are
on is MEAS, and R54's law gives the new VALUE, clamped to the limits, each raise at most once per 2 µs and each lowering once per 20 µs; a VALUE that
changes is commanded, to be read back 10 µs later. An evaluation that is not due changes nothing.

R57: the third failed transaction in a row, a voltage far from what was commanded, or the regulator's own fault stop its writes with DEV_FAULT; a
failure before that counts; a transaction that succeeds clears the count.

Where the manual is silent this rests on the model's own choices: log entries 3, 110, 111. -/
def Obligations.SupplyLoop : Prop :=
  (∀ (h : Half) (seqR tagR dataR linkR : BitVec 16) (s : State),
      let n := h.idx
      let l := loopOf s n
      let m := tget LoopMem.reset s.loops.mem n
      let a := avsOf s h
      let meas := (ringMax s h seqR tagR dataR linkR).toNat
      let old := (loopOut l).toNat
      loopOn s n = true → loopLive s n = true → l.devFault = false → l.lo.toNat ≤ old → old ≤ l.hi.toNat → l.hi.toNat ≤ 900 →
      let raise := longAgo s m.lastRaise 2000
      let lower := longAgo s m.lastLower 20000
      let gives (v : Nat) : Prop := completesWith (.lrsEvaluate h seqR tagR dataR linkR) s fun u =>
        (loopOf u n).measure.toNat = meas ∧ (loopOf u n).value.toNat = v ∧ (loopOf u n).written = none ∧
        (loopOf u n).atLo = decide (v = l.lo.toNat) ∧ (loopOf u n).atHi = decide (v = l.hi.toNat) ∧
        avsOf u h = (if v = l.value.toNat then a else
          { a with cmds := (s.clk.time, BitVec.ofNat 16 v) :: a.cmds, writes := a.writes ++ [(s.clk.time, BitVec.ofNat 16 v)],
                   reads := a.reads ++ [s.clk.time + 10000] }) ∧
        (∀ k, k ≠ n → loopOf u k = loopOf s k) ∧ changesOnly [.loops] s u
      (longAgo s m.last 1000 = false → completesWith (.lrsEvaluate h seqR tagR dataR linkR) s (changesOnly [] s)) ∧
      (longAgo s m.last 1000 = true →
        gives (if l.target.toNat + 16 < meas then (if raise then min l.hi.toNat (old + 20) else old)
          else if l.target.toNat < meas then (if raise then min l.hi.toNat (old + 5) else old)
          else if l.target.toNat ≤ meas + l.hyst.toNat then old
          else if lower then max l.lo.toNat (old - 5) else old))) ∧
  (∀ (h : Half) (s : State),
      let a := avsOf s h
      let faults (u : State) : Prop :=
        (loopOf u h.idx).devFault = true ∧ (avsOf u h).reads = [] ∧ (avsOf u h).writes = [] ∧ changesOnly [.loops] s u
      let becomes (r : AvsResult) (b : Avs) : Prop := completesWith (.avsReadback h r) s fun u => avsOf u h = b ∧
        loopOf u h.idx = loopOf s h.idx ∧ changesOnly [.loops] s u
      let fails (r : AvsResult) (b : Avs) : Prop :=
        (a.fails < 2 → becomes r { b with fails := a.fails + 1 }) ∧ (2 ≤ a.fails → completesWith (.avsReadback h r) s faults)
      (∀ w rest, a.writes = w :: rest →
        becomes (.written true) { a with writes := rest, fails := 0 } ∧ fails (.written false) { a with writes := rest, cmds := a.cmds.erase w }) ∧
      becomes (.status (some false)) { a with fails := 0 } ∧ completesWith (.avsReadback h (.status (some true))) s faults ∧
      fails (.status none) a ∧
      (∀ t rest, a.reads = t :: rest → t.toNat ≤ s.clk.time.toNat → (∀ w ∈ a.writes, t.toNat < w.1.toNat) →
        let near (mv : BitVec 16) : Prop := ∃ c ∈ avsRefs a.cmds t.toNat, mv.toNat ≤ c.2.toNat + 10 ∧ c.2.toNat ≤ mv.toNat + 10
        fails (.voltage none) { a with reads := rest } ∧
        (∀ mv, ¬ near mv → completesWith (.avsReadback h (.voltage (some mv))) s faults) ∧
        (∀ mv, near mv → becomes (.voltage (some mv)) { a with reads := rest, fails := 0, cmds := avsRefs a.cmds t.toNat })))

/-- R62, R60, R67, R50: an evaluation of each of the other loops, when it is due, while it drives its output and its half is on: what MEAS asks for, clamped to the
limits, is the new VALUE; a VALUE that new limits exclude moves to the nearer of them. R59: the lane that an EQ loop has adapted takes the new VALUE and its taps.

Where the manual is silent this rests on the model's own choices: log entries 26, 27, 112, 114, 115, 132. -/
def Obligations.LoopLaws : Prop :=
  ∀ (h : Half) (s : State),
    let mem (n : Nat) : LoopMem := tget LoopMem.reset s.loops.mem n
    let v (n : Nat) : Int := (loopOut (loopOf s n)).toNat
    let target (n : Nat) : Nat := (loopOf s n).target.toNat
    let limited (n : Nat) (want : Int) : BitVec 16 :=
      let l := loopOf s n
      BitVec.ofInt 16 (if v n < l.lo.toNat then l.lo.toNat else if l.hi.toNat < v n then l.hi.toNat else max l.lo.toNat (min l.hi.toNat want))
    let takes (n : Nat) (meas value : BitVec 16) (u : State) : Prop :=
      (loopOf u n).measure = meas ∧ (loopOf u n).value = value ∧ (loopOf u n).written = none ∧ (∀ k, k ≠ n → loopOf u k = loopOf s k) ∧
      changesOnly [.loops] s u
    let gives (c : Instr) (n : Nat) (meas : Nat) (want : Int) : Prop :=
      loopOn s n = true → loopLive s n = true → completesWith c s (takes n (BitVec.ofNat 16 meas) (limited n want))
    (let n := 4 + h.idx
     let meas := min 65535 ((mem n).hits * 3600000000000 / max 1 (elapsed s ((mem n).last.getD (mem n).hour)))
     (mem n).ready ≠ [] ∨ due s (mem n).hour 3600000000000 = true →
     gives (.scrubLoopEvaluate h) n meas
       (if target n < meas then ((loopOut (loopOf s n)).toNat / 2 : Nat) else if 4 * meas < target n ∧ 3 ≤ (mem n).low then 2 * v n else v n)) ∧
    (let n := 6 + h.idx
     let l := loopOf s n
     ∀ m, hottest s h = some m → longAgo s (mem n).last 100000 = true → loopOn s n = true → loopLive s n = true →
       completesWith (.refrLoopEvaluate h) s
         (takes n (BitVec.ofInt 16 m) (BitVec.ofNat 16 (min (refrLaw m (target n)) (if v n < l.lo.toNat then l.lo.toNat else l.hi.toNat))))) ∧
    (let n := 8 + h.idx
     ∀ ended hits rest, (mem n).ready = (ended, hits) :: rest →
     let meas := hits * 256 / ended
     (ended ≠ 0 →
       gives (.prefLoopEvaluate h) n meas (if target n < meas then v n - 1 else if 2 * meas < target n then v n + 1 else v n)) ∧
     (ended = 0 → gives (.prefLoopEvaluate h) n 0 (v n))) ∧
    (let n := 10 + h.idx
     ∀ e meas rest, (mem n).ready = (e, meas) :: rest →
     gives (.slotLoopEvaluate h) n meas
       (if target n < meas then v n - 1 else if 2 * meas < target n ∧ 15 ≤ (mem n).low then v n + 1 else v n)) ∧
    (let n := 12 + h.idx
     ∀ e meas rest, (mem n).ready = (e, meas) :: rest →
     gives (.driftLoopEvaluate h) n meas
       (if meas < target n then v n + 1 else if target n + 32 < meas then v n - 1 else v n)) ∧
    (∀ (pool : Bool) (n : PortId) (lane : Fin 16) (taps code : BitVec 16),
      let k := if pool then 3 else 2
      let rs := laneRatios s pool
      let i := 16 * n.val + lane.val
      i ∈ rs.map (·.1) → target k ≤ (worstRatio rs).toNat → calm s = true → loopLive s k = true →
      completesWith (.eqLoopEvaluate pool n lane taps false code) s fun u =>
        takes k (worstRatio rs) (limited k code.toNat) u ∧
        tget LaneEq.zero u.loops.laneEq i = { ctle := limited k code.toNat, taps := taps })

/-- R303: the order in which a half's arbiter grants among those that can have a request ready: with regulation on, a ready master below its FLOOR; then work without
regulation; with no master ready, the plow; with nothing ready, nobody. A grant counts once, for its taker.

R306, R307, R308: at a window boundary with no regulator waiting to switch epoch, every master's count becomes its LAST count and starts again at 0; a master that every
grant of the window found ready and that got fewer than FLOOR − 1 of them sets FLOOR_MISS; a grant after a boundary counts in the new window.

Where the manual is silent this rests on the model's own choices: log entry 28. -/
def Obligations.Regulation : Prop :=
  (∀ (h : Half) (ready : BitVec 22) (s : State),
      let v := bwrView s h
      let below (m : Nat) : Prop := m < 22 ∧ ready.getLsbD m = true ∧ masterUp s m = true ∧ (mstat s h m).count < (mcfg v h m).floor.toNat
      let all (u : State) : Nat := h.pick u.bwr.allE u.bwr.allW
      let plows (u : State) : Nat := h.pick u.bwr.plowE u.bwr.plowW
      let same (u : State) : Prop := ∀ m, m < 22 → (mstat u h m).count = (mstat s h m).count
      domOn s (h.pick 3 4) = true →
      (ready = 0 → completesWith (.arrayGrant h ready false false) s fun u => same u ∧ all u = all s ∧ changesOnly [] s u) ∧
      (s.bwr.window.toNat / 1000 < s.clk.time.toNat / 1000 → v.bwrEn = false →
        ∀ plow, completesWith (.arrayGrant h ready true plow) s fun u => all u = 1 ∧ plows u = 0 ∧
          (∀ m, m < 22 → (mstat u h m).count = 0 ∧ (mstat u h m).last = BitVec.ofNat 14 (mstat s h m).count) ∧ changesOnly [.bwr, .cnt] s u) ∧
      (s.clk.time.toNat / 1000 ≤ s.bwr.window.toNat / 1000 →
        (∀ unreg plow, v.bwrEn = true → (∃ m, below m) →
          completesWith (.arrayGrant h ready unreg plow) s fun u => ∃ m, below m ∧ (mstat u h m).count = (mstat s h m).count + 1 ∧
            (∀ k, k < 22 → k ≠ m → (mstat u h k).count = (mstat s h k).count) ∧ all u = all s + 1 ∧ plows u = plows s ∧
            changesOnly [.bwr, .cnt] s u) ∧
        (∀ plow, (v.bwrEn = true → ¬ ∃ m, below m) →
          completesWith (.arrayGrant h ready true plow) s fun u => same u ∧ all u = all s + 1 ∧ plows u = plows s ∧ changesOnly [.bwr, .cnt] s u) ∧
        (ready = 0 → completesWith (.arrayGrant h ready false true) s fun u => same u ∧ all u = all s + 1 ∧ plows u = plows s + 1 ∧
          changesOnly [.bwr, .cnt] s u))) ∧
  (∀ s : State, s.bwr.window.toNat / 1000 < s.clk.time.toNat / 1000 → s.glb.lag.getLsbD 6 = false → s.glb.lag.getLsbD 7 = false →
      completesWith .windowEnd s fun u =>
        (∀ (h : Half) (m : Nat), m < 22 →
          let all := h.pick s.bwr.allE s.bwr.allW
          let x := mstat s h m
          (mstat u h m).last = BitVec.ofNat 14 x.count ∧ (mstat u h m).count = 0 ∧ (mstat u h m).ready = 0 ∧
          (mstat u h m).floorMiss
            = (x.floorMiss || decide (0 < all ∧ x.ready = all ∧ x.count + 1 < (mcfg (bwrView s h) h m).floor.toNat))) ∧
        u.bwr.allE = 0 ∧ u.bwr.allW = 0 ∧ u.bwr.plowE = 0 ∧ u.bwr.plowW = 0 ∧
        u.bwr.window.toNat = s.clk.time.toNat / 1000 * 1000 ∧ changesOnly [.bwr, .cnt] s u)

/-- R273, R311, R312: EPOCH in S mode advances the epoch, or answers BUSY when the advance is refused.

R310 to R315: an advance puts the shadow values in force and keeps the old ones for the units that lag; one that R312 refuses changes nothing but the refusal and its
reason; a unit at its safe point leaves GLB_EPOCH_LAG, and the last one ends the advance. -/
def Obligations.EpochAdvances : Prop :=
  (∀ (t : ThreadId) (f : TFields) (s : State), issues t [f.d.toNat] s → standsAt t (.epoch t f) s → f.a = 0 → f.b = 0 → f.v = 0 → f.c = 0 →
      f.imm = 0 →
      let s1 := fetched t s
      let th := thr s1 t.val
      (thr s t.val).part = 0 →
      (epochReason s1 = 0 → epochUnits s1 ≠ 0 →
        completesWith (.epoch t f) s fun u =>
          thr u t.val = ended (th.setG f.d.toNat (BitVec.ofNat 64 ((s1.glb.epoch + 1).toNat * 2 ^ 32))).next ∧
          u.prev = s1.cur ∧ u.cur = s1.shadow ∧ u.glb.epoch = s1.glb.epoch + 1 ∧ u.glb.pending = true ∧ u.glb.lag = epochUnits s1) ∧
      (epochReason s1 ≠ 0 →
        completesWith (.epoch t f) s fun u =>
          becameWith [.glb] t (th.setG f.d.toNat 13).next s1 u ∧
          u.glb = { s1.glb with refused := true, reason := BitVec.ofNat 3 (epochReason s1) })) ∧
  (∀ s : State,
      (epochReason s = 0 → epochUnits s ≠ 0 →
        completesWith .epochAdvance s fun u => u.cur = s.shadow ∧ u.prev = s.cur ∧ u.shadow = s.shadow ∧
          u.glb = { s.glb with epoch := s.glb.epoch + 1, pending := true, since := s.clk.time, lag := epochUnits s } ∧
          changesOnly [.cur, .prev, .glb, .tables, .cch, .cnt] s u) ∧
      (epochReason s ≠ 0 →
        completesWith .epochAdvance s fun u => u.glb = { s.glb with refused := true, reason := BitVec.ofNat 3 (epochReason s) } ∧
          changesOnly [.glb] s u) ∧
      (s.glb.pending = true → epochReason s = 1) ∧
      (∀ i : Fin 26, s.glb.lag.getLsbD i.val = true → i.val < 2 ∨ 7 < i.val →
        (setBit s.glb.lag i.val false ≠ 0 →
          completesWith (.unitEpochSwitch i) s fun u => u.glb = { s.glb with lag := setBit s.glb.lag i.val false } ∧ changesOnly [.glb] s u) ∧
        (setBit s.glb.lag i.val false = 0 → s.glb.pending = true → s.glb.note = 0 →
          completesWith (.unitEpochSwitch i) s fun u =>
            u.glb = { s.glb with lag := 0, pending := false, epochDone := s.glb.epoch, doneEvt := true } ∧ changesOnly [.glb] s u)))

/-! ## The plow, reductions in order, and buffers -/

/-- R150, R151: one step of a line operation on a resident line with no copy elsewhere that the running command covers: CLEAN writes the dirty sectors back and leaves the line
clean; DEMOTE and MELT-RANGE mark it; INVALIDATE drops it, dirty or not; FLUSH writes it back and drops it.

R152, R153, R154, R170: a command with nothing left to do completes and counts, a failed one with its code and sequence number; a REGROUP-ENTRY of an empty entry then holds the
new one; a conversion, its sweep done, wipes its region and gives it its new state, with every block of a region that becomes PINNED free. -/
def Obligations.PlowSteps : Prop :=
  (∀ (h : Half) (key : Nat) (s : State) (c : PlowCmd) (cs : List PlowCmd) (g : Fin 2),
      let m := metaAt s key
      let step : Instr := .plowLineStep h key
      s.cch.plow = c :: cs → c.started = true → key ∈ h.pick c.workE c.workW → domRuns s (h.pick 3 4) = true → domRuns s (h.pick 5 6) = true →
      warmFenced s = false → calm s = true → rowClean s key = true → c.scope = 2 → m.sv ≠ 0 → m.pinned = false → m.replica = false → noCopies s key →
      s.cache.pool = [] → s.cache.offers = [] → poolPort s (saOf s key) = some g →
      let wb : Frame := { Frame.mk0 0x41 s.cache.poolTag m.part (saOf s key) 2 with
        aux := pack 32 [(0, m.sd.toNat), (4, (m.sp &&& m.sd).toNat), (8, b2n (crcIf m).isSome)], chk := (crcIf m).isSome,
        data := sectorBytes m.sd (lineData s key) ++ crcBytes (crcIf m) }
      let done (u : State) : Prop := sameBytes s u ∧ (∃ d, u.cch.plow = d :: cs ∧ key ∉ d.workE ∧ key ∉ d.workW ∧ d.op = c.op)
      (c.op = 4 → completesWith step s fun u => done u ∧ lineMarked key { m with ref := false, demoted := true } s u) ∧
      (c.op = 5 → completesWith step s fun u => done u ∧ lineMarked key { m with melt := true } s u) ∧
      (c.op = 1 → m.sd ≠ 0 → completesWith step s fun u =>
        done u ∧ lineMarked key { m with sd := 0 } s u ∧ sends (6 + g.val) wb s u ∧ u.cache.pool.length = 1) ∧
      (c.op = 2 → completesWith step s fun u => done u ∧ (metaAt u key).sv = 0 ∧ (metaAt u key).sd = 0 ∧ u.cache.pool = []) ∧
      (c.op = 3 → m.sd ≠ 0 → completesWith step s fun u =>
        done u ∧ (metaAt u key).sv = 0 ∧ (metaAt u key).sd = 0 ∧ sends (6 + g.val) wb s u ∧ u.cache.pool.length = 1)) ∧
  (∀ (s : State) (c : PlowCmd), s.cch.plow = [c] → c.started = true → c.workE = [] → c.workW = [] → calm s = true →
      let counts (u : State) : Prop := u.cch.plow = [] ∧ u.cch.done = s.cch.done + 1
      (c.code = 0 → 1 ≤ c.op.toNat → c.op.toNat ≤ 5 →
        completesWith .plowCommandDone s fun u => counts u ∧ u.cch.cmderr = s.cch.cmderr ∧ sameBytes s u) ∧
      (c.code ≠ 0 →
        completesWith .plowCommandDone s fun u => counts u ∧ u.cch.cmderr = true ∧ u.cch.errCode = c.code ∧ u.cch.errSeq = c.seq.setWidth 28 ∧
          changesOnly [.cch] s u) ∧
      (c.code = 0 → c.op = 6 → s.tables.retiring = none →
        completesWith .plowCommandDone s fun u => counts u ∧
          gtEnt u c.half c.arg0.toNat = { group := c.arg1.extractLsb' 0 13, valid := c.arg1.getLsbD 15 } ∧ changesOnly [.cch, .tables] s u) ∧
      (∀ r : Fin 384, c.code = 0 → c.op = 8 → c.arg0.toNat = r.val → (region s r.val).busy = true →
        (∀ e ∈ s.cache.line, keyRegion e.1 = r.val → (metaAt s e.1).sv = 0 ∨ (metaAt s e.1).pinned = true) →
        c.arg1 < 3 → tget false s.buf.drain r.val = false → waitQ s (regionHalf r.val) = [] →
        completesWith (.regionConversionDone r) s fun u =>
          region u r.val = { region s r.val with state := c.arg1.setWidth 2, busy := false } ∧
          (∀ a, a / 2 ^ 26 = r.val → memByte u.cache.data a = 0) ∧ (∀ a, a / 2 ^ 26 ≠ r.val → memByte u.cache.data a = memByte s.cache.data a) ∧
          (∀ b, b / 1024 = r.val → blk u b = Blk.zero) ∧ (∀ k, k ≠ r.val → region u k = region s k)))

/-- R188, R189: a write of an ordered context's control that is legal sets its fields and starts it with no round done and no sequence number taken, also one that writes EN again
with the same fields; one that clears EN stops it; one that changes an enabled context, or that enables one with no contributor, sets ORDCFG; a held contribution that has waited
the thaw timeout stops its context, until EN is written again.

Where the manual is silent this rests on the model's own choices: log entry 16. -/
def Obligations.OrderedContexts : Prop :=
  ∀ (n : Fin 32) (s : State),
    let o := ord s n.val
    (∀ v : BitVec 32, domOn s 5 = true ∨ domOn s 6 = true →
      let x : Ord := { o with en := v.getLsbD 0, part := v.extractLsb' 1 5, nl := v.extractLsb' 8 8, k := v.extractLsb' 16 8 }
      let refused : Prop := completesWith (.ordCtlWrite n v) s fun u => u.atu = { s.atu with ordcfg := true } ∧ changesOnly [.atu] s u
      (o.en = true → ¬ (x.part = o.part ∧ x.nl = o.nl ∧ x.k = o.k) → refused) ∧
      (o.en = false → x.en = true → x.k = 0 ∨ ordRangeOk s x = false ∨ ordOverlap s n.val x = true → refused) ∧
      (o.en = false ∨ (x.part = o.part ∧ x.nl = o.nl ∧ x.k = o.k) →
        (x.en = true → x.k ≠ 0 → ordRangeOk s x = true → ordOverlap s n.val x = false →
          completesWith (.ordCtlWrite n v) s fun u =>
            ord u n.val = { x with err := false, tmo := false, dead := false, homed := BitVec.ofNat 9 (ordHomed s x) } ∧
            (∀ l, l < 256 → ordNext u n.val l = 0) ∧ (∀ h, ∀ e ∈ (atuHalf u h).held, e.ctx ≠ n) ∧ changesOnly [.atu, .cnt] s u) ∧
        (x.en = false →
          completesWith (.ordCtlWrite n v) s fun u =>
            ord u n.val = x ∧ (∀ h, ∀ e ∈ (atuHalf u h).held, e.ctx ≠ n) ∧ changesOnly [.atu, .cnt] s u))) ∧
    (∀ (h : Half) (e : HeldAddl), e ∈ (atuHalf s h).held → e.ctx = n → due s e.since e.limit = true →
      completesWith (.ordTimeout n) s fun u =>
        ord u n.val = { o with err := true, tmo := true, dead := true } ∧ (∀ g, ∀ x ∈ (atuHalf u g).held, x.ctx ≠ n) ∧
        (spReg u o.part.toNat).thawCnt = (spReg s o.part.toNat).thawCnt + 1 ∧ changesOnly [.atu, .seq, .cnt] s u)

/-- R159, R165, R166, R169, R172, R173: a scrubbed block reads 0 in every byte and is free; a waiter whose timeout comes leaves the queue, and a partner is told; a release puts
every block of the partition, with no copies elsewhere, into SCRUB; DRAIN takes every free block of its region out of use, and its end gives them back; of a region that is not PINNED, or in
conversion, it takes none. -/
def Obligations.BufferBlocks : Prop :=
  ∀ s : State,
    (∀ b : Fin 393216, (blk s b.val).st = 2 → (region s (b.val / 1024)).state = 2 → blockBusy s b.val = false →
      domRuns s ((blockHalf b.val).pick 5 6) = true → tget false s.buf.drain (b.val / 1024) = false → waitQ s (blockHalf b.val) = [] →
      completesWith (.scrubDone b) s fun u =>
        (blk u b.val) = { st := 1, owner := 0 } ∧ (∀ c, c ≠ b.val → blk u c = blk s c) ∧
        (∀ a, a / 65536 = b.val → memByte u.cache.data a = 0) ∧ (∀ a, a / 65536 ≠ b.val → memByte u.cache.data a = memByte s.cache.data a) ∧
        changesOnly [.buf, .cache, .cnt, .bwr] s u) ∧
    (∀ (h : Half) (k : Nat) (w : Waiter) (p : PartnerPort) (c : Fin 4) (tag : BitVec 12), (waitQ s h)[k]? = some w →
      due s w.since w.limit = true → w.who = .port p c tag → portActive s p.val = true →
      completesWith (.allocWaiterThaw h k) s fun u =>
        waitQ u h = (waitQ s h).erase w ∧ used u h w.part = used s h w.part - 1 ∧
        sends p.val (rsp { port := p, cls := c, tag := tag, part := w.part, sa := 0 } 12 false []) s u ∧
        (spReg u w.part.toNat).thawCnt = (spReg s w.part.toNat).thawCnt + 1) ∧
    (∀ part : Part, domOn s 5 = true ∨ domOn s 6 = true → calm s = true → (∀ e ∈ s.cache.line, e.2.sharers = 0 ∧ e.2.rheld = false) →
      (∀ e ∈ s.buf.blk, e.2 = blk s e.1 ∧ (e.2.st = 3 → (region s (e.1 / 1024)).state = 2)) →
      completesWith (.bufRelease part) s fun u =>
        (∀ b, (blk s b).st = 3 → (blk s b).owner = part → (blk u b).st = 2) ∧
        (∀ b, ¬ ((blk s b).st = 3 ∧ (blk s b).owner = part) → blk u b = blk s b) ∧ sameBytes s u) ∧
    (∀ r : Fin 384, domOn s 5 = true ∨ domOn s 6 = true → (region s r.val).state = 2 → (region s r.val).busy = false →
      (completesWith (.drain r true) s fun u => tget false u.buf.drain r.val = true ∧
        (∀ b, b / 1024 = r.val → (blk s b).st = 1 → (blk u b).st = 4) ∧ (∀ b, b / 1024 ≠ r.val ∨ (blk s b).st ≠ 1 → blk u b = blk s b) ∧
        changesOnly [.buf] s u) ∧
      (waitQ s (regionHalf r.val) = [] → (∀ e ∈ s.buf.blk, e.2 = blk s e.1) →
        completesWith (.drain r false) s fun u => tget false u.buf.drain r.val = false ∧
          (∀ b, b / 1024 = r.val → (blk s b).st = 4 → (blk u b).st = 1) ∧ (∀ b, b / 1024 ≠ r.val ∨ (blk s b).st ≠ 4 → blk u b = blk s b) ∧
          changesOnly [.buf] s u)) ∧
    (∀ (r : Fin 384) (on : Bool), domOn s 5 = true ∨ domOn s 6 = true → (region s r.val).state ≠ 2 ∨ (region s r.val).busy = true →
      completesWith (.drain r on) s fun u => tget false u.buf.drain r.val = on ∧ (∀ b, blk u b = blk s b) ∧ changesOnly [.buf] s u)

/-! ## Integrity -/

/-- R321, R323, R325, R346: a patrol step over a row without damage moves the patrol on and changes no byte; one over a row with a single damaged symbol corrects it, and
the data stays as it was; a die refreshes itself while it is on; INT_INJ_CTL takes its fields and arms.

Where the manual is silent this rests on the model's own choices: log entry 16. -/
def Obligations.ArrayUpkeep : Prop :=
  ∀ s : State,
    (∀ (h : Half) (pos next : Nat), s.integ.patrolEn = true → homeUp s h = true → patrolRegions s h ≠ [] → calm s = true → s.integ.lcrcChk = false →
      patrolFrom s h (max (65536 * (192 * h.idx)) (tget 0 s.integ.patrol h.idx)) = some pos → patrolFrom s h (pos + 1) = some next →
      (s.cache.ecc = [] →
        completesWith (.patrolStep h) s fun u => tget 0 u.integ.patrol h.idx = pos + 1 ∧ sameBytes s u ∧ u.cache.line = s.cache.line ∧
          changesOnly [.integ, .bwr, .cnt] s u) ∧
      (∀ j, j < 32 → s.cache.ecc = [(4 * rowKey pos + j, 1)] →
        completesWith (.patrolStep h) s fun u => tget 0 u.integ.patrol h.idx = pos + 1 ∧ u.cache.ecc = [] ∧ sameBytes s u ∧
          u.cache.line = s.cache.line ∧ u.integ.ue = s.integ.ue)) ∧
    (∀ die : Fin 6, domOn s (10 + die.val) = true →
      completesWith (.refresh die) s fun u => tget 0 u.sense.refreshed die.val = s.clk.time ∧ changesOnly [.sense] s u) ∧
    (∀ v : BitVec 32, domOn s 5 = true ∨ domOn s 6 = true →
      completesWith (.errorInjectArm v) s fun u =>
        u.integ = { s.integ with injSector := v.extractLsb' 0 2, injKind := v.extractLsb' 2 2, injArm := s.integ.injArm || v.getLsbD 4 } ∧
        changesOnly [.integ] s u)

/-- R337, R338: a partition reset is queued once, and refused for partition 0; its start fences the partition, stops its tasks, drops its slots, its waiting tasks and its queued
work; when its last task has gone the fence is lifted.

Where the manual is silent this rests on the model's own choices: log entry 16. -/
def Obligations.PartitionResets : Prop :=
  ∀ (s : State),
    (∀ p : Part, domOn s 5 = true ∨ domOn s 6 = true →
      (p ≠ 0 → (∀ r ∈ s.integ.prst, r.part ≠ p) →
        completesWith (.intPrstGo p) s fun u =>
          u.integ = { s.integ with prst := s.integ.prst ++ [{ part := p, cause := 1, running := false, disc := 0 }] } ∧ changesOnly [.integ] s u) ∧
      (p ≠ 0 → (∃ r ∈ s.integ.prst, r.part = p) → completesWith (.intPrstGo p) s (changesOnly [] s)) ∧
      (p = 0 → completesWith (.intPrstGo p) s fun u => u.integ = { s.integ with prstRefused := true } ∧ changesOnly [.integ] s u)) ∧
    (∀ (r : PReset) (rest : List PReset), s.integ.prst = r :: rest → (∀ x ∈ rest, x.part ≠ r.part) →
      (r.running = false → calm s = true → s.cache.pool = [] → s.buf.waitE = [] → s.buf.waitW = [] →
        (∀ t, (thr s t).part = r.part → ((thr s t).phase = .running ∧ (thr s t).word = none) ∨ (thr s t).phase = .free) →
        (∀ t, t < 72 → (thr s t).part = r.part → coreStepping s (thrCore t) = false) →
        completesWith .partitionReset s fun u =>
          fenced u r.part = true ∧ u.integ.prstPart = r.part ∧ u.integ.prstCause = r.cause ∧
          (∀ t, t < 72 → (thr s t).part = r.part → (thr s t).phase = .running → (thr u t).phase = .killed) ∧
          (∀ t, (thr s t).part ≠ r.part → (thr u t).phase = (thr s t).phase ∧ (thr u t).pc = (thr s t).pc ∧ (thr u t).g = (thr s t).g ∧
            (thr u t).outs = (thr s t).outs ∧ (thr u t).wait = (thr s t).wait) ∧
          (spReg u r.part.toNat).used = 0 ∧ (spReg u r.part.toNat).park = 0 ∧ (∀ e ∈ u.seq.resumeE, e.part ≠ r.part) ∧
          (∀ e ∈ u.seq.resumeW, e.part ≠ r.part) ∧ (∀ e ∈ u.seq.tq, e.2.part = r.part → e.2.head = e.2.tail) ∧
          (∀ h, ∀ a ∈ (atuHalf u h).queue, a.part ≠ r.part) ∧ sameBytes s u) ∧
      (r.running = true → calm s = true → (∀ t, t < 72 → (thr s t).part = r.part → (thr s t).phase = .free) →
        completesWith .partitionResetDone s fun u => u.integ.prst = rest ∧ (∀ t, thr u t = thr s t) ∧ changesOnly [.integ, .log] s u))

/-! ## Self-test and repair -/

/-- R347 to R351, R356: a target that serves or is a spare, idle for 100 ns, starts its next step, at most one each 10 µs; one in service whose operations have reached the
forced interval starts one regardless; a step that matches at once passes, and the next step follows; a mismatch is repeated, twice; a third mismatch of a
spare marks it failed.

R357, R359, R360: TST_SWAP of a target that does not serve, or of none, is refused with CMDERR; of an ATU lane or a datapath that serves, with none
waiting in its half, it fails the target and puts the lowest spare of its class in its place, with a repair record for flash; a failed core whose threads
are free gives its logical number to the lowest spare core.

Where the manual is silent this rests on the model's own choices: log entry 33. -/
def Obligations.TestTargets : Prop :=
  (∀ (h : Half) (t : Fin 22) (s : State),
      let x := tgt s h t.val
      let cls := if t.val < 9 then 0 else if t.val < 18 then 1 else if t.val < 20 then 2 else 3
      let up : Bool := if t.val < 9 then domOn s (h.pick 1 2) else if t.val < 20 then domOn s (h.pick 5 6) else domOn s 5 && domOn s 6
      let step : BitVec 4 := if x.fresh then 0 else x.next
      let loop := loopOf s (10 + h.idx)
      let starts (forced : Bool) (u : State) : Prop :=
        targetBecomes h t.val
          { x with state := 2, back := x.state, next := step, fresh := false, since := 0, repeats := 0, forced := forced,
                   want := packWant s.tst.pack cls step.toNat, log2s := packS s.tst.pack cls, packVer := s.tst.pack.ver,
                   lastIdle := if forced then x.lastIdle else some s.clk.time, began := s.clk.time } s u ∧ changesOnly [.tst, .cnt] s u
      -- no reset and no HALT waits for the end of a step of this core
      let none_ : Prop := t.val < 9 → calm s = true ∧ (∀ r ∈ s.integ.prst, r.running = false) ∧
        ∀ i, i < 4 → (thr s (4 * (9 * h.idx + t.val) + i)).phase ≠ .halting
      (s.tst.en = true → up = true → t ∉ h.pick s.rep.waitE s.rep.waitW →
        (x.state = 0 ∨ x.state = 1 → longAgo s x.lastOp 100 = true → longAgo s x.lastIdle 10000 = true → completesWith (.idleStep h t) s (starts false)) ∧
        (x.state = 0 → min (2 ^ loop.value.toNat) (2 ^ (loop.hi.toNat - packS s.tst.pack cls)) ≤ x.since →
          completesWith (.forcedStep h t) s (starts true))) ∧
      (∀ (sig : BitVec 32) (lane : Fin 32), x.state = 2 → x.back.toNat < 2 → up = true → none_ →
        (sig = x.want → x.repeats = 0 →
          completesWith (.testStepDone h t sig lane) s fun u =>
            targetBecomes h t.val
              { x with state := x.back, next := BitVec.ofNat 4 ((x.next.toNat + 1) % 2 ^ x.log2s),
                       lastPass := tset 0 x.lastPass x.next.toNat s.clk.time } s u ∧ changesOnly [.tst, .loops] s u) ∧
        (sig ≠ x.want → x.repeats < 2 →
          completesWith (.testStepDone h t sig lane) s fun u =>
            targetBecomes h t.val { x with repeats := x.repeats + 1, bad := sig } s u ∧ changesOnly [.tst] s u) ∧
        (sig ≠ x.want → 2 ≤ x.repeats → x.back = 1 →
          completesWith (.testStepDone h t sig lane) s fun u =>
            (tgt u h t.val).state = 3 ∧ u.tst.stat.getLsbD 0 = true ∧
            (∀ (g : Half) (k : Nat), k < 22 → ¬ (g = h ∧ k = t.val) → tgt u g k = tgt s g k) ∧ changesOnly [.tst, .loops, .log, .pwr] s u))) ∧
  (∀ (h : Half) (s : State),
      let waits (x : State) : List (Fin 22) := h.pick x.rep.waitE x.rep.waitW
      let lowest (lo n i : Nat) : Prop :=
        lo ≤ i ∧ i < lo + n ∧ (tgt s h i).state = 1 ∧ ∀ k, lo ≤ k → k < i → (tgt s h k).state ≠ 1 ∧ (tgt s h k).state ≠ 2
      let others (t i : Nat) (u : State) : Prop :=
        ∀ (g : Half) (k : Nat), k < 22 → ¬ (g = h ∧ (k = t ∨ k = i)) → tgt u g k = tgt s g k
      (∀ t : BitVec 5, (22 ≤ t.toNat ∨ (tgt s h t.toNat).state = 1 ∨ (tgt s h t.toNat).state = 3) →
        completesWith (.tstSwap h t) s fun u => u.tst = { s.tst with stat := setBit s.tst.stat 6 true } ∧ changesOnly [.tst] s u) ∧
      (∀ (t : BitVec 5) (i : Nat), 9 ≤ t.toNat → t.toNat < 20 → (tgt s h t.toNat).state = 0 → waits s = [] →
        lowest (if t.toNat < 18 then 9 else 18) (if t.toNat < 18 then 9 else 2) i →
        completesWith (.tstSwap h t) s fun u =>
          (tgt u h t.toNat).state = 3 ∧ (tgt u h i).state = 0 ∧ others t.toNat i u ∧ waits u = [] ∧
          u.tst.stat.getLsbD 0 = true ∧ u.tst.stat.getLsbD 2 = true ∧
          (s.tst.persistEn = true → s.tst.queue.length < 16 → ∃ r, u.tst.queue = s.tst.queue ++ [r] ∧
            r.type = (if t.toNat < 18 then 2 else 3) ∧ r.half = h ∧ r.unit.toNat = t.toNat ∧
            r.subst.toNat = i - (if t.toNat < 18 then 9 else 18))) ∧
      (∀ (t : Fin 22) (i : Nat) (crcOk : BitVec 4), waits s = [t] → t.val < 9 → (tgt s h t.val).state = 0 → lowest 0 9 i →
        (∀ k, k < 4 → (thr s (4 * (9 * h.idx + t.val) + k)).phase = .free) → calm s = true → s.glb.pending = false →
        completesWith (.coreSwapIn h crcOk) s fun u =>
          (tgt u h t.val).state = 3 ∧ (tgt u h i).state = 0 ∧ others t.val i u ∧ waits u = [] ∧
          logicalCore u (9 * h.idx + i) = logicalCore s (9 * h.idx + t.val) ∧ logicalCore u (9 * h.idx + t.val) = none ∧
          u.cch.clrBusy.getLsbD (6 + (9 * h.idx + t.val)) = true))

/-- R361 to R364: a command to calve a bank of a die that is on takes the lowest spare bank, and is refused with CMDERR where the die calves, is off or
has no spare; a verified copy of a row without damage goes on to the next one, and with the last row every access goes to the spare; the retirement of a bank
whose regions are PINNED or OFFLINE puts both OFFLINE for good.

Where the manual is silent this rests on the model's own choices: log entries 74, 96. -/
def Obligations.BanksCalved : Prop :=
  ∀ s : State,
    (∀ (die : BitVec 3) (bank : BitVec 5),
      let k := die.toNat
      let spare : Option (BitVec 6) :=
        if tget false s.tst.spareUsed (2 * k) = false then some 32 else if tget false s.tst.spareUsed (2 * k + 1) = false then some 33 else none
      (∀ sp, k < 6 → (calve s k).phase = 0 → domOn s (10 + k) = true → spare = some sp →
        completesWith (.tstCalveGo die bank) s fun u =>
          calve u k = { calve s k with phase := 1, bank := bank, rows := 0, spare := sp, source := 8 } ∧
          (∀ j, j ≠ k → calve u j = calve s j) ∧ changesOnly [.tst] s u) ∧
      (5 < k ∨ (calve s k).phase ≠ 0 ∨ domOn s (10 + k) = false ∨ spare = none →
        completesWith (.tstCalveGo die bank) s fun u => u.tst = { s.tst with stat := setBit s.tst.stat 6 true } ∧ changesOnly [.tst] s u)) ∧
    (∀ die : Fin 6,
      let k := die.val
      let c := calve s k
      let row := 2 ^ 19 * (64 * k + 2 * c.bank.toNat + c.rows.toNat / 65536) + 8 * (c.rows.toNat % 65536)
      c.phase = 1 → domOn s (10 + k) = true → rowClean s row = true → calm s = true →
      (c.rows.toNat < 131071 →
        completesWith (.calveRowCopy die true) s fun u => calve u k = { c with rows := c.rows + 1 } ∧ sameBytes s u ∧ changesOnly [.tst, .cnt] s u) ∧
      (c.rows.toNat = 131071 →
        completesWith (.calveRowCopy die true) s fun u =>
          regionBank u (64 * k + 2 * c.bank.toNat) = 34 * k + c.spare.toNat ∧ regionBank u (64 * k + 2 * c.bank.toNat + 1) = 34 * k + c.spare.toNat ∧
          sameBytes s u ∧ u.tst.stat.getLsbD 2 = true)) ∧
    (∀ (die : Fin 6) (bank : Fin 32),
      let r := 64 * die.val + 2 * bank.val
      32 * die.val + bank.val ∈ s.tst.toRetire → s.tst.retireEn = true → calm s = true →
      (∀ k ∈ [r, r + 1], ((region s k).state = 2 ∨ (region s k).state = 0) ∧ (region s k).busy = false) →
      completesWith (.regionRetire die bank) s fun u =>
        region u r = { state := 0, busy := false, retired := true } ∧ region u (r + 1) = { state := 0, busy := false, retired := true } ∧
        (∀ k, k ≠ r → k ≠ r + 1 → region u k = region s k) ∧
        (∀ k ∈ [r, r + 1], (region s k).state = 2 → ∀ b, b / 1024 = k → blk u b = Blk.zero) ∧
        u.tst.toRetire = s.tst.toRetire.erase (32 * die.val + bank.val) ∧ u.tst.stat.getLsbD 2 = true)

/-- R355, R356: LOAD starts a load, and is refused with CMDERR while one runs; the load, with every line of the pack read, ends with the first check that fails,
and replaces the active pack only when all pass.

R366, R367, R369: the oldest queued repair record is programmed into the next unwritten slot of the part's area, every other byte of the flash as before; one
that the flash fails is dropped with PERSIST_ERR; a measurement of an aging monitor, once a second, is stored, and the first one at the threshold raises AGE.

Where the manual is silent this rests on the model's own choices: log entries 44, 81, 82. -/
def Obligations.FlashRecords : Prop :=
  (∀ s : State,
      (s.tst.packBusy = false → completesWith .tstPackLoad s fun u => u.tst = { s.tst with packBusy := true } ∧ changesOnly [.tst] s u) ∧
      (s.tst.packBusy = true →
        completesWith .tstPackLoad s fun u => u.tst = { s.tst with stat := setBit s.tst.stat 6 true } ∧ changesOnly [.tst] s u) ∧
      (∀ (n k : Nat) (rs : List (Nat × LineReq)),
        let sa : Sa := BitVec.ofNat 52 (s.tst.packSa.toNat * 64)
        let b := rangeBytes sa (n + 64) ((List.range k).filterMap fun i => gotOf s .pack i)
        s.tst.packBusy = true → calm s = true → rangeReqs s .pack sa (n + 64) = some rs → rs.length = k →
        (∀ i, i < k → s.cache.asked.contains (Consumer.pack, i) = true ∧ ∃ r, gotOf s .pack i = some r ∧ r.status = 0) →
        leAt b 16 4 = n - 128 → 128 ≤ n → n % 16 = 0 → n ≤ 262144 →
        let es := if packHeadOk (slice b 0 128) then packEntries 16384 (slice b 128 (n - 128)) else none
        let r := packCheck s b es
        completesWith .packLoadDone s fun u =>
          u.tst.packBusy = false ∧ u.tst.packResult = BitVec.ofNat 3 r ∧ (r ≠ 0 → u.tst.pack = s.tst.pack) ∧
          (r = 0 → u.tst.pack.ver = BitVec.ofNat 32 (leAt b 12 4)) ∧ changesOnly [.tst, .cache] s u) ∧
      (s.tst.packBusy = true → rangeReqs s .pack (BitVec.ofNat 52 (s.tst.packSa.toNat * 64)) 128 = none → calm s = true →
        completesWith .packLoadDone s fun u => u.tst = { s.tst with packBusy := false, packResult := 5 } ∧ changesOnly [.tst, .cache] s u)) ∧
  (∀ s : State,
      (∀ (r : Repair) (rest : List Repair), s.tst.queue = r :: rest →
        (completesWith (.repairRecordProgram false) s fun u =>
          u.tst = { s.tst with queue := rest, stat := setBit s.tst.stat 4 true } ∧ changesOnly [.tst, .log] s u) ∧
        (∀ (a gen : Nat),
          let off := s.boot.repOff.toNat
          let len := s.boot.repLen.toNat
          let m := (areaSlots s (a + 32) 0 (len / 2 / 32 - 1)).length
          let at_ := a + 32 + 32 * m
          64 ≤ len → areaHalf s off len = some (a, gen) → m < len / 2 / 32 - 1 →
          completesWith (.repairRecordProgram true) s fun u =>
            u.tst = { s.tst with queue := rest, repSeq := s.tst.repSeq + 1, written := s.tst.written + 1 } ∧
            flashBytes u at_ 32 = repairBytes { r with seq := s.tst.repSeq + 1 } ∧
            (∀ b, b < at_ ∨ at_ + 32 ≤ b → flashByte u b = flashByte s b) ∧ changesOnly [.tst, .boot] s u)) ∧
      (∀ (n : Fin 8) (degr : BitVec 16), domRuns s (sensorDom n.val) = true → longAgo s (tget none s.tst.ageAt n.val) 1000000000 = true →
        let stored := tset 0 s.tst.degr n.val degr
        let at_ := tset none s.tst.ageAt n.val (some s.clk.time)
        (degr.toNat < s.tst.ageThr.toNat →
          completesWith (.ageMeasure n degr) s fun u =>
            u.tst = { s.tst with degr := stored, ageAt := at_, aged := tset false s.tst.aged n.val false } ∧ changesOnly [.tst] s u) ∧
        (s.tst.ageThr.toNat ≤ degr.toNat → tget false s.tst.aged n.val = true →
          completesWith (.ageMeasure n degr) s fun u => u.tst = { s.tst with degr := stored, ageAt := at_ } ∧ changesOnly [.tst] s u) ∧
        (s.tst.ageThr.toNat ≤ degr.toNat → tget false s.tst.aged n.val = false →
          completesWith (.ageMeasure n degr) s fun u =>
            u.tst = { s.tst with degr := stored, ageAt := at_, aged := tset false s.tst.aged n.val true, stat := setBit s.tst.stat 5 true } ∧
            changesOnly [.tst, .log] s u)))

/-! ## Sensors, resets and domains -/

/-- R40, R41, R42: a result of a sensor whose domain is on, or is being switched off, is stored and valid, and sets WARN_STAT at the warning limit, 110 °C at most; at 118 °C the
slice trips: D1 to D15 are off, every region is OFFLINE, and only a chip reset goes on.

Where the manual is silent this rests on the model's own choices: log entry 97. -/
def Obligations.SensorResults : Prop :=
  ∀ (n : Fin 24) (temp : BitVec 12) (s : State), domRuns s (sensorDom n.val) = true →
    (temp.toInt < 944 ∨ s.pwr.trip = true →
      completesWith (.sensorResult n temp) s fun u =>
        u.sense = { s.sense with temp := tset 0 s.sense.temp n.val temp, valid := tset false s.sense.valid n.val true,
                                 warnStat := s.sense.warnStat || decide ((min 0x370 s.sense.warn.toNat : Int) ≤ temp.toInt) } ∧
        changesOnly [.sense] s u) ∧
    (944 ≤ temp.toInt → s.pwr.trip = false →
      completesWith (.sensorResult n temp) s fun u =>
        u.pwr.trip = true ∧ u.pwr.tripStat = true ∧ u.pwr.cmd = none ∧ u.boot.phase = .waitReset ∧
        u.pwr.resetSt = (if s.pwr.resetSt = .cold then .cold else .none) ∧
        (∀ d, 1 ≤ d → d < 16 → domSt u d = 0) ∧ (∀ r, r < 384 → (region u r).state = 0))

/-- R374, R376, R378, R381: what asks for a reset: PWRGOOD's end for a cold one; RESET_N, and the key and bit 8 of PWR_RST_CMD, for a warm one, which waits
for its drain; RESET_N's end latches the straps, and a loader that waits for it starts.

R376, R377, R379, R380, R381: what each reset keeps and loses. A warm reset, its drain done, keeps the array, its metadata, the regions and the maps in
force; a drain of 1 ms, and an uncorrectable shared structure, make a fatal reset, which counts and loses the array; a cold reset clears what the
resets count and waits for RESET_N; all of these keep the flash and the written records. The always-on supply's coming and going lose everything but the
flash.

Where the manual is silent this rests on the model's own choices: log entries 35, 79, 80. -/
def Obligations.ChipResets : Prop :=
  (∀ s : State,
      (s.pwr.pwrgood = true →
        completesWith .pwrgoodDeassert s fun u => u.pwr = { s.pwr with pwrgood := false, resetSt := .cold } ∧ changesOnly [.pwr] s u) ∧
      (s.pwr.resetSt = .none → s.pwr.pwrgood = true → s.pwr.trip = false → s.pwr.vaon = true →
        (s.pwr.resetN = true → s.boot.phase ≠ .waitReset →
          completesWith .resetNAssert s fun u => u.pwr = { s.pwr with resetN := false, resetSt := .warmReq true } ∧ changesOnly [.pwr] s u) ∧
        (∀ v : BitVec 32, v.toNat % 256 = 0x5A → v.getLsbD 8 = true →
          completesWith (.pwrRstWarm v) s fun u => u.pwr = { s.pwr with resetSt := .warmReq false } ∧ changesOnly [.pwr] s u)) ∧
      (∀ v : BitVec 32, ¬ (v.toNat % 256 = 0x5A ∧ v.getLsbD 8 = true) → completesWith (.pwrRstWarm v) s (changesOnly [] s)) ∧
      (∀ byPin : Bool, s.pwr.resetSt = .warmReq byPin →
        completesWith .warmReset s fun u =>
          u.pwr = { s.pwr with resetSt := .warm s.clk.time byPin } ∧ u.cache.offers = [] ∧ waitQ u .e = [] ∧ waitQ u .w = [] ∧
          walks u .e = [] ∧ walks u .w = [] ∧ sameBytes s u ∧ changesOnly [.pwr, .buf, .xlt, .cache, .cnt] s u) ∧
      (∀ (sid : BitVec 8) (bootSel : BitVec 2), s.pwr.resetN = false → s.pwr.vaon = true →
        completesWith (.resetNDeassert sid bootSel) s fun u =>
          u.glb = { s.glb with sidStrap := sid, bootSel := bootSel } ∧ u.pwr.resetN = true ∧
          (s.boot.phase ≠ .waitReset ∨ s.pwr.trip = true → u.boot = s.boot) ∧
          (s.boot.phase = .waitReset → s.pwr.trip = false → s.clk.pllLock = false →
            u.boot.phase = .waitPll ∧ u.boot.since = s.clk.time ∧ u.mgt.smbAddr = 0x60 + (sid.extractLsb' 0 4).setWidth 7))) ∧
  (∀ s : State,
      let lost (u : State) : Prop := u.cache.data = [] ∧ u.cache.line = [] ∧ u.tables.region = [] ∧ u.boot.flash = s.boot.flash ∧
        ∀ d, 1 ≤ d → d < 16 → domSt u d = 0
      let fatal (cause : BitVec 4) (u : State) : Prop := lost u ∧ u.pwr.cause = cause ∧ u.pwr.fatal = true ∧
        u.pwr.fcnt = satAdd s.pwr.fcnt 1 ∧ u.pwr.resets = satAdd s.pwr.resets 1 ∧ u.pwr.resetSt = .none
      (∀ (t : BitVec 64) (byPin : Bool), s.pwr.resetSt = .warm t byPin →
        (warmDrained s = true →
          completesWith .warmDrainDone s fun u =>
            u.pwr.cause = (if byPin then 3 else 4) ∧ u.pwr.resets = satAdd s.pwr.resets 1 ∧ u.pwr.resetSt = .none ∧
            u.pwr.fatal = s.pwr.fatal ∧ u.cache.data = s.cache.data ∧ u.cache.line = s.cache.line ∧ u.cache.ecc = s.cache.ecc ∧
            u.tables.region = s.tables.region ∧ u.cur.part = s.cur.part ∧ u.cur.home = s.cur.home ∧ u.boot.flash = s.boot.flash ∧
            (∀ k, thr u k = Thread.zero) ∧ u.log.tail = s.log.tail ∧ u.log.head = s.log.head) ∧
        (due s t 1000000 = true → completesWith .drainTmo s (fatal 6))) ∧
      (∀ (h : Half) (structure_ : BitVec 8) (index : BitVec 16), structure_.toNat ≤ 4 → s.pwr.resetSt ≠ .cold → s.pwr.vaon = true →
        completesWith (.fatalReset structure_ { half := h, index := index }) s fun u => fatal 5 u ∧ (s.pwr.trip = true → u.boot.phase = .waitReset) ∧
          ∃ k r, k < 4 ∧ recAt u.log.fatal k = some r ∧ r.cls = 7 ∧ r.half = h ∧ r.sev = 1 ∧ r.prev = true ∧
            r.detail.extractLsb' 0 8 = structure_ ∧ r.detail.extractLsb' 8 16 = index) ∧
      (s.pwr.resetSt = .cold →
        completesWith .coldReset s fun u => lost u ∧ u.pwr.cause = (if s.pwr.trip then 7 else 2) ∧ u.pwr.fatal = false ∧ u.pwr.fcnt = 0 ∧
          u.pwr.resets = 0 ∧ u.pwr.trip = false ∧ u.boot.phase = .waitReset ∧ u.log.ring = s.log.ring ∧ u.log.fatal = s.log.fatal) ∧
      (s.pwr.vaon = false → completesWith .vaonPowerOn s fun u => lost u ∧ u.pwr.vaon = true ∧ u.clk.time = 0 ∧ u.log = State.reset.log) ∧
      completesWith .vaonLoss s fun u => lost u ∧ u.pwr.vaon = false ∧ u.clk.time = 0 ∧ u.log = State.reset.log)

/-- R383 to R386: a domain command is refused for a stale generation and while another runs; else a domain that is off, with what it requires on, starts
switching on, and a logic domain that nothing needs starts its drain; the drain's end without work puts it off, one that has lasted 100 µs with work fails
without FORCE; a die with nothing to lose goes off after its sweep, with the states its regions take again when it is back.

Where the manual is silent this rests on the model's own choices: log entries 36, 76, 80, 103. -/
def Obligations.DomainCommands : Prop :=
  ∀ s : State,
    let dom (x : State) (d : Nat) : Dom := tget Dom.zero x.pwr.dom d
    let others (d : Nat) (u : State) : Prop := ∀ k, k ≠ d → dom u k = dom s k
    let ended (d : Nat) (code : BitVec 4) (u : State) : Prop :=
      u.pwr.cmd = none ∧ u.pwr.resDom.toNat = d ∧ u.pwr.resCode = code ∧ u.pwr.resDone = true ∧ others d u
    let idle : Prop := s.pwr.cmd = none ∧ s.pwr.resetSt = .none ∧ s.pwr.trip = false ∧ (s.boot.phase = .started ∨ s.boot.phase = .recovery)
    (∀ (d : BitVec 4) (force : Bool) (gen : BitVec 16), d ≠ 0 →
      let n := d.toNat
      let cmds : List Instr := [.domainOn d force gen, .domainOff d force gen]
      (gen ≠ (dom s n).gen → ∀ c ∈ cmds, s.pwr.cmd = none →
        completesWith c s fun u => ended n 2 u ∧ dom u n = dom s n ∧ changesOnly [.pwr] s u) ∧
      (gen = (dom s n).gen → ∀ c ∈ cmds, ∀ x, s.pwr.cmd = some x →
        completesWith c s fun u => u.pwr = { s.pwr with resDom := d, resCode := 3, resDone := true } ∧ changesOnly [.pwr] s u) ∧
      (gen = (dom s n).gen → idle → (dom s n).st = 0 → requiredOn s n = true → (n < 7 → (loopOf s ((n + 1) % 2)).devFault = false) →
        completesWith (.domainOn d force gen) s fun u =>
          u.pwr.cmd = some { dom := d, on := true, force := force, since := s.clk.time, regions := [] } ∧
          dom u n = { st := 2, gen := gen + 1 } ∧ others n u ∧ changesOnly [.pwr, .loops, .sense] s u) ∧
      (gen = (dom s n).gen → idle → (dom s n).st = 1 → n < 10 → neededBy s n = false →
        completesWith (.domainOff d force gen) s fun u =>
          u.pwr.cmd = some { dom := d, on := false, force := force, since := s.clk.time, regions := [] } ∧
          dom u n = { st := 3, gen := gen + 1 } ∧ others n u ∧ changesOnly [.pwr] s u)) ∧
    (∀ c : DomCmd, s.pwr.cmd = some c →
      let n := c.dom.toNat
      (c.on = false → 1 ≤ n → n < 10 →
        (domWork s n = 0 → completesWith .domainDrainEnd s fun u => ended n 0 u ∧ domSt u n = 0) ∧
        (domWork s n ≠ 0 → due s c.since 100000 = true → c.force = false →
          completesWith .domainDrainEnd s fun u => ended n 7 u ∧ domSt u n = 1 ∧ changesOnly [.pwr] s u)) ∧
      (c.on = true → 10 ≤ n → completesWith .domainOnDone s fun u => ended n 0 u ∧ domSt u n = 1) ∧
      (c.on = false → 10 ≤ n → calm s = true →
        (∀ e ∈ s.cache.line, keyRegion e.1 / 64 = n - 10 → e.2.sharers = 0 ∧ e.2.rheld = false ∧ e.2.replica = false) →
        completesWith .arraySweepDone s fun u => ended n 0 u ∧ domSt u n = 0 ∧
          tget none u.sense.restore (n - 10) = some c.regions ∧
          (∀ a, a / 2 ^ 26 / 64 = n - 10 → memByte u.cache.data a = 0) ∧
          (∀ a, a / 2 ^ 26 / 64 ≠ n - 10 → memByte u.cache.data a = memByte s.cache.data a))) ∧
    (∀ (die : Fin 6) (r : Nat) (st : BitVec 2), tget none s.sense.restore die.val = some [(r, st)] → domOn s (10 + die.val) = true →
      homeUp s (regionHalf (64 * die.val)) = true → (region s r).retired = false → st ≠ 0 → waitQ s (regionHalf r) = [] → calm s = true →
      tget false s.buf.drain r = false →
      completesWith (.arrayRestoreDone die) s fun u =>
        region u r = { region s r with state := st } ∧ (∀ k, k ≠ r → region u k = region s k) ∧ tget none u.sense.restore die.val = none ∧
        (∀ a, a / 2 ^ 26 = r → memByte u.cache.data a = 0) ∧ (∀ a, a / 2 ^ 26 ≠ r → memByte u.cache.data a = memByte s.cache.data a))

/-- R420, R421, R422: a unit command with a stale generation, or with an operation the unit lacks, changes nothing but its result; DISABLE, ENABLE and RECAL
of a port and FORCE_DOWN of one act on it; FAIL of a core in service with a spare core marks it as waiting for its swap-in.

Where the manual is silent this rests on the model's own choices: log entry 52. -/
def Obligations.UnitCommands : Prop :=
  ∀ (u6 : BitVec 6) (gen : BitVec 16) (s : State),
    let n := u6.toNat
    let stamp : BitVec 16 := (unitWord s n).extractLsb' 16 16
    let cmds : List Instr := [.unitPortDisable u6 gen, .unitPortEnable u6 gen, .unitRecal u6 gen, .unitForceDown u6 gen, .unitFail u6 gen]
    let result (code : BitVec 2) (u : State) : Prop := u.pwr.unitCode = code ∧ u.pwr.unitUnit = u6 ∧ u.pwr.unitDone = true
    let only (code : BitVec 2) (u : State) : Prop :=
      u.pwr = { s.pwr with unitCode := code, unitUnit := u6, unitDone := true } ∧ changesOnly [.pwr] s u
    (n < 48 → stamp ≠ gen → ∀ c ∈ cmds, completesWith c s (only 2)) ∧
    (n < 48 → stamp = gen → n < 16 ∨ 42 ≤ n → ∀ c ∈ cmds, completesWith c s (only 1)) ∧
    (48 ≤ n → ∀ c ∈ cmds, completesWith c s (only 1)) ∧
    (16 ≤ n → n < 24 → stamp = gen →
      let p := Machine.port s (n - 16)
      (p.state = 0 → domOn s (portDom (n - 16)) = true →
        completesWith (.unitPortEnable u6 gen) s fun u => result 0 u ∧
          portBecomes (n - 16) { p with en := true, state := 1, since := s.clk.time, gen := p.gen + 1 } s u) ∧
      (p.state = 1 →
        completesWith (.unitPortDisable u6 gen) s fun u => result 0 u ∧
          portBecomes (n - 16) { p with en := false, state := 0, since := s.clk.time, gen := p.gen + 1 } s u) ∧
      (p.state = 4 → completesWith (.unitRecal u6 gen) s fun u => result 0 u ∧ portMoves (n - 16) 5 s u) ∧
      (p.state = 4 → calm s = true → s.cache.pool = [] → s.cache.offers = [] →
        completesWith (.unitForceDown u6 gen) s fun u => result 0 u ∧ portIsDown (n - 16) s u)) ∧
    (24 ≤ n → n < 42 → stamp = gen →
      let h : Half := if n < 33 then .e else .w
      let c := (n - 24) % 9
      let waits (x : State) : List (Fin 22) := h.pick x.rep.waitE x.rep.waitW
      (tgt s h c).state = 0 → waits s = [] → (∃ i, i < 9 ∧ (tgt s h i).state = 1) →
      completesWith (.unitFail u6 gen) s fun u => result 0 u ∧ (∃ t : Fin 22, t.val = c ∧ waits u = [t]) ∧ u.tst.stat.getLsbD 0 = true ∧
        u.log.tail = (if (s.log.tail - s.log.head).toNat < 64 then s.log.tail + 1 else s.log.tail))

/-! ## Boot -/

/-- R387, R388, R392, R393, R394, R397: the loader's way: without a lock after 1 ms it goes on from the crystal, as the straps say, a strap error with its line on the console; a flash that does not answer,
or is too small, ends in console recovery with READ for both slots; one that answers sets the read mode, and the higher SEQ of two good headers, or B when
the strap says so, is read first; a slot that fails a check is left with its code for the other one, and the last one for console recovery; an image that
passes is applied, and CONTENT leaves D1 to D15 off.

R396, R408: the loader starts the supervisor on thread 0 of the lowest logical core, in half E if it has one: at ENTRY, in partition 0 with
priority 3, with BOOT_STAT, DEST and the slice ID in g1 to g3; it sends its line to the console.

Where the manual is silent this rests on the model's own choices: log entries 38, 65, 66, 67, 71. -/
def Obligations.BootSteps : Prop :=
  (∀ s : State,
      (s.boot.phase = .waitPll → due s s.boot.since 1000000 = true →
        completesWith .pllWaitTimeout s fun u => u.boot.slowclk = true ∧
          u.boot.phase = (if s.glb.bootSel = 3 then .strapError else if s.glb.bootSel = 2 ∨ s.pwr.fcnt = 3 then .recovery else .discover) ∧
          (s.glb.bootSel = 3 → ∃ line, u.mgt.bootLines = line :: s.mgt.bootLines)) ∧
      (∀ f : Sfdp, s.boot.phase = .discover →
        (f.present = false ∨ (f.valid = true ∧ f.tooSmall = true) →
          completesWith (.flashDiscovery f) s fun u =>
            u.boot.phase = .recovery ∧ u.boot.recovery = true ∧ u.boot.errA = 9 ∧ u.boot.errB = 9 ∧ u.boot.sfdp = false) ∧
        (f.present = true → ¬ (f.valid = true ∧ f.tooSmall = true) →
          let read (x : Boot) : Prop := x.sfdp = f.valid ∧ x.eraseLog2 = (if f.valid then f.eraseLog2 else 12) ∧
            x.pageLog2 = (if f.valid then f.pageLog2.getD 8 else 8) ∧
            x.spimode = (if s.boot.slowclk ∨ f.valid = false then 0 else if f.has144 ∧ (f.qer0 ∨ f.qeSet) then 2 else 1)
          (s.glb.bootSel = 1 →
            completesWith (.flashDiscovery f) s fun u => read u.boot ∧ u.boot.phase = .reading .b ∧ changesOnly [.boot] s u) ∧
          (s.glb.bootSel ≠ 1 → headCode s .a = 0 → headCode s .b = 0 →
            completesWith (.flashDiscovery f) s fun u => read u.boot ∧
              u.boot.phase = .reading (if slotSeq s .a < slotSeq s .b then .b else .a) ∧ changesOnly [.boot] s u))) ∧
      (∀ k : Slot, s.boot.phase = .reading k →
        let code := if headCode s k ≠ 0 then headCode s k else bodyCode s k
        let other : Slot := match k with
          | .a => .b
          | .b => .a
        let err (x : Boot) : BitVec 4 := match k with
          | .a => x.errA
          | .b => x.errB
        let otherLeft : Bool := match k with
          | .a => s.boot.leftB
          | .b => s.boot.leftA
        (code = 0 → completesWith (.imageReadDone k) s fun u => u.boot = { s.boot with phase := .apply k } ∧ changesOnly [.boot] s u) ∧
        (code ≠ 0 → otherLeft = false →
          completesWith (.imageReadDone k) s fun u => u.boot.phase = .reading other ∧ (err u.boot).toNat = code ∧ changesOnly [.boot] s u) ∧
        (code ≠ 0 → otherLeft = true →
          completesWith (.imageReadDone k) s fun u => u.boot.phase = .recovery ∧ (err u.boot).toNat = code ∧
            ∀ d, 1 ≤ d → d < 16 → domSt u d = 0)) ∧
      (∀ k : Slot, s.boot.phase = .apply k →
        (∀ t, applyImage k s = some t → calm t = true →
          completesWith .bootApply s fun u => u.boot.phase = .ready ∧ u.boot.slot = (if k = .a then 0 else 1) ∧
            u.boot.fallback = decide (k ≠ s.boot.first) ∧ u.boot.signed = (flashByte s (slotBase k + 9)).getLsbD 0 ∧
            u.boot.seq.toNat = slotSeq s k ∧ sameBytes t u ∧ changesOnly [.boot] t u) ∧
        (applyImage k s = none →
          completesWith .bootApply s fun u => (u.boot.errA = 8 ∨ u.boot.errB = 8) ∧ u.boot.phase ≠ .ready ∧
            u.cache.data = [] ∧ u.boot.flash = s.boot.flash ∧ ∀ d, 1 ≤ d → d < 16 → domSt u d = 0))) ∧
  (∀ (s : State) (h : Half) (k l : Nat), s.boot.phase = .ready → k < 9 → l < 8 → logicalCore s (9 * h.idx + k) = some l →
      (∀ c, c < 9 → ∀ m ∈ logicalCore s (9 * h.idx + c), l ≤ m ∧ (m = l → k ≤ c)) →
      (h = .w → ∀ c, c < 9 → logicalCore s c = none) →
      (∃ g ∈ [Half.e, .w], ∃ i ∈ [18, 19], (tgt s g i).state ≠ 3) →
      let t := 4 * (9 * h.idx + k)
      completesWith .supervisorStart s fun u =>
        (thr u t).phase = .running ∧ (thr u t).pc = s.boot.entry.setWidth 48 ∧ (thr u t).prio = 3 ∧ (thr u t).part = 0 ∧
        (∀ r, gReg (thr u t) r = if r = 1 then (bootStat s).setWidth 64 else if r = 2 then s.boot.dest.setWidth 64
          else if r = 3 then s.glb.sid.setWidth 64 else 0) ∧
        (∀ j, j ≠ t → thr u j = thr s j) ∧ u.boot.phase = .started ∧ u.boot.start = s.clk.time ∧
        u.mgt.bootLines = (false, bootStat s, s.boot.seq) :: s.mgt.bootLines ∧ changesOnly [.seq, .boot, .mgt, .pwr] s u)

/-! ## Management -/

/-- R404 to R407: a character in RAW mode joins the receive FIFO with its marks, or is lost to an overrun; in Svet's text mode without echo it joins the line; a gap, a
break; the transmitter sends its FIFO's oldest character while flow control lets it, and takes new settings when it is empty; the data register queues and
removes characters in RAW mode only.

Where the manual is silent this rests on the model's own choices: log entries 63, 86. -/
def Obligations.UartCharacters : Prop :=
  ∀ s : State,
    let x := s.uart
    let n := if 5 ≤ x.act.data.toNat ∧ x.act.data.toNat ≤ 9 then x.act.data.toNat else 8
    (∀ (ch : BitVec 9) (bad low : Bool), s.pwr.vaon = true →
      let pe : Bool := bad && decide (1 ≤ x.act.parity.toNat ∧ x.act.parity.toNat ≤ 4)
      let c : BitVec 9 := BitVec.ofNat 9 (ch.toNat % 2 ^ n)
      let errs : Nat := (if low then 1 else 0) + (if pe then 1 else 0)
      (x.act.raw = true → x.rx.length < 64 →
        completesWith (.uartCharReceived ch bad low) s fun u =>
          u.uart = { x with fe := x.fe || low, pe := x.pe || pe, gap := true, errs := satAdd x.errs errs,
                            rx := x.rx ++ [{ ch := c, pe := pe, fe := low }] } ∧ changesOnly [.uart] s u) ∧
      (x.act.raw = true → 64 ≤ x.rx.length →
        completesWith (.uartCharReceived ch bad low) s fun u =>
          u.uart = { x with fe := x.fe || low, pe := x.pe || pe, ovr := true, gap := true, errs := satAdd x.errs (errs + 1) } ∧
          changesOnly [.uart] s u) ∧
      (x.act.raw = false → n = 8 → s.mgt.bin = false → s.mgt.echo = false → c ≠ 0x0D → c ≠ 0x0A → c ≠ 8 → c ≠ 0x7F →
        completesWith (.uartCharReceived ch bad low) s fun u =>
          u.mgt = { s.mgt with partial_ := s.mgt.partial_ ++ [c.setWidth 8], partialAt := s.clk.time } ∧ changesOnly [.uart, .mgt] s u)) ∧
    (x.gap = true → completesWith .uartIdle s fun u => u.uart = { x with idle := true, gap := false } ∧ changesOnly [.uart] s u) ∧
    (s.pwr.vaon = true → completesWith .uartBreak s fun u =>
      u.uart = { x with brk := true } ∧ u.mgt = { s.mgt with partial_ := [], bin := false } ∧ changesOnly [.uart, .mgt] s u) ∧
    (∀ (c : BitVec 9) (rest : List (BitVec 9)), x.tx = c :: rest →
      let sends (y : Uart) (u : State) : Prop :=
        u.uart = { y with tx := rest, sent := c :: x.sent, act := if rest = [] then x.cfg else x.act } ∧ changesOnly [.uart] s u
      (x.act.fc = false ∨ x.cts = true → completesWith .uartCharTransmitted s (sends x)) ∧
      (x.act.fc = true → x.cts = false → completesWith .mgtCtsNAssert s (sends { x with cts := true }))) ∧
    (x.act.fc = false ∨ x.cts = true →
      completesWith .mgtCtsNAssert s fun u => u.uart = { x with cts := true } ∧ changesOnly [.uart] s u) ∧
    (∀ v : BitVec 32,
      (x.act.raw = true → x.tx.length < 64 →
        completesWith (.uartDataWrite v) s fun u => u.uart = { x with tx := x.tx ++ [v.extractLsb' 0 9] } ∧ changesOnly [.uart] s u) ∧
      (x.act.raw = false ∨ 64 ≤ x.tx.length → completesWith (.uartDataWrite v) s (changesOnly [] s))) ∧
    (∀ (c : Char9) (rest : List Char9), x.act.raw = true → x.rx = c :: rest →
      completesWith .uartDataRead s fun u =>
        u.uart = { x with rx := rest, read := pack 32 [(0, c.ch.toNat), (9, b2n c.pe), (10, b2n c.fe), (15, 1)] } ∧ changesOnly [.uart] s u) ∧
    (x.act.raw = false ∨ x.rx = [] →
      completesWith .uartDataRead s fun u => u.uart = { x with read := 0 } ∧ changesOnly [.uart] s u)

/-- R408, R410, R412, R413, R424, R427: Svet's commands that read: the identity, a unit's word, a register, a record, the counters and their snapshot, with their
answers; those of the counters that change them; the modes BIN and EXIT and the verbs; a frame that stops for 10 ms.

Where the manual is silent this rests on the model's own choices: log entries 40, 43. -/
def Obligations.SvetReads : Prop :=
  ∀ s : State, svetOn s = true →
    let tells (c : Instr) (cmd status : BitVec 8) (data : List Byte) : Prop :=
      completesWith c s fun u => svetSays cmd status data s u ∧ changesOnly [.mgt] s u
    tells .svetId 1 0 (toBytes 4 0xAC810A7C ++ toBytes 4 (strapReg s).toNat ++ toBytes 4 (bootStat s).toNat ++ toBytes 4 (rstStatReg s).toNat ++
      toBytes 8 s.tst.uid.toNat) ∧
    (∀ u : BitVec 8, (u.toNat ≤ 47 → tells (.svetState u) 4 0 (toBytes 4 (unitWord s u.toNat).toNat)) ∧
      (47 < u.toNat → tells (.svetState u) 4 2 [])) ∧
    tells (.svetRd 0) 2 0 (toBytes 8 0xAC810A7C) ∧
    (∀ arg : BitVec 32, (arg.toNat / 2 ^ 24 % 2 ^ 7 ≠ 0 → tells (.svetRd arg) 2 2 []) ∧
      (arg.toNat < 2 ^ 24 → arg.toNat % 4 ≠ 0 → tells (.svetRd arg) 2 6 [])) ∧
    (∀ k : BitVec 32,
      (∀ r, k.getLsbD 31 = false → 1 ≤ (s.log.tail - k).toNat → (s.log.tail - k).toNat ≤ 64 → recAt s.log.ring (k.toNat % 64) = some r →
        tells (.svetLog k) 9 0 (toBytes 264 (recNum r))) ∧
      (∀ r, 2 ^ 31 ≤ k.toNat → k.toNat < 2 ^ 31 + 4 → recAt s.log.fatal (k.toNat - 2 ^ 31) = some r → tells (.svetLog k) 9 0 (toBytes 264 (recNum r))) ∧
      (k.getLsbD 31 = false → (s.log.tail - k).toNat = 0 ∨ 64 < (s.log.tail - k).toNat → tells (.svetLog k) 9 10 []) ∧
      (2 ^ 31 + 4 ≤ k.toNat → tells (.svetLog k) 9 2 []) ∧
      ((k - s.log.head).toNat ≤ (s.log.tail - s.log.head).toNat →
        completesWith (.svetLogack k) s fun u => svetSays 10 0 [] s u ∧ u.log = { s.log with head := k } ∧ changesOnly [.mgt, .log] s u) ∧
      ((s.log.tail - s.log.head).toNat < (k - s.log.head).toNat →
        completesWith (.svetLogack k) s fun u => svetSays 10 8 [] s u ∧ u.log = { s.log with headErr := true } ∧ changesOnly [.mgt, .log] s u)) ∧
    (∀ first n : BitVec 8,
      let good : Prop := n ≠ 0 ∧ n.toNat ≤ 128 ∧ first.toNat + n.toNat ≤ 256
      let counts (f : Nat → BitVec 48) : List Byte := (List.range n.toNat).flatMap fun i => toBytes 8 (f (first.toNat + i)).toNat
      let does (c : Instr) (f : Cnt → Cnt) : Prop :=
        completesWith c s fun u => svetSays 11 0 [] s u ∧ u.cnt = f s.cnt ∧ changesOnly [.mgt, .cnt] s u
      let snap (c : Cnt) : Cnt := { c with snap := c.val, snapTime := s.clk.time }
      (good → tells (.svetCntRead first n) 11 0 (counts (cntVal s)) ∧
        tells (.svetCntReadSnapshot first n) 11 0 (counts fun k => tget 0 s.cnt.snap k) ∧
        (s.mgt.lock = false → does (.svetCntSnapshot first n) snap ∧ does (.svetCntReset first n) (fun c => { c with val := [] }) ∧
          does (.svetCntSnapshotReset first n) fun c => { snap c with val := [] })) ∧
      (¬ good → tells (.svetCntRead first n) 11 2 [] ∧ tells (.svetCntReadSnapshot first n) 11 2 []) ∧
      (s.mgt.lock = true → ∀ c : Instr, c = .svetCntSnapshot first n ∨ c = .svetCntReset first n ∨ c = .svetCntSnapshotReset first n →
        tells c 11 11 [])) ∧
    (let mode (c : Instr) (cmd : BitVec 8) (b : Bool) : Prop := completesWith c s fun u =>
      u.mgt = { s.mgt with cmds := satAdd s.mgt.cmds 1, answers := { cmd := cmd, status := 0, data := [] } :: s.mgt.answers, bin := b, partial_ := [] } ∧
      changesOnly [.mgt] s u
    (s.mgt.bin = false → mode .bin 0 true ∧ tells .exit 0x1F 1 [] ∧ tells .help 0 0 verbs) ∧
    (s.mgt.bin = true → mode .exit 0x1F false ∧ tells .bin 0 1 [] ∧ tells .help 0 1 [] ∧
      (s.mgt.partial_ ≠ [] → due s s.mgt.partialAt 10000000 = true →
        completesWith .svetFrameTimeout s fun u =>
          u.mgt = { s.mgt with partial_ := [], badframe := satAdd s.mgt.badframe 1 } ∧ changesOnly [.mgt] s u)))

/-- R411 to R414: Svet's commands that change the slice: LOCKED for each of them while LOCK is set; DENIED in console recovery or outside it; a register
write; a stale unit or domain command; a recalibration; a domain switched on; the epoch; the reset, whose answer is sent first; flash read, erased and programmed; boot
again, and the repair areas erased, in console recovery.

R415, R412: a put into the mailbox's IN, with no notification word, and its refusal while IN_FULL is set; a get from OUT clears OUT_FULL, and is EMPTY without it; a
write of MGT_MB_OUTLEN hands OUT over, or is refused with OUTREF.

Where the manual is silent this rests on the model's own choices: log entries 40, 41, 42, 44. -/
def Obligations.SvetActs : Prop :=
  (∀ s : State, svetOn s = true →
      let tells (c : Instr) (cmd status : BitVec 8) (data : List Byte) : Prop :=
        completesWith c s fun u => svetSays cmd status data s u ∧ changesOnly [.mgt] s u
      let word (x : State) (n : Nat) : List Byte := toBytes 4 (unitWord x n).toNat
      let idle : Prop := s.pwr.cmd = none ∧ s.pwr.resetSt = .none ∧ s.pwr.trip = false ∧ s.boot.phase = .started
      (∀ (arg : BitVec 32) (v : BitVec 64), s.mgt.lock = true → tells (.svetWr arg v) 3 11 []) ∧
      (∀ v : BitVec 64, s.mgt.lock = false → calm s = true →
        completesWith (.svetWr 0x010360 v) s fun u => svetSays 3 0 [] s u ∧
          u.sense = { s.sense with warn := v.extractLsb' 0 12, warnStat := s.sense.warnStat && !v.getLsbD 16 } ∧ changesOnly [.mgt, .sense] s u) ∧
      (∀ (n op : BitVec 8) (gen : BitVec 16), s.boot.phase ≠ .recovery → s.mgt.lock = false → n.toNat ≤ 47 → op.toNat ≤ 3 →
        ((unitWord s n.toNat).extractLsb' 16 16 ≠ gen →
          completesWith (.svetUnit n op gen) s fun u => svetSays 5 3 (word s n.toNat) s u ∧ changesOnly [.mgt, .pwr] s u) ∧
        ((unitWord s n.toNat).extractLsb' 16 16 = gen → op = 2 → 16 ≤ n.toNat → n.toNat < 24 → portActive s (n.toNat - 16) = true →
          completesWith (.svetUnit n op gen) s fun u => svetSays 5 0 (word u n.toNat) s u ∧ portMoves (n.toNat - 16) 5 s u)) ∧
      (∀ (d : BitVec 8) (force : Bool) (gen : BitVec 16), s.mgt.lock = false → 10 ≤ d.toNat → d.toNat < 16 →
        let x := tget Dom.zero s.pwr.dom d.toNat
        let flags : BitVec 8 := if force then 3 else 1
        (idle → gen ≠ x.gen → completesWith (.svetDom d flags gen) s fun u => svetSays 6 3 (2 :: word s d.toNat) s u ∧ changesOnly [.mgt, .pwr] s u) ∧
        (idle → gen = x.gen → x.st = 0 →
          completesWith (.svetDom d flags gen) s fun u => svetSays 6 0 (0 :: word u d.toNat) s u ∧ domSt u d.toNat = 2 ∧ u.pwr.cmd.isSome = true)) ∧
      (s.boot.phase ≠ .recovery → s.mgt.lock = false →
        (epochReason s = 0 → epochUnits s ≠ 0 →
          completesWith .svetEpoch s fun u => svetSays 7 0 (toBytes 4 (s.glb.epoch + 1).toNat) s u ∧ u.cur = s.shadow ∧ u.prev = s.cur ∧
            u.glb.epoch = s.glb.epoch + 1) ∧
        (epochReason s ≠ 0 → completesWith .svetEpoch s fun u => svetSays 7 8 (toBytes 1 (epochReason s)) s u ∧ changesOnly [.mgt, .glb] s u) ∧
        (∀ key : BitVec 8, key ≠ 0x5A → tells (.svetReset key) 8 2 []) ∧
        (s.pwr.resetSt = .none → s.pwr.pwrgood = true → s.pwr.trip = false →
          completesWith (.svetReset 0x5A) s fun u => svetSays 8 0 [] s u ∧ u.pwr = { s.pwr with resetSt := .warmReq false } ∧
            changesOnly [.mgt, .pwr] s u)) ∧
      (s.boot.eraseLog2 ≠ 0 →
        (∀ (off : BitVec 32) (len : BitVec 16), len ≠ 0 → len.toNat ≤ 1024 → flashRange s off.toNat len.toNat = false →
          tells (.flrd off len) 16 0 ((List.range len.toNat).map fun i => tget 0xFF s.boot.flash (off.toNat + i))) ∧
        (∀ (off : BitVec 32) (count : BitVec 16),
          let n := count.toNat * 2 ^ s.boot.eraseLog2.toNat
          s.mgt.lock = false → count ≠ 0 → off.toNat % 2 ^ s.boot.eraseLog2.toNat = 0 → flashRange s off.toNat n = false →
          flashDenied s off.toNat n = false →
          (completesWith (.fler off count true) s fun u => svetSays 17 0 [] s u ∧ changesOnly [.mgt, .boot] s u ∧
            ∀ a, flashByte u a = if off.toNat ≤ a ∧ a < off.toNat + n then 0xFF else flashByte s a) ∧
          tells (.fler off count false) 17 9 []) ∧
        (∀ (off : BitVec 32) (data : List Byte), s.mgt.lock = false → 1 ≤ data.length → data.length ≤ 256 →
          off.toNat % 2 ^ s.boot.pageLog2.toNat + data.length ≤ 2 ^ s.boot.pageLog2.toNat → flashRange s off.toNat data.length = false →
          flashDenied s off.toNat data.length = false → (∀ i, i < data.length → flashByte s (off.toNat + i) = 0xFF) →
          (completesWith (.flpr off data true) s fun u => svetSays 18 0 [] s u ∧ changesOnly [.mgt, .boot] s u ∧
            ∀ a, flashByte u a = if off.toNat ≤ a ∧ a < off.toNat + data.length then data.getD (a - off.toNat) 0 else flashByte s a) ∧
          tells (.flpr off data false) 18 9 [])) ∧
      (s.boot.phase ≠ .recovery → tells .svetBoot 19 5 [] ∧ ∀ key ok, tells (.reperase key ok) 20 5 []) ∧
      (s.boot.phase = .recovery →
        (completesWith .svetBoot s fun u => svetSays 19 0 [] s u ∧ u.boot.phase = .discover ∧ u.boot.slot = 3 ∧ u.boot.recovery = false ∧
          u.boot.flash = s.boot.flash ∧ u.cache.data = [] ∧ ∀ d, 1 ≤ d → d < 16 → domSt u d = 0) ∧
        (∀ a n : Nat, s.mgt.lock = false → s.boot.eraseLog2 ≠ 0 → repairAreas s = [(a, n)] →
          completesWith (.reperase 0x5A true) s fun u => svetSays 20 0 [] s u ∧ changesOnly [.mgt, .boot] s u ∧
            ∀ b, flashByte u b = if a ≤ b ∧ b < a + n then 0xFF else flashByte s b))) ∧
  (∀ s : State,
      (svetOn s = true →
        (∀ data : List Byte, 1 ≤ data.length → data.length ≤ 256 →
          (s.mgt.inFull = false → s.mgt.note = 0 →
            completesWith (.mbput data) s fun u =>
              svetSays 12 0 [] { s with mgt := { s.mgt with inLen := BitVec.ofNat 9 data.length, inFull := true, puts := s.mgt.puts + 1 } } u ∧
              tbytes 0 u.mbox.inb 0 data.length = data ∧ u.mbox.outb = s.mbox.outb ∧ changesOnly [.mgt, .mbox, .freeCtr] s u) ∧
          (s.mgt.inFull = true → completesWith (.mbput data) s fun u => svetSays 12 4 [] s u ∧ changesOnly [.mgt] s u)) ∧
        (s.mgt.outFull = true →
          completesWith .mbget s fun u =>
            svetSays 13 0 (tbytes 0 s.mbox.outb 0 s.mgt.outLen.toNat) { s with mgt := { s.mgt with outFull := false } } u ∧ changesOnly [.mgt] s u) ∧
        (s.mgt.outFull = false → completesWith .mbget s fun u => svetSays 13 10 [] s u ∧ changesOnly [.mgt] s u)) ∧
      (∀ v : BitVec 32,
        let n := v.extractLsb' 0 9
        (s.mgt.outFull = false → n ≠ 0 → n.toNat ≤ 256 →
          completesWith (.mbOutlenWrite v) s fun u => u.mgt = { s.mgt with outLen := n, outFull := true } ∧ changesOnly [.mgt] s u) ∧
        (s.mgt.outFull = true ∨ n = 0 ∨ 256 < n.toNat →
          completesWith (.mbOutlenWrite v) s fun u => u.mgt = { s.mgt with outRef := true } ∧ changesOnly [.mgt] s u)))

/-- R416, R417, R453: what the SMBus target, while it is enabled and powered, answers: its identity and status bytes, temperatures, alerts, the mailbox status; what it
takes: a staging offset, staged bytes, a commit, OUT and its release; a wrong PEC is counted and not acknowledged; the Alert Response Address is answered while an alert
stands; a timeout forgets the transaction. The estimate of the power is a free value.

Where the manual is silent this rests on the model's own choices: log entries 11, 45, 64, 73. -/
def Obligations.SmbusCommands : Prop :=
  ∀ s : State,
    let tells (c : Instr) (r : Option (List Byte)) : Prop := completesWith c s (smbSays r s)
    let does (c : Instr) (f : Mgt → Mgt) : Prop :=
      completesWith c s fun u => u.mgt = { f s.mgt with smbReply := some [] } ∧ changesOnly [.mgt] s u
    let temp (n : Nat) : BitVec 12 := tget 0 s.sense.temp n
    let valid (n : Nat) : Bool := domRuns s (sensorDom n) && tget false s.sense.valid n
    let le (v : BitVec 12) : List Byte := toBytes 2 (v.signExtend 16).toNat
    (tells .smbTimeout none) ∧
    (s.mgt.smbEn = false ∨ s.pwr.vaon = false → tells .smbReadId none ∧ tells .smbReadTemp none ∧ tells .smbReadStatus none ∧ tells .alertResponse none) ∧
    (s.mgt.smbEn = true → s.pwr.vaon = true →
      tells .smbReadId (some (toBytes 4 0xAC810A7C ++ toBytes 4 (strapReg s).toNat ++ toBytes 4 (bootStat s).toNat ++ toBytes 4 (rstStatReg s).toNat)) ∧
      (∀ n : Fin 24, tells (.smbReadSensor n) (some (if valid n.val then le (temp n.val) else [0, 0x80]))) ∧
      ((∀ n, n < 24 → valid n = false) → tells .smbReadTemp (some [0, 0x80])) ∧
      (∀ n, n < 24 → valid n = true → (∀ m, m < 24 → valid m = true → (temp m).toInt ≤ (temp n).toInt) → tells .smbReadTemp (some (le (temp n)))) ∧
      (completesWith .smbReadPower s fun u =>
        ∃ v : BitVec 16, u.mgt = { s.mgt with smbReply := some (toBytes 2 v.toNat) } ∧ changesOnly [.mgt, .freeCtr] s u) ∧
      tells .smbReadStatus
        (some (toBytes 2 (domStatReg s).toNat ++ ((List.range 8).map fun n => (Machine.port s n).state.setWidth 8) ++
          toBytes 2 (alertSrc s).toNat ++
          [pack 8 [(0, b2n s.integ.ue), (1, b2n s.integ.metaLoss), (2, b2n s.integ.crc), (3, b2n s.integ.tag), (4, b2n s.integ.shelf)]] ++
          [s.tst.stat.setWidth 8] ++ toBytes 2 (bootStat s).toNat)) ∧
      tells .smbReadAlert (some (toBytes 2 (alertSrc s).toNat)) ∧
      tells .smbReadMbStatus (some (toBytes 2
        (s.mgt.outLen.toNat + (if s.mgt.inFull then 16384 else 0) + (if s.mgt.outFull then 32768 else 0)))) ∧
      (∀ v : BitVec 16, (v.toNat < 256 → does (.smbStagingOffset v true) fun m => { m with stageOff := v.toNat }) ∧
        (256 ≤ v.toNat → tells (.smbStagingOffset v true) none) ∧
        (completesWith (.smbStagingOffset v false) s fun u =>
          u.mgt = { s.mgt with smbReply := none, pecErr := satAdd s.mgt.pecErr 1 } ∧ changesOnly [.mgt] s u)) ∧
      (∀ data : List Byte, 1 ≤ data.length → data.length ≤ 32 → s.mgt.stageOff + data.length ≤ 255 →
        completesWith (.smbStageWrite data true) s fun u =>
          tbytes 0 u.mgt.staging s.mgt.stageOff data.length = data ∧ u.mgt.stageOff = s.mgt.stageOff + data.length ∧
          (∀ a, a < s.mgt.stageOff ∨ s.mgt.stageOff + data.length ≤ a → tget 0 u.mgt.staging a = tget 0 s.mgt.staging a) ∧
          u.mgt.smbReply = some [] ∧ changesOnly [.mgt] s u) ∧
      (∀ len : BitVec 16, len ≠ 0 → len.toNat ≤ 256 →
        (s.mgt.inFull = false → s.mgt.note = 0 →
          completesWith (.smbCommit len true) s fun u =>
            u.mgt = { s.mgt with smbReply := some [], inLen := len.setWidth 9, inFull := true, puts := s.mgt.puts + 1 } ∧
            tbytes 0 u.mbox.inb 0 len.toNat = tbytes 0 s.mgt.staging 0 len.toNat ∧ changesOnly [.mgt, .mbox, .freeCtr] s u) ∧
        (s.mgt.inFull = true →
          completesWith (.smbCommit len true) s fun u => u.mgt = { s.mgt with smbReply := none, mbref := true } ∧ changesOnly [.mgt] s u)) ∧
      (s.mgt.stageOff + 32 ≤ 255 →
        completesWith .smbReadOut s fun u =>
          u.mgt = { s.mgt with smbReply := some (tbytes 0 s.mbox.outb s.mgt.stageOff 32), stageOff := s.mgt.stageOff + 32 } ∧
          changesOnly [.mgt] s u) ∧
      does (.smbClearOutFull true) (fun m => { m with outFull := false }) ∧
      (alertSrc s ≠ 0 → tells .alertResponse (some [BitVec.ofNat 8 (2 * s.mgt.smbAddr.toNat)])) ∧
      (alertSrc s = 0 → tells .alertResponse none))

/-! ## Counters, registers and the scan chain -/

/-- R304: a shadow write of a master's bandwidth setting is taken, unless the floors of the half would then sum to more than 8,000, or CEIL lies below FLOOR: then
the shadow keeps its old value, and FSUM, CFG, or both are set. -/
def Obligations.FloorWrites : Prop :=
  ∀ (who : Requester) (v : BitVec 64) (h : Half) (m : Fin 22) (s : State), calm s = true → domOn s (h.pick 3 4) = true →
    let c : Instr := .registerWrite who 0 (BitVec.ofNat 24 (0xE9000 + h.pick 0 0x400 + 16 * m.val)) false v
    let x : MCfg := { floor := v.extractLsb' 0 14, ceil := v.extractLsb' 16 14, prio := v.extractLsb' 30 2 }
    let shadow := { s.shadow with mcfg := tset MCfg.zero s.shadow.mcfg (22 * h.idx + m.val) x }
    let excess : Bool := decide (8000 < ((List.range 22).map fun i => (mcfg shadow h i).floor.toNat).sum)
    let below : Bool := decide (x.ceil.toNat < x.floor.toNat)
    (excess = false → below = false → completesWith c s fun u => u.shadow = shadow ∧ changesOnly [.shadow] s u) ∧
    (excess = true ∨ below = true →
      completesWith c s fun u =>
        u.bwr = { s.bwr with errFsum := s.bwr.errFsum || excess, errCfg := s.bwr.errCfg || below } ∧ changesOnly [.bwr] s u)


/-- R14, R427, R431, R432, R438: a snapshot takes every counter and the time at once, a reset clears every counter; a register write by partition 0 reaches registers
of each block; one at an offset that is no multiple of its size, one of another partition to a register that no partition sees, and one to a block that is
off, change nothing.

R32, R452: the boundary-scan port: TRST_N resets the controller, a rising edge of TCK moves it, captures the pins and shifts; a falling edge updates. The instruction
codes are the model's (log entry 46). -/
def Obligations.RegistersAndScan : Prop :=
  (∀ s : State,
      (completesWith .cntSnap s fun u => u.cnt = { s.cnt with snap := s.cnt.val, snapTime := s.clk.time } ∧ changesOnly [.cnt] s u) ∧
      (completesWith .cntReset s fun u => (∀ n, cntVal u n = 0) ∧ u.cnt = { s.cnt with val := [] } ∧ changesOnly [.cnt] s u) ∧
      (∀ (who : Requester) (v : BitVec 64), s.pwr.vaon = true → calm s = true →
        let w := v.extractLsb' 0 32
        let writes (off : BitVec 24) (b : Block) (P : State → Prop) : Prop :=
          completesWith (.registerWrite who 0 off false v) s fun u => P u ∧ changesOnly [b] s u
        writes 0x10360 .sense (fun u => u.sense = { s.sense with warn := w.extractLsb' 0 12, warnStat := s.sense.warnStat && !w.getLsbD 16 }) ∧
        writes 0x30000 .loops (fun u => u.loops = { s.loops with frz := w.extractLsb' 0 14 }) ∧
        writes 0x300220 .tst (fun u => u.tst = { s.tst with ageThr := w.extractLsb' 0 16 }) ∧
        writes 0x340020 .mgt (fun u => u.mgt = { s.mgt with lock := s.mgt.lock || w.getLsbD 0, echo := w.getLsbD 1 }) ∧
        (∀ n : Fin 256,
          let x : CntSel := { event := w.extractLsb' 0 10, half := w.extractLsb' 10 2, part := w.extractLsb' 12 5, partEn := w.getLsbD 17, chain := w.getLsbD 18 }
          (eventOk x.event.toNat = true →
            writes (BitVec.ofNat 24 (0x381000 + 4 * n.val)) .cnt fun u => u.cnt = { s.cnt with sel := tset CntSel.zero s.cnt.sel n.val x }) ∧
          (eventOk x.event.toNat = false →
            writes (BitVec.ofNat 24 (0x381000 + 4 * n.val)) .cnt fun u => u.cnt = { s.cnt with errSel := true })) ∧
        (completesWith (.registerWrite who 0 0x58 true v) s fun u =>
          u.glb = { s.glb with note := v.extractLsb' 3 49 } ∧ changesOnly [.glb] s u) ∧
        (domOn s 5 = true ∨ domOn s 6 = true → writes 0x2C000C .integ fun u => u.integ = { s.integ with ceThr := w.extractLsb' 0 8 }) ∧
        (domOn s 5 = false → domOn s 6 = false → ∀ p, completesWith (.registerWrite who p 0x2C000C false v) s (changesOnly [] s)) ∧
        (∀ (p : Part) (off : BitVec 24) (wide : Bool), off.toNat % (if wide then 8 else 4) ≠ 0 →
          completesWith (.registerWrite who p off wide v) s (changesOnly [] s)) ∧
        (∀ p : Part, p ≠ 0 → ∀ off ∈ [(0x10360 : BitVec 24), 0x30000, 0x300220, 0x340020, 0x2C000C],
          completesWith (.registerWrite who p off false v) s (changesOnly [] s)))) ∧
  (∀ (s : State) (tms tdi : Bool) (pins : BitVec 39), s.pwr.vaon = true →
      let j := s.jtag
      let edge (rising trst : Bool) (P : Jtag → Prop) : Prop :=
        completesWith (.jtagTckEdge rising trst tms tdi pins) s fun u => P u.jtag ∧ changesOnly [.jtag] s u
      (∀ rising, edge rising false fun k => k = { j with tap := .reset, ir := 3, tdo := none }) ∧
      (edge true true fun k => k.tap = j.tap.next tms ∧ k.ir = j.ir ∧ k.latch = j.latch ∧
        k.shift = (if j.ir.toNat < 2 ∧ j.tap = .capDr then pins else if j.ir.toNat < 2 ∧ j.tap = .shiftDr then setBit (j.shift >>> 1) 38 tdi else j.shift) ∧
        k.bypass = (if 2 ≤ j.ir.toNat ∧ j.tap = .capDr then false else if 2 ≤ j.ir.toNat ∧ j.tap = .shiftDr then tdi else j.bypass) ∧
        k.irShift = (if j.tap = .capIr then 1 else if j.tap = .shiftIr then setBit (j.irShift >>> 1) 1 tdi else j.irShift)) ∧
      (edge false true fun k => k.tap = j.tap ∧ k.shift = j.shift ∧ k.bypass = j.bypass ∧ k.irShift = j.irShift ∧
        k.ir = (if j.tap = .reset then 3 else if j.tap = .updIr then j.irShift else j.ir) ∧
        k.latch = (if j.tap = .updDr ∧ j.ir.toNat < 2 then j.shift else j.latch) ∧
        k.tdo = (if j.tap = .shiftDr then some (if j.ir.toNat < 2 then j.shift.getLsbD 0 else j.bypass) else if j.tap = .shiftIr then some (j.irShift.getLsbD 0)
          else none)))
end

