-- ==== Sys2Proof/Laws/State.lean ====
section
/-! SUPPORT. What each update of a block of the state does to each field: the block named is changed by the function, every other
field is kept. -/

namespace Sys2Proof.Machine

variable (s : State)

section
variable (f : Clk → Clk)
@[simp] theorem State.onClk_clk : (s.onClk f).clk = f s.clk := rfl
@[simp] theorem State.onClk_loops : (s.onClk f).loops = s.loops := rfl
@[simp] theorem State.onClk_glb : (s.onClk f).glb = s.glb := rfl
@[simp] theorem State.onClk_cur : (s.onClk f).cur = s.cur := rfl
@[simp] theorem State.onClk_prev : (s.onClk f).prev = s.prev := rfl
@[simp] theorem State.onClk_shadow : (s.onClk f).shadow = s.shadow := rfl
@[simp] theorem State.onClk_tables : (s.onClk f).tables = s.tables := rfl
@[simp] theorem State.onClk_xlt : (s.onClk f).xlt = s.xlt := rfl
@[simp] theorem State.onClk_cch : (s.onClk f).cch = s.cch := rfl
@[simp] theorem State.onClk_cache : (s.onClk f).cache = s.cache := rfl
@[simp] theorem State.onClk_buf : (s.onClk f).buf = s.buf := rfl
@[simp] theorem State.onClk_atu : (s.onClk f).atu = s.atu := rfl
@[simp] theorem State.onClk_seq : (s.onClk f).seq = s.seq := rfl
@[simp] theorem State.onClk_links : (s.onClk f).links = s.links := rfl
@[simp] theorem State.onClk_bwr : (s.onClk f).bwr = s.bwr := rfl
@[simp] theorem State.onClk_integ : (s.onClk f).integ = s.integ := rfl
@[simp] theorem State.onClk_log : (s.onClk f).log = s.log := rfl
@[simp] theorem State.onClk_tst : (s.onClk f).tst = s.tst := rfl
@[simp] theorem State.onClk_rep : (s.onClk f).rep = s.rep := rfl
@[simp] theorem State.onClk_pwr : (s.onClk f).pwr = s.pwr := rfl
@[simp] theorem State.onClk_sense : (s.onClk f).sense = s.sense := rfl
@[simp] theorem State.onClk_boot : (s.onClk f).boot = s.boot := rfl
@[simp] theorem State.onClk_uart : (s.onClk f).uart = s.uart := rfl
@[simp] theorem State.onClk_mgt : (s.onClk f).mgt = s.mgt := rfl
@[simp] theorem State.onClk_mbox : (s.onClk f).mbox = s.mbox := rfl
@[simp] theorem State.onClk_cnt : (s.onClk f).cnt = s.cnt := rfl
@[simp] theorem State.onClk_jtag : (s.onClk f).jtag = s.jtag := rfl
@[simp] theorem State.onClk_freeCtr : (s.onClk f).freeCtr = s.freeCtr := rfl
@[simp] theorem State.onClk_pending : (s.onClk f).pending = s.pending := rfl
end

section
variable (f : Loops → Loops)
@[simp] theorem State.onLoops_clk : (s.onLoops f).clk = s.clk := rfl
@[simp] theorem State.onLoops_loops : (s.onLoops f).loops = f s.loops := rfl
@[simp] theorem State.onLoops_glb : (s.onLoops f).glb = s.glb := rfl
@[simp] theorem State.onLoops_cur : (s.onLoops f).cur = s.cur := rfl
@[simp] theorem State.onLoops_prev : (s.onLoops f).prev = s.prev := rfl
@[simp] theorem State.onLoops_shadow : (s.onLoops f).shadow = s.shadow := rfl
@[simp] theorem State.onLoops_tables : (s.onLoops f).tables = s.tables := rfl
@[simp] theorem State.onLoops_xlt : (s.onLoops f).xlt = s.xlt := rfl
@[simp] theorem State.onLoops_cch : (s.onLoops f).cch = s.cch := rfl
@[simp] theorem State.onLoops_cache : (s.onLoops f).cache = s.cache := rfl
@[simp] theorem State.onLoops_buf : (s.onLoops f).buf = s.buf := rfl
@[simp] theorem State.onLoops_atu : (s.onLoops f).atu = s.atu := rfl
@[simp] theorem State.onLoops_seq : (s.onLoops f).seq = s.seq := rfl
@[simp] theorem State.onLoops_links : (s.onLoops f).links = s.links := rfl
@[simp] theorem State.onLoops_bwr : (s.onLoops f).bwr = s.bwr := rfl
@[simp] theorem State.onLoops_integ : (s.onLoops f).integ = s.integ := rfl
@[simp] theorem State.onLoops_log : (s.onLoops f).log = s.log := rfl
@[simp] theorem State.onLoops_tst : (s.onLoops f).tst = s.tst := rfl
@[simp] theorem State.onLoops_rep : (s.onLoops f).rep = s.rep := rfl
@[simp] theorem State.onLoops_pwr : (s.onLoops f).pwr = s.pwr := rfl
@[simp] theorem State.onLoops_sense : (s.onLoops f).sense = s.sense := rfl
@[simp] theorem State.onLoops_boot : (s.onLoops f).boot = s.boot := rfl
@[simp] theorem State.onLoops_uart : (s.onLoops f).uart = s.uart := rfl
@[simp] theorem State.onLoops_mgt : (s.onLoops f).mgt = s.mgt := rfl
@[simp] theorem State.onLoops_mbox : (s.onLoops f).mbox = s.mbox := rfl
@[simp] theorem State.onLoops_cnt : (s.onLoops f).cnt = s.cnt := rfl
@[simp] theorem State.onLoops_jtag : (s.onLoops f).jtag = s.jtag := rfl
@[simp] theorem State.onLoops_freeCtr : (s.onLoops f).freeCtr = s.freeCtr := rfl
@[simp] theorem State.onLoops_pending : (s.onLoops f).pending = s.pending := rfl
end

section
variable (f : Glb → Glb)
@[simp] theorem State.onGlb_clk : (s.onGlb f).clk = s.clk := rfl
@[simp] theorem State.onGlb_loops : (s.onGlb f).loops = s.loops := rfl
@[simp] theorem State.onGlb_glb : (s.onGlb f).glb = f s.glb := rfl
@[simp] theorem State.onGlb_cur : (s.onGlb f).cur = s.cur := rfl
@[simp] theorem State.onGlb_prev : (s.onGlb f).prev = s.prev := rfl
@[simp] theorem State.onGlb_shadow : (s.onGlb f).shadow = s.shadow := rfl
@[simp] theorem State.onGlb_tables : (s.onGlb f).tables = s.tables := rfl
@[simp] theorem State.onGlb_xlt : (s.onGlb f).xlt = s.xlt := rfl
@[simp] theorem State.onGlb_cch : (s.onGlb f).cch = s.cch := rfl
@[simp] theorem State.onGlb_cache : (s.onGlb f).cache = s.cache := rfl
@[simp] theorem State.onGlb_buf : (s.onGlb f).buf = s.buf := rfl
@[simp] theorem State.onGlb_atu : (s.onGlb f).atu = s.atu := rfl
@[simp] theorem State.onGlb_seq : (s.onGlb f).seq = s.seq := rfl
@[simp] theorem State.onGlb_links : (s.onGlb f).links = s.links := rfl
@[simp] theorem State.onGlb_bwr : (s.onGlb f).bwr = s.bwr := rfl
@[simp] theorem State.onGlb_integ : (s.onGlb f).integ = s.integ := rfl
@[simp] theorem State.onGlb_log : (s.onGlb f).log = s.log := rfl
@[simp] theorem State.onGlb_tst : (s.onGlb f).tst = s.tst := rfl
@[simp] theorem State.onGlb_rep : (s.onGlb f).rep = s.rep := rfl
@[simp] theorem State.onGlb_pwr : (s.onGlb f).pwr = s.pwr := rfl
@[simp] theorem State.onGlb_sense : (s.onGlb f).sense = s.sense := rfl
@[simp] theorem State.onGlb_boot : (s.onGlb f).boot = s.boot := rfl
@[simp] theorem State.onGlb_uart : (s.onGlb f).uart = s.uart := rfl
@[simp] theorem State.onGlb_mgt : (s.onGlb f).mgt = s.mgt := rfl
@[simp] theorem State.onGlb_mbox : (s.onGlb f).mbox = s.mbox := rfl
@[simp] theorem State.onGlb_cnt : (s.onGlb f).cnt = s.cnt := rfl
@[simp] theorem State.onGlb_jtag : (s.onGlb f).jtag = s.jtag := rfl
@[simp] theorem State.onGlb_freeCtr : (s.onGlb f).freeCtr = s.freeCtr := rfl
@[simp] theorem State.onGlb_pending : (s.onGlb f).pending = s.pending := rfl
end

section
variable (f : Staged → Staged)
@[simp] theorem State.onShadow_clk : (s.onShadow f).clk = s.clk := rfl
@[simp] theorem State.onShadow_loops : (s.onShadow f).loops = s.loops := rfl
@[simp] theorem State.onShadow_glb : (s.onShadow f).glb = s.glb := rfl
@[simp] theorem State.onShadow_cur : (s.onShadow f).cur = s.cur := rfl
@[simp] theorem State.onShadow_prev : (s.onShadow f).prev = s.prev := rfl
@[simp] theorem State.onShadow_shadow : (s.onShadow f).shadow = f s.shadow := rfl
@[simp] theorem State.onShadow_tables : (s.onShadow f).tables = s.tables := rfl
@[simp] theorem State.onShadow_xlt : (s.onShadow f).xlt = s.xlt := rfl
@[simp] theorem State.onShadow_cch : (s.onShadow f).cch = s.cch := rfl
@[simp] theorem State.onShadow_cache : (s.onShadow f).cache = s.cache := rfl
@[simp] theorem State.onShadow_buf : (s.onShadow f).buf = s.buf := rfl
@[simp] theorem State.onShadow_atu : (s.onShadow f).atu = s.atu := rfl
@[simp] theorem State.onShadow_seq : (s.onShadow f).seq = s.seq := rfl
@[simp] theorem State.onShadow_links : (s.onShadow f).links = s.links := rfl
@[simp] theorem State.onShadow_bwr : (s.onShadow f).bwr = s.bwr := rfl
@[simp] theorem State.onShadow_integ : (s.onShadow f).integ = s.integ := rfl
@[simp] theorem State.onShadow_log : (s.onShadow f).log = s.log := rfl
@[simp] theorem State.onShadow_tst : (s.onShadow f).tst = s.tst := rfl
@[simp] theorem State.onShadow_rep : (s.onShadow f).rep = s.rep := rfl
@[simp] theorem State.onShadow_pwr : (s.onShadow f).pwr = s.pwr := rfl
@[simp] theorem State.onShadow_sense : (s.onShadow f).sense = s.sense := rfl
@[simp] theorem State.onShadow_boot : (s.onShadow f).boot = s.boot := rfl
@[simp] theorem State.onShadow_uart : (s.onShadow f).uart = s.uart := rfl
@[simp] theorem State.onShadow_mgt : (s.onShadow f).mgt = s.mgt := rfl
@[simp] theorem State.onShadow_mbox : (s.onShadow f).mbox = s.mbox := rfl
@[simp] theorem State.onShadow_cnt : (s.onShadow f).cnt = s.cnt := rfl
@[simp] theorem State.onShadow_jtag : (s.onShadow f).jtag = s.jtag := rfl
@[simp] theorem State.onShadow_freeCtr : (s.onShadow f).freeCtr = s.freeCtr := rfl
@[simp] theorem State.onShadow_pending : (s.onShadow f).pending = s.pending := rfl
end

section
variable (f : Tables → Tables)
@[simp] theorem State.onTables_clk : (s.onTables f).clk = s.clk := rfl
@[simp] theorem State.onTables_loops : (s.onTables f).loops = s.loops := rfl
@[simp] theorem State.onTables_glb : (s.onTables f).glb = s.glb := rfl
@[simp] theorem State.onTables_cur : (s.onTables f).cur = s.cur := rfl
@[simp] theorem State.onTables_prev : (s.onTables f).prev = s.prev := rfl
@[simp] theorem State.onTables_shadow : (s.onTables f).shadow = s.shadow := rfl
@[simp] theorem State.onTables_tables : (s.onTables f).tables = f s.tables := rfl
@[simp] theorem State.onTables_xlt : (s.onTables f).xlt = s.xlt := rfl
@[simp] theorem State.onTables_cch : (s.onTables f).cch = s.cch := rfl
@[simp] theorem State.onTables_cache : (s.onTables f).cache = s.cache := rfl
@[simp] theorem State.onTables_buf : (s.onTables f).buf = s.buf := rfl
@[simp] theorem State.onTables_atu : (s.onTables f).atu = s.atu := rfl
@[simp] theorem State.onTables_seq : (s.onTables f).seq = s.seq := rfl
@[simp] theorem State.onTables_links : (s.onTables f).links = s.links := rfl
@[simp] theorem State.onTables_bwr : (s.onTables f).bwr = s.bwr := rfl
@[simp] theorem State.onTables_integ : (s.onTables f).integ = s.integ := rfl
@[simp] theorem State.onTables_log : (s.onTables f).log = s.log := rfl
@[simp] theorem State.onTables_tst : (s.onTables f).tst = s.tst := rfl
@[simp] theorem State.onTables_rep : (s.onTables f).rep = s.rep := rfl
@[simp] theorem State.onTables_pwr : (s.onTables f).pwr = s.pwr := rfl
@[simp] theorem State.onTables_sense : (s.onTables f).sense = s.sense := rfl
@[simp] theorem State.onTables_boot : (s.onTables f).boot = s.boot := rfl
@[simp] theorem State.onTables_uart : (s.onTables f).uart = s.uart := rfl
@[simp] theorem State.onTables_mgt : (s.onTables f).mgt = s.mgt := rfl
@[simp] theorem State.onTables_mbox : (s.onTables f).mbox = s.mbox := rfl
@[simp] theorem State.onTables_cnt : (s.onTables f).cnt = s.cnt := rfl
@[simp] theorem State.onTables_jtag : (s.onTables f).jtag = s.jtag := rfl
@[simp] theorem State.onTables_freeCtr : (s.onTables f).freeCtr = s.freeCtr := rfl
@[simp] theorem State.onTables_pending : (s.onTables f).pending = s.pending := rfl
end

section
variable (f : Xlt → Xlt)
@[simp] theorem State.onXlt_clk : (s.onXlt f).clk = s.clk := rfl
@[simp] theorem State.onXlt_loops : (s.onXlt f).loops = s.loops := rfl
@[simp] theorem State.onXlt_glb : (s.onXlt f).glb = s.glb := rfl
@[simp] theorem State.onXlt_cur : (s.onXlt f).cur = s.cur := rfl
@[simp] theorem State.onXlt_prev : (s.onXlt f).prev = s.prev := rfl
@[simp] theorem State.onXlt_shadow : (s.onXlt f).shadow = s.shadow := rfl
@[simp] theorem State.onXlt_tables : (s.onXlt f).tables = s.tables := rfl
@[simp] theorem State.onXlt_xlt : (s.onXlt f).xlt = f s.xlt := rfl
@[simp] theorem State.onXlt_cch : (s.onXlt f).cch = s.cch := rfl
@[simp] theorem State.onXlt_cache : (s.onXlt f).cache = s.cache := rfl
@[simp] theorem State.onXlt_buf : (s.onXlt f).buf = s.buf := rfl
@[simp] theorem State.onXlt_atu : (s.onXlt f).atu = s.atu := rfl
@[simp] theorem State.onXlt_seq : (s.onXlt f).seq = s.seq := rfl
@[simp] theorem State.onXlt_links : (s.onXlt f).links = s.links := rfl
@[simp] theorem State.onXlt_bwr : (s.onXlt f).bwr = s.bwr := rfl
@[simp] theorem State.onXlt_integ : (s.onXlt f).integ = s.integ := rfl
@[simp] theorem State.onXlt_log : (s.onXlt f).log = s.log := rfl
@[simp] theorem State.onXlt_tst : (s.onXlt f).tst = s.tst := rfl
@[simp] theorem State.onXlt_rep : (s.onXlt f).rep = s.rep := rfl
@[simp] theorem State.onXlt_pwr : (s.onXlt f).pwr = s.pwr := rfl
@[simp] theorem State.onXlt_sense : (s.onXlt f).sense = s.sense := rfl
@[simp] theorem State.onXlt_boot : (s.onXlt f).boot = s.boot := rfl
@[simp] theorem State.onXlt_uart : (s.onXlt f).uart = s.uart := rfl
@[simp] theorem State.onXlt_mgt : (s.onXlt f).mgt = s.mgt := rfl
@[simp] theorem State.onXlt_mbox : (s.onXlt f).mbox = s.mbox := rfl
@[simp] theorem State.onXlt_cnt : (s.onXlt f).cnt = s.cnt := rfl
@[simp] theorem State.onXlt_jtag : (s.onXlt f).jtag = s.jtag := rfl
@[simp] theorem State.onXlt_freeCtr : (s.onXlt f).freeCtr = s.freeCtr := rfl
@[simp] theorem State.onXlt_pending : (s.onXlt f).pending = s.pending := rfl
end

section
variable (f : Cch → Cch)
@[simp] theorem State.onCch_clk : (s.onCch f).clk = s.clk := rfl
@[simp] theorem State.onCch_loops : (s.onCch f).loops = s.loops := rfl
@[simp] theorem State.onCch_glb : (s.onCch f).glb = s.glb := rfl
@[simp] theorem State.onCch_cur : (s.onCch f).cur = s.cur := rfl
@[simp] theorem State.onCch_prev : (s.onCch f).prev = s.prev := rfl
@[simp] theorem State.onCch_shadow : (s.onCch f).shadow = s.shadow := rfl
@[simp] theorem State.onCch_tables : (s.onCch f).tables = s.tables := rfl
@[simp] theorem State.onCch_xlt : (s.onCch f).xlt = s.xlt := rfl
@[simp] theorem State.onCch_cch : (s.onCch f).cch = f s.cch := rfl
@[simp] theorem State.onCch_cache : (s.onCch f).cache = s.cache := rfl
@[simp] theorem State.onCch_buf : (s.onCch f).buf = s.buf := rfl
@[simp] theorem State.onCch_atu : (s.onCch f).atu = s.atu := rfl
@[simp] theorem State.onCch_seq : (s.onCch f).seq = s.seq := rfl
@[simp] theorem State.onCch_links : (s.onCch f).links = s.links := rfl
@[simp] theorem State.onCch_bwr : (s.onCch f).bwr = s.bwr := rfl
@[simp] theorem State.onCch_integ : (s.onCch f).integ = s.integ := rfl
@[simp] theorem State.onCch_log : (s.onCch f).log = s.log := rfl
@[simp] theorem State.onCch_tst : (s.onCch f).tst = s.tst := rfl
@[simp] theorem State.onCch_rep : (s.onCch f).rep = s.rep := rfl
@[simp] theorem State.onCch_pwr : (s.onCch f).pwr = s.pwr := rfl
@[simp] theorem State.onCch_sense : (s.onCch f).sense = s.sense := rfl
@[simp] theorem State.onCch_boot : (s.onCch f).boot = s.boot := rfl
@[simp] theorem State.onCch_uart : (s.onCch f).uart = s.uart := rfl
@[simp] theorem State.onCch_mgt : (s.onCch f).mgt = s.mgt := rfl
@[simp] theorem State.onCch_mbox : (s.onCch f).mbox = s.mbox := rfl
@[simp] theorem State.onCch_cnt : (s.onCch f).cnt = s.cnt := rfl
@[simp] theorem State.onCch_jtag : (s.onCch f).jtag = s.jtag := rfl
@[simp] theorem State.onCch_freeCtr : (s.onCch f).freeCtr = s.freeCtr := rfl
@[simp] theorem State.onCch_pending : (s.onCch f).pending = s.pending := rfl
end

section
variable (f : Cache → Cache)
@[simp] theorem State.onCache_clk : (s.onCache f).clk = s.clk := rfl
@[simp] theorem State.onCache_loops : (s.onCache f).loops = s.loops := rfl
@[simp] theorem State.onCache_glb : (s.onCache f).glb = s.glb := rfl
@[simp] theorem State.onCache_cur : (s.onCache f).cur = s.cur := rfl
@[simp] theorem State.onCache_prev : (s.onCache f).prev = s.prev := rfl
@[simp] theorem State.onCache_shadow : (s.onCache f).shadow = s.shadow := rfl
@[simp] theorem State.onCache_tables : (s.onCache f).tables = s.tables := rfl
@[simp] theorem State.onCache_xlt : (s.onCache f).xlt = s.xlt := rfl
@[simp] theorem State.onCache_cch : (s.onCache f).cch = s.cch := rfl
@[simp] theorem State.onCache_cache : (s.onCache f).cache = f s.cache := rfl
@[simp] theorem State.onCache_buf : (s.onCache f).buf = s.buf := rfl
@[simp] theorem State.onCache_atu : (s.onCache f).atu = s.atu := rfl
@[simp] theorem State.onCache_seq : (s.onCache f).seq = s.seq := rfl
@[simp] theorem State.onCache_links : (s.onCache f).links = s.links := rfl
@[simp] theorem State.onCache_bwr : (s.onCache f).bwr = s.bwr := rfl
@[simp] theorem State.onCache_integ : (s.onCache f).integ = s.integ := rfl
@[simp] theorem State.onCache_log : (s.onCache f).log = s.log := rfl
@[simp] theorem State.onCache_tst : (s.onCache f).tst = s.tst := rfl
@[simp] theorem State.onCache_rep : (s.onCache f).rep = s.rep := rfl
@[simp] theorem State.onCache_pwr : (s.onCache f).pwr = s.pwr := rfl
@[simp] theorem State.onCache_sense : (s.onCache f).sense = s.sense := rfl
@[simp] theorem State.onCache_boot : (s.onCache f).boot = s.boot := rfl
@[simp] theorem State.onCache_uart : (s.onCache f).uart = s.uart := rfl
@[simp] theorem State.onCache_mgt : (s.onCache f).mgt = s.mgt := rfl
@[simp] theorem State.onCache_mbox : (s.onCache f).mbox = s.mbox := rfl
@[simp] theorem State.onCache_cnt : (s.onCache f).cnt = s.cnt := rfl
@[simp] theorem State.onCache_jtag : (s.onCache f).jtag = s.jtag := rfl
@[simp] theorem State.onCache_freeCtr : (s.onCache f).freeCtr = s.freeCtr := rfl
@[simp] theorem State.onCache_pending : (s.onCache f).pending = s.pending := rfl
end

section
variable (f : Buf → Buf)
@[simp] theorem State.onBuf_clk : (s.onBuf f).clk = s.clk := rfl
@[simp] theorem State.onBuf_loops : (s.onBuf f).loops = s.loops := rfl
@[simp] theorem State.onBuf_glb : (s.onBuf f).glb = s.glb := rfl
@[simp] theorem State.onBuf_cur : (s.onBuf f).cur = s.cur := rfl
@[simp] theorem State.onBuf_prev : (s.onBuf f).prev = s.prev := rfl
@[simp] theorem State.onBuf_shadow : (s.onBuf f).shadow = s.shadow := rfl
@[simp] theorem State.onBuf_tables : (s.onBuf f).tables = s.tables := rfl
@[simp] theorem State.onBuf_xlt : (s.onBuf f).xlt = s.xlt := rfl
@[simp] theorem State.onBuf_cch : (s.onBuf f).cch = s.cch := rfl
@[simp] theorem State.onBuf_cache : (s.onBuf f).cache = s.cache := rfl
@[simp] theorem State.onBuf_buf : (s.onBuf f).buf = f s.buf := rfl
@[simp] theorem State.onBuf_atu : (s.onBuf f).atu = s.atu := rfl
@[simp] theorem State.onBuf_seq : (s.onBuf f).seq = s.seq := rfl
@[simp] theorem State.onBuf_links : (s.onBuf f).links = s.links := rfl
@[simp] theorem State.onBuf_bwr : (s.onBuf f).bwr = s.bwr := rfl
@[simp] theorem State.onBuf_integ : (s.onBuf f).integ = s.integ := rfl
@[simp] theorem State.onBuf_log : (s.onBuf f).log = s.log := rfl
@[simp] theorem State.onBuf_tst : (s.onBuf f).tst = s.tst := rfl
@[simp] theorem State.onBuf_rep : (s.onBuf f).rep = s.rep := rfl
@[simp] theorem State.onBuf_pwr : (s.onBuf f).pwr = s.pwr := rfl
@[simp] theorem State.onBuf_sense : (s.onBuf f).sense = s.sense := rfl
@[simp] theorem State.onBuf_boot : (s.onBuf f).boot = s.boot := rfl
@[simp] theorem State.onBuf_uart : (s.onBuf f).uart = s.uart := rfl
@[simp] theorem State.onBuf_mgt : (s.onBuf f).mgt = s.mgt := rfl
@[simp] theorem State.onBuf_mbox : (s.onBuf f).mbox = s.mbox := rfl
@[simp] theorem State.onBuf_cnt : (s.onBuf f).cnt = s.cnt := rfl
@[simp] theorem State.onBuf_jtag : (s.onBuf f).jtag = s.jtag := rfl
@[simp] theorem State.onBuf_freeCtr : (s.onBuf f).freeCtr = s.freeCtr := rfl
@[simp] theorem State.onBuf_pending : (s.onBuf f).pending = s.pending := rfl
end

section
variable (f : Atu → Atu)
@[simp] theorem State.onAtu_clk : (s.onAtu f).clk = s.clk := rfl
@[simp] theorem State.onAtu_loops : (s.onAtu f).loops = s.loops := rfl
@[simp] theorem State.onAtu_glb : (s.onAtu f).glb = s.glb := rfl
@[simp] theorem State.onAtu_cur : (s.onAtu f).cur = s.cur := rfl
@[simp] theorem State.onAtu_prev : (s.onAtu f).prev = s.prev := rfl
@[simp] theorem State.onAtu_shadow : (s.onAtu f).shadow = s.shadow := rfl
@[simp] theorem State.onAtu_tables : (s.onAtu f).tables = s.tables := rfl
@[simp] theorem State.onAtu_xlt : (s.onAtu f).xlt = s.xlt := rfl
@[simp] theorem State.onAtu_cch : (s.onAtu f).cch = s.cch := rfl
@[simp] theorem State.onAtu_cache : (s.onAtu f).cache = s.cache := rfl
@[simp] theorem State.onAtu_buf : (s.onAtu f).buf = s.buf := rfl
@[simp] theorem State.onAtu_atu : (s.onAtu f).atu = f s.atu := rfl
@[simp] theorem State.onAtu_seq : (s.onAtu f).seq = s.seq := rfl
@[simp] theorem State.onAtu_links : (s.onAtu f).links = s.links := rfl
@[simp] theorem State.onAtu_bwr : (s.onAtu f).bwr = s.bwr := rfl
@[simp] theorem State.onAtu_integ : (s.onAtu f).integ = s.integ := rfl
@[simp] theorem State.onAtu_log : (s.onAtu f).log = s.log := rfl
@[simp] theorem State.onAtu_tst : (s.onAtu f).tst = s.tst := rfl
@[simp] theorem State.onAtu_rep : (s.onAtu f).rep = s.rep := rfl
@[simp] theorem State.onAtu_pwr : (s.onAtu f).pwr = s.pwr := rfl
@[simp] theorem State.onAtu_sense : (s.onAtu f).sense = s.sense := rfl
@[simp] theorem State.onAtu_boot : (s.onAtu f).boot = s.boot := rfl
@[simp] theorem State.onAtu_uart : (s.onAtu f).uart = s.uart := rfl
@[simp] theorem State.onAtu_mgt : (s.onAtu f).mgt = s.mgt := rfl
@[simp] theorem State.onAtu_mbox : (s.onAtu f).mbox = s.mbox := rfl
@[simp] theorem State.onAtu_cnt : (s.onAtu f).cnt = s.cnt := rfl
@[simp] theorem State.onAtu_jtag : (s.onAtu f).jtag = s.jtag := rfl
@[simp] theorem State.onAtu_freeCtr : (s.onAtu f).freeCtr = s.freeCtr := rfl
@[simp] theorem State.onAtu_pending : (s.onAtu f).pending = s.pending := rfl
end

section
variable (f : Seq → Seq)
@[simp] theorem State.onSeq_clk : (s.onSeq f).clk = s.clk := rfl
@[simp] theorem State.onSeq_loops : (s.onSeq f).loops = s.loops := rfl
@[simp] theorem State.onSeq_glb : (s.onSeq f).glb = s.glb := rfl
@[simp] theorem State.onSeq_cur : (s.onSeq f).cur = s.cur := rfl
@[simp] theorem State.onSeq_prev : (s.onSeq f).prev = s.prev := rfl
@[simp] theorem State.onSeq_shadow : (s.onSeq f).shadow = s.shadow := rfl
@[simp] theorem State.onSeq_tables : (s.onSeq f).tables = s.tables := rfl
@[simp] theorem State.onSeq_xlt : (s.onSeq f).xlt = s.xlt := rfl
@[simp] theorem State.onSeq_cch : (s.onSeq f).cch = s.cch := rfl
@[simp] theorem State.onSeq_cache : (s.onSeq f).cache = s.cache := rfl
@[simp] theorem State.onSeq_buf : (s.onSeq f).buf = s.buf := rfl
@[simp] theorem State.onSeq_atu : (s.onSeq f).atu = s.atu := rfl
@[simp] theorem State.onSeq_seq : (s.onSeq f).seq = f s.seq := rfl
@[simp] theorem State.onSeq_links : (s.onSeq f).links = s.links := rfl
@[simp] theorem State.onSeq_bwr : (s.onSeq f).bwr = s.bwr := rfl
@[simp] theorem State.onSeq_integ : (s.onSeq f).integ = s.integ := rfl
@[simp] theorem State.onSeq_log : (s.onSeq f).log = s.log := rfl
@[simp] theorem State.onSeq_tst : (s.onSeq f).tst = s.tst := rfl
@[simp] theorem State.onSeq_rep : (s.onSeq f).rep = s.rep := rfl
@[simp] theorem State.onSeq_pwr : (s.onSeq f).pwr = s.pwr := rfl
@[simp] theorem State.onSeq_sense : (s.onSeq f).sense = s.sense := rfl
@[simp] theorem State.onSeq_boot : (s.onSeq f).boot = s.boot := rfl
@[simp] theorem State.onSeq_uart : (s.onSeq f).uart = s.uart := rfl
@[simp] theorem State.onSeq_mgt : (s.onSeq f).mgt = s.mgt := rfl
@[simp] theorem State.onSeq_mbox : (s.onSeq f).mbox = s.mbox := rfl
@[simp] theorem State.onSeq_cnt : (s.onSeq f).cnt = s.cnt := rfl
@[simp] theorem State.onSeq_jtag : (s.onSeq f).jtag = s.jtag := rfl
@[simp] theorem State.onSeq_freeCtr : (s.onSeq f).freeCtr = s.freeCtr := rfl
@[simp] theorem State.onSeq_pending : (s.onSeq f).pending = s.pending := rfl
end

section
variable (f : Links → Links)
@[simp] theorem State.onLinks_clk : (s.onLinks f).clk = s.clk := rfl
@[simp] theorem State.onLinks_loops : (s.onLinks f).loops = s.loops := rfl
@[simp] theorem State.onLinks_glb : (s.onLinks f).glb = s.glb := rfl
@[simp] theorem State.onLinks_cur : (s.onLinks f).cur = s.cur := rfl
@[simp] theorem State.onLinks_prev : (s.onLinks f).prev = s.prev := rfl
@[simp] theorem State.onLinks_shadow : (s.onLinks f).shadow = s.shadow := rfl
@[simp] theorem State.onLinks_tables : (s.onLinks f).tables = s.tables := rfl
@[simp] theorem State.onLinks_xlt : (s.onLinks f).xlt = s.xlt := rfl
@[simp] theorem State.onLinks_cch : (s.onLinks f).cch = s.cch := rfl
@[simp] theorem State.onLinks_cache : (s.onLinks f).cache = s.cache := rfl
@[simp] theorem State.onLinks_buf : (s.onLinks f).buf = s.buf := rfl
@[simp] theorem State.onLinks_atu : (s.onLinks f).atu = s.atu := rfl
@[simp] theorem State.onLinks_seq : (s.onLinks f).seq = s.seq := rfl
@[simp] theorem State.onLinks_links : (s.onLinks f).links = f s.links := rfl
@[simp] theorem State.onLinks_bwr : (s.onLinks f).bwr = s.bwr := rfl
@[simp] theorem State.onLinks_integ : (s.onLinks f).integ = s.integ := rfl
@[simp] theorem State.onLinks_log : (s.onLinks f).log = s.log := rfl
@[simp] theorem State.onLinks_tst : (s.onLinks f).tst = s.tst := rfl
@[simp] theorem State.onLinks_rep : (s.onLinks f).rep = s.rep := rfl
@[simp] theorem State.onLinks_pwr : (s.onLinks f).pwr = s.pwr := rfl
@[simp] theorem State.onLinks_sense : (s.onLinks f).sense = s.sense := rfl
@[simp] theorem State.onLinks_boot : (s.onLinks f).boot = s.boot := rfl
@[simp] theorem State.onLinks_uart : (s.onLinks f).uart = s.uart := rfl
@[simp] theorem State.onLinks_mgt : (s.onLinks f).mgt = s.mgt := rfl
@[simp] theorem State.onLinks_mbox : (s.onLinks f).mbox = s.mbox := rfl
@[simp] theorem State.onLinks_cnt : (s.onLinks f).cnt = s.cnt := rfl
@[simp] theorem State.onLinks_jtag : (s.onLinks f).jtag = s.jtag := rfl
@[simp] theorem State.onLinks_freeCtr : (s.onLinks f).freeCtr = s.freeCtr := rfl
@[simp] theorem State.onLinks_pending : (s.onLinks f).pending = s.pending := rfl
end

section
variable (f : Bwr → Bwr)
@[simp] theorem State.onBwr_clk : (s.onBwr f).clk = s.clk := rfl
@[simp] theorem State.onBwr_loops : (s.onBwr f).loops = s.loops := rfl
@[simp] theorem State.onBwr_glb : (s.onBwr f).glb = s.glb := rfl
@[simp] theorem State.onBwr_cur : (s.onBwr f).cur = s.cur := rfl
@[simp] theorem State.onBwr_prev : (s.onBwr f).prev = s.prev := rfl
@[simp] theorem State.onBwr_shadow : (s.onBwr f).shadow = s.shadow := rfl
@[simp] theorem State.onBwr_tables : (s.onBwr f).tables = s.tables := rfl
@[simp] theorem State.onBwr_xlt : (s.onBwr f).xlt = s.xlt := rfl
@[simp] theorem State.onBwr_cch : (s.onBwr f).cch = s.cch := rfl
@[simp] theorem State.onBwr_cache : (s.onBwr f).cache = s.cache := rfl
@[simp] theorem State.onBwr_buf : (s.onBwr f).buf = s.buf := rfl
@[simp] theorem State.onBwr_atu : (s.onBwr f).atu = s.atu := rfl
@[simp] theorem State.onBwr_seq : (s.onBwr f).seq = s.seq := rfl
@[simp] theorem State.onBwr_links : (s.onBwr f).links = s.links := rfl
@[simp] theorem State.onBwr_bwr : (s.onBwr f).bwr = f s.bwr := rfl
@[simp] theorem State.onBwr_integ : (s.onBwr f).integ = s.integ := rfl
@[simp] theorem State.onBwr_log : (s.onBwr f).log = s.log := rfl
@[simp] theorem State.onBwr_tst : (s.onBwr f).tst = s.tst := rfl
@[simp] theorem State.onBwr_rep : (s.onBwr f).rep = s.rep := rfl
@[simp] theorem State.onBwr_pwr : (s.onBwr f).pwr = s.pwr := rfl
@[simp] theorem State.onBwr_sense : (s.onBwr f).sense = s.sense := rfl
@[simp] theorem State.onBwr_boot : (s.onBwr f).boot = s.boot := rfl
@[simp] theorem State.onBwr_uart : (s.onBwr f).uart = s.uart := rfl
@[simp] theorem State.onBwr_mgt : (s.onBwr f).mgt = s.mgt := rfl
@[simp] theorem State.onBwr_mbox : (s.onBwr f).mbox = s.mbox := rfl
@[simp] theorem State.onBwr_cnt : (s.onBwr f).cnt = s.cnt := rfl
@[simp] theorem State.onBwr_jtag : (s.onBwr f).jtag = s.jtag := rfl
@[simp] theorem State.onBwr_freeCtr : (s.onBwr f).freeCtr = s.freeCtr := rfl
@[simp] theorem State.onBwr_pending : (s.onBwr f).pending = s.pending := rfl
end

section
variable (f : Integ → Integ)
@[simp] theorem State.onInteg_clk : (s.onInteg f).clk = s.clk := rfl
@[simp] theorem State.onInteg_loops : (s.onInteg f).loops = s.loops := rfl
@[simp] theorem State.onInteg_glb : (s.onInteg f).glb = s.glb := rfl
@[simp] theorem State.onInteg_cur : (s.onInteg f).cur = s.cur := rfl
@[simp] theorem State.onInteg_prev : (s.onInteg f).prev = s.prev := rfl
@[simp] theorem State.onInteg_shadow : (s.onInteg f).shadow = s.shadow := rfl
@[simp] theorem State.onInteg_tables : (s.onInteg f).tables = s.tables := rfl
@[simp] theorem State.onInteg_xlt : (s.onInteg f).xlt = s.xlt := rfl
@[simp] theorem State.onInteg_cch : (s.onInteg f).cch = s.cch := rfl
@[simp] theorem State.onInteg_cache : (s.onInteg f).cache = s.cache := rfl
@[simp] theorem State.onInteg_buf : (s.onInteg f).buf = s.buf := rfl
@[simp] theorem State.onInteg_atu : (s.onInteg f).atu = s.atu := rfl
@[simp] theorem State.onInteg_seq : (s.onInteg f).seq = s.seq := rfl
@[simp] theorem State.onInteg_links : (s.onInteg f).links = s.links := rfl
@[simp] theorem State.onInteg_bwr : (s.onInteg f).bwr = s.bwr := rfl
@[simp] theorem State.onInteg_integ : (s.onInteg f).integ = f s.integ := rfl
@[simp] theorem State.onInteg_log : (s.onInteg f).log = s.log := rfl
@[simp] theorem State.onInteg_tst : (s.onInteg f).tst = s.tst := rfl
@[simp] theorem State.onInteg_rep : (s.onInteg f).rep = s.rep := rfl
@[simp] theorem State.onInteg_pwr : (s.onInteg f).pwr = s.pwr := rfl
@[simp] theorem State.onInteg_sense : (s.onInteg f).sense = s.sense := rfl
@[simp] theorem State.onInteg_boot : (s.onInteg f).boot = s.boot := rfl
@[simp] theorem State.onInteg_uart : (s.onInteg f).uart = s.uart := rfl
@[simp] theorem State.onInteg_mgt : (s.onInteg f).mgt = s.mgt := rfl
@[simp] theorem State.onInteg_mbox : (s.onInteg f).mbox = s.mbox := rfl
@[simp] theorem State.onInteg_cnt : (s.onInteg f).cnt = s.cnt := rfl
@[simp] theorem State.onInteg_jtag : (s.onInteg f).jtag = s.jtag := rfl
@[simp] theorem State.onInteg_freeCtr : (s.onInteg f).freeCtr = s.freeCtr := rfl
@[simp] theorem State.onInteg_pending : (s.onInteg f).pending = s.pending := rfl
end

section
variable (f : ErrLog → ErrLog)
@[simp] theorem State.onLog_clk : (s.onLog f).clk = s.clk := rfl
@[simp] theorem State.onLog_loops : (s.onLog f).loops = s.loops := rfl
@[simp] theorem State.onLog_glb : (s.onLog f).glb = s.glb := rfl
@[simp] theorem State.onLog_cur : (s.onLog f).cur = s.cur := rfl
@[simp] theorem State.onLog_prev : (s.onLog f).prev = s.prev := rfl
@[simp] theorem State.onLog_shadow : (s.onLog f).shadow = s.shadow := rfl
@[simp] theorem State.onLog_tables : (s.onLog f).tables = s.tables := rfl
@[simp] theorem State.onLog_xlt : (s.onLog f).xlt = s.xlt := rfl
@[simp] theorem State.onLog_cch : (s.onLog f).cch = s.cch := rfl
@[simp] theorem State.onLog_cache : (s.onLog f).cache = s.cache := rfl
@[simp] theorem State.onLog_buf : (s.onLog f).buf = s.buf := rfl
@[simp] theorem State.onLog_atu : (s.onLog f).atu = s.atu := rfl
@[simp] theorem State.onLog_seq : (s.onLog f).seq = s.seq := rfl
@[simp] theorem State.onLog_links : (s.onLog f).links = s.links := rfl
@[simp] theorem State.onLog_bwr : (s.onLog f).bwr = s.bwr := rfl
@[simp] theorem State.onLog_integ : (s.onLog f).integ = s.integ := rfl
@[simp] theorem State.onLog_log : (s.onLog f).log = f s.log := rfl
@[simp] theorem State.onLog_tst : (s.onLog f).tst = s.tst := rfl
@[simp] theorem State.onLog_rep : (s.onLog f).rep = s.rep := rfl
@[simp] theorem State.onLog_pwr : (s.onLog f).pwr = s.pwr := rfl
@[simp] theorem State.onLog_sense : (s.onLog f).sense = s.sense := rfl
@[simp] theorem State.onLog_boot : (s.onLog f).boot = s.boot := rfl
@[simp] theorem State.onLog_uart : (s.onLog f).uart = s.uart := rfl
@[simp] theorem State.onLog_mgt : (s.onLog f).mgt = s.mgt := rfl
@[simp] theorem State.onLog_mbox : (s.onLog f).mbox = s.mbox := rfl
@[simp] theorem State.onLog_cnt : (s.onLog f).cnt = s.cnt := rfl
@[simp] theorem State.onLog_jtag : (s.onLog f).jtag = s.jtag := rfl
@[simp] theorem State.onLog_freeCtr : (s.onLog f).freeCtr = s.freeCtr := rfl
@[simp] theorem State.onLog_pending : (s.onLog f).pending = s.pending := rfl
end

section
variable (f : Tst → Tst)
@[simp] theorem State.onTst_clk : (s.onTst f).clk = s.clk := rfl
@[simp] theorem State.onTst_loops : (s.onTst f).loops = s.loops := rfl
@[simp] theorem State.onTst_glb : (s.onTst f).glb = s.glb := rfl
@[simp] theorem State.onTst_cur : (s.onTst f).cur = s.cur := rfl
@[simp] theorem State.onTst_prev : (s.onTst f).prev = s.prev := rfl
@[simp] theorem State.onTst_shadow : (s.onTst f).shadow = s.shadow := rfl
@[simp] theorem State.onTst_tables : (s.onTst f).tables = s.tables := rfl
@[simp] theorem State.onTst_xlt : (s.onTst f).xlt = s.xlt := rfl
@[simp] theorem State.onTst_cch : (s.onTst f).cch = s.cch := rfl
@[simp] theorem State.onTst_cache : (s.onTst f).cache = s.cache := rfl
@[simp] theorem State.onTst_buf : (s.onTst f).buf = s.buf := rfl
@[simp] theorem State.onTst_atu : (s.onTst f).atu = s.atu := rfl
@[simp] theorem State.onTst_seq : (s.onTst f).seq = s.seq := rfl
@[simp] theorem State.onTst_links : (s.onTst f).links = s.links := rfl
@[simp] theorem State.onTst_bwr : (s.onTst f).bwr = s.bwr := rfl
@[simp] theorem State.onTst_integ : (s.onTst f).integ = s.integ := rfl
@[simp] theorem State.onTst_log : (s.onTst f).log = s.log := rfl
@[simp] theorem State.onTst_tst : (s.onTst f).tst = f s.tst := rfl
@[simp] theorem State.onTst_rep : (s.onTst f).rep = s.rep := rfl
@[simp] theorem State.onTst_pwr : (s.onTst f).pwr = s.pwr := rfl
@[simp] theorem State.onTst_sense : (s.onTst f).sense = s.sense := rfl
@[simp] theorem State.onTst_boot : (s.onTst f).boot = s.boot := rfl
@[simp] theorem State.onTst_uart : (s.onTst f).uart = s.uart := rfl
@[simp] theorem State.onTst_mgt : (s.onTst f).mgt = s.mgt := rfl
@[simp] theorem State.onTst_mbox : (s.onTst f).mbox = s.mbox := rfl
@[simp] theorem State.onTst_cnt : (s.onTst f).cnt = s.cnt := rfl
@[simp] theorem State.onTst_jtag : (s.onTst f).jtag = s.jtag := rfl
@[simp] theorem State.onTst_freeCtr : (s.onTst f).freeCtr = s.freeCtr := rfl
@[simp] theorem State.onTst_pending : (s.onTst f).pending = s.pending := rfl
end

section
variable (f : Repairs → Repairs)
@[simp] theorem State.onRep_clk : (s.onRep f).clk = s.clk := rfl
@[simp] theorem State.onRep_loops : (s.onRep f).loops = s.loops := rfl
@[simp] theorem State.onRep_glb : (s.onRep f).glb = s.glb := rfl
@[simp] theorem State.onRep_cur : (s.onRep f).cur = s.cur := rfl
@[simp] theorem State.onRep_prev : (s.onRep f).prev = s.prev := rfl
@[simp] theorem State.onRep_shadow : (s.onRep f).shadow = s.shadow := rfl
@[simp] theorem State.onRep_tables : (s.onRep f).tables = s.tables := rfl
@[simp] theorem State.onRep_xlt : (s.onRep f).xlt = s.xlt := rfl
@[simp] theorem State.onRep_cch : (s.onRep f).cch = s.cch := rfl
@[simp] theorem State.onRep_cache : (s.onRep f).cache = s.cache := rfl
@[simp] theorem State.onRep_buf : (s.onRep f).buf = s.buf := rfl
@[simp] theorem State.onRep_atu : (s.onRep f).atu = s.atu := rfl
@[simp] theorem State.onRep_seq : (s.onRep f).seq = s.seq := rfl
@[simp] theorem State.onRep_links : (s.onRep f).links = s.links := rfl
@[simp] theorem State.onRep_bwr : (s.onRep f).bwr = s.bwr := rfl
@[simp] theorem State.onRep_integ : (s.onRep f).integ = s.integ := rfl
@[simp] theorem State.onRep_log : (s.onRep f).log = s.log := rfl
@[simp] theorem State.onRep_tst : (s.onRep f).tst = s.tst := rfl
@[simp] theorem State.onRep_rep : (s.onRep f).rep = f s.rep := rfl
@[simp] theorem State.onRep_pwr : (s.onRep f).pwr = s.pwr := rfl
@[simp] theorem State.onRep_sense : (s.onRep f).sense = s.sense := rfl
@[simp] theorem State.onRep_boot : (s.onRep f).boot = s.boot := rfl
@[simp] theorem State.onRep_uart : (s.onRep f).uart = s.uart := rfl
@[simp] theorem State.onRep_mgt : (s.onRep f).mgt = s.mgt := rfl
@[simp] theorem State.onRep_mbox : (s.onRep f).mbox = s.mbox := rfl
@[simp] theorem State.onRep_cnt : (s.onRep f).cnt = s.cnt := rfl
@[simp] theorem State.onRep_jtag : (s.onRep f).jtag = s.jtag := rfl
@[simp] theorem State.onRep_freeCtr : (s.onRep f).freeCtr = s.freeCtr := rfl
@[simp] theorem State.onRep_pending : (s.onRep f).pending = s.pending := rfl
end

section
variable (f : Pwr → Pwr)
@[simp] theorem State.onPwr_clk : (s.onPwr f).clk = s.clk := rfl
@[simp] theorem State.onPwr_loops : (s.onPwr f).loops = s.loops := rfl
@[simp] theorem State.onPwr_glb : (s.onPwr f).glb = s.glb := rfl
@[simp] theorem State.onPwr_cur : (s.onPwr f).cur = s.cur := rfl
@[simp] theorem State.onPwr_prev : (s.onPwr f).prev = s.prev := rfl
@[simp] theorem State.onPwr_shadow : (s.onPwr f).shadow = s.shadow := rfl
@[simp] theorem State.onPwr_tables : (s.onPwr f).tables = s.tables := rfl
@[simp] theorem State.onPwr_xlt : (s.onPwr f).xlt = s.xlt := rfl
@[simp] theorem State.onPwr_cch : (s.onPwr f).cch = s.cch := rfl
@[simp] theorem State.onPwr_cache : (s.onPwr f).cache = s.cache := rfl
@[simp] theorem State.onPwr_buf : (s.onPwr f).buf = s.buf := rfl
@[simp] theorem State.onPwr_atu : (s.onPwr f).atu = s.atu := rfl
@[simp] theorem State.onPwr_seq : (s.onPwr f).seq = s.seq := rfl
@[simp] theorem State.onPwr_links : (s.onPwr f).links = s.links := rfl
@[simp] theorem State.onPwr_bwr : (s.onPwr f).bwr = s.bwr := rfl
@[simp] theorem State.onPwr_integ : (s.onPwr f).integ = s.integ := rfl
@[simp] theorem State.onPwr_log : (s.onPwr f).log = s.log := rfl
@[simp] theorem State.onPwr_tst : (s.onPwr f).tst = s.tst := rfl
@[simp] theorem State.onPwr_rep : (s.onPwr f).rep = s.rep := rfl
@[simp] theorem State.onPwr_pwr : (s.onPwr f).pwr = f s.pwr := rfl
@[simp] theorem State.onPwr_sense : (s.onPwr f).sense = s.sense := rfl
@[simp] theorem State.onPwr_boot : (s.onPwr f).boot = s.boot := rfl
@[simp] theorem State.onPwr_uart : (s.onPwr f).uart = s.uart := rfl
@[simp] theorem State.onPwr_mgt : (s.onPwr f).mgt = s.mgt := rfl
@[simp] theorem State.onPwr_mbox : (s.onPwr f).mbox = s.mbox := rfl
@[simp] theorem State.onPwr_cnt : (s.onPwr f).cnt = s.cnt := rfl
@[simp] theorem State.onPwr_jtag : (s.onPwr f).jtag = s.jtag := rfl
@[simp] theorem State.onPwr_freeCtr : (s.onPwr f).freeCtr = s.freeCtr := rfl
@[simp] theorem State.onPwr_pending : (s.onPwr f).pending = s.pending := rfl
end

section
variable (f : Sense → Sense)
@[simp] theorem State.onSense_clk : (s.onSense f).clk = s.clk := rfl
@[simp] theorem State.onSense_loops : (s.onSense f).loops = s.loops := rfl
@[simp] theorem State.onSense_glb : (s.onSense f).glb = s.glb := rfl
@[simp] theorem State.onSense_cur : (s.onSense f).cur = s.cur := rfl
@[simp] theorem State.onSense_prev : (s.onSense f).prev = s.prev := rfl
@[simp] theorem State.onSense_shadow : (s.onSense f).shadow = s.shadow := rfl
@[simp] theorem State.onSense_tables : (s.onSense f).tables = s.tables := rfl
@[simp] theorem State.onSense_xlt : (s.onSense f).xlt = s.xlt := rfl
@[simp] theorem State.onSense_cch : (s.onSense f).cch = s.cch := rfl
@[simp] theorem State.onSense_cache : (s.onSense f).cache = s.cache := rfl
@[simp] theorem State.onSense_buf : (s.onSense f).buf = s.buf := rfl
@[simp] theorem State.onSense_atu : (s.onSense f).atu = s.atu := rfl
@[simp] theorem State.onSense_seq : (s.onSense f).seq = s.seq := rfl
@[simp] theorem State.onSense_links : (s.onSense f).links = s.links := rfl
@[simp] theorem State.onSense_bwr : (s.onSense f).bwr = s.bwr := rfl
@[simp] theorem State.onSense_integ : (s.onSense f).integ = s.integ := rfl
@[simp] theorem State.onSense_log : (s.onSense f).log = s.log := rfl
@[simp] theorem State.onSense_tst : (s.onSense f).tst = s.tst := rfl
@[simp] theorem State.onSense_rep : (s.onSense f).rep = s.rep := rfl
@[simp] theorem State.onSense_pwr : (s.onSense f).pwr = s.pwr := rfl
@[simp] theorem State.onSense_sense : (s.onSense f).sense = f s.sense := rfl
@[simp] theorem State.onSense_boot : (s.onSense f).boot = s.boot := rfl
@[simp] theorem State.onSense_uart : (s.onSense f).uart = s.uart := rfl
@[simp] theorem State.onSense_mgt : (s.onSense f).mgt = s.mgt := rfl
@[simp] theorem State.onSense_mbox : (s.onSense f).mbox = s.mbox := rfl
@[simp] theorem State.onSense_cnt : (s.onSense f).cnt = s.cnt := rfl
@[simp] theorem State.onSense_jtag : (s.onSense f).jtag = s.jtag := rfl
@[simp] theorem State.onSense_freeCtr : (s.onSense f).freeCtr = s.freeCtr := rfl
@[simp] theorem State.onSense_pending : (s.onSense f).pending = s.pending := rfl
end

section
variable (f : Boot → Boot)
@[simp] theorem State.onBoot_clk : (s.onBoot f).clk = s.clk := rfl
@[simp] theorem State.onBoot_loops : (s.onBoot f).loops = s.loops := rfl
@[simp] theorem State.onBoot_glb : (s.onBoot f).glb = s.glb := rfl
@[simp] theorem State.onBoot_cur : (s.onBoot f).cur = s.cur := rfl
@[simp] theorem State.onBoot_prev : (s.onBoot f).prev = s.prev := rfl
@[simp] theorem State.onBoot_shadow : (s.onBoot f).shadow = s.shadow := rfl
@[simp] theorem State.onBoot_tables : (s.onBoot f).tables = s.tables := rfl
@[simp] theorem State.onBoot_xlt : (s.onBoot f).xlt = s.xlt := rfl
@[simp] theorem State.onBoot_cch : (s.onBoot f).cch = s.cch := rfl
@[simp] theorem State.onBoot_cache : (s.onBoot f).cache = s.cache := rfl
@[simp] theorem State.onBoot_buf : (s.onBoot f).buf = s.buf := rfl
@[simp] theorem State.onBoot_atu : (s.onBoot f).atu = s.atu := rfl
@[simp] theorem State.onBoot_seq : (s.onBoot f).seq = s.seq := rfl
@[simp] theorem State.onBoot_links : (s.onBoot f).links = s.links := rfl
@[simp] theorem State.onBoot_bwr : (s.onBoot f).bwr = s.bwr := rfl
@[simp] theorem State.onBoot_integ : (s.onBoot f).integ = s.integ := rfl
@[simp] theorem State.onBoot_log : (s.onBoot f).log = s.log := rfl
@[simp] theorem State.onBoot_tst : (s.onBoot f).tst = s.tst := rfl
@[simp] theorem State.onBoot_rep : (s.onBoot f).rep = s.rep := rfl
@[simp] theorem State.onBoot_pwr : (s.onBoot f).pwr = s.pwr := rfl
@[simp] theorem State.onBoot_sense : (s.onBoot f).sense = s.sense := rfl
@[simp] theorem State.onBoot_boot : (s.onBoot f).boot = f s.boot := rfl
@[simp] theorem State.onBoot_uart : (s.onBoot f).uart = s.uart := rfl
@[simp] theorem State.onBoot_mgt : (s.onBoot f).mgt = s.mgt := rfl
@[simp] theorem State.onBoot_mbox : (s.onBoot f).mbox = s.mbox := rfl
@[simp] theorem State.onBoot_cnt : (s.onBoot f).cnt = s.cnt := rfl
@[simp] theorem State.onBoot_jtag : (s.onBoot f).jtag = s.jtag := rfl
@[simp] theorem State.onBoot_freeCtr : (s.onBoot f).freeCtr = s.freeCtr := rfl
@[simp] theorem State.onBoot_pending : (s.onBoot f).pending = s.pending := rfl
end

section
variable (f : Uart → Uart)
@[simp] theorem State.onUart_clk : (s.onUart f).clk = s.clk := rfl
@[simp] theorem State.onUart_loops : (s.onUart f).loops = s.loops := rfl
@[simp] theorem State.onUart_glb : (s.onUart f).glb = s.glb := rfl
@[simp] theorem State.onUart_cur : (s.onUart f).cur = s.cur := rfl
@[simp] theorem State.onUart_prev : (s.onUart f).prev = s.prev := rfl
@[simp] theorem State.onUart_shadow : (s.onUart f).shadow = s.shadow := rfl
@[simp] theorem State.onUart_tables : (s.onUart f).tables = s.tables := rfl
@[simp] theorem State.onUart_xlt : (s.onUart f).xlt = s.xlt := rfl
@[simp] theorem State.onUart_cch : (s.onUart f).cch = s.cch := rfl
@[simp] theorem State.onUart_cache : (s.onUart f).cache = s.cache := rfl
@[simp] theorem State.onUart_buf : (s.onUart f).buf = s.buf := rfl
@[simp] theorem State.onUart_atu : (s.onUart f).atu = s.atu := rfl
@[simp] theorem State.onUart_seq : (s.onUart f).seq = s.seq := rfl
@[simp] theorem State.onUart_links : (s.onUart f).links = s.links := rfl
@[simp] theorem State.onUart_bwr : (s.onUart f).bwr = s.bwr := rfl
@[simp] theorem State.onUart_integ : (s.onUart f).integ = s.integ := rfl
@[simp] theorem State.onUart_log : (s.onUart f).log = s.log := rfl
@[simp] theorem State.onUart_tst : (s.onUart f).tst = s.tst := rfl
@[simp] theorem State.onUart_rep : (s.onUart f).rep = s.rep := rfl
@[simp] theorem State.onUart_pwr : (s.onUart f).pwr = s.pwr := rfl
@[simp] theorem State.onUart_sense : (s.onUart f).sense = s.sense := rfl
@[simp] theorem State.onUart_boot : (s.onUart f).boot = s.boot := rfl
@[simp] theorem State.onUart_uart : (s.onUart f).uart = f s.uart := rfl
@[simp] theorem State.onUart_mgt : (s.onUart f).mgt = s.mgt := rfl
@[simp] theorem State.onUart_mbox : (s.onUart f).mbox = s.mbox := rfl
@[simp] theorem State.onUart_cnt : (s.onUart f).cnt = s.cnt := rfl
@[simp] theorem State.onUart_jtag : (s.onUart f).jtag = s.jtag := rfl
@[simp] theorem State.onUart_freeCtr : (s.onUart f).freeCtr = s.freeCtr := rfl
@[simp] theorem State.onUart_pending : (s.onUart f).pending = s.pending := rfl
end

section
variable (f : Mgt → Mgt)
@[simp] theorem State.onMgt_clk : (s.onMgt f).clk = s.clk := rfl
@[simp] theorem State.onMgt_loops : (s.onMgt f).loops = s.loops := rfl
@[simp] theorem State.onMgt_glb : (s.onMgt f).glb = s.glb := rfl
@[simp] theorem State.onMgt_cur : (s.onMgt f).cur = s.cur := rfl
@[simp] theorem State.onMgt_prev : (s.onMgt f).prev = s.prev := rfl
@[simp] theorem State.onMgt_shadow : (s.onMgt f).shadow = s.shadow := rfl
@[simp] theorem State.onMgt_tables : (s.onMgt f).tables = s.tables := rfl
@[simp] theorem State.onMgt_xlt : (s.onMgt f).xlt = s.xlt := rfl
@[simp] theorem State.onMgt_cch : (s.onMgt f).cch = s.cch := rfl
@[simp] theorem State.onMgt_cache : (s.onMgt f).cache = s.cache := rfl
@[simp] theorem State.onMgt_buf : (s.onMgt f).buf = s.buf := rfl
@[simp] theorem State.onMgt_atu : (s.onMgt f).atu = s.atu := rfl
@[simp] theorem State.onMgt_seq : (s.onMgt f).seq = s.seq := rfl
@[simp] theorem State.onMgt_links : (s.onMgt f).links = s.links := rfl
@[simp] theorem State.onMgt_bwr : (s.onMgt f).bwr = s.bwr := rfl
@[simp] theorem State.onMgt_integ : (s.onMgt f).integ = s.integ := rfl
@[simp] theorem State.onMgt_log : (s.onMgt f).log = s.log := rfl
@[simp] theorem State.onMgt_tst : (s.onMgt f).tst = s.tst := rfl
@[simp] theorem State.onMgt_rep : (s.onMgt f).rep = s.rep := rfl
@[simp] theorem State.onMgt_pwr : (s.onMgt f).pwr = s.pwr := rfl
@[simp] theorem State.onMgt_sense : (s.onMgt f).sense = s.sense := rfl
@[simp] theorem State.onMgt_boot : (s.onMgt f).boot = s.boot := rfl
@[simp] theorem State.onMgt_uart : (s.onMgt f).uart = s.uart := rfl
@[simp] theorem State.onMgt_mgt : (s.onMgt f).mgt = f s.mgt := rfl
@[simp] theorem State.onMgt_mbox : (s.onMgt f).mbox = s.mbox := rfl
@[simp] theorem State.onMgt_cnt : (s.onMgt f).cnt = s.cnt := rfl
@[simp] theorem State.onMgt_jtag : (s.onMgt f).jtag = s.jtag := rfl
@[simp] theorem State.onMgt_freeCtr : (s.onMgt f).freeCtr = s.freeCtr := rfl
@[simp] theorem State.onMgt_pending : (s.onMgt f).pending = s.pending := rfl
end

section
variable (f : Mbox → Mbox)
@[simp] theorem State.onMbox_clk : (s.onMbox f).clk = s.clk := rfl
@[simp] theorem State.onMbox_loops : (s.onMbox f).loops = s.loops := rfl
@[simp] theorem State.onMbox_glb : (s.onMbox f).glb = s.glb := rfl
@[simp] theorem State.onMbox_cur : (s.onMbox f).cur = s.cur := rfl
@[simp] theorem State.onMbox_prev : (s.onMbox f).prev = s.prev := rfl
@[simp] theorem State.onMbox_shadow : (s.onMbox f).shadow = s.shadow := rfl
@[simp] theorem State.onMbox_tables : (s.onMbox f).tables = s.tables := rfl
@[simp] theorem State.onMbox_xlt : (s.onMbox f).xlt = s.xlt := rfl
@[simp] theorem State.onMbox_cch : (s.onMbox f).cch = s.cch := rfl
@[simp] theorem State.onMbox_cache : (s.onMbox f).cache = s.cache := rfl
@[simp] theorem State.onMbox_buf : (s.onMbox f).buf = s.buf := rfl
@[simp] theorem State.onMbox_atu : (s.onMbox f).atu = s.atu := rfl
@[simp] theorem State.onMbox_seq : (s.onMbox f).seq = s.seq := rfl
@[simp] theorem State.onMbox_links : (s.onMbox f).links = s.links := rfl
@[simp] theorem State.onMbox_bwr : (s.onMbox f).bwr = s.bwr := rfl
@[simp] theorem State.onMbox_integ : (s.onMbox f).integ = s.integ := rfl
@[simp] theorem State.onMbox_log : (s.onMbox f).log = s.log := rfl
@[simp] theorem State.onMbox_tst : (s.onMbox f).tst = s.tst := rfl
@[simp] theorem State.onMbox_rep : (s.onMbox f).rep = s.rep := rfl
@[simp] theorem State.onMbox_pwr : (s.onMbox f).pwr = s.pwr := rfl
@[simp] theorem State.onMbox_sense : (s.onMbox f).sense = s.sense := rfl
@[simp] theorem State.onMbox_boot : (s.onMbox f).boot = s.boot := rfl
@[simp] theorem State.onMbox_uart : (s.onMbox f).uart = s.uart := rfl
@[simp] theorem State.onMbox_mgt : (s.onMbox f).mgt = s.mgt := rfl
@[simp] theorem State.onMbox_mbox : (s.onMbox f).mbox = f s.mbox := rfl
@[simp] theorem State.onMbox_cnt : (s.onMbox f).cnt = s.cnt := rfl
@[simp] theorem State.onMbox_jtag : (s.onMbox f).jtag = s.jtag := rfl
@[simp] theorem State.onMbox_freeCtr : (s.onMbox f).freeCtr = s.freeCtr := rfl
@[simp] theorem State.onMbox_pending : (s.onMbox f).pending = s.pending := rfl
end

section
variable (f : Cnt → Cnt)
@[simp] theorem State.onCnt_clk : (s.onCnt f).clk = s.clk := rfl
@[simp] theorem State.onCnt_loops : (s.onCnt f).loops = s.loops := rfl
@[simp] theorem State.onCnt_glb : (s.onCnt f).glb = s.glb := rfl
@[simp] theorem State.onCnt_cur : (s.onCnt f).cur = s.cur := rfl
@[simp] theorem State.onCnt_prev : (s.onCnt f).prev = s.prev := rfl
@[simp] theorem State.onCnt_shadow : (s.onCnt f).shadow = s.shadow := rfl
@[simp] theorem State.onCnt_tables : (s.onCnt f).tables = s.tables := rfl
@[simp] theorem State.onCnt_xlt : (s.onCnt f).xlt = s.xlt := rfl
@[simp] theorem State.onCnt_cch : (s.onCnt f).cch = s.cch := rfl
@[simp] theorem State.onCnt_cache : (s.onCnt f).cache = s.cache := rfl
@[simp] theorem State.onCnt_buf : (s.onCnt f).buf = s.buf := rfl
@[simp] theorem State.onCnt_atu : (s.onCnt f).atu = s.atu := rfl
@[simp] theorem State.onCnt_seq : (s.onCnt f).seq = s.seq := rfl
@[simp] theorem State.onCnt_links : (s.onCnt f).links = s.links := rfl
@[simp] theorem State.onCnt_bwr : (s.onCnt f).bwr = s.bwr := rfl
@[simp] theorem State.onCnt_integ : (s.onCnt f).integ = s.integ := rfl
@[simp] theorem State.onCnt_log : (s.onCnt f).log = s.log := rfl
@[simp] theorem State.onCnt_tst : (s.onCnt f).tst = s.tst := rfl
@[simp] theorem State.onCnt_rep : (s.onCnt f).rep = s.rep := rfl
@[simp] theorem State.onCnt_pwr : (s.onCnt f).pwr = s.pwr := rfl
@[simp] theorem State.onCnt_sense : (s.onCnt f).sense = s.sense := rfl
@[simp] theorem State.onCnt_boot : (s.onCnt f).boot = s.boot := rfl
@[simp] theorem State.onCnt_uart : (s.onCnt f).uart = s.uart := rfl
@[simp] theorem State.onCnt_mgt : (s.onCnt f).mgt = s.mgt := rfl
@[simp] theorem State.onCnt_mbox : (s.onCnt f).mbox = s.mbox := rfl
@[simp] theorem State.onCnt_cnt : (s.onCnt f).cnt = f s.cnt := rfl
@[simp] theorem State.onCnt_jtag : (s.onCnt f).jtag = s.jtag := rfl
@[simp] theorem State.onCnt_freeCtr : (s.onCnt f).freeCtr = s.freeCtr := rfl
@[simp] theorem State.onCnt_pending : (s.onCnt f).pending = s.pending := rfl
end

end Sys2Proof.Machine
end

