-- ==== Sys2Proof/Laws/Tables.lean ====
section
/-! SUPPORT. Tables and byte memory: reading back what was set, leaving every other index alone, and keeping the canonical form. -/

namespace Sys2Proof.Machine

variable {α : Type}

/-! ## Reading a table -/

/-- What is read is the default or is listed. -/
theorem tget_listed (d : α) (t : Tab α) (n : Nat) : tget d t n = d ∨ (n, tget d t n) ∈ t := by
  fun_induction tget d t n <;> simp_all
  tauto

theorem tget_tdel_self (d : α) (t : Tab α) (n : Nat) : tget d (tdel t n) n = d := by
  fun_induction tdel t n <;> simp_all [tget]

theorem tget_tdel_ne (d : α) (t : Tab α) {m n : Nat} (h : m ≠ n) : tget d (tdel t n) m = tget d t m := by
  fun_induction tdel t n <;> simp_all [tget, Ne.symm h]

theorem tget_tins_self (d : α) (t : Tab α) (n : Nat) (v : α) (h : ∀ e ∈ t, e.1 ≠ n) : tget d (tins t n v) n = v := by
  fun_induction tins t n v <;> simp_all [tget]

theorem tget_tins_ne (d : α) (t : Tab α) {m n : Nat} (v : α) (h : m ≠ n) : tget d (tins t n v) m = tget d t m := by
  fun_induction tins t n v <;> simp_all [tget, Ne.symm h]

/-- What is left after a removal was listed, at another index. -/
theorem mem_tdel (t : Tab α) (n : Nat) (e : Nat × α) : e ∈ tdel t n → e ∈ t ∧ e.1 ≠ n := by
  fun_induction tdel t n <;> grind

theorem tdel_ne (t : Tab α) (n : Nat) : ∀ e ∈ tdel t n, e.1 ≠ n := fun e he => (mem_tdel t n e he).2

variable [DecidableEq α]

/-- What was set is read back. -/
@[simp] theorem tget_tset_self (d : α) (t : Tab α) (n : Nat) (v : α) : tget d (tset d t n v) n = v := by
  unfold tset
  split
  · rw [tget_tdel_self, ‹v = d›]
  · exact tget_tins_self d _ n v (tdel_ne t n)

/-- Every other index is left alone. -/
theorem tget_tset_ne (d : α) (t : Tab α) {m n : Nat} (v : α) (h : m ≠ n) : tget d (tset d t n v) m = tget d t m := by
  simp only [tset, apply_ite (tget d · m), tget_tins_ne d _ v h, tget_tdel_ne d t h, ite_self]

theorem tget_tset (d : α) (t : Tab α) (m n : Nat) (v : α) : tget d (tset d t n v) m = if m = n then v else tget d t m := by
  by_cases h : m = n
  · simp [h]
  · simp [h, tget_tset_ne d t v h]

/-! ## The canonical form -/

theorem twfFrom_mono (d : α) (t : Tab α) {a b : Nat} (h : b ≤ a) (w : twfFrom d a t = true) : twfFrom d b t = true := by
  cases t <;> grind [twfFrom]

theorem twfFrom_tdel (d : α) (t : Tab α) (n : Nat) : ∀ a, twfFrom d a t = true → twfFrom d a (tdel t n) = true := by
  fun_induction tdel t n with
  | case1 => exact fun _ w => w
  | case2 v t n ih =>
    intro a w
    exact ih a (twfFrom_mono d t (a := n + 1) (by grind [twfFrom]) (by grind [twfFrom]))
  | case3 => grind [twfFrom]

theorem twfFrom_tins (d : α) (t : Tab α) (n : Nat) (v : α) (hv : v ≠ d) (hn : ∀ e ∈ t, e.1 ≠ n) :
    ∀ a, a ≤ n → twfFrom d a t = true → twfFrom d a (tins t n v) = true := by
  fun_induction tins t n v with
  | case1 => grind [twfFrom]
  | case2 => grind [twfFrom]
  | case3 k w =>
    have := hn (k, w) (by simp)
    grind [twfFrom]

/-- Setting an index keeps the canonical form. -/
theorem twf_tset (d : α) (t : Tab α) (n : Nat) (v : α) (h : twf d t = true) : twf d (tset d t n v) = true := by
  have hd := twfFrom_tdel d t n 0 h
  unfold tset
  split
  · exact hd
  · exact twfFrom_tins d _ n v ‹_› (tdel_ne t n) 0 n.zero_le hd

/-! ## Byte memory -/

@[simp] theorem memByte_memSet_self (m : List Host.Cell) (a : Nat) (v : Byte) : memByte (memSet m a v) a = v :=
  tget_tset_self 0 m a v

theorem memByte_memSet_ne (m : List Host.Cell) {a b : Nat} (v : Byte) (h : b ≠ a) : memByte (memSet m a v) b = memByte m b :=
  tget_tset_ne 0 m v h

/-- One byte's write keeps the canonical form. -/
theorem memSet_wf (m : List Host.Cell) (a : Nat) (v : Byte) (h : Memory.wf m = true) : Memory.wf (memSet m a v) = true :=
  twf_tset 0 m a v h

/-- A write of n bytes keeps the canonical form. -/
theorem memWrite_wf (n : Nat) : ∀ (m : List Host.Cell) (a v : Nat), Memory.wf m = true → Memory.wf (memWrite m a n v) = true := by
  induction n with
  | zero => intro m a v h; exact h
  | succ n ih => intro m a v h; exact ih _ _ _ (memSet_wf m a _ h)

/-- A write leaves every byte outside it alone. -/
theorem memByte_memWrite_outside (n : Nat) : ∀ (m : List Host.Cell) (a v b : Nat), b < a ∨ a + n ≤ b →
    memByte (memWrite m a n v) b = memByte m b := by
  induction n with
  | zero => intro m a v b _; rfl
  | succ n ih =>
    intro m a v b h
    rw [memWrite, ih _ _ _ _ (by omega), memByte_memSet_ne _ _ (by omega)]

/-- A write is read back. -/
theorem memRead_memWrite_self (n : Nat) : ∀ (m : List Host.Cell) (a v : Nat),
    memRead (memWrite m a n v) a n = v % 256 ^ n := by
  induction n with
  | zero => intro m a v; simp [memRead, Nat.mod_one]
  | succ n ih =>
    intro m a v
    rw [memWrite, memRead, memByte_memWrite_outside _ _ _ _ _ (by omega), ih, memByte_memSet_self, BitVec.toNat_ofNat,
      show 256 ^ (n + 1) = 256 * 256 ^ n from Nat.pow_succ', Nat.mod_mul]

/-- Bytes that agree read the same number. -/
theorem memRead_congr (n : Nat) : ∀ (m k : List Host.Cell) (a : Nat),
    (∀ i, i < n → memByte m (a + i) = memByte k (a + i)) → memRead m a n = memRead k a n := by
  induction n with
  | zero => intros; rfl
  | succ n ih =>
    intro m k a h
    rw [memRead, memRead, show memByte m a = memByte k a from by simpa using h 0 (by omega),
      ih m k (a + 1) fun i hi => by rw [show a + 1 + i = a + (i + 1) by omega]; exact h (i + 1) (by omega)]

/-- A read outside a write is unchanged. -/
theorem memRead_memWrite_outside (m : List Host.Cell) (a n v b k : Nat) (h : b + k ≤ a ∨ a + n ≤ b) :
    memRead (memWrite m a n v) b k = memRead m b k :=
  memRead_congr k _ _ b fun _ _ => memByte_memWrite_outside n m a v _ (by omega)

end Sys2Proof.Machine
end

