-- ==== Sys2Proof/Laws/Ops.lean ====
section
/-! SUPPORT. What the shared operations do, once for each: counting, the operations of test targets, threads, ports and frames. -/

namespace Sys2Proof.Machine

/-! ## Counters -/

/-- A fold whose steps all keep a part of the state keeps it. -/
theorem fold_keeps {α β : Type} (part : State → β) (f : State → α → State) (hf : ∀ t a, part (f t a) = part t) (l : List α) (s : State) :
    part (l.foldl f s) = part s := by
  induction l generalizing s <;> simp_all

theorem cntAdd_only (fuel n k : Nat) (s : State) : cntAdd fuel n k s = { s with cnt := (cntAdd fuel n k s).cnt } := by
  fun_induction cntAdd fuel n k s with
  | case3 => rw [‹cntAdd _ _ _ _ = _›]; rfl
  | _ => rfl

/-- Counting changes the counters and nothing else. -/
theorem cnt_only (ev : Nat) (h : Option Half) (p : Option Part) (k : Nat) (s : State) :
    cnt ev h p k s = { s with cnt := (cnt ev h p k s).cnt } :=
  congrArg (fun t : State => { t with cnt := (cnt ev h p k s).cnt }) <|
    fold_keeps (fun t => { t with cnt := s.cnt }) _ (fun t a => by
      split
      · rw [cntAdd_only]
      · rfl) s.cnt.sel s

section
variable (ev : Nat) (h : Option Half) (p : Option Part) (k : Nat) (s : State)
@[simp] theorem cnt_clk : (cnt ev h p k s).clk = s.clk := by rw [cnt_only]
@[simp] theorem cnt_loops : (cnt ev h p k s).loops = s.loops := by rw [cnt_only]
@[simp] theorem cnt_glb : (cnt ev h p k s).glb = s.glb := by rw [cnt_only]
@[simp] theorem cnt_cur : (cnt ev h p k s).cur = s.cur := by rw [cnt_only]
@[simp] theorem cnt_prev : (cnt ev h p k s).prev = s.prev := by rw [cnt_only]
@[simp] theorem cnt_shadow : (cnt ev h p k s).shadow = s.shadow := by rw [cnt_only]
@[simp] theorem cnt_tables : (cnt ev h p k s).tables = s.tables := by rw [cnt_only]
@[simp] theorem cnt_xlt : (cnt ev h p k s).xlt = s.xlt := by rw [cnt_only]
@[simp] theorem cnt_cch : (cnt ev h p k s).cch = s.cch := by rw [cnt_only]
@[simp] theorem cnt_cache : (cnt ev h p k s).cache = s.cache := by rw [cnt_only]
@[simp] theorem cnt_buf : (cnt ev h p k s).buf = s.buf := by rw [cnt_only]
@[simp] theorem cnt_atu : (cnt ev h p k s).atu = s.atu := by rw [cnt_only]
@[simp] theorem cnt_seq : (cnt ev h p k s).seq = s.seq := by rw [cnt_only]
@[simp] theorem cnt_links : (cnt ev h p k s).links = s.links := by rw [cnt_only]
@[simp] theorem cnt_bwr : (cnt ev h p k s).bwr = s.bwr := by rw [cnt_only]
@[simp] theorem cnt_integ : (cnt ev h p k s).integ = s.integ := by rw [cnt_only]
@[simp] theorem cnt_log : (cnt ev h p k s).log = s.log := by rw [cnt_only]
@[simp] theorem cnt_tst : (cnt ev h p k s).tst = s.tst := by rw [cnt_only]
@[simp] theorem cnt_rep : (cnt ev h p k s).rep = s.rep := by rw [cnt_only]
@[simp] theorem cnt_pwr : (cnt ev h p k s).pwr = s.pwr := by rw [cnt_only]
@[simp] theorem cnt_sense : (cnt ev h p k s).sense = s.sense := by rw [cnt_only]
@[simp] theorem cnt_boot : (cnt ev h p k s).boot = s.boot := by rw [cnt_only]
@[simp] theorem cnt_uart : (cnt ev h p k s).uart = s.uart := by rw [cnt_only]
@[simp] theorem cnt_mgt : (cnt ev h p k s).mgt = s.mgt := by rw [cnt_only]
@[simp] theorem cnt_mbox : (cnt ev h p k s).mbox = s.mbox := by rw [cnt_only]
@[simp] theorem cnt_jtag : (cnt ev h p k s).jtag = s.jtag := by rw [cnt_only]
@[simp] theorem cnt_freeCtr : (cnt ev h p k s).freeCtr = s.freeCtr := by rw [cnt_only]
@[simp] theorem cnt_pending : (cnt ev h p k s).pending = s.pending := by rw [cnt_only]
end

/-! ## Test targets -/

/-- Counting operations of targets changes the targets and nothing else. -/
theorem countOps_only (h : Half) (lo n k : Nat) (s : State) : countOps h lo n k s = { s with tst := (countOps h lo n k s).tst } :=
  congrArg (fun t : State => { t with tst := (countOps h lo n k s).tst }) <|
    fold_keeps (fun t => { t with tst := s.tst }) _ (fun t a => by dsimp only; split <;> rfl) (List.range n) s

section
variable (h : Half) (lo n k : Nat) (s : State)
@[simp] theorem countOps_clk : (countOps h lo n k s).clk = s.clk := by rw [countOps_only]
@[simp] theorem countOps_loops : (countOps h lo n k s).loops = s.loops := by rw [countOps_only]
@[simp] theorem countOps_glb : (countOps h lo n k s).glb = s.glb := by rw [countOps_only]
@[simp] theorem countOps_cur : (countOps h lo n k s).cur = s.cur := by rw [countOps_only]
@[simp] theorem countOps_prev : (countOps h lo n k s).prev = s.prev := by rw [countOps_only]
@[simp] theorem countOps_shadow : (countOps h lo n k s).shadow = s.shadow := by rw [countOps_only]
@[simp] theorem countOps_tables : (countOps h lo n k s).tables = s.tables := by rw [countOps_only]
@[simp] theorem countOps_xlt : (countOps h lo n k s).xlt = s.xlt := by rw [countOps_only]
@[simp] theorem countOps_cch : (countOps h lo n k s).cch = s.cch := by rw [countOps_only]
@[simp] theorem countOps_cache : (countOps h lo n k s).cache = s.cache := by rw [countOps_only]
@[simp] theorem countOps_buf : (countOps h lo n k s).buf = s.buf := by rw [countOps_only]
@[simp] theorem countOps_atu : (countOps h lo n k s).atu = s.atu := by rw [countOps_only]
@[simp] theorem countOps_seq : (countOps h lo n k s).seq = s.seq := by rw [countOps_only]
@[simp] theorem countOps_links : (countOps h lo n k s).links = s.links := by rw [countOps_only]
@[simp] theorem countOps_bwr : (countOps h lo n k s).bwr = s.bwr := by rw [countOps_only]
@[simp] theorem countOps_integ : (countOps h lo n k s).integ = s.integ := by rw [countOps_only]
@[simp] theorem countOps_log : (countOps h lo n k s).log = s.log := by rw [countOps_only]
@[simp] theorem countOps_rep : (countOps h lo n k s).rep = s.rep := by rw [countOps_only]
@[simp] theorem countOps_pwr : (countOps h lo n k s).pwr = s.pwr := by rw [countOps_only]
@[simp] theorem countOps_sense : (countOps h lo n k s).sense = s.sense := by rw [countOps_only]
@[simp] theorem countOps_boot : (countOps h lo n k s).boot = s.boot := by rw [countOps_only]
@[simp] theorem countOps_uart : (countOps h lo n k s).uart = s.uart := by rw [countOps_only]
@[simp] theorem countOps_mgt : (countOps h lo n k s).mgt = s.mgt := by rw [countOps_only]
@[simp] theorem countOps_mbox : (countOps h lo n k s).mbox = s.mbox := by rw [countOps_only]
@[simp] theorem countOps_cnt : (countOps h lo n k s).cnt = s.cnt := by rw [countOps_only]
@[simp] theorem countOps_jtag : (countOps h lo n k s).jtag = s.jtag := by rw [countOps_only]
@[simp] theorem countOps_freeCtr : (countOps h lo n k s).freeCtr = s.freeCtr := by rw [countOps_only]
@[simp] theorem countOps_pending : (countOps h lo n k s).pending = s.pending := by rw [countOps_only]
end

/-! ## Threads -/

@[simp] theorem thr_setThr_self (s : State) (t : Nat) (x : Thread) : thr (setThr s t x) t = x := by
  simp [thr, setThr]

theorem thr_setThr_ne (s : State) {t k : Nat} (x : Thread) (h : k ≠ t) : thr (setThr s t x) k = thr s k := by
  simp [thr, setThr, tget_tset_ne _ _ _ h]

@[simp] theorem thr_modThr_self (s : State) (t : Nat) (f : Thread → Thread) : thr (modThr s t f) t = f (thr s t) := by
  simp [modThr]

theorem thr_modThr_ne (s : State) {t k : Nat} (f : Thread → Thread) (h : k ≠ t) : thr (modThr s t f) k = thr s k := by
  simp [modThr, thr_setThr_ne, h]

section
variable (s : State) (t : Nat) (f : Thread → Thread)
@[simp] theorem modThr_clk : (modThr s t f).clk = s.clk := rfl
@[simp] theorem modThr_loops : (modThr s t f).loops = s.loops := rfl
@[simp] theorem modThr_glb : (modThr s t f).glb = s.glb := rfl
@[simp] theorem modThr_cur : (modThr s t f).cur = s.cur := rfl
@[simp] theorem modThr_prev : (modThr s t f).prev = s.prev := rfl
@[simp] theorem modThr_shadow : (modThr s t f).shadow = s.shadow := rfl
@[simp] theorem modThr_tables : (modThr s t f).tables = s.tables := rfl
@[simp] theorem modThr_xlt : (modThr s t f).xlt = s.xlt := rfl
@[simp] theorem modThr_cch : (modThr s t f).cch = s.cch := rfl
@[simp] theorem modThr_cache : (modThr s t f).cache = s.cache := rfl
@[simp] theorem modThr_buf : (modThr s t f).buf = s.buf := rfl
@[simp] theorem modThr_atu : (modThr s t f).atu = s.atu := rfl
@[simp] theorem modThr_links : (modThr s t f).links = s.links := rfl
@[simp] theorem modThr_bwr : (modThr s t f).bwr = s.bwr := rfl
@[simp] theorem modThr_integ : (modThr s t f).integ = s.integ := rfl
@[simp] theorem modThr_log : (modThr s t f).log = s.log := rfl
@[simp] theorem modThr_tst : (modThr s t f).tst = s.tst := rfl
@[simp] theorem modThr_rep : (modThr s t f).rep = s.rep := rfl
@[simp] theorem modThr_pwr : (modThr s t f).pwr = s.pwr := rfl
@[simp] theorem modThr_sense : (modThr s t f).sense = s.sense := rfl
@[simp] theorem modThr_boot : (modThr s t f).boot = s.boot := rfl
@[simp] theorem modThr_uart : (modThr s t f).uart = s.uart := rfl
@[simp] theorem modThr_mgt : (modThr s t f).mgt = s.mgt := rfl
@[simp] theorem modThr_mbox : (modThr s t f).mbox = s.mbox := rfl
@[simp] theorem modThr_cnt : (modThr s t f).cnt = s.cnt := rfl
@[simp] theorem modThr_jtag : (modThr s t f).jtag = s.jtag := rfl
@[simp] theorem modThr_freeCtr : (modThr s t f).freeCtr = s.freeCtr := rfl
@[simp] theorem modThr_pending : (modThr s t f).pending = s.pending := rfl
@[simp] theorem modThr_seq_tq : (modThr s t f).seq.tq = s.seq.tq := rfl
@[simp] theorem modThr_seq_sp : (modThr s t f).seq.sp = s.seq.sp := rfl
@[simp] theorem modThr_seq_resumeE : (modThr s t f).seq.resumeE = s.seq.resumeE := rfl
@[simp] theorem modThr_seq_resumeW : (modThr s t f).seq.resumeW = s.seq.resumeW := rfl
@[simp] theorem modThr_seq_rrE : (modThr s t f).seq.rrE = s.seq.rrE := rfl
@[simp] theorem modThr_seq_rrW : (modThr s t f).seq.rrW = s.seq.rrW := rfl
@[simp] theorem modThr_seq_ro : (modThr s t f).seq.ro = s.seq.ro := rfl
end

/-- A general register after a write; g0 keeps reading 0 (R216). -/
theorem gReg_setG (th : Thread) (d r : Nat) (v : BitVec 64) : gReg (th.setG d v) r = if r = d ∧ d ≠ 0 then v else gReg th r := by
  unfold gReg Thread.setG
  by_cases hd : d = 0
  · simp [hd]
  · by_cases hr : r = d
    · simp [hr, hd]
    · simp only [hd, if_false, hr, false_and]
      by_cases h0 : r = 0
      · simp [h0]
      · simp [h0, tget_tset_ne _ _ _ hr]

/-! ## Ports -/

@[simp] theorem port_setPort_self (s : State) (n : Nat) (p : Port) : port (setPort s n p) n = p := by simp [port, setPort]

theorem port_setPort_ne (s : State) {n k : Nat} (p : Port) (h : k ≠ n) : port (setPort s n p) k = port s k := by
  simp [port, setPort, tget_tset_ne _ _ _ h]

@[simp] theorem link_setLink_self (s : State) (n : Nat) (x : LinkSt) : link (setLink s n x) n = x := by simp [link, setLink]

theorem link_setLink_ne (s : State) {n k : Nat} (x : LinkSt) (h : k ≠ n) : link (setLink s n x) k = link s k := by
  simp [link, setLink, tget_tset_ne _ _ _ h]

@[simp] theorem port_setLink (s : State) (n k : Nat) (x : LinkSt) : port (setLink s n x) k = port s k := rfl
@[simp] theorem link_setPort (s : State) (n k : Nat) (p : Port) : link (setPort s n p) k = link s k := rfl

/-- On a live port a frame joins those that its sources hold, and the transmitter runs; the rest is a count. -/
theorem sendFrame_live (n : Nat) (f : Frame) (s : State) (h : portLive s n = true) :
    ∃ k, sendFrame n f s = { linkPump n (modLink s n fun x => { x with wait := x.wait ++ [f] }) with cnt := k } := by
  simp only [sendFrame, h, if_true]
  split
  · exact ⟨_, cnt_only _ _ _ _ _⟩
  · exact ⟨_, rfl⟩

/-- A port that is not live sends nothing (R298). -/
theorem sendFrame_dead (n : Nat) (f : Frame) (s : State) (h : portLive s n = false) : sendFrame n f s = s := by simp [sendFrame, h]

/-! ## The answer -/

/-- The answer of a command keeps the timebase and the queue. -/
theorem answer_keeps (s t : State) :
    ∃ u, answer s t = Host.Outcome.next u ∧ u.clk.time = s.clk.time ∧ u.pending = s.pending := ⟨_, rfl, rfl, rfl⟩

end Sys2Proof.Machine
end

