-- ==== Sys2Proof/Laws/Settle.lean ====
section
/-! SUPPORT. A machine in which nothing waits performs nothing more of itself. -/

namespace Sys2Proof.Machine

open Sys2Proof.Safety

theorem settleN_quiet (n : Nat) {s : State} (h : quiet s = true) : settleN n s = s := by
  cases n with
  | zero => rfl
  | succ n => simp [settleN, h]

theorem settleAll_quiet {s : State} (h : quiet s = true) : settleAll s = s := settleN_quiet _ h

/-- On a calm machine nothing follows a command's own effect. -/
theorem settle_calm {s : State} (h : calm s = true) : settle s = s := by
  simp only [calm, Bool.and_eq_true] at h
  obtain ⟨⟨hq, ha⟩, hf⟩ := h
  simp [settle, settleAll_quiet hq, ha, List.isEmpty_iff.mp hf]

end Sys2Proof.Machine
end

