-- ==== Sys2Proof/Laws/Tasks.lean ====
section
/-! SUPPORT. What an instruction's frame and its retirement do. -/

namespace Sys2Proof.Machine

open Sys2Proof.Safety

/-- An instruction that stands at the pc comes from the word that the fetch delivers. -/
theorem standsAt_word {t : ThreadId} {c : Instr} {s : State} (h : standsAt t c s) :
    ∃ w, (fetch t s).1 = Fetch.ok w ∧ decodeTroxo t w = some c := by
  simp only [standsAt, fetchedInstr] at h
  split at h
  · exact ⟨_, ‹_›, h⟩
  · cases h

/-- A thread at an instruction boundary goes by the word that its fetch delivers (R245, R246, R251). -/
theorem instr_fetched {t : ThreadId} {regs : List Nat} {s : State} {w : BitVec 64} (c : Instr) (legal priv : Bool) (rs : List Nat)
    (own : Nat) (body : Thread → State → State) (h : issues t regs s) (hf : (fetch t s).1 = Fetch.ok w) :
    instr t c legal priv rs own body s =
      match decodeTroxo t w with
      | none => raise t 0x00 none (fetched t s)
      | some d =>
        if d ≠ c then s
        else if !legal then raise t 0x00 none (fetched t s)
        else if !priv then raise t 0x01 none (fetched t s)
        else if rs.any (pendingReg (thr (fetched t s) t.val)) then stall t.val (fetched t s)
        else body (thr (fetched t s) t.val) (fetched t s) := by
  obtain ⟨h1, h2, h3, h4, h5, h6, h7, h8, -⟩ := h
  have h9 : ¬ (own ≠ 0 ∧ 0 = own) := fun x => x.1 x.2.symm
  simp only [instr, h1, h2, h3, h4, h5, h6, h7, h8, hf, h9, fetched]
  cases decodeTroxo t w <;> simp

/-- A legal instruction of a thread at an instruction boundary runs its body on the state after the fetch. -/
theorem instr_issues {t : ThreadId} {c : Instr} {regs : List Nat} {s : State} (own : Nat) (body : Thread → State → State)
    (h : issues t regs s) (hc : standsAt t c s) :
    instr t c true true regs own body s = body (thr (fetched t s) t.val) (fetched t s) := by
  obtain ⟨w, hf, hw⟩ := standsAt_word hc
  have hr : regs.any (pendingReg (thr (fetched t s) t.val)) = false := by
    rw [List.any_eq_false]
    intro r hr
    simpa using h.2.2.2.2.2.2.2.2 r hr
  simp [instr_fetched c true true regs own body h hf, hw, hr]

/-- A word that is not legal raises ILLEGAL (R246). -/
theorem instr_illegal {t : ThreadId} {c : Instr} {regs rs : List Nat} {s : State} (priv : Bool) (own : Nat)
    (body : Thread → State → State) (h : issues t rs s) (hc : standsAt t c s) :
    instr t c false priv regs own body s = raise t 0x00 none (fetched t s) := by
  obtain ⟨w, hf, hw⟩ := standsAt_word hc
  simp [instr_fetched c false priv regs own body h hf, hw]

/-- An opcode that R248 does not list raises ILLEGAL, whatever command names the thread (R246). -/
theorem instr_unlisted {t : ThreadId} {regs rs : List Nat} {s : State} {w : BitVec 64} (c : Instr) (legal priv : Bool) (own : Nat)
    (body : Thread → State → State) (h : issues t rs s) (hf : (fetch t s).1 = Fetch.ok w) (hw : decodeTroxo t w = none) :
    instr t c legal priv regs own body s = raise t 0x00 none (fetched t s) := by
  simp [instr_fetched c legal priv regs own body h hf, hw]

/-- An instruction that needs S mode raises PRIVILEGE in P mode. -/
theorem instr_privilege {t : ThreadId} {c : Instr} {regs rs : List Nat} {s : State} (own : Nat) (body : Thread → State → State)
    (h : issues t rs s) (hc : standsAt t c s) : instr t c true false regs own body s = raise t 0x01 none (fetched t s) := by
  obtain ⟨w, hf, hw⟩ := standsAt_word hc
  simp [instr_fetched c true false regs own body h hf, hw]

/-! ## Issue and retirement -/

theorem firstIssue_cases (t : ThreadId) (s : State) :
    ((thr s t.val).held = none ∧ firstIssue t s = s) ∨
    (∃ k, (thr s t.val).held = some k ∧
      firstIssue t s = dropSlot (thr s t.val).part.toNat k.toNat (modThr s t.val fun x => { x with held := none })) := by
  unfold firstIssue
  cases h : (thr s t.val).held with
  | none => exact .inl ⟨rfl, by simp [h]⟩
  | some k => exact .inr ⟨k, rfl, by simp [h]⟩

@[simp] theorem thr_modSp (s : State) (p k : Nat) (f : SeqPart → SeqPart) : thr (modSp s p f) k = thr s k := rfl
@[simp] theorem thr_dropSlot (s : State) (p k n : Nat) : thr (dropSlot p k s) n = thr s n := rfl

theorem thr_congr {s u : State} (h : u.seq = s.seq) (k : Nat) : thr u k = thr s k := by simp [thr, h]

@[simp] theorem thr_cnt (ev : Nat) (h : Option Half) (p : Option Part) (n : Nat) (s : State) (k : Nat) :
    thr (cnt ev h p n s) k = thr s k := thr_congr (by simp) k

@[simp] theorem thr_countOps (h : Half) (lo n m : Nat) (s : State) (k : Nat) : thr (countOps h lo n m s) k = thr s k :=
  thr_congr (by simp) k

theorem thr_firstIssue_self (t : ThreadId) (s : State) : thr (firstIssue t s) t.val = { thr s t.val with held := none } := by
  rcases firstIssue_cases t s with ⟨h, e⟩ | ⟨k, h, e⟩
  · rw [e, ← h]
  · rw [e]; simp

theorem thr_firstIssue_ne (t : ThreadId) (s : State) {k : Nat} (h : k ≠ t.val) : thr (firstIssue t s) k = thr s k := by
  rcases firstIssue_cases t s with ⟨-, e⟩ | ⟨j, -, e⟩
  · rw [e]
  · rw [e]; simp [thr_modThr_ne, h]

/-- Issue changes the thread's held slot, its partition's slots, and counters. -/
theorem firstIssue_frame (t : ThreadId) (s : State) :
    changesOnly [.seq] s (firstIssue t s) ∧ (firstIssue t s).seq.tq = s.seq.tq ∧ (firstIssue t s).seq.ro = s.seq.ro ∧
    (firstIssue t s).seq.resumeE = s.seq.resumeE ∧ (firstIssue t s).seq.resumeW = s.seq.resumeW ∧
    ((thr s t.val).held = none → (firstIssue t s).seq.sp = s.seq.sp) := by
  rcases firstIssue_cases t s with ⟨-, e⟩ | ⟨j, hj, e⟩
  · rw [e]
    refine ⟨?_, rfl, rfl, rfl, rfl, fun _ => rfl⟩
    intro b _; cases b <;> rfl
  · rw [e]
    refine ⟨?_, rfl, rfl, rfl, rfl, fun h => ?_⟩
    · intro b hb; cases b <;> first | rfl | simp at hb
    · rw [hj] at h; cases h

/-- The thread after an instruction that applies f has retired. -/
theorem thr_retire_self (t : ThreadId) (f : Thread → Thread) (s : State) :
    thr (retire t f s) t.val
      = { f { thr s t.val with held := none, ahead := none } with wait := none, waitLeft := none, hit := none, xl := none } := by
  simp [retire, countIssue, thr_firstIssue_self]

theorem thr_retire_ne (t : ThreadId) (f : Thread → Thread) (s : State) {k : Nat} (h : k ≠ t.val) :
    thr (retire t f s) k = thr s k := by
  simp [retire, countIssue, thr_modThr_ne, thr_firstIssue_ne, h]

/-- Retirement touches the sequencer, counters and test targets only. -/
theorem retire_frame (t : ThreadId) (f : Thread → Thread) (s : State) :
    changesOnly [.seq, .cnt, .tst] s (retire t f s) ∧ seqKept t s (retire t f s) := by
  obtain ⟨hb, h1, h2, h3, h4, h5⟩ := firstIssue_frame t s
  constructor
  · intro b hm
    have hs : b ∉ [Block.seq] := by simp at hm ⊢; exact hm.1
    have := hb b hs
    cases b <;> first | (simp at hm; done) | (simpa [Block.same, retire, countIssue] using this)
  · refine ⟨?_, ?_, ?_, ?_, fun hh => ?_⟩
    · simpa [retire, countIssue] using h1
    · simpa [retire, countIssue] using h2
    · simpa [retire, countIssue] using h3
    · simpa [retire, countIssue] using h4
    · simpa [retire, countIssue] using h5 hh

end Sys2Proof.Machine
end

