-- ==== Sys2Proof/Tests/Slice0.lean ====
section
/-! SUPPORT. Own tests: an ill-formed command for each check of well-formedness, a few single steps with their results from the
spec, and for every statement with hypotheses concrete states and operands that meet all of them together, clause by clause
(the theorems witness_<statement>; a further one of the same statement covers further clauses). -/


namespace Sys2Proof.Tests
open Sys2Proof Sys2Proof.Machine Sys2Proof.Safety

set_option maxRecDepth 20000
set_option linter.unusedVariables false
set_option synthInstance.maxSize 5000
set_option synthInstance.maxHeartbeats 400000
set_option Elab.async false

/-- Domains D1 to D9 and every array die are on, and boot is over. -/
def up (s : State) : State :=
  (s.onPwr fun p => { p with pwrgood := true, resetN := true, dom := (List.range 15).map fun i => (i + 1, { st := 1, gen := 0 }) }).onBoot fun b =>
    { b with phase := .started }

/-- Regions 0 and 192 are PINNED, region 1 is a CACHE region; block 0 belongs to partition 0. -/
def base : State :=
  let s := up State.reset
  let s := s.onTables fun t =>
    { t with region := [(0, { state := 2, busy := false, retired := false }), (4, { state := 1, busy := false, retired := false }),
                        (192, { state := 2, busy := false, retired := false })] }
  s.onBuf fun b => { b with blk := [(0, { st := 3, owner := 0 })] }

/-- A translation of the first page to the first line of the buffer space. -/
def page : Tlb :=
  { part := 0, vpage := 0, size := 0, sa := 0x8000000000, rights := { r := true, w := true, a := true, x := true }, ref := true }

/-- Thread 0 runs at pc 0, its page translated and its instruction sector there, with registers g. -/
def running (g : Tab (BitVec 64)) (s : State) : State :=
  let s := s.onSeq fun q => { q with ro := [(0, some { sector := 0x400000000000, data := 0, ref := true })] }
  setThr s 0 { Thread.zero with phase := .running, hit := some page, g := g }

/-- Thread 0 stands at pc 0, where the word of an instruction is. -/
def stands (op : BitVec 8) (f : TFields) (g : Tab (BitVec 64)) (s : State) : State :=
  (running g s).onSeq fun q => { q with ro := [(0, some { sector := 0x400000000000, data := (f.word op).setWidth 256, ref := true })] }

def fields (d a b : BitVec 5) (v : BitVec 4) (c : BitVec 5) (imm : BitVec 32) : TFields := { d := d, a := a, b := b, v := v, c := c, imm := imm }

/-- Line 0 of FAR space is cached in region 4, whole. -/
def cached (s : State) : State :=
  let s := s.onTables fun t => { t with gt := [(0, { group := 128, valid := true })] }
  s.onCache fun c => { c with line := [(2097152, { Meta.zero with sv := 15 })] }

/-- Thread 0 with its page translated to FAR space instead; its instruction's page is the same. -/
def far (s : State) : State := modThr s 0 fun x => { x with hit := some { page with sa := 0 } }

/-- A stream of two units: two lines from page 0 at 256 to BUF offset 512. -/
def sdesc : BitVec 512 :=
  BitVec.ofNat 512 (256 + 2 ^ 64 * (0x8000000000000 + 512) + 2 ^ 128 * 16 + 2 ^ 160 * 2 + 2 ^ 176 + 2 ^ 192 + 2 ^ 208 * 3 + 2 ^ 217 + 2 ^ 224 * 128 + 2 ^ 320 * 128)

/-- Entries of the read-only caches of core 0. -/
def withRo (es : List (Nat × Option RoEnt)) (s : State) : State := s.onSeq fun q => { q with ro := q.ro ++ es }

/-- The two halves of a 64-byte descriptor at sa in the descriptor cache of core 0. -/
def descAt (sa : Nat) (d : BitVec 512) : List (Nat × Option RoEnt) :=
  [(48, some { sector := BitVec.ofNat 47 (sa / 32), data := d.extractLsb' 0 256, ref := true }),
   (49, some { sector := BitVec.ofNat 47 (sa / 32 + 1), data := d.extractLsb' 256 256, ref := true })]

/-- Port n is ACTIVE with credits for every class. -/
def ported (n : Nat) (s : State) : State :=
  let s := setPort s n { Port.zero with en := true, state := 4 }
  setLink s n { LinkSt.zero with cred := { c0 := 100, c1 := 100, c2 := 100, c3 := 200, invsc := 16 } }

/-- Bytes listed from an address on. -/
def placed : Nat → List Byte → List (Nat × Byte)
  | _, [] => []
  | a, b :: bs => (a, b) :: placed (a + 1) bs

/-- The state a command answers. -/
def nextOf (o : Host.Outcome State Fault Refusal) : State := match o with | .next u => u | _ => State.reset

/-- What holds of the empty thread and of every listed one holds of every thread. -/
theorem all_threads (s : State) (P : Thread → Prop) (h0 : P Thread.zero) (h : ∀ e ∈ s.seq.th, P e.2) (t : Nat) : P (thr s t) :=
  (tget_listed Thread.zero s.seq.th t).elim (fun e => (congrArg P e).mpr h0) (fun e => h _ e)

def hdr (cls : Fin 4) (sa : Sa) : PHdr := { port := 0, cls := cls, tag := 5, part := 0, sa := sa }
/-! ## Ill-formed commands, one for each check -/

def ill (i : Instr) : Bool := !i.wf

theorem test_ill_access : ill (.threadAccessComplete 0 16) = true := by decide
theorem test_ill_unit : ill (.streamUnitComplete 0 0 (2 ^ 33)) = true := by decide
theorem test_ill_wrl : ill (.wrl (hdr 0 0) 0) = true := by decide
theorem test_ill_wrb : ill (.wrb (hdr 2 0) 0 0 0) = true := by decide
theorem test_ill_aadd : ill (.linkAadd (hdr 1 0) false (2 ^ 32)) = true := by decide
theorem test_ill_acas : ill (.linkAcas (hdr 1 0) false 0 (2 ^ 32)) = true := by decide
theorem test_ill_aswp : ill (.linkAswp (hdr 1 0) false (2 ^ 32)) = true := by decide
theorem test_ill_amin : ill (.linkAmin (hdr 1 0) false false (2 ^ 32)) = true := by decide
theorem test_ill_amax : ill (.linkAmax (hdr 1 0) false false (2 ^ 32)) = true := by decide
theorem test_ill_addl : ill (.linkAddl (hdr 0 0) 0 0 0) = true := by decide
theorem test_ill_block : ill (.blockReceived 0 true [] 0 []) = true := by decide
theorem test_ill_plow_line : ill (.plowLineStep .e (384 * 2 ^ 19)) = true := by decide
theorem test_ill_mbput : ill (.mbput []) = true := by decide
theorem test_ill_flpr : ill (.flpr 0 [] 0) = true := by decide
theorem test_ill_stage : ill (.smbStageWrite (List.replicate 33 0) 0) = true := by decide
theorem test_well_add : (Instr.add 0 (fields 3 1 2 0 0 0)).wf = true := by decide

/-! ## Single steps, their results from the spec -/

def g3 (i : Instr) (s : State) : BitVec 64 := gReg (thr (nextOf (exec i s)) 0) 3

/-- R255: addition wraps. -/
theorem test_add_wraps :
    let f := fields 3 1 2 0 0 0
    g3 (.add 0 f) (stands 0x01 f [(1, BitVec.allOnes 64), (2, 2)] base) = 1 := by decide +kernel
/-- R255: a division by 0 gives every bit 1. -/
theorem test_div_zero :
    let f := fields 3 1 2 0 0 0
    g3 (.div 0 f) (stands 0x04 f [(1, 5)] base) = BitVec.allOnes 64 := by decide +kernel
/-- R255: the remainder takes the sign of ga: -7 rem 2 = -1. -/
theorem test_rem_sign :
    let f := fields 3 1 2 0 0 0
    g3 (.rem 0 f) (stands 0x05 f [(1, -7), (2, 2)] base) = -1 := by decide +kernel
/-- R255: SAR keeps the sign and takes six bits of y. -/
theorem test_sar :
    let f := fields 3 1 2 0 0 0
    g3 (.sar 0 f) (stands 0x0B f [(1, -8), (2, 65)] base) = -4 := by decide +kernel
/-- R255: LIH does not extend IMM's sign. -/
theorem test_lih :
    let f := fields 3 1 0 0 0 0x80000000
    g3 (.lih 0 f) (stands 0x10 f [(1, 0xAAAAAAAA55555555)] base) = 0x8000000055555555 := by decide +kernel
/-- R257: CALL keeps the next word's address. -/
theorem test_call :
    let f := fields 3 0 0 0 0 2
    g3 (.call 0 f) (stands 0x22 f [] base) = 8 := by decide +kernel
/-- R258: a store puts the low byte at the lowest address. -/
theorem test_store_byte_order :
    let f := fields 0 1 2 3 0 3
    (memByte (nextOf (exec (.st 0 f) (stands 0x31 f [(1, 5), (2, 0x1122334455667788)] base))).cache.data 8).toNat = 0x88 := by
  decide +kernel
/-- R258: without V[2], LD extends with zeros. -/
theorem test_load_zero_extends :
    let f := fields 3 1 0 0 0 3
    ((thr (nextOf (exec (.ld 0 f) ((stands 0x30 f [(1, 5)] base).onCache fun c => { c with data := [(8, 0xFF)] }))) 0).outs.map
      (·.result)) = [some [0xFF]] := by decide +kernel
/-- The CRC-32C of the digits 1 to 9. -/
theorem test_crc32c : crc32c [0x31, 0x32, 0x33, 0x34, 0x35, 0x36, 0x37, 0x38, 0x39] = 0xE3069283 := by decide +kernel
/-- R71: with the PLL locked an edge of the timebase is 5 ns. -/
theorem test_tick : (nextOf (step (up State.reset |>.onClk fun c => { c with pllLock := true, time := 45 }))).clk.time = 50 := by
  decide +kernel

/-! ## Hypotheses of the statements about every state -/

theorem witness_IdleStepTicks : State.reset.pending = [] := by decide

/-- A base state with one byte of the array written. -/
def written : State := base.onCache fun c => { c with data := [(8, 0xFF)] }

theorem witness_TimebaseInvariant : timeOk base ∧ base.clk.time.toNat + 40 < 2 ^ 64 ∧ step base = .next (nextOf (step base)) := by
  refine ⟨?_, by decide +kernel, rfl⟩
  unfold timeOk; decide +kernel

theorem witness_ArrayInvariant : arrayOk written ∧ step written = .next (nextOf (step written)) := by
  refine ⟨?_, rfl⟩
  unfold arrayOk; decide +kernel

/-! ## Hypotheses of the statements, clause by clause -/

namespace Words
def g12 : Tab (BitVec 64) := [(1, 5), (2, 7)]

theorem witness_IntegerResults :
    let t : ThreadId := 0
    let f : TFields := fields 3 0 0 0 0 5
    ∀ e ∈ troxoOps.take 14,
      let s : State := stands e.1 f g12 base;
      issues t [f.d.toNat, f.a.toNat, f.b.toNat] s ∧ standsAt t (e.2 t f) s ∧ f.v = 0 ∧ f.c = 0 ∧ f.b = 0 ∧ f.a = 0 ∧ f.v.toNat < 6 := by
  decide +kernel

theorem witness_ControlResults :
    let t : ThreadId := 0
    let at_ (op : BitVec 8) (c : ThreadId → TFields → Instr) (f : TFields) (g : Tab (BitVec 64)) (P : Thread → Prop) : Prop :=
      let s : State := stands op f g base;
      issues t [f.d.toNat, f.a.toNat, f.b.toNat] s ∧ standsAt t (c t f) s ∧ f.v = 0 ∧ f.c = 0 ∧ f.b = 0 ∧ P (thr (fetched t s) t.val)
    let ga (th : Thread) : BitVec 64 := gReg th 1
    let target (th : Thread) (imm : BitVec 32) : BitVec 64 := th.pc.setWidth 64 + 8 * imm.signExtend 64
    let ea (th : Thread) (imm : BitVec 32) : BitVec 64 := ga th + imm.signExtend 64
    at_ 0x20 .br (fields 0 1 0 0 0 2) g12 (fun th => ga th ≠ gReg th 0) ∧
    at_ 0x23 .jr (fields 3 1 0 0 0 3) g12 (fun th => (ea th 3).toNat < 2 ^ 48 ∧ (ea th 3).toNat % 8 = 0) ∧
    at_ 0x24 .loop (fields 0 1 0 0 0 2) [(1, 1)] (fun th => ga th = 1) ∧
    at_ 0x20 .br (fields 0 1 0 0 0 2) [] (fun th => ga th = gReg th 0 ∧ (target th 2).toNat < 2 ^ 48) ∧
    at_ 0x22 .call (fields 3 0 0 0 0 5) [] (fun th => (target th 5).toNat < 2 ^ 48) ∧
    at_ 0x21 .jmp (fields 0 0 0 0 0 5) [] (fun th => (target th 5).toNat < 2 ^ 48) ∧
    at_ 0x24 .loop (fields 0 1 0 0 0 2) g12 (fun th => ga th ≠ 1 ∧ (target th 2).toNat < 2 ^ 48) := by
  decide +kernel

/-- Thread 0 runs in P mode: its partition 1 owns the block. -/
def pmode (op : BitVec 8) (f : TFields) : State :=
  let s := stands op f [] (base.onBuf fun b => { b with blk := [(0, { st := 3, owner := 1 })] })
  let s := modThr s 0 fun x => { x with part := 1, hit := some { page with part := 1 } }
  let q : PartReg := { partReg s.cur 1 with en := true }
  { s with cur := { s.cur with part := [(1, q)] }, prev := { s.prev with part := [(1, q)] } }

theorem witness_ExceptionsTaken :
    let t : ThreadId := 0
    let boundary (f : TFields) (s : State) : Prop := issues t [f.d.toNat, f.a.toNat] s ∧ calm (fetched t s) = true
    let takes (c : Instr) (f : TFields) (s : State) : Prop := boundary f s ∧ standsAt t c s
    let ea (f : TFields) (s : State) : BitVec 64 := gReg (thr (fetched t s) t.val) f.a.toNat + f.imm.signExtend 64
    (let f : TFields := fields 0 1 2 7 1 1;
      boundary f (stands 0 f g12 base) ∧ (fetch t (stands 0 f g12 base)).1 = Fetch.ok (f.word 0) ∧ (∀ e ∈ troxoOps, e.1 ≠ opcodeOf (f.word 0)) ∧
      (∀ e ∈ troxoOps, e.1.toNat < 0x32 ∨ e.1 ∈ [(0x80 : BitVec 8), 0x93, 0x94, 0x95] → takes (e.2 t f) f (stands e.1 f g12 base)) ∧ f.c ≠ 0 ∧
      takes (.set_ t f) f (stands 0x0C f g12 base) ∧ takes (.br t f) f (stands 0x20 f g12 base) ∧ 6 ≤ f.v.toNat) ∧
    (let f : TFields := fields 3 0 0 0 0 0;
      takes (.epoch t f) f (pmode 0x92 f) ∧ (thr (pmode 0x92 f) t.val).part ≠ 0) ∧
    (let f : TFields := fields 3 1 0 0 0 2;
      takes (.jr t f) f (stands 0x23 f g12 base) ∧ (ea f (stands 0x23 f g12 base)).toNat % 8 ≠ 0) ∧
    (let f : TFields := fields 3 0 0 3 0 5;
      takes (.ld t f) f (stands 0x30 f g12 base) ∧ (ea f (stands 0x30 f g12 base)).toNat % 2 ^ (f.v.toNat % 4) ≠ 0) := by
  decide +kernel

end Words

namespace Accesses
def B : Sa := 0x8000000000000

/-- An access of thread 0 through its first page reaches the line of B, pinned and idle. -/
abbrev meets (c : Instr) (f : TFields) (regs : List Nat) (n : Nat) (need : Rights) (kind : Nat) (dev : Space → Bool) (op : LineOp) (off : Nat)
    (s : State) : Prop :=
  let t : ThreadId := 0
  let s1 : State := fetched t s
  let th : Thread := thr s1 t.val
  let pva : BitVec 64 := gReg th f.a.toNat + f.imm.signExtend 64
  let x : Space := .buf 0 off
  let s2 : State := reached t pva need kind dev s1
  issues t regs s ∧ standsAt t c s ∧ reachesAt t pva n need kind dev x (B + BitVec.ofNat 52 off) s1 ∧ x.isDev = false ∧ th.outs.length < 16 ∧
  (thr s2 t.val).outs = th.outs ∧ lineHere s2 op (B + BitVec.ofNat 52 off) th.part (thrHalf t.val) (x.home t.val) (off / 128) = true ∧
  noCopies s2 (off / 128) = true ∧ (metaAt s2 (off / 128)).sp = 0 ∧ s2.integ.injArm = false

def group (f : BitVec 5) : List Nat := (List.range 16).map fun i => f.toNat + i

theorem witness_LoadResults :
    (let f : TFields := fields 1 0 0 0 0 0;
      meets (.ld 0 f) f [f.d.toNat, f.a.toNat] 1 Rights.rd 0 (devOk 1 false) (.read (.bytes 0 1 false) none false) 0 (stands 0x30 f [] base) ∧
      f.b = 0 ∧ f.c = 0 ∧ f.v.getLsbD 3 = false) ∧
    (let f : TFields := fields 1 0 0 7 0 120;
      meets (.ld 0 f) f [f.d.toNat, f.a.toNat] 8 Rights.rd 0 (devOk 8 false) (.read (.bytes 120 8 false) none false) 120 (stands 0x30 f [] base) ∧
      f.v.getLsbD 3 = false) ∧
    (let f : TFields := fields 16 0 0 0 0 128;
      meets (.ldl 0 f) f (f.a.toNat :: group f.d) 128 Rights.rd 0 (fun _ => false) (.read .line none false) 128 (stands 0x32 f [] base) ∧
      1 ≤ f.d.toNat ∧ f.d.toNat ≤ 16 ∧ f.b = 0 ∧ f.v = 0 ∧ f.c = 0) := by
  decide +kernel

theorem witness_StoreResults :
    let ahead (f : TFields) (n off : Nat) (dev : Space → Bool) (op : LineOp) (w : Option (BitVec 64)) (s : State) : Prop :=
      let s1 : State := fetched 0 s;
      let r := fetchAhead 0 (B + BitVec.ofNat 52 off) (reached 0 (gReg (thr s1 0) f.a.toNat + f.imm.signExtend 64) Rights.wr 1 dev s1);
      r.1 = some w ∧ (thr r.2 0).outs = (thr s1 0).outs ∧ r.2.integ.injArm = false ∧
      lineHere r.2 op (B + BitVec.ofNat 52 off) (thr s1 0).part .e (Space.home (.buf 0 off) 0) (off / 128) = true ∧ noCopies r.2 (off / 128) = true
    (let f : TFields := fields 0 0 1 0 0 8;
      let s : State := stands 0x31 f [(1, 0x1122334455667788)] base;
      meets (.st 0 f) f [f.a.toNat, f.b.toNat] 1 Rights.wr 1 (devOk 1 true) (.write (byteMask 8 1) 0) 8 s ∧ f.d = 0 ∧ f.v.toNat < 4 ∧ f.c = 0 ∧
      ahead f 1 8 (devOk 1 true) (.write (byteMask 8 1) 0) (some 0) s) ∧
    (let f : TFields := fields 0 0 1 3 0 248;
      let s : State := stands 0x31 f [(1, 0x1122334455667788)] base;
      meets (.st 0 f) f [f.a.toNat, f.b.toNat] 8 Rights.wr 1 (devOk 8 true) (.write (byteMask 120 8) 0) 248 s ∧ f.v.toNat < 4 ∧
      ahead f 8 248 (devOk 8 true) (.write (byteMask 120 8) 0) none s) ∧
    (let f : TFields := fields 0 0 16 0 0 128;
      let s : State := stands 0x33 f [(1, 0x1122334455667788)] base;
      meets (.stl 0 f) f (f.a.toNat :: group f.b) 128 Rights.wr 1 (fun _ => false) (.write (BitVec.allOnes 128) 0) 128 s ∧
      1 ≤ f.b.toNat ∧ f.b.toNat ≤ 16 ∧ f.d = 0 ∧ f.v = 0 ∧ f.c = 0 ∧ ahead f 128 128 (fun _ => false) (.write (BitVec.allOnes 128) 0) none s) := by
  decide +kernel

theorem witness_AtomicsAccepted :
    let f : TFields := fields 3 1 0 0 0 3
    let s (op : BitVec 8) : State := stands op f [(1, 5)] base
    (∀ e ∈ (troxoOps.drop 23).take 5,
      meets (e.2 0 f) f [f.d.toNat, f.a.toNat, f.b.toNat, f.c.toNat] 4 Rights.atom 2 (fun _ => false) (.atu 0) 8 (s e.1) ∧ f.v.toNat < 2 ∧ f.v.getLsbD 0 = false ∧
      f.c = 0 ∧ findAtom (fetched 0 (s e.1)) .e (fetched 0 (s e.1)).atu.ids = none) ∧
    meets (.sems 0 f) f [f.d.toNat, f.a.toNat, f.b.toNat, f.c.toNat] 8 Rights.atom 2 (fun _ => false) (.atu 0) 8 (s 0x82) ∧ f.b = 0 ∧ f.v = 0 ∧
    findAtom (fetched 0 (s 0x82)) .e (fetched 0 (s 0x82)).atu.ids = none := by
  decide +kernel

end Accesses

namespace Performed
open Accesses
def addF : TFields := fields 3 1 2 0 0 3
def acc : State := nextOf (exec (.aadd 0 addF) (stands 0x40 addF [(1, 5), (2, 0x1122334455667788)] base))
def atom : Atom := (atuHalf acc .e).atoms.headD default
def wA : State := running [] base
def wO : State := modThr wA 0 fun x => { x with outs := [{ id := 5, line := 0, store := false, dest := 0, count := 2, result := some [7,8], pva := 0, viaRo := false, void := false }] }
def addlF : TFields := fields 0 0 2 3 0 128
def red : State := nextOf (exec (.addl 0 addlF) (stands 0x45 addlF [(1, 5), (2, 0x1122334455667788), (5, 0x7f80000000000001)] base))

theorem witness_AtomicsPerformed :
    let h : Half := .e
    let s : State := acc
    let a : Atom := atom
    let r : LineReq := s.cache.blocked.headD default
    let t : ThreadId := 0
    let o : Outst := (thr acc 0).outs.headD default
    (atuHalf s h).atoms[0]? = some a ∧ findAtom s h a.id = some a ∧ a.who = Who.thread t 0 ∧ a.go = false ∧
    (∀ b ∈ (atuHalf s h).atoms, b.id = a.id → b = a) ∧ s.cache.blocked = [r] ∧ calm (s.onCache fun c => { c with blocked := [] }) = true ∧
    domRuns s (h.pick 3 4) = true ∧ s.tables.damage = [] ∧ r.op = LineOp.atu a.id ∧ r.sa = a.sa ∧ r.home = h ∧ isBuf a.sa = true ∧
    rowClean s (bufKey a.sa) = true ∧ noCopies s (bufKey a.sa) = true ∧ (metaAt s (bufKey a.sa)).sp = 0 ∧ s.integ.injArm = false ∧
    (thr s t.val).wait = none ∧ o ∈ (thr s t.val).outs ∧ o.id = 0 ∧ (∀ p ∈ (thr s t.val).outs, p.id = 0 → p = o) ∧
    a.sa.toNat % (if a.wide then 8 else 4) = 0 := by
  decide +kernel

theorem witness_AccessCompletes :
    let t : ThreadId := 0
    let o : Outst := (thr wO 0).outs.headD default
    (thr wO t.val).outs[0]? = some o ∧ o.result = some [7, 8] ∧ (thr wO t.val).phase = Phase.running ∧ (thr wO t.val).wait = none := by
  decide +kernel

theorem witness_Reductions :
    let f : TFields := addlF
    let s : State := stands 0x45 f [(2, 0x1122334455667788)] base
    meets (.addl 0 f) f (f.a.toNat :: f.c.toNat :: f.d.toNat :: group f.b) 128 Rights.atom 2 (fun _ => false) (.atu 0) 128 s ∧ 1 ≤ f.b.toNat ∧
    f.b.toNat ≤ 16 ∧ f.v.toNat < 5 ∧ f.c = 0 ∧ f.d = 0 ∧
    let s2 : State := reached 0 128 Rights.atom 2 (fun _ => false) (fetched 0 s)
    (atuHalf s2 .e).queue.length < 256 ∧ findAtom s2 .e s2.atu.ids = none ∧ findAddl s2 .e s2.atu.ids = none := by
  decide +kernel

theorem witness_Reductions_1 :
    let h : Half := .e
    let s : State := red
    let a : Addl := (atuHalf s .e).queue.headD default
    let r : LineReq := s.cache.blocked.headD default
    (atuHalf s h).queue[0]? = some a ∧ findAtom s h a.id = none ∧ findAddl s h a.id = some a ∧ (∀ b ∈ (atuHalf s h).queue, b.id = a.id → b = a) ∧
    s.cache.blocked = [r] ∧ calm (s.onCache fun c => { c with blocked := [] }) = true ∧ domRuns s (h.pick 3 4) = true ∧ s.tables.damage = [] ∧
    r.op = LineOp.atu a.id ∧ r.sa = a.line ∧ r.home = h ∧ isBuf a.line = true ∧ a.line.toNat % 128 = 0 ∧ rowClean s (bufKey a.line) = true ∧
    noCopies s (bufKey a.line) = true ∧ (metaAt s (bufKey a.line)).sp = 0 ∧ s.integ.injArm = false ∧ a.fmt = 3 := by
  decide +kernel

end Performed

namespace Streaming
open Accesses
def wP := ported 0 base
def noF : TFields := fields 0 0 0 0 0 0
def waits (s : State) : State := modThr s 0 fun x => { x with outs := [{ id := 5, line := 0, store := false, dest := 9, count := 2, result := some [7,8], pva := 0, viaRo := false, void := false }] }
def tokF : TFields := fields 3 0 0 0 1 0
def tk (n : Nat) (s : State) : State := modThr s 0 fun x => (x.setTok 1 n)
def s1 : Stream := { Stream.zero with used := true, tok := 1, desc := sdesc, src := some page }
def moving (s : State) : State := modThr (tk tokRun s) 0 (fun x => { x with s0 := s1 })
def pin (k : Nat) : State → State := fun s => setMeta s k { metaAt s k with pinned := true, sv := 15 }
def wT := pin 2 <| pin 3 <| pin 4 <| pin 5 <| moving ((running [(1, 5)] base).onCache fun c => { c with data := [(256, 3), (300, 5), (512,9)] })

theorem witness_Reductions_2 :
    let m : PHdr := hdr 1 B
    let fmt : BitVec 3 := 0
    let s : State := wP
    let h : Half := Half.e
    portOpen s m.port.val = true ∧ m.cls ≠ 0 ∧ m.sa.toNat % 128 = 0 ∧ memHome m Rights.atom m.sa s = Except.ok h ∧ fmt.toNat < 5 ∧
    lineHere s (LineOp.atu 0) m.sa m.part (portHalf m.port.val) h 0 = true ∧ noCopies s 0 = true ∧ (atuHalf s h).queue.length < 256 ∧
    findAtom s h s.atu.ids = none ∧ findAddl s h s.atu.ids = none := by
  decide +kernel

theorem witness_FencesAndWaits :
    let f : TFields := noF
    ∀ e ∈ [((0x80 : BitVec 8), Instr.fence 0 f), (0x81, .ifence 0 f)],
      let s : State := stands e.1 f [] base;
      issues 0 [] s ∧ standsAt 0 e.2 s ∧ (thr (fetched 0 s) 0).outs = [] ∧
      issues 0 [] (waits s) ∧ standsAt 0 e.2 (waits s) ∧ (thr (fetched 0 (waits s)) 0).outs ≠ [] := by
  decide +kernel

theorem witness_FencesAndWaits_2 :
    let f : TFields := fields 3 0 0 0 0 0
    let s (op : BitVec 8) : State := stands op f [] (base.onCache fun c => { c with data := [(0, 3)] })
    meets (.semw 0 f) f [f.d.toNat, f.a.toNat, f.b.toNat] 8 Rights.atom 2 (fun _ => false) (.atu 0) 0 (s 0x83) ∧ f.c = 0 ∧ f.b = 0 ∧ f.v = 0 ∧
    (let s2 : State := reached 0 0 Rights.atom 2 (fun _ => false) (fetched 0 (s 0x83));
      thr s2 0 = thr (fetched 0 (s 0x83)) 0 ∧ findAtom s2 .e s2.atu.ids = none) ∧
    meets (.waitt 0 f) f [f.d.toNat, f.a.toNat, f.b.toNat] 8 Rights.rd 0 (fun _ => false) (.read (.bytes 0 8 false) none false) 0 (s 0x84) ∧
    f.v.toNat < 6 ∧ thr (reached 0 0 Rights.rd 0 (fun _ => false) (fetched 0 (s 0x84))) 0 = thr (fetched 0 (s 0x84)) 0 := by
  decide +kernel

theorem witness_Streams :
    let f : TFields := tokF
    let th (s : State) : Thread := thr (fetched 0 s) 0
    ∀ e ∈ [((0x51 : BitVec 8), Instr.swait 0 f), (0x52, .spoll 0 f), (0x53, .sresume 0 f), (0x54, .scancel 0 f)],
      let s : State := stands e.1 f [] base;
      (∀ n ∈ [tokIdle, tokRun, tokDone, tokFaulted], issues 0 [f.d.toNat] (tk n s) ∧ standsAt 0 e.2 (tk n s) ∧ tokOf (th (tk n s)) 1 = n ∧
        slotOfTok (th (tk n s)) 1 = none) ∧
      issues 0 [f.d.toNat] (moving s) ∧ standsAt 0 e.2 (moving s) ∧ slotOfTok (th (moving s)) 1 = some 0 ∧
      inFlight (fetched 0 (moving s)) 0 0 = false ∧ ((th (moving s)).slotOf 0).stop = none ∧ f.c.toNat < 8 ∧ f.a = 0 ∧ f.b = 0 ∧ f.v = 0 ∧ f.imm = 0 := by
  decide +kernel

theorem witness_Streams_15 :
    let t : ThreadId := 0
    let f : TFields := fields 3 0 0 0 1 0
    let s : State := tk tokIdle (withRo (descAt B.toNat sdesc) (stands 0x50 f [] base))
    let s1 : State := fetched t s
    let th : Thread := thr s1 t.val
    let lo : RoEnt := (roFind s 0 RoKind.desc B).getD default
    let hi : RoEnt := (roFind s 0 RoKind.desc (B + 32)).getD default
    let s2 : State := reached t 0 Rights.rd 6 (fun _ => false) s1
    issues t [f.d.toNat, f.a.toNat] s ∧ standsAt t (.smov t f) s ∧ f.c.toNat < 8 ∧ f.b = 0 ∧ f.v = 0 ∧ tokOf th 1 ≠ tokRun ∧ tokOf th 1 ≠ tokFaulted ∧
    reachesAt t 0 64 Rights.rd 6 (fun _ => false) (.buf 0 0) B s1 ∧ calm s2 = true ∧ (∀ p ∈ s2.cache.asked, p.1 ≠ Consumer.smov t) ∧
    roFind s2 (thrCore t.val) RoKind.desc B = some lo ∧ roFind s2 (thrCore t.val) RoKind.desc (B + 32) = some hi ∧
    descOk s2 (hi.data ++ lo.data) = true ∧ freeStream th = some 0 := by
  decide +kernel

theorem witness_Streams_16 :
    let t : ThreadId := 0
    let i : Fin 2 := 0
    let s : State := wT
    let sp : Space := .buf 0 256
    let dp : Space := .buf 0 512
    let sa : Sa := B + 256
    let da : Sa := B + 512
    let th : Thread := thr s t.val
    let x : Machine.Stream := th.slotOf i
    let d : SDesc := parseDesc x.desc
    let unit : Nat := x.line.toNat
    let e : Nat := d.unitStart unit
    let n : Nat := d.unitEnd d.total e - e
    th.phase = Phase.running ∧ slotRuns th i = true ∧ x.stop = none ∧ x.cancel = false ∧ x.flights = [] ∧ x.hit = [] ∧ x.donemap = 0 ∧
    seqRuns s (thrHalf t.val) = true ∧ warmFenced s = false ∧ coreUp s (thrCore t.val) = true ∧ coreMoving s (thrCore t.val) = false ∧
    d.pin = true ∧ d.chk = 0 ∧ d.melt = false ∧ unit + 1 < d.units ∧ s.cache.asked = [] ∧ s.cache.got = [] ∧ s.integ.injArm = false ∧
    (reach t.val th.part (BitVec.ofNat 64 (d.srcAt e)) Rights.rd Rights.rd 4 (fun _ => false) x.src s).1 = Reach.go sp sa ∧
    reachSa s t.val th.part 0 (BitVec.ofNat 52 (d.dstAt e)) Rights.wr 5 (fun _ => false) = Reach.go dp da ∧ sp.isDev = false ∧
    dp.isDev = false ∧ isBuf sa = true ∧ isBuf da = true ∧ (metaAt s 2).pinned = true ∧
    let m : BitVec 128 × BitVec 1024 := d.move (lineData s 2) e n
    lineHere s (.read (.some_ (d.srcSectors e n)) none false) sa th.part (thrHalf t.val) (sp.home t.val) 2 = true ∧
    (metaAt s 2).sp = 0 ∧ lineHere s (.write m.1 m.2) da th.part (thrHalf t.val) (dp.home t.val) 4 = true ∧ noCopies s 4 = true := by
  decide +kernel

end Streaming

namespace Caching
open Accesses
/-- Thread 0 at an instruction whose page, and with it its access, lies in FAR space. -/
def standsFar (op : BitVec 8) (f : TFields) (s : State) : State :=
  far ((stands op f [] s).onSeq fun q => { q with ro := [(0, some { sector := 0, data := (f.word op).setWidth 256, ref := true })] })
def cmd : PlowCmd := { op := 1, scope := 0, part := 0, half := .e, arg0 := 0, arg1 := 0, user := none, seq := 4, started := true, workE := [1], workW := [], code := 0, clears := [] }
def pl (n : Nat) (s : State) : State := s.onCch fun c => { c with plow := List.replicate n cmd }

/-- FAR line 1 of the page, met by an access: resident in the set of its line. -/
abbrev farLine (c : Instr) (f : TFields) (need : Rights) (kind : Nat) (op : LineOp) (there : Bool) (s : State) : Prop :=
  let s1 : State := fetched 0 s
  let x : Space := .far .e
  let pva : BitVec 64 := gReg (thr s1 0) f.a.toNat + f.imm.signExtend 64
  let s2 : State := reached 0 pva need kind (fun _ => false) s1
  issues 0 [f.a.toNat] s ∧ standsAt 0 c s ∧ reachesAt 0 pva 1 need kind (fun _ => false) x 0 s1 ∧ x.isDev = false ∧
  meltDev 0 pva s1 = false ∧ (thr s1 0).outs.length < 16 ∧
  (if there then lineHere s2 op 0 0 .e .e 2097152 = true else lineAway s2 op 0 0 .e .e = true)

theorem witness_CacheInstructions :
    let f (v : BitVec 4) : TFields := fields 0 0 0 v 0 0
    (∀ v ∈ [(0 : BitVec 4), 1],
      farLine (.hint 0 (f v)) (f v) Rights.rd 0 (.hint (v == 1)) true (standsFar 0x60 (f v) (cached base)) ∧
      farLine (.hint 0 (f v)) (f v) Rights.rd 0 (.hint (v == 1)) false (standsFar 0x60 (f v) base)) ∧
    farLine (.pref 0 (f 0)) (f 0) Rights.rd 0 .fill true (standsFar 0x62 (f 0) (cached base)) ∧
    farLine (.melt 0 (f 0)) (f 0) Rights.wr 1 .melt true (standsFar 0x61 (f 0) (cached base)) ∧
    farLine (.melt 0 (f 0)) (f 0) Rights.wr 1 .melt false (standsFar 0x61 (f 0) base) := by
  decide +kernel

theorem witness_CacheInstructions_4 :
    let f (v : BitVec 4) : TFields := fields 0 1 0 v 0 0
    let away (op : BitVec 8) (c : Instr) : Prop :=
      issues 0 [1] (stands op (f 0) [(1, 2 ^ 48)] base) ∧ standsAt 0 c (stands op (f 0) [(1, 2 ^ 48)] base) ∧
      2 ^ 48 ≤ (gReg (thr (fetched 0 (stands op (f 0) [(1, 2 ^ 48)] base)) 0) 1).toNat
    let pinnedHere (op : LineOp) (opc : BitVec 8) (c : Instr) (need : Rights) (kind : Nat) : Prop :=
      meets c (f 0) [1] 1 need kind (fun _ => false) op 136 (stands opc (f 0) [(1, 136)] base)
    away 0x60 (.hint 0 (f 0)) ∧ away 0x62 (.pref 0 (f 0)) ∧ pinnedHere (.hint false) 0x60 (.hint 0 (f 0)) Rights.rd 0 ∧
    pinnedHere .fill 0x62 (.pref 0 (f 0)) Rights.rd 0 ∧ pinnedHere .melt 0x61 (.melt 0 (f 0)) Rights.wr 1 := by
  decide +kernel

/-- A page of CTL space beside the page of the instruction. -/
def devPage : State :=
  let s := stands 0x61 (fields 0 1 0 0 0 0) [(1, 0x1000)] base
  s.onXlt fun x => { x with tlb := [(0, some { page with vpage := 1, sa := 0xC000000000 })] }

theorem witness_CacheInstructions_5 :
    let f : TFields := fields 0 1 0 0 0 0
    issues 0 [1] devPage ∧ standsAt 0 (.melt 0 f) devPage ∧ meltDev 0 0x1000 (fetched 0 devPage) = true ∧
    gReg (thr (fetched 0 devPage) 0) 1 = 0x1000 ∧ (thr (fetched 0 devPage) 0).outs.length < 16 := by
  decide +kernel

theorem witness_BlockTags :
    let t : ThreadId := 0
    let f : TFields := fields 3 0 0 0 0 0
    let s : State := stands 0xA0 f [] base
    let x : Space := .buf 0 0
    let s1 : State := fetched t s
    let s2 : State := reached t 0 Rights.rd 0 (fun _ => false) s1
    issues t [f.d.toNat, f.a.toNat] s ∧ standsAt t (.cktag t f) s ∧ f.b = 0 ∧ f.v = 0 ∧ f.c = 0 ∧
    reachesAt t 0 4096 Rights.rd 0 (fun _ => false) x B s1 ∧ (thr s1 t.val).outs.length < 16 ∧ isBuf B = true ∧ B.toNat % 4096 = 0 ∧ x.isDev = false ∧
    calm s2 = true ∧ s2.tables.damage = [] ∧ s2.cache.asked = [] ∧ s2.cache.got = [] ∧
    (∀ i < 32, decodeSa s2 (pipeView s2 (thrHalf t.val)) (B + BitVec.ofNat 52 (128 * i)) = .ok (.buf 0 (128 * i)) ∧
      domRuns s2 ((Space.home (.buf 0 (128 * i)) t.val).pick 3 4) = true ∧ rowClean s2 (bufKey B + i) = true ∧ (metaAt s2 (bufKey B + i)).sp = 0) := by
  decide +kernel

theorem witness_PlowCommands :
    let t : ThreadId := 0
    let f : TFields := fields 3 1 2 1 0 257
    let here (s : State) : Prop :=
      issues t [f.d.toNat, f.a.toNat, f.b.toNat] s ∧ standsAt t (.plow t f) s ∧ (thr s t.val).part = 0 ∧ 1 ≤ f.v.toNat ∧ f.v.toNat ≤ 8 ∧ f.c = 0 ∧
      f.imm.toNat < 512 ∧ f.imm.getLsbD 8 = true
    let runs (n : Nat) (tail : List PlowCmd) : Prop :=
      domOn (pl n base) 3 = true ∧ calm (pl n base) = true ∧ (pl n base).cch.plow = cmd :: tail ∧ cmd.started = true
    here (stands 0x63 f [(2, 1)] base) ∧ (fetched t (stands 0x63 f [(2, 1)] base)).cch.plow.length < 16 ∧
    here (pl 16 (stands 0x63 f [(2, 1)] base)) ∧ 16 ≤ (fetched t (pl 16 (stands 0x63 f [(2, 1)] base))).cch.plow.length ∧
    (let f0 : TFields := fields 3 1 2 1 0 256;
      let s : State := stands 0x63 f0 [(2, 2 ^ 32)] base;
      issues t [f0.d.toNat, f0.a.toNat, f0.b.toNat] s ∧ standsAt t (.plow t f0) s ∧ f0.v.toNat ≤ 5 ∧ f0.imm.toNat % 4 = 0 ∧
      (gReg (thr (fetched t s) 0) f0.b.toNat).toNat % 2 ^ 32 = 0) ∧
    runs 16 (List.replicate 15 cmd) ∧ runs 15 (List.replicate 14 cmd) := by
  decide +kernel

end Caching

namespace Buffers

theorem witness_BufferInstructions :
    (let t : ThreadId := 0;
    ∀ v ∈ [(0 : BitVec 4), 1, 2, 6],
    let f : TFields := fields 3 0 0 v 0 0
    let s : State := stands 0x70 f [] base
    issues t [f.d.toNat] s ∧ standsAt t (.balloc t f) s ∧ f.a = 0 ∧ f.b = 0 ∧ f.c = 0 ∧ f.imm = 0 ∧ f.v.toNat < 8 ∧
    let s1 : State := fetched t s
    let th : Thread := thr s1 t.val
    let arrival : Half := thrHalf t.val
    let h : Half := if f.v.toNat % 4 = 0 then Half.e else if f.v.toNat % 4 = 1 then Half.w else arrival
    f.v.toNat % 4 ≠ 3 ∧ calm s1 = true ∧ mayAct s1 (allocView s1 h) th.part none = true ∧ unavailable s1 h arrival = false ∧
    th.part = 0 ∧ twf Blk.zero s1.buf.blk = true ∧ twf Region.zero s1.tables.region = true ∧ freeCount s1 h ≠ 0) ∧
    let t : ThreadId := 0
    let f : TFields := fields 3 2 0 0 0 0
    let s : State := stands 0x71 f [(2, 0x8000000000000)] base
    issues t [f.d.toNat, f.a.toNat] s ∧ standsAt t (.bfree t f) s ∧ f.b = 0 ∧ f.v = 0 ∧ f.c = 0 ∧
    let s1 : State := fetched t s
    let th : Thread := thr s1 t.val
    let sa : Sa := (gReg th f.a.toNat + f.imm.signExtend 64).setWidth 52
    calm s1 = true ∧ freeTarget s1 (pipeView s1 (thrHalf t.val)) th.part none (thrHalf t.val) sa = Except.ok 0 ∧ (region s1 0).state = 2 ∧
    (blk s1 0).st = 3 ∧ (blk s1 0).owner = th.part ∧
    (∀ e ∈ s1.cache.line, e.1 / 512 = 0 → e.2.sharers = 0 ∧ e.2.rheld = false) := by
  decide +kernel

theorem witness_TaskInstructions :
    let t : ThreadId := 0
    (∀ n ∈ [0, 1, 2, 3, 4, 5, 6, 7, 8, 4095],
      (let f : TFields := fields 3 0 0 0 0 (BitVec.ofNat 32 n);
        let s : State := stands 0x90 f [] base;
        issues t [f.d.toNat, f.a.toNat] s ∧ standsAt t (.csrr t f) s ∧ f.a = 0 ∧ f.b = 0 ∧ f.v = 0 ∧ f.c = 0 ∧ calm (fetched t s) = true) ∧
      (let f : TFields := fields 0 2 0 0 0 (BitVec.ofNat 32 n);
        let s : State := stands 0x91 f [(2, 5)] base;
        issues t [f.d.toNat, f.a.toNat] s ∧ standsAt t (.csrw t f) s ∧ f.d = 0 ∧ f.b = 0 ∧ f.v = 0 ∧ f.c = 0 ∧ calm (fetched t s) = true)) ∧
    (let f : TFields := fields 3 0 0 0 0 0;
      let s : State := stands 0x94 f [] base;
      issues t [f.d.toNat] s ∧ standsAt t (.yield t f) s ∧ (thr (fetched t s) t.val).held = none ∧
      ((candidates (fetched t s) .e).any fun c => decide ((thr (fetched t s) t.val).prio.toNat ≤ c.1)) = false) := by
  decide +kernel

end Buffers

namespace Queues
def wA := running [(1, 5), (2, 0x8000000000000)] base
def slots (s : State) := modSp s 0 fun x => { x with ctxLog2n := 2, used := 1, park := 1, slots := [(0, {half := .e, prio := 2})] }
def withQ (s : State) := setTq 3 { TaskQ.zero with en := true, head := 0xFFFFFFFE, tail := 0xFFFFFFFF, base := 0x8000000000 } s

theorem witness_TaskInstructions_17 :
    let t : ThreadId := 0
    let f : TFields := fields 0 0 0 0 0 0
    let s (op : BitVec 8) : State := slots (withQ (stands op f [] base))
    let th (op : BitVec 8) : Thread := thr (fetched t (s op)) t.val
    (∀ e ∈ [((0x93 : BitVec 8), Instr.trap t f), (0x95, .halt t f)],
      issues t [f.d.toNat] (s e.1) ∧ standsAt t e.2 (s e.1) ∧ calm (fetched t (s e.1)) = true ∧ (th e.1).outs = [] ∧ slotRuns (th e.1) 0 = false ∧
      slotRuns (th e.1) 1 = false ∧ inFlight (fetched t (s e.1)) t 0 = false ∧ inFlight (fetched t (s e.1)) t 1 = false ∧ (th e.1).donePva = 0 ∧
      (th e.1).word = none) ∧
    issues t [f.d.toNat] (s 0x94) ∧ standsAt t (.yield t f) (s 0x94) ∧ (th 0x94).held = none ∧
    ((candidates (fetched t (s 0x94)) .e).any fun c => decide ((th 0x94).prio.toNat ≤ c.1)) = true ∧
    freeSlot (fetched t (s 0x94)) (th 0x94).part.toNat = some 1 := by
  decide +kernel

theorem witness_QueuesAndDoorbells :
    ((let part : Sys2Proof.Part := 0
    let p : Sys2Proof.Part := 0
    let q : Fin 128 := 3
    let v : BitVec 32 := 5
    let slot : BitVec 6 := 0
    (let s : State := slots wA
    let x : TaskQ := tq s ↑q
    let ok : Prop := x.en = true ∧ (v - x.tail).toNat < 2 ^ 31 ∧ (v - x.head).toNat ≤ 2 ^ x.log2n.toNat
    let parked : Bool := slotParked s (BitVec.toNat p) slot.toNat
    (part = 0 ∨ part = x.part) ∧ ¬ok ∧ (part = 0 ∨ part = p) ∧ parked = true) ∧
    let s : State := withQ wA
    let x : TaskQ := tq s ↑q
    let ok : Prop := x.en = true ∧ (v - x.tail).toNat < 2 ^ 31 ∧ (v - x.head).toNat ≤ 2 ^ x.log2n.toNat
    let parked : Bool := slotParked s (BitVec.toNat p) slot.toNat
    (part = 0 ∨ part = x.part) ∧ ok ∧ parked = false ∧
    let c : Instr := Instr.doorbellResume part p slot
    (c = Instr.doorbellResume part p slot ∨ c = Instr.doorbellDiscard part p slot)) ∧
    let part : Sys2Proof.Part := 1
    (let p : Sys2Proof.Part := 0
    let q : Fin 128 := 3
    let slot : BitVec 6 := 0
    let s : State := wA
    let x : TaskQ := tq s ↑q
    part ≠ 0 ∧ part ≠ x.part ∧
    let c : Instr := Instr.doorbellResume part p slot
    (c = Instr.doorbellResume part p slot ∨ c = Instr.doorbellDiscard part p slot)) ∧
    let p : Sys2Proof.Part := 1
    let slot : BitVec 6 := 0
    let s : State := wA
    let parked : Bool := slotParked s (BitVec.toNat p) slot.toNat
    (part = 0 ∨ part = p) ∧ parked = false ∧
    let c : Instr := Instr.doorbellResume part p slot
    (c = Instr.doorbellResume part p slot ∨ c = Instr.doorbellDiscard part p slot)) ∧
    let q : Fin 128 := 3
    let v : BitVec 32 := 5
    let s : State := wA
    (domOn s 1 = true ∨ domOn s 2 = true) ∧
    let x : TaskQ := tq s ↑q
    let y : TaskQ :=
          { base := x.base, en := v.getLsbD 0, part := BitVec.extractLsb' 1 5 v, prio := BitVec.extractLsb' 6 2 v,
            half := Half.ofBool (v.getLsbD 8), log2n := BitVec.extractLsb' 9 4 v, head := x.head, tail := x.tail, dbErr := x.dbErr,
            cfg := x.cfg, fetchErr := x.fetchErr, doneLost := x.doneLost, fetching := x.fetching }
    let refused : Prop := x.en = true ∧ ¬(y.part = x.part ∧ y.half = x.half ∧ y.log2n = x.log2n) ∨ y.log2n.toNat < 4 ∨ 12 < y.log2n.toNat
    refused := by
  decide +kernel

theorem witness_QueuesAndDoorbells_8 :
    let q : Fin 128 := 3
    let v : BitVec 32 := 2049
    (let s : State := wA
    (domOn s 1 = true ∨ domOn s 2 = true) ∧
    let x : TaskQ := tq s ↑q
    let y : TaskQ :=
          { base := x.base, en := v.getLsbD 0, part := BitVec.extractLsb' 1 5 v, prio := BitVec.extractLsb' 6 2 v,
            half := Half.ofBool (v.getLsbD 8), log2n := BitVec.extractLsb' 9 4 v, head := x.head, tail := x.tail, dbErr := x.dbErr,
            cfg := x.cfg, fetchErr := x.fetchErr, doneLost := x.doneLost, fetching := x.fetching }
    let refused : Prop := x.en = true ∧ ¬(y.part = x.part ∧ y.half = x.half ∧ y.log2n = x.log2n) ∨ y.log2n.toNat < 4 ∨ 12 < y.log2n.toNat
    ¬refused ∧ y.en = true ∧ x.en = false) ∧
    let s : State := withQ wA
    (domOn s 1 = true ∨ domOn s 2 = true) ∧
    let x : TaskQ := tq s ↑q
    let y : TaskQ :=
          { base := x.base, en := v.getLsbD 0, part := BitVec.extractLsb' 1 5 v, prio := BitVec.extractLsb' 6 2 v,
            half := Half.ofBool (v.getLsbD 8), log2n := BitVec.extractLsb' 9 4 v, head := x.head, tail := x.tail, dbErr := x.dbErr,
            cfg := x.cfg, fetchErr := x.fetchErr, doneLost := x.doneLost, fetching := x.fetching }
    let refused : Prop := x.en = true ∧ ¬(y.part = x.part ∧ y.half = x.half ∧ y.log2n = x.log2n) ∨ y.log2n.toNat < 4 ∨ 12 < y.log2n.toNat
    ¬refused ∧ ¬(y.en = true ∧ x.en = false) := by
  decide +kernel

end Queues

namespace Starts
def B : Sa := 0x8000000000000
def wA := running [(1, 5), (2, 0x8000000000000)] base
def ro := roFind wA 0 .instr B |>.getD default
def slots (s : State) := modSp s 0 fun x => { x with ctxLog2n := 2, ctxBase := 0x8000000000, used := 2, slots := [(1, {half := .e, prio := 2})] }
def withQ (s : State) := setTq 3 { TaskQ.zero with en := true, head := 0xFFFFFFFE, tail := 0xFFFFFFFF, base := 0x8000000000, prio := 1, log2n := 4} s
def withRes (s : State) := (slots s).onSeq fun q => { q with resumeE := [{ part := 0, slot := 1, prio := 2}] }
def q1 := withQ wA
def q2 := withRes q1
def h := Half.e
def case1 : Resume := { part := 0, slot := 1, prio := 2}
def td (bad : Nat) : BitVec 512 := BitVec.ofNat 512 (0x1000 + bad + 7 * 2^64 + 8 *2^128 + 2^192*9 + 2^256*10 + 2^320*0x777 + 2^352 * 1 + 0 * 2^384 + 2^448 * 0x99)
def q3 (bad : Nat) := withRo (descAt (B.toNat + 64 * 14) (td bad)) (modThr q1 0 fun x => { x with phase := .fetching 3 })

theorem witness_TasksStart :
    let t : ThreadId := 0
    (let s : State := modThr wA 0 fun x => { x with ahead := some (x.pc, 7) };
    (thr s t.val).ahead = some ((thr s t.val).pc, 7)) ∧
    let s : State := wA
    let x : Space := Space.buf 0 0
    let sa : Sa := B
    let e : RoEnt := ro
    let th : Thread := thr s ↑t
    let r : Reach × State :=
          reach (↑t) th.part (BitVec.setWidth 64 th.pc) { r := false, w := false, a := false, x := true } Rights.rd 3 (fun x => false)
            th.hit s
    th.ahead = none ∧ r.1 = Reach.go x sa ∧ roFind s (thrCore ↑t) RoKind.instr sa = some e := by
  decide +kernel

theorem witness_TasksStart_5 :
    let h : Half := Half.e
    let k : Fin 36 := 1
    (let s : State := q1
    let c : ℕ × Cand := (candidates q1 Half.e).headD (0, Cand.queue 0)
    let cs : List (ℕ × Cand) := (candidates q1 Half.e).tail
    let i : ℕ := 36 * h.idx + ↑k
    seqUp s h = true ∧ warmFenced s = false ∧ isFree s i = true ∧ movers s h = [] ∧ candidates s h = c :: cs ∧
    let q : ℕ := 3
    q < 128 ∧ c.2 = Cand.queue q) ∧
    let s : State := q2
    let c : ℕ × Cand := (candidates q2 Half.e).headD (0, Cand.queue 0)
    let cs : List (ℕ × Cand) := (candidates q2 Half.e).tail
    let i : ℕ := 36 * h.idx + ↑k
    seqUp s h = true ∧ warmFenced s = false ∧ isFree s i = true ∧ movers s h = [] ∧ candidates s h = c :: cs ∧
    let e : Resume := case1
    c.2 = Cand.resume e := by
  decide +kernel

theorem witness_TasksStart_7 :
    let t : ThreadId := 0
    let q : Fin 128 := 3
    (let s : State := q3 0
    let x : Space := Space.buf 0 (64 * 14)
    let lo : RoEnt := (roFind (q3 0) 0 RoKind.desc (B + 64 * 14)).getD default
    let hi : RoEnt := (roFind (q3 0) 0 RoKind.desc (B + 64 * 14 + 32)).getD default
    (thr s ↑t).phase = Phase.fetching q ∧
    let y : TaskQ := tq s ↑q
    let sa : Sa := BitVec.ofNat 52 (y.base.toNat * 4096 + 64 * (y.head.toNat % 2 ^ y.log2n.toNat))
    let d : ℕ := (hi.data ++ lo.data).toNat
    checkSa s (pipeView s (thrHalf ↑t)) y.part none Rights.rd sa = Except.ok x ∧ x.isDev = false ∧
    unavailable s (x.home ↑t) (thrHalf ↑t) = false ∧ calm s = true ∧ (∀ p ∈ s.cache.asked, p.1 ≠ Consumer.desc t) ∧
    roFind s (thrCore ↑t) RoKind.desc sa = some lo ∧ roFind s (thrCore ↑t) RoKind.desc (sa + 32) = some hi ∧ taskDescOk d = true) ∧
    let s : State := q3 1
    let x : Space := Space.buf 0 (64 * 14)
    let lo : RoEnt := (roFind (q3 1) 0 RoKind.desc (B + 64 * 14)).getD default
    let hi : RoEnt := (roFind (q3 0) 0 RoKind.desc (B + 64 * 14 + 32)).getD default
    (thr s ↑t).phase = Phase.fetching q ∧
    let y : TaskQ := tq s ↑q
    let sa : Sa := BitVec.ofNat 52 (y.base.toNat * 4096 + 64 * (y.head.toNat % 2 ^ y.log2n.toNat))
    let d : ℕ := (hi.data ++ lo.data).toNat
    let word : ℕ → BitVec 64 := fun i => BitVec.ofNat 64 (d / 2 ^ (64 * i))
    checkSa s (pipeView s (thrHalf ↑t)) y.part none Rights.rd sa = Except.ok x ∧ unavailable s (x.home ↑t) (thrHalf ↑t) = false ∧
    calm s = true ∧ (∀ p ∈ s.cache.asked, p.1 ≠ Consumer.desc t) ∧ roFind s (thrCore ↑t) RoKind.desc sa = some lo ∧
    roFind s (thrCore ↑t) RoKind.desc (sa + 32) = some hi ∧ taskDescOk d = false ∧ word 6 = 0 := by
  decide +kernel

end Starts

namespace Waiting
def B : Sa := 0x8000000000000
def wA := running [(1, 5), (2, 0x8000000000000)] base
def wt (k : BitVec 3) : Wait := { kind := k, tok := 3, sa := B, start := 0, limit := 0, dest := 7, pva := 8, cond := 0, cmp := 0, eval := none, again := false, desc := 0 }
def wW (k : BitVec 3) : State := modThr (wA.onBuf id) 0 fun x => { x with wait := some (wt k) }
def wtr : Waiter := { who := .thread 0 9, part := 0, since := 0, limit := 0 }
def wB := (wW 4).onBuf fun b => { b with waitW := [wtr], used := [(32, 1)] }
def wt2 (k : BitVec 3) : Wait := { wt k with again := true }
def wV (k : BitVec 3) : State := modThr wA 0 fun x => { x with wait := some (wt2 k) }
def slots (s : State) := modSp s 0 fun x => { x with ctxLog2n := 2, ctxBase := 0x8000000000, used := 2, slots := [(1, {half := .e, prio := 2})] }
def sv : State := modThr (slots wA) 0 fun x => { x with phase := .draining 0 7, held := some 1, toks := 0o210, tag := 0x1234567890abcdef, s0 := { Stream.zero with used := true, tok := 1, desc := sdesc, line := 1, donemap := 5}, hit := none }
def rst : State := modThr (nextOf (exec (.saveRecordDone 0) sv)) 5 fun x => { x with phase := .restoring 0 1 }

theorem witness_WaitsGoOn :
    let t : ThreadId := 0
    (let s : State := wW 1
    let w : Wait := wt 1
    (thr s ↑t).phase = Phase.running ∧ (thr s ↑t).wait = some w ∧ due s w.start w.limit = true ∧ w.eval = none ∧
    w.kind.toNat ∈ [1, 2, 3, 5]) ∧
    let s : State := wB
    let w : Wait := wt 4
    (thr s ↑t).phase = Phase.running ∧ (thr s ↑t).wait = some w ∧ due s w.start w.limit = true ∧ w.eval = none ∧
    let h : Half := Half.w
    let a : Waiter := wtr
    let d : BitVec 5 := 9
    w.kind = 4 ∧ allocWaiter s t = some (h, a) ∧ a.who = Who.thread t d.toNat := by
  decide +kernel

theorem witness_WaitsGoOn_2 :
    let t : ThreadId := 0
    let x : Space := .buf 0 8
    let sa : Sa := B + 8
    let woken (k : BitVec 3) (need : Rights) (kind : Nat) (op : LineOp) : Prop :=
      let s : State := wV k;
      let th : Thread := thr s t.val;
      let r := reach t.val th.part ((wt2 k).pva.setWidth 64) need need kind (fun _ => false) th.hit s;
      th.phase = Phase.running ∧ th.wait = some (wt2 k) ∧ (wt2 k).eval = none ∧ (wt2 k).again = true ∧ th.xl = none ∧ th.outs.length < 16 ∧
      x.isDev = false ∧ noCopies s 0 = true ∧ sa.toNat % 8 = 0 ∧ r.1 = Reach.go x sa ∧ lineHere r.2 op sa th.part (thrHalf t.val) (x.home t.val) 0 = true ∧
      (metaAt s 0).sp = 0 ∧ findAtom s (x.home t.val) s.atu.ids = none
    woken 3 Rights.rd 0 (.read (.bytes 8 8 false) none false) ∧ woken 2 Rights.atom 2 (.atu 0) := by
  decide +kernel

theorem witness_ContextsKept :
    let t : ThreadId := 0
    let s : State := sv
    let k : BitVec 6 := 1
    let cause : BitVec 8 := 7
    let th : Thread := thr s ↑t
    let p : ℕ := BitVec.toNat th.part
    let sa : Sa := BitVec.ofNat 52 ((spReg s p).ctxBase.toNat * 4096 + 512 * k.toNat)
    let key : ℕ := bufKey sa
    th.phase = Phase.draining 0 cause ∧ saveReady s t 0 = true ∧ th.held = some k ∧ calm s = true ∧ s.integ.injArm = false ∧
    s.tables.damage = [] ∧ s.cache.asked = [] ∧ s.cache.got = [] ∧ isBuf sa = true ∧ BitVec.toNat sa % 512 = 0 ∧ (∀ i < 4,
      (ownHome s (thrHalf ↑t) (sa + BitVec.ofNat 52 (128 * i)) Rights.wr).isSome = true ∧
        rowClean s (key + i) = true ∧ noCopies s (key + i) = true) := by
  decide +kernel

theorem witness_ContextsKept_1 :
    let t : ThreadId := 5
    let s : State := rst
    let p : Sys2Proof.Part := 0
    let k : BitVec 6 := 1
    let sa : Sa := BitVec.ofNat 52 ((spReg s (BitVec.toNat p)).ctxBase.toNat * 4096 + 512 * k.toNat)
    let key : ℕ := bufKey sa
    let r : ℕ := memRead s.cache.data (128 * key) 512
    (thr s ↑t).phase = Phase.restoring p k ∧ calm s = true ∧ s.tables.damage = [] ∧ s.cache.asked = [] ∧ s.cache.got = [] ∧ isBuf sa = true ∧
    BitVec.toNat sa % 512 = 0 ∧ (∀ i < 4,
      (ownHome s (thrHalf ↑t) (sa + BitVec.ofNat 52 (128 * i)) Rights.rd).isSome = true ∧
        rowClean s (key + i) = true ∧ (metaAt s (key + i)).sp = 0) ∧ recordCrcOk r = true ∧ recordReservedOk r = true ∧
    fenced s (BitVec.ofNat 5 (r / 2 ^ (8 * 260 + 25))) = false := by
  decide +kernel

end Waiting

namespace Walks
def wA := running [(1, 5), (2, 0x8000000000000)] base
def rq : XlReq := { pva := 0x123456789abc, need := Rights.rd, kind := 0, silent := false, line := 0, num := 7 }
def rooted (s : State) : State := { s with cur := { s.cur with part := [(0, { PartReg.zero0 with rootEn := true, root := 0x8000000000 })] } }
def tA := modThr (rooted wA) 0 fun x => { x with xl := some rq, hit := none }
def wk0 : Walk := { id := 0, part := 0, vpage := 0x123456789, level := 3, table := 0x8000000000, rights := { r := true, w := true, a := true, x := true }, waiters := [{ t := 3, src := .instr, num := 2 }], noFill := false }
def tB := tA.onXlt fun x => { x with walksE := [wk0], walkIds := 5 }
def wk (l : Nat) : Walk := { wk0 with level := l, waiters := [{ t := 0, src := .instr, num := rq.num }] }
def ptr : Nat := 0x8000000001000 + 1 + 2 + 4
def leaf : Nat := 0x8000000003000 + 1 + 2 + 4 + 16
def lf (l : Nat) (e : Nat) (a : Nat) : State := (tA.onXlt fun x => { x with walksE := [wk l], walkIds := 5 }).onCache fun c => { c with data := memWrite [] a 8 e }
def ea (l : Nat) : Nat := 0x8000000000000 + 8 * (0x123456789 / 2 ^ (9 * l) % 512)
def tl (p : Part) (v : BitVec 36) (z : BitVec 2) : Tlb := { part := p, vpage := v, size := z, sa := 0, rights := Rights.rd, ref := false }
def tT := wA.onXlt fun x => { x with tlb := [(0, some (tl 0 5 0)), (3, some (tl 0 0 1)), (7, some (tl 1 5 0)), (9, some (tl 0 6 0)), (11, none)], ref := 3 }
def tI := tT.onXlt fun x => { x with inv := some { scope := 0, part := 0, page := 0, walks := [], waits := [], outs := [], units := [], posted := [] } }
def case1 : XInv := { scope := 0, part := 0, page := 0, walks := [], waits := [], outs := [], units := [], posted := [] }
def case2 : XInv := { case1 with outs := [(0, 5)] }
def tO := (modThr tT 0 fun x => { x with outs := [{ id := 5, line := 0, store := false, dest := 9, count := 1, result := none, pva := 0, viaRo := false, void := false }] }).onXlt
  fun x => { x with inv := some case2 }

theorem witness_Translation :
    let t : ThreadId := 0
    let src : XlSrc := XlSrc.instr
    (let s : State := tA
    let q : XlReq := rq
    let h : Half := thrHalf ↑t
    let p : Sys2Proof.Part := (thr s ↑t).part
    seqRuns s h = true ∧ warmFenced s = false ∧ calm s = true ∧ xlReqs s t src = [q] ∧ walkWaitOf s h = [] ∧ walks s h = [] ∧
    (partReg (walkView s h) (BitVec.toNat p)).rootEn = true) ∧
    let s : State := tB
    let q : XlReq := rq
    let h : Half := thrHalf ↑t
    let p : Sys2Proof.Part := (thr s ↑t).part
    let page : BitVec 36 := BitVec.extractLsb' 12 36 q.pva
    seqRuns s h = true ∧ warmFenced s = false ∧ calm s = true ∧ xlReqs s t src = [q] ∧ walkWaitOf s h = [] ∧
    let w : Walk := wk0
    walks s h = [w] ∧ w.part = p ∧ w.vpage = page ∧ w.noFill = false ∧ ({ t := t, src := src, num := q.num } : Miss) ∉ w.waiters := by
  decide +kernel

theorem witness_Translation_2 :
    let h : Half := Half.e
    let w : Walk := wk 3
    let s : State := lf 3 ptr (ea 3 % 2251799813685248)
    let x : Space := Space.buf 0 (ea 3 % 65536)
    let key : ℕ := ea 3 % 2251799813685248 / 128
    let ea : Sa := BitVec.ofNat 52 (w.table.toNat * 4096 + 8 * (w.vpage.toNat / 2 ^ (9 * w.level) % 512))
    walks s h = [w] ∧ walkWaitOf s h = [] ∧ seqRuns s h = true ∧ s.cache.asked = [] ∧ s.cache.got = [] ∧
    checkSa s (pipeView s h) 0 none Rights.rd ea = Except.ok x ∧ x.isDev = false ∧ isBuf ea = true ∧
    unavailable s (x.half h) h = false ∧
    lineHere s (LineOp.read (Span.bytes (BitVec.toNat ea % 128) 8 false) none false) ea 0 h (x.half h) key = true ∧
    (metaAt s key).sp = 0 ∧
    let e : ℕ := lineField s key (BitVec.toNat ea % 128) 8
    e.testBit 0 = true ∧ formatBad e w.level = false ∧ w.level ≠ 0 ∧ e.testBit 5 = false := by
  decide +kernel

theorem witness_Translation_3 :
    let h : Half := Half.e
    let w : Walk := wk 0
    let s : State := lf 0 leaf (ea 0 % 2251799813685248)
    let x : Space := Space.buf 0 (ea 0 % 65536)
    let key : ℕ := ea 0 % 2251799813685248 / 128
    let ea : Sa := BitVec.ofNat 52 (w.table.toNat * 4096 + 8 * (w.vpage.toNat / 2 ^ (9 * w.level) % 512))
    walks s h = [w] ∧ walkWaitOf s h = [] ∧ seqRuns s h = true ∧ s.cache.asked = [] ∧ s.cache.got = [] ∧
    checkSa s (pipeView s h) 0 none Rights.rd ea = Except.ok x ∧ x.isDev = false ∧ isBuf ea = true ∧
    unavailable s (x.half h) h = false ∧
    lineHere s (LineOp.read (Span.bytes (BitVec.toNat ea % 128) 8 false) none false) ea 0 h (x.half h) key = true ∧
    (metaAt s key).sp = 0 ∧
    let e : ℕ := lineField s key (BitVec.toNat ea % 128) 8
    let rights : Rights :=
          { r := w.rights.r && e.testBit 1, w := w.rights.w && e.testBit 2, a := w.rights.a && e.testBit 3,
            x := w.rights.x && e.testBit 4 }
    e.testBit 0 = true ∧ formatBad e w.level = false ∧
    let t : ThreadId := 0
    let q : XlReq := rq
    (w.level = 0 ∨ e.testBit 5 = true) ∧ w.waiters = [{ t := t, src := XlSrc.instr, num := q.num }] ∧ (thr s t.val).xl = some q ∧ (thr s ↑t).word = none ∧
    rights.pageGrants q.need = true ∧ w.noFill = false := by
  decide +kernel

theorem witness_Translation_4 :
    (let s : State := tI
    (domOn s 3 = true ∨ domOn s 4 = true) ∧ s.xlt.inv ≠ none ∧
    let i : XInv := case1
    s.xlt.inv = some i ∧ (∀ a ∈ i.walks, ∀ w ∈ walks s a.1, w.id ≠ a.2) ∧ i.waits = [] ∧
    (∀ a ∈ i.outs, ∀ o ∈ (thr s ↑a.1).outs, o.id ≠ a.2) ∧ (∀ c ∈ i.units, workLeft s c = false) ∧
    (∀ a ∈ i.posted, a ∉ s.cache.posted)) ∧
    (tO.xlt.inv = some case2 ∧ ∃ a ∈ case2.outs, ∃ o ∈ (thr tO a.1.val).outs, o.id = a.2) ∧
    let s : State := tT
    (domOn s 3 = true ∨ domOn s 4 = true) ∧ s.xlt.inv = none := by
  decide +kernel

end Walks

namespace Partners
def B : Sa := 0x8000000000000
def wP := ported 0 (base.onCache fun c => { c with data := [(0, 3), (35, 4), (127,9)] })
def wC := wP.onCch fun c => { c with clrBusy := 1 }
def shr := (setMeta (ported 1 (ported 2 wP)) 0 { Meta.zero with sharers := 0b1110 })
def sh1 := (setMeta (ported 1 (ported 2 wP)) 0 { Meta.zero with sharers := 0b1010 })
def iv := nextOf (exec (.wrl (hdr 1 B) 0xabcdef) sh1)
def case2 := match (iv.cache.invs.headD default).act with | .perform r => r | _ => default

theorem witness_PartnerAccesses :
    (let m : PHdr := hdr 1 (B + 32)
    let melt : Bool := true
    (let s : State := wP
    let h : Half := Half.e
    let key : ℕ := 0
    let n : ℕ := ↑m.port
    let op : Span → Option ℕ → LineOp := fun sp ro => LineOp.read sp ro melt
    let here : Span → Option ℕ → Prop := fun sp ro => lineHere s (op sp ro) m.sa m.part (portHalf n) h key = true
    portOpen s n = true ∧ memHome m Rights.rd m.sa s = Except.ok h ∧ (metaAt s key).sp = 0 ∧ here Span.sector none ∧
    here Span.line none ∧ here Span.sector (some n) ∧ s.cch.clrBusy.getLsbD n = false ∧ here Span.line (some n)) ∧
    let s : State := wC
    let h : Half := Half.e
    let key : ℕ := 0
    let n : ℕ := ↑m.port
    let op : Span → Option ℕ → LineOp := fun sp ro => LineOp.read sp ro melt
    let here : Span → Option ℕ → Prop := fun sp ro => lineHere s (op sp ro) m.sa m.part (portHalf n) h key = true
    portOpen s n = true ∧ memHome m Rights.rd m.sa s = Except.ok h ∧ (metaAt s key).sp = 0 ∧ here Span.sector none ∧
    here Span.line none ∧ here Span.sector (some n) ∧ s.cch.clrBusy.getLsbD n = true) ∧
    let m : PHdr := hdr 1 (B + 32)
    let s : State := wP
    let h : Half := Half.e
    let key : ℕ := 0
    let n : ℕ := ↑m.port
    let here : BitVec 128 → BitVec 1024 → Prop := fun mask d => lineHere s (LineOp.write mask d) m.sa m.part (portHalf n) h key = true ∧ noCopies s key = true
    memHome m Rights.wr m.sa s = Except.ok h ∧ s.integ.injArm = false ∧ (let data : BitVec 256 := 11259375#256
    here (sectorAt m.sa (BitVec.allOnes 32) data).1 (sectorAt m.sa (BitVec.allOnes 32) data).2) ∧ (let mask : BitVec 32 := 4660#32
    let data : BitVec 256 := 11259375#256
    mask ≠ 0 ∧ here (sectorAt m.sa mask data).1 (sectorAt m.sa mask data).2) ∧
    let data : BitVec 1024 := 11259375#1024
    m.cls ≠ 0 ∧ here (BitVec.allOnes 128) data := by
  decide +kernel

theorem witness_PartnerAccesses_8 :
    let m : PHdr := hdr 3 (B + 256)
    let s : State := wP
    let h : Half := Half.e
    let n : ℕ := ↑m.port
    let base : Sa := m.sa &&& ~~~4095
    let key : ℕ := bufKey base
    portOpen s n = true ∧ m.cls = 3 ∧ memHome m Rights.wr base s = Except.ok h ∧ isBuf base = true ∧ calm s = true ∧
    s.integ.injArm = false ∧ s.tables.damage = [] ∧ s.links.blocks = [] ∧ (∀ i < 32, rowClean s (key + i) = true ∧ noCopies s (key + i) = true) := by
  decide +kernel

theorem witness_PartnerAtomics :
    (let m : PHdr := hdr 1 (B + 32)
    let wide : Bool := true
    let v : BitVec 64 := 119#64
    let cmp : BitVec 64 := 119#64
    let s : State := wP
    let h : Half := Half.e
    let key : ℕ := 0
    let n : ℕ := ↑m.port
    portOpen s n = true ∧ ((BitVec.toNat m.sa % if wide = true then 8 else 4) = 0) ∧ memHome m Rights.atom m.sa s = Except.ok h ∧
    (wide = true ∨ v.toNat < 2 ^ 32 ∧ cmp.toNat < 2 ^ 32) ∧ lineHere s (LineOp.atu 0) m.sa m.part (portHalf n) h key = true ∧
    noCopies s key = true ∧ findAtom s h s.atu.ids = none) ∧
    let v : BitVec 64 := 657129996288#64
    let cmp : BitVec 64 := 119#64
    2 ^ 32 ≤ v.toNat ∧ (2 ^ 32 ≤ v.toNat ∨ 2 ^ 32 ≤ cmp.toNat) := by
  decide +kernel

theorem witness_PartnerBlocks :
    (let m : PHdr := hdr 1 B
    let sel : BitVec 2 := 2
    let s : State := wP
    let n : ℕ := ↑m.port
    let h : Half := if sel = 0 then Half.e else if sel = 1 then Half.w else portHalf n
    let q : PartReg := partReg (allocView s h) (BitVec.toNat m.part)
    sel ≠ 3 ∧ portOpen s n = true ∧ calm s = true ∧ mayAct s (allocView s h) m.part (some n) = true ∧
    unavailable s h (portHalf n) = false ∧ (m.part = 0 ∨ (used s h m.part).toNat < min 196608 (h.pick q.quotaE q.quotaW).toNat) ∧
    twf Blk.zero s.buf.blk = true ∧ twf Region.zero s.tables.region = true ∧ freeCount s h ≠ 0) ∧
    let m : PHdr := hdr 1 B
    let b : ℕ := 0
    let s : State := wP
    let n : ℕ := ↑m.port
    freeTarget s (pipeView s (portHalf n)) m.part (some n) (portHalf n) m.sa = Except.ok b ∧ (region s (b / 1024)).state = 2 ∧
    (blk s b).st = 3 ∧ ((blk s b).owner = m.part ∨ m.part = 0) ∧
    (∀ e ∈ s.cache.line, e.1 / 512 = b → e.2.sharers = 0 ∧ e.2.rheld = false) := by
  decide +kernel

theorem witness_WriteInvalidation :
    let m : PHdr := hdr 1 B
    let data : BitVec 1024 := 11259375#1024
    let s : State := shr
    let h : Half := Half.e
    let key : ℕ := 0
    let n : ℕ := ↑m.port
    let sh : BitVec 24 := (metaAt s key).sharers
    portOpen s n = true ∧ m.cls ≠ 0 ∧ memHome m Rights.wr m.sa s = Except.ok h ∧ isBuf m.sa = true ∧
    lineHere s (LineOp.write (BitVec.allOnes 128) data) m.sa m.part (portHalf n) h key = true ∧ (metaAt s key).rheld = false ∧
    s.cch.clrBusy = 0 ∧ sh.toNat < 64 ∧ (∃ k < 6, sh.getLsbD k = true ∧ portLive s k = true) := by
  decide +kernel

theorem witness_WriteInvalidation_1 :
    let port : PartnerPort := 1
    let p : PartnerPort := 0
    let c : Fin 4 := 1
    let tag : BitVec 12 := (iv.cache.invs.headD default).tag
    let tg : BitVec 12 := 5
    let sa : Sa := B
    let s : State := iv
    let o : InvOp := iv.cache.invs.headD default
    let r : LineReq := case2
    let mask : BitVec 128 := BitVec.allOnes 128
    let d : BitVec 1024 := 11259375#1024
    portActive s ↑port = true ∧ portActive s ↑p = true ∧ onlyInv o s ∧ o.tag = tag ∧ o.line = lineOf sa ∧ o.replica = false ∧
    (∀ k < 6, o.ports.getLsbD k = decide (k = ↑port)) ∧ o.act = InvAct.perform r ∧ r.op = LineOp.write mask d ∧
    r.who = Who.port p c tg ∧ s.integ.injArm = false := by
  decide +kernel

end Partners

namespace Sharers
def hx : HalfMsg := .install 0 0 0x1234 true 99 0 (some 0)
def cW := (cached base).onTables fun t => { t with gt := [(8192, { group := 128, valid := true })], region := [(196, { state := 1, busy := false, retired := false })] }
def i1 := (cW.onCache fun c => { c with line := [(196*524288, {Meta.zero with sv := 15, tag := 5})], toW := [hx] })
def i2 := ((cached base).onCache fun c => { c with line := [(2097152, {Meta.zero with sv := 15, rheld := true})], toE := [.drop 0] })
def op : InvOp := { home := .e, key := 2097152, line := 0, tag := 4, ports := 0b11, replica := true, ackHome := false, sent := [(0, 0), (1, 0)], act := .evict }
def i3 := ((cached base).onCache fun c => { c with line := [(2097152, {Meta.zero with sv := 15, rheld := true, sharers := 3})], toW := [.inv 0 0], invs := [op] })
def i4 := ported 1 (ported 0 (((cached base).onCache fun c => { c with line := [(2097152, {Meta.zero with sv := 15, sharers := 3})], invs := [{ op with replica := false }] }))) |>.onClk fun c => { c with time := 500000 }
def case1 := {op with replica := false}
def case2 := i4.onCch fun c => { c with clrBusy := 3}
def case3 := i4.onCache fun c => { c with stopE := true, stopW := true, invs := [] }

theorem witness_SharersKept :
    let h : Half := Half.w
    let s : State := i1
    let rest : List HalfMsg := []
    domRuns s 5 = true ∧ domRuns s 6 = true ∧
    let first : HalfMsg → Prop := fun x => h.pick s.cache.toE s.cache.toW = x :: rest
    let line : Sa := 0
    let p : Sys2Proof.Part := 0
    let d : BitVec 1024 := 4660#1024
    let crcV : Bool := true
    let crc : BitVec 32 := 99#32
    let key : ℕ := 196 * 524288 + 1
    let e : GtEnt := gtLive s h 0
    let k0 : Nat := setKey h e.group.toNat (farSet line)
    first (HalfMsg.install line p d crcV crc 0 (some 0)) ∧ calm s = true ∧ e.valid = true ∧ rowClean s k0 = true ∧
    ((List.filter (fun k => (metaAt s k).replica) (waysOf k0)).length < 2) ∧ victim s k0 = some (key, s) ∧ (metaAt s key).sv = 0 := by
  decide +kernel

theorem witness_SharersKept_1 :
    let h : Half := Half.e
    let s : State := i2
    let rest : List HalfMsg := []
    domRuns s 5 = true ∧ domRuns s 6 = true ∧
    let first : HalfMsg → Prop := fun x => h.pick s.cache.toE s.cache.toW = x :: rest
    let line : Sa := 0
    let key : ℕ := 2097152
    first (HalfMsg.drop line) ∧ calm s = true ∧ findLine s h line false = some key := by
  decide +kernel

theorem witness_SharersKept_2 :
    let h : Half := Half.w
    let s : State := i3
    let rest : List HalfMsg := []
    domRuns s 5 = true ∧ domRuns s 6 = true ∧
    let first : HalfMsg → Prop := fun x => h.pick s.cache.toE s.cache.toW = x :: rest
    let line : Sa := 0
    let p : Sys2Proof.Part := 0
    let o : InvOp := op
    first (HalfMsg.inv line p) ∧ findLine s h line true = none ∧ onlyInv o s ∧ o.line = line ∧ o.home = h.other ∧ o.ports ≠ 0 := by
  decide +kernel

theorem witness_SharersKept_3 :
    (let s : State := case2
    (let port : PartnerPort := 0
    let o : InvOp := case1
    portActive s ↑port = true ∧ onlyInv o s ∧ o.ports.getLsbD ↑port = true ∧ (port.val, (0 : BitVec 64)) ∈ o.sent ∧ due s 0 (1000 * max 10 s.cch.invTmo.toNat) = true ∧
    (∃ k < 6, k ≠ ↑port ∧ o.ports.getLsbD k = true)) ∧
    let k : Fin 24 := 0
    s.cch.clrBusy.getLsbD ↑k = true ∧ (∀ e ∈ s.cache.line, e.2 = metaAt s e.1)) ∧
    let s : State := case3
    let h : Half := Half.e
    h.pick s.cache.stopE s.cache.stopW = true ∧ calm s = true ∧ replicasIn s h = [] := by
  decide +kernel

end Sharers

namespace Linking
def at_ (n : Nat) (k : BitVec 3) (t : Nat) : State := ((setPort (ported n base) n { port (ported n base) n with state := k, failed := 3 }).onClk fun c => { c with time := BitVec.ofNat 64 t }).onPwr fun p => { p with }
def lcfg (r : BitVec 8) (p : BitVec 16) (c : BitVec 16) : LinkCfg := { role := r, port := 0, slice := 0, width := 16, credits := { c0 := c, c1 := 64, c2 := 64, c3 := 8, invsc := 8 }, proto := p }
def pg (n : Nat) (rx : List Frame) := modLink (at_ n 4 2000000) n fun x => { x with pingAt := some 5, rx := rx }

theorem witness_LinkStates :
    let n : PortId := 0
    let st (s : State) (k : BitVec 3) : Prop := (port s n).state = k
    st (at_ 0 1 0) 1 ∧
    (let s := at_ 0 2 50000000;
    st s 2 ∧ s.loops.frz.getLsbD (eqLoop n) = false ∧ (port s n).spares ≠ 0 ∧ (port s n).sub16 = 0x1F ∧
    due s (port s n).since 50000000 = true) ∧
    (let s := (at_ 0 2 0).onLoops fun x => { x with frz := 4 };
    st s 2 ∧ s.loops.frz.getLsbD (eqLoop n) = true) ∧
    (let s := at_ 0 3 1000000;
    st s 3 ∧ due s (port s n).since 1000000 = true ∧
    (let cfg := lcfg 0 1 8;
    (cfg.role = if n.val < 6 then 0 else 2) ∧ cfg.proto = 1 ∧ creditsOk n cfg.credits = true ∧ calm s = true ∧ s.cache.pool = [] ∧
    (link s n).buf = [] ∧ (link s n).wait = []) ∧
    let cfg := lcfg 2 1 8
    (cfg.role ≠ if n.val < 6 then 0 else 2) ∨ cfg.proto ≠ 1 ∨ creditsOk n cfg.credits = false) ∧
    let s := at_ 0 6 100000
    st s 6 ∧ due s (port s n).since 100000 = true := by
  decide +kernel

theorem witness_LinkStates_7 :
    let n : PortId := 0
    let calmLinks (s : State) : Prop := calm s = true ∧ s.cache.pool = [] ∧ s.cache.offers = []
    let ping := Frame.mk0 0xC1 7 0 0x80 0
    (let s := pg 0 [ping];
    portActive s n = true ∧ (link s n).rx = [ping] ∧ ping.opc = 0xC1) ∧
    (let s := at_ 0 4 100000;
    portActive s n = true ∧ due s (link s n).lastFrame 10000 = true ∧ (link s n).pingAt = none) ∧
    (let s := pg 0 [];
    portActive s n = true ∧ (link s n).pingAt = some 5#64 ∧ due s 5#64 100000 = true ∧ calmLinks s) ∧
    (let s := at_ 0 5 2000000;
    (port s n).state = 5 ∧ due s (port s n).since 2000000 = true ∧ calmLinks s) ∧
    let s := at_ 0 1 0
    domOn s (portDom n) = true ∧ (port s n).state ≠ 0 ∧ (port s n).state ≠ 6 ∧ calmLinks s := by
  decide +kernel

theorem witness_LinkStates_13 :
    let n : PortId := 0
    (let s := at_ 0 4 100000;
    portActive s n = true ∧ domOn s (portDom n) = true ∧ due s (link s n).lastBlock 10000 = true) ∧
    let s := at_ 0 5 2000000
    (port s n).state = 5 ∧ withholds s = false ∧ (link s n).buf = [] ∧ (link s n).wait = [] ∧ calm s = true ∧ s.cache.pool = [] := by
  decide +kernel

end Linking

namespace Lanes
def f1 : Frame := { Frame.mk0 0x81 5 0 0 2 with data := toBytes 128 77 }
def f2 : Frame := { Frame.mk0 0x80 6 0 0 1 with data := [] }
def L (r : Nat) (u : Nat) (bs : BitVec 10) : State := (modLink (ported 0 base) 0 fun x => { x with tx := [(f1, 0), (f1, 1), (f2, 0)], base := bs, replays := r, unacked := u, expect := 0x3ff, freed := { c0 := 1, c1 := 5, c2 := 3, c3 := 0, invsc := 0 }, cred := { x.cred with c1 := 0xFFF0 } }).onClk fun c => { c with time := 10000 }
def fl (k : BitVec 2) (v : Nat) : Flit := { kind := k, cls := 1, sof := true, eof := true, invsc := false, content := BitVec.ofNat 496 v }
def case3 : Sparing := { lane := 3, spare := false, since := 0, block := 7 }
def case2 := (modLink (L 0 3 5) 0 (fun x => { x with sparing := some case3 })).onClk (fun c => { c with time := 100000 })
def withheld := (L 0 3 5).onPwr fun p => { p with resetSt := .cold }

theorem witness_LinkBlocks :
    let n : PortId := 0
    (let s := L 0 3 5;
    let x := link s n;
    portActive s n = true ∧ 2 ≤ x.tx.length ∧ x.buf = [] ∧ x.wait = [] ∧ txFlits x ≠ 0 ∧ x.replays < 2 ∧ due s x.progress 10000 = true ∧
    x.unacked ≠ 0 ∧ withholds s = false) ∧
    (let s := L 2 0 1022;
    let x := link s n;
    portActive s n = true ∧ 3 ≤ x.tx.length ∧ x.buf = [] ∧ x.wait = [] ∧ txFlits x ≠ 0 ∧ 2 ≤ x.replays ∧ due s x.progress 10000 = true ∧
    x.unacked = 0 ∧ x.freed ≠ Credits.zero) ∧
    let s := withheld
    portActive s n = true ∧ (link s n).unacked ≠ 0 ∧ withholds s = true := by
  decide +kernel

theorem witness_LinkBlocks_5 :
    let n : PortId := 0
    let s := L 0 3 5
    let x := link s n
    (port s n).state = 4 ∧ withholds s = false ∧ x.wait = [] ∧
    (let bseq : BitVec 8 := 7;
    bseq ≠ x.expect.setWidth 8 ∧ x.nak = false) ∧
    let bseq : BitVec 8 := 255
    let f := fl 1 1
    let idle : List Flit := []
    bseq = x.expect.setWidth 8 ∧ f.kind = 1 ∧ f.sof = true ∧ f.eof = true ∧ (∀ g ∈ idle, g.kind = 0) ∧ x.open_ = [] ∧
    x.unacked < 63 ∧ rxHeld x f.cls f.invsc < creditOf (sliceCredits n) f.cls f.invsc ∧
    let g := parseFrame n f.cls f.invsc (toBytes 62 f.content.toNat)
    (∃ k, opcData n g.opc.toNat g.aux.toNat = some k ∧ k ≤ 46) := by
  decide +kernel

theorem witness_LaneSparing :
    let n : PortId := 0
    let lane : BitVec 5 := 3
    (let s := case2;
    let x := link s n;
    let p := port s n;
    portActive s n = true ∧ lane.toNat < 16 ∧ p.sub16 = 0x1F ∧ p.spares ≠ 0 ∧ x.sparing = some case3 ∧ case3.lane = lane ∧
    case3.spare = false ∧ case3.block ≠ 8 ∧ due s case3.since 100000 = true) ∧
    let s := L 0 3 5
    let x := link s n
    let p := port s n
    portActive s n = true ∧ domOn s (portDom n) = true ∧ lane.toNat < 16 ∧ x.sparing = none ∧ p.sub16 = 0x1F ∧ p.spares ≠ 0 ∧
    calm s = true := by
  decide +kernel

end Lanes

namespace Shelves
def rq : LineReq := { who := .port 0 1 5, op := .read .line none false, sa := 0x20, part := 0, arrival := .e, home := .e, gi := some 0, gia := some 0, pref := false, master := some 0, waited := false }
def pq : PoolReq := { kind := .fill, home := .e, tag := 9, line := 0, port := some 0, since := 0, aux := 0, var := 0, mask := 15, data := 0, lcrc := none, part := 0, who := .mshr }
def ms : Mshr := { home := .e, line := 0, part := 0, key := 2097152, fetch := 15, waiters := [rq], evicting := false, full := false, pf := false, retried := false, asked := 15, tag := 9 }
def sF := (ported 0 (ported 6 (cached base))).onCache fun c => { c with pool := [pq], mshr := [ms], line := [] }
def rw : LineReq := { rq with op := .write 0xff 0x77 }
def pw : PoolReq := { pq with kind := .wt, who := .uncached rw }
/-- A write of the first two sectors, the first of which is on its way. -/
def pw2 : PoolReq := { pq with kind := .wt, var := 1, who := .uncached { rq with op := .write (BitVec.ofNat 128 (2 ^ 32 + 1)) 0x77 } }
def sW := (ported 0 (ported 6 (cached base))).onCache fun c => { c with pool := [pw] }
def of : Offer := { home := .e, port := 0, tag := 9, line := 0, part := 0, valid := 5, poison := 0, data := 0x1234, lcrc := none, since := 0 }
def sO := ((ported 0 (ported 6 (cached base))).onCache fun c => { c with offers := [of] }).onClk fun c => { c with time := 10000 }
def pb : PoolReq := { pq with kind := .wb, who := .none }
def sB := ((ported 6 (cached base)).onCache fun c => { c with pool := [pb], line := [(2097152, { Meta.zero with sv := 15, sp := 2, sd := 1 })] }).onClk fun c => { c with time := 1000000 }

theorem witness_ShelfResponses :
    let f : Fin 2 := 0
    let tag : BitVec 12 := 9
    let tg : BitVec 12 := 5
    let sa : Sa := 32
    let s : State := sF
    let q : PoolReq := pq
    let x : Mshr := ms
    let r : LineReq := rq
    let p : PartnerPort := 0
    let c : Fin 4 := 1
    portActive s (6 + ↑f) = true ∧ portActive s ↑p = true ∧ s.cache.pool = [q] ∧ q.kind = PoolKind.fill ∧ q.tag = tag ∧
    q.port = some f ∧ q.who = PoolWho.mshr ∧ q.mask = 15 ∧ q.var = 0 ∧ lineOf q.line = lineOf sa ∧ s.cache.mshr = [x] ∧
    x.home = q.home ∧ x.line = q.line ∧ x.evicting = false ∧ x.fetch = 15 ∧ x.waiters = [r] ∧
    r.op = LineOp.read Span.line none false ∧ r.who = Who.port p c tg ∧
    calm (s.onCache fun k => { k with mshr := [], pool := [] }) = true ∧ rowClean s x.key = true ∧ s.integ.injArm = false := by
  decide +kernel

theorem witness_ShelfResponses_1 :
    let f : Fin 2 := 0
    let tag : BitVec 12 := 9
    let tg : BitVec 12 := 5
    let sa : Sa := 32
    (let s : State := sO
    portActive s (6 + ↑f) = true ∧ (let o : Offer := of
    let g : Fin 2 := 0
    calm s = true ∧ s.cache.offers = [o] ∧ o.tag = tag ∧ o.line = lineOf sa ∧ o.poison = 0 ∧ o.lcrc = none ∧
    poolPort s o.line = some g) ∧
    let o : Offer := of
    due s o.since 10000 = true) ∧
    let s : State := sW
    portActive s (6 + ↑f) = true ∧
    let q : PoolReq := pw
    let r : LineReq := rw
    let p : PartnerPort := 0
    let c : Fin 4 := 1
    let mask : BitVec 128 := 255#128
    let d : BitVec 1024 := 119#1024
    calm s = true ∧ s.cache.pool = [q] ∧ q.kind = PoolKind.wt ∧ q.tag = tag ∧ q.port = some f ∧ q.who = PoolWho.uncached r ∧
    r.op = LineOp.write mask d ∧ r.who = Who.port p c tg ∧ lineOf q.line = lineOf sa ∧ portActive s ↑p = true ∧ q.var = 0 := by
  decide +kernel

theorem witness_ShelfResponses_2 :
    let q := pw2
    let mask : BitVec 128 := BitVec.ofNat 128 (2 ^ 32 + 1)
    let r : LineReq := { rq with op := .write mask 0x77 }
    let s : State := sW.onCache fun c => { c with pool := [q] }
    portActive s 6 = true ∧ calm s = true ∧ q.kind = .wt ∧ q.tag = 9 ∧ q.port = some 0 ∧ q.who = .uncached r ∧
    r.op = .write mask 0x77 ∧ r.who = .port 0 1 5 ∧ lineOf q.line = lineOf 32 ∧ portActive s 0 = true ∧
    q.var ≠ 0 ∧ withoutSector mask (firstSector mask) ≠ 0 := by
  decide +kernel

theorem witness_ShelfResponses_5 :
    let f : Fin 2 := 0
    let tag : BitVec 12 := 9
    let s : State := sB
    portActive s (6 + ↑f) = true ∧ (let sa : Sa := 0
    let etype : BitVec 8 := 1
    let h : Half := Half.e
    decodeSa s s.cur sa = Except.ok (Space.far h) ∧ homeUp s h = true ∧ etype.toNat ≤ 1) ∧
    let q : PoolReq := pb
    calm s = true ∧ s.cache.pool = [q] ∧ s.cache.offers = [] ∧ q.kind = PoolKind.wb ∧ q.tag = tag ∧ q.port = some f ∧
    portActive s (6 + (1 - ↑f)) = false ∧ due s q.since 1000000 = true := by
  decide +kernel

end Shelves

namespace Clocks
def lk (b : Bool) := (ported 3 (ported 6 base)).onClk fun c => { c with pllLock := b, time := 0x123456789ABCDEF0, latch := [(5, some 77), (78, some 0x55)] }
/-- Both LRS loops at 850 mV, last evaluated at `last`. -/
def lrs (last : BitVec 64) : State :=
  (base.onLoops fun l => { l with loop := (List.range 2).map fun n => (n, { Loop.reset n with en := true, value := 850 }),
                                  mem := [(0, { LoopMem.reset with last := some last })] }).onClk fun c => { c with time := 1000000 }
def av (f : Nat) (w : List (BitVec 64 × BitVec 16)) : State :=
  (base.onLoops fun l => { l with avsE := { cmds := [(500, 800), (100, 850)], writes := w, reads := [600, 700], fails := f } }).onClk fun c =>
    { c with time := 600 }

theorem witness_ClockEvents :
    (let s : State := lk true
    s.clk.pllLock = true) ∧
    let s : State := lk false
    s.pwr.vaon = true ∧ s.clk.pllLock = false := by
  decide +kernel

theorem witness_SupplyLoop :
    let h : Half := .e
    let at_ (f : Nat) : Prop :=
      let s := av f [(900, 800)];
      let a := avsOf s h;
      let near (mv : BitVec 16) : Prop := ∃ c ∈ avsRefs a.cmds 600, mv.toNat ≤ c.2.toNat + 10 ∧ c.2.toNat ≤ mv.toNat + 10;
      a.writes = [(900, 800)] ∧ a.reads = [600, 700] ∧ (600 : Nat) ≤ s.clk.time.toNat ∧ a.writes.all (fun w => decide (600 < w.1.toNat)) = true ∧ a.fails = f ∧
      ¬ near 789 ∧ near 810
    at_ 0 ∧ at_ 2 := by
  decide +kernel

theorem witness_SupplyLoop_1 :
    let h : Half := .e
    let at_ (last : BitVec 64) (P : LoopMem → State → Prop) : Prop :=
      let s := lrs last;
      let n := h.idx;
      let l := loopOf s n;
      loopOn s n = true ∧ loopLive s n = true ∧ l.devFault = false ∧ l.lo.toNat ≤ (loopOut l).toNat ∧ (loopOut l).toNat ≤ l.hi.toNat ∧
      l.hi.toNat ≤ 900 ∧ P (tget LoopMem.reset s.loops.mem n) s
    at_ 0 (fun m s => longAgo s m.last 1000 = true) ∧ at_ 999500 (fun m s => longAgo s m.last 1000 = false) := by
  decide +kernel

end Clocks

namespace Laws
/-- Every loop enabled, each with evaluations that are due, one of them of 256 ends. -/
def lm : LoopMem := { LoopMem.reset with ready := [(256, 200), (0, 0)] }
def st : State :=
  ((base.onLoops fun l => { l with loop := (List.range 14).map fun n => (n, { Loop.reset n with en := true, target := 0 }),
                                   mem := (List.range 14).map fun i => (i, lm) }).onClk fun c => { c with time := 100000000000 }).onSense
    fun x => { x with valid := (List.range 24).map fun n => (n, true), temp := (List.range 24).map fun n => (n, BitVec.ofNat 12 (0x250 + n)) }
def eq := ported 7 (ported 0 st)
def bw (b : Bool) (f : Nat) : State :=
  let s := ported 3 { base with cur := { base.cur with bwrEn := b, mcfg := [(3, { MCfg.zero with floor := BitVec.ofNat 14 f }), (5, { MCfg.zero with floor := 9, ceil := 9, prio := 2 })] } }
  (s.onBwr fun x => { x with ms := [(3, { MStat.zero with count := 2, last := 4 }), (5, {MStat.zero with count := 9})], allE := 7, allW := 3, plowE := 2, window := 1999 }).onClk fun c => { c with time := 2000 }
/-- The same before the boundary. -/
def bwIn (b : Bool) (f : Nat) : State := (bw b f).onClk fun c => { c with time := 1999 }

theorem witness_LoopLaws :
    let h : Half := .e
    let s : State := st
    let mem (n : Nat) : LoopMem := tget LoopMem.reset s.loops.mem n
    let live (n : Nat) : Prop := loopOn s n = true ∧ loopLive s n = true
    (let n := 4 + h.idx;
    ((mem n).ready ≠ [] ∨ due s (mem n).hour 3600000000000 = true) ∧ live n) ∧
    (let n := 6 + h.idx;
    (hottest s h).isSome = true ∧ longAgo s (mem n).last 100000 = true ∧ live n) ∧
    (let n := 8 + h.idx;
    (mem n).ready = [(256, 200), (0, 0)] ∧ live n) ∧
    (let n := 10 + h.idx;
    (mem n).ready = [(256, 200), (0, 0)] ∧ live n) ∧
    let n := 12 + h.idx
    (mem n).ready = [(256, 200), (0, 0)] ∧ live n := by
  decide +kernel

theorem witness_LoopLaws_4 :
    let s : State := st.onLoops fun l => { l with mem := (List.range 14).map fun i => (i, { lm with ready := [(0, 0)] }) }
    let n := 8 + Half.e.idx
    (tget LoopMem.reset s.loops.mem n).ready = [(0, 0)] ∧ loopOn s n = true ∧ loopLive s n = true := by
  decide +kernel

theorem witness_LoopLaws_6 : 16 * (0 : PortId).val + (5 : Fin 16).val ∈ (laneRatios eq false).map (·.1) ∧
    (loopOf eq 2).target.toNat ≤ (worstRatio (laneRatios eq false)).toNat ∧ calm eq = true ∧ loopLive eq 2 = true := by
  refine ⟨by decide +kernel, ?_, by decide +kernel, by decide +kernel⟩
  · rw [show (loopOf eq 2).target.toNat = 0 by decide +kernel]; exact Nat.zero_le _

theorem witness_Regulation :
    let h : Half := .e
    let at_ (s : State) (ready : BitVec 22) (P : Staged → (Nat → Prop) → Prop) : Prop :=
      let v := bwrView s h;
      let below (m : Nat) : Prop := m < 22 ∧ ready.getLsbD m = true ∧ masterUp s m = true ∧ (mstat s h m).count < (mcfg v h m).floor.toNat;
      domOn s (h.pick 3 4) = true ∧ P v below
    at_ (bw false 3) 8 (fun v _ => (bw false 3).bwr.window.toNat / 1000 < (bw false 3).clk.time.toNat / 1000 ∧ v.bwrEn = false) ∧
    at_ (bwIn true 3) 8 (fun v below => (bwIn true 3).clk.time.toNat / 1000 ≤ (bwIn true 3).bwr.window.toNat / 1000 ∧ v.bwrEn = true ∧ below 3) ∧
    at_ (bwIn false 3) 8 (fun v _ => v.bwrEn = false) ∧ at_ (bwIn true 3) 0 (fun _ _ => True) ∧
    let s := bw true 3
    s.bwr.window.toNat / 1000 < s.clk.time.toNat / 1000 ∧ s.glb.lag.getLsbD 6 = false ∧ s.glb.lag.getLsbD 7 = false := by
  decide +kernel

/-- With regulation on and every ready master at its floor, nobody is below it. -/
theorem witness_Regulation_3 :
    let s := bwIn true 2
    let v := bwrView s .e
    domOn s 3 = true ∧ v.bwrEn = true ∧ masterUp s 3 = true ∧
    ¬ ∃ m, m < 22 ∧ (8#22).getLsbD m = true ∧ masterUp s m = true ∧ (mstat s .e m).count < (mcfg v .e m).floor.toNat := by
  decide +kernel

end Laws

namespace Epochs
def ep (lag : BitVec 26) (p : Bool) : State := { stands 0x92 (fields 3 0 0 0 0 0) [] base with shadow := { base.cur with bwrEn := true, mcfg := [(3, { MCfg.zero with floor := 5})] } }.onGlb fun g => { g with lag := lag, pending := p, epoch := 7 }

theorem witness_EpochAdvances :
    (let t : ThreadId := 0
    let f : TFields := fields 3 0 0 0 0 0
    (let s : State := ep 0 false
    issues t [f.d.toNat] s ∧ standsAt t (.epoch t f) s ∧ f.a = 0 ∧ f.b = 0 ∧ f.v = 0 ∧ f.c = 0 ∧ f.imm = 0 ∧
    let s1 : State := fetched t s
    (thr s ↑t).part = 0 ∧ epochReason s1 = 0 ∧ epochUnits s1 ≠ 0) ∧
    let s : State := ep 5 true
    issues t [f.d.toNat] s ∧ standsAt t (.epoch t f) s ∧
    let s1 : State := fetched t s
    (thr s ↑t).part = 0 ∧ epochReason s1 ≠ 0) ∧ (let s : State := ep 5 true
    epochReason s ≠ 0 ∧ s.glb.pending = true) ∧
    let s : State := ep 0 false
    epochReason s = 0 ∧ epochUnits s ≠ 0 := by
  decide +kernel

theorem witness_EpochAdvances_5 :
    (let s : State := ep 5 true
    let i : Fin 26 := 0
    s.glb.lag.getLsbD ↑i = true ∧ (↑i < 2 ∨ 7 < ↑i) ∧ setBit s.glb.lag (↑i) false ≠ 0) ∧
    let s : State := ep 1 true
    let i : Fin 26 := 0
    s.glb.lag.getLsbD ↑i = true ∧ setBit s.glb.lag (↑i) false = 0 ∧ s.glb.pending = true ∧ s.glb.note = 0 := by
  decide +kernel

end Epochs

namespace Plowing
def cm (op : BitVec 4) : PlowCmd := { op := op, scope := 2, part := 0, half := .e, arg0 := 0, arg1 := 0, user := none, seq := 4, started := true, workE := [2097152, 2097153], workW := [], code := 0, clears := [] }
def k0 : Nat := 2097152
def ps (op : BitVec 4) : State := ((ported 6 (cached base)).onCch fun c => { c with plow := [cm op, cm 1] }).onCache fun c => { c with line := [(k0, { Meta.zero with sv := 15, sd := 5, sp := 4, lcrcV := true, lcrc := 0x77, ref := true, part := 1 })], data := [(128 * k0, 7)] }
def cd (op : BitVec 4) (code : BitVec 4) : PlowCmd := { cm op with workE := [], code := code, arg0 := 4, arg1 := if op == 8 then 2 else 0x8085, scope := 0 }
def pd (op : BitVec 4) (code : BitVec 4) (busy : Bool) : State := (((ported 6 (cached base)).onCch fun c => { c with plow := [cd op code], done := 0xFFFFFFFF }).onTables fun t => { t with region := [(4, { state := 0, busy := busy, retired := false })] }).onCache fun c => { c with line := [], data := [(2 ^ 26 * 4, 7), (2 ^ 26 * 4 + 2^26 - 1, 7), (2^26*5, 9)] }

theorem witness_PlowSteps :
    let h : Half := Half.e
    let key : ℕ := k0
    let s : State := ps 1
    let c : PlowCmd := cm 1
    let cs : List PlowCmd := [cm 1]
    let g : Fin 2 := 0
    let m : Meta := metaAt s key
    s.cch.plow = c :: cs ∧ c.started = true ∧ key ∈ h.pick c.workE c.workW ∧ domRuns s (h.pick 3 4) = true ∧
    domRuns s (h.pick 5 6) = true ∧ warmFenced s = false ∧ calm s = true ∧ rowClean s key = true ∧ c.scope = 2 ∧ m.sv ≠ 0 ∧
    m.pinned = false ∧ m.replica = false ∧ noCopies s key = true ∧ s.cache.pool = [] ∧ s.cache.offers = [] ∧ poolPort s (saOf s key) = some g ∧ c.op = 1 ∧
    m.sd ≠ 0 := by
  decide +kernel

theorem witness_PlowSteps_1 :
    let h : Half := Half.e
    let key : ℕ := k0
    let s : State := ps 2
    let c : PlowCmd := cm 2
    let cs : List PlowCmd := [cm 1]
    let g : Fin 2 := 0
    let m : Meta := metaAt s key
    s.cch.plow = c :: cs ∧ c.started = true ∧ key ∈ h.pick c.workE c.workW ∧ domRuns s (h.pick 3 4) = true ∧
    domRuns s (h.pick 5 6) = true ∧ warmFenced s = false ∧ calm s = true ∧ rowClean s key = true ∧ c.scope = 2 ∧ m.sv ≠ 0 ∧
    m.pinned = false ∧ m.replica = false ∧ noCopies s key = true ∧ s.cache.pool = [] ∧ s.cache.offers = [] ∧ poolPort s (saOf s key) = some g ∧ c.op = 2 := by
  decide +kernel

theorem witness_PlowSteps_2 :
    let h : Half := Half.e
    let key : ℕ := k0
    let s : State := ps 3
    let c : PlowCmd := cm 3
    let cs : List PlowCmd := [cm 1]
    let g : Fin 2 := 0
    let m : Meta := metaAt s key
    s.cch.plow = c :: cs ∧ c.started = true ∧ key ∈ h.pick c.workE c.workW ∧ domRuns s (h.pick 3 4) = true ∧
    domRuns s (h.pick 5 6) = true ∧ warmFenced s = false ∧ calm s = true ∧ rowClean s key = true ∧ c.scope = 2 ∧ m.sv ≠ 0 ∧
    m.pinned = false ∧ m.replica = false ∧ noCopies s key = true ∧ s.cache.pool = [] ∧ s.cache.offers = [] ∧ poolPort s (saOf s key) = some g ∧ c.op = 3 ∧
    m.sd ≠ 0 := by
  decide +kernel

theorem witness_PlowSteps_3 :
    let h : Half := Half.e
    let key : ℕ := k0
    let s : State := ps 4
    let c : PlowCmd := cm 4
    let cs : List PlowCmd := [cm 1]
    let g : Fin 2 := 0
    let m : Meta := metaAt s key
    s.cch.plow = c :: cs ∧ c.started = true ∧ key ∈ h.pick c.workE c.workW ∧ domRuns s (h.pick 3 4) = true ∧
    domRuns s (h.pick 5 6) = true ∧ warmFenced s = false ∧ calm s = true ∧ rowClean s key = true ∧ c.scope = 2 ∧ m.sv ≠ 0 ∧
    m.pinned = false ∧ m.replica = false ∧ noCopies s key = true ∧ s.cache.pool = [] ∧ s.cache.offers = [] ∧ poolPort s (saOf s key) = some g ∧ c.op = 4 := by
  decide +kernel

theorem witness_PlowSteps_4 :
    let h : Half := Half.e
    let key : ℕ := k0
    let s : State := ps 5
    let c : PlowCmd := cm 5
    let cs : List PlowCmd := [cm 1]
    let g : Fin 2 := 0
    let m : Meta := metaAt s key
    s.cch.plow = c :: cs ∧ c.started = true ∧ key ∈ h.pick c.workE c.workW ∧ domRuns s (h.pick 3 4) = true ∧
    domRuns s (h.pick 5 6) = true ∧ warmFenced s = false ∧ calm s = true ∧ rowClean s key = true ∧ c.scope = 2 ∧ m.sv ≠ 0 ∧
    m.pinned = false ∧ m.replica = false ∧ noCopies s key = true ∧ s.cache.pool = [] ∧ s.cache.offers = [] ∧ poolPort s (saOf s key) = some g ∧ c.op = 5 := by
  decide +kernel

theorem witness_PlowSteps_5 :
    let s : State := pd 1 0 false
    let c : PlowCmd := cd 1 0
    s.cch.plow = [c] ∧ c.started = true ∧ c.workE = [] ∧ c.workW = [] ∧ calm s = true ∧ c.code = 0 ∧ 1 ≤ c.op.toNat ∧ c.op.toNat ≤ 5 := by
  decide +kernel

theorem witness_PlowSteps_6 :
    let s : State := pd 2 3 false
    let c : PlowCmd := cd 2 3
    s.cch.plow = [c] ∧ c.started = true ∧ c.workE = [] ∧ c.workW = [] ∧ calm s = true ∧ c.code ≠ 0 := by
  decide +kernel

theorem witness_PlowSteps_7 :
    let s : State := pd 6 0 false
    let c : PlowCmd := cd 6 0
    s.cch.plow = [c] ∧ c.started = true ∧ c.workE = [] ∧ c.workW = [] ∧ calm s = true ∧ c.code = 0 ∧ c.op = 6 ∧
    s.tables.retiring = none := by
  decide +kernel

theorem witness_PlowSteps_8 :
    let s : State := pd 8 0 true
    let c : PlowCmd := cd 8 0
    s.cch.plow = [c] ∧ c.started = true ∧ c.workE = [] ∧ c.workW = [] ∧ calm s = true ∧
    let r : Fin 384 := 4
    c.code = 0 ∧ c.op = 8 ∧ c.arg0.toNat = ↑r ∧ (region s ↑r).busy = true ∧
    (∀ e ∈ s.cache.line, keyRegion e.1 = ↑r → (metaAt s e.1).sv = 0 ∨ (metaAt s e.1).pinned = true) ∧ c.arg1 < 3 ∧
    tget false s.buf.drain ↑r = false ∧ waitQ s (regionHalf ↑r) = [] := by
  decide +kernel

end Plowing

namespace Upkeep
def B : Sa := 0x8000000000000
def oc (en : Bool) (k : Nat) : Ord := { Ord.zero with base := BitVec.ofNat 45 (0x8000000000000 / 128), en := en, k := BitVec.ofNat 8 k, nl := 3 }
def hd : HeldAddl := { ctx := 3, line := B, s := 4, fmt := 0, data := 0, part := 0, arrival := .e, master := 0, since := 0, limit := 100000 }
def os (en : Bool) (k : Nat) (other : Bool) : State := (base.onAtu fun a => { a with ord := [(3, oc en k)] ++ (if other then [(5, oc true 2)] else []), he := { a.he with held := [hd, {hd with ctx := 4}] }, next := [(3*256+1, 7), (4*256, 3)] }).onClk fun c => { c with time := 100000 }
def bs : State := (base.onBuf fun b => { b with blk := [(0, {st := 3, owner := 0}), (5, { st := 2, owner := 7 }), (9, {st := 3, owner := 3}), (10, {st := 4, owner := 0}), (4096, {st := 1, owner := 0})] }).onCache fun c => { c with data := [(5*65536 - 1, 3), (5*65536, 9), (6*65536-1, 9), (6*65536, 4)] }
def wtr : Waiter := { who := .port 0 1 5, part := 3, since := 0, limit := 77 }
def bw : State := ((ported 0 base).onBuf fun b => { b with waitW := [{wtr with part := 9}, wtr], used := [(35, 1)] }).onClk fun c => { c with time := 77 }
def ar (e : List (Nat × Nat)) : State := (base.onCache fun c => { c with ecc := e, line := [(0, {Meta.zero with sv := 15, pinned := true})], data := [(0, 7)] }).onInteg fun i => { i with patrol := [(0, 65535)], lcrcChk := false }
def pr (run : Bool) : PReset := { part := 3, cause := 1, running := run, disc := 2 }
def prs (run : Bool) : State := (setThr (setThr base 4 { Thread.zero with part := 3, phase := if run then .free else .running, outs := [{ id := 0, line := 0, store := false, dest := 1, count := 1, result := some [4], pva := 0, viaRo := false, void := false }] }) 5 { Thread.zero with part := 2, phase := .running, pc := 8 }).onInteg fun i => { i with prst := [pr run, { pr run with part := 5 }] }
def prq (run : Bool) : State := (modSp (prs run) 3 fun x => { x with used := 3, park := 2, ctxLog2n := 3 }).onSeq fun q => { q with resumeE := [{part := 3, slot := 0, prio := 0}, {part := 2, slot := 0, prio := 0}], tq := [(1, { TaskQ.zero with part := 3, en := true, head := 2, tail := 5 })] }
def case1 := [{ pr true with part := 5 }]
def case2 := [{ pr false with part := 5 }]

theorem witness_OrderedContexts :
    let n : Fin 32 := 3
    let on (s : State) : Prop := domOn s 5 = true ∨ domOn s 6 = true
    let set (o : Machine.Ord) (v : BitVec 32) : Machine.Ord :=
      { o with en := v.getLsbD 0, part := v.extractLsb' 1 5, nl := v.extractLsb' 8 8, k := v.extractLsb' 16 8 }
    let o := oc false 0
    let e := oc true 2
    -- a legal start; one with no contributor
    (let s := os false 0 false;
    on s ∧ ord s n = o ∧ o.en = false ∧
    (let x := set o 131841;
    x.en = true ∧ x.k ≠ 0 ∧ ordRangeOk s x = true ∧ ordOverlap s n x = false) ∧
    let x := set o 769
    x.en = true ∧ (x.k = 0 ∨ ordRangeOk s x = false ∨ ordOverlap s n x = true)) ∧
    -- a change of an enabled context; EN written again; EN cleared; a timeout
    let s := os true 2 false
    on s ∧ ord s n = e ∧ e.en = true ∧
    (let x := set e 769;
    ¬ (x.part = e.part ∧ x.nl = e.nl ∧ x.k = e.k)) ∧
    (let x := set e (0x20000 + 0x300 + 1);
    (x.part = e.part ∧ x.nl = e.nl ∧ x.k = e.k) ∧ x.en = true ∧ x.k ≠ 0 ∧ ordRangeOk s x = true ∧ ordOverlap s n x = false) ∧
    (let x := set e (0x20000 + 0x300);
    (x.part = e.part ∧ x.nl = e.nl ∧ x.k = e.k) ∧ x.en = false) ∧
    hd ∈ (atuHalf s .e).held ∧ hd.ctx = n ∧ due s hd.since hd.limit = true := by
  decide +kernel

theorem witness_BufferBlocks :
    let s : State := bs
    (let b : Fin 393216 := 5
    (blk s ↑b).st = 2 ∧ (region s (↑b / 1024)).state = 2 ∧ blockBusy s ↑b = false ∧ domRuns s ((blockHalf ↑b).pick 5 6) = true ∧
    tget false s.buf.drain (↑b / 1024) = false ∧ waitQ s (blockHalf ↑b) = []) ∧ (domOn s 5 = true ∨ domOn s 6 = true) ∧
    calm s = true ∧ (∀ e ∈ s.cache.line, e.2.sharers = 0 ∧ e.2.rheld = false) ∧
    (∀ e ∈ s.buf.blk, e.2 = blk s e.1 ∧ (e.2.st = 3 → (region s (e.1 / 1024)).state = 2)) ∧
    (let r : Fin 384 := 4
    (region s ↑r).state ≠ 2 ∨ (region s ↑r).busy = true) ∧
    let r : Fin 384 := 0
    (region s ↑r).state = 2 ∧ (region s ↑r).busy = false ∧ waitQ s (regionHalf ↑r) = [] ∧ (∀ e ∈ s.buf.blk, e.2 = blk s e.1) := by
  decide +kernel

theorem witness_BufferBlocks_4 :
    let s : State := bw
    let h : Half := Half.w
    let k : ℕ := 1
    let w : Waiter := wtr
    let p : PartnerPort := 0
    let c : Fin 4 := 1
    let tag : BitVec 12 := 5
    (waitQ s h)[k]? = some w ∧ due s w.since w.limit = true ∧ w.who = Who.port p c tag ∧ portActive s ↑p = true := by
  decide +kernel

theorem witness_ArrayUpkeep :
    (let s : State := ar []
    (let h : Half := Half.e
    let pos : ℕ := 65535
    let next : ℕ := 4 * 65536
    s.integ.patrolEn = true ∧ homeUp s h = true ∧ patrolRegions s h ≠ [] ∧ calm s = true ∧ s.integ.lcrcChk = false ∧
    patrolFrom s h (max (65536 * (192 * h.idx)) (tget 0 s.integ.patrol h.idx)) = some pos ∧ patrolFrom s h (pos + 1) = some next ∧
    s.cache.ecc = []) ∧ (let die : Fin 6 := 0
    domOn s (10 + ↑die) = true) ∧ (domOn s 5 = true ∨ domOn s 6 = true)) ∧
    let s : State := ar [(4 * (65535 * 8) + 7, 1)]
    (let h : Half := Half.e
    let pos : ℕ := 65535
    let next : ℕ := 4 * 65536
    s.integ.patrolEn = true ∧ homeUp s h = true ∧ patrolRegions s h ≠ [] ∧ calm s = true ∧ s.integ.lcrcChk = false ∧
    patrolFrom s h (max (65536 * (192 * h.idx)) (tget 0 s.integ.patrol h.idx)) = some pos ∧ patrolFrom s h (pos + 1) = some next ∧
    let j : ℕ := 7
    j < 32 ∧ s.cache.ecc = [(4 * rowKey pos + j, 1)]) ∧ (let die : Fin 6 := 0
    domOn s (10 + ↑die) = true) ∧ (domOn s 5 = true ∨ domOn s 6 = true) := by
  decide +kernel

theorem witness_PartitionResets :
    (let s : State := prq true
    (((let p : Sys2Proof.Part := 3
    (domOn s 5 = true ∨ domOn s 6 = true) ∧ p ≠ 0 ∧ (∃ r ∈ s.integ.prst, r.part = p)) ∧
    let p : Sys2Proof.Part := 0
    p = 0) ∧
    let p : Sys2Proof.Part := 9
    p ≠ 0 ∧ (∀ r ∈ s.integ.prst, r.part ≠ p)) ∧
    let r : PReset := pr true
    let rest : List PReset := case1
    s.integ.prst = r :: rest ∧ (∀ x ∈ rest, x.part ≠ r.part) ∧ r.running = true ∧ calm s = true ∧
    (∀ t < 72, (thr s t).part = r.part → (thr s t).phase = Phase.free)) ∧
    let s : State := prq false
    ((let p : Sys2Proof.Part := 3
    (domOn s 5 = true ∨ domOn s 6 = true) ∧ (∃ r ∈ s.integ.prst, r.part = p)) ∧
    let p : Sys2Proof.Part := 9
    (∀ r ∈ s.integ.prst, r.part ≠ p)) ∧
    let r : PReset := pr false
    let rest : List PReset := case2
    s.integ.prst = r :: rest ∧ (∀ x ∈ rest, x.part ≠ r.part) ∧ r.running = false ∧ calm s = true ∧ s.cache.pool = [] ∧
    s.buf.waitE = [] ∧ s.buf.waitW = [] ∧ (∀ t < 72, (thr s t).part = r.part → coreStepping s (thrCore t) = false) ∧
    (∀ (t : ℕ), (thr s t).part = r.part → (thr s t).phase = Phase.running ∧ (thr s t).word = none ∨ (thr s t).phase = Phase.free) := by
  refine ⟨by decide +kernel, by decide +kernel, by decide +kernel, by decide +kernel, by decide +kernel, by decide +kernel,
    by decide +kernel, by decide +kernel, by decide +kernel, by decide +kernel, ?_⟩
  exact all_threads _ (fun x => x.part = (pr false).part → x.phase = .running ∧ x.word = none ∨ x.phase = .free)
    (by decide +kernel) (by decide +kernel)

end Upkeep

namespace Targets
def tg (x : Target) : State := (setTgt .e 18 x (setTgt .e 19 { Target.zero with state := 1 } (setTgt .e 8 { Target.zero with state := 1 } base))).onClk fun c => { c with time := 10000 }
def tqq (n : Nat) := (tg { Target.zero with since := n, lastIdle := some 0, next := 3 })
def case1 := tg { Target.zero with state := 2, want := 5 }
def case2 := tg { Target.zero with state := 2, want := 5, repeats := 2, back := 1 }
def sw : State := { tqq 0 with rep := { (tqq 0).rep with waitE := [3] } }
def cv (c : Calve) (u : List (Nat × Bool)) : State := base.onTst fun t => { t with calve := [(2, c)], spareUsed := u, bankMap := [(68+7, some 33)] }
def c1 : Calve := { phase := 1, bank := 7, rows := 5, abort := false, spare := 32, source := 8 }
def case4 := cv {c1 with rows := 131071} []
def rt : State := (base.onTables fun t => { t with region := [(0, {state := 2, busy := false, retired := false}), (1, {state := 2, busy := false, retired := false}), (2, {state := 2, busy := false, retired := false})] }).onTst fun t => { t with toRetire := [0, 5] }
def rt2 : State := (rt.onBuf fun b => { b with blk := [(0, {st := 3, owner := 4}), (1024, {st := 2, owner := 4}), (2048, {st := 3, owner := 4})] })

/-- Core 3 of half E is in a step of its own. -/
def core (r : Nat) : State := setTgt .e 3 { Target.zero with state := 2, want := 5, repeats := r } base

theorem witness_TestTargets :
    let h : Half := .e
    let up (s : State) (t : Nat) : Bool :=
      if t < 9 then domOn s (h.pick 1 2) else if t < 20 then domOn s (h.pick 5 6) else domOn s 5 && domOn s 6
    (let s := tqq (2 ^ 20);
    let t : Fin 22 := 18;
    let x := tgt s h t;
    let loop := loopOf s (10 + h.idx);
    s.tst.en = true ∧ up s t = true ∧ t ∉ h.pick s.rep.waitE s.rep.waitW ∧ x.state = 0 ∧ longAgo s x.lastOp 100 = true ∧
    longAgo s x.lastIdle 10000 = true ∧ min (2 ^ loop.value.toNat) (2 ^ (loop.hi.toNat - packS s.tst.pack 2)) ≤ x.since) ∧
    (let x := tgt case1 h 18;
    x.state = 2 ∧ x.back.toNat < 2 ∧ up case1 18 = true ∧ x.want = 5 ∧ x.repeats = 0) ∧
    (let x := tgt case2 h 18;
    x.state = 2 ∧ x.back.toNat < 2 ∧ up case2 18 = true ∧ x.want ≠ 6 ∧ 2 ≤ x.repeats ∧ x.back = 1) ∧
    let s := core 1
    let x := tgt s h 3
    x.state = 2 ∧ x.back.toNat < 2 ∧ up s 3 = true ∧ x.want ≠ 6 ∧ x.repeats < 2 ∧ calm s = true ∧
    (∀ r ∈ s.integ.prst, r.running = false) ∧ ∀ i < 4, (thr s (4 * (9 * h.idx + 3) + i)).phase ≠ .halting := by
  decide +kernel

theorem witness_TestTargets_5 :
    let h : Half := Half.e
    let s : State := tqq 0
    let waits : State → List (Fin 22) := fun x => h.pick x.rep.waitE x.rep.waitW
    let lowest : ℕ → ℕ → ℕ → Prop :=
          fun lo n i =>
            lo ≤ i ∧ i < lo + n ∧ (tgt s h i).state = 1 ∧ ∀ (k : ℕ), lo ≤ k → k < i → (tgt s h k).state ≠ 1 ∧ (tgt s h k).state ≠ 2
    (let t : BitVec 5 := 19#5
    (22 ≤ t.toNat ∨ (tgt s h t.toNat).state = 1 ∨ (tgt s h t.toNat).state = 3)) ∧
    let t : BitVec 5 := 18#5
    let i : ℕ := 19
    9 ≤ t.toNat ∧ t.toNat < 20 ∧ (tgt s h t.toNat).state = 0 ∧ waits s = [] ∧
    (lowest (if t.toNat < 18 then 9 else 18) (if t.toNat < 18 then 9 else 2) i) := by
  decide +kernel

theorem witness_TestTargets_7 :
    let h : Half := Half.e
    let s : State := sw
    let waits : State → List (Fin 22) := fun x => h.pick x.rep.waitE x.rep.waitW
    let lowest : ℕ → ℕ → ℕ → Prop :=
          fun lo n i =>
            lo ≤ i ∧ i < lo + n ∧ (tgt s h i).state = 1 ∧ ∀ (k : ℕ), lo ≤ k → k < i → (tgt s h k).state ≠ 1 ∧ (tgt s h k).state ≠ 2
    let t : Fin 22 := 3
    let i : ℕ := 8
    waits s = [t] ∧ ↑t < 9 ∧ (tgt s h ↑t).state = 0 ∧ lowest 0 9 i ∧
    (∀ k < 4, (thr s (4 * (9 * h.idx + ↑t) + k)).phase = Phase.free) ∧ calm s = true ∧ s.glb.pending = false := by
  decide +kernel

theorem witness_BanksCalved :
    ((let s : State := cv Calve.zero []
    (let die : BitVec 3 := 2#3
    let k : ℕ := die.toNat
    let spare : Option (BitVec 6) :=
          if tget false s.tst.spareUsed (2 * k) = false then some 32
          else if tget false s.tst.spareUsed (2 * k + 1) = false then some 33 else none
    let sp : BitVec 6 := 32
    k < 6 ∧ (calve s k).phase = 0 ∧ domOn s (10 + k) = true ∧ spare = some sp) ∧
    let die : BitVec 3 := 6#3
    let k : ℕ := die.toNat
    let spare : Option (BitVec 6) :=
          if tget false s.tst.spareUsed (2 * k) = false then some 32
          else if tget false s.tst.spareUsed (2 * k + 1) = false then some 33 else none
    (5 < k ∨ (calve s k).phase ≠ 0 ∨ domOn s (10 + k) = false ∨ spare = none)) ∧
    let s : State := cv c1 []
    (let die : BitVec 3 := 2#3
    let k : ℕ := die.toNat
    let spare : Option (BitVec 6) :=
          if tget false s.tst.spareUsed (2 * k) = false then some 32
          else if tget false s.tst.spareUsed (2 * k + 1) = false then some 33 else none
    (5 < k ∨ (calve s k).phase ≠ 0 ∨ domOn s (10 + k) = false ∨ spare = none)) ∧
    let die : Fin 6 := 2
    let k : ℕ := ↑die
    let c : Calve := calve s k
    let row : ℕ := 2 ^ 19 * (64 * k + 2 * c.bank.toNat + c.rows.toNat / 65536) + 8 * (c.rows.toNat % 65536)
    c.phase = 1 ∧ domOn s (10 + k) = true ∧ rowClean s row = true ∧ calm s = true ∧ c.rows.toNat < 131071) ∧
    let s : State := case4
    (let die : BitVec 3 := 2#3
    let k : ℕ := die.toNat
    let spare : Option (BitVec 6) :=
          if tget false s.tst.spareUsed (2 * k) = false then some 32
          else if tget false s.tst.spareUsed (2 * k + 1) = false then some 33 else none
    (5 < k ∨ (calve s k).phase ≠ 0 ∨ domOn s (10 + k) = false ∨ spare = none)) ∧
    let die : Fin 6 := 2
    let k : ℕ := ↑die
    let c : Calve := calve s k
    let row : ℕ := 2 ^ 19 * (64 * k + 2 * c.bank.toNat + c.rows.toNat / 65536) + 8 * (c.rows.toNat % 65536)
    c.phase = 1 ∧ domOn s (10 + k) = true ∧ rowClean s row = true ∧ calm s = true ∧ c.rows.toNat = 131071 := by
  decide +kernel

theorem witness_BanksCalved_4 :
    let at_ (s : State) (st : BitVec 2) : Prop :=
      0 ∈ s.tst.toRetire ∧ s.tst.retireEn = true ∧ calm s = true ∧ (region s 0).state = st ∧ (region s 0).busy = false ∧
      (region s 1).state = 2 ∧ (region s 1).busy = false
    at_ rt2 2 ∧ at_ (rt2.onTables fun t => { t with region := t.region.drop 1 }) 0 := by
  decide +kernel

end Targets

namespace Flash
def hb : List Byte := toBytes 4 0x4B415054 ++ toBytes 2 1 ++ toBytes 2 0xAC80 ++ toBytes 1 0x10 ++ toBytes 3 0 ++ toBytes 4 9 ++ toBytes 4 0 ++ toBytes 4 0 ++ toBytes 8 0
def lr (d : Nat) : LineRes := { status := 0, line := 0, written := false, poison := 0, data := BitVec.ofNat 1024 d, lcrc := 0, untrk := false }
def pk (hb : List Byte) : State := (base.onTst fun t => { t with packBusy := true, packSa := BitVec.ofNat 46 (0x8000000000000 / 64 + 1) }).onCache fun c => { c with asked := [(.pack, 0), (.pack, 1)], got := [(.pack, 0, lr (ofBytes hb * 2^512)), (.pack, 1, lr 0)] }
def reqs : List (Nat × LineReq) := (rangeReqs (pk hb) .pack (0x8000000000040) 192).getD []
def noPk : State := base.onTst fun t => { t with packBusy := true, packSa := 3 }
def noPk2 : State := noPk.onPwr fun p => { p with dom := [] }
def rp : Repair := { type := 2, half := .w, die := 0, unit := 9, subst := 1, region := 0, seq := 0, pack := 0, time := 77 }
def ah : List Byte := let b := toBytes 4 0x52505247 ++ toBytes 2 1 ++ toBytes 2 0 ++ toBytes 4 6 ++ toBytes 8 State.reset.tst.uid.toNat ++ toBytes 8 0; b ++ toBytes 4 (crc32c b).toNat
def rq (full : Nat) : State := (base.onTst fun t => { t with queue := [rp, {rp with unit := 3}], repSeq := 4, written := 2, degr := [(3, 9)], aged := [(2, true)] }).onBoot fun b => { b with repOff := 0x1000, repLen := 0x200, flash := (ah.mapIdx fun i x => (0x1000 + i, x)) ++ (List.range full).map fun i => (0x1020 + i, 0) }
def case1 := [{rp with unit := 3}]

theorem witness_FlashRecords :
    ((let s : State := pk hb
    s.tst.packBusy = true ∧
    let n : ℕ := 128
    let k : ℕ := 2
    let rs : List (ℕ × LineReq) := reqs
    let sa : Sa := BitVec.ofNat 52 (s.tst.packSa.toNat * 64)
    let b : List Byte := rangeBytes sa (n + 64) (List.filterMap (fun i => gotOf s Consumer.pack i) (List.range k))
    calm s = true ∧ rangeReqs s Consumer.pack sa (n + 64) = some rs ∧ rs.length = k ∧
    (∀ i < k, s.cache.asked.contains (Consumer.pack, i) = true ∧ ∃ r, gotOf s Consumer.pack i = some r ∧ r.status = 0) ∧
    leAt b 16 4 = n - 128 ∧ 128 ≤ n ∧ n % 16 = 0 ∧ n ≤ 262144) ∧
    let s : State := base
    s.tst.packBusy = false) ∧
    let s : State := noPk2
    s.tst.packBusy = true ∧ rangeReqs s Consumer.pack (BitVec.ofNat 52 (s.tst.packSa.toNat * 64)) 128 = none ∧ calm s = true := by
  decide +kernel

theorem witness_FlashRecords_4 :
    let s : State := rq 0
    (let r : Repair := rp
    let rest : List Repair := case1
    s.tst.queue = r :: rest ∧
    let a : ℕ := 4096
    let gen : ℕ := 6
    let off : ℕ := s.boot.repOff.toNat
    let len : ℕ := s.boot.repLen.toNat
    let m : ℕ := (areaSlots s (a + 32) 0 (len / 2 / 32 - 1)).length
    64 ≤ len ∧ areaHalf s off len = some (a, gen) ∧ m < len / 2 / 32 - 1) ∧ (let n : Fin 8 := 3
    (let degr : BitVec 16 := 299#16
    domOn s (sensorDom ↑n) = true ∧ degr.toNat < s.tst.ageThr.toNat) ∧
    let degr : BitVec 16 := 300#16
    s.tst.ageThr.toNat ≤ degr.toNat ∧ tget false s.tst.aged ↑n = false) ∧
    let n : Fin 8 := 2
    domOn s (sensorDom ↑n) = true ∧ tget false s.tst.aged ↑n = true := by
  decide +kernel

end Flash

namespace Sensing
def case3 := base.onPwr (fun p => { p with trip := true})
def rst (r : ResetSt) (p : Pwr → Pwr) : State := ((running [(1, 5), (2, 7)] base).onPwr fun x => p { x with resetSt := r, resetN := true, fcnt := 2, resets := 0xFFFF, fatal := true }).onLog fun l => { l with fatal := [(0, some default)], tail := 3 }
def case4 := rst .none (fun p => { p with resetN := false })
def rr (r : ResetSt) (p : Pwr → Pwr) : State := (rst r p).onClk fun c => { c with time := 1000005 }
def case7 := rr .none (fun p => { p with vaon := false })

theorem witness_SensorResults :
    let n : Fin 24 := 0
    let temp : BitVec 12 := 944#12
    (let s : State := base
    domOn s (sensorDom ↑n) = true ∧ 944 ≤ temp.toInt ∧ s.pwr.trip = false) ∧
    let s : State := case3
    domOn s (sensorDom ↑n) = true ∧ (temp.toInt < 944 ∨ s.pwr.trip = true) := by
  decide +kernel

theorem witness_ChipResets :
    ((let s : State := rst ResetSt.none id
    s.pwr.pwrgood = true ∧ (s.pwr.resetSt = ResetSt.none ∧ s.pwr.trip = false ∧ s.pwr.vaon = true ∧ s.pwr.resetN = true ∧
    s.boot.phase ≠ BootPhase.waitReset ∧
    let v : BitVec 32 := 346#32
    v.toNat % 256 = 90 ∧ v.getLsbD 8 = true) ∧
    let v : BitVec 32 := 90#32
    ¬(v.toNat % 256 = 90 ∧ v.getLsbD 8 = true)) ∧
    let s : State := rst (ResetSt.warmReq true) id
    s.pwr.pwrgood = true ∧
    let byPin : Bool := true
    s.pwr.resetSt = ResetSt.warmReq byPin) ∧
    let s : State := case4
    s.pwr.pwrgood = true ∧ s.pwr.resetSt = ResetSt.none ∧ s.pwr.trip = false ∧ s.pwr.vaon = true ∧ s.pwr.resetN = false := by
  decide +kernel

theorem witness_ChipResets_7 :
    ((let s : State := rr (ResetSt.warm 5 true) id
    (let t : BitVec 64 := 5#64
    let byPin : Bool := true
    s.pwr.resetSt = ResetSt.warm t byPin ∧ warmDrained s = true ∧ due s t 1000000 = true) ∧
    let structure_ : BitVec 8 := 4#8
    structure_.toNat ≤ 4 ∧ s.pwr.resetSt ≠ ResetSt.cold ∧ s.pwr.vaon = true) ∧
    let s : State := rr ResetSt.cold id
    s.pwr.resetSt = ResetSt.cold) ∧
    let s : State := case7
    s.pwr.vaon = false := by
  decide +kernel

end Sensing

namespace Domains
def dm (l : List (Nat × BitVec 2)) (c : Option DomCmd) : State := (base.onPwr fun p => { p with dom := (List.range 15).map fun i => (i+1, { st := (l.lookup (i+1)).getD 1, gen := 5 }), cmd := c }).onClk fun c => { c with time := 100000 }
def cmd (d : BitVec 4) (on force : Bool) : DomCmd := { dom := d, on := on, force := force, since := 0, regions := [(128, 2)] }
def dr (d : BitVec 4) (on : Bool) : State := dm [(d.toNat, if on then 2 else 3)] (some (cmd d on false))
def wk : State := setThr (dr 1 false) 7 { Thread.zero with phase := .running }
def case1 := (dr 12 false).onCache (fun c => { c with data := [(2^26*128-1, 3), (2^26 * 128, 4), (2^26*192 - 1, 8), (2^26*192, 7)], line := [(2^19*128, { Meta.zero with sv := 15}), (2^19*64, {Meta.zero with sv := 1})] })
def re : State := ((dm [] none).onSense fun x => { x with restore := [(2, some [(130, 2)])] }).onCache fun c => { c with data := [(2^26*130, 5), (2^26*131, 6)] }
def un (st : BitVec 3) : State := (setPort (ported 3 base) 3 { port (ported 3 base) 3 with state := st, gen := 0x77 }).onTst fun t => { t with tgt := [(1, {Target.zero with state := 0}), (8, {Target.zero with state := 1}), (22+8, {Target.zero with state := 1})] }

theorem witness_DomainCommands :
    (let s : State := dm [(1, 0)] none
    let dom : State → ℕ → Dom := fun x d => tget Dom.zero x.pwr.dom d
    let idle : Prop :=
          s.pwr.cmd = none ∧
            s.pwr.resetSt = ResetSt.none ∧ s.pwr.trip = false ∧ (s.boot.phase = BootPhase.started ∨ s.boot.phase = BootPhase.recovery)
    (let d : BitVec 4 := 1#4
    let force : Bool := true
    (let gen : BitVec 16 := 5#16
    d ≠ 0 ∧
    let n : ℕ := d.toNat
    gen = (dom s n).gen ∧ idle ∧ (dom s n).st = 0 ∧ requiredOn s n = true ∧ (n < 7 → (loopOf s ((n + 1) % 2)).devFault = false)) ∧
    let gen : BitVec 16 := 4#16
    let n : ℕ := d.toNat
    let cmds : List Instr := [Instr.domainOn d force gen, Instr.domainOff d force gen]
    gen ≠ (dom s n).gen ∧
    let c : Instr := Instr.domainOn d force gen
    c ∈ cmds ∧ s.pwr.cmd = none) ∧
    let d : BitVec 4 := 9#4
    let force : Bool := true
    (let gen : BitVec 16 := 5#16
    d ≠ 0 ∧
    let n : ℕ := d.toNat
    gen = (dom s n).gen ∧ (dom s n).st = 1 ∧ n < 10 ∧ neededBy s n = false) ∧
    let gen : BitVec 16 := 4#16
    let n : ℕ := d.toNat
    let cmds : List Instr := [Instr.domainOn d force gen, Instr.domainOff d force gen]
    gen ≠ (dom s n).gen ∧
    let c : Instr := Instr.domainOn d force gen
    c ∈ cmds) ∧
    let s : State := dm [] (some (cmd 3 true false))
    let dom : State → ℕ → Dom := fun x d => tget Dom.zero x.pwr.dom d
    let d : BitVec 4 := 1#4
    let force : Bool := true
    let gen : BitVec 16 := 5#16
    let n : ℕ := d.toNat
    let cmds : List Instr := [Instr.domainOn d force gen, Instr.domainOff d force gen]
    gen = (dom s n).gen ∧
    let c : Instr := Instr.domainOn d force gen
    c ∈ cmds ∧
    let x : DomCmd := cmd 3 true false
    s.pwr.cmd = some x := by
  decide +kernel

theorem witness_DomainCommands_4 :
    (((let s : State := dr 1 false
    let c : DomCmd := cmd 1 false false
    s.pwr.cmd = some c ∧
    let n : ℕ := c.dom.toNat
    c.on = false ∧ 1 ≤ n ∧ n < 10 ∧ domWork s n = 0) ∧
    let s : State := wk
    let c : DomCmd := cmd 1 false false
    s.pwr.cmd = some c ∧
    let n : ℕ := c.dom.toNat
    domWork s n ≠ 0 ∧ due s c.since 100000 = true ∧ c.force = false) ∧
    let s : State := dr 12 true
    let c : DomCmd := cmd 12 true false
    s.pwr.cmd = some c ∧
    let n : ℕ := c.dom.toNat
    c.on = true ∧ 10 ≤ n) ∧
    let s : State := case1
    let c : DomCmd := cmd 12 false false
    s.pwr.cmd = some c ∧
    let n : ℕ := c.dom.toNat
    c.on = false ∧ 10 ≤ n ∧ calm s = true ∧
    (∀ e ∈ s.cache.line, keyRegion e.1 / 64 = n - 10 → e.2.sharers = 0 ∧ e.2.rheld = false ∧ e.2.replica = false) := by
  decide +kernel

theorem witness_DomainCommands_8 :
    let s : State := re
    let die : Fin 6 := 2
    let r : ℕ := 130
    let st : BitVec 2 := 2#2
    tget none s.sense.restore ↑die = some [(r, st)] ∧ domOn s (10 + ↑die) = true ∧ homeUp s (regionHalf (64 * ↑die)) = true ∧
    (region s r).retired = false ∧ st ≠ 0 ∧ waitQ s (regionHalf r) = [] ∧ calm s = true ∧ tget false s.buf.drain r = false := by
  decide +kernel

theorem witness_UnitCommands :
    (((let u6 : BitVec 6 := 19#6
    (let gen : BitVec 16 := 119#16
    ((let s : State := un 4
    let n : ℕ := u6.toNat
    let stamp : BitVec 16 := BitVec.extractLsb' 16 16 (unitWord s n)
    16 ≤ n ∧ n < 24 ∧ stamp = gen ∧
    let p : Port := port s (n - 16)
    p.state = 4 ∧ calm s = true ∧ s.cache.pool = [] ∧ s.cache.offers = []) ∧
    let s : State := un 0
    let n : ℕ := u6.toNat
    let stamp : BitVec 16 := BitVec.extractLsb' 16 16 (unitWord s n)
    stamp = gen ∧
    let p : Port := port s (n - 16)
    p.state = 0 ∧ domOn s (portDom (n - 16)) = true) ∧
    let s : State := un 1
    let n : ℕ := u6.toNat
    let stamp : BitVec 16 := BitVec.extractLsb' 16 16 (unitWord s n)
    stamp = gen ∧
    let p : Port := port s (n - 16)
    p.state = 1) ∧
    let gen : BitVec 16 := 0#16
    let s : State := un 0
    let n : ℕ := u6.toNat
    let stamp : BitVec 16 := BitVec.extractLsb' 16 16 (unitWord s n)
    let cmds : List Instr :=
          [Instr.unitPortDisable u6 gen, Instr.unitPortEnable u6 gen, Instr.unitRecal u6 gen, Instr.unitForceDown u6 gen,
            Instr.unitFail u6 gen]
    n < 48 ∧ stamp ≠ gen ∧
    let c : Instr := Instr.unitPortDisable u6 gen
    c ∈ cmds) ∧
    let u6 : BitVec 6 := 5#6
    (let gen : BitVec 16 := 119#16
    let s : State := un 0
    let n : ℕ := u6.toNat
    let stamp : BitVec 16 := BitVec.extractLsb' 16 16 (unitWord s n)
    let cmds : List Instr :=
          [Instr.unitPortDisable u6 gen, Instr.unitPortEnable u6 gen, Instr.unitRecal u6 gen, Instr.unitForceDown u6 gen,
            Instr.unitFail u6 gen]
    n < 48 ∧ stamp ≠ gen ∧
    let c : Instr := Instr.unitPortDisable u6 gen
    c ∈ cmds) ∧
    let gen : BitVec 16 := 0#16
    let s : State := un 0
    let n : ℕ := u6.toNat
    let stamp : BitVec 16 := BitVec.extractLsb' 16 16 (unitWord s n)
    let cmds : List Instr :=
          [Instr.unitPortDisable u6 gen, Instr.unitPortEnable u6 gen, Instr.unitRecal u6 gen, Instr.unitForceDown u6 gen,
            Instr.unitFail u6 gen]
    stamp = gen ∧ (n < 16 ∨ 42 ≤ n) ∧
    let c : Instr := Instr.unitPortDisable u6 gen
    c ∈ cmds) ∧
    let u6 : BitVec 6 := 25#6
    (let gen : BitVec 16 := 119#16
    let s : State := un 0
    let n : ℕ := u6.toNat
    let stamp : BitVec 16 := BitVec.extractLsb' 16 16 (unitWord s n)
    let cmds : List Instr :=
          [Instr.unitPortDisable u6 gen, Instr.unitPortEnable u6 gen, Instr.unitRecal u6 gen, Instr.unitForceDown u6 gen,
            Instr.unitFail u6 gen]
    n < 48 ∧ stamp ≠ gen ∧
    let c : Instr := Instr.unitPortDisable u6 gen
    c ∈ cmds) ∧
    let gen : BitVec 16 := 0#16
    let s : State := un 0
    let n : ℕ := u6.toNat
    let stamp : BitVec 16 := BitVec.extractLsb' 16 16 (unitWord s n)
    24 ≤ n ∧ n < 42 ∧ stamp = gen ∧
    let h : Half := if n < 33 then Half.e else Half.w
    let c : ℕ := (n - 24) % 9
    let waits : State → List (Fin 22) := fun x => h.pick x.rep.waitE x.rep.waitW
    (tgt s h c).state = 0 ∧ waits s = [] ∧ (∃ i < 9, (tgt s h i).state = 1)) ∧
    let u6 : BitVec 6 := 48#6
    let gen : BitVec 16 := 119#16
    let n : ℕ := u6.toNat
    let cmds : List Instr :=
          [Instr.unitPortDisable u6 gen, Instr.unitPortEnable u6 gen, Instr.unitRecal u6 gen, Instr.unitForceDown u6 gen,
            Instr.unitFail u6 gen]
    48 ≤ n ∧
    let c : Instr := Instr.unitPortDisable u6 gen
    c ∈ cmds := by
  decide +kernel

end Domains

namespace Booting
def prog : List Byte := toBytes 8 0x8000000000000 ++ toBytes 8 0x40 ++ toBytes 8 0x8000000000000 ++ toBytes 4 64 ++ toBytes 4 0 ++ (List.range 64).map fun i => BitVec.ofNat 8 (i * 3 + 1)
def ent (t off len c : Nat) : List Byte := toBytes 2 t ++ toBytes 2 1 ++ toBytes 4 off ++ toBytes 4 len ++ toBytes 4 c
def body : List Byte := ent 5 400 0 0 ++ ent 6 400 0 0 ++ ent 7 304 96 1945797236 ++ prog
def head (seq c : Nat) : List Byte := toBytes 4 0x494A5653 ++ toBytes 2 1 ++ toBytes 2 0xAC80 ++ toBytes 1 0x10 ++ toBytes 1 0 ++ toBytes 1 0 ++ toBytes 1 3 ++ toBytes 4 seq ++ toBytes 4 400 ++ List.replicate 228 0 ++ toBytes 4 985455689 ++ toBytes 4 c
def crcOf (seq : Nat) : Nat := if seq = 7 then 178415715 else 3874274802
def img (at_ seq : Nat) : List (Nat × Byte) := (head seq (crcOf seq) ++ body)|> placed at_
def fl0 (at_ seq : Nat) : List (Nat × Byte) := (img at_ seq).take 304
def btf (fl : List (Nat × Byte)) (ph : BootPhase) (f : Boot → Boot) : State := (base.onBoot fun b => f { b with phase := ph, flash := fl, warmBoot := true }).onClk fun c => { c with time := 1000000 }
def bt (ph : BootPhase) (f : Boot → Boot) : State := btf (img 0 7) ph f
def bt0 (ph : BootPhase) (f : Boot → Boot) : State := btf [] ph f
def btd : State := btf (fl0 0 7 ++ fl0 0x600000 9) .discover id
def bs1 (ph : BootPhase) (f : Boot → Boot) : State := (bt0 ph f).onGlb fun g => { g with bootSel := 1 }
def sf : Sfdp := { present := true, valid := true, tooSmall := false, eraseLog2 := 12, pageLog2 := some 8, has144 := true, qer0 := true, qeSet := false }
def rdGap : State := bt0 (.reading .b) id
def rdBad : State := bt0 (.reading .b) fun b => { b with leftA := true }
def apCold : State := bt0 (.apply .a) id
def apDone : State := (applyImage .a (bt (.apply .a) id)).getD State.reset
def case1 := { sf with present := false}
def rdy (h : Nat) : State := ((bt0 .ready fun b => { b with entry := 0x40, dest := 0x8000000000000, seq := 7 }).onTst fun t => { t with tgt := [(17, {Target.zero with state := 1}), (18, {Target.zero with state := 3})] }).onRep fun r => { r with logical := if h = 1 then (List.range 9).map fun i => (i, some 255) else [(0, some 255), (8, some 0)] }

theorem witness_BootSteps :
    ((let s : State := btd
    (let f : Sfdp := sf
    s.boot.phase = BootPhase.discover ∧ f.present = true ∧ ¬(f.valid = true ∧ f.tooSmall = true) ∧ s.glb.bootSel ≠ 1 ∧
    headCode s Slot.a = 0 ∧ headCode s Slot.b = 0) ∧
    let f : Sfdp := case1
    (f.present = false ∨ f.valid = true ∧ f.tooSmall = true)) ∧
    let s : State := bt0 BootPhase.waitPll id
    s.boot.phase = BootPhase.waitPll ∧ due s s.boot.since 1000000 = true) ∧
    let s : State := bs1 BootPhase.discover id
    s.boot.phase = BootPhase.discover ∧ s.glb.bootSel = 1 := by
  decide +kernel

theorem witness_BootSteps_4 :
    let s : State := bt (BootPhase.reading Slot.a) id
    let k : Slot := Slot.a
    s.boot.phase = BootPhase.reading k ∧
    let code : ℕ := if headCode s k ≠ 0 then headCode s k else bodyCode s k
    code = 0 := by
  decide +kernel

theorem witness_BootSteps_5 :
    let s : State := rdGap
    let k : Slot := Slot.b
    s.boot.phase = BootPhase.reading k ∧
    let code : ℕ := if headCode s k ≠ 0 then headCode s k else bodyCode s k
    let otherLeft : Bool :=
          match k with
          | Slot.a => s.boot.leftB
          | Slot.b => s.boot.leftA
    code ≠ 0 ∧ otherLeft = false := by
  decide +kernel

theorem witness_BootSteps_6 :
    let s : State := rdBad
    let k : Slot := Slot.b
    s.boot.phase = BootPhase.reading k ∧
    let code : ℕ := if headCode s k ≠ 0 then headCode s k else bodyCode s k
    let otherLeft : Bool :=
          match k with
          | Slot.a => s.boot.leftB
          | Slot.b => s.boot.leftA
    code ≠ 0 ∧ otherLeft = true := by
  decide +kernel

theorem witness_BootSteps_7 :
    let s : State := bt (BootPhase.apply Slot.a) id
    let k : Slot := Slot.a
    s.boot.phase = BootPhase.apply k ∧
    let t : State := apDone
    applyImage k s = some t ∧ calm t = true := by
  decide +kernel

theorem witness_BootSteps_8 :
    let s : State := apCold
    let k : Slot := Slot.a
    s.boot.phase = BootPhase.apply k ∧ applyImage k s = none := by
  decide +kernel

theorem witness_BootSteps_9 :
    let s : State := rdy 0
    let h : Half := Half.e
    let k : ℕ := 8
    let l : ℕ := 0
    s.boot.phase = BootPhase.ready ∧ k < 9 ∧ l < 8 ∧ logicalCore s (9 * h.idx + k) = some l ∧
    (∀ c < 9, ∀ m ∈ logicalCore s (9 * h.idx + c), l ≤ m ∧ (m = l → k ≤ c)) ∧ (h = Half.w → ∀ c < 9, logicalCore s c = none) ∧
    (∃ g ∈ [Half.e, Half.w], ∃ i ∈ [18, 19], (tgt s g i).state ≠ 3) := by
  decide +kernel

end Booting

namespace Reading
def u (f : Uart → Uart) : State := base.onUart fun x => f { x with act := { x.act with raw := true, parity := 1, data := 7 } }
def uu (f : Uart → Uart) : State := (base.onUart f).onMgt fun m => { m with echo := false, partial_ := [0x41] }
def case1 := u (fun x => { x with rx := List.replicate 64 { ch := 5, pe := false, fe := true}, tx := [0x1f1, 3], act := { x.act with fc := true } })
def case2 := uu (fun x => { x with gap := true, tx := List.replicate 64 7, act := { x.act with fc := true }, cfg := { x.cfg with data := 9 } })
def case3 := u (fun x => { x with tx := [9], cts := true, act := {x.act with fc := true}, cfg := { x.cfg with stop := 1 }, rx := [{ ch := 0x1ff, pe := true, fe := false}] })
def case4 : Char9 := { ch := 5, pe := false, fe := true}
def case5 := List.replicate 63 ({ ch := 5, pe := false, fe := true} : Char9)
def case6 : Char9 := { ch := 0x1ff, pe := true, fe := false}
def sv (f : Mgt → Mgt) : State := ((base.onMgt f).onLog fun l => { l with ring := [(0, some default), (62, some { (default : Rec) with id := 9 })], tail := 0x41, head := 0x10, fatal := [(3, some default)] }).onCnt fun c => { c with val := [(0, 5), (255, 0xffff)], snap := [(1, 9)] }
def case7 := sv (fun m => { m with lock := true, bin := true })
def case8 := (sv fun m => { m with bin := true, partial_ := [3], partialAt := 0 }).onClk (fun c => { c with time := 10000000 })

theorem witness_UartCharacters :
    ((let s : State := case2
    let x : Uart := s.uart
    let n : ℕ := if 5 ≤ x.act.data.toNat ∧ x.act.data.toNat ≤ 9 then x.act.data.toNat else 8
    (let ch : BitVec 9 := 499#9
    s.pwr.vaon = true ∧
    let c : BitVec 9 := BitVec.ofNat 9 (ch.toNat % 2 ^ n)
    x.act.raw = false ∧ n = 8 ∧ s.mgt.bin = false ∧ s.mgt.echo = false ∧ c ≠ 13 ∧ c ≠ 10 ∧ c ≠ 8 ∧ c ≠ 127) ∧ x.gap = true ∧
    (let c : BitVec 9 := 7#9
    let rest : List (BitVec 9) := List.replicate 63 7#9
    x.tx = c :: rest ∧ x.act.fc = true ∧ x.cts = false) ∧ (x.act.raw = false ∨ 64 ≤ x.tx.length) ∧ (x.act.raw = false ∨ x.rx = [])) ∧
    let s : State := case3
    let x : Uart := s.uart
    s.pwr.vaon = true ∧ x.act.raw = true ∧ x.rx.length < 64 ∧ (let c : BitVec 9 := 9#9
    let rest : List (BitVec 9) := []
    x.tx = c :: rest ∧ (x.act.fc = false ∨ x.cts = true)) ∧ x.tx.length < 64 ∧
    let c : Char9 := case6
    let rest : List Char9 := []
    x.rx = c :: rest) ∧
    let s : State := case1
    let x : Uart := s.uart
    s.pwr.vaon = true ∧ x.act.raw = true ∧ 64 ≤ x.rx.length ∧ (let c : BitVec 9 := 497#9
    let rest : List (BitVec 9) := [3#9]
    x.tx = c :: rest ∧ x.act.fc = true ∧ x.cts = false) ∧ x.tx.length < 64 ∧
    let c : Char9 := case4
    let rest : List Char9 := case5
    x.rx = c :: rest := by
  decide +kernel

theorem witness_SvetReads :
    ((let s : State := case8
    svetOn s = true ∧ ((let u : BitVec 8 := 0#8
    u.toNat ≤ 47) ∧
    let u : BitVec 8 := 48#8
    47 < u.toNat) ∧ ((let arg : BitVec 32 := 33554432#32
    arg.toNat / 2 ^ 24 % 2 ^ 7 ≠ 0) ∧
    let arg : BitVec 32 := 2#32
    arg.toNat < 2 ^ 24 ∧ arg.toNat % 4 ≠ 0) ∧ ((((let k : BitVec 32 := 33554432#32
    k.getLsbD 31 = false ∧ ((s.log.tail - k).toNat = 0 ∨ 64 < (s.log.tail - k).toNat) ∧
    (s.log.tail - s.log.head).toNat < (k - s.log.head).toNat) ∧
    let k : BitVec 32 := 64#32
    (let r : Rec := default
    k.getLsbD 31 = false ∧ 1 ≤ (s.log.tail - k).toNat ∧ (s.log.tail - k).toNat ≤ 64 ∧ recAt s.log.ring (k.toNat % 64) = some r) ∧
    (k - s.log.head).toNat ≤ (s.log.tail - s.log.head).toNat) ∧
    let k : BitVec 32 := 2147483651#32
    (let r : Rec := default
    2 ^ 31 ≤ k.toNat ∧ k.toNat < 2 ^ 31 + 4 ∧ recAt s.log.fatal (k.toNat - 2 ^ 31) = some r) ∧
    (s.log.tail - s.log.head).toNat < (k - s.log.head).toNat) ∧
    let k : BitVec 32 := 2147483652#32
    2 ^ 31 + 4 ≤ k.toNat ∧ (s.log.tail - s.log.head).toNat < (k - s.log.head).toNat) ∧ (let first : BitVec 8 := 0#8
    (let n : BitVec 8 := 47#8
    let good : Prop := n ≠ 0 ∧ n.toNat ≤ 128 ∧ first.toNat + n.toNat ≤ 256
    good ∧ s.mgt.lock = false) ∧
    let n : BitVec 8 := 0#8
    let good : Prop := n ≠ 0 ∧ n.toNat ≤ 128 ∧ first.toNat + n.toNat ≤ 256
    ¬good) ∧ s.mgt.bin = true ∧ s.mgt.partial_ ≠ [] ∧ due s s.mgt.partialAt 10000000 = true) ∧
    let s : State := sv id
    svetOn s = true ∧ ((((let k : BitVec 32 := 33554432#32
    ((s.log.tail - k).toNat = 0 ∨ 64 < (s.log.tail - k).toNat) ∧ (s.log.tail - s.log.head).toNat < (k - s.log.head).toNat) ∧
    let k : BitVec 32 := 64#32
    (let r : Rec := default
    1 ≤ (s.log.tail - k).toNat ∧ (s.log.tail - k).toNat ≤ 64 ∧ recAt s.log.ring (k.toNat % 64) = some r) ∧
    (k - s.log.head).toNat ≤ (s.log.tail - s.log.head).toNat) ∧
    let k : BitVec 32 := 2147483651#32
    (let r : Rec := default
    recAt s.log.fatal (k.toNat - 2 ^ 31) = some r) ∧ (s.log.tail - s.log.head).toNat < (k - s.log.head).toNat) ∧
    let k : BitVec 32 := 2147483652#32
    (s.log.tail - s.log.head).toNat < (k - s.log.head).toNat) ∧ s.mgt.lock = false ∧ s.mgt.bin = false) ∧
    let s : State := case7
    svetOn s = true ∧ ((((let k : BitVec 32 := 33554432#32
    ((s.log.tail - k).toNat = 0 ∨ 64 < (s.log.tail - k).toNat) ∧ (s.log.tail - s.log.head).toNat < (k - s.log.head).toNat) ∧
    let k : BitVec 32 := 64#32
    (let r : Rec := default
    1 ≤ (s.log.tail - k).toNat ∧ (s.log.tail - k).toNat ≤ 64 ∧ recAt s.log.ring (k.toNat % 64) = some r) ∧
    (k - s.log.head).toNat ≤ (s.log.tail - s.log.head).toNat) ∧
    let k : BitVec 32 := 2147483651#32
    (let r : Rec := default
    recAt s.log.fatal (k.toNat - 2 ^ 31) = some r) ∧ (s.log.tail - s.log.head).toNat < (k - s.log.head).toNat) ∧
    let k : BitVec 32 := 2147483652#32
    (s.log.tail - s.log.head).toNat < (k - s.log.head).toNat) ∧ (let first : BitVec 8 := 0#8
    (let n : BitVec 8 := 0#8
    s.mgt.lock = true ∧
    let c : Instr := Instr.svetCntSnapshot first n
    (c = Instr.svetCntSnapshot first n ∨ c = Instr.svetCntReset first n ∨ c = Instr.svetCntSnapshotReset first n)) ∧
    let n : BitVec 8 := 47#8
    let c : Instr := Instr.svetCntSnapshot first n
    (c = Instr.svetCntSnapshot first n ∨ c = Instr.svetCntReset first n ∨ c = Instr.svetCntSnapshotReset first n)) ∧ s.mgt.bin = true := by
  decide +kernel

end Reading

namespace Acting
def b1 : State := ((ported 3 base).onPwr fun p => { p with dom := (List.range 15).map fun i => (i+1, { st := if i + 1 = 12 then 0 else 1, gen := 5 }) }).onBoot fun b => { b with eraseLog2 := 12, pageLog2 := 8, flash := [(0x900000, 3), (0x901000, 4), (0x8fffff, 5), (0x900100, 6)] }
def sv (f : Mgt → Mgt) : State := b1.onMgt f
def case1 := sv (fun m => { m with lock := true })
def case2 := (sv id).onGlb (fun g => { g with pending := true})
def rc : State := (sv id).onBoot fun b => { b with phase := .recovery, repOff := 0xA00000, repLen := 0x2000, flash := b.flash ++ [(0xA00000, 4), (0xA01fff, 4), (0xA02000, 4)] }
def mb : State := (sv fun m => { m with inFull := true, outFull := true, outLen := 3 }) |> fun s => { s with mbox := { s.mbox with outb := [(0,1),(2,7),(5,4)] } }

theorem witness_SvetActs :
    ((let s : State := sv id
    svetOn s = true ∧
    let idle : Prop := s.pwr.cmd = none ∧ s.pwr.resetSt = ResetSt.none ∧ s.pwr.trip = false ∧ s.boot.phase = BootPhase.started
    s.mgt.lock = false ∧ calm s = true ∧ (let n : BitVec 8 := 19#8
    let op : BitVec 8 := 2#8
    (let gen : BitVec 16 := 0#16
    s.boot.phase ≠ BootPhase.recovery ∧ n.toNat ≤ 47 ∧ op.toNat ≤ 3 ∧ BitVec.extractLsb' 16 16 (unitWord s n.toNat) = gen ∧ op = 2 ∧
    16 ≤ n.toNat ∧ n.toNat < 24 ∧ portActive s (n.toNat - 16) = true) ∧
    let gen : BitVec 16 := 5#16
    BitVec.extractLsb' 16 16 (unitWord s n.toNat) ≠ gen) ∧ (let d : BitVec 8 := 12#8
    (let gen : BitVec 16 := 0#16
    10 ≤ d.toNat ∧ d.toNat < 16 ∧
    let x : Dom := tget Dom.zero s.pwr.dom d.toNat
    idle ∧ gen ≠ x.gen) ∧
    let gen : BitVec 16 := 5#16
    let x : Dom := tget Dom.zero s.pwr.dom d.toNat
    gen = x.gen ∧ x.st = 0) ∧ (epochReason s = 0 ∧ epochUnits s ≠ 0 ∧ (let key : BitVec 8 := 19#8
    key ≠ 90) ∧ s.pwr.resetSt = ResetSt.none ∧ s.pwr.pwrgood = true ∧ s.pwr.trip = false) ∧ s.boot.eraseLog2 ≠ 0 ∧
    let off : BitVec 32 := 66400#32
    let len : BitVec 16 := 5#16
    len ≠ 0 ∧ len.toNat ≤ 1024 ∧ flashRange s off.toNat len.toNat = false) ∧
    let s : State := case1
    svetOn s = true ∧ s.mgt.lock = true ∧ (s.boot.eraseLog2 ≠ 0 ∧
    let off : BitVec 32 := 66400#32
    let len : BitVec 16 := 5#16
    flashRange s off.toNat len.toNat = false) ∧ s.boot.phase ≠ BootPhase.recovery) ∧
    let s : State := sv id
    s.mgt.outFull = false ∧
    let v : BitVec 32 := 66400#32
    let n : BitVec 9 := BitVec.extractLsb' 0 9 v
    (s.mgt.outFull = true ∨ n = 0 ∨ 256 < n.toNat) := by
  decide +kernel

theorem witness_SvetActs_14 :
    (let s : State := case2
    svetOn s = true ∧ s.boot.phase ≠ BootPhase.recovery ∧ s.mgt.lock = false ∧ epochReason s ≠ 0 ∧ s.boot.eraseLog2 ≠ 0 ∧
    (let off : BitVec 32 := 9437184#32
    let count : BitVec 16 := 1#16
    let n : ℕ := count.toNat * 2 ^ s.boot.eraseLog2.toNat
    count ≠ 0 ∧ off.toNat % 2 ^ s.boot.eraseLog2.toNat = 0 ∧ flashRange s off.toNat n = false ∧ flashDenied s off.toNat n = false) ∧
    let off : BitVec 32 := 4096#32
    let data : List Byte := [49#8, 50]
    1 ≤ data.length ∧ data.length ≤ 256 ∧ off.toNat % 2 ^ s.boot.pageLog2.toNat + data.length ≤ 2 ^ s.boot.pageLog2.toNat ∧
    flashRange s off.toNat data.length = false ∧ flashDenied s off.toNat data.length = false ∧
    (∀ i < data.length, flashByte s (off.toNat + i) = 255)) ∧
    let s : State := sv id
    svetOn s = true ∧ s.mgt.inFull = false ∧ s.mgt.note = 0 := by
  decide +kernel

theorem witness_SvetActs_20 :
    let s : State := sv id
    let v : BitVec 32 := 9437200#32
    let n : BitVec 9 := BitVec.extractLsb' 0 9 v
    s.mgt.outFull = false ∧ n ≠ 0 ∧ n.toNat ≤ 256 := by
  decide +kernel

theorem witness_SvetActs_21 :
    let s : State := rc
    svetOn s = true ∧ s.boot.phase = BootPhase.recovery := by
  decide +kernel

theorem witness_SvetActs_22 :
    let s : State := mb
    svetOn s = true ∧ (let data : List Byte := [49#8, 50]
    1 ≤ data.length ∧ data.length ≤ 256 ∧ s.mgt.inFull = true) ∧ s.mgt.outFull = true := by
  decide +kernel

end Acting

namespace Managing
def prog : List Byte := toBytes 8 0x8000000000000 ++ toBytes 8 0x40 ++ toBytes 8 0x8000000000000 ++ toBytes 4 64 ++ toBytes 4 0 ++ (List.range 64).map fun i => BitVec.ofNat 8 (i * 3 + 1)
def ent (t off len : Nat) (b : List Byte) : List Byte := toBytes 2 t ++ toBytes 2 1 ++ toBytes 4 off ++ toBytes 4 len ++ toBytes 4 (crc32c b).toNat
def body : List Byte := ent 5 400 0 [] ++ ent 6 400 0 [] ++ ent 7 304 96 prog ++ prog
def head (seq : Nat) : List Byte :=
  let h := toBytes 4 0x494A5653 ++ toBytes 2 1 ++ toBytes 2 0xAC80 ++ toBytes 1 0x10 ++ toBytes 1 0 ++ toBytes 1 0 ++ toBytes 1 3 ++ toBytes 4 seq ++ toBytes 4 400 ++ toBytes 4 0xA00000 ++ toBytes 4 0x2000 ++ List.replicate 220 0 ++ toBytes 4 (crc32c body).toNat
  h ++ toBytes 4 (crc32c h).toNat
def img (at_ seq : Nat) : List (Nat × Byte) := (head seq ++ body)|> placed at_
def rc : State := base.onBoot fun b => { b with phase := .recovery, eraseLog2 := 12, pageLog2 := 8, flash := img 0 7 ++ [(0xA00000, 4), (0xA01fff, 4), (0xA02000, 4)] }
def sm (f : Mgt → Mgt) : State := ({ base.onSense fun x => { x with valid := [(3, true), (5, true), (23, true)], temp := [(3, 0x300), (5, 0xf00), (23, 0x2ff)] } with mbox := { inb := [(40, 9)], outb := [(0,1),(2,7),(5,4)] } }).onMgt fun m => f { m with staging := [(0, 4), (3, 7)], smbAddr := 0x63 }
def case1 := sm (fun m => {m with smbEn := false})
def case2 := sm fun m => { m with stageOff := 223, inFull := true, smbReply := some [2] }
def case4 := sm id |>.onSense (fun x => { x with valid := [] })
def case5 := sm id |>.onInteg fun i => { i with ue := true }
def fw (l : List (Nat × MCfg)) : State := { base with shadow := { base.shadow with mcfg := l } }
def case6 := fw [(0, {MCfg.zero with floor := 4000}), (23, {MCfg.zero with floor := 4001})]
def case7 := base.onPwr (fun p => { p with dom := [] })
def case8 : State := { base with jtag := { tap := .reset, irShift := 2, ir := 0, shift := 0x2aaaaaaaab, latch := 5, bypass := true, tdo := some true } }

theorem witness_SvetActs_24 :
    let s : State := rc
    svetOn s = true ∧ s.boot.phase = BootPhase.recovery ∧
    let a : ℕ := 10485760
    let n : ℕ := 8192
    s.mgt.lock = false ∧ s.boot.eraseLog2 ≠ 0 ∧ repairAreas s = [(a, n)] := by
  decide +kernel

theorem witness_SmbusCommands :
    (((let s : State := case4
    let valid : ℕ → Bool := fun n => domRuns s (sensorDom n) && tget false s.sense.valid n
    s.mgt.smbEn = true ∧ s.pwr.vaon = true ∧ (∀ n < 24, valid n = false) ∧ ((let v : BitVec 16 := 0#16
    v.toNat < 256) ∧
    let v : BitVec 16 := 256#16
    256 ≤ v.toNat) ∧ (let data : List Byte := [49#8, 50]
    1 ≤ data.length ∧ data.length ≤ 32 ∧ s.mgt.stageOff + data.length ≤ 255) ∧ (let len : BitVec 16 := 255#16
    len ≠ 0 ∧ len.toNat ≤ 256 ∧ s.mgt.inFull = false ∧ s.mgt.note = 0) ∧ s.mgt.stageOff + 32 ≤ 255 ∧ alertSrc s = 0) ∧
    let s : State := case1
    s.mgt.smbEn = false) ∧ (let s : State := base.onPwr fun p => { p with vaon := false };
    s.pwr.vaon = false) ∧
    let s : State := case2
    s.mgt.smbEn = true ∧ s.pwr.vaon = true ∧ (let data : List Byte := [49#8, 50]
    s.mgt.stageOff + data.length ≤ 255) ∧ s.mgt.inFull = true ∧ s.mgt.stageOff + 32 ≤ 255 ∧ alertSrc s = 0) ∧
    let s : State := case5
    s.mgt.smbEn = true ∧ s.pwr.vaon = true ∧ (let data : List Byte := [49#8, 50]
    s.mgt.stageOff + data.length ≤ 255) ∧ s.mgt.inFull = false ∧ s.mgt.note = 0 ∧ s.mgt.stageOff + 32 ≤ 255 ∧ alertSrc s ≠ 0 := by
  decide +kernel

theorem witness_FloorWrites :
    let v : BitVec 64 := 140737750503328#64
    let h : Half := Half.w
    let m : Fin 22 := 0
    (let s : State := fw []
    calm s = true ∧ domOn s (h.pick 3 4) = true ∧
    let x : MCfg := { floor := BitVec.extractLsb' 0 14 v, ceil := BitVec.extractLsb' 16 14 v, prio := BitVec.extractLsb' 30 2 v }
    let shadow : Staged :=
          have __src : Staged := s.shadow;
          { tabEn := __src.tabEn, shwE := __src.shwE, shwW := __src.shwW, part := __src.part, home := __src.home, bwrEn := __src.bwrEn,
            mcfg := tset MCfg.zero s.shadow.mcfg (22 * h.idx + ↑m) x }
    let excess : Bool := decide (8000 < (List.map (fun i => (mcfg shadow h i).floor.toNat) (List.range 22)).sum)
    let below : Bool := decide (x.ceil.toNat < x.floor.toNat)
    excess = false ∧ below = false) ∧
    let s : State := case6
    calm s = true ∧ domOn s (h.pick 3 4) = true ∧
    let x : MCfg := { floor := BitVec.extractLsb' 0 14 v, ceil := BitVec.extractLsb' 16 14 v, prio := BitVec.extractLsb' 30 2 v }
    let shadow : Staged :=
          have __src : Staged := s.shadow;
          { tabEn := __src.tabEn, shwE := __src.shwE, shwW := __src.shwW, part := __src.part, home := __src.home, bwrEn := __src.bwrEn,
            mcfg := tset MCfg.zero s.shadow.mcfg (22 * h.idx + ↑m) x }
    let excess : Bool := decide (8000 < (List.map (fun i => (mcfg shadow h i).floor.toNat) (List.range 22)).sum)
    let below : Bool := decide (x.ceil.toNat < x.floor.toNat)
    (excess = true ∨ below = true) := by
  decide +kernel

theorem witness_RegistersAndScan :
    (let s : State := base
    (let v : BitVec 64 := 1311768467463790320#64
    s.pwr.vaon = true ∧ calm s = true ∧
    let w : BitVec 32 := BitVec.extractLsb' 0 32 v
    (let x : CntSel :=
          { event := BitVec.extractLsb' 0 10 w, half := BitVec.extractLsb' 10 2 w, part := BitVec.extractLsb' 12 5 w,
            partEn := w.getLsbD 17, chain := w.getLsbD 18 }
    eventOk x.event.toNat = false) ∧ (domOn s 5 = true ∨ domOn s 6 = true) ∧
    let off : BitVec 24 := 66401#24
    let wide : Bool := true
    ((off.toNat % if wide = true then 8 else 4) ≠ 0)) ∧
    let v : BitVec 64 := 0#64
    let w : BitVec 32 := BitVec.extractLsb' 0 32 v
    let x : CntSel :=
          { event := BitVec.extractLsb' 0 10 w, half := BitVec.extractLsb' 10 2 w, part := BitVec.extractLsb' 12 5 w,
            partEn := w.getLsbD 17, chain := w.getLsbD 18 }
    eventOk x.event.toNat = true) ∧
    let s : State := case7
    s.pwr.vaon = true ∧ calm s = true ∧ domOn s 5 = false ∧ domOn s 6 = false := by
  decide +kernel

theorem witness_RegistersAndScan_12 :
    let s : State := case8
    s.pwr.vaon = true := by
  decide +kernel

end Managing

namespace Leftovers
def sm (f : Mgt → Mgt) : State := ({ base.onSense fun x => { x with valid := [(3, true), (5, true), (23, true)], temp := [(3, 0x300), (5, 0xf00), (23, 0x2ff)] } with mbox := { inb := [(40, 9)], outb := [(0,1),(2,7),(5,4)] } }).onMgt fun m => f { m with staging := [(0, 4), (3, 7)], smbAddr := 0x63 }

theorem witness_SmbusCommands_21 :
    let s : State := sm id
    let temp : ℕ → BitVec 12 := fun n => tget 0 s.sense.temp n
    let valid : ℕ → Bool := fun n => domOn s (sensorDom n) && tget false s.sense.valid n
    s.mgt.smbEn = true ∧
    let n : ℕ := 3
    n < 24 ∧ valid n = true ∧ (∀ m < 24, valid m = true → (temp m).toInt ≤ (temp n).toInt) := by
  decide +kernel

theorem witness_RegistersAndScan_15 :
    let s : State := base
    s.pwr.vaon = true ∧ calm s = true ∧
    let p : Sys2Proof.Part := 3#5
    p ≠ 0 ∧
    let off : BitVec 24 := 66400#24
    off ∈ [66400, 196608, 3146272, 3407904, 2883596] := by
  decide +kernel

end Leftovers

end Sys2Proof.Tests
end

section
/-! PROOFS. What an instruction that sets a register and goes on has done (the form `executed` of the statements), and the results of
the integer instructions (R255). -/

namespace Sys2Proof.Machine

open Sys2Proof.Safety

/-! ## An instruction that has executed -/

/-- An instruction issues with any part of the registers it could issue with. -/
theorem issues_of_subset {t : ThreadId} {rs regs : List Nat} {s : State} (h : issues t regs s) (hs : ∀ r ∈ rs, r ∈ regs) :
    issues t rs s := by
  obtain ⟨h1, h2, h3, h4, h5, h6, h7, h8, hp⟩ := h
  exact ⟨h1, h2, h3, h4, h5, h6, h7, h8, fun r hr => hp r (hs r hr)⟩

/-- Retirement with an effect that writes v to gd and sets the pc has executed the instruction. -/
theorem executed_retire (t : ThreadId) (f : Thread → Thread) (d : Nat) (v : BitVec 64) (pc : Pva) (s : State)
    (hf : ∀ th : Thread, th.pc = (thr s t.val).pc → th.g = (thr s t.val).g →
      f th = { th with pc := pc, g := ((thr s t.val).setG d v).g }) :
    executed t d v pc s (retire t f s) := by
  obtain ⟨hframe, hseq⟩ := retire_frame t f s
  have hself : thr (retire t f s) t.val = ended { thr s t.val with pc := pc, g := ((thr s t.val).setG d v).g } := by
    rw [thr_retire_self, hf { thr s t.val with held := none, ahead := none } rfl rfl]
    rfl
  refine ⟨by rw [hself]; rfl, fun r => ?_, by rw [hself]; rfl, fun k hk => thr_retire_ne t f s hk, hseq, hframe⟩
  rw [hself]
  exact gReg_setG (thr s t.val) d r v

/-- The register write of an instruction that goes on at pc + 8. -/
theorem setG_next {th base : Thread} (d : Nat) (v : BitVec 64) (hpc : th.pc = base.pc) (hg : th.g = base.g) :
    (th.setG d v).next = { th with pc := base.pc + 8, g := (base.setG d v).g } := by
  unfold Thread.next Thread.setG
  split <;> simp [hpc, hg]

/-- A command's answer keeps what the statement of an executed instruction speaks of. -/
theorem executed_answer {t : ThreadId} {d : Nat} {v : BitVec 64} {pc : Pva} {s1 u : State} (s : State) (h : executed t d v pc s1 u) :
    ∃ w, answer s u = Host.Outcome.next w ∧ executed t d v pc s1 w := by
  obtain ⟨hpc, hg, hth, hother, hseq, hframe⟩ := h
  refine ⟨_, rfl, hpc, hg, hth, hother, hseq, fun b hb => ?_⟩
  have := hframe b hb
  cases b <;> exact this

/-- A legal command whose body has executed the instruction completes with it. -/
theorem completesWith_instr {t : ThreadId} {c : Instr} {regs : List Nat} {own : Nat} {body : Thread → State → State} {d : Nat}
    {v : BitVec 64} {pc : Pva} {s : State} (he : exec c s = answer s (instr t c true true regs own body s)) (hi : issues t regs s)
    (hx : executed t d v pc (fetched t s) (body (thr (fetched t s) t.val) (fetched t s))) (hc : standsAt t c s) :
    completesWith c s (executed t d v pc (fetched t s)) := by
  rw [completesWith, he, instr_issues own body hi hc]
  exact executed_answer s hx

/-! ## The results (R255) -/

/-- An integer instruction sets gd to what its operation gives for ga and y, and goes on at pc + 8. -/
theorem alu_completes {t : ThreadId} {f : TFields} {legal : Bool} {s : State} (c : Instr) (op : BitVec 64 → BitVec 64 → BitVec 64)
    (hi : issues t [f.d.toNat, f.a.toNat, f.b.toNat] s) (he : exec c s = alu t c f legal op s) (hl : legal = true) (v : BitVec 64)
    (hv : op (gReg (thr (fetched t s) t.val) f.a.toNat) (secondOp (thr (fetched t s) t.val) f) = v) (hc : standsAt t c s) :
    completesWith c s (executed t f.d.toNat v ((thr (fetched t s) t.val).pc + 8) (fetched t s)) := by
  subst hl hv
  exact completesWith_instr he hi (executed_retire t _ _ _ _ _ fun _ => setG_next _ _) hc

/-- A word with V and C clear keeps R246's rule for unused fields. -/
theorem noVC_of_zero {f : TFields} (hv : f.v = 0) (hc : f.c = 0) : noVC f = true := by simp [noVC, hv, hc]

/-- ADDPC sets gd to pc + imm. -/
theorem addpc_completes {t : ThreadId} {f : TFields} {s : State} (hi : issues t [f.d.toNat] s) (hl : onlyDI f = true)
    (hc : standsAt t (.addpc t f) s) :
    completesWith (.addpc t f) s (executed t f.d.toNat ((thr (fetched t s) t.val).pc.setWidth 64 + f.imm.signExtend 64)
      ((thr (fetched t s) t.val).pc + 8) (fetched t s)) := by
  have he : exec (.addpc t f) s = execAddpc t f s := rfl
  rw [execAddpc, hl] at he
  exact completesWith_instr he hi (executed_retire t _ _ _ _ _ fun _ => setG_next _ _) hc

/-- LIH puts IMM above ga[31:0]. -/
theorem append_low_half (imm : BitVec 32) (a : BitVec 64) :
    imm ++ a.extractLsb' 0 32 = (imm.setWidth 64 <<< 32) ||| (a &&& 0xFFFFFFFF) := by
  have hlow : a &&& 0xFFFFFFFF = (a.extractLsb' 0 32).setWidth 64 := by
    apply BitVec.eq_of_toNat_eq
    have hmod := Nat.and_two_pow_sub_one_eq_mod a.toNat 32
    simp at hmod ⊢
    omega
  rw [hlow, BitVec.append_def, BitVec.shiftLeftZeroExtend_eq]
  rfl

/-- The conditions of R256, each by its number. -/
theorem cond_iff {v : BitVec 4} (h : v.toNat < 6) (a y : BitVec 64) :
    cond v.toNat a y = true ↔
      (v = 0 ∧ a = y) ∨ (v = 1 ∧ a ≠ y) ∨ (v = 2 ∧ a.toInt < y.toInt) ∨ (v = 3 ∧ y.toInt ≤ a.toInt) ∨
        (v = 4 ∧ a.toNat < y.toNat) ∨ (v = 5 ∧ y.toNat ≤ a.toNat) := by
  have hv : v = 0 ∨ v = 1 ∨ v = 2 ∨ v = 3 ∨ v = 4 ∨ v = 5 := by bv_omega
  obtain rfl | rfl | rfl | rfl | rfl | rfl := hv <;> simp [cond]

/-- Settles O7: each integer instruction is `alu` with its own operation, and ADDPC retires on the pc alone. -/
theorem integerResults : Obligations.IntegerResults := by
  intro t f s hi s1 th ga y sh gives
  refine ⟨fun hv hc => ?_, fun hv hc => ?_⟩
  · have hl := noVC_of_zero hv hc
    refine ⟨?_, ?_, ?_, ?_, ?_, ?_, ?_, ?_, ?_, ?_, ?_, fun hb => ?_, fun ha hb => ?_⟩
    · exact alu_completes (.add t f) (· + ·) hi rfl hl _ rfl
    · exact alu_completes (.sub t f) (· - ·) hi rfl hl _ rfl
    · exact alu_completes (.mul t f) (· * ·) hi rfl hl _ rfl
    · exact alu_completes (.and_ t f) (· &&& ·) hi rfl hl _ rfl
    · exact alu_completes (.or_ t f) (· ||| ·) hi rfl hl _ rfl
    · exact alu_completes (.xor t f) (· ^^^ ·) hi rfl hl _ rfl
    · exact alu_completes (.shl t f) (fun a y => a <<< shiftOf y) hi rfl hl _ rfl
    · exact alu_completes (.shr t f) (fun a y => a >>> shiftOf y) hi rfl hl _ rfl
    · exact alu_completes (.sar t f) (fun a y => a.sshiftRight (shiftOf y)) hi rfl hl _ rfl
    · exact alu_completes (.div t f) divW hi rfl hl _ rfl
    · exact alu_completes (.rem t f) remW hi rfl hl _ rfl
    · exact alu_completes (.lih t f) (fun a _ => f.imm ++ a.extractLsb' 0 32) hi rfl (by simp [hb, hl]) _
        (append_low_half _ _)
    · exact addpc_completes (issues_of_subset hi (by simp)) (by simp [onlyDI, ha, hb, hl])
  · exact alu_completes (.set_ t f) (fun a y => if cond f.v.toNat a y then 1 else 0) hi rfl (by simp [condOk, hv, hc]) _
      (if_congr (cond_iff hv _ _) rfl rfl)

end Sys2Proof.Machine
end

section
/-! PROOFS. A write of one 32-bit register by partition 0 (R431 to R434), and the writes of the bandwidth settings (R304, R309). -/

namespace Sys2Proof.Machine

open Sys2Proof.Safety

/-! ## A calm machine stays calm -/

/-- Whether a machine is calm is a matter of its memory pipelines, the ATU and the allocator. -/
theorem calm_congr {s u : State} (hcache : u.cache = s.cache) (hatu : u.atu = s.atu) (hbuf : u.buf = s.buf) : calm u = calm s := by
  simp [calm, quiet, addlsIdle, hcache, hatu, hbuf]

/-! ## A write of one word -/

/-- A register's first word at an aligned offset is the whole of a 4-byte access. -/
theorem ctlWords_of_regAt {off : Nat} {r : Reg} (halign : off % 4 = 0) (hreg : regAt off = some (r, 0)) :
    ctlWords off 4 = some [{ off := off, reg := r, word := 0 }] := by
  simp [ctlWords, ctlWord, halign, hreg]

/-- Partition 0's write of a 32-bit register whose block and half are on has the register's own effect, and what follows from it. -/
theorem ctlWrite_word {off : Nat} {r : Reg} {s : State} (v : BitVec 64) (halign : off % 4 = 0) (hreg : regAt off = some (r, 0))
    (hwide : r.wide = false) (hup : blockUp s off = true) (hhalf : halfOn s off r = true) :
    ctlWrite 0 off 4 v s = (stOk, settle (write32 r (v.extractLsb' 0 32) s)) := by
  have hinv : (r == .xltInv) = false := by
    rw [beq_eq_false_iff_ne]
    rintro rfl
    cases hwide
  simp [ctlWrite, ctlWords_of_regAt halign hreg, hinv, ctlRights, ctlUp, hup, wholeWide, ctlStore, hhalf, writeWord, hwide]

/-- Such a write to a calm machine answers the register's effect, when that effect leaves the machine calm. -/
theorem exec_registerWrite_word {off : BitVec 24} {r : Reg} {s : State} (who : Requester) (v : BitVec 64) (halign : off.toNat % 4 = 0)
    (hreg : regAt off.toNat = some (r, 0)) (hwide : r.wide = false) (hup : blockUp s off.toNat = true)
    (hhalf : halfOn s off.toNat r = true) (hcalm : calm (write32 r (v.extractLsb' 0 32) s) = true) :
    exec (.registerWrite who 0 off false v) s = answer s (write32 r (v.extractLsb' 0 32) s) := by
  change answer s (ctlWrite 0 off.toNat 4 v s).2 = _
  rw [ctlWrite_word v halign hreg hwide hup hhalf, settle_calm hcalm]

/-! ## Where the bandwidth settings' shadows stand (R309) -/

/-- The offset at which element n of an array of registers begins. -/
theorem elem_start {base stride count n : Nat} (hn : n < count) (hs : 0 < stride) :
    elem (base + stride * n) base stride count = some (n, 0) := by
  have hlt : stride * n < stride * count := (Nat.mul_lt_mul_left hs).mpr hn
  rw [elem, if_pos (by omega), Nat.add_sub_cancel_left, Nat.mul_div_cancel_left n hs, Nat.mul_mod_right]

/-- An offset past an array is in none of its elements. -/
theorem elem_of_ge {o base stride count : Nat} (h : base + stride * count ≤ o) : elem o base stride count = none :=
  if_neg (by omega)

/-- The offset of the shadow of a master's bandwidth setting. -/
def mcfgShadowOff (h : Half) (m : Nat) : Nat := 0xE9000 + h.pick 0 0x400 + 16 * m

theorem mcfgShadowOff_bounds (h : Half) {m : Nat} (hm : m < 22) : 0xE9000 ≤ mcfgShadowOff h m ∧ mcfgShadowOff h m < 0xE9560 := by
  cases h <;> simp only [mcfgShadowOff, Half.pick] <;> omega

theorem mcfgShadowOff_mod_four (h : Half) (m : Nat) : mcfgShadowOff h m % 4 = 0 := by
  cases h <;> simp only [mcfgShadowOff, Half.pick] <;> omega

/-- The settings of E stand from 0x1000 of the block's staged registers, those of W from 0x1400. -/
theorem bwrStagedAt_mcfg (h : Half) {m : Nat} (hm : m < 22) (sh : Bool) :
    bwrStagedAt (h.pick 0x1000 0x1400 + 0x10 * m) sh = some (.bwrMcfg h m sh) := by
  cases h with
  | e =>
    have hin := elem_start (base := 0x1000) (stride := 0x10) hm (by decide)
    simp [bwrStagedAt, Half.pick, hin]
  | w =>
    have hpast : elem (0x1400 + 0x10 * m) 0x1000 0x10 22 = none := elem_of_ge (by omega)
    have hin := elem_start (base := 0x1400) (stride := 0x10) hm (by decide)
    simp [bwrStagedAt, Half.pick, hpast, hin]

/-- The block BWR, from 0xE0000 to 0xFFFFF (R431). -/
theorem regStart_bwr {off : Nat} (hlo : 0xE0000 ≤ off) (hhi : off < 0x100000) : regStart off = bwrAt (off - 0xE0000) := by
  unfold regStart
  repeat rw [if_neg (by omega)]
  rw [if_pos hhi]

theorem regAt_mcfgShadowOff (h : Half) {m : Nat} (hm : m < 22) : regAt (mcfgShadowOff h m) = some (.bwrMcfg h m true, 0) := by
  obtain ⟨hlo, hhi⟩ := mcfgShadowOff_bounds h hm
  have hshadow : 0x8000 ≤ mcfgShadowOff h m - 0xE0000 := by omega
  have hstaged : mcfgShadowOff h m - 0xE0000 - 0x8000 = h.pick 0x1000 0x1400 + 0x10 * m := by
    cases h <;> simp only [mcfgShadowOff, Half.pick] <;> omega
  have hstart : regStart (mcfgShadowOff h m) = some (.bwrMcfg h m true) := by
    rw [regStart_bwr (by omega) (by omega), bwrAt, if_pos hshadow, hstaged, bwrStagedAt_mcfg h hm]
  simp [regAt, hstart]

/-- Domains 3 and 4 serve the block BWR (R431). -/
theorem serving2_bwr {off : Nat} (hlo : 0xE0000 ≤ off) (hhi : off < 0x100000) : serving2 off = (3, 4) := by
  unfold serving2
  repeat rw [if_neg (by omega)]
  rw [if_pos hhi]

/-- A bandwidth setting can be written while its own half's domain is on. -/
theorem mcfgShadowOff_up {h : Half} {m : Nat} {s : State} (hm : m < 22) (hon : domOn s (h.pick 3 4) = true) :
    blockUp s (mcfgShadowOff h m) = true ∧ halfOn s (mcfgShadowOff h m) (.bwrMcfg h m true) = true := by
  obtain ⟨hlo, hhi⟩ := mcfgShadowOff_bounds h hm
  have hdom := serving2_bwr (off := mcfgShadowOff h m) (by omega) (by omega)
  refine ⟨?_, by simpa [halfOn, Reg.half, hdom] using hon⟩
  cases h <;> simp only [Half.pick] at hon <;> simp [blockUp, hdom, hon]

/-! ## The write (R304) -/

/-- The setting that a written value names. -/
def mcfgOf (v : BitVec 64) : MCfg := { floor := v.extractLsb' 0 14, ceil := v.extractLsb' 16 14, prio := v.extractLsb' 30 2 }

/-- The shadow with master m's setting of half h replaced. -/
def withMcfg (h : Half) (m : Nat) (x : MCfg) (v : Staged) : Staged := { v with mcfg := tset MCfg.zero v.mcfg (22 * h.idx + m) x }

/-- The floors of the half would sum to more than 8,000. -/
def floorExcess (h : Half) (m : Nat) (x : MCfg) (s : State) : Bool := decide (8000 < floorSum (withMcfg h m x s.shadow) h)

/-- CEIL lies below FLOOR. -/
def ceilBelow (x : MCfg) : Bool := decide (x.ceil.toNat < x.floor.toNat)

theorem extractLsb'_low_word (v : BitVec 64) {k n : Nat} (h : k + n ≤ 32) :
    (v.extractLsb' 0 32).extractLsb' k n = v.extractLsb' k n := by
  ext i hi
  simp
  omega

/-- A write that keeps both conditions is taken; any other keeps the shadow and sets the bits of the conditions it breaks. -/
theorem writeMcfg_eq (h : Half) (m : Nat) (v : BitVec 64) (s : State) :
    writeMcfg h m (v.extractLsb' 0 32) s =
      if floorExcess h m (mcfgOf v) s || ceilBelow (mcfgOf v) then
        s.onBwr fun b => { b with errFsum := b.errFsum || floorExcess h m (mcfgOf v) s, errCfg := b.errCfg || ceilBelow (mcfgOf v) }
      else s.onShadow (withMcfg h m (mcfgOf v)) := by
  unfold writeMcfg
  rw [extractLsb'_low_word v (by decide), extractLsb'_low_word v (by decide), extractLsb'_low_word v (by decide)]
  rfl

theorem calm_writeMcfg {s : State} (hcalm : calm s = true) (h : Half) (m : Nat) (v : BitVec 64) :
    calm (writeMcfg h m (v.extractLsb' 0 32) s) = true := by
  rw [writeMcfg_eq]
  split <;> exact (calm_congr rfl rfl rfl).trans hcalm

/-- Partition 0's write of the shadow of a bandwidth setting does what `writeMcfg` says, and nothing follows from it. -/
theorem exec_mcfgWrite {h : Half} {m : Nat} {s : State} (who : Requester) (v : BitVec 64) (hm : m < 22) (hcalm : calm s = true)
    (hon : domOn s (h.pick 3 4) = true) :
    exec (.registerWrite who 0 (BitVec.ofNat 24 (mcfgShadowOff h m)) false v) s = answer s (writeMcfg h m (v.extractLsb' 0 32) s) := by
  obtain ⟨-, hhi⟩ := mcfgShadowOff_bounds h hm
  obtain ⟨hup, hhalf⟩ := mcfgShadowOff_up hm hon
  have hoff : (BitVec.ofNat 24 (mcfgShadowOff h m)).toNat = mcfgShadowOff h m := by
    rw [BitVec.toNat_ofNat, Nat.mod_eq_of_lt (by omega)]
  exact exec_registerWrite_word (r := .bwrMcfg h m true) who v (by rw [hoff, mcfgShadowOff_mod_four])
    (by rw [hoff, regAt_mcfgShadowOff h hm]) rfl (by rw [hoff, hup]) (by rw [hoff, hhalf]) (calm_writeMcfg hcalm h m v)

/-- A command whose effect is on the shadow alone answers that. -/
theorem completesWith_onShadow {c : Instr} {s : State} {f : Staged → Staged} (he : exec c s = answer s (s.onShadow f)) :
    completesWith c s fun u => u.shadow = f s.shadow ∧ changesOnly [.shadow] s u := by
  refine ⟨_, he, rfl, fun b hb => ?_⟩
  cases b with
  | shadow => simp at hb
  | _ => rfl

/-- A command whose effect is on the bandwidth regulator alone answers that. -/
theorem completesWith_onBwr {c : Instr} {s : State} {f : Bwr → Bwr} (he : exec c s = answer s (s.onBwr f)) :
    completesWith c s fun u => u.bwr = f s.bwr ∧ changesOnly [.bwr] s u := by
  refine ⟨_, he, rfl, fun b hb => ?_⟩
  cases b with
  | bwr => simp at hb
  | _ => rfl

/-- Settles O58: the offset decodes to the setting's shadow, whose write takes the value or refuses it by the two conditions of R304. -/
theorem floorWrites : Obligations.FloorWrites := by
  intro who v h m s hcalm hon c x shadow excess below
  have he : exec c s = answer s (writeMcfg h m.val (v.extractLsb' 0 32) s) := exec_mcfgWrite who v m.isLt hcalm hon
  rw [writeMcfg_eq] at he
  refine ⟨fun hexcess hbelow => ?_, fun hrefused => ?_⟩
  · have hkeeps : ¬ (floorExcess h m.val (mcfgOf v) s || ceilBelow (mcfgOf v)) = true := by
      rw [Bool.or_eq_true, not_or, Bool.not_eq_true, Bool.not_eq_true]
      exact ⟨hexcess, hbelow⟩
    rw [if_neg hkeeps] at he
    exact completesWith_onShadow he
  · have hbreaks : (floorExcess h m.val (mcfgOf v) s || ceilBelow (mcfgOf v)) = true := (Bool.or_eq_true _ _).mpr hrefused
    rw [if_pos hbreaks] at he
    exact completesWith_onBwr he

end Sys2Proof.Machine
end

section
/-! PROOFS. The state that a command's answer leaves, and the frames of the statements: which blocks a command changes. -/

namespace Sys2Proof.Machine

open Sys2Proof.Safety

/-! ## The answer -/

/-- The state that the answer of a command leaves: its own effect, with the timebase's count and the queue of before (R71). -/
def answered (s t : State) : State := { t with clk := { t.clk with time := s.clk.time }, pending := s.pending }

theorem answer_eq (s t : State) : answer s t = .next (answered s t) := rfl

/-- A command that answers t completes with what holds of the state it leaves. -/
theorem completesWith_answer {c : Instr} {s t : State} {P : State → Prop} (he : exec c s = answer s t) (hP : P (answered s t)) :
    completesWith c s P := ⟨_, he, hP⟩

section
variable (s t : State)
@[simp] theorem answered_time : (answered s t).clk.time = s.clk.time := rfl
@[simp] theorem answered_pending : (answered s t).pending = s.pending := rfl
@[simp] theorem answered_loops : (answered s t).loops = t.loops := rfl
@[simp] theorem answered_glb : (answered s t).glb = t.glb := rfl
@[simp] theorem answered_cur : (answered s t).cur = t.cur := rfl
@[simp] theorem answered_prev : (answered s t).prev = t.prev := rfl
@[simp] theorem answered_shadow : (answered s t).shadow = t.shadow := rfl
@[simp] theorem answered_tables : (answered s t).tables = t.tables := rfl
@[simp] theorem answered_xlt : (answered s t).xlt = t.xlt := rfl
@[simp] theorem answered_cch : (answered s t).cch = t.cch := rfl
@[simp] theorem answered_cache : (answered s t).cache = t.cache := rfl
@[simp] theorem answered_buf : (answered s t).buf = t.buf := rfl
@[simp] theorem answered_atu : (answered s t).atu = t.atu := rfl
@[simp] theorem answered_seq : (answered s t).seq = t.seq := rfl
@[simp] theorem answered_links : (answered s t).links = t.links := rfl
@[simp] theorem answered_bwr : (answered s t).bwr = t.bwr := rfl
@[simp] theorem answered_integ : (answered s t).integ = t.integ := rfl
@[simp] theorem answered_log : (answered s t).log = t.log := rfl
@[simp] theorem answered_tst : (answered s t).tst = t.tst := rfl
@[simp] theorem answered_rep : (answered s t).rep = t.rep := rfl
@[simp] theorem answered_pwr : (answered s t).pwr = t.pwr := rfl
@[simp] theorem answered_sense : (answered s t).sense = t.sense := rfl
@[simp] theorem answered_boot : (answered s t).boot = t.boot := rfl
@[simp] theorem answered_uart : (answered s t).uart = t.uart := rfl
@[simp] theorem answered_mgt : (answered s t).mgt = t.mgt := rfl
@[simp] theorem answered_mbox : (answered s t).mbox = t.mbox := rfl
@[simp] theorem answered_cnt : (answered s t).cnt = t.cnt := rfl
@[simp] theorem answered_jtag : (answered s t).jtag = t.jtag := rfl
@[simp] theorem answered_freeCtr : (answered s t).freeCtr = t.freeCtr := rfl
end

section
variable (s t : State) (n : Nat)
@[simp] theorem thr_answered : thr (answered s t) n = thr t n := rfl
@[simp] theorem port_answered : port (answered s t) n = port t n := rfl
@[simp] theorem link_answered : link (answered s t) n = link t n := rfl
@[simp] theorem region_answered : region (answered s t) n = region t n := rfl
@[simp] theorem domSt_answered : domSt (answered s t) n = domSt t n := rfl
@[simp] theorem metaAt_answered : metaAt (answered s t) n = metaAt t n := rfl
end

/-! ## Frames -/

/-- What no statement's frame speaks of may differ: the timebase's count and the queue. -/
@[simp] theorem changesOnly_answered {bs : List Block} {r s t : State} : changesOnly bs r (answered s t) ↔ changesOnly bs r t :=
  forall_congr' fun b => by cases b <;> exact Iff.rfl

@[simp] theorem sameBytes_answered {r s t : State} : sameBytes r (answered s t) ↔ sameBytes r t := Iff.rfl

@[simp] theorem otherThreads_answered {k : ThreadId} {r s t : State} : otherThreads k r (answered s t) ↔ otherThreads k r t := Iff.rfl

theorem Block.same_refl (b : Block) (s : State) : b.same s s := by cases b <;> rfl

theorem Block.same_trans {b : Block} {s u v : State} (h1 : b.same s u) (h2 : b.same u v) : b.same s v := by
  cases b <;> exact Eq.trans h2 h1

theorem changesOnly_refl (bs : List Block) (s : State) : changesOnly bs s s := fun b _ => Block.same_refl b s

theorem changesOnly_trans {bs : List Block} {s u v : State} (h1 : changesOnly bs s u) (h2 : changesOnly bs u v) : changesOnly bs s v :=
  fun b hb => Block.same_trans (h1 b hb) (h2 b hb)

theorem changesOnly_mono {bs cs : List Block} {s u : State} (h : changesOnly bs s u) (hs : ∀ b ∈ bs, b ∈ cs) : changesOnly cs s u :=
  fun b hb => h b fun hm => hb (hs b hm)

theorem sameBytes_refl (s : State) : sameBytes s s := fun _ => rfl

theorem sameBytes_of_data {s u : State} (h : u.cache.data = s.cache.data) : sameBytes s u := fun a => by rw [h]

theorem otherThreads_trans {t : ThreadId} {s u v : State} (h1 : otherThreads t s u) (h2 : otherThreads t u v) : otherThreads t s v :=
  fun k hk => (h2 k hk).trans (h1 k hk)

end Sys2Proof.Machine
end

section
/-! PROOFS. The frame of a command, update by update: an update of a block that the frame names may be left out. -/

namespace Sys2Proof.Machine

open Sys2Proof.Safety

/-- States that agree outside the blocks of a frame are interchangeable in it. -/
theorem changesOnly_congr {bs : List Block} {r s u : State} (h : ∀ b, b ∉ bs → b.same s u) : changesOnly bs r u ↔ changesOnly bs r s :=
  forall_congr' fun b => forall_congr' fun hb => by
    have := h b hb
    cases b <;> exact Eq.congr_left this

section
variable {bs : List Block} {r s : State}

@[simp] theorem changesOnly_onClk {f : Clk → Clk} (h : Block.clk ∈ bs) : changesOnly bs r (s.onClk f) ↔ changesOnly bs r s :=
  changesOnly_congr fun b hb => by
    cases b with
    | clk => exact absurd h hb
    | _ => rfl

@[simp] theorem changesOnly_onLoops {f : Loops → Loops} (h : Block.loops ∈ bs) : changesOnly bs r (s.onLoops f) ↔ changesOnly bs r s :=
  changesOnly_congr fun b hb => by
    cases b with
    | loops => exact absurd h hb
    | _ => rfl

@[simp] theorem changesOnly_onGlb {f : Glb → Glb} (h : Block.glb ∈ bs) : changesOnly bs r (s.onGlb f) ↔ changesOnly bs r s :=
  changesOnly_congr fun b hb => by
    cases b with
    | glb => exact absurd h hb
    | _ => rfl

@[simp] theorem changesOnly_onShadow {f : Staged → Staged} (h : Block.shadow ∈ bs) : changesOnly bs r (s.onShadow f) ↔ changesOnly bs r s :=
  changesOnly_congr fun b hb => by
    cases b with
    | shadow => exact absurd h hb
    | _ => rfl

@[simp] theorem changesOnly_onTables {f : Tables → Tables} (h : Block.tables ∈ bs) : changesOnly bs r (s.onTables f) ↔ changesOnly bs r s :=
  changesOnly_congr fun b hb => by
    cases b with
    | tables => exact absurd h hb
    | _ => rfl

@[simp] theorem changesOnly_onXlt {f : Xlt → Xlt} (h : Block.xlt ∈ bs) : changesOnly bs r (s.onXlt f) ↔ changesOnly bs r s :=
  changesOnly_congr fun b hb => by
    cases b with
    | xlt => exact absurd h hb
    | _ => rfl

@[simp] theorem changesOnly_onCch {f : Cch → Cch} (h : Block.cch ∈ bs) : changesOnly bs r (s.onCch f) ↔ changesOnly bs r s :=
  changesOnly_congr fun b hb => by
    cases b with
    | cch => exact absurd h hb
    | _ => rfl

@[simp] theorem changesOnly_onCache {f : Cache → Cache} (h : Block.cache ∈ bs) : changesOnly bs r (s.onCache f) ↔ changesOnly bs r s :=
  changesOnly_congr fun b hb => by
    cases b with
    | cache => exact absurd h hb
    | _ => rfl

@[simp] theorem changesOnly_onBuf {f : Buf → Buf} (h : Block.buf ∈ bs) : changesOnly bs r (s.onBuf f) ↔ changesOnly bs r s :=
  changesOnly_congr fun b hb => by
    cases b with
    | buf => exact absurd h hb
    | _ => rfl

@[simp] theorem changesOnly_onAtu {f : Atu → Atu} (h : Block.atu ∈ bs) : changesOnly bs r (s.onAtu f) ↔ changesOnly bs r s :=
  changesOnly_congr fun b hb => by
    cases b with
    | atu => exact absurd h hb
    | _ => rfl

@[simp] theorem changesOnly_onSeq {f : Seq → Seq} (h : Block.seq ∈ bs) : changesOnly bs r (s.onSeq f) ↔ changesOnly bs r s :=
  changesOnly_congr fun b hb => by
    cases b with
    | seq => exact absurd h hb
    | _ => rfl

@[simp] theorem changesOnly_onLinks {f : Links → Links} (h : Block.links ∈ bs) : changesOnly bs r (s.onLinks f) ↔ changesOnly bs r s :=
  changesOnly_congr fun b hb => by
    cases b with
    | links => exact absurd h hb
    | _ => rfl

@[simp] theorem changesOnly_onBwr {f : Bwr → Bwr} (h : Block.bwr ∈ bs) : changesOnly bs r (s.onBwr f) ↔ changesOnly bs r s :=
  changesOnly_congr fun b hb => by
    cases b with
    | bwr => exact absurd h hb
    | _ => rfl

@[simp] theorem changesOnly_onInteg {f : Integ → Integ} (h : Block.integ ∈ bs) : changesOnly bs r (s.onInteg f) ↔ changesOnly bs r s :=
  changesOnly_congr fun b hb => by
    cases b with
    | integ => exact absurd h hb
    | _ => rfl

@[simp] theorem changesOnly_onLog {f : ErrLog → ErrLog} (h : Block.log ∈ bs) : changesOnly bs r (s.onLog f) ↔ changesOnly bs r s :=
  changesOnly_congr fun b hb => by
    cases b with
    | log => exact absurd h hb
    | _ => rfl

@[simp] theorem changesOnly_onTst {f : Tst → Tst} (h : Block.tst ∈ bs) : changesOnly bs r (s.onTst f) ↔ changesOnly bs r s :=
  changesOnly_congr fun b hb => by
    cases b with
    | tst => exact absurd h hb
    | _ => rfl

@[simp] theorem changesOnly_onRep {f : Repairs → Repairs} (h : Block.rep ∈ bs) : changesOnly bs r (s.onRep f) ↔ changesOnly bs r s :=
  changesOnly_congr fun b hb => by
    cases b with
    | rep => exact absurd h hb
    | _ => rfl

@[simp] theorem changesOnly_onPwr {f : Pwr → Pwr} (h : Block.pwr ∈ bs) : changesOnly bs r (s.onPwr f) ↔ changesOnly bs r s :=
  changesOnly_congr fun b hb => by
    cases b with
    | pwr => exact absurd h hb
    | _ => rfl

@[simp] theorem changesOnly_onSense {f : Sense → Sense} (h : Block.sense ∈ bs) : changesOnly bs r (s.onSense f) ↔ changesOnly bs r s :=
  changesOnly_congr fun b hb => by
    cases b with
    | sense => exact absurd h hb
    | _ => rfl

@[simp] theorem changesOnly_onBoot {f : Boot → Boot} (h : Block.boot ∈ bs) : changesOnly bs r (s.onBoot f) ↔ changesOnly bs r s :=
  changesOnly_congr fun b hb => by
    cases b with
    | boot => exact absurd h hb
    | _ => rfl

@[simp] theorem changesOnly_onUart {f : Uart → Uart} (h : Block.uart ∈ bs) : changesOnly bs r (s.onUart f) ↔ changesOnly bs r s :=
  changesOnly_congr fun b hb => by
    cases b with
    | uart => exact absurd h hb
    | _ => rfl

@[simp] theorem changesOnly_onMgt {f : Mgt → Mgt} (h : Block.mgt ∈ bs) : changesOnly bs r (s.onMgt f) ↔ changesOnly bs r s :=
  changesOnly_congr fun b hb => by
    cases b with
    | mgt => exact absurd h hb
    | _ => rfl

@[simp] theorem changesOnly_onMbox {f : Mbox → Mbox} (h : Block.mbox ∈ bs) : changesOnly bs r (s.onMbox f) ↔ changesOnly bs r s :=
  changesOnly_congr fun b hb => by
    cases b with
    | mbox => exact absurd h hb
    | _ => rfl

@[simp] theorem changesOnly_onCnt {f : Cnt → Cnt} (h : Block.cnt ∈ bs) : changesOnly bs r (s.onCnt f) ↔ changesOnly bs r s :=
  changesOnly_congr fun b hb => by
    cases b with
    | cnt => exact absurd h hb
    | _ => rfl

@[simp] theorem changesOnly_cnt {ev k : Nat} {h : Option Half} {p : Option Part} (hb : Block.cnt ∈ bs) :
    changesOnly bs r (cnt ev h p k s) ↔ changesOnly bs r s := by
  rw [cnt_only]
  exact changesOnly_onCnt (f := fun _ => (cnt ev h p k s).cnt) hb

@[simp] theorem changesOnly_countOps {h : Half} {lo n k : Nat} (hb : Block.tst ∈ bs) :
    changesOnly bs r (countOps h lo n k s) ↔ changesOnly bs r s := by
  rw [countOps_only]
  exact changesOnly_onTst (f := fun _ => (countOps h lo n k s).tst) hb

@[simp] theorem changesOnly_modThr {t : Nat} {f : Thread → Thread} (hb : Block.seq ∈ bs) :
    changesOnly bs r (modThr s t f) ↔ changesOnly bs r s := changesOnly_onSeq (f := fun _ => (modThr s t f).seq) hb

@[simp] theorem changesOnly_setPort {n : Nat} {p : Port} (hb : Block.links ∈ bs) :
    changesOnly bs r (setPort s n p) ↔ changesOnly bs r s := changesOnly_onLinks (f := fun _ => (setPort s n p).links) hb

@[simp] theorem changesOnly_setLink {n : Nat} {x : LinkSt} (hb : Block.links ∈ bs) :
    changesOnly bs r (setLink s n x) ↔ changesOnly bs r s := changesOnly_onLinks (f := fun _ => (setLink s n x).links) hb

@[simp] theorem changesOnly_self : changesOnly bs s s ↔ True := iff_true_intro (changesOnly_refl bs s)
end

end Sys2Proof.Machine
end

section
/-! PROOFS. What every step does: it answers, keeps the queue and the timebase (R71), and starts from the state that reset leaves. -/

namespace Sys2Proof.Machine

open Sys2Proof.Safety

/-! ## Every command answers -/

/-- The atomics of a partner whose operand breaks R288. -/
def brokenOperand (c : Instr) : Prop :=
  (∃ m v, c = .linkAadd m false v) ∨ (∃ m v w, c = .linkAcas m false v w) ∨ (∃ m v, c = .linkAswp m false v) ∨
    (∃ m sg v, c = .linkAmin m false sg v) ∨ (∃ m sg v, c = .linkAmax m false sg v)

/-- A partner's atomic answers, unless bytes 4 to 7 of a 4-byte operand are not 0 (R288). -/
theorem linkAtom_cases (m : PHdr) (opc n : Nat) (k : AtomKind) (wide : Bool) (v cmp : BitVec 64) (s : State) :
    (∃ t, linkAtom m opc n k wide v cmp s = answer s t) ∨
      (linkAtom m opc n k wide v cmp s = .fault .breach ∧ wide = false ∧ (operandZero wide v && operandZero wide cmp) = false) := by
  by_cases h : (operandOk wide v && operandOk wide cmp) = true
  · exact .inl ⟨_, if_pos h⟩
  · refine .inr ⟨if_neg h, ?_, Bool.eq_false_iff.mpr h⟩
    cases wide
    · rfl
    · simp [operandOk] at h

/-- Every command but the two that start the timebase again answers with the timebase and the queue kept, or breaks R288. -/
theorem exec_cases (c : Instr) (s : State) :
    restartsTime c = true ∨ (∃ t, exec c s = answer s t) ∨ (exec c s = .fault .breach ∧ c.wf = false ∧ brokenOperand c) := by
  cases c with
  | vaonPowerOn => exact .inl rfl
  | vaonLoss => exact .inl rfl
  | linkAadd m wide v =>
    obtain h | ⟨hf, rfl, hz⟩ := linkAtom_cases m 0x10 8 .add wide v 0 s
    · exact .inr (.inl h)
    · exact .inr (.inr ⟨hf, by simpa [Instr.wf, operandZero] using hz, .inl ⟨m, v, rfl⟩⟩)
  | linkAcas m wide v cmp =>
    obtain h | ⟨hf, rfl, hz⟩ := linkAtom_cases m 0x11 16 .cas wide v cmp s
    · exact .inr (.inl h)
    · exact .inr (.inr ⟨hf, hz, .inr (.inl ⟨m, v, cmp, rfl⟩)⟩)
  | linkAswp m wide v =>
    obtain h | ⟨hf, rfl, hz⟩ := linkAtom_cases m 0x12 8 .swp wide v 0 s
    · exact .inr (.inl h)
    · exact .inr (.inr ⟨hf, by simpa [Instr.wf, operandZero] using hz, .inr (.inr (.inl ⟨m, v, rfl⟩))⟩)
  | linkAmin m wide sg v =>
    obtain h | ⟨hf, rfl, hz⟩ := linkAtom_cases m 0x13 8 (.min sg) wide v 0 s
    · exact .inr (.inl h)
    · exact .inr (.inr ⟨hf, by simpa [Instr.wf, operandZero] using hz, .inr (.inr (.inr (.inl ⟨m, sg, v, rfl⟩)))⟩)
  | linkAmax m wide sg v =>
    obtain h | ⟨hf, rfl, hz⟩ := linkAtom_cases m 0x14 8 (.max sg) wide v 0 s
    · exact .inr (.inl h)
    · exact .inr (.inr ⟨hf, by simpa [Instr.wf, operandZero] using hz, .inr (.inr (.inr (.inr ⟨m, sg, v, rfl⟩)))⟩)
  | _ => exact .inr (.inl ⟨_, rfl⟩)

/-- The always-on supply comes, or is there already, or goes: only the first and the last lose the timebase (R37). -/
theorem exec_restartsTime {c : Instr} (h : restartsTime c = true) (s : State) :
    ∃ u, exec c s = .next u ∧ u.pending = s.pending ∧ (u.clk.time = 0 ∨ (u = s ∧ s.pwr.vaon = true ∧ c = .vaonPowerOn)) := by
  cases c with
  | vaonPowerOn =>
    refine ⟨if s.pwr.vaon then s else powerOnNow s, rfl, ?_⟩
    split
    · exact ⟨rfl, .inr ⟨rfl, ‹_›, rfl⟩⟩
    · exact ⟨rfl, .inl rfl⟩
  | vaonLoss => exact ⟨_, rfl, rfl, .inl rfl⟩
  | _ => cases h

/-- Settles O3: every arm of the dispatch answers, but for the supply's two and a partner's broken operand. -/
theorem everyCommandCompletes : Obligations.EveryCommandCompletes := by
  intro c s
  by_cases hr : restartsTime c = true
  · obtain ⟨u, he, hp, ht⟩ := exec_restartsTime hr s
    refine .inl ⟨u, he, fun hk => by simp [hr] at hk, fun _ hv => ⟨?_, hp⟩⟩
    obtain ht | ⟨-, hon, rfl⟩ := ht
    · exact ht
    · simp [hon] at hv
  · obtain ⟨t, he⟩ | hbreach := (exec_cases c s).resolve_left hr
    · exact .inl ⟨_, he, fun _ => ⟨rfl, rfl⟩, fun h => absurd h hr⟩
    · exact .inr hbreach

/-! ## The timebase -/

/-- A command keeps the timebase or starts it at 0. -/
theorem exec_time {c : Instr} {s u : State} (h : exec c s = .next u) : u.clk.time = s.clk.time ∨ u.clk.time = 0 := by
  obtain hr | ⟨t, he⟩ | ⟨hf, -⟩ := exec_cases c s
  · obtain ⟨v, he, -, ht⟩ := exec_restartsTime hr s
    cases he.symm.trans h
    obtain ht | ⟨rfl, -⟩ := ht
    · exact .inr ht
    · exact .inl rfl
  · cases he.symm.trans h
    exact .inl rfl
  · cases hf.symm.trans h

/-- An edge of the timebase counts by its clock's period, while the always-on supply is there (R71, R73). -/
theorem tick_clk (s : State) :
    (tick s).clk = { s.clk with time := s.clk.time + (if s.pwr.vaon then (if s.clk.pllLock then 5 else if s.clk.xtalOn then 40 else 0) else 0) } := by
  unfold tick tickStep
  cases s.pwr.vaon <;> cases s.clk.pllLock <;> cases s.clk.xtalOn <;> simp

/-- An edge of the timebase changes the timebase and the counters only. -/
theorem tick_frame (s : State) : changesOnly [.clk, .cnt] s (tick s) ∧ (tick s).pending = s.pending := by
  unfold tick
  split
  · refine ⟨fun b hb => ?_, by simp⟩
    cases b <;> simp [Block.same] at hb ⊢
  · exact ⟨fun b _ => by cases b <;> rfl, rfl⟩

/-- Settles O1: by the definition of a step. -/
theorem stepRunsFront : Obligations.StepRunsFront := fun _ _ _ => rfl

/-- Settles O2: an idle step is an edge of the timebase. -/
theorem idleStepTicks : Obligations.IdleStepTicks := by
  intro s hs
  obtain ⟨hframe, hp⟩ := tick_frame s
  exact ⟨tick s, by simp [step, hs], tick_clk s, hframe, hp.trans hs⟩

/-- Settles O4: an edge adds 0, 5 or 40 below the wrap; a command keeps the count or starts it at 0. -/
theorem timebaseInvariant : Obligations.TimebaseInvariant := by
  intro s u hs hlt hstep
  unfold timeOk at hs ⊢
  unfold step at hstep
  split at hstep
  · cases hstep
    have hadd (k : BitVec 64) (hk : k.toNat ≤ 40) (h5 : k.toNat % 5 = 0) : (s.clk.time + k).toNat % 5 = 0 := by
      rw [BitVec.toNat_add_of_lt (by omega)]
      omega
    rw [tick_clk]
    split_ifs <;> exact hadd _ (by decide) (by decide)
  · obtain h | h := exec_time hstep
    · rw [h]
      exact hs
    · rw [h]
      rfl

/-! ## Reset -/

/-- Every domain but D0 is off after reset (R376). -/
theorem domSt_reset {d : Nat} (h1 : 1 ≤ d) : domSt State.reset d = 0 := if_neg (by omega)

/-- The thaw timeout of every partition is 100 µs after reset (R243). -/
theorem thawNs_reset (p : Nat) : thawNs State.reset p = 100000 := by
  have hthaw : (spReg State.reset p).thaw = 100 := rfl
  simp [thawNs, hthaw]

/-- Settles O6: reset leaves every table empty, so that each of its entries reads its default. -/
theorem resetState : Obligations.ResetState := by
  have htime : State.reset.clk.time = 0 := rfl
  refine ⟨by rw [timeOk, htime]; rfl, rfl, htime, rfl, rfl, fun d h1 _ => domSt_reset h1, rfl, fun _ => rfl, fun h p => ?_, fun _ => rfl, fun _ => rfl, rfl, rfl, rfl,
    fun p => thawNs_reset p, rfl⟩
  cases h <;> rfl

end Sys2Proof.Machine
end

section
/-! PROOFS. Branches, jumps, calls and LOOP (R256, R257): each is a retirement that sets a register and the pc. -/

namespace Sys2Proof.Machine

open Sys2Proof.Safety

/-- A write of g0 writes nothing (R216). -/
theorem setG_zero (th : Thread) (v : BitVec 64) : th.setG 0 v = th := rfl

/-- The registers after a write depend on the registers before it. -/
theorem setG_pc {th base : Thread} (d : Nat) (v : BitVec 64) (pc : Pva) (hg : th.g = base.g) :
    { th.setG d v with pc := pc } = { th with pc := pc, g := (base.setG d v).g } := by
  unfold Thread.setG
  split <;> simp [hg]

/-- A jump within the 48-bit range sets its register and the pc. -/
theorem executed_jumpTo (t : ThreadId) (d : Nat) (v npc : BitVec 64) (s : State) (hn : npc.toNat < 2 ^ 48) :
    executed t d v (npc.setWidth 48) s (jumpTo t npc (fun x => x.setG d v) s) := by
  rw [jumpTo, if_pos (show inRange npc = true from decide_eq_true hn)]
  exact executed_retire t _ _ _ _ _ fun _ _ hg => setG_pc d v _ hg

/-- A jump that sets no register. -/
theorem executed_jumpTo_id (t : ThreadId) (npc : BitVec 64) (s : State) (hn : npc.toNat < 2 ^ 48) :
    executed t 0 0 (npc.setWidth 48) s (jumpTo t npc id s) := executed_jumpTo t 0 0 npc s hn

/-- Going on without an effect. -/
theorem executed_next (t : ThreadId) (s : State) : executed t 0 0 ((thr s t.val).pc + 8) s (retire t Thread.next s) :=
  executed_retire t _ 0 0 _ s fun _ hpc hg => setG_next 0 0 hpc hg

/-- BR goes to its target when its condition holds, and on when it does not. -/
theorem br_completes {t : ThreadId} {f : TFields} {s : State} (hi : issues t [f.a.toNat, f.b.toNat] s)
    (hl : (f.d == 0 && condOk f.v && f.c == 0) = true) (hc : standsAt t (.br t f) s) {pc : Pva}
    (hpc : let th := thr (fetched t s) t.val
      if cond f.v.toNat (gReg th f.a.toNat) (gReg th f.b.toNat) then (target th f).toNat < 2 ^ 48 ∧ pc = (target th f).setWidth 48
      else pc = th.pc + 8) :
    completesWith (.br t f) s (executed t 0 0 pc (fetched t s)) := by
  have he : exec (.br t f) s = execBr t f s := rfl
  rw [execBr, hl] at he
  refine completesWith_instr he hi ?_ hc
  dsimp only at hpc ⊢
  split at hpc
  · obtain ⟨hlt, rfl⟩ := hpc
    rw [if_pos ‹_›]
    exact executed_jumpTo_id t _ _ hlt
  · subst hpc
    rw [if_neg ‹_›]
    exact executed_next t _

/-- LOOP lowers its register, and goes to its target until that is 0. -/
theorem loop_completes {t : ThreadId} {f : TFields} {s : State} (hi : issues t [f.a.toNat] s)
    (hl : (f.d == 0 && f.a != 0 && f.b == 0 && noVC f) = true) (hc : standsAt t (.loop t f) s) {n : BitVec 64} {pc : Pva}
    (hn : gReg (thr (fetched t s) t.val) f.a.toNat - 1 = n)
    (hpc : let th := thr (fetched t s) t.val
      if n ≠ 0 then (target th f).toNat < 2 ^ 48 ∧ pc = (target th f).setWidth 48 else pc = th.pc + 8) :
    completesWith (.loop t f) s (executed t f.a.toNat n pc (fetched t s)) := by
  have he : exec (.loop t f) s = execLoop t f s := rfl
  rw [execLoop, hl] at he
  refine completesWith_instr he hi ?_ hc
  dsimp only at hpc ⊢
  rw [hn]
  split at hpc
  · obtain ⟨hlt, rfl⟩ := hpc
    rw [if_pos ‹_›]
    exact executed_jumpTo t _ _ _ _ hlt
  · subst hpc
    rw [if_neg ‹_›]
    exact executed_retire t _ _ _ _ _ fun _ => setG_next _ _

/-- JR goes to an aligned address in range and leaves the link. -/
theorem jr_completes {t : ThreadId} {f : TFields} {s : State} (hi : issues t [f.d.toNat, f.a.toNat] s)
    (hl : (f.b == 0 && noVC f) = true) (hlt : (effAddr (thr (fetched t s) t.val) f).toNat < 2 ^ 48)
    (hal : (effAddr (thr (fetched t s) t.val) f).toNat % 8 = 0) (hc : standsAt t (.jr t f) s) :
    completesWith (.jr t f) s (executed t f.d.toNat (linkPc (thr (fetched t s) t.val))
      ((effAddr (thr (fetched t s) t.val) f).setWidth 48) (fetched t s)) := by
  have he : exec (.jr t f) s = execJr t f s := rfl
  rw [execJr, hl] at he
  refine completesWith_instr he hi ?_ hc
  dsimp only
  rw [if_neg (by simp [hal])]
  exact executed_jumpTo t _ _ _ _ hlt

/-- CALL goes to its target and leaves the link. -/
theorem call_completes {t : ThreadId} {f : TFields} {s : State} (hi : issues t [f.d.toNat] s) (hl : onlyDI f = true)
    (hlt : (target (thr (fetched t s) t.val) f).toNat < 2 ^ 48) (hc : standsAt t (.call t f) s) :
    completesWith (.call t f) s (executed t f.d.toNat (linkPc (thr (fetched t s) t.val))
      ((target (thr (fetched t s) t.val) f).setWidth 48) (fetched t s)) := by
  have he : exec (.call t f) s = execCall t f s := rfl
  rw [execCall, hl] at he
  exact completesWith_instr he hi (executed_jumpTo t _ _ _ _ hlt) hc

/-- JMP goes to its target. -/
theorem jmp_completes {t : ThreadId} {f : TFields} {s : State} (hi : issues t [] s) (hl : (f.d == 0 && onlyDI f) = true)
    (hlt : (target (thr (fetched t s) t.val) f).toNat < 2 ^ 48) (hc : standsAt t (.jmp t f) s) :
    completesWith (.jmp t f) s (executed t 0 0 ((target (thr (fetched t s) t.val) f).setWidth 48) (fetched t s)) := by
  have he : exec (.jmp t f) s = execJmp t f s := rfl
  rw [execJmp, hl] at he
  exact completesWith_instr he hi (executed_jumpTo_id t _ _ hlt) hc

/-- Settles O8: each form is legal as its fields say, and its body is a jump in range or goes on. -/
theorem controlResults : Obligations.ControlResults := by
  intro t f s hi s1 th ga gb target ea link holds gives
  have hab := issues_of_subset (rs := [f.a.toNat, f.b.toNat]) hi (by simp)
  have ha := issues_of_subset (rs := [f.a.toNat]) hi (by simp)
  have hd := issues_of_subset (rs := [f.d.toNat]) hi (by simp)
  have hda := issues_of_subset (rs := [f.d.toNat, f.a.toNat]) hi (by simp)
  have hnone := issues_of_subset (rs := []) hi (by simp)
  refine ⟨fun d0 hv c0 hno hc => ?_, fun v0 c0 hlt hal b0 => ?_, fun d0 a0 b0 v0 c0 hga hc => ?_, fun hlt => ⟨fun d0 hv c0 hyes hc => ?_,
    fun a0 b0 v0 c0 => ⟨?_, fun d0 => ?_⟩, fun d0 a0 b0 v0 c0 hga hc => ?_⟩⟩
  · refine br_completes hab (by simp [d0, condOk, hv, c0]) hc ?_
    dsimp only
    rw [if_neg (mt (cond_iff hv _ _).mp hno)]
  · exact jr_completes hda (by simp [b0, noVC, v0, c0]) hlt hal
  · refine loop_completes ha (by simpa [d0, b0, noVC, v0, c0] using a0) hc (n := 0) (sub_eq_zero.mpr hga) ?_
    rw [if_neg (by simp)]
  · refine br_completes hab (by simp [d0, condOk, hv, c0]) hc ?_
    dsimp only
    rw [if_pos ((cond_iff hv _ _).mpr hyes)]
    exact ⟨hlt, rfl⟩
  · exact call_completes hd (by simp [onlyDI, a0, b0, noVC, v0, c0]) hlt
  · exact jmp_completes hnone (by simp [d0, onlyDI, a0, b0, noVC, v0, c0]) hlt
  · refine loop_completes ha (by simpa [d0, b0, noVC, v0, c0] using a0) hc rfl ?_
    rw [if_pos (sub_ne_zero.mpr hga)]
    exact ⟨hlt, rfl⟩

end Sys2Proof.Machine
end

section
/-! PROOFS. The encoding of instruction words (R245, R248), and the exceptions of a thread without a fault record (R232, R246, R251). -/

namespace Sys2Proof.Machine

open Sys2Proof.Safety

/-! ## Words (R245, R248) -/

theorem opcodeOf_word (op : BitVec 8) (f : TFields) : opcodeOf (f.word op) = op := by
  unfold opcodeOf TFields.word
  ext i hi
  simp only [BitVec.getElem_extractLsb', BitVec.getLsbD_append]
  grind

theorem ofWord_word (op : BitVec 8) (f : TFields) : TFields.ofWord (f.word op) = f := by
  obtain ⟨d, a, b, v, c, imm⟩ := f
  simp only [TFields.ofWord, TFields.word, TFields.mk.injEq]
  refine ⟨?_, ?_, ?_, ?_, ?_, ?_⟩
  all_goals
    ext i hi
    simp only [BitVec.getElem_extractLsb', BitVec.getLsbD_append]
    grind

/-- With distinct keys, a pair is found by its key. -/
theorem find?_key {α β : Type} [BEq α] [LawfulBEq α] {l : List (α × β)} (h : (l.map Prod.fst).Nodup) {e : α × β} (he : e ∈ l) :
    l.find? (fun x => x.1 == e.1) = some e := by
  induction l with
  | nil => cases he
  | cons x xs ih =>
    rw [List.map_cons, List.nodup_cons] at h
    obtain ⟨hx, hxs⟩ := h
    obtain rfl | he := List.mem_cons.mp he
    · simp
    · have hne : ¬ x.1 = e.1 := fun hk => hx (hk ▸ List.mem_map_of_mem he)
      simp [hne, ih hxs he]

/-- The word of an opcode of the map stands for its instruction. -/
theorem decodeTroxo_word (t : ThreadId) (f : TFields) {e : BitVec 8 × (ThreadId → TFields → Instr)} (he : e ∈ troxoOps) :
    decodeTroxo t (f.word e.1) = some (e.2 t f) := by
  have hkeys : (troxoOps.map Prod.fst).Nodup := by decide
  rw [decodeTroxo, opcodeOf_word, ofWord_word, find?_key hkeys he]
  rfl

/-! ## Exceptions without a fault record (R232) -/

/-- Forgetting what a unit asked for is part of the cache's pipelines only. -/
theorem forget_eq (c : Consumer) (s : State) :
    ∃ a g, forget c s = s.onCache fun q => { q with asked := a, got := g } := ⟨_, _, rfl⟩

theorem forget_onCache (c : Consumer) (s : State) (a : List (Consumer × Nat)) (g : List (Consumer × Nat × LineRes)) :
    ∃ a' g', forget c (s.onCache fun q => { q with asked := a, got := g }) = s.onCache fun q => { q with asked := a', got := g' } :=
  ⟨_, _, rfl⟩

/-- What an instruction at the pc was collecting is part of the cache's pipelines only. -/
theorem forgetInstr_eq (t : ThreadId) (s : State) :
    ∃ a g, forgetInstr t s = s.onCache fun q => { q with asked := a, got := g } := by
  obtain ⟨a1, g1, h1⟩ := forget_eq (.fetch t) s
  obtain ⟨a2, g2, h2⟩ := forget_onCache (.next t) s a1 g1
  obtain ⟨a3, g3, h3⟩ := forget_onCache (.smov t) s a2 g2
  obtain ⟨a4, g4, h4⟩ := forget_onCache (.cktag t) s a3 g3
  exact ⟨a4, g4, by rw [forgetInstr, h1, h2, h3, h4]⟩

/-- The thread of a task that has stopped for a save (R228, R232). -/
def stopped (kind cause : Nat) (s : State) (th : Thread) : Thread :=
  { th with phase := .draining (BitVec.ofNat 3 kind) (BitVec.ofNat 8 cause), wait := some (hardWait s), xl := none, hit := none, ahead := none }

/-- Stopping a task changes its thread, and what it collects. -/
theorem stopThread_eq (t : ThreadId) (kind cause : Nat) (s : State) :
    ∃ a g, stopThread t kind cause s = (modThr s t.val (stopped kind cause s)).onCache fun q => { q with asked := a, got := g } :=
  forgetInstr_eq t _

theorem thr_stopThread_self (t : ThreadId) (kind cause : Nat) (s : State) :
    thr (stopThread t kind cause s) t.val = stopped kind cause s (thr s t.val) := by
  obtain ⟨a, g, he⟩ := stopThread_eq t kind cause s
  rw [he, thr_congr (State.onCache_seq ..), thr_modThr_self]

theorem thr_stopThread_ne (t : ThreadId) (kind cause : Nat) (s : State) : otherThreads t s (stopThread t kind cause s) := by
  intro k hk
  obtain ⟨a, g, he⟩ := stopThread_eq t kind cause s
  rw [he, thr_congr (State.onCache_seq ..), thr_modThr_ne s _ hk]

/-- Stopping a task changes no byte, and nothing but threads and what units collect. -/
theorem stopThread_frame (t : ThreadId) (kind cause : Nat) (s : State) :
    sameBytes s (stopThread t kind cause s) ∧ changesOnly [.seq, .cache] s (stopThread t kind cause s) ∧
      calm (stopThread t kind cause s) = calm s := by
  obtain ⟨a, g, he⟩ := stopThread_eq t kind cause s
  rw [he]
  refine ⟨fun _ => rfl, fun b hb => ?_, by simp [calm, quiet, addlsIdle]⟩
  cases b <;> simp [Block.same] at hb ⊢

/-- An exception on a calm machine stops the task for a save with KIND 1, and that is all. -/
theorem raise_none_eq (t : ThreadId) (cause : Nat) {s : State} (hc : calm s = true) :
    raise t cause none s = stopThread t 1 cause s :=
  settle_calm ((stopThread_frame t 1 cause s).2.2.trans hc)

/-- The task of thread t has stopped at its pc for a save with KIND 1 and this cause, with its registers and tokens kept (R232). -/
def stoppedAt (t : ThreadId) (cause : BitVec 8) (s1 u : State) : Prop :=
  (thr u t.val).phase = .draining 1 cause ∧ (thr u t.val).pc = (thr s1 t.val).pc ∧ (thr u t.val).g = (thr s1 t.val).g ∧
    (thr u t.val).toks = (thr s1 t.val).toks ∧ otherThreads t s1 u ∧ sameBytes s1 u ∧ changesOnly [.seq, .cache] s1 u

/-- A command that raises an exception stops the task. -/
theorem completesWith_raise {c : Instr} {t : ThreadId} {cause : Nat} {s s1 : State} (hc : calm s1 = true)
    (he : exec c s = answer s (raise t cause none s1)) : completesWith c s (stoppedAt t (BitVec.ofNat 8 cause) s1) := by
  rw [raise_none_eq t cause hc] at he
  obtain ⟨hbytes, hframe, -⟩ := stopThread_frame t 1 cause s1
  have hself := thr_stopThread_self t 1 cause s1
  refine completesWith_answer he ⟨?_, ?_, ?_, ?_, thr_stopThread_ne t 1 cause s1, hbytes, changesOnly_answered.mpr hframe⟩ <;>
    rw [thr_answered, hself] <;> rfl

/-- Command c of thread t runs as an instruction that is legal only if P holds. -/
def runsIf (P : Prop) (t : ThreadId) (c : Instr) (s : State) : Prop :=
  ∃ legal priv regs own body, exec c s = answer s (instr t c legal priv regs own body s) ∧ (¬ P → legal = false)

/-- A word whose fields are not those of its format raises ILLEGAL. -/
theorem illegal_stops {P : Prop} {t : ThreadId} {c : Instr} {rs : List Nat} {s : State} (hr : runsIf P t c s) (hp : ¬ P)
    (hi : issues t rs s) (hcalm : calm (fetched t s) = true) (hc : standsAt t c s) : completesWith c s (stoppedAt t 0 (fetched t s)) := by
  obtain ⟨legal, priv, regs, own, body, he, hl⟩ := hr
  rw [hl hp, instr_illegal priv own body hi hc] at he
  exact completesWith_raise hcalm he

/-- An unlisted opcode raises ILLEGAL, whichever command names the thread. -/
theorem unlisted_stops {P : Prop} {t : ThreadId} {c : Instr} {rs : List Nat} {s : State} {w : BitVec 64} (hr : runsIf P t c s)
    (hi : issues t rs s) (hcalm : calm (fetched t s) = true) (hw : (fetch t s).1 = Fetch.ok w) (hn : ∀ e ∈ troxoOps, e.1 ≠ opcodeOf w) :
    completesWith c s (stoppedAt t 0 (fetched t s)) := by
  obtain ⟨legal, priv, regs, own, body, he, -⟩ := hr
  have hd : decodeTroxo t w = none := by simpa [decodeTroxo, List.find?_eq_none] using hn
  rw [instr_unlisted c legal priv own body hi hw hd] at he
  exact completesWith_raise hcalm he

/-- The instructions whose formats leave C unused, among those that R246 is stated for. -/
theorem runsIf_unused (t : ThreadId) (f : TFields) (s : State) :
    ∀ c ∈ ([.add t f, .sub t f, .mul t f, .div t f, .rem t f, .and_ t f, .or_ t f, .xor t f, .shl t f, .shr t f, .sar t f, .set_ t f,
      .lih t f, .addpc t f, .br t f, .jmp t f, .call t f, .jr t f, .loop t f, .ld t f, .st t f, .fence t f, .trap t f, .halt t f,
      .yield t f] : List Instr), runsIf (f.c = 0) t c s := by
  simp only [List.forall_mem_cons]
  refine ⟨?_, ?_, ?_, ?_, ?_, ?_, ?_, ?_, ?_, ?_, ?_, ?_, ?_, ?_, ?_, ?_, ?_, ?_, ?_, ?_, ?_, ?_, ?_, ?_, ?_, by simp⟩ <;>
    exact ⟨_, _, _, _, _, rfl, fun h => by simp_all [noVC, onlyDI, onlyD, noField]⟩

/-- SET and BR need a condition of R256. -/
theorem runsIf_cond (t : ThreadId) (f : TFields) (s : State) :
    runsIf (f.v.toNat < 6) t (.set_ t f) s ∧ runsIf (f.v.toNat < 6) t (.br t f) s := by
  constructor <;> exact ⟨_, _, _, _, _, rfl, fun h => by simp [condOk, h]⟩

/-- EPOCH in P mode raises PRIVILEGE. -/
theorem epoch_stops {t : ThreadId} {f : TFields} {rs : List Nat} {s : State} (hi : issues t rs s) (hl : onlyD f = true)
    (hp : (thr s t.val).part ≠ 0) (hcalm : calm (fetched t s) = true) (hc : standsAt t (.epoch t f) s) :
    completesWith (.epoch t f) s (stoppedAt t 1 (fetched t s)) := by
  have he : exec (.epoch t f) s = execEpoch t f s := rfl
  have hs : sMode (thr s t.val) = false := by simpa [sMode] using hp
  rw [execEpoch, hl, hs, instr_privilege 0 _ hi hc] at he
  exact completesWith_raise hcalm he

/-- JR to an address that is no multiple of 8 raises PC-ALIGN. -/
theorem jr_stops {t : ThreadId} {f : TFields} {s : State} (hi : issues t [f.d.toNat, f.a.toNat] s) (hl : (f.b == 0 && noVC f) = true)
    (hal : (effAddr (thr (fetched t s) t.val) f).toNat % 8 ≠ 0) (hcalm : calm (fetched t s) = true) (hc : standsAt t (.jr t f) s) :
    completesWith (.jr t f) s (stoppedAt t 3 (fetched t s)) := by
  have he : exec (.jr t f) s = execJr t f s := rfl
  rw [execJr, hl, instr_issues 0 _ hi hc] at he
  dsimp only at he
  rw [if_pos hal] at he
  exact completesWith_raise hcalm he

/-- A load that is not aligned raises ALIGN. -/
theorem ld_stops {t : ThreadId} {f : TFields} {s : State} (hi : issues t [f.d.toNat, f.a.toNat] s) (hl : (f.b == 0 && f.c == 0) = true)
    (hal : (effAddr (thr (fetched t s) t.val) f).toNat % sizeOf f ≠ 0) (hcalm : calm (fetched t s) = true)
    (hc : standsAt t (.ld t f) s) : completesWith (.ld t f) s (stoppedAt t 2 (fetched t s)) := by
  have he : exec (.ld t f) s = execLd t f s := rfl
  rw [execLd, hl, instr_issues 0 _ hi hc] at he
  dsimp only at he
  rw [access, if_pos hal] at he
  exact completesWith_raise hcalm he

/-- Settles O9: the words by their fields, and each exception by the test of the instruction's frame or of its body that it fails. -/
theorem exceptionsTaken : Obligations.ExceptionsTaken := by
  refine ⟨fun t f e he => decodeTroxo_word t f he, fun t f s hi hcalm => ?_⟩
  intro s1 th stops takes words
  have hwords := runsIf_unused t f s
  refine ⟨fun w hw hn c hc => unlisted_stops (hwords c hc) hi hcalm hw hn, fun hne c hc => illegal_stops (hwords c hc) hne hi hcalm,
    fun hv => ⟨illegal_stops (runsIf_cond t f s).1 (by omega) hi hcalm, illegal_stops (runsIf_cond t f s).2 (by omega) hi hcalm⟩,
    fun a0 b0 v0 c0 i0 hp => epoch_stops hi (by simp [onlyD, onlyDI, noVC, a0, b0, v0, c0, i0]) hp hcalm,
    fun b0 v0 c0 hal => jr_stops hi (by simp [noVC, b0, v0, c0]) hal hcalm,
    fun b0 c0 hal => ld_stops hi (by simp [b0, c0]) hal hcalm⟩

end Sys2Proof.Machine
end

section
/-! PROOFS. The memory pipeline of a calm machine (R122, R123, R125): a single request that finds its line is performed there, and
nothing follows it but counts. -/

namespace Sys2Proof.Machine

open Sys2Proof.Safety

/-! ## Changes that only count -/

/-- Only counters, the regulator's counts and the test targets' counts differ (R302, R347, R424). -/
def onlyCounts (s u : State) : Prop := ∃ c b x, u = { s with cnt := c, bwr := b, tst := x }

theorem onlyCounts_refl (s : State) : onlyCounts s s := ⟨_, _, _, rfl⟩

theorem onlyCounts_trans {s u v : State} (h1 : onlyCounts s u) (h2 : onlyCounts u v) : onlyCounts s v := by
  obtain ⟨_, _, _, rfl⟩ := h1
  obtain ⟨_, _, _, rfl⟩ := h2
  exact ⟨_, _, _, rfl⟩

/-- A fold of steps that only count only counts. -/
theorem onlyCounts_foldl {α : Type} (f : State → α → State) (hf : ∀ t a, onlyCounts t (f t a)) (l : List α) (s : State) :
    onlyCounts s (l.foldl f s) := by
  induction l generalizing s with
  | nil => exact onlyCounts_refl s
  | cons a l ih => exact onlyCounts_trans (hf s a) (ih _)

theorem onlyCounts_cnt (ev : Nat) (h : Option Half) (p : Option Part) (k : Nat) (s : State) : onlyCounts s (cnt ev h p k s) :=
  ⟨_, _, _, cnt_only ev h p k s⟩

theorem onlyCounts_countOps (h : Half) (lo n k : Nat) (s : State) : onlyCounts s (countOps h lo n k s) :=
  ⟨_, _, _, countOps_only h lo n k s⟩

theorem onlyCounts_onBwr (s : State) (f : Bwr → Bwr) : onlyCounts s (s.onBwr f) := ⟨_, _, _, rfl⟩

theorem onlyCounts_setMstat (h : Half) (m : Nat) (x : MStat) (s : State) : onlyCounts s (setMstat h m x s) := ⟨_, _, _, rfl⟩

theorem onlyCounts_wrrCharge (h : Half) (winner : Nat) (set : BitVec 22) (s : State) : onlyCounts s (wrrCharge h winner set s) := by
  unfold wrrCharge
  refine onlyCounts_trans ?_ (onlyCounts_onBwr _ _)
  exact onlyCounts_foldl _ (fun _ _ => onlyCounts_setMstat ..) _ s

theorem onlyCounts_countGrant (h : Half) (m : Nat) (s : State) : onlyCounts s (countGrant h m s) :=
  onlyCounts_trans (onlyCounts_cnt ..) (onlyCounts_setMstat ..)

theorem onlyCounts_noteReady (h : Half) (ready : BitVec 22) (s : State) : onlyCounts s (noteReady h ready s) :=
  onlyCounts_foldl _ (fun _ _ => onlyCounts_setMstat ..) _ s

theorem onlyCounts_closeWindow (h : Half) (s : State) : onlyCounts s (closeWindow h s) := by
  unfold closeWindow
  refine onlyCounts_trans ?_ (onlyCounts_onBwr _ _)
  have hfold := onlyCounts_foldl (fun t m =>
      let x := mstat t h m
      let missed : Bool := decide (0 < h.pick s.bwr.allE s.bwr.allW ∧ x.ready = h.pick s.bwr.allE s.bwr.allW ∧
        x.count + 1 < (mcfg (bwrView s h) h m).floor.toNat)
      let t := if missed then t.onBwr fun b => { b with errMiss := true } else t
      setMstat h m { x with last := BitVec.ofNat 14 x.count, floorMiss := x.floorMiss || missed, count := 0, ready := 0 } t)
    (fun t m => by
      refine onlyCounts_trans ?_ (onlyCounts_setMstat ..)
      split
      · exact onlyCounts_onBwr _ _
      · exact onlyCounts_refl _) (List.range 22) s
  split
  · exact onlyCounts_trans hfold (onlyCounts_cnt ..)
  · exact hfold

theorem onlyCounts_windowRoll (s : State) : onlyCounts s (windowRoll s) := by
  unfold windowRoll
  split
  · exact onlyCounts_trans (onlyCounts_trans (onlyCounts_closeWindow .e s) (onlyCounts_closeWindow .w _)) (onlyCounts_onBwr _ _)
  · exact onlyCounts_refl s

theorem onlyCounts_giveGrant (h : Half) (g : Grantee) (ready : BitVec 22) (s : State) : onlyCounts s (giveGrant h g ready s) := by
  cases g with
  | nobody => exact onlyCounts_refl s
  | unregulated => exact onlyCounts_cnt ..
  | plow => exact onlyCounts_trans (onlyCounts_onBwr _ _) (onlyCounts_cnt ..)
  | master m step =>
    have hwrr : onlyCounts s (if step = 4 then wrrCharge h m (step4Set s h ready) s else s) := by
      split
      · exact onlyCounts_wrrCharge ..
      · exact onlyCounts_refl s
    exact onlyCounts_trans (onlyCounts_trans hwrr (onlyCounts_onBwr _ _)) (onlyCounts_countGrant ..)

/-- A grant of an arbiter only counts. -/
theorem onlyCounts_arbitrate (h : Half) (ready : BitVec 22) (unreg plow : Bool) (s : State) :
    onlyCounts s (arbitrate h ready unreg plow s) := by
  unfold arbitrate
  refine onlyCounts_trans (onlyCounts_windowRoll s) ?_
  dsimp only
  split
  · exact onlyCounts_refl _
  · exact onlyCounts_trans (onlyCounts_trans (onlyCounts_noteReady ..) (onlyCounts_onBwr _ _)) (onlyCounts_giveGrant ..)

theorem onlyCounts_charge (h : Half) (m : Option Nat) (s : State) : onlyCounts s (charge h m s) := by
  cases m <;> exact onlyCounts_arbitrate ..

/-! ## Rows and tables without damage -/

/-- A row without damage checks as it stands (R321). -/
theorem checkRow_clean {s : State} {key k : Nat} (source : Nat) (h : rowClean s key = true) (hk : k / 8 = key / 8) :
    checkRow source k s = s := by
  have hnone : (s.cache.ecc.filter fun e => decide (4 * (k / 8 * 8) ≤ e.1 ∧ e.1 < 4 * (k / 8 * 8) + 32)) = [] := by
    rw [List.filter_eq_nil_iff, hk]
    intro e he
    have := List.all_eq_true.mp h e he
    simp at this ⊢
    omega
  unfold checkRow
  dsimp only
  rw [hnone]
  rfl

/-- Shared tables without damage check as they stand (R328). -/
theorem checkTables_clean {s : State} (r : LineReq) (h : s.tables.damage = []) : checkTables r s = s := by
  have hstep (a b : Nat) : checkShared a b r.home s = s := by simp [checkShared, h, tget]
  have hfold : ∀ l : List (Nat × Nat), l.foldl (fun t e => if wasReset s t then t else checkShared e.1 e.2 r.home t) s = s := by
    intro l
    induction l with
    | nil => rfl
    | cons e l ih => simp [hstep, ih]
  exact hfold _

theorem wasReset_self (s : State) : wasReset s s = false := by simp [wasReset]

/-! ## A request that finds its line -/

/-- A request meets its line at array index `key` in a calm machine with nothing damaged: lineHere's conditions, of the request itself. -/
structure Meets (s : State) (r : LineReq) (key : Nat) : Prop where
  calm : calm s = true
  clean : rowClean s key = true
  runs : domRuns s (r.home.pick 3 4) = true
  damage : s.tables.damage = []
  place : (isBuf r.sa = true ∧ key = bufKey r.sa) ∨
    (isBuf r.sa = false ∧ uncachedBusy s (lineOf r.sa) = false ∧ (∀ k ∈ replicaRow s r, rowClean s k = true) ∧ replicaKey s r = none ∧
      ∃ i, r.gi = some i ∧ (gtLive s r.home i).valid = true ∧
        findWay s (setKey r.home (gtLive s r.home i).group.toNat (farSet r.sa)) (farTag r.sa) = some key ∧
        reqSectors r.op r.sa &&& ~~~(metaAt s key).sv = 0)

theorem meets_of_lineHere {s : State} {op : LineOp} {sa : Sa} {p : Part} {arrival home : Half} {key : Nat}
    (h : lineHere s op sa p arrival home key = true) : Meets s (mkReq s .own op sa p arrival home) key := by
  unfold lineHere at h
  simp only [Bool.and_eq_true] at h
  obtain ⟨⟨⟨⟨hcalm, hclean⟩, hruns⟩, hdamage⟩, hplace⟩ := h
  refine ⟨hcalm, hclean, hruns, List.isEmpty_iff.mp hdamage, ?_⟩
  split at hplace
  next hbuf => exact .inl ⟨hbuf, by simpa [mkReq] using hplace⟩
  next hbuf =>
    simp only [Bool.and_eq_true, Bool.not_eq_true'] at hplace
    obtain ⟨⟨⟨hbusy, hrow⟩, hkey⟩, hway⟩ := hplace
    refine .inr ⟨by simpa [mkReq] using hbuf, hbusy, ?_, by simpa using hkey, ?_⟩
    · intro k hk
      rw [Option.mem_def] at hk
      rw [hk] at hrow
      exact hrow
    · split at hway
      · cases hway
      · next i hi =>
        simp only [Bool.and_eq_true, beq_iff_eq] at hway
        obtain ⟨⟨hv, hf⟩, hs⟩ := hway
        exact ⟨i, hi, hv, hf, hs⟩

/-- The same request from another unit meets the same line. -/
theorem Meets.congr {s : State} {r q : LineReq} {key : Nat} (h : Meets s r key) (hsa : q.sa = r.sa) (hhome : q.home = r.home)
    (harr : q.arrival = r.arrival) (hgi : q.gi = r.gi) (hgia : q.gia = r.gia) (hop : q.op = r.op) : Meets s q key := by
  have hrow : replicaRow s q = replicaRow s r := by simp only [replicaRow, hsa, hhome, harr, hgia, hop]
  have hrep : replicaKey s q = replicaKey s r := by simp only [replicaKey, hrow, hsa, hop]
  obtain ⟨h1, h2, h3, h4, h5⟩ := h
  exact ⟨h1, h2, by rwa [hhome], h4, by rw [hsa, hrow, hrep, hgi, hhome, hop]; exact h5⟩

/-- What y has done of a request is what x has, and counts; where x has left it waiting, nothing. -/
def performs (x y : Bool × State) : Prop := y.1 = x.1 ∧ (x.1 = true → onlyCounts x.2 y.2) ∧ (x.1 = false → y.2 = x.2)

theorem performs_refl (x : Bool × State) : performs x x := ⟨rfl, fun _ => onlyCounts_refl _, fun _ => rfl⟩

theorem performs_charged {x y : Bool × State} (hxy : performs x y) (h : Half) (m : Option Nat) : performs x (charged h m y) := by
  obtain ⟨h1, h2, h3⟩ := hxy
  unfold charged
  split
  next hy => exact ⟨by rw [← h1, hy], fun hx => onlyCounts_trans (h2 hx) (onlyCounts_charge ..), fun hx => by rw [h1, hx] at hy; cases hy⟩
  next hy => exact ⟨h1, h2, h3⟩

/-- The ways of a set share its row. -/
theorem findWay_row {s : State} {k0 tag key : Nat} (h : findWay s k0 tag = some key) : key / 8 = k0 / 8 := by
  have hmem := List.mem_of_find?_eq_some h
  simp only [waysOf, List.mem_map, List.mem_range] at hmem
  obtain ⟨w, hw, rfl⟩ := hmem
  omega

theorem Meets.quiet {s : State} {r : LineReq} {key : Nat} (h : Meets s r key) :
    s.cache.blocked = [] ∧ s.cache.mshr = [] ∧ s.cache.invs = [] := by
  have hc := h.calm
  simp only [Safety.calm, Machine.quiet, Bool.and_eq_true, List.isEmpty_iff] at hc
  obtain ⟨⟨⟨⟨⟨hb, hm⟩, hi⟩, -⟩, -⟩, -⟩ := hc
  exact ⟨hb, hm, hi⟩

/-- The home half performs a request on the line it meets (R122, R123). -/
theorem tryHome_meets {s : State} {r : LineReq} {key : Nat} (h : Meets s r key) : performs (atLine r key s) (tryHome r s) := by
  obtain ⟨hb, hm, hi⟩ := h.quiet
  have hinv : invBusy s key = false := by simp [invBusy, hi]
  unfold tryHome
  simp only [checkTables_clean r h.damage, h.runs, wasReset_self, Bool.not_true, Bool.false_eq_true, if_false]
  obtain ⟨hbuf, rfl⟩ | ⟨hbuf, hbusy, -, -, i, hgi, hv, hf, hs⟩ := h.place
  · simp only [hbuf, if_true, checkRow_clean 1 h.clean rfl, wasReset_self, hinv, Bool.false_eq_true, if_false]
    exact performs_charged (performs_refl _) _ _
  · simp only [hbuf, hbusy, hgi, hv, checkRow_clean 1 h.clean (findWay_row hf).symm, wasReset_self, Bool.not_true, Bool.false_eq_true,
      if_false]
    refine performs_charged ?_ _ _
    have hmshr : mshrOf s r.home (lineOf r.sa) = none := by simp [mshrOf, hm]
    have hclaim : claimed s key = false := by simp [claimed, hm]
    simp only [lookup, hmshr, hf, hinv, hclaim, hs, Bool.false_eq_true, or_self, if_false, if_true]
    split
    next hd => exact ⟨hd.symm, fun _ => onlyCounts_trans (onlyCounts_cnt ..) (onlyCounts_cnt ..), fun hx => by rw [hd] at hx; cases hx⟩
    next => exact performs_refl _

/-- A request performs on the line it meets, whether or not it looks for a replica first (R143). -/
theorem tryReq_meets {s : State} {r : LineReq} {key : Nat} (h : Meets s r key) : performs (atLine r key s) (tryReq r s) := by
  unfold tryReq
  split
  · exact tryHome_meets h
  next k0 hk =>
    have hclean : rowClean s k0 = true ∧ replicaKey s r = none := by
      obtain ⟨hbuf, -⟩ | ⟨-, -, hrow, hrep, -⟩ := h.place
      · simp only [replicaRow, hbuf] at hk
        split at hk <;> simp at hk
      · exact ⟨hrow k0 hk, hrep⟩
    simp only [checkRow_clean 1 hclean.1 rfl, wasReset_self, hclean.2, Bool.false_eq_true, if_false]
    exact performs_charged (tryHome_meets h) _ _

/-! ## Settling a single request -/

/-- What a calm machine holds in its pipelines: nothing. -/
theorem calm_iff {s : State} : calm s = true ↔
    s.cache.blocked = [] ∧ s.cache.mshr = [] ∧ s.cache.invs = [] ∧ (∀ q ∈ s.cache.pool, ¬ (q.kind = .fill ∧ q.port.isNone = true)) ∧
      addlsIdle s = true ∧ s.buf.frees = [] := by
  simp only [calm, quiet, Bool.and_eq_true, List.isEmpty_iff, Bool.not_eq_true', List.any_eq_false, Bool.and_eq_true, beq_iff_eq]
  tauto

/-- With one request waiting, the pipelines' work is that request's. -/
theorem settleRound_one {s : State} (hc : calm s = true) (r : LineReq) : settleRound (requeue r s) = pumpBlocked (requeue r s) := by
  obtain ⟨-, hm, hi, hp, -, -⟩ := calm_iff.mp hc
  have hpool : pumpPool (requeue r s) = requeue r s := by
    have hnone : (requeue r s).cache.pool.filter (fun q => q.kind = .fill ∧ q.port.isNone) = [] := by
      rw [List.filter_eq_nil_iff]
      intro q hq
      simpa using hp q hq
    unfold pumpPool
    rw [hnone]
    rfl
  have hinv : finishInvs (requeue r s) = requeue r s := by simp [finishInvs, requeue, hi]
  have hmshr : pumpMshrs (requeue r s) = requeue r s := by simp [pumpMshrs, requeue, hm]
  rw [settleRound, hpool, hinv, hmshr]

theorem parked_requeue {s : State} (hc : calm s = true) (r : LineReq) : parked (requeue r s) r = false := by
  obtain ⟨-, -, -, -, ha, -⟩ := calm_iff.mp hc
  simp only [addlsIdle, Bool.and_eq_true, List.isEmpty_iff] at ha
  obtain ⟨⟨⟨h1, h2⟩, -⟩, -⟩ := ha
  simp [parked, requeue, h1, h2]

theorem Cache.blocked_nil {c : Cache} (h : c.blocked = []) : { c with blocked := [] } = c := by rw [← h]

/-- The request that is being tried does not wait any more. -/
theorem requeue_erase {s : State} (hb : s.cache.blocked = []) (r : LineReq) :
    ((requeue r s).onCache fun c => { c with blocked := c.blocked.eraseIdx 0 }) = s := by
  have hcache : ({ s.cache with blocked := (s.cache.blocked ++ [r]).eraseIdx 0 } : Cache) = s.cache := by
    rw [hb]
    exact Cache.blocked_nil hb
  exact congrArg (fun c => { s with cache := c }) hcache

/-- One pass over a single request that can be performed. -/
theorem settleRound_done {s u : State} (hc : calm s = true) {r : LineReq} (h : tryReq r s = (true, u)) :
    settleRound (requeue r s) = u := by
  obtain ⟨hb, -⟩ := calm_iff.mp hc
  have hget : (requeue r s).cache.blocked = [r] := by simp [requeue, hb]
  rw [settleRound_one hc, pumpBlocked, hget]
  simp only [List.length_singleton, pumpFrom, hget, List.getElem?_cons_zero, parked_requeue hc, List.take_zero, List.any_nil, Bool.or_self,
    Bool.false_eq_true, if_false]
  rw [requeue_erase hb, h]
  rfl

/-- One pass over a single request that has to wait. -/
theorem settleRound_waits {s : State} (hc : calm s = true) {r : LineReq} (h : tryReq r s = (false, s)) :
    settleRound (requeue r s) = requeue r s := by
  obtain ⟨hb, hm, -⟩ := calm_iff.mp hc
  have hget : (requeue r s).cache.blocked = [r] := by simp [requeue, hb]
  have hcount : mshrCount s r.home = 0 := by simp [mshrCount, hm]
  rw [settleRound_one hc, pumpBlocked, hget]
  simp only [List.length_singleton, pumpFrom, hget, List.getElem?_cons_zero, parked_requeue hc, List.take_zero, List.any_nil, Bool.or_self,
    Bool.false_eq_true, if_false]
  rw [requeue_erase hb, h]
  simp [hcount, hb, requeue, State.onCache]

theorem settleN_fixed {s : State} (h : settleRound s = s) (n : Nat) : settleN n s = s := by
  induction n with
  | zero => rfl
  | succ n ih =>
    rw [settleN, h, ih]
    simp

/-- Settling a single request that its line serves: what it has done, and the machine is calm again. -/
theorem settle_done {s u : State} (hc : calm s = true) {r : LineReq} (h : tryReq r s = (true, u)) (hu : calm u = true) :
    settle (requeue r s) = u := by
  obtain ⟨hb, -⟩ := calm_iff.mp hc
  have hnot : quiet (requeue r s) = false := by simp [quiet, requeue, hb]
  have hq : quiet u = true := by
    simp only [calm, Bool.and_eq_true] at hu
    exact hu.1.1
  have hall : settleAll (requeue r s) = u := by
    rw [settleAll, show ∀ n, 6 + 3 * n = (5 + 3 * n) + 1 from fun n => by omega, settleN, hnot, settleRound_done hc h]
    exact settleN_quiet _ hq
  obtain ⟨-, -, -, -, ha, hf⟩ := calm_iff.mp hu
  simp [settle, hall, ha, hf]

/-- Settling a single request that has to wait: it waits. -/
theorem settle_waits {s : State} (hc : calm s = true) {r : LineReq} (h : tryReq r s = (false, s)) :
    settle (requeue r s) = requeue r s := by
  obtain ⟨-, -, -, -, ha, hf⟩ := calm_iff.mp hc
  have hall : settleAll (requeue r s) = requeue r s := settleN_fixed (settleRound_waits hc h) _
  have ha' : addlsIdle (requeue r s) = true := ha
  have hf' : (requeue r s).buf.frees = [] := hf
  simp [settle, hall, ha', hf']

end Sys2Proof.Machine
end

section
/-! PROOFS. The bytes of a line: what reading, merging and storing a line does to each byte of the array (R7). -/

namespace Sys2Proof.Machine

open Sys2Proof.Safety

/-! ## Reads and writes of several bytes -/

theorem two_pow_eight_mul (k : Nat) : 2 ^ (8 * k) = 256 ^ k := by rw [Nat.pow_mul]

theorem memRead_lt (m : List Host.Cell) (a n : Nat) : memRead m a n < 256 ^ n := by
  induction n generalizing a with
  | zero => simp [memRead]
  | succ n ih =>
    have := ih (a + 1)
    have := (memByte m a).isLt
    rw [memRead, Nat.pow_succ']
    omega

theorem memRead_add (m : List Host.Cell) (a i k : Nat) :
    memRead m a (i + k) = memRead m a i + 256 ^ i * memRead m (a + i) k := by
  induction i generalizing a with
  | zero => simp [memRead]
  | succ i ih =>
    rw [Nat.succ_add, memRead, memRead, ih, Nat.pow_succ', show a + 1 + i = a + (i + 1) by omega]
    ring

/-- A part of what is read is what is read there. -/
theorem memRead_part (m : List Host.Cell) (a : Nat) {i k n : Nat} (h : i + k ≤ n) :
    memRead m a n / 256 ^ i % 256 ^ k = memRead m (a + i) k := by
  obtain ⟨r, rfl⟩ := Nat.exists_eq_add_of_le h
  rw [Nat.add_assoc, memRead_add, Nat.add_mul_div_left _ _ (by positivity), Nat.div_eq_of_lt (memRead_lt ..), Nat.zero_add, memRead_add,
    Nat.add_mul_mod_self_left, Nat.mod_eq_of_lt (memRead_lt ..)]

theorem memRead_one (m : List Host.Cell) (a : Nat) : memRead m a 1 = (memByte m a).toNat := by simp [memRead]

/-- Each byte of a write. -/
theorem memByte_memWrite_inside (m : List Host.Cell) (a v : Nat) {i n : Nat} (h : i < n) :
    memByte (memWrite m a n v) (a + i) = BitVec.ofNat 8 (v / 256 ^ i) := by
  have hpart := memRead_part (memWrite m a n v) a (i := i) (k := 1) (n := n) (by omega)
  rw [memRead_one, memRead_memWrite_self] at hpart
  obtain ⟨r, rfl⟩ := Nat.exists_eq_add_of_le h
  apply BitVec.eq_of_toNat_eq
  rw [← hpart, BitVec.toNat_ofNat, show 256 ^ (i.succ + r) = 256 ^ i * 256 ^ (1 + r) by rw [← Nat.pow_add]; congr 1; omega,
    Nat.mod_mul_right_div_self, Nat.mod_mod_of_dvd _ (pow_dvd_pow 256 (Nat.le_add_right 1 r))]
  rfl

/-! ## Bytes of a line -/

/-- Byte i of a line. -/
def lineByte (d : BitVec 1024) (i : Nat) : Byte := d.extractLsb' (8 * i) 8

theorem lineByte_eq (d : BitVec 1024) (i : Nat) : lineByte d i = BitVec.ofNat 8 (d.toNat / 256 ^ i) := by
  rw [lineByte, BitVec.extractLsb', Nat.shiftRight_eq_div_pow, two_pow_eight_mul]

theorem lineData_toNat (s : State) (key : Nat) : (lineData s key).toNat = memRead s.cache.data (128 * key) 128 := by
  rw [lineData, BitVec.toNat_ofNat, Nat.mod_eq_of_lt ((memRead_lt ..).trans_eq (two_pow_eight_mul 128).symm)]

/-- A part of a line's data is what is read there. -/
theorem lineData_part (s : State) (key : Nat) {off n : Nat} (h : off + n ≤ 128) :
    (lineData s key).toNat / 2 ^ (8 * off) % 2 ^ (8 * n) = lineField s key off n := by
  rw [lineData_toNat, two_pow_eight_mul, two_pow_eight_mul, memRead_part _ _ h, lineField]

theorem lineByte_lineData (s : State) (key : Nat) {i : Nat} (h : i < 128) :
    lineByte (lineData s key) i = memByte s.cache.data (128 * key + i) := by
  have hpart := lineData_part s key (off := i) (n := 1) (by omega)
  rw [lineField, memRead_one] at hpart
  apply BitVec.eq_of_toNat_eq
  rw [← hpart, lineByte_eq, two_pow_eight_mul, BitVec.toNat_ofNat]

theorem maskBits_lt (mask : BitVec 128) (n : Nat) : maskBits mask n < 2 ^ (8 * n) := by
  induction n with
  | zero => simp [maskBits]
  | succ n ih =>
    rw [two_pow_eight_mul] at ih ⊢
    rw [maskBits, Nat.pow_succ']
    split <;> omega

/-- The bits that a byte mask selects. -/
theorem maskBits_testBit (mask : BitVec 128) (n k : Nat) :
    (maskBits mask n).testBit k = (decide (k / 8 < n) && mask.getLsbD (k / 8)) := by
  induction n with
  | zero => simp [maskBits]
  | succ n ih =>
    have hsum : maskBits mask (n + 1) = 2 ^ (8 * n) * (if mask.getLsbD n then 2 ^ 8 - 1 else 0) + maskBits mask n := by
      rw [maskBits, two_pow_eight_mul]
      split <;> ring
    rw [hsum, Nat.testBit_two_pow_mul_add _ (maskBits_lt mask n), ih]
    by_cases hk : k < 8 * n
    · have h1 : k / 8 < n := by omega
      have h2 : k / 8 < n + 1 := by omega
      simp [hk, h1, h2]
    · have h1 : ¬ k / 8 < n := by omega
      by_cases hn : k / 8 = n
      · have h3 : k - 8 * n < 8 := by omega
        have h4 : (255 : Nat).testBit (k - 8 * n) = true := by simpa [h3] using Nat.testBit_two_pow_sub_one 8 (k - 8 * n)
        cases hm : mask.getLsbD n <;> simp [hk, hn, hm, h4]
      · have h2 : ¬ k / 8 < n + 1 := by omega
        have h3 : ¬ k - 8 * n < 8 := by omega
        have h4 : (255 : Nat).testBit (k - 8 * n) = false := by simpa [h3] using Nat.testBit_two_pow_sub_one 8 (k - 8 * n)
        cases mask.getLsbD n <;> simp [hk, h2, h4]

/-- A merged line takes the bytes of the mask from the new line. -/
theorem lineByte_mergeBytes (mask : BitVec 128) (old new : BitVec 1024) {i : Nat} (h : i < 128) :
    lineByte (mergeBytes mask old new) i = if mask.getLsbD i then lineByte new i else lineByte old i := by
  ext j hj
  have hlt : 8 * i + j < 1024 := by omega
  have hdiv : (8 * i + j) / 8 = i := by omega
  have hmask : (BitVec.ofNat 1024 (maskBits mask 128))[8 * i + j] = mask.getLsbD i := by
    rw [← BitVec.getLsbD_eq_getElem, BitVec.getLsbD_ofNat, maskBits_testBit, hdiv]
    simp [hlt, h]
  cases hm : mask.getLsbD i <;> simp [lineByte, mergeBytes, hmask, hm, hlt]

/-- The mask of n bytes at an offset. -/
theorem byteMask_getLsbD {off n i : Nat} (h : off + n ≤ 128) : (byteMask off n).getLsbD i = decide (off ≤ i ∧ i < off + n) := by
  rw [byteMask, BitVec.getLsbD_ofNat, Nat.mul_comm, Nat.testBit_two_pow_mul, Nat.testBit_two_pow_sub_one]
  by_cases h1 : off ≤ i <;> by_cases h2 : i < off + n <;> simp [h1, h2] <;> omega

end Sys2Proof.Machine
end

section
/-! PROOFS. What serving a read from a line does, and the answers that threads get (R214, R258, R259). -/

namespace Sys2Proof.Machine

open Sys2Proof.Safety

/-! ## Work on a line's metadata -/

/-- Only counts, the loops' statistics, metadata of lines and messages on the half link differ. -/
def lineWork (s u : State) : Prop :=
  ∃ l c b x ln te tw, u = { s with loops := l, cnt := c, bwr := b, tst := x, cache := { s.cache with line := ln, toE := te, toW := tw } }

theorem lineWork_refl (s : State) : lineWork s s := ⟨_, _, _, _, _, _, _, rfl⟩

theorem lineWork_trans {s u v : State} (h1 : lineWork s u) (h2 : lineWork u v) : lineWork s v := by
  obtain ⟨_, _, _, _, _, _, _, rfl⟩ := h1
  obtain ⟨_, _, _, _, _, _, _, rfl⟩ := h2
  exact ⟨_, _, _, _, _, _, _, rfl⟩

theorem lineWork_of_onlyCounts {s u : State} (h : onlyCounts s u) : lineWork s u := by
  obtain ⟨_, _, _, rfl⟩ := h
  exact ⟨_, _, _, _, _, _, _, rfl⟩

theorem lineWork_setMeta (s : State) (key : Nat) (m : Meta) : lineWork s (setMeta s key m) := ⟨_, _, _, _, _, _, _, rfl⟩

theorem lineWork_modLoopMem (s : State) (n : Nat) (f : LoopMem → LoopMem) : lineWork s (modLoopMem s n f) := ⟨_, _, _, _, _, _, _, rfl⟩

theorem lineWork_prefEnded (h : Half) (p : Part) (useful : Bool) (s : State) : lineWork s (prefEnded h p useful s) :=
  lineWork_trans (lineWork_modLoopMem ..) (lineWork_of_onlyCounts (onlyCounts_cnt ..))

theorem lineWork_prefEnded_if (b : Bool) (h : Half) (p : Part) (useful : Bool) (s : State) :
    lineWork s (if b then prefEnded h p useful s else s) := by
  split
  · exact lineWork_prefEnded ..
  · exact lineWork_refl s

theorem lineWork_pushHalf (dst : Half) (m : HalfMsg) (s : State) : lineWork s (pushHalf dst m s) := by
  have hcount (k : Nat) : lineWork s (countOps .e 20 2 k (countOps .w 20 2 k s)) :=
    lineWork_of_onlyCounts (onlyCounts_trans (onlyCounts_countOps ..) (onlyCounts_countOps ..))
  have hput (t : State) : lineWork t (t.onCache fun c => match dst with
      | .e => { c with toE := c.toE ++ [m] }
      | .w => { c with toW := c.toW ++ [m] }) := by cases dst <;> exact ⟨_, _, _, _, _, _, _, rfl⟩
  exact lineWork_trans (hcount _) (hput _)

theorem lineWork_driftRead (r : LineReq) (key : Nat) (s : State) : lineWork s (driftRead r key s) := by
  unfold driftRead
  dsimp only
  split
  · exact lineWork_refl s
  · split
    · exact lineWork_trans (lineWork_setMeta ..) (lineWork_pushHalf ..)
    · exact lineWork_setMeta ..

theorem lineWork_calm {s u : State} (h : lineWork s u) : calm u = calm s := by
  obtain ⟨_, _, _, _, _, _, _, rfl⟩ := h
  rfl

/-- The answer of a read from a resident line: its poison and its data. -/
def readRes (ro : Option Nat) (key : Nat) (s : State) : LineRes :=
  { LineRes.st 0 with
    poison := (metaAt s key).sp, data := lineData s key, lcrc := (metaAt s key).lcrc,
    untrk := match ro with
      | none => false
      | some b => s.cch.clrBusy.getLsbD b }

/-- Another entry of a table, whatever the entry written is by default. -/
theorem tget_tset_other {α : Type} [DecidableEq α] (d d' : α) (t : Tab α) {m n : Nat} (v : α) (h : m ≠ n) :
    tget d' (tset d t n v) m = tget d' t m := by
  unfold tset
  split
  · exact tget_tdel_ne d' t h
  · rw [tget_tins_ne d' _ v h, tget_tdel_ne d' t h]

theorem metaAt_setMeta (s : State) (key : Nat) (m : Meta) (k : Nat) : metaAt (setMeta s key m) k = if k = key then m else metaAt s k := by
  by_cases h : k = key
  · rw [if_pos h, h]
    exact tget_tset_self ..
  · rw [if_neg h]
    exact tget_tset_other _ _ _ _ h

/-- The sharers of a line after a read by unit or port `ro` (R195, R196). -/
def readSharers (ro : Option Nat) (key : Nat) (s : State) : BitVec 24 :=
  match ro with
  | none => (metaAt s key).sharers
  | some b => if s.cch.clrBusy.getLsbD b then (metaAt s key).sharers else setBit (metaAt s key).sharers b true

/-- The entry of a line that is read. -/
def readEntry (ro : Option Nat) (melt : Bool) (key : Nat) (s : State) : Meta :=
  let m := metaAt s key
  { m with ref := true, demoted := false, pf := false, sharers := readSharers ro key s, xcnt := if m.replica then 1 else m.xcnt,
           melt := m.melt || (melt && !m.pinned && !m.replica) }

/-- The metadata that a read of line `key` leaves. -/
structure ReadMeta (ro : Option Nat) (key : Nat) (s u : State) : Prop where
  sharers : (metaAt u key).sharers = readSharers ro key s
  sp : (metaAt u key).sp = (metaAt s key).sp
  lcrc : (metaAt u key).lcrc = (metaAt s key).lcrc
  sv : (metaAt u key).sv = (metaAt s key).sv
  other : ∀ k, k ≠ key → metaAt u k = metaAt s k

theorem metaAt_driftRead (r : LineReq) (key : Nat) (s : State) :
    (∀ k, k ≠ key → metaAt (driftRead r key s) k = metaAt s k) ∧ (metaAt (driftRead r key s) key).sharers = (metaAt s key).sharers ∧
      (metaAt (driftRead r key s) key).sp = (metaAt s key).sp ∧ (metaAt (driftRead r key s) key).lcrc = (metaAt s key).lcrc ∧
      (metaAt (driftRead r key s) key).sv = (metaAt s key).sv := by
  have hpush (dst : Half) (m : HalfMsg) (t : State) (k : Nat) : metaAt (pushHalf dst m t) k = metaAt t k := by
    unfold pushHalf
    dsimp only
    rw [countOps_only, countOps_only]
    cases dst <;> rfl
  unfold driftRead
  dsimp only
  split
  · exact ⟨fun _ _ => rfl, rfl, rfl, rfl, rfl⟩
  · split
    · refine ⟨fun k hk => ?_, ?_, ?_, ?_, ?_⟩
      · rw [hpush, metaAt_setMeta, if_neg hk]
      all_goals rw [hpush, metaAt_setMeta, if_pos rfl]
    · refine ⟨fun k hk => ?_, ?_, ?_, ?_, ?_⟩
      · rw [metaAt_setMeta, if_neg hk]
      all_goals rw [metaAt_setMeta, if_pos rfl]

/-- Serving a read works on the line's metadata, and answers with the line. -/
theorem serveRead_work (r : LineReq) (ro : Option Nat) (melt : Bool) (key : Nat) (s : State) :
    ∃ u, lineWork s u ∧ serveRead r ro melt key s = answerReq r (readRes ro key s) (some key) u ∧ ReadMeta ro key s u := by
  have hpf := lineWork_prefEnded_if (metaAt s key).pf (regionHalf (keyRegion key)) (metaAt s key).part true s
  have hmeta (k : Nat) : metaAt (if (metaAt s key).pf = true then prefEnded (regionHalf (keyRegion key)) (metaAt s key).part true s else s) k =
      metaAt s k := by
    split
    · rw [prefEnded, cnt_only]
      rfl
    · rfl
  unfold serveRead
  dsimp only
  generalize (if (metaAt s key).pf = true then prefEnded (regionHalf (keyRegion key)) (metaAt s key).part true s else s) = t at hpf hmeta ⊢
  have ht := hpf
  refine ⟨driftRead r key (setMeta t key (readEntry ro melt key s)), lineWork_trans ht (lineWork_trans (lineWork_setMeta ..) (lineWork_driftRead ..)),
    ?_, ?_⟩
  · have hcch : t.cch = s.cch := by
      obtain ⟨_, _, _, _, _, _, _, rfl⟩ := hpf
      rfl
    have hdata : lineData t key = lineData s key := by
      obtain ⟨_, _, _, _, _, _, _, rfl⟩ := hpf
      rfl
    cases ro <;> simp only [hcch, hdata, readEntry, readSharers, readRes]
  · obtain ⟨d1, d2, d3, d4, d5⟩ := metaAt_driftRead r key (setMeta t key (readEntry ro melt key s))
    refine ⟨?_, ?_, ?_, ?_, fun k hk => ?_⟩
    · rw [d2, metaAt_setMeta, if_pos rfl, readEntry]
    · rw [d3, metaAt_setMeta, if_pos rfl, readEntry]
    · rw [d4, metaAt_setMeta, if_pos rfl, readEntry]
    · rw [d5, metaAt_setMeta, if_pos rfl, readEntry]
    · rw [d1 k hk, metaAt_setMeta, if_neg hk, hmeta]

/-! ## Answers to threads -/

theorem poisonData_zero (d : BitVec 1024) : poisonData 0#4 d = d := by simp [poisonData]

theorem onlyCounts_answerUnits (r : LineReq) (st : Nat) (s : State) : onlyCounts s (answerUnits r st s) := by
  unfold answerUnits
  split
  · exact onlyCounts_refl s
  · exact onlyCounts_trans (onlyCounts_countOps ..) (onlyCounts_countOps ..)

/-- A thread's read of a line without poison delivers the registers of its span (R258). -/
theorem answerReq_read_thread {r : LineReq} {sp : Span} {melt : Bool} {t : ThreadId} {id : Nat} (hop : r.op = .read sp none melt)
    (hwho : r.who = .thread t id) {x : LineRes} (hst : x.status = 0) (hp : x.poison = 0) (key : Option Nat) (s : State) :
    ∃ u, onlyCounts s u ∧ answerReq r x key s = threadResult t id (spanRegs sp x.data) u := by
  refine ⟨answerUnits r 0 s, onlyCounts_answerUnits .., ?_⟩
  simp [answerReq, hop, hwho, hst, hp, poisonData_zero, stPoison, stOk, constFill]

/-! ## The state in which an access is issued -/

/-- Only the sequencer and counts differ. -/
def seqWork (s u : State) : Prop := ∃ q c b x, u = { s with seq := q, cnt := c, bwr := b, tst := x }

theorem seqWork_refl (s : State) : seqWork s s := ⟨_, _, _, _, rfl⟩

theorem seqWork_trans {s u v : State} (h1 : seqWork s u) (h2 : seqWork u v) : seqWork s v := by
  obtain ⟨_, _, _, _, rfl⟩ := h1
  obtain ⟨_, _, _, _, rfl⟩ := h2
  exact ⟨_, _, _, _, rfl⟩

theorem seqWork_of_onlyCounts {s u : State} (h : onlyCounts s u) : seqWork s u := by
  obtain ⟨_, _, _, rfl⟩ := h
  exact ⟨_, _, _, _, rfl⟩

theorem seqWork_modThr (s : State) (t : Nat) (f : Thread → Thread) : seqWork s (modThr s t f) := ⟨_, _, _, _, rfl⟩

theorem seqWork_firstIssue (t : ThreadId) (s : State) : seqWork s (firstIssue t s) := by
  obtain ⟨-, e⟩ | ⟨k, -, e⟩ := firstIssue_cases t s <;> rw [e]
  · exact seqWork_refl s
  · exact ⟨_, _, _, _, rfl⟩

theorem seqWork_countIssue (t : ThreadId) (s : State) : seqWork s (countIssue t s) :=
  seqWork_trans (seqWork_firstIssue t s)
    (seqWork_of_onlyCounts (onlyCounts_trans (onlyCounts_cnt ..) (onlyCounts_countOps ..)))

theorem seqWork_retire (t : ThreadId) (f : Thread → Thread) (s : State) : seqWork s (retire t f s) := by
  unfold retire
  exact seqWork_trans (seqWork_countIssue t s) (seqWork_modThr ..)

theorem seqWork_calm {s u : State} (h : seqWork s u) : calm u = calm s := by
  obtain ⟨_, _, _, _, rfl⟩ := h
  rfl

/-- A request is accepted with counts (R125). -/
theorem enqueue_counts (r : LineReq) (s : State) : ∃ u, onlyCounts s u ∧ enqueue r s = requeue r u := by
  refine ⟨_, ?_, rfl⟩
  split
  · exact onlyCounts_refl s
  · exact onlyCounts_trans (onlyCounts_countOps ..) (onlyCounts_countOps ..)

/-- What a request carries does not depend on the sequencer and on counts. -/
theorem mkReq_seqWork {s u : State} (h : seqWork s u) (w : Who) (op : LineOp) (sa : Sa) (p : Part) (arrival home : Half) :
    mkReq u w op sa p arrival home = mkReq s w op sa p arrival home := by
  obtain ⟨_, _, _, _, rfl⟩ := h
  rfl

theorem Meets.seqWork {s u : State} {r : LineReq} {key : Nat} (h : Meets s r key) (hu : seqWork s u) : Meets u r key := by
  obtain ⟨_, _, _, _, rfl⟩ := hu
  exact ⟨h.calm, h.clean, h.runs, h.damage, h.place⟩

/-- A unit's request meets the line that `lineHere` names. -/
theorem meets_mkReq {s : State} {op : LineOp} {sa : Sa} {p : Part} {arrival home : Half} {key : Nat}
    (h : lineHere s op sa p arrival home key = true) (w : Who) : Meets s (mkReq s w op sa p arrival home) key :=
  (meets_of_lineHere h).congr rfl rfl rfl rfl rfl rfl

theorem onlyCounts_calm {s u : State} (h : onlyCounts s u) : calm u = calm s := seqWork_calm (seqWork_of_onlyCounts h)

/-- A single request is performed on the line it meets, after which the machine is calm again, or waits alone. -/
theorem settle_enqueue {s : State} {r : LineReq} {key : Nat} (h : Meets s r key) :
    ∃ u, onlyCounts s u ∧
      ((atLine r key u).1 = true → calm (atLine r key u).2 = true → ∃ w, onlyCounts (atLine r key u).2 w ∧ settle (enqueue r s) = w) ∧
      ((atLine r key u).1 = false → (atLine r key u).2 = u → settle (enqueue r s) = requeue r u) := by
  obtain ⟨u, hu, he⟩ := enqueue_counts r s
  have hm := h.seqWork (seqWork_of_onlyCounts hu)
  obtain ⟨h1, h2, h3⟩ := tryReq_meets hm
  rw [he]
  refine ⟨u, hu, fun hd hc => ⟨(tryReq r u).2, h2 hd, ?_⟩, fun hd hs => ?_⟩
  · exact settle_done hm.calm (Prod.ext (h1.trans hd) rfl) ((onlyCounts_calm (h2 hd)).trans hc)
  · exact settle_waits hm.calm (Prod.ext (h1.trans hd) ((h3 hd).trans hs))

/-! ## Accesses of a thread that are issued -/

/-- The access that an instruction makes outstanding (R214). -/
def newOut (t : ThreadId) (sa : Sa) (store : Bool) (dest : BitVec 5) (count : Nat) (pva : BitVec 48) (viaRo : Bool) (s : State) : Outst :=
  { id := (thr s t.val).nextId, line := lineOf sa, store := store, dest := dest, count := count, result := none, pva := pva, viaRo := viaRo,
    void := false }

/-- An instruction has issued the access o: its thread goes on at pc + 8 with its registers as before and o the youngest of its accesses. -/
def hasIssued (t : ThreadId) (o : Outst) (s u : State) : Prop :=
  (thr u t.val).pc = (thr s t.val).pc + 8 ∧ (thr u t.val).g = (thr s t.val).g ∧ (thr u t.val).outs = (thr s t.val).outs ++ [o] ∧
    ∀ k, k ≠ t.val → thr u k = thr s k

/-- Retirement after the access is made outstanding issues it. -/
theorem hasIssued_retire (t : ThreadId) (sa : Sa) (store : Bool) (dest : BitVec 5) (count : Nat) (pva : BitVec 48) (viaRo : Bool)
    (f : Thread → Thread) (s : State) (hf : ∀ th : Thread, (f th).pc = th.pc + 8 ∧ (f th).g = th.g ∧ (f th).outs = th.outs) :
    hasIssued t (newOut t sa store dest count pva viaRo s) s (retire t f (issueOut t sa store dest count pva viaRo s).2) := by
  refine ⟨?_, ?_, ?_, fun k hk => ?_⟩
  · rw [thr_retire_self]; simp [hf, issueOut]
  · rw [thr_retire_self]; simp [hf, issueOut]
  · rw [thr_retire_self]; simp [hf, issueOut, newOut]
  · rw [thr_retire_ne t f _ hk]; exact thr_setThr_ne s _ hk

theorem seqWork_issue (t : ThreadId) (sa : Sa) (store : Bool) (dest : BitVec 5) (count : Nat) (pva : BitVec 48) (viaRo : Bool)
    (f : Thread → Thread) (s : State) : seqWork s (retire t f (issueOut t sa store dest count pva viaRo s).2) :=
  seqWork_trans ⟨_, _, _, _, rfl⟩ (seqWork_retire ..)

/-- The result of an access reaches it, and no other part of a thread. -/
theorem thr_threadResult (t : ThreadId) (id : Nat) (v : List (BitVec 64)) (s : State) :
    thr (threadResult t id v s) t.val =
      { thr s t.val with outs := (thr s t.val).outs.map fun o => if o.id = id then { o with result := some v } else o } :=
  thr_modThr_self ..

/-- An issued access whose result is there. -/
theorem issued_of_result {t : ThreadId} {sa : Sa} {o : Outst} {s u w : State} {v : List (BitVec 64)} (hu : hasIssued t o s u)
    (hid : o.id = (thr s t.val).nextId) (hline : o.line = lineOf sa) (hw : (thr w t.val) = thr (threadResult t o.id v u) t.val)
    (hother : otherTasks t u w) : issued t sa { o with result := some v } s w := by
  obtain ⟨hpc, hg, houts, hne⟩ := hu
  rw [thr_threadResult] at hw
  refine ⟨by rw [hw]; exact hpc, fun r => by rw [hw]; simp only [gReg, hg], ?_, hid, hline, fun k hk => ?_⟩
  · rw [hw]
    simp [houts, outsWith]
  · rw [hother k hk, hne k hk]

end Sys2Proof.Machine
end

section
/-! PROOFS. Loads (R258): an aligned access reaches an aligned address, the request meets its line, and the line's bytes answer it. -/

namespace Sys2Proof.Machine

open Sys2Proof.Safety

/-! ## Addresses -/

theorem reachSa_go {s : State} {t : Nat} {p : Part} {pva : BitVec 64} {sa sb : Sa} {need : Rights} {kind : Nat} {dev : Space → Bool}
    {x : Space} (h : reachSa s t p pva sa need kind dev = .go x sb) : sb = sa := by
  unfold reachSa at h
  dsimp only at h
  split at h
  · split at h
    · cases h
    · split at h
      · cases h
      · split at h
        · cases h
        · cases h
          rfl
  · split at h
    · cases h
    · split at h
      · cases h
      · split at h
        · cases h
        · cases h
          rfl

/-- An access that reaches memory does so through a translation of its address. -/
theorem reach_go {t : Nat} {p : Part} {pva : BitVec 64} {page need : Rights} {kind : Nat} {dev : Space → Bool} {held : Option Tlb}
    {s : State} {x : Space} {sa : Sa} (h : (reach t p pva page need kind dev held s).1 = .go x sa) :
    ∃ e : Tlb, sa = e.target pva.toNat := by
  unfold reach at h
  split at h
  · cases h
  · dsimp only at h
    split at h
    · cases h
    next e _ => exact ⟨e, reachSa_go h⟩

/-- A translation keeps the offset in a page. -/
theorem target_mod (e : Tlb) (a : Nat) {k : Nat} (hk : k ≤ 12) : (e.target a).toNat % 2 ^ k = a % 2 ^ k := by
  have h1 : 2 ^ k ∣ 2 ^ 52 := pow_dvd_pow 2 (by omega)
  have h2 : 2 ^ k ∣ 2 ^ pageLog e.size := pow_dvd_pow 2 (by unfold pageLog; omega)
  have h3 : 2 ^ k ∣ e.sa.toNat * 4096 := Dvd.dvd.mul_left (pow_dvd_pow 2 hk : 2 ^ k ∣ 2 ^ 12) _
  rw [Tlb.target, BitVec.toNat_ofNat, Nat.mod_mod_of_dvd _ h1, Nat.add_mod, Nat.mod_eq_zero_of_dvd h3, Nat.zero_add, Nat.mod_mod,
    Nat.mod_mod_of_dvd _ h2]

/-- An access of 2^k bytes that is aligned and reaches memory is aligned in its line. -/
theorem reachesAt_aligned {t : ThreadId} {pva : BitVec 64} {k : Nat} {need : Rights} {kind : Nat} {dev : Space → Bool} {x : Space} {sa : Sa}
    {s : State} (h : reachesAt t pva (2 ^ k) need kind dev x sa s) (hk : k ≤ 7) : sa.toNat % 128 + 2 ^ k ≤ 128 := by
  obtain ⟨e, rfl⟩ := reach_go h.2
  have hm := target_mod e pva.toNat (k := k) (by omega)
  rw [h.1] at hm
  have h7 : (e.target pva.toNat).toNat % 128 % 2 ^ k = 0 :=
    (Nat.mod_mod_of_dvd _ (pow_dvd_pow 2 hk : 2 ^ k ∣ 2 ^ 7)).trans hm
  obtain ⟨c, hc⟩ := Nat.dvd_of_mod_eq_zero h7
  have hlt : (e.target pva.toNat).toNat % 128 < 128 := Nat.mod_lt _ (by decide)
  have hpow : 128 = 2 ^ k * 2 ^ (7 - k) := by rw [← Nat.pow_add, show k + (7 - k) = 7 by omega]
  have hcl : c < 2 ^ (7 - k) := by
    by_contra hge
    have := Nat.mul_le_mul_left (2 ^ k) (Nat.le_of_not_lt hge)
    omega
  have := Nat.mul_le_mul_left (2 ^ k) (Nat.succ_le_of_lt hcl)
  rw [Nat.mul_succ] at this
  omega

/-- The checks of an access that reaches memory lead on with the translated address (R251 steps 3 to 6). -/
theorem access_reaches {t : ThreadId} {pva : BitVec 64} {align : Nat} {need : Rights} {kind : Nat} {dev : Space → Bool} {x : Space} {sa : Sa}
    {s : State} (h : reachesAt t pva align need kind dev x sa s) (k : Space → Sa → State → State) :
    access t pva align need kind dev k s = k x sa (reached t pva need kind dev s) := by
  obtain ⟨h1, h2⟩ := h
  simp only [access, h1, h2, ne_eq, not_true_eq_false, if_false, reached]

/-! ## What a load delivers -/

/-- The sign extension of n bytes. -/
theorem signed_value {n v : Nat} (hn : 1 ≤ n) (hn8 : n ≤ 8) (hv : v < 2 ^ (8 * n)) :
    (if 2 ^ (8 * n - 1) ≤ v then BitVec.ofNat 64 v - BitVec.ofNat 64 (2 ^ (8 * n)) else BitVec.ofNat 64 v) =
      (BitVec.ofNat (8 * n) v).signExtend 64 := by
  have hhalf : 2 ^ (8 * n) = 2 * 2 ^ (8 * n - 1) := by rw [← Nat.pow_succ']; congr 1; omega
  rw [BitVec.signExtend, BitVec.toInt_eq_toNat_cond, BitVec.toNat_ofNat, Nat.mod_eq_of_lt hv]
  by_cases hlt : 2 ^ (8 * n - 1) ≤ v
  · rw [if_pos hlt, if_neg (by omega)]
    rw [Int.sub_eq_add_neg, BitVec.ofInt_add, BitVec.ofInt_neg, BitVec.ofInt_natCast, BitVec.ofInt_natCast, sub_eq_add_neg]
  · rw [if_neg hlt, if_pos (by omega)]
    simp

/-- The register that a load of n bytes delivers. -/
theorem spanRegs_bytes (s : State) (key : Nat) {off n : Nat} (sg : Bool) (hn : 1 ≤ n) (hn8 : n ≤ 8) (hoff : off + n ≤ 128) :
    spanRegs (.bytes off n sg) (lineData s key) =
      [if sg then (BitVec.ofNat (8 * n) (lineField s key off n)).signExtend 64 else BitVec.ofNat 64 (lineField s key off n)] := by
  have hv : lineField s key off n < 2 ^ (8 * n) := by rw [two_pow_eight_mul]; exact memRead_lt ..
  simp only [spanRegs, lineData_part s key hoff]
  cases sg
  · simp
  · simp only [true_and, if_true, ← signed_value hn hn8 hv]

/-- The registers that a load of a line delivers. -/
theorem spanRegs_line (s : State) (key : Nat) :
    spanRegs .line (lineData s key) = (List.range 16).map fun i => BitVec.ofNat 64 (lineField s key (8 * i) 8) := by
  refine List.map_congr_left fun i hi => ?_
  have hlt := List.mem_range.mp hi
  apply BitVec.eq_of_toNat_eq
  rw [← lineData_part s key (by omega), BitVec.extractLsb'_toNat, Nat.shiftRight_eq_div_pow, BitVec.toNat_ofNat,
    show 8 * (8 * i) = 64 * i by omega]
  simp

/-! ## A load that finds its line -/

/-- A read that meets its line is answered with the line, after work on its metadata. -/
theorem settle_read {s : State} {r : LineReq} {key : Nat} {sp : Span} {ro : Option Nat} {melt : Bool} (h : Meets s r key)
    (hop : r.op = .read sp ro melt) :
    ∃ u, lineWork s u ∧ ReadMeta ro key s u ∧ (calm (answerReq r (readRes ro key s) (some key) u) = true →
      onlyCounts (answerReq r (readRes ro key s) (some key) u) (settle (enqueue r s))) := by
  obtain ⟨t, ht, hdone, -⟩ := settle_enqueue h
  obtain ⟨u, hu, he, hmeta⟩ := serveRead_work r ro melt key t
  have hline : atLine r key t = (true, answerReq r (readRes ro key s) (some key) u) := by
    have hres : readRes ro key t = readRes ro key s := by
      obtain ⟨_, _, _, rfl⟩ := ht
      rfl
    simp only [atLine, hop, he, hres]
  rw [hline] at hdone
  refine ⟨u, lineWork_trans (lineWork_of_onlyCounts ht) hu, ?_, fun hc => ?_⟩
  · obtain ⟨_, _, _, rfl⟩ := ht
    exact ⟨hmeta.sharers, hmeta.sp, hmeta.lcrc, hmeta.sv, hmeta.other⟩
  obtain ⟨w, hw, hset⟩ := hdone rfl hc
  rwa [hset]

/-- A thread's read of a line without poison has its result. -/
theorem settle_read_thread {s : State} {r : LineReq} {key : Nat} {sp : Span} {melt : Bool} {t : ThreadId} {id : Nat} (h : Meets s r key)
    (hop : r.op = .read sp none melt) (hwho : r.who = .thread t id) (hp : (metaAt s key).sp = 0) :
    ∃ u, lineWork s u ∧ settle (enqueue r s) = threadResult t id (spanRegs sp (lineData s key)) u := by
  obtain ⟨u, hu, -, hset⟩ := settle_read h hop
  obtain ⟨v, hv, he⟩ := answerReq_read_thread hop hwho (x := readRes none key s) rfl hp (some key) u
  rw [he] at hset
  have hcalm : calm (threadResult t id (spanRegs sp (lineData s key)) v) = true :=
    (seqWork_calm (seqWork_modThr ..)).trans ((onlyCounts_calm hv).trans ((lineWork_calm hu).trans h.calm))
  obtain ⟨c, b, x, hw⟩ := hset hcalm
  exact ⟨{ v with cnt := c, bwr := b, tst := x }, lineWork_trans hu (lineWork_of_onlyCounts (onlyCounts_trans hv ⟨c, b, x, rfl⟩)), hw⟩

theorem thr_lineWork {s u : State} (h : lineWork s u) (k : Nat) : thr u k = thr s k := by
  obtain ⟨_, _, _, _, _, _, _, rfl⟩ := h
  rfl

theorem data_lineWork {s u : State} (h : lineWork s u) : u.cache.data = s.cache.data := by
  obtain ⟨_, _, _, _, _, _, _, rfl⟩ := h
  rfl

/-- A load of a line that is there, without poison, is outstanding with its result; no byte changes. -/
theorem issueLine_load {t : ThreadId} {x : Space} {sa : Sa} (pva : BitVec 64) (dest : BitVec 5) (count : Nat) {sp : Span} {key : Nat}
    {s : State}
    (h : lineHere s (.read sp none false) sa (thr s t.val).part (thrHalf t.val) (x.home t.val) key = true) (hp : (metaAt s key).sp = 0) :
    ∃ o : Outst, issued t sa o s (issueLine t x sa pva false dest count false (.read sp none false) id s) ∧ o.dest = dest ∧ o.count = count ∧
      o.store = false ∧ o.result = some (spanRegs sp (lineData s key)) ∧
      sameBytes s (issueLine t x sa pva false dest count false (.read sp none false) id s) := by
  let o := newOut t sa false dest count (pva.setWidth 48) false s
  have hu := hasIssued_retire t sa false dest count (pva.setWidth 48) false (fun y => (id y).next) s fun th => ⟨rfl, rfl, rfl⟩
  have hs := seqWork_issue t sa false dest count (pva.setWidth 48) false (fun y => (id y).next) s
  have he : issueLine t x sa pva false dest count false (.read sp none false) id s =
      settle (enqueue (mkReq (retire t (fun y => (id y).next) (issueOut t sa false dest count (pva.setWidth 48) false s).2) (.thread t o.id)
        (.read sp none false) sa (thr s t.val).part (thrHalf t.val) (x.home t.val))
        (retire t (fun y => (id y).next) (issueOut t sa false dest count (pva.setWidth 48) false s).2)) := rfl
  rw [he]
  generalize retire t (fun y => (id y).next) (issueOut t sa false dest count (pva.setWidth 48) false s).2 = s3 at hu hs ⊢
  have hdata : lineData s3 key = lineData s key ∧ metaAt s3 key = metaAt s key ∧ s3.cache = s.cache := by
    obtain ⟨_, _, _, _, rfl⟩ := hs
    exact ⟨rfl, rfl, rfl⟩
  rw [mkReq_seqWork hs]
  obtain ⟨v, hv, hset⟩ := settle_read_thread (t := t) (id := o.id) ((meets_mkReq h (.thread t o.id)).seqWork hs) rfl rfl
    (by rw [hdata.2.1, hp])
  rw [hset, hdata.1]
  refine ⟨{ o with result := some (spanRegs sp (lineData s key)) }, issued_of_result hu rfl rfl ?_ fun k hk => ?_, rfl, rfl, rfl, rfl, ?_⟩
  · rw [thr_threadResult, thr_threadResult, thr_lineWork hv]
  · rw [threadResult, thr_modThr_ne _ _ hk, thr_lineWork hv]
  · exact sameBytes_of_data ((data_lineWork hv).trans (congrArg Cache.data hdata.2.2))

/-! ## What a translation leaves behind it -/

/-- The look-up in the translation cache itself (R108, R109). -/
def cachedXl (h : Half) (p : Part) (pva : Nat) (need : Rights) (s : State) : Option Tlb × State :=
  match tlbFind s h p pva with
  | none => (none, s)
  | some (i, e) => if e.rights.pageGrants need then (some e, setTlb i (some { e with ref := true }) s) else (none, setTlb i none s)

theorem xlook_eq (h : Half) (p : Part) (pva : Nat) (need : Rights) (held : Option Tlb) (s : State) :
    xlook h p pva need held s = match held with
      | some e => if e.maps p pva ∧ e.rights.pageGrants need then (some e, s) else cachedXl h p pva need s
      | none => cachedXl h p pva need s := rfl

theorem cachedXl_only (h : Half) (p : Part) (pva : Nat) (need : Rights) (s : State) :
    ∃ x, (cachedXl h p pva need s).2 = { s with xlt := x } := by
  unfold cachedXl
  split
  · exact ⟨_, rfl⟩
  · split <;> exact ⟨_, rfl⟩

/-- Looking an address up changes the translation cache only. -/
theorem xlook_only (h : Half) (p : Part) (pva : Nat) (need : Rights) (held : Option Tlb) (s : State) :
    ∃ x, (xlook h p pva need held s).2 = { s with xlt := x } := by
  rw [xlook_eq]
  split
  · split
    · exact ⟨_, rfl⟩
    · exact cachedXl_only ..
  · exact cachedXl_only ..

theorem reach_only (t : Nat) (p : Part) (pva : BitVec 64) (page need : Rights) (kind : Nat) (dev : Space → Bool) (held : Option Tlb)
    (s : State) : ∃ x, (reach t p pva page need kind dev held s).2 = { s with xlt := x } := by
  obtain ⟨x, hx⟩ := xlook_only (thrHalf t) p pva.toNat page held s
  unfold reach
  split
  · exact ⟨_, rfl⟩
  · dsimp only
    split <;> exact ⟨x, hx⟩

theorem reached_only (t : ThreadId) (pva : BitVec 64) (need : Rights) (kind : Nat) (dev : Space → Bool) (s : State) :
    ∃ x, reached t pva need kind dev s = { s with xlt := x } := reach_only ..

@[simp] theorem thr_reached (t : ThreadId) (pva : BitVec 64) (need : Rights) (kind : Nat) (dev : Space → Bool) (s : State) (k : Nat) :
    thr (reached t pva need kind dev s) k = thr s k := by
  obtain ⟨x, hx⟩ := reached_only t pva need kind dev s
  rw [hx]
  rfl

/-! ## The load instructions -/

theorem field_low (a n : Nat) : field a 0 n = a % 2 ^ n := by simp [field]

theorem outsFull_of_lt {s : State} {t : ThreadId} (h : (thr s t.val).outs.length < 16) : outsFull s t = false := by
  simpa [outsFull] using h

@[simp] theorem issued_answered {t : ThreadId} {sa : Sa} {o : Outst} {r s u : State} : issued t sa o r (answered s u) ↔ issued t sa o r u :=
  Iff.rfl

/-- LD of memory that is there. -/
theorem ld_completes {t : ThreadId} {f : TFields} {s : State} {x : Space} {sa : Sa} {key : Nat} (hi : issues t [f.d.toNat, f.a.toNat] s)
    (hc : standsAt t (.ld t f) s) (hl : (f.b == 0 && f.c == 0) = true) (hv : f.v.getLsbD 3 = false)
    (hr : reachesAt t (effAddr (thr (fetched t s) t.val) f) (sizeOf f) Rights.rd 0 (devOk (sizeOf f) false) x sa (fetched t s))
    (hx : x.isDev = false) (hlen : (thr (fetched t s) t.val).outs.length < 16) {s2 : State}
    (hs2 : reached t (effAddr (thr (fetched t s) t.val) f) Rights.rd 0 (devOk (sizeOf f) false) (fetched t s) = s2)
    (hh : lineHere s2 (.read (.bytes (sa.toNat % 128) (sizeOf f) (signedLd f)) none false) sa (thr (fetched t s) t.val).part (thrHalf t.val)
      (x.home t.val) key = true) (hp : (metaAt s2 key).sp = 0) :
    completesWith (.ld t f) s fun u => ∃ o : Outst, issued t sa o s2 u ∧ o.dest = f.d ∧ o.count = 1 ∧ o.store = false ∧ sameBytes s2 u ∧
      o.result = some (spanRegs (.bytes (sa.toNat % 128) (sizeOf f) (signedLd f)) (lineData s2 key)) := by
  have he : exec (.ld t f) s = execLd t f s := rfl
  have hthr : ∀ k, thr s2 k = thr (fetched t s) k := fun k => by rw [← hs2, thr_reached]
  have hfull : outsFull s2 t = false := outsFull_of_lt (by rw [hthr]; exact hlen)
  rw [execLd, hl, instr_issues 0 _ hi hc] at he
  dsimp only at he
  rw [access_reaches hr, hs2, hfull, hx, hv, field_low] at he
  simp only [Bool.false_eq_true, if_false] at he
  obtain ⟨o, ho, hd, hcount, hst, hres, hb⟩ := issueLine_load (effAddr (thr (fetched t s) t.val) f) f.d 1 (by rw [hthr]; exact hh) hp
  exact completesWith_answer he ⟨o, issued_answered.mpr ho, hd, hcount, hst, sameBytes_answered.mpr hb, hres⟩

/-- LDL of a line that is there. -/
theorem ldl_completes {t : ThreadId} {f : TFields} {s : State} {x : Space} {sa : Sa} {key : Nat}
    (hi : issues t (f.a.toNat :: groupRegs f.d) s) (hc : standsAt t (.ldl t f) s) (hl : (groupOk f.d && f.b == 0 && noVC f) = true)
    (hr : reachesAt t (effAddr (thr (fetched t s) t.val) f) 128 Rights.rd 0 noDev x sa (fetched t s))
    (hlen : (thr (fetched t s) t.val).outs.length < 16) {s2 : State}
    (hs2 : reached t (effAddr (thr (fetched t s) t.val) f) Rights.rd 0 noDev (fetched t s) = s2)
    (hh : lineHere s2 (.read .line none false) sa (thr (fetched t s) t.val).part (thrHalf t.val) (x.home t.val) key = true)
    (hp : (metaAt s2 key).sp = 0) :
    completesWith (.ldl t f) s fun u => ∃ o : Outst, issued t sa o s2 u ∧ o.dest = f.d ∧ o.count = 16 ∧ o.store = false ∧ sameBytes s2 u ∧
      o.result = some (spanRegs .line (lineData s2 key)) := by
  have he : exec (.ldl t f) s = execLdl t f s := rfl
  have hthr : ∀ k, thr s2 k = thr (fetched t s) k := fun k => by rw [← hs2, thr_reached]
  have hfull : outsFull s2 t = false := outsFull_of_lt (by rw [hthr]; exact hlen)
  rw [execLdl, hl, instr_issues 0 _ hi hc] at he
  dsimp only at he
  rw [access_reaches hr, hs2, hfull] at he
  simp only [Bool.false_eq_true, if_false] at he
  obtain ⟨o, ho, hd, hcount, hst, hres, hb⟩ := issueLine_load (effAddr (thr (fetched t s) t.val) f) f.d 16 (by rw [hthr]; exact hh) hp
  exact completesWith_answer he ⟨o, issued_answered.mpr ho, hd, hcount, hst, sameBytes_answered.mpr hb, hres⟩

theorem sizeOf_cases (f : TFields) : ∃ k ≤ 3, sizeOf f = 2 ^ k := ⟨f.v.toNat % 4, by omega, rfl⟩

/-- Settles O10: both loads are issued to the line that is there, whose bytes answer them. -/
theorem loadResults : Obligations.LoadResults := by
  intro t f s x sa key s1 th pva n sg off here
  refine ⟨?_, ?_⟩
  · intro hi hc b0 c0 hv hr s2 ⟨hx, hlen, _, hl, hp⟩
    obtain ⟨u, hu, o, ho, hd, hcount, hst, hb, hres⟩ := ld_completes hi hc (by simp [b0, c0]) hv hr hx hlen rfl hl hp
    have hn : 1 ≤ sizeOf f ∧ sizeOf f ≤ 8 := by
      obtain ⟨k, hk, he⟩ := sizeOf_cases f
      interval_cases k <;> simp [he]
    have hoff : off + sizeOf f ≤ 128 := reachesAt_aligned hr (by omega)
    exact ⟨u, hu, o, ho, hd, hcount, hst, hb, hres.trans (congrArg some (spanRegs_bytes s2 key _ hn.1 hn.2 hoff))⟩
  · intro hi hc d1 d16 b0 v0 c0 hr s2 ⟨_, hlen, _, hl, hp⟩
    obtain ⟨u, hu, o, ho, hd, hcount, hst, hb, hres⟩ := ldl_completes hi hc (by simp [groupOk, d1, d16, b0, noVC, v0, c0]) hr hlen rfl hl hp
    exact ⟨u, hu, o, ho, hd, hcount, hst, hb, hres.trans (congrArg some (spanRegs_line s2 key))⟩

end Sys2Proof.Machine
end

section
/-! PROOFS. Atomics (R174, R177): their acceptance at the home of their line. -/

namespace Sys2Proof.Machine

open Sys2Proof.Safety

/-! ## Acceptance -/

/-- An atomic as it is accepted. -/
def newAtom (w : Who) (k : AtomKind) (wide : Bool) (v cmp : BitVec 64) (sa : Sa) (p : Part) (arrival : Half) (master : Nat) (s : State) : Atom :=
  { id := s.atu.ids, who := w, kind := k, wide := wide, v := v, cmp := cmp, sa := sa, part := p, arrival := arrival, master := master,
    copy := .idle, go := false }

/-- The state with the atomic listed at its home, before its request is accepted. -/
def withAtom (home : Half) (a : Atom) (s : State) : State :=
  let t := s.onAtu fun x => { x with ids := x.ids + 1 }
  setAtuHalf t home { atuHalf t home with atoms := (atuHalf t home).atoms ++ [a] }

/-- The operation's request at its line. -/
def atuReq (id : Nat) (sa : Sa) (p : Part) (arrival home : Half) (master : Nat) (s : State) : LineReq :=
  { mkReq s .own (.atu id) sa p arrival home with master := some master }

theorem acceptAtom_eq (w : Who) (k : AtomKind) (wide : Bool) (v cmp : BitVec 64) (sa : Sa) (p : Part) (arrival home : Half) (master : Nat)
    (s : State) :
    acceptAtom w k wide v cmp sa p arrival home master s =
      enqueue (atuReq s.atu.ids sa p arrival home master s) (withAtom home (newAtom w k wide v cmp sa p arrival master s) s) := by
  cases home <;> rfl

theorem atuHalf_withAtom (home : Half) (a : Atom) (s : State) :
    (atuHalf (withAtom home a s) home) = { atuHalf s home with atoms := (atuHalf s home).atoms ++ [a] } := by
  cases home <;> rfl

theorem calm_withAtom (home : Half) (a : Atom) (s : State) : calm (withAtom home a s) = calm s := by
  cases home <;> rfl

/-- An operation of the ATU meets the line that `lineHere` names, whatever its number. -/
theorem meets_atuReq {s : State} {sa : Sa} {p : Part} {arrival home : Half} {key : Nat}
    (h : lineHere s (.atu 0) sa p arrival home key = true) (id master : Nat) : Meets s (atuReq id sa p arrival home master s) key := by
  obtain ⟨h1, h2, h3, h4, h5⟩ := meets_of_lineHere h
  exact ⟨h1, h2, h3, h4, h5⟩

theorem Meets.withAtom {s : State} {r : LineReq} {key : Nat} (h : Meets s r key) (home : Half) (a : Atom) :
    Meets (withAtom home a s) r key := by
  obtain ⟨h1, h2, h3, h4, h5⟩ := h
  cases home <;> exact ⟨h1, h2, h3, h4, h5⟩

/-- No copy of the line has to go before it changes (R198). -/
theorem needInv_of_noCopies {s : State} {key : Nat} (h : noCopies s key = true) (t : State) : needInv t (metaAt s key) = false := by
  simp only [noCopies, Bool.and_eq_true, beq_iff_eq, Bool.not_eq_true'] at h
  simp [needInv, h.1, h.2]

/-- An operation whose activation is not due waits at its line. -/
theorem atLine_waits {r : LineReq} {id key : Nat} {s : State} (hop : r.op = .atu id) (hgo : atuGo s r.home id = some false)
    (hn : noCopies s key = true) : atLine r key s = (false, s) := by
  simp [atLine, hop, hgo, needInv_of_noCopies hn]

/-- An atomic has been accepted at its home: threads, links and bytes are as before, and it waits with the others (R177). -/
def hasAccepted (home : Half) (a : Atom) (s u : State) : Prop :=
  u.seq = s.seq ∧ u.links = s.links ∧ u.cache.data = s.cache.data ∧ (atuHalf u home).atoms = (atuHalf s home).atoms ++ [a]

/-- An accepted atomic on a line that is there, with no copy elsewhere, waits for its activation. -/
theorem settle_acceptAtom {s : State} (w : Who) (k : AtomKind) (wide : Bool) (v cmp : BitVec 64) {sa : Sa} {p : Part} {arrival home : Half}
    (master : Nat) {key : Nat} (h : lineHere s (.atu 0) sa p arrival home key = true) (hn : noCopies s key = true)
    (hf : findAtom s home s.atu.ids = none) :
    hasAccepted home (newAtom w k wide v cmp sa p arrival master s) s (settle (acceptAtom w k wide v cmp sa p arrival home master s)) := by
  rw [acceptAtom_eq]
  have hm := (meets_atuReq h s.atu.ids master).withAtom home (newAtom w k wide v cmp sa p arrival master s)
  obtain ⟨u, hu, -, hwait⟩ := settle_enqueue hm
  have hline : atLine (atuReq s.atu.ids sa p arrival home master s) key u = (false, u) := by
    obtain ⟨_, _, _, rfl⟩ := hu
    refine atLine_waits rfl ?_ ?_
    · have hfind : findAtom (Machine.withAtom home (newAtom w k wide v cmp sa p arrival master s) s) home s.atu.ids =
          some (newAtom w k wide v cmp sa p arrival master s) := by
        unfold findAtom at hf ⊢
        rw [atuHalf_withAtom, List.find?_append, hf]
        simp [newAtom]
      have : atuGo (Machine.withAtom home (newAtom w k wide v cmp sa p arrival master s) s) home s.atu.ids = some false := by
        unfold atuGo
        rw [hfind]
        rfl
      exact this
    · cases home <;> exact hn
  rw [hline] at hwait
  rw [hwait rfl rfl]
  obtain ⟨_, _, _, rfl⟩ := hu
  refine ⟨?_, ?_, ?_, ?_⟩
  · cases home <;> rfl
  · cases home <;> rfl
  · cases home <;> rfl
  · exact congrArg AtuHalf.atoms (atuHalf_withAtom ..)

/-! ## Atomics of threads -/

@[simp] theorem atuHalf_answered (s t : State) (h : Half) : atuHalf (answered s t) h = atuHalf t h := rfl

theorem outsWith_none (outs : List Outst) (o : Outst) (h : o.result = none) : outsWith outs o = outs ++ [o] := by
  simp [outsWith, h]

/-- An issued access that has no result yet. -/
theorem issued_of_issue {t : ThreadId} {sa : Sa} {o : Outst} {s u w : State} (hu : hasIssued t o s u) (hid : o.id = (thr s t.val).nextId)
    (hline : o.line = lineOf sa) (hres : o.result = none) (hw : ∀ k, thr w k = thr u k) : issued t sa o s w := by
  obtain ⟨hpc, hg, houts, hne⟩ := hu
  refine ⟨by rw [hw]; exact hpc, fun r => by rw [hw]; simp only [gReg, hg], ?_, hid, hline, fun k hk => by rw [hw, hne k hk]⟩
  rw [hw, houts, outsWith_none _ _ hres]

/-- What the line of an access is does not depend on the sequencer and on counts. -/
theorem lineHere_seqWork {s u : State} (h : seqWork s u) (op : LineOp) (sa : Sa) (p : Part) (arrival home : Half) (key : Nat) :
    lineHere u op sa p arrival home key = lineHere s op sa p arrival home key := by
  obtain ⟨_, _, _, _, rfl⟩ := h
  rfl

/-- An atomic of a thread on a line that is there, with no copy elsewhere, is accepted (R177, R261, R269). -/
theorem atomic_completes {t : ThreadId} {c : Instr} {f : TFields} {s : State} {k : AtomKind} {wide : Bool} {v cmp : Thread → BitVec 64}
    {x : Space} {sa : Sa} {key : Nat} (he : exec c s = atomic t c f true k wide v cmp s)
    (hi : issues t [f.d.toNat, f.a.toNat, f.b.toNat, f.c.toNat] s) (hc : standsAt t c s)
    (hr : reachesAt t (effAddr (thr (fetched t s) t.val) f) (if wide then 8 else 4) Rights.atom 2 noDev x sa (fetched t s))
    (hlen : (thr (fetched t s) t.val).outs.length < 16) {s2 : State}
    (hs2 : reached t (effAddr (thr (fetched t s) t.val) f) Rights.atom 2 noDev (fetched t s) = s2)
    (hh : lineHere s2 (.atu 0) sa (thr (fetched t s) t.val).part (thrHalf t.val) (x.home t.val) key = true) (hn : noCopies s2 key = true)
    (hf : findAtom s2 (x.home t.val) s2.atu.ids = none) :
    completesWith c s fun u => ∃ (o : Outst) (a : Atom), issued t sa o s2 u ∧ o.dest = f.d ∧ o.count = 1 ∧ o.result = none ∧ o.store = true ∧
      (atuHalf u (x.home t.val)).atoms = (atuHalf s2 (x.home t.val)).atoms ++ [a] ∧ a.kind = k ∧ a.wide = wide ∧
      a.v = v (thr (fetched t s) t.val) ∧ a.cmp = cmp (thr (fetched t s) t.val) ∧ a.sa = sa ∧ a.part = (thr (fetched t s) t.val).part ∧
      a.who = Who.thread t o.id ∧ a.go = false ∧ sameBytes s2 u := by
  have hthr : ∀ k, thr s2 k = thr (fetched t s) k := fun k => by rw [← hs2, thr_reached]
  have hfull : outsFull s2 t = false := outsFull_of_lt (by rw [hthr]; exact hlen)
  rw [atomic, instr_issues 0 _ hi hc] at he
  dsimp only at he
  rw [access_reaches hr, hs2, hfull] at he
  simp only [Bool.false_eq_true, if_false] at he
  have hu := hasIssued_retire t sa true f.d 1 ((effAddr (thr (fetched t s) t.val) f).setWidth 48) false Thread.next s2
    fun th => ⟨rfl, rfl, rfl⟩
  have hs := seqWork_issue t sa true f.d 1 ((effAddr (thr (fetched t s) t.val) f).setWidth 48) false Thread.next s2
  generalize retire t Thread.next (issueOut t sa true f.d 1 ((effAddr (thr (fetched t s) t.val) f).setWidth 48) false s2).2 = s3 at he hu hs
  have hsame : findAtom s3 (x.home t.val) s3.atu.ids = findAtom s2 (x.home t.val) s2.atu.ids ∧ noCopies s3 key = noCopies s2 key ∧
      atuHalf s3 (x.home t.val) = atuHalf s2 (x.home t.val) ∧ s3.cache = s2.cache := by
    obtain ⟨_, _, _, _, rfl⟩ := hs
    exact ⟨rfl, rfl, rfl, rfl⟩
  obtain ⟨hs1, hs2', hs3, hs4⟩ := hsame
  have hacc := settle_acceptAtom (.thread t (thr s2 t.val).nextId) k wide (v (thr (fetched t s) t.val))
    (cmp (thr (fetched t s) t.val)) (thrMaster s3 t.val) ((lineHere_seqWork hs ..).trans hh) (hs2'.trans hn) (hs1.trans hf)
  obtain ⟨hseq, -, hdata, hatoms⟩ := hacc
  refine completesWith_answer he ?_
  simp only [issued_answered, atuHalf_answered, sameBytes_answered]
  exact ⟨newOut t sa true f.d 1 ((effAddr (thr (fetched t s) t.val) f).setWidth 48) false s2, _,
    issued_of_issue hu rfl rfl rfl (thr_congr hseq), rfl, rfl, rfl, rfl,
    hatoms.trans (congrArg (fun y => AtuHalf.atoms y ++ _) hs3), rfl, rfl, rfl, rfl, rfl, rfl, rfl, rfl,
    sameBytes_of_data (hdata.trans (congrArg Cache.data hs4))⟩

/-- Settles O12: each atomic's word is legal as its fields say, and its operands are those of the words. -/
theorem atomicsAccepted : Obligations.AtomicsAccepted := by
  intro t f s x sa key hi s1 th pva h accepts gb gc wide
  have hacc {c : Instr} {k : AtomKind} {w : Bool} {v cmp : Thread → BitVec 64} (legal : Bool) (he : exec c s = atomic t c f legal k w v cmp s)
      (hl : legal = true) : accepts c w k (v th) (cmp th) := by
    subst hl
    intro hc hr s2 _ hlen _ hh hn hf
    exact atomic_completes he hi hc hr hlen rfl hh hn hf
  refine ⟨fun hv => ⟨?_, fun c0 => ⟨?_, ?_⟩⟩, fun hv c0 => ⟨?_, ?_⟩, fun b0 v0 c0 => ?_⟩
  · exact hacc (v := opB f) (cmp := opC f) _ rfl (by simp [hv])
  · exact hacc (v := opB f) (cmp := noOp) _ rfl (by simp [hv, c0])
  · exact hacc (v := opB f) (cmp := noOp) _ rfl (by simp [hv, c0])
  · exact hacc (v := opB f) (cmp := noOp) _ rfl (by simp [hv, c0])
  · exact hacc (v := opB f) (cmp := noOp) _ rfl (by simp [hv, c0])
  · exact hacc (v := fun _ => 1) (cmp := noOp) _ rfl (by simp [b0, noVC, v0, c0])

end Sys2Proof.Machine
end

section
/-! PROOFS. Characters on the UART (R404 to R407). -/

namespace Sys2Proof.Machine

open Sys2Proof.Safety

/-! ## Commands that change the UART alone -/

/-- A command whose effect is on the UART alone answers that. -/
theorem completesWith_onUart {c : Instr} {s : State} {f : Uart → Uart} {y : Uart} (he : exec c s = answer s (s.onUart f))
    (hy : f s.uart = y) : completesWith c s fun u => u.uart = y ∧ changesOnly [.uart] s u :=
  completesWith_answer he (by simp [hy])

/-- A command without an effect changes nothing. -/
theorem completesWith_nothing {c : Instr} {s : State} (he : exec c s = answer s s) : completesWith c s (changesOnly [] s) :=
  completesWith_answer he (by simp)

/-! ## Reception -/

/-- The character's bits in effect (R404). -/
theorem charBits (ch : BitVec 9) (n : Nat) (h : n ≤ 9) : ch &&& BitVec.ofNat 9 (2 ^ n - 1) = BitVec.ofNat 9 (ch.toNat % 2 ^ n) := by
  apply BitVec.eq_of_toNat_eq
  have hlt : 2 ^ n ≤ 2 ^ 9 := Nat.pow_le_pow_right (by decide) h
  have hpos : 0 < 2 ^ n := Nat.two_pow_pos n
  have hmod : ch.toNat % 2 ^ n < 2 ^ n := Nat.mod_lt _ hpos
  rw [BitVec.toNat_and, BitVec.toNat_ofNat, BitVec.toNat_ofNat, Nat.mod_eq_of_lt (show 2 ^ n - 1 < 2 ^ 9 by omega),
    Nat.and_two_pow_sub_one_eq_mod, Nat.mod_eq_of_lt (show ch.toNat % 2 ^ n < 2 ^ 9 by omega)]

theorem uartBits_le (c : UartCfg) : uartBits c ≤ 9 := by
  unfold uartBits
  split <;> omega

/-- What a received character leaves of the UART, before the character itself is taken (R404). -/
def charMarked (pe low : Bool) (s : State) : State :=
  let full : Bool := s.uart.act.raw && decide (64 ≤ s.uart.rx.length)
  s.onUart fun u =>
    { u with fe := u.fe || low, pe := u.pe || pe, ovr := u.ovr || full, gap := true, errs := satAdd u.errs (b2n low + b2n pe + b2n full) }

/-- The parity error that a character's parity bit makes (R404). -/
def parityErr (bad : Bool) (s : State) : Bool := bad && decide (1 ≤ s.uart.act.parity.toNat ∧ s.uart.act.parity.toNat ≤ 4)

/-- A character that arrives while VAON is there. -/
theorem exec_charReceived (ch : BitVec 9) (bad low : Bool) {s : State} (hv : s.pwr.vaon = true) :
    exec (.uartCharReceived ch bad low) s = answer s
      (let c := BitVec.ofNat 9 (ch.toNat % 2 ^ uartBits s.uart.act)
       let t := charMarked (parityErr bad s) low s
       if s.uart.act.raw = true then
         if 64 ≤ s.uart.rx.length then t else t.onUart fun u => { u with rx := u.rx ++ [{ ch := c, pe := parityErr bad s, fe := low }] }
       else if svetOn s then svetChar (c.setWidth 8) t
       else t) := by
  have he : exec (.uartCharReceived ch bad low) s = execUartCharReceived ch bad low s := rfl
  rw [he, execUartCharReceived]
  simp only [hv, Bool.not_true, Bool.false_eq_true, if_false, charBits ch _ (uartBits_le _)]
  cases hraw : s.uart.act.raw with
  | false => simp [charMarked, parityErr, svetOn, hraw]
  | true => by_cases hf : 64 ≤ s.uart.rx.length <;> simp [charMarked, parityErr, hraw, hf]

/-- A character that is no line end and no erasure joins Svet's line (R409). -/
theorem svetChar_joins {c : Byte} {s : State} (hbin : s.mgt.bin = false) (hecho : s.mgt.echo = false) (h1 : c ≠ 0x0D) (h2 : c ≠ 0x0A)
    (h3 : c ≠ 8) (h4 : c ≠ 0x7F) :
    svetChar c s = s.onMgt fun m => { m with partial_ := m.partial_ ++ [c], partialAt := s.clk.time } := by
  simp only [svetChar, hbin, hecho, Bool.false_eq_true, if_false]
  rw [if_neg (not_or.mpr ⟨h1, h2⟩), if_neg (not_or.mpr ⟨h3, h4⟩)]

/-- An 8-bit character is the same number in 9 bits. -/
theorem setWidth_char_ne {ch k : Nat} (hk : k < 256) (h : BitVec.ofNat 9 (ch % 2 ^ 8) ≠ BitVec.ofNat 9 k) :
    (BitVec.ofNat 9 (ch % 2 ^ 8)).setWidth 8 ≠ BitVec.ofNat 8 k := by
  intro he
  apply h
  apply BitVec.eq_of_toNat_eq
  have := congrArg BitVec.toNat he
  simp at this ⊢
  omega

/-! ## Transmission -/

/-- The transmitter sends the oldest character (R405, R406). -/
theorem uartNext_sends {s : State} {c : BitVec 9} {rest : List (BitVec 9)} (htx : s.uart.tx = c :: rest)
    (hmay : s.uart.act.fc = false ∨ s.uart.cts = true) :
    uartNext s = s.onUart fun u =>
      { u with tx := rest, sent := c :: u.sent, act := if rest = [] then u.cfg else u.act } := by
  have hm : uartMay s.uart = true := by
    obtain h | h := hmay <;> simp [uartMay, htx, h]
  rw [uartNext, if_pos hm]
  cases rest <;> simp [State.onUart, uartTake, htx]

/-- Settles O54: each case of reception, transmission and the data register by its own equation. -/
theorem uartCharacters : Obligations.UartCharacters := by
  intro s x n
  refine ⟨?_, fun hgap => ?_, fun hv => ?_, ?_, fun hmay => ?_, fun v => ⟨fun hraw hroom => ?_, fun hno => ?_⟩, fun c rest hraw hrx => ?_,
    fun hno => ?_⟩
  · intro ch bad low hv pe c errs
    have he := exec_charReceived ch bad low hv
    refine ⟨fun hraw hroom => ?_, fun hraw hfull => ?_, fun hraw hn hbin hecho h1 h2 h3 h4 => ?_⟩
    · rw [if_pos hraw, if_neg (Nat.not_le.mpr hroom)] at he
      refine completesWith_answer he ?_
      have hlt : ¬ 64 ≤ s.uart.rx.length := Nat.not_le.mpr hroom
      simp [charMarked, hlt, x, pe, c, errs, n, parityErr, b2n, uartBits]
    · rw [if_pos hraw, if_pos hfull] at he
      refine completesWith_answer he ?_
      have hr : s.uart.act.raw = true := hraw
      have hf : 64 ≤ s.uart.rx.length := hfull
      simp [charMarked, hf, hr, x, pe, errs, parityErr, b2n]
    · have hraw' : s.uart.act.raw = false := hraw
      have hbits : uartBits s.uart.act = 8 := hn
      have hc : c = BitVec.ofNat 9 (ch.toNat % 2 ^ 8) := by simp only [c, hn]
      rw [hc] at h1 h2 h3 h4
      simp only [hraw', Bool.false_eq_true, if_false, svetOn, hv, hbits, Bool.not_false, Bool.and_self, decide_true, if_true] at he
      rw [svetChar_joins (by simpa [charMarked] using hbin) (by simpa [charMarked] using hecho) (setWidth_char_ne (by decide) h1)
        (setWidth_char_ne (by decide) h2) (setWidth_char_ne (by decide) h3) (setWidth_char_ne (by decide) h4)] at he
      refine completesWith_answer he ?_
      simp [charMarked, hc]
  · have hg : s.uart.gap = true := hgap
    have he : exec .uartIdle s = execUartIdle s := rfl
    rw [execUartIdle, if_pos hg] at he
    exact completesWith_onUart he rfl
  · have he : exec .uartBreak s = execUartBreak s := rfl
    rw [execUartBreak, if_pos hv] at he
    exact completesWith_answer he (by simp [x])
  · intro c rest htx sends
    refine ⟨fun hmay => ?_, fun hfc hcts => ?_⟩
    · have he : exec .uartCharTransmitted s = answer s (uartNext s) := rfl
      rw [uartNext_sends htx hmay] at he
      exact completesWith_onUart he rfl
    · have hstalled : (s.uart.act.fc && !s.uart.cts) = true := by simp_all [x]
      have he : exec .mgtCtsNAssert s = execMgtCtsNAssert s := rfl
      rw [execMgtCtsNAssert, hstalled] at he
      simp only [if_true] at he
      rw [uartNext_sends (c := c) (rest := rest) (by simpa using htx) (by simp)] at he
      exact completesWith_answer he (by simp [sends, x])
  · have hstalled : (s.uart.act.fc && !s.uart.cts) = false := by
      obtain h | h := hmay <;> simp_all [x]
    have he : exec .mgtCtsNAssert s = execMgtCtsNAssert s := rfl
    rw [execMgtCtsNAssert, hstalled] at he
    exact completesWith_onUart he rfl
  · have he : exec (.uartDataWrite v) s = answer s (uartPush (v.extractLsb' 0 9) s) := rfl
    rw [uartPush, if_pos ⟨hraw, hroom⟩] at he
    exact completesWith_onUart he rfl
  · have he : exec (.uartDataWrite v) s = answer s (uartPush (v.extractLsb' 0 9) s) := rfl
    have hnot : ¬ (s.uart.act.raw = true ∧ s.uart.tx.length < 64) := by
      rintro ⟨h1, h2⟩
      obtain h | h := hno
      · rw [show s.uart.act.raw = false from h] at h1
        cases h1
      · exact absurd h2 (Nat.not_lt.mpr h)
    rw [uartPush, if_neg hnot] at he
    exact completesWith_nothing he
  · have hpop : uartPop s = (pack 32 [(0, c.ch.toNat), (9, b2n c.pe), (10, b2n c.fe), (15, 1)], s.onUart fun u => { u with rx := rest }) := by
      have h1 : s.uart.act.raw = true := hraw
      have h2 : s.uart.rx = c :: rest := hrx
      simp [uartPop, h1, h2]
    have he : exec .uartDataRead s = execUartDataRead s := rfl
    rw [execUartDataRead, hpop] at he
    exact completesWith_answer he (by simp [x])
  · have hpop : uartPop s = (0, s) := by
      unfold uartPop
      obtain h | h := hno
      · rw [show s.uart.act.raw = false from h]
        rfl
      · rw [show s.uart.rx = [] from h]
        cases s.uart.act.raw <;> rfl
    have he : exec .uartDataRead s = execUartDataRead s := rfl
    rw [execUartDataRead, hpop] at he
    exact completesWith_onUart he rfl

end Sys2Proof.Machine
end

section
/-! PROOFS. Svet's reading commands (R408, R410, R412, R413, R424, R427). -/

namespace Sys2Proof.Machine

open Sys2Proof.Safety

/-! ## A command of Svet -/

/-- A command that neither its boot state nor LOCK refuses runs its body (R412, R413). -/
theorem svet_runs {cmd : Nat} {r : SvetRun} {lockable : Bool} {body : State → State} {s : State} (hon : svetOn s = true)
    (hr : r = .any ∨ (r = .run ∧ s.boot.phase ≠ .recovery) ∨ (r = .recovery ∧ s.boot.phase = .recovery))
    (hl : lockable = false ∨ s.mgt.lock = false) : svet cmd r lockable body s = body s := by
  have hdenied : ¬ ((r = .run ∧ s.boot.phase = .recovery) ∨ (r = .recovery ∧ s.boot.phase ≠ .recovery)) := by
    obtain rfl | ⟨rfl, h⟩ | ⟨rfl, h⟩ := hr
    · simp
    · simp [h]
    · simp [h]
  have hlocked : ¬ (lockable = true ∧ s.mgt.lock = true) := by
    obtain h | h := hl <;> simp [h]
  rw [svet, hon, if_neg (by decide), if_neg hdenied, if_neg hlocked]

/-- A changing command that LOCK refuses (R413). -/
theorem svet_locked {cmd : Nat} {r : SvetRun} {body : State → State} {s : State} (hon : svetOn s = true)
    (hr : r = .any ∨ (r = .run ∧ s.boot.phase ≠ .recovery) ∨ (r = .recovery ∧ s.boot.phase = .recovery)) (hl : s.mgt.lock = true) :
    svet cmd r true body s = svetAnswer cmd 11 [] s := by
  have hdenied : ¬ ((r = .run ∧ s.boot.phase = .recovery) ∨ (r = .recovery ∧ s.boot.phase ≠ .recovery)) := by
    obtain rfl | ⟨rfl, h⟩ | ⟨rfl, h⟩ := hr
    · simp
    · simp [h]
    · simp [h]
  rw [svet, hon, if_neg (by decide), if_neg hdenied, if_pos ⟨rfl, hl⟩]

/-- A command for any boot state that changes nothing of the slice is not refused. -/
theorem svet_any {cmd : Nat} {body : State → State} {s : State} (hon : svetOn s = true) : svet cmd .any false body s = body s :=
  svet_runs hon (.inl rfl) (.inl rfl)

/-- What an answer of Svet says, where the command has left the management state as it was. -/
theorem svetSays_svetAnswer {cmd st : Nat} {data : List Byte} {s t : State} (ht : t.mgt = s.mgt) :
    svetSays (BitVec.ofNat 8 cmd) (BitVec.ofNat 8 st) data s (svetAnswer cmd st data t) := by
  simp [svetSays, svetAnswer, ht]

@[simp] theorem svetSays_answered {cmd st : BitVec 8} {data : List Byte} {r s t : State} :
    svetSays cmd st data r (answered s t) ↔ svetSays cmd st data r t := Iff.rfl

@[simp] theorem changesOnly_svetAnswer {bs : List Block} {r s : State} {cmd st : Nat} {data : List Byte} (h : Block.mgt ∈ bs) :
    changesOnly bs r (svetAnswer cmd st data s) ↔ changesOnly bs r s := changesOnly_onMgt h

/-- A command whose whole effect is an answer. -/
theorem completesWith_svetAnswer {c : Instr} {cmd st : Nat} {data : List Byte} {s : State} (he : exec c s = answer s (svetAnswer cmd st data s)) :
    completesWith c s fun u => svetSays (BitVec.ofNat 8 cmd) (BitVec.ofNat 8 st) data s u ∧ changesOnly [.mgt] s u :=
  completesWith_answer he ⟨svetSays_svetAnswer rfl, by simp⟩

/-! ## The counters (R412, R427) -/

/-- The range of counters that CNT takes. -/
def cntRange (first n : BitVec 8) : Prop := n ≠ 0 ∧ n.toNat ≤ 128 ∧ first.toNat + n.toNat ≤ 256

theorem svetCnt_runs {lockable : Bool} {first n : BitVec 8} {body : State → State} {s : State} (hon : svetOn s = true)
    (hl : lockable = false ∨ s.mgt.lock = false) (hg : cntRange first n) : svetCnt lockable first n body s = body s := by
  obtain ⟨h1, h2, h3⟩ := hg
  rw [svetCnt, svet_runs hon (.inl rfl) hl, if_neg (not_or.mpr ⟨h1, by omega⟩)]

theorem svetCnt_bad {first n : BitVec 8} {body : State → State} {s : State} (hon : svetOn s = true) (hg : ¬ cntRange first n) :
    svetCnt false first n body s = svetAnswer 11 2 [] s := by
  rw [svetCnt, svet_any hon, if_pos]
  by_contra h
  refine hg ⟨fun h0 => h (.inl h0), ?_, ?_⟩ <;> omega

/-- A changing operation on the counters answers OK. -/
theorem completesWith_cntChange {c : Instr} {first n : BitVec 8} {f : State → State} {g : Cnt → Cnt} {s : State}
    (he : exec c s = answer s (svetCnt true first n (fun s => svetAnswer 11 0 [] (f s)) s)) (hon : svetOn s = true) (hl : s.mgt.lock = false)
    (hg : cntRange first n) (hf : f s = s.onCnt g) :
    completesWith c s fun u => svetSays 11 0 [] s u ∧ u.cnt = g s.cnt ∧ changesOnly [.mgt, .cnt] s u := by
  rw [svetCnt_runs hon (.inr hl) hg, hf] at he
  exact completesWith_answer he ⟨svetSays_svetAnswer rfl, rfl, by simp⟩

/-! ## The log (R412) -/

/-- LOG names one of the last 64 records, or one of the four slots of the fatal store. -/
theorem svetLog_found {k : BitVec 32} {r : Rec} {s : State} (hok : ¬ (bit k 31 = true ∧ 4 ≤ k.toNat % 2 ^ 31)) (hon : svetOn s = true)
    (hr : logRecord s k = some r) : exec (.svetLog k) s = answer s (svetAnswer 9 0 (toBytes 264 (recNum r)) s) := by
  have he : exec (.svetLog k) s = execSvetLog k s := rfl
  rw [he, execSvetLog, svet_any hon]
  simp only [hr, if_neg hok]

/-- Bit 31 of a 32-bit number. -/
theorem bit31_iff (k : BitVec 32) : bit k 31 = true ↔ 2 ^ 31 ≤ k.toNat := by
  rw [bit, ← BitVec.msb_eq_getLsbD_last k, BitVec.msb_eq_decide]
  simp

/-- A record of the ring that LOG names (R412). -/
theorem logRecord_ring {k : BitVec 32} {s : State} (hk : k.getLsbD 31 = false) (h1 : 1 ≤ (s.log.tail - k).toNat)
    (h2 : (s.log.tail - k).toNat ≤ 64) : logRecord s k = recAt s.log.ring (k.toNat % 64) := by
  rw [logRecord, bit, hk, if_neg (by decide), if_pos ⟨h1, h2⟩]

/-- A record of the fatal store that LOG names (R412). -/
theorem logRecord_fatal {k : BitVec 32} {s : State} (hk : 2 ^ 31 ≤ k.toNat) : logRecord s k = recAt s.log.fatal (k.toNat - 2 ^ 31) := by
  have hlt := k.isLt
  rw [logRecord, if_pos ((bit31_iff k).mpr hk), show k.toNat % 2 ^ 31 = k.toNat - 2 ^ 31 by omega]

/-! ## Registers (R431) -/

/-- GLB_ID, which every requester may read, reads the identity. -/
theorem ctlRead_glbId {s : State} (hv : s.pwr.vaon = true) : ctlRead .svet 0 0 4 s = (stOk, 0xAC810A7C, s) := by
  have hw : ctlWords 0 4 = some [{ off := 0, reg := .glbId, word := 0 }] := by decide
  have hup : ctlUp s [{ off := 0, reg := .glbId, word := 0 }] = true := by simp [ctlUp, blockUp, serving2, domOn, domSt, hv, b2n]
  simp [ctlRead, hw, ctlRights, hup, wholeWide, readWord, readVal, readEffect, glbIdReg]

/-- An offset that is no multiple of the access's size ends ADDRESS (R432). -/
theorem ctlRead_misaligned {who : Requester} {p : Part} {off n : Nat} {s : State} (h : off % n ≠ 0) :
    ctlRead who p off n s = (stAddress, 0, s) := by
  rw [ctlRead, ctlWords, if_pos (.inr h)]



/-- Settles O55: each command runs its body, whose answer is the statement's. -/
theorem svetReads : Obligations.SvetReads := by
  intro s hon tells
  have hv : s.pwr.vaon = true := by
    simp only [svetOn, Bool.and_eq_true] at hon
    exact hon.1.1
  refine ⟨?_, fun u => ⟨fun hu => ?_, fun hu => ?_⟩, ?_, fun arg => ⟨fun ha => ?_, fun hlt ha => ?_⟩, fun k => ⟨?_, ?_, ?_, ?_, ?_, ?_⟩, ?_, ?_⟩
  · have he : exec .svetId s = execSvetId s := rfl
    rw [execSvetId, svet_any hon] at he
    exact completesWith_svetAnswer he
  · have he : exec (.svetState u) s = execSvetState u s := rfl
    rw [execSvetState, svet_any hon, if_neg (Nat.not_lt.mpr hu)] at he
    exact completesWith_svetAnswer he
  · have he : exec (.svetState u) s = execSvetState u s := rfl
    rw [execSvetState, svet_any hon, if_pos hu] at he
    exact completesWith_svetAnswer he
  · have he : exec (.svetRd 0) s = execSvetRd 0 s := rfl
    have hr : ctlRead .svet 0 ((0 : BitVec 32).toNat % 2 ^ 24) (svetSize 0) s = (stOk, 0xAC810A7C, s) := ctlRead_glbId hv
    rw [execSvetRd, svet_any hon] at he
    simp only [hr] at he
    exact completesWith_svetAnswer he
  · have he : exec (.svetRd arg) s = execSvetRd arg s := rfl
    have hbad : svetArgOk arg = false := decide_eq_false ha
    rw [execSvetRd, svet_any hon] at he
    simp only [hbad, Bool.not_false, if_true] at he
    exact completesWith_svetAnswer he
  · have he : exec (.svetRd arg) s = execSvetRd arg s := rfl
    have hok : svetArgOk arg = true := decide_eq_true (by rw [field]; omega)
    have hsize : svetSize arg = 4 := by
      rw [svetSize, if_neg]
      rw [bit31_iff]
      omega
    rw [execSvetRd, svet_any hon, hsize, Nat.mod_eq_of_lt hlt] at he
    simp only [hok, ctlRead_misaligned ha, Bool.not_true, Bool.false_eq_true, if_false] at he
    exact completesWith_svetAnswer he
  · intro r hk h1 h2 hr
    exact completesWith_svetAnswer (svetLog_found (by rw [bit, hk]; simp) hon (by rw [logRecord_ring hk h1 h2, hr]))
  · intro r h1 h2 hr
    exact completesWith_svetAnswer (svetLog_found (fun h => by omega) hon (by rw [logRecord_fatal h1, hr]))
  · intro hk hno
    have he : exec (.svetLog k) s = execSvetLog k s := rfl
    have hnone : logRecord s k = none := by
      rw [logRecord, bit, hk, if_neg (by decide), if_neg (by omega)]
    rw [execSvetLog, svet_any hon] at he
    simp only [hnone, bit, hk, Bool.false_eq_true, false_and, if_false] at he
    exact completesWith_svetAnswer he
  · intro hk
    have he : exec (.svetLog k) s = execSvetLog k s := rfl
    have hlt := k.isLt
    rw [execSvetLog, svet_any hon, if_pos ⟨(bit31_iff k).mpr (by omega), by omega⟩] at he
    exact completesWith_svetAnswer he
  · intro hle
    have he : exec (.svetLogack k) s = execSvetLogack k s := rfl
    have hh : logHead k s = (true, s.onLog fun l => { l with head := k }) := by
      rw [logHead, headOk, decide_eq_true hle, if_pos rfl]
    rw [execSvetLogack, svet_any hon, hh] at he
    exact completesWith_answer he ⟨svetSays_svetAnswer rfl, rfl, by simp⟩
  · intro hlt
    have he : exec (.svetLogack k) s = execSvetLogack k s := rfl
    have hh : logHead k s = (false, s.onLog fun l => { l with headErr := true }) := by
      rw [logHead, headOk, decide_eq_false (Nat.not_le.mpr hlt), if_neg (by decide)]
    rw [execSvetLogack, svet_any hon, hh] at he
    exact completesWith_answer he ⟨svetSays_svetAnswer rfl, rfl, by simp⟩
  · intro first n good counts does snap
    refine ⟨fun hg => ⟨?_, ?_, fun hl => ⟨?_, ?_, ?_⟩⟩, fun hg => ⟨?_, ?_⟩, fun hl c hc => ?_⟩
    · have he : exec (.svetCntRead first n) s = execSvetCntRead first n s := rfl
      rw [execSvetCntRead, svetCnt_runs hon (.inl rfl) hg] at he
      exact completesWith_svetAnswer he
    · have he : exec (.svetCntReadSnapshot first n) s = execSvetCntReadSnapshot first n s := rfl
      rw [execSvetCntReadSnapshot, svetCnt_runs hon (.inl rfl) hg] at he
      exact completesWith_svetAnswer he
    · exact completesWith_cntChange (c := .svetCntSnapshot first n) rfl hon hl hg rfl
    · exact completesWith_cntChange (c := .svetCntReset first n) rfl hon hl hg rfl
    · exact completesWith_cntChange (c := .svetCntSnapshotReset first n) (f := fun s => zeroAll (snapAll s))
        (g := fun c => { c with snap := c.val, snapTime := s.clk.time, val := [] }) rfl hon hl hg rfl
    · have he : exec (.svetCntRead first n) s = execSvetCntRead first n s := rfl
      rw [execSvetCntRead, svetCnt_bad hon hg] at he
      exact completesWith_svetAnswer he
    · have he : exec (.svetCntReadSnapshot first n) s = execSvetCntReadSnapshot first n s := rfl
      rw [execSvetCntReadSnapshot, svetCnt_bad hon hg] at he
      exact completesWith_svetAnswer he
    · have hsvet (body : State → State) : svetCnt true first n body s = svetAnswer 11 11 [] s := svet_locked hon (.inl rfl) hl
      obtain rfl | rfl | rfl := hc
      · exact completesWith_svetAnswer (congrArg (answer s) (hsvet _))
      · exact completesWith_svetAnswer (congrArg (answer s) (hsvet _))
      · exact completesWith_svetAnswer (congrArg (answer s) (hsvet _))
  · intro mode
    refine ⟨fun hb => ⟨?_, ?_, ?_⟩, fun hb => ⟨?_, ?_, ?_, fun hp hd => ?_⟩⟩
    · have he : exec .bin s = execBin s := rfl
      rw [execBin, svet_any hon, hb, if_neg (by decide)] at he
      exact completesWith_answer he (by simp [svetAnswer])
    · have he : exec .exit s = execExit s := rfl
      rw [execExit, svet_any hon, hb, if_neg (by decide)] at he
      exact completesWith_svetAnswer he
    · have he : exec .help s = execHelp s := rfl
      rw [execHelp, svet_any hon, hb, if_neg (by decide)] at he
      exact completesWith_svetAnswer he
    · have he : exec .exit s = execExit s := rfl
      rw [execExit, svet_any hon, hb, if_pos rfl] at he
      exact completesWith_answer he (by simp [svetAnswer])
    · have he : exec .bin s = execBin s := rfl
      rw [execBin, svet_any hon, hb, if_pos rfl] at he
      exact completesWith_svetAnswer he
    · have he : exec .help s = execHelp s := rfl
      rw [execHelp, svet_any hon, hb, if_pos rfl] at he
      exact completesWith_svetAnswer he
    · have he : exec .svetFrameTimeout s = execSvetFrameTimeout s := rfl
      have hne : (!s.mgt.partial_.isEmpty) = true := by simpa using hp
      rw [execSvetFrameTimeout, if_pos ⟨hb, hne, hd⟩] at he
      exact completesWith_answer he (by simp [countBadFrame])

end Sys2Proof.Machine
end

section
/-! PROOFS. The SMBus target (R416, R417, R453). -/

namespace Sys2Proof.Machine

open Sys2Proof.Safety

/-! ## Replies -/

/-- A command whose whole effect is the reply. -/
theorem completesWith_smbSet {c : Instr} {r : Option (List Byte)} {s : State} (he : exec c s = answer s (smbSet r s)) :
    completesWith c s (smbSays r s) :=
  completesWith_answer he ⟨rfl, by simp [smbSet]⟩

theorem smbOn_eq_false {s : State} (h : s.mgt.smbEn = false ∨ s.pwr.vaon = false) : smbOn s = false := by
  obtain h | h := h <;> simp [smbOn, h]

theorem smbOn_eq_true {s : State} (h1 : s.mgt.smbEn = true) (h2 : s.pwr.vaon = true) : smbOn s = true := by simp [smbOn, h1, h2]

/-- A read while the target is enabled and powered. -/
theorem completesWith_smbRead {c : Instr} {f : State → List Byte} {s : State} (he : exec c s = answer s (smbRead f s)) (hon : smbOn s = true)
    {bs : List Byte} (hbs : f s = bs) : completesWith c s (smbSays (some bs) s) := by
  rw [smbRead, if_pos hon, hbs] at he
  exact completesWith_smbSet he

/-- A read while the target is disabled or not powered. -/
theorem completesWith_smbRead_off {c : Instr} {f : State → List Byte} {s : State} (he : exec c s = answer s (smbRead f s))
    (hoff : smbOn s = false) : completesWith c s (smbSays none s) := by
  rw [smbRead, hoff, if_neg (by decide)] at he
  exact completesWith_smbSet he

/-- A write with a right PEC is what its body says. -/
theorem smbWrite_ok {body : State → Bool × State} {s : State} (hon : smbOn s = true) :
    smbWrite true body s = smbSet (if (body s).1 then some [] else none) (body s).2 := by
  simp [smbWrite, hon]

/-- A write with a wrong PEC is counted and not acknowledged. -/
theorem smbWrite_badPec {body : State → Bool × State} {s : State} (hon : smbOn s = true) :
    smbWrite false body s = smbSet none (s.onMgt fun m => { m with pecErr := satAdd m.pecErr 1 }) := by
  simp [smbWrite, hon]

/-! ## Temperatures (R417) -/

/-- The hotter of two readings, where there is one. -/
def hotter (m t : Option (BitVec 12)) : Option (BitVec 12) :=
  match m, t with
  | none, t => t
  | m, none => m
  | some a, some b => if a.toInt < b.toInt then some b else some a

theorem hottestTemp_eq (s : State) : hottestTemp s = (List.range 24).foldl (fun m n => hotter m (sensorTemp s n)) none := rfl

theorem hotter_none (m : Option (BitVec 12)) : hotter m none = m := by cases m <;> rfl

/-- Without a reading none is the hottest. -/
theorem foldl_hotter_none (f : Nat → Option (BitVec 12)) (l : List Nat) (h : ∀ n ∈ l, f n = none) (m : Option (BitVec 12)) :
    l.foldl (fun m n => hotter m (f n)) m = m := by
  induction l with
  | nil => rfl
  | cons n l ih =>
    rw [List.foldl_cons, h n (by simp), hotter_none]
    exact ih fun k hk => h k (by simp [hk])

/-- A reading that none exceeds is the hottest. -/
theorem foldl_hotter_max (f : Nat → Option (BitVec 12)) (x : BitVec 12) (l : List Nat) (m : Option (BitVec 12))
    (hx : m = some x ∨ ∃ n ∈ l, f n = some x) (hm : ∀ a, m = some a → a.toInt ≤ x.toInt)
    (hl : ∀ n ∈ l, ∀ a, f n = some a → a.toInt ≤ x.toInt) : l.foldl (fun m n => hotter m (f n)) m = some x := by
  induction l generalizing m with
  | nil => simpa using hx
  | cons n l ih =>
    have hbest : ∀ a, hotter m (f n) = some a → a.toInt ≤ x.toInt := by
      intro a ha
      have hn := hl n (by simp)
      cases m with
      | none => exact hn a ha
      | some c =>
        cases hf : f n with
        | none => rw [hf, hotter_none] at ha; exact hm a ha
        | some b =>
          rw [hf, hotter] at ha
          split at ha
          · exact hn a (hf.trans ha)
          · exact hm a ha
    refine ih _ ?_ hbest fun k hk => hl k (by simp [hk])
    obtain rfl | ⟨k, hk, hfk⟩ := hx
    · left
      change hotter (some x) (f n) = some x
      cases hf : f n with
      | none => rfl
      | some b =>
        have := hl n (by simp) b hf
        rw [hotter, if_neg (by omega)]
    · obtain rfl | hk := List.mem_cons.mp hk
      · left
        change hotter m (f k) = some x
        cases m with
        | none => exact hfk
        | some c =>
          have := hm c rfl
          rw [hfk, hotter]
          split
          · rfl
          · rw [BitVec.eq_of_toInt_eq (show c.toInt = x.toInt by omega)]
      · exact .inr ⟨k, hk, hfk⟩

theorem sensorTemp_valid {s : State} {n : Nat} (h : sensorValid s n = true) : sensorTemp s n = some (tget 0 s.sense.temp n) := by
  rw [sensorTemp, if_pos h]

theorem sensorTemp_invalid {s : State} {n : Nat} (h : sensorValid s n = false) : sensorTemp s n = none := by
  rw [sensorTemp, h, if_neg (by decide)]

/-! ## Tables of bytes -/

theorem length_tbytes (d : Byte) (t : Tab Byte) (a n : Nat) : (tbytes d t a n).length = n := by
  induction n generalizing a with
  | zero => rfl
  | succ n ih => simp [tbytes, ih]

theorem tbytes_eq_map (d : Byte) (t : Tab Byte) (a n : Nat) : tbytes d t a n = (List.range n).map fun i => tget d t (a + i) := by
  induction n generalizing a with
  | zero => rfl
  | succ n ih =>
    rw [tbytes, ih, List.range_succ_eq_map, List.map_cons, List.map_map]
    simp [Function.comp_def, Nat.add_assoc, Nat.add_comm 1]

/-- Bytes put at other addresses leave an address as it is. -/
theorem tget_tputBytes_outside (d : Byte) (bs : List Byte) (t : Tab Byte) (a k : Nat) (h : k < a ∨ a + bs.length ≤ k) :
    tget d (tputBytes d t a bs) k = tget d t k := by
  induction bs generalizing t a with
  | nil => rfl
  | cons b bs ih =>
    rw [List.length_cons] at h
    rw [tputBytes, ih _ _ (by omega), tget_tset_ne _ _ _ (by omega)]

/-- Bytes put at their addresses are read there. -/
theorem tget_tputBytes_inside (d : Byte) (bs : List Byte) (t : Tab Byte) (a i : Nat) (h : i < bs.length) :
    tget d (tputBytes d t a bs) (a + i) = bs.getD i d := by
  induction bs generalizing t a i with
  | nil => cases h
  | cons b bs ih =>
    cases i with
    | zero => rw [tputBytes, tget_tputBytes_outside _ _ _ _ _ (by omega)]; simp
    | succ i =>
      rw [tputBytes, show a + (i + 1) = a + 1 + i by omega, ih _ _ _ (by simpa using h)]
      rfl

/-- The first bytes that were put read back. -/
theorem tbytes_tputBytes (d : Byte) (bs more : List Byte) (t : Tab Byte) (a : Nat) :
    tbytes d (tputBytes d t a (bs ++ more)) a bs.length = bs := by
  rw [tbytes_eq_map]
  apply List.ext_getElem
  · simp
  · intro i h1 h2
    rw [List.getElem_map, List.getElem_range, tget_tputBytes_inside _ _ _ _ _ (by simp; omega)]
    simp [List.getD_eq_getElem?_getD, List.getElem?_append_left h2, h2]

/-! ## The mailbox (R415) -/

/-- A free value that is taken moves only the counter of free values. -/
theorem changesOnly_freeVal {bs : List Block} {r s : State} (h : Block.freeCtr ∈ bs) :
    changesOnly bs r (freeVal s).2 ↔ changesOnly bs r s :=
  changesOnly_congr fun b hb => by
    cases b with
    | freeCtr => exact absurd h hb
    | _ => rfl

/-- A put with no notification word: IN holds the message, and is full. -/
theorem mbPut_noNote {bs : List Byte} {s : State} (hn : s.mgt.note = 0) :
    ∃ more, mbPut bs s = ((freeVal s).2.onMbox fun b => { b with inb := tputBytes 0 b.inb 0 (bs ++ more) }).onMgt
      fun m => { m with inLen := BitVec.ofNat 9 bs.length, inFull := true, puts := m.puts + 1 } :=
  ⟨_, if_pos hn⟩

/-! ## Staging (R417) -/

/-- Staging bytes that do not wrap. -/
theorem stagePut_eq (bs : List Byte) (m : Mgt) (h : m.stageOff + bs.length ≤ 255) :
    stagePut bs m = { m with staging := tputBytes 0 m.staging m.stageOff bs, stageOff := m.stageOff + bs.length } := by
  induction bs generalizing m with
  | nil => rfl
  | cons b bs ih =>
    rw [List.length_cons] at h
    have hmod : (m.stageOff + 1) % 256 = m.stageOff + 1 := Nat.mod_eq_of_lt (by omega)
    have := ih { m with staging := tset 0 m.staging m.stageOff b, stageOff := (m.stageOff + 1) % 256 } (by simp only [hmod]; omega)
    rw [stagePut, List.foldl_cons]
    rw [stagePut] at this
    rw [this, hmod]
    simp [tputBytes, Nat.add_assoc, Nat.add_comm 1]

/-! ## The status bytes (R417) -/

/-- INT_STAT's byte by its bits. -/
theorem intStatByte (i : Integ) :
    toBytes 1 (BitVec.ofNat 64 (b2n i.ue + 2 * b2n i.metaLoss + 4 * b2n i.crc + 8 * b2n i.tag + 16 * b2n i.shelf)).toNat =
      [pack 8 [(0, b2n i.ue), (1, b2n i.metaLoss), (2, b2n i.crc), (3, b2n i.tag), (4, b2n i.shelf)]] := by
  cases i.ue <;> cases i.metaLoss <;> cases i.crc <;> cases i.tag <;> cases i.shelf <;> rfl

theorem tstStatByte (v : BitVec 7) : toBytes 1 (v.setWidth 64).toNat = [v.setWidth 8] := by
  have := v.isLt
  simp only [toBytes, List.cons.injEq, and_true]
  apply BitVec.eq_of_toNat_eq
  simp

/-- Settles O57: each command is its read or its write, with the reply that the statement names. -/
theorem smbusCommands : Obligations.SmbusCommands := by
  intro s tells does temp valid le
  refine ⟨completesWith_smbSet rfl, fun hoff => ?_, fun hen hv => ?_⟩
  · have hoff := smbOn_eq_false hoff
    refine ⟨completesWith_smbRead_off (f := idBytes) rfl hoff,
      completesWith_smbRead_off (f := fun s => tempWord (hottestTemp s)) rfl hoff, completesWith_smbRead_off (f := statusBytes) rfl hoff, ?_⟩
    have he : exec .alertResponse s = execAlertResponse s := rfl
    rw [execAlertResponse, if_neg (by simp [hoff])] at he
    exact completesWith_smbSet he
  have hon := smbOn_eq_true hen hv
  refine ⟨completesWith_smbRead (f := idBytes) rfl hon rfl, fun n => ?_, fun hnone => ?_, fun n hn hvn hmax => ?_, ?_,
    completesWith_smbRead (f := statusBytes) rfl hon ?_, completesWith_smbRead (f := fun s => toBytes 2 (alertSrc s).toNat) rfl hon rfl,
    ?_, fun v => ⟨fun hlt => ?_, fun hge => ?_, ?_⟩, fun data h1 h2 h3 => ?_, fun len h0 hlen => ⟨fun hf hn => ?_, fun hf => ?_⟩,
    fun hoff => ?_, ?_, fun ha => ?_, fun ha => ?_⟩
  · refine completesWith_smbRead (f := fun s => tempWord (sensorTemp s n.val)) rfl hon ?_
    cases hval : sensorValid s n.val with
    | false => rw [sensorTemp_invalid hval, show valid n.val = false from hval]; rfl
    | true => rw [sensorTemp_valid hval, show valid n.val = true from hval]; rfl
  · refine completesWith_smbRead (f := fun s => tempWord (hottestTemp s)) rfl hon ?_
    rw [hottestTemp_eq, foldl_hotter_none _ _ fun n hn => sensorTemp_invalid (hnone n (List.mem_range.mp hn))]
    rfl
  · refine completesWith_smbRead (f := fun s => tempWord (hottestTemp s)) rfl hon ?_
    rw [hottestTemp_eq, foldl_hotter_max (sensorTemp s) (temp n)]
    · rfl
    · exact .inr ⟨n, List.mem_range.mpr hn, sensorTemp_valid hvn⟩
    · intro a ha
      cases ha
    · intro m hm a ha
      cases hval : sensorValid s m with
      | false => rw [sensorTemp_invalid hval] at ha; cases ha
      | true =>
        rw [sensorTemp_valid hval] at ha
        cases ha
        exact hmax m (List.mem_range.mp hm) hval
  · have he : exec .smbReadPower s = execSmbReadPower s := rfl
    rw [execSmbReadPower, smbRead, if_pos hon] at he
    refine completesWith_answer he ⟨Config.power s.freeCtr, rfl, ?_⟩
    rw [changesOnly_answered]
    intro b hb
    cases b with
    | mgt => simp at hb
    | freeCtr => simp at hb
    | _ => rfl
  · simp only [statusBytes, readVal, intStatByte, tstStatByte]
  · refine completesWith_smbRead (f := fun s => toBytes 2 (s.mgt.outLen.toNat + 16384 * b2n s.mgt.inFull + 32768 * b2n s.mgt.outFull))
      rfl hon ?_
    cases s.mgt.inFull <;> cases s.mgt.outFull <;> simp [b2n]
  · have he : exec (.smbStagingOffset v true) s = execSmbStagingOffset v true s := rfl
    rw [execSmbStagingOffset, smbWrite_ok hon, if_pos hlt] at he
    exact completesWith_answer he ⟨rfl, by simp [smbSet]⟩
  · have he : exec (.smbStagingOffset v true) s = execSmbStagingOffset v true s := rfl
    rw [execSmbStagingOffset, smbWrite_ok hon, if_neg (Nat.not_lt.mpr hge)] at he
    exact completesWith_smbSet he
  · have he : exec (.smbStagingOffset v false) s = execSmbStagingOffset v false s := rfl
    rw [execSmbStagingOffset, smbWrite_badPec hon] at he
    exact completesWith_answer he ⟨rfl, by simp [smbSet]⟩
  · have he : exec (.smbStageWrite data true) s = execSmbStageWrite data true s := rfl
    have hd : ¬ (data.isEmpty = true ∨ 32 < data.length) := by
      rw [List.isEmpty_iff_length_eq_zero]
      omega
    rw [execSmbStageWrite, smbWrite_ok hon, if_neg hd] at he
    refine completesWith_answer he ?_
    simp only [smbSet, answered_mgt, State.onMgt_mgt, stagePut_eq data s.mgt h3, changesOnly_answered, if_true]
    refine ⟨?_, trivial, fun a ha => tget_tputBytes_outside 0 data _ _ a ha, trivial, by simp⟩
    have := tbytes_tputBytes 0 data [] s.mgt.staging s.mgt.stageOff
    rwa [List.append_nil] at this
  · have he : exec (.smbCommit len true) s = execSmbCommit len true s := rfl
    obtain ⟨more, hput⟩ := mbPut_noNote (bs := tbytes 0 s.mgt.staging 0 len.toNat) hn
    rw [execSmbCommit, smbWrite_ok hon, if_neg (not_or.mpr ⟨h0, by omega⟩)] at he
    simp only [hf, Bool.false_eq_true, if_false, if_true, hput, length_tbytes] at he
    refine completesWith_answer he ⟨?_, ?_, ?_⟩
    · simp [smbSet, freeVal]
    · have := tbytes_tputBytes 0 (tbytes 0 s.mgt.staging 0 len.toNat) more s.mbox.inb 0
      rw [length_tbytes] at this
      simpa [smbSet, freeVal] using this
    · simp [smbSet, changesOnly_freeVal]
  · have he : exec (.smbCommit len true) s = execSmbCommit len true s := rfl
    rw [execSmbCommit, smbWrite_ok hon, if_neg (not_or.mpr ⟨h0, by omega⟩), hf, if_pos rfl] at he
    exact completesWith_answer he ⟨rfl, by simp [smbSet]⟩
  · have he : exec .smbReadOut s = execSmbReadOut s := rfl
    have hbytes : (List.range 32).map (fun i => tget 0 s.mbox.outb ((s.mgt.stageOff + i) % 256)) = tbytes 0 s.mbox.outb s.mgt.stageOff 32 := by
      rw [tbytes_eq_map]
      refine List.map_congr_left fun i hi => ?_
      have := List.mem_range.mp hi
      rw [Nat.mod_eq_of_lt (by omega)]
    rw [execSmbReadOut, if_pos hon, hbytes] at he
    refine completesWith_answer he ⟨?_, by simp [smbSet]⟩
    simp [smbSet, Nat.mod_eq_of_lt (show s.mgt.stageOff + 32 < 256 by omega)]
  · have he : exec (.smbClearOutFull true) s = execSmbClearOutFull true s := rfl
    rw [execSmbClearOutFull, smbWrite_ok hon, if_pos rfl] at he
    exact completesWith_answer he ⟨rfl, by simp [smbSet, outClear]⟩
  · have he : exec .alertResponse s = execAlertResponse s := rfl
    rw [execAlertResponse, if_pos ⟨hon, by simpa [alertOn] using ha⟩] at he
    exact completesWith_smbSet he
  · have he : exec .alertResponse s = execAlertResponse s := rfl
    rw [execAlertResponse, if_neg (by simp [alertOn, ha])] at he
    exact completesWith_smbSet he

end Sys2Proof.Machine
end

section
/-! PROOFS. Resets of the slice (R374, R376 to R381). -/

namespace Sys2Proof.Machine

open Sys2Proof.Safety

/-! ## Tables -/

/-- A table whose values are mapped entry by entry. -/
theorem tget_map {α β : Type} (f : α → β) (d : α) (e : β) (hf : f d = e) (t : Tab α) (n : Nat) :
    tget e (t.map fun x => (x.1, f x.2)) n = f (tget d t n) := by
  induction t with
  | nil => exact hf.symm
  | cons x t ih =>
    obtain ⟨k, v⟩ := x
    simp only [List.map_cons, tget]
    split
    · rfl
    · exact ih

/-! ## Every domain but D0 off (R380, R397) -/

/-- Domain i + 1 goes off in a table of domains. -/
def domOff (t : Tab Dom) (i : Nat) : Tab Dom :=
  let d := tget Dom.zero t (i + 1)
  if d.st = 0 then t else tset Dom.zero t (i + 1) { st := 0, gen := d.gen + 1 }

theorem allOff_eq (s : State) :
    allOff s = (s.onPwr fun p => { p with dom := (List.range 15).foldl domOff p.dom }).onSense
      fun x => { x with valid := x.valid.filter fun e => e.1 == 23 } := rfl

theorem domOff_st (t : Tab Dom) (i d : Nat) (h : d = i + 1 ∨ (tget Dom.zero t d).st = 0) : (tget Dom.zero (domOff t i) d).st = 0 := by
  unfold domOff
  dsimp only
  split
  next hz =>
    obtain rfl | h := h
    · exact hz
    · exact h
  next =>
    rw [tget_tset]
    split
    · rfl
    · exact h.resolve_left ‹_›

theorem foldl_domOff_st (l : List Nat) (t : Tab Dom) (d : Nat) (h : (∃ i ∈ l, d = i + 1) ∨ (tget Dom.zero t d).st = 0) :
    (tget Dom.zero (l.foldl domOff t) d).st = 0 := by
  induction l generalizing t with
  | nil => simpa using h
  | cons i l ih =>
    refine ih _ ?_
    obtain ⟨j, hj, rfl⟩ | h := h
    · obtain rfl | hj := List.mem_cons.mp hj
      · exact .inr (domOff_st t j _ (.inl rfl))
      · exact .inl ⟨j, hj, rfl⟩
    · exact .inr (domOff_st t i d (.inr h))

theorem domSt_of_pos (s : State) {d : Nat} (h : 1 ≤ d) : domSt s d = (tget Dom.zero s.pwr.dom d).st.toNat := by
  rw [domSt, if_neg (by omega)]

theorem domSt_allOff (s : State) {d : Nat} (h1 : 1 ≤ d) (h2 : d < 16) : domSt (allOff s) d = 0 := by
  rw [domSt_of_pos _ h1, allOff_eq]
  simp [foldl_domOff_st (List.range 15) s.pwr.dom d (.inl ⟨d - 1, by simp; omega, by omega⟩)]

/-! ## The start of a boot (R394) -/

/-- What a boot's first step may do: console lines, boot registers but the flash, fuses, and every domain but D0 off. -/
structure BootWork (s u : State) : Prop where
  frame : changesOnly [.mgt, .boot, .tst, .pwr, .sense] s u
  flash : u.boot.flash = s.boot.flash
  pwr : ∃ d, u.pwr = { s.pwr with dom := d } ∧ (d = s.pwr.dom ∨ d = (List.range 15).foldl domOff s.pwr.dom)

theorem BootWork.refl (s : State) : BootWork s s := ⟨changesOnly_refl _ s, rfl, _, rfl, .inl rfl⟩

theorem bootWork_enterRecovery (s : State) : BootWork s (enterRecovery s) :=
  ⟨by simp [enterRecovery, bootLine, allOff_eq], rfl, _, rfl, .inr rfl⟩

theorem bootWork_loadFuses (s : State) : BootWork s (loadFuses s) := ⟨by simp [loadFuses], rfl, _, rfl, .inl rfl⟩

theorem BootWork.andThen {s t u : State} (h1 : BootWork s t) (h2 : BootWork t u) (hp : t.pwr = s.pwr) : BootWork s u := by
  obtain ⟨f1, b1, -⟩ := h1
  obtain ⟨f2, b2, p2⟩ := h2
  rw [hp] at p2
  exact ⟨changesOnly_trans f1 f2, b2.trans b1, p2⟩

theorem bootWork_bootGo (s : State) : BootWork s (bootGo s) := by
  unfold bootGo
  split
  · split
    · exact ⟨by simp [bootLine], rfl, _, rfl, .inl rfl⟩
    · split
      · exact (bootWork_loadFuses s).andThen (bootWork_enterRecovery _) rfl
      · exact (bootWork_loadFuses s).andThen ⟨by simp, rfl, _, rfl, .inl rfl⟩ rfl
  · exact .refl s

theorem bootWork_bootStart (s : State) : BootWork s (bootStart s) := by
  unfold bootStart
  split
  · exact bootWork_bootGo s
  · exact .refl s

/-- A loader that does not wait for the PLL does not start. -/
theorem bootStart_waits {s : State} (h : s.boot.phase ≠ .waitPll) : bootStart s = s := by
  unfold bootStart bootGo
  rw [if_neg h, ite_self]

theorem BootWork.domSt {s u : State} (h : BootWork s u) {d : Nat} (h1 : 1 ≤ d) (h2 : d < 16) (h0 : domSt s d = 0) : domSt u d = 0 := by
  obtain ⟨dom, hp, hd⟩ := h.pwr
  rw [domSt_of_pos _ h1] at h0 ⊢
  rw [hp]
  cases hd with
  | inl h => rw [h]; exact h0
  | inr h =>
    dsimp only
    rw [h, foldl_domOff_st (List.range 15) s.pwr.dom d (.inl ⟨d - 1, by simp; omega, by omega⟩)]
    rfl

/-! ## Requests for a reset (R374, R376, R381) -/

/-- With nothing of a reset or a trip under way, a warm reset is asked for. -/
theorem warmRequest_asks {byPin : Bool} {s : State} (h1 : s.pwr.resetSt = .none) (h2 : s.pwr.pwrgood = true) (h3 : s.pwr.trip = false)
    (h4 : s.pwr.vaon = true) : warmRequest byPin s = s.onPwr fun p => { p with resetSt := .warmReq byPin } := by
  rw [warmRequest, if_pos ⟨h1, h2, by simp [h3], h4⟩]

/-- A command whose effect is on the power registers alone answers that. -/
theorem completesWith_onPwr {c : Instr} {s : State} {f : Pwr → Pwr} (he : exec c s = answer s (s.onPwr f)) :
    completesWith c s fun u => u.pwr = f s.pwr ∧ changesOnly [.pwr] s u :=
  completesWith_answer he (by simp)

/-! ## The warm reset's first step (R378) -/

/-- Walks and allocation waiters of a half go. -/
def drainHalf (h : Half) (s : State) : State :=
  setWaitQ h [] (setWalkWait h [] (setWalks h [] ((waitQ s h).foldl (fun s w => subUsed h w.part s) s)))

theorem foldl_subUsed (h : Half) (ws : List Waiter) (s : State) :
    ∃ v, ws.foldl (fun s w => subUsed h w.part s) s = s.onBuf fun u => { u with used := v } := by
  induction ws generalizing s with
  | nil => exact ⟨s.buf.used, rfl⟩
  | cons w ws ih =>
    obtain ⟨v, hv⟩ := ih (subUsed h w.part s)
    exact ⟨v, hv⟩

theorem drainHalf_frame (h : Half) (s : State) :
    changesOnly [.buf, .xlt] s (drainHalf h s) ∧ waitQ (drainHalf h s) h = [] ∧ walks (drainHalf h s) h = [] ∧
      waitQ (drainHalf h s) h.other = waitQ s h.other ∧ walks (drainHalf h s) h.other = walks s h.other := by
  obtain ⟨v, hv⟩ := foldl_subUsed h (waitQ s h) s
  rw [drainHalf, hv]
  cases h <;> exact ⟨by simp [setWaitQ, setWalkWait, setWalks], rfl, rfl, rfl, rfl⟩

/-- Outstanding offers count as DECLINE. -/
theorem declineOffer_eq (o : Offer) (s : State) :
    changesOnly [.cache, .cnt] s (declineOffer o s) ∧ (declineOffer o s).cache = { s.cache with offers := s.cache.offers.erase o } := by
  refine ⟨by simp [declineOffer, dropOffer], ?_⟩
  rw [declineOffer, cnt_cache]
  rfl

/-- Nothing is left of a list without its own elements. -/
theorem diff_self_eq_nil (l : List Offer) : l.diff l = [] := by
  induction l with
  | nil => rfl
  | cons o l ih => rw [List.diff_cons, List.erase_cons_head, ih]

theorem foldl_declineOffer (l : List Offer) (s : State) :
    changesOnly [.cache, .cnt] s (l.foldl (fun s o => declineOffer o s) s) ∧
      (l.foldl (fun s o => declineOffer o s) s).cache = { s.cache with offers := s.cache.offers.diff l } := by
  induction l generalizing s with
  | nil => exact ⟨changesOnly_refl _ s, by rw [List.diff_nil]; rfl⟩
  | cons o l ih =>
    obtain ⟨h1, h2⟩ := declineOffer_eq o s
    obtain ⟨h3, h4⟩ := ih (declineOffer o s)
    exact ⟨changesOnly_trans h1 h3, by rw [List.foldl_cons, h4, h2, List.diff_cons]⟩

/-- The first step of a warm reset. -/
theorem warmReset_eq {s : State} {byPin : Bool} (h : s.pwr.resetSt = .warmReq byPin) :
    exec .warmReset s = answer s
      (let t := drainHalf .w (drainHalf .e (s.onPwr fun p => { p with resetSt := .warm s.clk.time byPin }))
       t.cache.offers.foldl (fun s o => declineOffer o s) t) := by
  have he : exec .warmReset s = execWarmReset s := rfl
  rw [he, execWarmReset, h]
  rfl

/-! ## What the resets keep -/

/-- Held contributions are only counted. -/
theorem foldl_cntHeld (h : Half) (l : List HeldAddl) (s : State) :
    ∃ c, l.foldl (fun s a => cnt 0x023 (some h) (some a.part) 1 s) s = s.onCnt fun _ => c := by
  induction l generalizing s with
  | nil => exact ⟨s.cnt, rfl⟩
  | cons a l ih =>
    obtain ⟨c, hc⟩ := ih (cnt 0x023 (some h) (some a.part) 1 s)
    exact ⟨c, by rw [List.foldl_cons, hc, cnt_only]; rfl⟩

/-- With the drain done, the warm reset's third step comes next; the discarded contributions have only been counted. -/
theorem warmDrainDone_eq {s : State} {t : BitVec 64} {byPin : Bool} (h : s.pwr.resetSt = .warm t byPin) (hd : warmDrained s = true) :
    ∃ c, exec .warmDrainDone s = answer s (warmNow (s.onCnt fun _ => c) (if byPin then 3 else 4)) := by
  have he : exec .warmDrainDone s = execWarmDrainDone s := rfl
  obtain ⟨c1, h1⟩ := foldl_cntHeld .e (atuHalf s .e).held s
  obtain ⟨c2, h2⟩ := foldl_cntHeld .w (atuHalf (s.onCnt fun _ => c1) .w).held (s.onCnt fun _ => c1)
  refine ⟨c2, ?_⟩
  rw [he, execWarmDrainDone, h]
  simp only [hd, Bool.not_true, Bool.false_eq_true, if_false, List.foldl_cons, List.foldl_nil, h1, h2]
  rfl

/-- Everything but D0 and the flash is lost. -/
def arrayLost (s u : State) : Prop :=
  u.cache.data = [] ∧ u.cache.line = [] ∧ u.tables.region = [] ∧ u.boot.flash = s.boot.flash ∧ ∀ d, 1 ≤ d → d < 16 → domSt u d = 0

theorem domSt_of_noDoms {s : State} (h : s.pwr.dom = []) {d : Nat} (hd : 1 ≤ d) : domSt s d = 0 := by
  rw [domSt_of_pos _ hd, h]
  rfl

/-- A fatal reset loses the array, and counts (R377, R379). -/
theorem fatalNow_loses (s : State) (cause : Nat) :
    arrayLost s (fatalNow s cause) ∧ (fatalNow s cause).pwr.cause = BitVec.ofNat 4 cause ∧ (fatalNow s cause).pwr.fatal = true ∧
      (fatalNow s cause).pwr.fcnt = satAdd s.pwr.fcnt 1 ∧ (fatalNow s cause).pwr.resets = satAdd s.pwr.resets 1 ∧
      (fatalNow s cause).pwr.resetSt = .none ∧
      (fatalNow s cause).log = { s.log with ring := markPrev s.log.ring, fatal := markPrev s.log.fatal } ∧
      (s.pwr.trip = true → (fatalNow s cause).boot.phase = .waitReset) := by
  unfold fatalNow
  dsimp only
  generalize hk : ({ resetKeep s with
    log := { s.log with ring := markPrev s.log.ring, fatal := markPrev s.log.fatal },
    links := portsDown s,
    pwr := { (resetKeep s).pwr with fatal := true, fcnt := satAdd s.pwr.fcnt 1, cause := BitVec.ofNat 4 cause,
                                    resets := satAdd s.pwr.resets 1 },
    boot := if s.pwr.trip then { bootBegin s false with phase := .waitReset } else bootBegin s false } : State) = k
  have hw := bootWork_bootStart k
  have hflash : k.boot.flash = s.boot.flash := by
    rw [← hk]
    dsimp only
    split <;> rfl
  obtain ⟨dom, hp, -⟩ := hw.pwr
  refine ⟨⟨?_, ?_, ?_, hw.flash.trans hflash, fun d h1 h2 => hw.domSt h1 h2 (domSt_of_noDoms (by rw [← hk]; rfl) h1)⟩, ?_, ?_, ?_, ?_, ?_,
    ?_, fun ht => ?_⟩
  · rw [hw.frame .cache (by decide), ← hk]; rfl
  · rw [hw.frame .cache (by decide), ← hk]; rfl
  · rw [hw.frame .tables (by decide), ← hk]; rfl
  · rw [hp, ← hk]
  · rw [hp, ← hk]
  · rw [hp, ← hk]
  · rw [hp, ← hk]
  · rw [hp, ← hk]; rfl
  · rw [hw.frame .log (by decide), ← hk]
  · have hphase : k.boot.phase = .waitReset := by
      rw [← hk]
      simp [ht]
    rw [bootStart_waits (by rw [hphase]; decide), hphase]

/-- A warm reset keeps the array, the regions and the maps (R377, R378). -/
theorem warmNow_keeps (s : State) (cause : Nat) :
    let u := warmNow s cause
    u.pwr.cause = BitVec.ofNat 4 cause ∧ u.pwr.resets = satAdd s.pwr.resets 1 ∧ u.pwr.resetSt = .none ∧ u.pwr.fatal = s.pwr.fatal ∧
      u.cache = { Cache.reset with data := s.cache.data, line := s.cache.line, ecc := s.cache.ecc } ∧
      u.tables.region = s.tables.region ∧ u.cur = warmStaged s.cur ∧ u.boot.flash = s.boot.flash ∧ u.seq = Seq.reset ∧
      u.log.tail = s.log.tail ∧ u.log.head = s.log.head := by
  intro u
  unfold u warmNow
  dsimp only
  -- the state from which the warm boot starts
  generalize hk : ({ resetKeep s with
    cur := warmStaged s.cur, prev := warmStaged s.cur, shadow := warmStaged s.shadow,
    tables := _, cache := _, buf := _, log := _, cnt := _, links := _, rep := _, tst := _, pwr := _, sense := _, boot := _ } : State) = k
  have hw := bootWork_bootStart k
  obtain ⟨dom, hp, -⟩ := hw.pwr
  refine ⟨?_, ?_, ?_, ?_, ?_, ?_, ?_, ?_, ?_, ?_, ?_⟩
  · rw [hp, ← hk]
  · rw [hp, ← hk]
  · rw [hp, ← hk]; rfl
  · rw [hp, ← hk]; rfl
  · rw [hw.frame .cache (by decide), ← hk]
  · rw [hw.frame .tables (by decide), ← hk]
  · rw [hw.frame .cur (by decide), ← hk]
  · have hflash (b : Bool) (x : Boot) : (if b then { x with phase := .waitReset } else x).flash = x.flash := by cases b <;> rfl
    rw [hw.flash, ← hk]
    exact hflash _ _
  · rw [hw.frame .seq (by decide), ← hk]; rfl
  · rw [hw.frame .log (by decide), ← hk]
  · rw [hw.frame .log (by decide), ← hk]

/-- A cold reset loses everything but D0's stores; the loader waits for RESET_N (R377, R380). -/
theorem coldNow_loses (s : State) : arrayLost s (coldNow s) :=
  ⟨rfl, rfl, rfl, rfl, fun _ h1 _ => domSt_of_noDoms rfl h1⟩

theorem powerOnNow_loses (s : State) : arrayLost s (powerOnNow s) :=
  ⟨rfl, rfl, rfl, rfl, fun _ h1 _ => domSt_of_noDoms rfl h1⟩

/-! ## The record of a fatal event (R340, R342) -/

theorem fatalSlot_lt (l : ErrLog) : fatalSlot l < 4 := by
  unfold fatalSlot
  split_ifs <;> decide

/-- A fatal record stands in the fatal store, stamped. -/
theorem writeRec_fatal {r : Rec} (h : r.sev = 1) (s : State) :
    ∃ k, k < 4 ∧ recAt (writeRec r s).log.fatal k = some { r with time := s.clk.time, sid := s.glb.sid, id := s.log.count } := by
  have hstored (l : ErrLog) (x : Option Rec) : tget none (tset none l.fatal (fatalSlot l) x) (fatalSlot l) = x := tget_tset_self ..
  unfold writeRec
  simp only [h, if_true]
  exact ⟨_, fatalSlot_lt _, hstored _ _⟩

theorem writeRec_frame (r : Rec) (s : State) : changesOnly [.log] s (writeRec r s) := changesOnly_onLog (f := fun _ => (writeRec r s).log) (by simp) |>.mpr (changesOnly_refl _ s)

/-- The record with PREVERR. -/
def prevRec (r : Rec) : Rec := { r with prev := true }

theorem recAt_markPrev (t : Tab (Option Rec)) (k : Nat) : recAt (markPrev t) k = (recAt t k).map prevRec :=
  tget_map (Option.map prevRec) none none rfl t k

/-- The two fields of a fatal event's detail. -/
theorem pack_structure (a : BitVec 8) (b : BitVec 16) :
    (pack 128 [(0, a.toNat), (8, b.toNat)]).extractLsb' 0 8 = a ∧ (pack 128 [(0, a.toNat), (8, b.toNat)]).extractLsb' 8 16 = b := by
  have ha := a.isLt
  have hb := b.isLt
  have hnum : (pack 128 [(0, a.toNat), (8, b.toNat)]).toNat = a.toNat + b.toNat * 256 := by
    have hor := Nat.two_pow_add_eq_or_of_lt (i := 8) ha b.toNat
    simp only [pack, BitVec.toNat_or, BitVec.toNat_shiftLeft, BitVec.toNat_ofNat, Nat.shiftLeft_eq]
    rw [Nat.mod_eq_of_lt (show b.toNat < 2 ^ 128 by omega), Nat.mod_eq_of_lt (show a.toNat < 2 ^ 128 by omega),
      Nat.mod_eq_of_lt (show b.toNat * 2 ^ 8 < 2 ^ 128 by omega), Nat.mod_eq_of_lt (show a.toNat * 2 ^ 0 < 2 ^ 128 by omega)]
    rw [Nat.or_comm, show b.toNat * 2 ^ 8 ||| (0 : BitVec 128).toNat = 2 ^ 8 * b.toNat by simp [Nat.mul_comm], Nat.pow_zero, Nat.mul_one,
      ← hor]
    omega
  constructor
  · apply BitVec.eq_of_toNat_eq
    rw [BitVec.extractLsb'_toNat, hnum, Nat.shiftRight_zero]
    omega
  · apply BitVec.eq_of_toNat_eq
    rw [BitVec.extractLsb'_toNat, hnum, Nat.shiftRight_eq_div_pow]
    omega

/-- A fatal event's record stands in the fatal store, with PREVERR, after the reset (R340, R342, R379). -/
theorem fatalWith_record (r : Rec) (s : State) :
    ∃ k, k < 4 ∧ recAt (fatalWith r s).log.fatal k =
      some { r with sev := 1, action := 6, time := s.clk.time, sid := s.glb.sid, id := s.log.count, prev := true } := by
  obtain ⟨k, hk, hrec⟩ := writeRec_fatal (r := { r with sev := 1, action := 6 }) rfl s
  obtain ⟨-, -, -, -, -, -, hlog, -⟩ := fatalNow_loses (writeRec { r with sev := 1, action := 6 } s) 5
  refine ⟨k, hk, ?_⟩
  rw [fatalWith, hlog, recAt_markPrev, hrec]
  rfl

/-- Settles O50: each request by its own update, each reset by what it keeps and loses. -/
theorem chipResets : Obligations.ChipResets := by
  refine ⟨fun s => ⟨fun hp => ?_, fun h1 h2 h3 h4 => ⟨fun hn hw => ?_, fun v hv hb => ?_⟩, fun v hv => ?_, fun byPin h => ?_, ?_⟩, ?_⟩
  · have he : exec .pwrgoodDeassert s = execPwrgoodDeassert s := rfl
    rw [execPwrgoodDeassert, if_pos hp] at he
    exact completesWith_onPwr he
  · have he : exec .resetNAssert s = execResetNAssert s := rfl
    rw [execResetNAssert, if_pos hn] at he
    simp only [State.onPwr_boot, hw, if_false] at he
    rw [warmRequest_asks (by simpa using h1) (by simpa using h2) (by simpa using h3) (by simpa using h4)] at he
    exact completesWith_answer he (by simp)
  · have he : exec (.pwrRstWarm v) s = answer s (rstCmd v s) := rfl
    rw [rstCmd, if_pos ⟨by simpa [field] using hv, hb⟩, warmRequest_asks h1 h2 h3 h4] at he
    exact completesWith_onPwr he
  · have he : exec (.pwrRstWarm v) s = answer s (rstCmd v s) := rfl
    rw [rstCmd, if_neg (by simpa [field, bit] using hv)] at he
    exact completesWith_nothing he
  · have he := warmReset_eq h
    dsimp only at he
    generalize hs0 : (s.onPwr fun p => { p with resetSt := .warm s.clk.time byPin }) = s0 at he
    obtain ⟨f1, w1, k1, -, -⟩ := drainHalf_frame .e s0
    obtain ⟨f2, w2, k2, w3, k3⟩ := drainHalf_frame .w (drainHalf .e s0)
    obtain ⟨f3, c3⟩ := foldl_declineOffer (drainHalf .w (drainHalf .e s0)).cache.offers (drainHalf .w (drainHalf .e s0))
    generalize drainHalf .w (drainHalf .e s0) = s1 at he f2 w2 k2 w3 k3 f3 c3
    generalize s1.cache.offers.foldl (fun s o => declineOffer o s) s1 = u at he f3 c3
    have hbuf : ∀ h, waitQ u h = waitQ s1 h := fun h => by rw [waitQ, f3 .buf (by decide), waitQ]
    have hxlt : ∀ h, walks u h = walks s1 h := fun h => by rw [walks, f3 .xlt (by decide), walks]
    have hpwr : u.pwr = s0.pwr := (f3 .pwr (by decide)).trans ((f2 .pwr (by decide)).trans (f1 .pwr (by decide)))
    have hcache : s1.cache = s0.cache := (f2 .cache (by decide)).trans (f1 .cache (by decide))
    refine completesWith_answer he ?_
    simp only [answered_pwr, answered_cache, sameBytes_answered, changesOnly_answered]
    refine ⟨by rw [hpwr, ← hs0]; rfl, by rw [c3]; exact diff_self_eq_nil _, (hbuf .e).trans (w3.trans w1), (hbuf .w).trans w2,
      (hxlt .e).trans (k3.trans k1), (hxlt .w).trans k2, sameBytes_of_data (by rw [c3, hcache, ← hs0]; rfl), ?_⟩
    have f0 : changesOnly [.pwr] s s0 := by
      rw [← hs0]
      simp
    exact changesOnly_trans (changesOnly_mono f0 (by decide)) (changesOnly_trans (changesOnly_mono f1 (by decide))
      (changesOnly_trans (changesOnly_mono f2 (by decide)) (changesOnly_mono f3 (by decide))))
  · intro sid bootSel hn hv
    have he : exec (.resetNDeassert sid bootSel) s = execResetNDeassert sid bootSel s := rfl
    rw [execResetNDeassert, if_neg (by simp [hn, hv])] at he
    simp only [State.onGlb_boot, State.onMgt_boot, State.onPwr_boot, State.onMgt_pwr, State.onPwr_pwr, State.onGlb_pwr] at he
    refine completesWith_answer he ?_
    simp only [answered_glb, answered_pwr, answered_boot, answered_mgt]
    by_cases hw : s.boot.phase = .waitReset ∧ (!s.pwr.trip) = true
    · obtain ⟨hphase, htrip⟩ := hw
      simp only [hphase, htrip, and_self, if_true]
      generalize hk : ((((s.onGlb fun g => { g with sidStrap := sid, bootSel := bootSel }).onMgt _).onPwr _).onBoot _ : State) = k
      have hw := bootWork_bootStart k
      obtain ⟨dom, hp, -⟩ := hw.pwr
      refine ⟨?_, ?_, ?_, ?_⟩
      · rw [hw.frame .glb (by decide), ← hk]; rfl
      · rw [hp, ← hk]; rfl
      · intro h
        simp_all
      · intro _ _ hlock
        have hlock' : k.clk.pllLock = false := by rw [← hk]; exact hlock
        rw [bootStart, hlock', if_neg (by decide), ← hk]
        exact ⟨rfl, rfl, rfl⟩
    · simp only [hw, if_false]
      refine ⟨rfl, rfl, fun _ => rfl, fun h1 h2 => ?_⟩
      simp [h1, h2] at hw
  · intro s lost fatal
    refine ⟨fun t byPin h => ⟨fun hd => ?_, fun hdue => ?_⟩, fun h str idx hle hcold hv => ?_, fun hcold => ?_, fun hoff => ?_, ?_⟩
    · obtain ⟨c, he⟩ := warmDrainDone_eq h hd
      obtain ⟨h1, h2, h3, h4, h5, h6, h7, h8, h9, h10, h11⟩ := warmNow_keeps (s.onCnt fun _ => c) (if byPin then 3 else 4)
      generalize warmNow (s.onCnt fun _ => c) (if byPin then 3 else 4) = u at he h1 h2 h3 h4 h5 h6 h7 h8 h9 h10 h11
      refine completesWith_answer he ?_
      simp only [answered_cache, answered_pwr, answered_tables, answered_cur, answered_boot, answered_log, thr_answered]
      refine ⟨by rw [h1]; cases byPin <;> rfl, h2, h3, h4, by rw [h5]; rfl, by rw [h5]; rfl, by rw [h5]; rfl, h6, by rw [h7]; rfl,
        by rw [h7]; rfl, h8, fun k => by rw [thr, h9]; rfl, h10, h11⟩
    · have he : exec .drainTmo s = execDrainTmo s := rfl
      rw [execDrainTmo, h] at he
      simp only [hdue, if_true] at he
      obtain ⟨h1, h2, h3, h4, h5, h6, -⟩ := fatalNow_loses s 6
      exact completesWith_answer he ⟨h1, h2, h3, h4, h5, h6⟩
    · have he : exec (.fatalReset str { half := h, index := idx }) s = execFatalReset str { half := h, index := idx } s := rfl
      rw [execFatalReset, if_neg (by simp [hcold, hv]; omega)] at he
      dsimp only at he
      obtain ⟨⟨h1, h2, h3, h4, h5⟩, h6, h7, h8, h9, h10, -, h11⟩ := fatalNow_loses
        (writeRec { Rec.mk0 7 7 h with detail := pack 128 [(0, str.toNat), (8, idx.toNat)], sev := 1, action := 6 } s) 5
      obtain ⟨k, hk, hrec⟩ := fatalWith_record { Rec.mk0 7 7 h with detail := pack 128 [(0, str.toNat), (8, idx.toNat)] } s
      refine completesWith_answer he ⟨⟨⟨h1, h2, h3, h4, h5⟩, h6, h7, h8, h9, h10⟩, h11, k, _, hk, hrec, rfl, rfl, rfl, rfl, ?_⟩
      exact pack_structure str idx
    · have he : exec .coldReset s = execColdReset s := rfl
      rw [execColdReset, if_pos hcold] at he
      exact completesWith_answer he ⟨coldNow_loses s, rfl, rfl, rfl, rfl, rfl, rfl, rfl, rfl⟩
    · have he : exec .vaonPowerOn s = execVaonPowerOn s := rfl
      rw [execVaonPowerOn, hoff, if_neg (by decide)] at he
      exact ⟨_, he, powerOnNow_loses s, rfl, rfl, rfl⟩
    · have he : exec .vaonLoss s = execVaonLoss s := rfl
      exact ⟨_, he, ⟨rfl, rfl, rfl, rfl, fun _ h1 _ => domSt_of_noDoms rfl h1⟩, rfl, rfl, rfl⟩

end Sys2Proof.Machine
end

section
/-! PROOFS. A port that recalibrates (R297), the PLL, the crystal and the timebase's latches (R70, R72, R73). -/

namespace Sys2Proof.Machine

open Sys2Proof.Safety

/-! ## Ports that change state (R296) -/

theorem changesOnly_linkEvent {bs : List Block} {r s : State} {base n k : Nat} (h : Block.cnt ∈ bs) :
    changesOnly bs r (linkEvent base n k s) ↔ changesOnly bs r s := changesOnly_cnt h

theorem linkEvent_only (base n k : Nat) (s : State) : ∃ c, linkEvent base n k s = s.onCnt fun _ => c := ⟨_, cnt_only ..⟩

/-- A port that goes to another state counts the change (R420). -/
theorem putPort_eq (s : State) (n : Nat) (p : Port)
    (h : (port s n).state ≠ p.state ∨ (port s n).degraded ≠ p.degraded ∨ (port s n).spares ≠ p.spares) :
    putPort s n p = setPort s n { p with gen := (port s n).gen + 1 } := by
  simp [putPort, h]

theorem portTo_eq {s : State} {n st : Nat} (h : (port s n).state ≠ BitVec.ofNat 3 st) :
    portTo n st s = setPort s n { port s n with state := BitVec.ofNat 3 st, since := s.clk.time, gen := (port s n).gen + 1 } :=
  putPort_eq s n _ (.inl h)

theorem portActive_iff {s : State} {n : Nat} : portActive s n = true ↔ (port s n).state = 4 := by simp [portActive]

/-- An ACTIVE port enters RECAL; nothing else of the links changes (R297). -/
theorem enterRecal_active {s : State} {n : Nat} (h : portActive s n = true) :
    ∃ c, enterRecal n s =
      (setPort s n { port s n with state := 5, since := s.clk.time, gen := (port s n).gen + 1 }).onCnt fun _ => c := by
  have h4 := portActive_iff.mp h
  rw [enterRecal, if_pos h, portTo_eq (by rw [h4]; decide)]
  exact linkEvent_only ..

theorem enterRecal_inactive {s : State} {n : Nat} (h : portActive s n = false) : enterRecal n s = s := by
  rw [enterRecal, h, if_neg (by decide)]

/-- What a recalibration of port n leaves of port k. -/
theorem state_enterRecal (n k : Nat) (s : State) :
    (port (enterRecal n s) k).state = if k = n ∧ portActive s k then 5 else (port s k).state := by
  cases h : portActive s n with
  | false =>
    rw [enterRecal_inactive h, if_neg]
    rintro ⟨rfl, hk⟩
    rw [h] at hk
    cases hk
  | true =>
    obtain ⟨c, hc⟩ := enterRecal_active h
    rw [hc]
    by_cases hk : k = n
    · subst hk
      rw [if_pos ⟨rfl, h⟩]
      exact congrArg Port.state (port_setPort_self ..)
    · rw [if_neg fun hx => hk hx.1]
      exact congrArg Port.state (port_setPort_ne s _ hk)

theorem enterRecal_frame (n : Nat) (s : State) : changesOnly [.links, .cnt] s (enterRecal n s) ∧ (enterRecal n s).clk = s.clk := by
  cases h : portActive s n with
  | false =>
    rw [enterRecal_inactive h]
    exact ⟨changesOnly_refl _ s, rfl⟩
  | true =>
    obtain ⟨c, hc⟩ := enterRecal_active h
    rw [hc]
    exact ⟨by simp, rfl⟩

/-- Recalibration of every port of a list in turn. -/
theorem foldl_enterRecal (l : List Nat) (hl : l.Nodup) (s : State) :
    changesOnly [.links, .cnt] s (l.foldl (fun t n => enterRecal n t) s) ∧ (l.foldl (fun t n => enterRecal n t) s).clk = s.clk ∧
      ∀ k, (port (l.foldl (fun t n => enterRecal n t) s) k).state = if k ∈ l ∧ portActive s k then 5 else (port s k).state := by
  induction l generalizing s with
  | nil => exact ⟨changesOnly_refl _ s, rfl, fun k => by simp⟩
  | cons n l ih =>
    obtain ⟨hn, hl⟩ := List.nodup_cons.mp hl
    obtain ⟨f1, c1⟩ := enterRecal_frame n s
    obtain ⟨f2, c2, p2⟩ := ih hl (enterRecal n s)
    refine ⟨changesOnly_trans f1 f2, c2.trans c1, fun k => ?_⟩
    rw [List.foldl_cons, p2 k]
    have hact : portActive (enterRecal n s) k = if k = n ∧ portActive s k then false else portActive s k := by
      by_cases hx : k = n ∧ portActive s k = true
      · rw [if_pos hx, portActive, state_enterRecal, if_pos hx]
        decide
      · rw [if_neg hx, portActive, state_enterRecal, if_neg hx, portActive]
    rw [hact, state_enterRecal]
    by_cases hk : k = n
    · subst hk
      cases portActive s k <;> simp [hn]
    · simp [hk]

/-! ## The timebase's latches (R72) -/

/-- A command whose effect is on the clocks alone answers that. -/
theorem completesWith_onClk {c : Instr} {s : State} {f : Clk → Clk} (he : exec c s = answer s (s.onClk f)) (ht : (f s.clk).time = s.clk.time) :
    completesWith c s fun u => u.clk = f s.clk ∧ changesOnly [.clk] s u := by
  refine completesWith_answer he ⟨?_, by simp⟩
  simp only [answered, State.onClk_clk, ← ht]

/-- Settles O36: the PLL, the crystal and the latch, each by its own update. -/
theorem clockEvents : Obligations.ClockEvents := by
  intro s
  refine ⟨fun hv hl => ?_, fun hl => ?_, ?_, fun r => ⟨?_, ?_⟩⟩
  · have he : exec .pllLock s = execPllLock s := rfl
    rw [execPllLock, if_pos ⟨hv, by simp [hl]⟩] at he
    have hclk := (bootWork_bootGo (s.onClk fun c => { c with pllLock := true, pclkEvt := true })).frame .clk (by decide)
    exact completesWith_answer he ⟨congrArg Clk.pllLock hclk, congrArg Clk.pclkEvt hclk, rfl⟩
  · have he : exec .pllLockLoss s = execPllLockLoss s := rfl
    rw [execPllLockLoss, if_pos hl] at he
    obtain ⟨f, c, p⟩ := foldl_enterRecal (List.range 8) List.nodup_range (s.onClk fun c => { c with pllLock := false, pclkEvt := true })
    refine completesWith_answer he ⟨?_, fun n hn => ?_, ?_⟩
    · simp only [answered, c, State.onClk_clk]
    · rw [port_answered, p n]
      simp [hn, portActive, port]
    · rw [changesOnly_answered]
      exact changesOnly_trans (by simp) (changesOnly_mono f (by decide))
  · have he : exec .xtalFail s = execXtalFail s := rfl
    exact completesWith_onClk he rfl
  · have he : exec (.loopTimeLowRead r) s = answer s (showRead (timeLow r s)) := rfl
    refine completesWith_answer he ⟨rfl, by simp [answered, showRead, timeLow], fun k hk => ?_, by simp [showRead, timeLow]⟩
    simp [answered, showRead, timeLow, tget_tset_ne _ _ _ hk]
  · have he : exec (.loopTimeHighRead r) s = answer s (showRead (timeHigh r s)) := rfl
    unfold timeHigh at he
    split at he
    next hnone =>
      refine completesWith_answer he ⟨by rw [hnone]; rfl, hnone, fun _ _ => rfl, by simp [showRead]⟩
    next v hv =>
      refine completesWith_answer he ⟨by rw [hv]; rfl, by simp [answered, showRead], fun k hk => ?_, by simp [showRead]⟩
      simp [answered, showRead, tget_tset_ne _ _ _ hk]

end Sys2Proof.Machine
end

section
/-! PROOFS. The adaptive loops (R48 to R67): one evaluation of each, and the latency-regulated supply. -/

namespace Sys2Proof.Machine

open Sys2Proof.Safety

/-! ## A loop's registers and its memory -/

@[simp] theorem loopOf_setLoop_self (n : Nat) (l : Loop) (s : State) : loopOf (setLoop n l s) n = l := tget_tset_self ..

theorem loopOf_setLoop_ne {n k : Nat} (l : Loop) (s : State) (h : k ≠ n) : loopOf (setLoop n l s) k = loopOf s k := by
  have hcanon (d e : Loop) (t : Tab Loop) : tget d (tset e t n l) k = tget d t k := by
    unfold tset
    split
    · exact tget_tdel_ne d t h
    · rw [tget_tins_ne d _ _ h, tget_tdel_ne d t h]
  exact hcanon _ _ _

@[simp] theorem loopOf_modLoopMem (s : State) (n k : Nat) (f : LoopMem → LoopMem) : loopOf (modLoopMem s n f) k = loopOf s k := rfl
@[simp] theorem loopOf_setAvs (h : Half) (a : Avs) (s : State) (k : Nat) : loopOf (setAvs h a s) k = loopOf s k := by cases h <;> rfl
@[simp] theorem loopOf_setLaneEq (i : Nat) (x : LaneEq) (s : State) (k : Nat) : loopOf (setLaneEq i x s) k = loopOf s k := rfl
@[simp] theorem loopOf_answered (s t : State) (k : Nat) : loopOf (answered s t) k = loopOf t k := rfl

@[simp] theorem avsOf_setLoop (n : Nat) (l : Loop) (s : State) (h : Half) : avsOf (setLoop n l s) h = avsOf s h := rfl
@[simp] theorem avsOf_modLoopMem (s : State) (n : Nat) (f : LoopMem → LoopMem) (h : Half) : avsOf (modLoopMem s n f) h = avsOf s h := rfl
@[simp] theorem avsOf_setAvs (h : Half) (a : Avs) (s : State) : avsOf (setAvs h a s) h = a := by cases h <;> rfl
@[simp] theorem avsOf_answered (s t : State) (h : Half) : avsOf (answered s t) h = avsOf t h := rfl

section
variable {bs : List Block} {r s : State}
@[simp] theorem changesOnly_setLoop {n : Nat} {l : Loop} (h : Block.loops ∈ bs) :
    changesOnly bs r (setLoop n l s) ↔ changesOnly bs r s := changesOnly_onLoops h
@[simp] theorem changesOnly_modLoopMem {n : Nat} {f : LoopMem → LoopMem} (h : Block.loops ∈ bs) :
    changesOnly bs r (modLoopMem s n f) ↔ changesOnly bs r s := changesOnly_onLoops h
@[simp] theorem changesOnly_setAvs {g : Half} {a : Avs} (h : Block.loops ∈ bs) :
    changesOnly bs r (setAvs g a s) ↔ changesOnly bs r s := changesOnly_onLoops h
@[simp] theorem changesOnly_setLaneEq {i : Nat} {x : LaneEq} (h : Block.loops ∈ bs) :
    changesOnly bs r (setLaneEq i x s) ↔ changesOnly bs r s := changesOnly_onLoops h
end

/-! ## One evaluation (R48 to R50) -/

/-- The VALUE that an evaluation of a live loop gives, when the law asks for `want`. -/
def stepValue (s : State) (n : Nat) (want : Int) : BitVec 16 :=
  BitVec.ofInt 16 (nearer (loopOf s n).lo.toNat (loopOf s n).hi.toNat (loopOut (loopOf s n)).toNat want)

/-- An evaluation of a loop that drives its output. -/
theorem loopStep_live {n : Nat} (meas : BitVec 16) (want : Int) (wrong up : Bool) {s : State} (h : loopLive s n = true) :
    ∃ a b, loopStep n meas want wrong up s = setLoop n { (loopOf s n).took meas (stepValue s n want) with sat := a, miss := b } s := by
  unfold loopStep
  simp only [h, if_true]
  exact ⟨_, _, rfl⟩

/-- Whether a loop drives its output does not depend on its memory. -/
@[simp] theorem loopLive_modLoopMem (s : State) (n k : Nat) (f : LoopMem → LoopMem) : loopLive (modLoopMem s n f) k = loopLive s k := rfl
@[simp] theorem stepValue_modLoopMem (s : State) (n k : Nat) (f : LoopMem → LoopMem) (w : Int) :
    stepValue (modLoopMem s n f) k w = stepValue s k w := rfl
@[simp] theorem loopOn_modLoopMem (s : State) (n k : Nat) (f : LoopMem → LoopMem) : loopOn (modLoopMem s n f) k = loopOn s k := rfl
@[simp] theorem loopHold_modLoopMem (s : State) (n k : Nat) (f : LoopMem → LoopMem) : loopHold (modLoopMem s n f) k = loopHold s k := rfl

/-! ## The latency-regulated supply (R53 to R57) -/

/-- A voltage far from what was commanded, the third failure in a row, or the regulator's own fault (R57). -/
theorem avsFault_stops (h : Half) (s : State) :
    (loopOf (avsFault h s) h.idx).devFault = true ∧ (avsOf (avsFault h s) h).reads = [] ∧ (avsOf (avsFault h s) h).writes = [] ∧
      changesOnly [.loops] s (avsFault h s) := by
  unfold avsFault
  refine ⟨by simp, by simp, by simp, by simp⟩

theorem avsFailed_third {h : Half} {a : Avs} {s : State} (hf : 2 ≤ a.fails) : avsFailed h a s = avsFault h s := by
  rw [avsFailed, if_pos hf]

theorem avsFailed_before {h : Half} {a : Avs} {s : State} (hf : a.fails < 2) :
    avsFailed h a s = setAvs h { a with fails := a.fails + 1 } s := by
  rw [avsFailed, if_neg (by omega)]

/-- A transaction that leaves the AVSBus's registers at b, and nothing else. -/
theorem completesWith_setAvs {c : Instr} {h : Half} {b : Avs} {s : State} (he : exec c s = answer s (setAvs h b s)) :
    completesWith c s fun u => avsOf u h = b ∧ loopOf u h.idx = loopOf s h.idx ∧ changesOnly [.loops] s u :=
  completesWith_answer he (by simp)

theorem completesWith_avsFault {c : Instr} {h : Half} {s : State} (he : exec c s = answer s (avsFault h s)) :
    completesWith c s fun u =>
      (loopOf u h.idx).devFault = true ∧ (avsOf u h).reads = [] ∧ (avsOf u h).writes = [] ∧ changesOnly [.loops] s u :=
  completesWith_answer he (by simpa using avsFault_stops h s)

/-- A voltage that changes is written, and read back 10 µs later (R55, R57). -/
theorem avsWrite_eq {h : Half} {mv : BitVec 16} {s : State} (hf : (loopOf s h.idx).devFault = false) :
    avsWrite h mv s = setAvs h { avsOf s h with
      cmds := (s.clk.time, mv) :: (avsOf s h).cmds, writes := (avsOf s h).writes ++ [(s.clk.time, mv)],
      reads := (avsOf s h).reads ++ [s.clk.time + 10000] } s := by
  rw [avsWrite, hf, if_neg (by decide)]

/-- An LRS loop's VALUE within its limits is stepped by R54's law. -/
theorem lrsWant_within {s : State} {n meas : Nat} (h1 : (loopOf s n).lo.toNat ≤ (loopOut (loopOf s n)).toNat)
    (h2 : (loopOut (loopOf s n)).toNat ≤ (loopOf s n).hi.toNat) :
    lrsWant s n meas =
      (let old : Int := (loopOut (loopOf s n)).toNat
       let m := tget LoopMem.reset s.loops.mem n
       if (loopOf s n).target.toNat + 16 < meas then (if longAgo s m.lastRaise 2000 then old + 20 else old)
       else if (loopOf s n).target.toNat < meas then (if longAgo s m.lastRaise 2000 then old + 5 else old)
       else if (loopOf s n).target.toNat ≤ meas + (loopOf s n).hyst.toNat then old
       else if longAgo s m.lastLower 20000 then old - 5 else old) := by
  unfold lrsWant
  dsimp only
  rw [if_neg (by omega), if_neg (by omega)]

/-- A 16-bit number that a clamped want below 2^16 gives. -/
theorem toNat_ofInt_nearer {lo hi old : Nat} {want : Int} (h1 : lo ≤ old) (h2 : old ≤ hi) (h3 : hi < 65536) :
    (BitVec.ofInt 16 (nearer lo hi old want)).toNat = (max (lo : Int) (min hi want)).toNat := by
  unfold nearer clampTo
  rw [if_neg (by omega), if_neg (by omega), BitVec.toNat_ofInt]
  omega

/-- R54's step, clamped to the limits. -/
theorem lrsClamped {lo hi old target meas hyst : Nat} {up down : Bool} (h1 : lo ≤ old) (h2 : old ≤ hi) :
    (max (lo : Int) (min hi (if target + 16 < meas then (if up then (old : Int) + 20 else old)
        else if target < meas then (if up then (old : Int) + 5 else old)
        else if target ≤ meas + hyst then old
        else if down then (old : Int) - 5 else old))).toNat =
      if target + 16 < meas then (if up then min hi (old + 20) else old)
      else if target < meas then (if up then min hi (old + 5) else old)
      else if target ≤ meas + hyst then old
      else if down then max lo (old - 5) else old := by
  split_ifs <;> omega

/-- An evaluation of a live LRS loop within its limits that is due: the step, and the command when VALUE changes. -/
theorem exec_lrsEvaluate {h : Half} {a b c d : BitVec 16} {s : State} (hon : loopOn s h.idx = true) (hlive : loopLive s h.idx = true)
    (hf : (loopOf s h.idx).devFault = false) (h1 : (loopOf s h.idx).lo.toNat ≤ (loopOut (loopOf s h.idx)).toNat)
    (h2 : (loopOut (loopOf s h.idx)).toNat ≤ (loopOf s h.idx).hi.toNat)
    (hdue : longAgo s (tget LoopMem.reset s.loops.mem h.idx).last 1000 = true) :
    ∃ x y g, exec (.lrsEvaluate h a b c d) s = answer s
      (let n := h.idx
       let v := stepValue s n (lrsWant s n (ringMax s h a b c d).toNat)
       let t := setLoop n { (loopOf s n).took (ringMax s h a b c d) v with sat := x, miss := y }
         (modLoopMem s n fun m => { m with last := some s.clk.time })
       if v = (loopOf s n).value then t else avsWrite h v (modLoopMem t n g)) := by
  have he : exec (.lrsEvaluate h a b c d) s = execLrsEvaluate h a b c d s := rfl
  obtain ⟨x, y, hstep⟩ := loopStep_live (ringMax s h a b c d) (lrsWant s h.idx (ringMax s h a b c d).toNat)
    (decide ((loopOf s h.idx).target.toNat < (ringMax s h a b c d).toNat)) true
    (show loopLive (modLoopMem s h.idx fun m => { m with last := some s.clk.time }) h.idx = true from hlive)
  have hout : ¬ (decide ((loopOut (loopOf s h.idx)).toNat < (loopOf s h.idx).lo.toNat ∨
      (loopOf s h.idx).hi.toNat < (loopOut (loopOf s h.idx)).toNat) = true ∧ loopLive s h.idx = true) := by
    rw [decide_eq_true_eq]
    omega
  rw [he, execLrsEvaluate]
  simp only [hdue, hon, hf, Bool.not_true, Bool.false_eq_true, or_self, if_false]
  rw [if_neg hout, hstep]
  simp only [stepValue_modLoopMem, loopOf_modLoopMem, loopOf_setLoop_self]
  exact ⟨x, y, _, rfl⟩

/-- An evaluation that is due leaves MEAS, the VALUE v of R54's law, and the command of a VALUE that has changed. -/
theorem lrsEvaluate_completes {h : Half} {a b c d : BitVec 16} {s : State} (hon : loopOn s h.idx = true) (hlive : loopLive s h.idx = true)
    (hf : (loopOf s h.idx).devFault = false) (h1 : (loopOf s h.idx).lo.toNat ≤ (loopOut (loopOf s h.idx)).toNat)
    (h2 : (loopOut (loopOf s h.idx)).toNat ≤ (loopOf s h.idx).hi.toNat)
    (hdue : longAgo s (tget LoopMem.reset s.loops.mem h.idx).last 1000 = true) {v : Nat}
    (hv : (stepValue s h.idx (lrsWant s h.idx (ringMax s h a b c d).toNat)).toNat = v) :
    completesWith (.lrsEvaluate h a b c d) s fun u =>
      (loopOf u h.idx).measure.toNat = (ringMax s h a b c d).toNat ∧ (loopOf u h.idx).value.toNat = v ∧ (loopOf u h.idx).written = none ∧
        (loopOf u h.idx).atLo = decide (v = (loopOf s h.idx).lo.toNat) ∧ (loopOf u h.idx).atHi = decide (v = (loopOf s h.idx).hi.toNat) ∧
        avsOf u h = (if v = (loopOf s h.idx).value.toNat then avsOf s h else
          { avsOf s h with cmds := (s.clk.time, BitVec.ofNat 16 v) :: (avsOf s h).cmds,
                           writes := (avsOf s h).writes ++ [(s.clk.time, BitVec.ofNat 16 v)],
                           reads := (avsOf s h).reads ++ [s.clk.time + 10000] }) ∧
        (∀ k, k ≠ h.idx → loopOf u k = loopOf s k) ∧ changesOnly [.loops] s u := by
  subst hv
  obtain ⟨x, y, g, he⟩ := exec_lrsEvaluate hon hlive hf h1 h2 hdue
  dsimp only at he
  generalize stepValue s h.idx (lrsWant s h.idx (ringMax s h a b c d).toNat) = v at he
  have hat (w : BitVec 16) : (v == w) = decide (v.toNat = w.toNat) := by
    rw [Bool.beq_eq_decide_eq, decide_eq_decide, BitVec.toNat_inj]
  by_cases hv : v = (loopOf s h.idx).value
  · rw [if_pos hv] at he
    refine completesWith_answer he ?_
    simp only [loopOf_answered, avsOf_answered, changesOnly_answered, loopOf_setLoop_self, avsOf_setLoop, avsOf_modLoopMem, Loop.took, hat]
    rw [if_pos (by rw [hv])]
    exact ⟨trivial, trivial, trivial, trivial, trivial, rfl, fun k hk => loopOf_setLoop_ne _ _ hk, by simp⟩
  · rw [if_neg hv, avsWrite_eq (by simpa [Loop.took] using hf)] at he
    refine completesWith_answer he ?_
    simp only [loopOf_answered, avsOf_answered, changesOnly_answered, loopOf_setLoop_self, avsOf_setLoop, avsOf_modLoopMem, Loop.took, hat,
      loopOf_setAvs, loopOf_modLoopMem, avsOf_setAvs]
    rw [if_neg (by rwa [BitVec.toNat_inj])]
    refine ⟨trivial, trivial, trivial, trivial, trivial, ?_, fun k hk => loopOf_setLoop_ne _ _ hk, by simp⟩
    rw [BitVec.ofNat_toNat, BitVec.setWidth_eq]
    rfl

/-- Settles O37: one evaluation by R54's law, and each end of a transaction by its own case. -/
theorem supplyLoop : Obligations.SupplyLoop := by
  refine ⟨?_, ?_⟩
  · intro h seqR tagR dataR linkR s n l m a meas old hon hlive hf h1 h2 h3 raise lower gives
    refine ⟨fun hdue => ?_, fun hdue => ?_⟩
    · have he : exec (.lrsEvaluate h seqR tagR dataR linkR) s = execLrsEvaluate h seqR tagR dataR linkR s := rfl
      have hnot : (!longAgo s (tget LoopMem.reset s.loops.mem h.idx).last 1000) = true ∨ (!loopOn s h.idx) = true := by
        left
        rw [Bool.not_eq_true']
        exact hdue
      rw [execLrsEvaluate, if_pos hnot] at he
      exact completesWith_nothing he
    · refine lrsEvaluate_completes hon hlive hf h1 h2 hdue ?_
      have hhi : (loopOf s h.idx).hi.toNat < 65536 := (loopOf s h.idx).hi.isLt
      rw [stepValue, toNat_ofInt_nearer h1 h2 hhi, lrsWant_within h1 h2]
      exact lrsClamped h1 h2
  · intro h s a faults becomes fails
    have third {r : AvsResult} {b : Avs} (he : exec (.avsReadback h r) s = answer s (avsFailed h b s)) (hb : b.fails = a.fails) : fails r b := by
      refine ⟨fun hf => ?_, fun hf => ?_⟩
      · rw [avsFailed_before (by omega), hb] at he
        exact completesWith_setAvs he
      · rw [avsFailed_third (by omega)] at he
        exact completesWith_avsFault he
    refine ⟨fun w rest hw => ⟨?_, ?_⟩, completesWith_setAvs rfl, completesWith_avsFault rfl, third rfl rfl, ?_⟩
    · have he : exec (.avsReadback h (.written true)) s = execAvsReadback h (.written true) s := rfl
      rw [execAvsReadback] at he
      simp only [show (avsOf s h).writes = w :: rest from hw, if_true] at he
      exact completesWith_setAvs he
    · have he : exec (.avsReadback h (.written false)) s = execAvsReadback h (.written false) s := rfl
      rw [execAvsReadback] at he
      simp only [show (avsOf s h).writes = w :: rest from hw, Bool.false_eq_true, if_false] at he
      exact third he rfl
    · intro t rest ht hle hafter near
      have hready : ¬ (s.clk.time.toNat < t.toNat ∨ ((avsOf s h).writes.any fun w => decide (w.1.toNat ≤ t.toNat)) = true) := by
        rw [List.any_eq_true]
        rintro (hlt | ⟨w, hw, hwt⟩)
        · omega
        · have := hafter w hw
          rw [decide_eq_true_eq] at hwt
          omega
      have hnear (mv : BitVec 16) : ((avsRefs (avsOf s h).cmds t.toNat).any fun c => near10 mv.toNat c.2.toNat) = true ↔ near mv := by
        simp only [List.any_eq_true, near10, decide_eq_true_eq]
        exact Iff.rfl
      refine ⟨third ?_ rfl, fun mv hmv => completesWith_avsFault ?_, fun mv hmv => completesWith_setAvs ?_⟩
      · have he : exec (.avsReadback h (.voltage none)) s = execAvsReadback h (.voltage none) s := rfl
        rw [he, execAvsReadback]
        simp only [show (avsOf s h).reads = t :: rest from ht, hready, if_false]
        rfl
      · have he : exec (.avsReadback h (.voltage (some mv))) s = execAvsReadback h (.voltage (some mv)) s := rfl
        have hfar : (!(avsRefs (avsOf s h).cmds t.toNat).any fun c => near10 mv.toNat c.2.toNat) = true := by
          rw [Bool.not_eq_true', ← Bool.not_eq_true, hnear]
          exact hmv
        rw [he, execAvsReadback]
        simp only [show (avsOf s h).reads = t :: rest from ht, hready, if_false, hfar, if_true]
      · have he : exec (.avsReadback h (.voltage (some mv))) s = execAvsReadback h (.voltage (some mv)) s := rfl
        rw [he, execAvsReadback]
        simp only [show (avsOf s h).reads = t :: rest from ht, hready, if_false, (hnear mv).mpr hmv, Bool.not_true, Bool.false_eq_true]
        rfl

end Sys2Proof.Machine
end

section
/-! PROOFS. The laws of the other loops (R59, R60, R62, R67). -/

namespace Sys2Proof.Machine

open Sys2Proof.Safety

/-- The value of loop n when MEAS asks for `want`, in the words of R48 to R50. -/
theorem stepValue_eq (s : State) (n : Nat) (want : Int) :
    stepValue s n want = BitVec.ofInt 16 (if ((loopOut (loopOf s n)).toNat : Int) < (loopOf s n).lo.toNat then (loopOf s n).lo.toNat
      else if ((loopOf s n).hi.toNat : Int) < (loopOut (loopOf s n)).toNat then (loopOf s n).hi.toNat
      else max (loopOf s n).lo.toNat (min (loopOf s n).hi.toNat want)) := rfl

/-- A law that holds asks for the VALUE in force (R48). -/
theorem stepValue_hold (s : State) (n : Nat) : stepValue s n (loopHold s n) = stepValue s n (loopOut (loopOf s n)).toNat := by
  unfold stepValue nearer loopHold clampTo
  congr 1
  dsimp only
  split_ifs <;> omega

/-- Whether the run of low measures has reached its length. -/
theorem lowRun_fst (size : Nat) (low : Bool) (old : Nat) : (lowRun size low old).1 = (low && decide (size ≤ old + 1)) := by
  cases low with
  | false => rfl
  | true =>
    unfold lowRun
    by_cases h : size ≤ old + 1 <;> simp [h]

/-- A law with a low run, where its last case holds. -/
theorem stepValue_low {s : State} {n size old : Nat} {p q : Prop} [Decidable p] [Decidable q] {a b : Int} :
    stepValue s n (if p then a else if (decide q && decide (size + 1 ≤ old + 1)) = true then b else loopHold s n) =
      stepValue s n (if p then a else if q ∧ size ≤ old then b else (loopOut (loopOf s n)).toNat) := by
  by_cases hp : p
  · rw [if_pos hp, if_pos hp]
  · rw [if_neg hp, if_neg hp]
    by_cases hq : q ∧ size ≤ old
    · rw [if_pos hq, if_pos (by simp [hq])]
    · rw [if_neg hq, if_neg (by simpa using hq), stepValue_hold]

/-- A law with a step either way, where its last case holds. -/
theorem stepValue_between {s : State} {n : Nat} {p q : Prop} [Decidable p] [Decidable q] {a b : Int} :
    stepValue s n (if p then a else if q then b else loopHold s n) =
      stepValue s n (if p then a else if q then b else (loopOut (loopOf s n)).toNat) := by
  by_cases hp : p
  · rw [if_pos hp, if_pos hp]
  · rw [if_neg hp, if_neg hp]
    by_cases hq : q
    · rw [if_pos hq, if_pos hq]
    · rw [if_neg hq, if_neg hq, stepValue_hold]

/-- What an evaluation of loop n has done: MEAS and VALUE are new, every other loop is as before. -/
def loopTakes (s : State) (n : Nat) (meas value : BitVec 16) (u : State) : Prop :=
  (loopOf u n).measure = meas ∧ (loopOf u n).value = value ∧ (loopOf u n).written = none ∧ (∀ k, k ≠ n → loopOf u k = loopOf s k) ∧
    changesOnly [.loops] s u

/-- A step from a state that differs from s in its loops' memory alone. -/
theorem loopTakes_setLoop {s t : State} {n : Nat} {l : Loop} {meas value : BitVec 16} (hl : ∀ k, loopOf t k = loopOf s k)
    (ht : changesOnly [.loops] s t) (h1 : l.measure = meas) (h2 : l.value = value) (h3 : l.written = none) :
    loopTakes s n meas value (setLoop n l t) := by
  refine ⟨by simpa using h1, by simpa using h2, by simpa using h3, fun k hk => (loopOf_setLoop_ne l t hk).trans (hl k), ?_⟩
  rw [changesOnly_setLoop (by simp)]
  exact ht

@[simp] theorem loopTakes_answered {s t u : State} {n : Nat} {meas value : BitVec 16} :
    loopTakes s n meas value (answered u t) ↔ loopTakes s n meas value t := by
  simp [loopTakes]

/-- A loop's memory is no register: states that differ in it alone have the same loops. -/
def memOnly (s t : State) : Prop := (∀ k, loopOf t k = loopOf s k) ∧ t.loops.frz = s.loops.frz ∧ changesOnly [.loops] s t

theorem memOnly_modLoopMem (s : State) (n : Nat) (f : LoopMem → LoopMem) : memOnly s (modLoopMem s n f) :=
  ⟨fun _ => rfl, rfl, by simp⟩

theorem memOnly_trans {s t u : State} (h1 : memOnly s t) (h2 : memOnly t u) : memOnly s u := by
  obtain ⟨a1, b1, c1⟩ := h1
  obtain ⟨a2, b2, c2⟩ := h2
  exact ⟨fun k => (a2 k).trans (a1 k), b2.trans b1, changesOnly_trans c1 c2⟩

/-- A step of a live loop from such a state gives the value that the loop's own registers say. -/
theorem loopTakes_loopStep {s t : State} {n : Nat} (meas : BitVec 16) {want want' : Int} {wrong up : Bool} (ht : memOnly s t)
    (hlive : loopLive s n = true) (hw : stepValue s n want = stepValue s n want') :
    loopTakes s n meas (stepValue s n want') (loopStep n meas want wrong up t) := by
  obtain ⟨hl, hz, hf⟩ := ht
  have hlive' : loopLive t n = true := by
    rw [← hlive]
    simp only [loopLive, loopFrozen, hl, hz]
  obtain ⟨a, b, hstep⟩ := loopStep_live meas want wrong up hlive'
  rw [hstep]
  refine loopTakes_setLoop hl hf rfl ?_ rfl
  rw [← hw, stepValue, stepValue, hl]
  rfl

/-- The evaluation that is due, with what was counted for it. -/
theorem takeReady_cons {n : Nat} {s : State} {e : Nat × Nat} {rest : List (Nat × Nat)}
    (h : (tget LoopMem.reset s.loops.mem n).ready = e :: rest) :
    takeReady n s = some (e, modLoopMem s n fun m => { m with ready := rest }) := by
  rw [takeReady, h]

/-! ## The worst lane (R60) -/

theorem worstRatio_le (rs : List (Nat × BitVec 16)) (b : BitVec 16) :
    (rs.foldl (fun b e => if e.2.toNat < b.toNat then e.2 else b) b).toNat ≤ b.toNat ∧
      ∀ e ∈ rs, (rs.foldl (fun b e => if e.2.toNat < b.toNat then e.2 else b) b).toNat ≤ e.2.toNat := by
  induction rs generalizing b with
  | nil => simp
  | cons x rs ih =>
    obtain ⟨h1, h2⟩ := ih (if x.2.toNat < b.toNat then x.2 else b)
    rw [List.foldl_cons]
    have hmin : (if x.2.toNat < b.toNat then x.2 else b).toNat ≤ b.toNat ∧ (if x.2.toNat < b.toNat then x.2 else b).toNat ≤ x.2.toNat := by
      split <;> omega
    refine ⟨h1.trans hmin.1, fun e he => ?_⟩
    obtain rfl | he := List.mem_cons.mp he
    · exact h1.trans hmin.2
    · exact h2 e he

/-- With no lane worse than TARGET none is watched. -/
theorem worseLanes_nil {s : State} {old : List (Nat × BitVec 64)} {target : Nat} {rs : List (Nat × BitVec 16)}
    (h : target ≤ (worstRatio rs).toNat) : worseLanes s old target rs = [] := by
  have hnone : rs.filter (fun e => decide (e.2.toNat < target)) = [] := by
    rw [List.filter_eq_nil_iff]
    intro e he
    have := (worstRatio_le rs 0xFFFF).2 e he
    rw [decide_eq_true_eq]
    unfold worstRatio at h
    omega
  rw [worseLanes, hnone]
  rfl

theorem memOnly_setLaneEq (s : State) (j : Nat) (x : LaneEq) : memOnly s (setLaneEq j x s) := ⟨fun _ => rfl, rfl, by simp⟩

/-- Lane equalizers set one after another are no loop registers. -/
theorem foldl_setLaneEq (v : BitVec 16) (l : List Nat) (s : State) :
    memOnly s (l.foldl (fun t j => setLaneEq j { tget LaneEq.zero t.loops.laneEq j with ctle := v } t) s) := by
  induction l generalizing s with
  | nil => exact ⟨fun _ => rfl, rfl, changesOnly_refl _ s⟩
  | cons j l ih =>
    exact memOnly_trans (memOnly_setLaneEq s j { tget LaneEq.zero s.loops.laneEq j with ctle := v }) (ih _)

/-- The lane that a live EQ loop has adapted takes the loop's VALUE and its taps (R59). -/
theorem eqLanes_adapts {k i : Nat} {lanes : List Nat} {taps : BitVec 16} {written : Bool} {s : State} (hi : i ∈ lanes) :
    memOnly s (eqLanes k lanes i taps written true s) ∧
      tget LaneEq.zero (eqLanes k lanes i taps written true s).loops.laneEq i = { ctle := (loopOf s k).value, taps := taps } := by
  unfold eqLanes
  dsimp only
  rw [if_pos ⟨rfl, hi⟩]
  refine ⟨?_, tget_tset_self ..⟩
  refine memOnly_trans ?_ (memOnly_setLaneEq ..)
  split
  · exact foldl_setLaneEq ..
  · exact ⟨fun _ => rfl, rfl, changesOnly_refl _ s⟩

/-! ## The laws -/

/-- Settles O38: each evaluation that is due is one step by its own law. -/
theorem loopLaws : Obligations.LoopLaws := by
  intro h s mem v target limited takes gives
  refine ⟨?_, ?_, ?_, ?_, ?_, ?_⟩
  · intro n meas hready hon hlive
    have he : exec (.scrubLoopEvaluate h) s = execScrubLoopEvaluate h s := rfl
    have hdue : ¬ ((tget LoopMem.reset s.loops.mem (4 + h.idx)).ready.isEmpty = true ∧
        (!due s (tget LoopMem.reset s.loops.mem (4 + h.idx)).hour 3600000000000) = true) := by
      rintro ⟨h1, h2⟩
      obtain h | hd := hready
      · exact h (List.isEmpty_iff.mp h1)
      · rw [show due s (tget LoopMem.reset s.loops.mem (4 + h.idx)).hour 3600000000000 = true from hd] at h2
        cases h2
    rw [execScrubLoopEvaluate] at he
    simp only [hdue, if_false, show loopOn s (4 + h.idx) = true from hon, Bool.not_true, Bool.false_eq_true] at he
    refine completesWith_answer he (loopTakes_answered.mpr ?_)
    change loopTakes s n (BitVec.ofNat 16 meas) (stepValue s n _) _
    refine loopTakes_loopStep _ (memOnly_trans (memOnly_modLoopMem ..) (memOnly_modLoopMem ..)) hlive ?_
    rw [lowRun_fst 4]
    exact stepValue_low ..
  · intro n l m hm hlong hon hlive
    have he : exec (.refrLoopEvaluate h) s = execRefrLoopEvaluate h s := rfl
    have hdue : ¬ ((!longAgo s (tget LoopMem.reset s.loops.mem (6 + h.idx)).last 100000) = true ∨ (!loopOn s (6 + h.idx)) = true) := by
      simp_all [n, mem]
    rw [execRefrLoopEvaluate, if_neg hdue] at he
    simp only [hm, show loopLive s (6 + h.idx) = true from hlive, if_true] at he
    refine completesWith_answer he (loopTakes_answered.mpr ?_)
    refine loopTakes_setLoop (fun _ => rfl) (by simp) rfl ?_ rfl
    simp [Loop.took, target, v, l, n]
  · intro n ended hits rest hr meas
    have he : exec (.prefLoopEvaluate h) s = execPrefLoopEvaluate h s := rfl
    have hready : takeReady (8 + h.idx) s = _ := takeReady_cons hr
    rw [execPrefLoopEvaluate] at he
    simp only [hready] at he
    refine ⟨fun hne hon hlive => ?_, fun hz hon hlive => ?_⟩
    · simp only [loopOn_modLoopMem, show loopOn s (8 + h.idx) = true from hon, hne, Bool.not_true, Bool.false_eq_true, if_false,
        loopOf_modLoopMem, loopHold_modLoopMem] at he
      refine completesWith_answer he (loopTakes_answered.mpr ?_)
      change loopTakes s n (BitVec.ofNat 16 meas) (stepValue s n _) _
      exact loopTakes_loopStep _ (memOnly_modLoopMem ..) hlive (stepValue_between ..)
    · simp only [loopOn_modLoopMem, show loopOn s (8 + h.idx) = true from hon, hz, Bool.not_true, Bool.false_eq_true, if_false, if_true,
        loopHold_modLoopMem] at he
      refine completesWith_answer he (loopTakes_answered.mpr ?_)
      change loopTakes s n (BitVec.ofNat 16 0) (stepValue s n _) _
      exact loopTakes_loopStep _ (memOnly_modLoopMem ..) hlive (stepValue_hold s _)
  · intro n e meas rest hr hon hlive
    have he : exec (.slotLoopEvaluate h) s = execSlotLoopEvaluate h s := rfl
    have hready : takeReady (10 + h.idx) s = _ := takeReady_cons hr
    rw [execSlotLoopEvaluate] at he
    simp only [hready, loopOn_modLoopMem, show loopOn s (10 + h.idx) = true from hon, Bool.not_true, Bool.false_eq_true, if_false,
      loopOf_modLoopMem, loopHold_modLoopMem] at he
    refine completesWith_answer he (loopTakes_answered.mpr ?_)
    change loopTakes s n (BitVec.ofNat 16 meas) (stepValue s n _) _
    refine loopTakes_loopStep _ (memOnly_trans (memOnly_modLoopMem ..) (memOnly_modLoopMem ..)) hlive ?_
    simp only [lowRun_fst, modLoopMem, State.onLoops_loops, tmod, tget_tset_self]
    exact stepValue_low ..
  · intro n e meas rest hr hon hlive
    have he : exec (.driftLoopEvaluate h) s = execDriftLoopEvaluate h s := rfl
    have hready : takeReady (12 + h.idx) s = _ := takeReady_cons hr
    rw [execDriftLoopEvaluate] at he
    simp only [hready, loopOn_modLoopMem, show loopOn s (12 + h.idx) = true from hon, Bool.not_true, Bool.false_eq_true, if_false,
      loopOf_modLoopMem, loopHold_modLoopMem] at he
    refine completesWith_answer he (loopTakes_answered.mpr ?_)
    change loopTakes s n (BitVec.ofNat 16 meas) (stepValue s n _) _
    exact loopTakes_loopStep _ (memOnly_modLoopMem ..) hlive (stepValue_between ..)
  · intro pool n lane taps code k rs i hi htarget hcalm hlive
    have he : exec (.eqLoopEvaluate pool n lane taps false code) s = execEqLoopEvaluate pool n lane taps false code s := rfl
    have hne : rs.isEmpty = false := by
      cases h : rs with
      | nil => rw [h] at hi; cases hi
      | cons x xs => rfl
    rw [execEqLoopEvaluate] at he
    dsimp only at he
    change exec _ s = answer s (if rs.isEmpty = true then s else if loopLive s k = true then _ else _) at he
    rw [hne, if_neg (by decide), if_pos hlive, worseLanes_nil htarget] at he
    simp only [List.foldl_nil, Bool.false_eq_true, if_false] at he
    obtain ⟨a, b, hstep⟩ := loopStep_live (worstRatio rs) code.toNat (decide ((worstRatio rs).toNat < (loopOf s k).target.toNat)) true hlive
    rw [hstep, show loopLive s k = true from hlive] at he
    generalize ht : setLoop k { (loopOf s k).took (worstRatio rs) (stepValue s k code.toNat) with sat := a, miss := b } s = t at he
    have htk : loopTakes s k (worstRatio rs) (stepValue s k code.toNat) t := by
      rw [← ht]
      exact loopTakes_setLoop (fun _ => rfl) (changesOnly_refl _ s) rfl rfl rfl
    obtain ⟨⟨h1, h2, h3⟩, h4⟩ := eqLanes_adapts (k := k) (taps := taps) (written := (loopOf s k).written.isSome)
      (s := modLoopMem t k fun m => { m with worse := [] }) hi
    change exec _ s = answer s (settle (eqLanes k _ i taps _ true (modLoopMem t k fun m => { m with worse := [] }))) at he
    generalize eqLanes k (rs.map (·.1)) i taps (loopOf s k).written.isSome true (modLoopMem t k fun m => { m with worse := [] }) = u
      at he h1 h2 h3 h4
    obtain ⟨t1, t2, t3, t4, t5⟩ := htk
    have hframe : changesOnly [.loops] s u := changesOnly_trans t5 (changesOnly_trans (by simp) h3)
    have hu : calm u = true :=
      (calm_congr (hframe .cache (by decide)) (hframe .atu (by decide)) (hframe .buf (by decide))).trans hcalm
    rw [settle_calm hu] at he
    refine completesWith_answer he ⟨loopTakes_answered.mpr ⟨?_, ?_, ?_, fun j hj => ?_, hframe⟩, ?_⟩
    · rw [h1, loopOf_modLoopMem, t1]
    · rw [h1, loopOf_modLoopMem, t2]
      rfl
    · rw [h1, loopOf_modLoopMem, t3]
    · rw [h1, loopOf_modLoopMem, t4 j hj]
    · rw [answered_loops, h4, loopOf_modLoopMem, t2]
      rfl

end Sys2Proof.Machine
end

section
/-! PROOFS. Configuration epochs (R310 to R315): what an advance puts in force, why it is refused, and a unit's safe point. -/

namespace Sys2Proof.Machine

open Sys2Proof.Safety

/-! ## An advance (R311, R312) -/

/-- Only the tables, the plow's state and counters differ. -/
def staleWork (s u : State) : Prop := ∃ x c n, u = { s with tables := x, cch := c, cnt := n }

theorem staleWork_trans {s u v : State} (h1 : staleWork s u) (h2 : staleWork u v) : staleWork s v := by
  obtain ⟨_, _, _, rfl⟩ := h1
  obtain ⟨_, _, _, rfl⟩ := h2
  exact ⟨_, _, _, rfl⟩

theorem staleWork_foldl {α : Type} (f : State → α → State) (hf : ∀ t a, staleWork t (f t a)) (l : List α) (s : State) :
    staleWork s (l.foldl f s) := by
  induction l generalizing s with
  | nil => exact ⟨_, _, _, rfl⟩
  | cons a l ih => exact staleWork_trans (hf s a) (ih _)

/-- What R146 marks and counts at an epoch is of the tables, the plow's queue and the counters. -/
theorem staleWork_staleEpoch (s : State) : staleWork s (staleEpoch s) := by
  refine staleWork_foldl _ (fun t p => ?_) _ s
  dsimp only
  split
  · exact ⟨_, _, _, rfl⟩
  · split
    · rw [cnt_only]
      exact ⟨_, _, _, rfl⟩
    · exact ⟨_, _, _, rfl⟩

/-- Which units switch is a matter of the domains and of the cores in service (R314). -/
theorem epochUnits_congr {s u : State} (hp : u.pwr = s.pwr) (hr : u.rep = s.rep) : epochUnits u = epochUnits s := by
  simp only [epochUnits, domRuns, domSt, coreUp, logicalCore, seqRuns, hp, hr]

theorem epochFinish_lags {s : State} (h : s.glb.lag ≠ 0) : epochFinish s = s := by
  rw [epochFinish, if_pos (.inr h)]

/-- GLB after an advance that is taken while units have to switch. -/
def advancedGlb (s : State) : Glb :=
  { s.glb with epoch := s.glb.epoch + 1, pending := true, since := s.clk.time, lag := epochUnits s }

/-- An advance that is taken puts the shadow values in force. -/
theorem epochAdvance_taken {s : State} (h : epochReason s = 0) (hu : epochUnits s ≠ 0) :
    ∃ u, epochAdvance s = (0, u) ∧ u.cur = s.shadow ∧ u.prev = s.cur ∧ u.glb = advancedGlb s ∧
      changesOnly [.cur, .prev, .glb, .tables, .cch, .cnt] s u := by
  obtain ⟨x, c, n, hs⟩ := staleWork_staleEpoch s
  unfold epochAdvance
  simp only [h, ne_eq, not_true_eq_false, if_false, hs]
  have hunits : epochUnits { s with tables := x, cch := c, cnt := n, prev := s.cur, cur := s.shadow } = epochUnits s :=
    epochUnits_congr rfl rfl
  rw [cnt_only, hunits, epochFinish_lags (by exact hu)]
  refine ⟨_, rfl, rfl, rfl, rfl, fun b hb => ?_⟩
  cases b <;> first | rfl | simp at hb

/-- A refused advance leaves the refusal and its reason. -/
theorem epochAdvance_refused {s : State} (h : epochReason s ≠ 0) :
    epochAdvance s = (epochReason s, s.onGlb fun g => { g with refused := true, reason := BitVec.ofNat 3 (epochReason s) }) := by
  unfold epochAdvance
  dsimp only
  rw [if_pos h]

/-! ## Safe points (R314, R315) -/

/-- A unit without work of its own at the switch only leaves GLB_EPOCH_LAG. -/
theorem unitSwitch_plain {s : State} {u : Nat} (hl : s.glb.lag.getLsbD u = true) (hu : u < 2 ∨ 7 < u) :
    unitSwitch u s = epochFinish (s.onGlb fun g => { g with lag := setBit g.lag u false }) := by
  rw [unitSwitch, if_pos hl]
  dsimp only
  rw [if_neg (by omega), if_neg (by omega), if_neg (by omega), if_neg (by omega)]

/-- The last unit ends the advance; without a notification word nothing else follows (R315). -/
theorem epochFinish_last {s : State} (hl : s.glb.lag = 0) (hp : s.glb.pending = true) (hn : s.glb.note = 0) :
    epochFinish s = s.onGlb fun g => { g with pending := false, epochDone := g.epoch, doneEvt := true } := by
  rw [epochFinish, if_neg (by simp [hl, hp])]
  dsimp only
  rw [if_pos (by exact hn)]

/-! ## EPOCH (R273) -/

/-- EPOCH's answer for its thread. -/
theorem thr_streamStatus_self (t : ThreadId) (f : TFields) (st : Nat) (hi : BitVec 32) (s : State) :
    thr (streamStatus t f st hi id s) t.val = ended ((thr s t.val).setG f.d.toNat (statusWord st hi)).next := by
  unfold streamStatus
  rw [thr_retire_self]
  unfold Thread.setG
  split <;> rfl

theorem thr_streamStatus_ne (t : ThreadId) (f : TFields) (st : Nat) (hi : BitVec 32) (s : State) {k : Nat} (hk : k ≠ t.val) :
    thr (streamStatus t f st hi id s) k = thr s k := thr_retire_ne t _ s hk

theorem streamStatus_frame (t : ThreadId) (f : TFields) (st : Nat) (hi : BitVec 32) (s : State) :
    changesOnly [.seq, .cnt, .tst] s (streamStatus t f st hi id s) ∧ seqKept t s (streamStatus t f st hi id s) := retire_frame t _ s

/-- EPOCH in S mode advances the epoch and goes on with its answer. -/
theorem exec_epoch {t : ThreadId} {f : TFields} {s : State} (hi : issues t [f.d.toNat] s) (hc : standsAt t (.epoch t f) s)
    (hl : onlyD f = true) (hp : (thr s t.val).part = 0) :
    exec (.epoch t f) s = answer s
      (let r := epochAdvance (fetched t s)
       if r.1 = 0 then streamStatus t f 0 r.2.glb.epoch id r.2 else streamStatus t f 13 0 id r.2) := by
  have he : exec (.epoch t f) s = execEpoch t f s := rfl
  rw [execEpoch, hl, sMode, hp] at he
  rw [he]
  exact congrArg (answer s) (instr_issues 0 _ hi hc)

/-- Settles O40: the advance by its two cases, EPOCH as the advance with an answer, and a unit's safe point. -/
theorem epochAdvances : Obligations.EpochAdvances := by
  refine ⟨?_, fun s => ⟨fun hr hu => ?_, fun hr => ?_, fun hp => by rw [epochReason, if_pos hp], fun i hl hi => ⟨fun hne => ?_, fun hz hp hn => ?_⟩⟩⟩
  · intro t f s hi hc ha hb hv hcc him s1 th hpart
    have he := exec_epoch hi hc (by simp [onlyD, onlyDI, noVC, ha, hb, hv, hcc, him]) hpart
    refine ⟨fun hr hu => ?_, fun hr => ?_⟩
    · obtain ⟨u, hadv, hcur, hprev, hglb, hkeep⟩ := epochAdvance_taken hr hu
      have hepoch : u.glb.epoch = s1.glb.epoch + 1 := by rw [hglb, advancedGlb]
      rw [hadv] at he
      dsimp only at he
      rw [if_pos rfl, hepoch] at he
      have hframe := (streamStatus_frame t f 0 (s1.glb.epoch + 1) u).1
      have hglb' := (hframe .glb (by decide)).trans hglb
      refine completesWith_answer he ⟨?_, (hframe .prev (by decide)).trans hprev, (hframe .cur (by decide)).trans hcur,
        congrArg Glb.epoch hglb', congrArg Glb.pending hglb', congrArg Glb.lag hglb'⟩
      rw [thr_answered, thr_streamStatus_self, statusWord, Nat.zero_add, thr_congr (hkeep .seq (by decide))]
    · rw [epochAdvance_refused hr] at he
      dsimp only at he
      rw [if_neg hr] at he
      have hframe := streamStatus_frame t f 13 0 (s1.onGlb fun g => { g with refused := true, reason := BitVec.ofNat 3 (epochReason s1) })
      refine completesWith_answer he ⟨⟨?_, fun k hk => ?_, hframe.2, ?_⟩, ?_⟩
      · rw [thr_answered, thr_streamStatus_self]
        rfl
      · rw [thr_answered, thr_streamStatus_ne t f _ _ _ hk]
        rfl
      · rw [changesOnly_answered]
        exact changesOnly_trans (by simp) (changesOnly_mono hframe.1 (by decide))
      · rw [answered_glb]
        exact hframe.1 .glb (by decide)
  · have he : exec .epochAdvance s = execEpochAdvance s := rfl
    obtain ⟨u, hadv, hcur, hprev, hglb, hkeep⟩ := epochAdvance_taken hr hu
    rw [execEpochAdvance, hadv] at he
    exact completesWith_answer he ⟨hcur, hprev, hkeep .shadow (by decide), hglb, changesOnly_answered.mpr hkeep⟩
  · have he : exec .epochAdvance s = execEpochAdvance s := rfl
    rw [execEpochAdvance, epochAdvance_refused hr] at he
    exact completesWith_answer he ⟨rfl, by simp⟩
  · have he : exec (.unitEpochSwitch i) s = execUnitEpochSwitch i s := rfl
    rw [execUnitEpochSwitch, if_neg (by omega), unitSwitch_plain hl hi, epochFinish_lags (by exact hne)] at he
    exact completesWith_answer he ⟨rfl, by simp⟩
  · have he : exec (.unitEpochSwitch i) s = execUnitEpochSwitch i s := rfl
    rw [execUnitEpochSwitch, if_neg (by omega), unitSwitch_plain hl hi,
      epochFinish_last (s := s.onGlb fun g => { g with lag := setBit g.lag i.val false }) hz hp hn] at he
    refine completesWith_answer he ⟨?_, by simp⟩
    simp [hz]

end Sys2Proof.Machine
end

section
/-! PROOFS. The bandwidth regulator (R303, R306 to R308): whom an arbiter grants, what a grant counts, and the end of a window. -/

namespace Sys2Proof.Machine

open Sys2Proof.Safety

/-! ## Masks of masters -/

theorem getLsbD_setBit_true {n : Nat} (v : BitVec n) (i : Nat) {j : Nat} (hj : j < n) :
    (setBit v i true).getLsbD j = (v.getLsbD j || decide (j = i)) := by
  simp only [setBit, if_true, BitVec.getLsbD_or, BitVec.getLsbD_shiftLeft, BitVec.getLsbD_ofNat, hj, decide_true, Bool.true_and]
  congr 1
  by_cases h : j = i
  · subst h
    simp [Nat.zero_lt_of_lt hj]
  · have : j < i ∨ j - i ≠ 0 := by omega
    obtain hlt | hne := this
    · simp [h, hlt]
    · obtain ⟨k, hk⟩ := Nat.exists_eq_succ_of_ne_zero hne
      simp [h, hk, Nat.testBit_succ]

theorem getLsbD_foldl_setBit {n : Nat} (p : Nat → Bool) (l : List Nat) (v : BitVec n) {j : Nat} (hj : j < n) :
    (l.foldl (fun b m => if p m then setBit b m true else b) v).getLsbD j = (v.getLsbD j || (decide (j ∈ l) && p j)) := by
  induction l generalizing v with
  | nil => simp
  | cons m l ih =>
    rw [List.foldl_cons, ih]
    cases hp : p m with
    | true =>
      simp only [if_true, getLsbD_setBit_true v m hj]
      by_cases h : j = m
      · subst h
        simp [hp]
      · simp [h]
    | false =>
      simp only [Bool.false_eq_true, if_false]
      by_cases h : j = m
      · subst h
        simp [hp]
      · simp [h]

theorem getLsbD_readyMasters (s : State) (ready : BitVec 22) {m : Nat} (hm : m < 22) :
    (readyMasters s ready).getLsbD m = (ready.getLsbD m && masterUp s m) := by
  rw [readyMasters, getLsbD_foldl_setBit (fun m => ready.getLsbD m && masterUp s m) _ _ hm]
  simp [hm]

theorem readyMasters_zero (s : State) : readyMasters s 0 = 0 := by
  apply BitVec.eq_of_getLsbD_eq
  intro i hi
  rw [getLsbD_readyMasters s 0 hi]
  simp

theorem step4Set_zero (s : State) (h : Half) : step4Set s h 0 = 0 := by
  apply BitVec.eq_of_getLsbD_eq
  intro i hi
  have := getLsbD_foldl_setBit
    (fun m => decide ((0 : BitVec 22).getLsbD m ∧ (mstat s h m).count < (mcfg (bwrView s h) h m).ceil.toNat)) (List.range 22) 0 hi
  simp only [decide_eq_true_eq] at this
  rw [step4Set, this]
  simp

theorem mem_afterRr {k m : Nat} : m ∈ afterRr k ↔ m < 22 := by
  simp only [afterRr, List.mem_map, List.mem_range]
  constructor
  · rintro ⟨i, -, rfl⟩
    exact Nat.mod_lt _ (by decide)
  · intro hm
    exact ⟨(m + 22 - (k + 1) % 22) % 22, by omega, by omega⟩

/-! ## The arbiter's choice (R303) -/

/-- Step 1 of R303: with regulation on, a ready master below its FLOOR comes first. -/
theorem bwrChoose_floor {s : State} {h : Half} {ready : BitVec 22} (unreg plow : Bool) (hen : (bwrView s h).bwrEn = true)
    (hex : ∃ m, m < 22 ∧ ready.getLsbD m = true ∧ (mstat s h m).count < (mcfg (bwrView s h) h m).floor.toNat) :
    ∃ m, bwrChoose s h ready unreg plow = .master m 1 ∧ m < 22 ∧ ready.getLsbD m = true ∧
      (mstat s h m).count < (mcfg (bwrView s h) h m).floor.toNat := by
  unfold bwrChoose
  dsimp only
  rw [if_pos hen]
  split
  next m hm =>
    have hp := List.find?_some hm
    simp only [Bool.and_eq_true, decide_eq_true_eq] at hp
    exact ⟨m, rfl, mem_afterRr.mp (List.mem_of_find?_eq_some hm), hp⟩
  next hnone =>
    obtain ⟨m, hm, hr, hc⟩ := hex
    have := List.find?_eq_none.mp hnone m (mem_afterRr.mpr hm)
    simp [hr, hc] at this

theorem find_floor_none {s : State} {h : Half} {ready : BitVec 22} (k : Nat)
    (hno : ¬ ∃ m, m < 22 ∧ ready.getLsbD m = true ∧ (mstat s h m).count < (mcfg (bwrView s h) h m).floor.toNat) :
    ((afterRr k).find? fun m => ready.getLsbD m && decide ((mstat s h m).count < (mcfg (bwrView s h) h m).floor.toNat)) = none := by
  rw [List.find?_eq_none]
  intro m hm hp
  simp only [Bool.and_eq_true, decide_eq_true_eq] at hp
  exact hno ⟨m, mem_afterRr.mp hm, hp⟩

/-- Work without regulation comes next. -/
theorem bwrChoose_unreg {s : State} {h : Half} {ready : BitVec 22} (plow : Bool)
    (hno : (bwrView s h).bwrEn = true →
      ¬ ∃ m, m < 22 ∧ ready.getLsbD m = true ∧ (mstat s h m).count < (mcfg (bwrView s h) h m).floor.toNat) :
    bwrChoose s h ready true plow = .unregulated := by
  unfold bwrChoose
  dsimp only
  split
  next hen => rw [find_floor_none _ (hno hen)]; rfl
  next => rfl

/-- With no master ready the plow is granted. -/
theorem bwrChoose_plow (s : State) (h : Half) : bwrChoose s h 0 false true = .plow := by
  have hpick : wrrPick s h 0 = none := rfl
  have hrr (k : Nat) : ((afterRr k).find? fun m => (0 : BitVec 22).getLsbD m) = none := by
    rw [List.find?_eq_none]
    intro m _
    simp
  unfold bwrChoose
  dsimp only
  rw [find_floor_none _ (by simp), step4Set_zero, hpick]
  simp only [hrr]
  split <;> simp

/-! ## Masters' counts -/

theorem mstat_setMstat (s : State) {h g : Half} {m k : Nat} (x : MStat) (hm : m < 22) (hk : k < 22) :
    mstat (setMstat h m x s) g k = if g = h ∧ k = m then x else mstat s g k := by
  have hidx : 22 * g.idx + k = 22 * h.idx + m ↔ g = h ∧ k = m := by
    cases g <;> cases h <;> simp [Half.idx] <;> omega
  simp only [mstat, setMstat, State.onBwr_bwr, tget_tset, hidx]

theorem changesOnly_setMstat {bs : List Block} {r s : State} {h : Half} {m : Nat} {x : MStat} (hb : Block.bwr ∈ bs) :
    changesOnly bs r (setMstat h m x s) ↔ changesOnly bs r s := changesOnly_onBwr hb

/-- The windows' own sums of grants, and its beginning. -/
def sums (s : State) : Nat × Nat × Nat × Nat × BitVec 64 := (s.bwr.allE, s.bwr.allW, s.bwr.plowE, s.bwr.plowW, s.bwr.window)

/-- The regulator's counts of grants are as before. -/
structure Tallied (s u : State) : Prop where
  frame : changesOnly [.bwr, .cnt] s u
  stat : ∀ h m, m < 22 → (mstat u h m).count = (mstat s h m).count ∧ (mstat u h m).last = (mstat s h m).last
  sums : sums u = sums s

theorem Tallied.refl (s : State) : Tallied s s := ⟨changesOnly_refl _ s, fun _ _ _ => ⟨rfl, rfl⟩, rfl⟩

theorem Tallied.trans {s u v : State} (h1 : Tallied s u) (h2 : Tallied u v) : Tallied s v where
  frame := changesOnly_trans h1.frame h2.frame
  stat h m hm := ⟨(h2.stat h m hm).1.trans (h1.stat h m hm).1, (h2.stat h m hm).2.trans (h1.stat h m hm).2⟩
  sums := h2.sums.trans h1.sums

/-- What a grant found ready is noted beside the counts. -/
theorem tallied_noteReady (h : Half) (ready : BitVec 22) (s : State) : Tallied s (noteReady h ready s) := by
  have hlt : ∀ m ∈ setMembers ready, m < 22 := fun m hm => by simpa using (List.mem_filter.mp hm).1
  unfold noteReady
  generalize setMembers ready = l at hlt
  induction l generalizing s with
  | nil => exact Tallied.refl s
  | cons m l ih =>
    refine Tallied.trans ⟨(changesOnly_setMstat (by decide)).mpr (changesOnly_refl _ s), fun g k hk => ?_, rfl⟩
      (ih _ fun k hk => hlt k (List.mem_cons_of_mem _ hk))
    rw [mstat_setMstat s _ (hlt m List.mem_cons_self) hk]
    split
    next he => exact ⟨by rw [he.1, he.2], by rw [he.1, he.2]⟩
    next => exact ⟨rfl, rfl⟩

/-! ## The end of a window (R306, R307) -/

/-- A master's counts at the end of a window of `all` grants. -/
def closedStat (all floor : Nat) (x : MStat) : MStat :=
  { x with last := BitVec.ofNat 14 x.count, floorMiss := x.floorMiss || decide (0 < all ∧ x.ready = all ∧ x.count + 1 < floor),
           count := 0, ready := 0 }

/-- The end of a window for master m. -/
def closeStep (h : Half) (all : Nat) (floor : Nat → Nat) (t : State) (m : Nat) : State :=
  let x := mstat t h m
  let missed : Bool := decide (0 < all ∧ x.ready = all ∧ x.count + 1 < floor m)
  let t := if missed then t.onBwr fun b => { b with errMiss := true } else t
  setMstat h m { x with last := BitVec.ofNat 14 x.count, floorMiss := x.floorMiss || missed, count := 0, ready := 0 } t

/-- The end of a window for master m closes its counts alone. -/
theorem closeStep_spec (h : Half) (all : Nat) (floor : Nat → Nat) (t : State) {m : Nat} (hm : m < 22) :
    changesOnly [.bwr, .cnt] t (closeStep h all floor t m) ∧ sums (closeStep h all floor t m) = sums t ∧
      ∀ g k, k < 22 → mstat (closeStep h all floor t m) g k = if g = h ∧ k = m then closedStat all (floor m) (mstat t h m) else mstat t g k := by
  unfold closeStep
  dsimp only
  split
  · exact ⟨by simp [changesOnly_setMstat], rfl, fun g k hk => mstat_setMstat _ _ hm hk⟩
  · exact ⟨by simp [changesOnly_setMstat], rfl, fun g k hk => mstat_setMstat _ _ hm hk⟩

theorem foldl_closeStep (h : Half) (all : Nat) (floor : Nat → Nat) (l : List Nat) (hl : l.Nodup) (hlt : ∀ m ∈ l, m < 22) (s : State) :
    changesOnly [.bwr, .cnt] s (l.foldl (closeStep h all floor) s) ∧ sums (l.foldl (closeStep h all floor) s) = sums s ∧
      ∀ g k, k < 22 → mstat (l.foldl (closeStep h all floor) s) g k =
        if g = h ∧ k ∈ l then closedStat all (floor k) (mstat s h k) else mstat s g k := by
  induction l generalizing s with
  | nil => exact ⟨changesOnly_refl _ s, rfl, fun g k _ => by simp⟩
  | cons m l ih =>
    obtain ⟨hn, hl⟩ := List.nodup_cons.mp hl
    obtain ⟨f1, s1, m1⟩ := closeStep_spec h all floor s (hlt m List.mem_cons_self)
    obtain ⟨f2, s2, m2⟩ := ih hl (fun k hk => hlt k (List.mem_cons_of_mem _ hk)) (closeStep h all floor s m)
    refine ⟨changesOnly_trans f1 f2, s2.trans s1, fun g k hk => ?_⟩
    rw [List.foldl_cons, m2 g k hk, m1 h k hk, m1 g k hk]
    by_cases hkm : k = m
    · subst hkm
      by_cases hg : g = h <;> simp [hg, hn]
    · by_cases hg : g = h <;> simp [hg, hkm]

/-- One half's counts at the end of a window; the other half's are as before. -/
theorem closeWindow_spec (h : Half) (s : State) :
    changesOnly [.bwr, .cnt] s (closeWindow h s) ∧
      (∀ g k, k < 22 → mstat (closeWindow h s) g k =
        if g = h then closedStat (h.pick s.bwr.allE s.bwr.allW) (mcfg (bwrView s h) h k).floor.toNat (mstat s h k) else mstat s g k) ∧
      sums (closeWindow h s) = h.pick (0, s.bwr.allW, 0, s.bwr.plowW, s.bwr.window) (s.bwr.allE, 0, s.bwr.plowE, 0, s.bwr.window) := by
  obtain ⟨f1, s1, m1⟩ := foldl_closeStep h (h.pick s.bwr.allE s.bwr.allW) (fun k => (mcfg (bwrView s h) h k).floor.toNat) (List.range 22)
    List.nodup_range (fun m hm => List.mem_range.mp hm) s
  unfold closeWindow
  unfold closeStep at f1 s1 m1
  dsimp only at f1 s1 m1 ⊢
  generalize List.foldl _ s (List.range 22) = u at f1 s1 m1 ⊢
  obtain ⟨hE, hW, hpE, hpW, hwin⟩ : u.bwr.allE = s.bwr.allE ∧ u.bwr.allW = s.bwr.allW ∧ u.bwr.plowE = s.bwr.plowE ∧
      u.bwr.plowW = s.bwr.plowW ∧ u.bwr.window = s.bwr.window := by simpa [sums] using s1
  have hcount : ∀ c : Bool, changesOnly [.bwr, .cnt] s (if c = true then cnt 0x063 (some h) none 1 u else u) ∧
      (if c = true then cnt 0x063 (some h) none 1 u else u).bwr = u.bwr := by
    rintro (_ | _)
    · exact ⟨f1, rfl⟩
    · exact ⟨(changesOnly_cnt (by decide)).mpr f1, cnt_bwr ..⟩
  generalize List.any _ _ = c
  obtain ⟨hf, hb⟩ := hcount c
  generalize (if c = true then cnt 0x063 (some h) none 1 u else u) = w at hf hb ⊢
  refine ⟨(changesOnly_onBwr (by decide)).mpr hf, fun g k hk => ?_, ?_⟩
  · have := m1 g k hk
    simp only [List.mem_range, hk, and_true] at this
    rw [← this]
    cases h <;> simp only [mstat, State.onBwr_bwr, hb]
  · cases h <;> simp only [sums, State.onBwr_bwr, hb, hE, hW, hpE, hpW, hwin, Half.pick]

/-- The settings that a half's regulator works with do not depend on its counts. -/
theorem bwrView_congr {s u : State} (h : changesOnly [.bwr, .cnt] s u) (g : Half) : bwrView u g = bwrView s g := by
  have hglb : u.glb = s.glb := h .glb (by decide)
  have hprev : u.prev = s.prev := h .prev (by decide)
  have hcur : u.cur = s.cur := h .cur (by decide)
  simp only [bwrView, viewOf, hglb, hprev, hcur]

/-- A boundary that is due closes both halves' counts; the next window has begun there. -/
theorem windowRoll_due {s : State} (h : windowDue s = true) :
    changesOnly [.bwr, .cnt] s (windowRoll s) ∧
      (∀ g k, k < 22 → mstat (windowRoll s) g k =
        closedStat (g.pick s.bwr.allE s.bwr.allW) (mcfg (bwrView s g) g k).floor.toNat (mstat s g k)) ∧
      sums (windowRoll s) = (0, 0, 0, 0, BitVec.ofNat 64 (s.clk.time.toNat / 1000 * 1000)) := by
  obtain ⟨f1, m1, s1⟩ := closeWindow_spec .e s
  obtain ⟨f2, m2, s2⟩ := closeWindow_spec .w (closeWindow .e s)
  have hview := bwrView_congr f1 .w
  simp only [sums, Half.pick, Prod.mk.injEq] at s1 s2
  obtain ⟨hE, hW, hpE, hpW, hwin⟩ := s1
  obtain ⟨hE', hW', hpE', hpW', hwin'⟩ := s2
  rw [windowRoll, if_pos h]
  refine ⟨(changesOnly_onBwr (by decide)).mpr (changesOnly_trans f1 f2), fun g k hk => ?_, ?_⟩
  · refine (m2 g k hk).trans ?_
    cases g with
    | e => rw [if_neg (by decide), m1 .e k hk, if_pos rfl]
    | w => rw [if_pos rfl, m1 .w k hk, if_neg (by decide), hview, Half.pick, hW]; rfl
  · simp only [sums, State.onBwr_bwr, hE', hW', hpE', hpW', hE, hpE]

theorem windowRoll_early {s : State} (h : s.clk.time.toNat / 1000 ≤ s.bwr.window.toNat / 1000) : windowRoll s = s := by
  rw [windowRoll, if_neg]
  simpa [windowDue] using h

/-! ## A grant (R303, R306) -/

/-- The sums of half h after a grant to `plows` plow steps more. -/
def grantSums (h : Half) (plows : Nat) (x : Nat × Nat × Nat × Nat × BitVec 64) : Nat × Nat × Nat × Nat × BitVec 64 :=
  h.pick (x.1 + 1, x.2.1, x.2.2.1 + plows, x.2.2.2.1, x.2.2.2.2) (x.1, x.2.1 + 1, x.2.2.1, x.2.2.2.1 + plows, x.2.2.2.2)

/-- The state in which a grant is given: what is ready is noted, and the grant counted. -/
def noted (h : Half) (ready : BitVec 22) (s : State) : State :=
  (noteReady h ready s).onBwr fun b => match h with
    | .e => { b with allE := b.allE + 1 }
    | .w => { b with allW := b.allW + 1 }

theorem noted_spec (h : Half) (ready : BitVec 22) (s : State) :
    changesOnly [.bwr, .cnt] s (noted h ready s) ∧ sums (noted h ready s) = grantSums h 0 (sums s) ∧
      ∀ g m, m < 22 → (mstat (noted h ready s) g m).count = (mstat s g m).count ∧ (mstat (noted h ready s) g m).last = (mstat s g m).last := by
  obtain ⟨hf, hm, hs⟩ := tallied_noteReady h ready s
  refine ⟨(changesOnly_onBwr (by decide)).mpr hf, ?_, fun g m hlt => ?_⟩
  · rw [← hs]
    cases h <;> rfl
  · rw [← (hm g m hlt).1, ← (hm g m hlt).2]
    cases h <;> exact ⟨rfl, rfl⟩

theorem arbitrate_grants {h : Half} {ready : BitVec 22} {unreg plow : Bool} {s : State} {g : Grantee}
    (hg : bwrChoose (windowRoll s) h ready unreg plow = g) (hne : g ≠ .nobody) :
    arbitrate h ready unreg plow s = giveGrant h g ready (noted h ready (windowRoll s)) := by
  unfold arbitrate
  dsimp only
  rw [hg]
  cases g with
  | nobody => exact absurd rfl hne
  | _ => rfl

theorem giveGrant_unregulated (h : Half) (ready : BitVec 22) (s : State) :
    changesOnly [.bwr, .cnt] s (giveGrant h .unregulated ready s) ∧ (giveGrant h .unregulated ready s).bwr = s.bwr :=
  ⟨(changesOnly_cnt (by decide)).mpr (changesOnly_refl _ s), cnt_bwr ..⟩

theorem giveGrant_plow (h : Half) (ready : BitVec 22) (s : State) :
    changesOnly [.bwr, .cnt] s (giveGrant h .plow ready s) ∧ (giveGrant h .plow ready s).bwr.ms = s.bwr.ms ∧
      (h.pick (giveGrant h .plow ready s).bwr.allE (giveGrant h .plow ready s).bwr.allW = h.pick s.bwr.allE s.bwr.allW) ∧
      (h.pick (giveGrant h .plow ready s).bwr.plowE (giveGrant h .plow ready s).bwr.plowW = h.pick s.bwr.plowE s.bwr.plowW + 1) := by
  refine ⟨by simp [giveGrant], ?_, ?_, ?_⟩ <;> rw [giveGrant, cnt_bwr] <;> cases h <;> rfl

/-- A grant to work without regulation counts for no master. -/
theorem arbitrate_unreg {h : Half} {ready : BitVec 22} (plow : Bool) {s : State}
    (hno : (bwrView (windowRoll s) h).bwrEn = true →
      ¬ ∃ m, m < 22 ∧ ready.getLsbD m = true ∧ (mstat (windowRoll s) h m).count < (mcfg (bwrView (windowRoll s) h) h m).floor.toNat) :
    changesOnly [.bwr, .cnt] (windowRoll s) (arbitrate h ready true plow s) ∧
      sums (arbitrate h ready true plow s) = grantSums h 0 (sums (windowRoll s)) ∧
      ∀ m, m < 22 → (mstat (arbitrate h ready true plow s) h m).count = (mstat (windowRoll s) h m).count ∧
        (mstat (arbitrate h ready true plow s) h m).last = (mstat (windowRoll s) h m).last := by
  obtain ⟨nf, ns, nm⟩ := noted_spec h ready (windowRoll s)
  obtain ⟨gf, gb⟩ := giveGrant_unregulated h ready (noted h ready (windowRoll s))
  rw [arbitrate_grants (bwrChoose_unreg plow hno) (by decide)]
  refine ⟨changesOnly_trans nf gf, ?_, fun m hm => ?_⟩
  · rw [← ns, sums, gb]
    rfl
  · rw [mstat, gb]
    exact nm h m hm

/-- A grant of step 1 counts for its master alone. -/
theorem giveGrant_floor (h : Half) {m : Nat} (hm : m < 22) (ready : BitVec 22) (s : State) :
    changesOnly [.bwr, .cnt] s (giveGrant h (.master m 1) ready s) ∧ sums (giveGrant h (.master m 1) ready s) = sums s ∧
      ∀ k, k < 22 → (mstat (giveGrant h (.master m 1) ready s) h k).count = (mstat s h k).count + if k = m then 1 else 0 := by
  unfold giveGrant countGrant
  dsimp only
  rw [if_neg (by decide)]
  refine ⟨?_, ?_, fun k hk => ?_⟩
  · rw [changesOnly_setMstat (by decide)]
    simp
  · cases h <;> simp [sums, setMstat]
  · rw [mstat_setMstat _ _ hm hk]
    by_cases hkm : k = m
    · subst hkm
      cases h <;> simp [mstat]
    · cases h <;> simp [mstat, hkm]

/-! ## The statement -/

theorem sums_pick {s u : State} {h : Half} {n : Nat} (hs : sums u = grantSums h n (sums s)) :
    h.pick u.bwr.allE u.bwr.allW = h.pick s.bwr.allE s.bwr.allW + 1 ∧ h.pick u.bwr.plowE u.bwr.plowW = h.pick s.bwr.plowE s.bwr.plowW + n := by
  cases h <;> simp only [sums, grantSums, Half.pick, Prod.mk.injEq] at hs ⊢ <;> exact ⟨by omega, by omega⟩

/-- A grant command of a half that is on is the arbiter's own grant. -/
theorem exec_arrayGrant {h : Half} {ready : BitVec 22} {unreg plow : Bool} {s : State} (hd : domOn s (h.pick 3 4) = true)
    (hw : ¬ (readyMasters s ready = 0 ∧ unreg = false ∧ plow = false)) :
    exec (.arrayGrant h ready unreg plow) s = answer s (arbitrate h (readyMasters s ready) unreg plow s) := by
  have he : exec (.arrayGrant h ready unreg plow) s = execArrayGrant h ready unreg plow s := rfl
  rw [execArrayGrant] at he
  dsimp only at he
  rwa [if_neg (by simpa [hd] using hw)] at he

/-- Settles O39: the arbiter's choice by R303's steps, the grant's count, and the windows that end. -/
theorem regulation : Obligations.Regulation := by
  refine ⟨?_, ?_⟩
  · intro h ready s v below all plows same hd
    refine ⟨fun hr => ?_, fun hdue hen plow => ?_, fun hearly => ⟨fun unreg plow hen hex => ?_, fun plow hno => ?_, fun hr => ?_⟩⟩
    · subst hr
      have he : exec (.arrayGrant h 0 false false) s = execArrayGrant h 0 false false s := rfl
      rw [execArrayGrant] at he
      dsimp only at he
      rw [if_pos (.inr ⟨readyMasters_zero s, by decide, by decide⟩)] at he
      exact completesWith_answer he ⟨fun _ _ => rfl, rfl, by simp⟩
    · have he := exec_arrayGrant (h := h) (ready := ready) (unreg := true) (plow := plow) hd (by simp)
      obtain ⟨hf, hm, hs⟩ := windowRoll_due (decide_eq_true hdue)
      have hen' : (bwrView (windowRoll s) h).bwrEn = false := by rw [bwrView_congr hf]; exact hen
      obtain ⟨uf, us, um⟩ := arbitrate_unreg (s := s) (h := h) (ready := readyMasters s ready) plow (by simp [hen'])
      obtain ⟨p1, p2⟩ := sums_pick us
      simp only [sums, Prod.mk.injEq] at hs
      refine completesWith_answer he ⟨p1.trans ?_, p2.trans ?_, fun m hlt => ?_, changesOnly_answered.mpr (changesOnly_trans hf uf)⟩
      · simp only [hs]
        cases h <;> rfl
      · simp only [hs]
        cases h <;> rfl
      · obtain ⟨c1, c2⟩ := um m hlt
        rw [hm h m hlt] at c1 c2
        exact ⟨c1, c2⟩
    · have hex' : ∃ m, m < 22 ∧ (readyMasters s ready).getLsbD m = true ∧ (mstat s h m).count < (mcfg (bwrView s h) h m).floor.toNat := by
        obtain ⟨m, hm, hr, hup, hc⟩ := hex
        exact ⟨m, hm, by rw [getLsbD_readyMasters s ready hm, hr, hup]; rfl, hc⟩
      have hroll := windowRoll_early hearly
      obtain ⟨m, hg, hm, hr, hc⟩ := bwrChoose_floor unreg plow hen hex'
      have he := exec_arrayGrant (h := h) (ready := ready) (unreg := unreg) (plow := plow) hd (by
        rintro ⟨hz, -⟩
        simp [hz] at hr)
      rw [arbitrate_grants (g := .master m 1) (by rw [hroll]; exact hg) (by simp), hroll] at he
      rw [getLsbD_readyMasters s ready hm, Bool.and_eq_true] at hr
      obtain ⟨nf, ns, nm⟩ := noted_spec h (readyMasters s ready) s
      obtain ⟨gf, gs, gm⟩ := giveGrant_floor h hm (readyMasters s ready) (noted h (readyMasters s ready) s)
      obtain ⟨p1, p2⟩ := sums_pick (gs.trans ns)
      refine completesWith_answer he ⟨m, ⟨hm, hr.1, hr.2, hc⟩, ?_, fun k hk hne => ?_, p1, p2,
        changesOnly_answered.mpr (changesOnly_trans nf gf)⟩
      · exact (gm m hm).trans (by rw [(nm h m hm).1, if_pos rfl])
      · exact (gm k hk).trans (by rw [(nm h k hk).1, if_neg hne, Nat.add_zero])
    · have hroll := windowRoll_early hearly
      have he := exec_arrayGrant (h := h) (ready := ready) (unreg := true) (plow := plow) hd (by simp)
      obtain ⟨uf, us, um⟩ := arbitrate_unreg (s := s) (h := h) (ready := readyMasters s ready) plow (by
        rw [hroll]
        rintro hen ⟨m, hm, hr, hc⟩
        rw [getLsbD_readyMasters s ready hm, Bool.and_eq_true] at hr
        exact hno hen ⟨m, hm, hr.1, hr.2, hc⟩)
      rw [hroll] at uf us um
      obtain ⟨p1, p2⟩ := sums_pick us
      exact completesWith_answer he ⟨fun m hm => (um m hm).1, p1, p2, changesOnly_answered.mpr uf⟩
    · subst hr
      have he := exec_arrayGrant (h := h) (ready := 0) (unreg := false) (plow := true) hd (by simp)
      rw [readyMasters_zero, arbitrate_grants (bwrChoose_plow _ h) (by decide), windowRoll_early hearly] at he
      obtain ⟨nf, ns, nm⟩ := noted_spec h 0 s
      obtain ⟨gf, gms, ga, gp⟩ := giveGrant_plow h 0 (noted h 0 s)
      obtain ⟨p1, p2⟩ := sums_pick ns
      refine completesWith_answer he ⟨fun m hm => ?_, ga.trans p1, gp.trans (by rw [p2]), changesOnly_answered.mpr (changesOnly_trans nf gf)⟩
      rw [← (nm h m hm).1, mstat, answered_bwr, gms]
      rfl
  · intro s hdue h6 h7
    obtain ⟨hf, hm, hs⟩ := windowRoll_due (decide_eq_true hdue)
    simp only [sums, Prod.mk.injEq] at hs
    obtain ⟨hE, hW, hpE, hpW, hwin⟩ := hs
    have he : exec .windowEnd s = answer s (windowRoll s) := by
      have hglb : (windowRoll s).glb = s.glb := hf .glb (by decide)
      have hswitch : ∀ i, s.glb.lag.getLsbD i = false → unitSwitch i (windowRoll s) = windowRoll s := fun i hi => by
        rw [unitSwitch, hglb, hi, if_neg (by decide)]
      have he : exec .windowEnd s = execWindowEnd s := rfl
      rw [he, execWindowEnd, windowEnd]
      rw [hswitch 6 h6, hswitch 7 h7, ite_self]
    refine completesWith_answer he ⟨fun h m hlt => ?_, hE, hW, hpE, hpW, ?_, changesOnly_answered.mpr hf⟩
    · have hst : mstat (answered s (windowRoll s)) h m = _ := hm h m hlt
      rw [hst]
      exact ⟨rfl, rfl, rfl, rfl⟩
    · rw [answered_bwr, hwin, BitVec.toNat_ofNat]
      omega

end Sys2Proof.Machine
end

section
/-! PROOFS. A port that is declared DOWN (R298, R202) in a machine with no work in its pipelines. -/

namespace Sys2Proof.Machine

open Sys2Proof.Safety

/-- Nothing waits in the pipelines, and nothing is outstanding with the shelf. -/
def idleLinks (s : State) : Prop := calm s = true ∧ s.cache.pool = [] ∧ s.cache.offers = []

/-- The pipelines of a calm machine are empty lists. -/
theorem idleLinks_iff {s : State} : idleLinks s ↔
    s.cache.blocked = [] ∧ s.cache.mshr = [] ∧ s.cache.invs = [] ∧ addlsIdle s = true ∧ s.buf.frees = [] ∧ s.cache.pool = [] ∧
      s.cache.offers = [] := by
  rw [idleLinks, calm_iff]
  constructor
  · rintro ⟨⟨h1, h2, h3, -, h5, h6⟩, h7, h8⟩
    exact ⟨h1, h2, h3, h5, h6, h7, h8⟩
  · rintro ⟨h1, h2, h3, h5, h6, h7, h8⟩
    exact ⟨⟨h1, h2, h3, by simp [h7], h5, h6⟩, h7, h8⟩

theorem idleLinks_of_frame {s u : State} (hf : changesOnly [.links, .cnt] s u) (h : idleLinks s) : idleLinks u := by
  have hcache : u.cache = s.cache := hf .cache (by decide)
  exact ⟨(calm_congr hcache (hf .atu (by decide)) (hf .buf (by decide))).trans h.1, by rw [hcache]; exact h.2.1, by rw [hcache]; exact h.2.2⟩

/-- The answers that a port's requests lose, and the acknowledgements it owed, are nothing where nothing waits. -/
theorem idleLinks_lose {s : State} (n : Nat) (h : idleLinks s) : idleLinks (startClear n (ackPort n (loseAnswers n s))) := by
  obtain ⟨h1, h2, h3, h5, h6, h7, h8⟩ := idleLinks_iff.mp h
  simp only [addlsIdle, Bool.and_eq_true, List.isEmpty_iff] at h5
  obtain ⟨⟨⟨a1, a2⟩, a3⟩, a4⟩ := h5
  refine idleLinks_iff.mpr ⟨?_, ?_, ?_, ?_, ?_, ?_, ?_⟩ <;>
    simp [startClear, ackPort, loseAnswers, addlsIdle, AtuHalf.lose, h1, h2, h3, h6, h7, h8, a1, a2, a3, a4]

/-- A pool port's requests and offers that end are none. -/
theorem idleLinks_pool {s : State} (f : Fin 2) (h : idleLinks s) :
    idleLinks (poolResend f (offersEnd f s)) ∧ changesOnly [.cache, .cnt] s (poolResend f (offersEnd f s)) := by
  obtain ⟨h1, h2, h3, h5, h6, h7, h8⟩ := idleLinks_iff.mp h
  have hpool : (offersEnd f s).cache.pool = [] := by simp [offersEnd, h7]
  have hres : poolResend f (offersEnd f s) = (offersEnd f s).onCache fun c => { c with pool := [] } := by
    simp [poolResend, hpool]
  rw [hres]
  constructor
  · exact idleLinks_iff.mpr ⟨by simp [offersEnd, h1], by simp [offersEnd, h2], by simp [offersEnd, h3], by simpa [offersEnd, addlsIdle] using h5,
      by simp [offersEnd, h6], rfl, by simp [offersEnd, h8]⟩
  · simp [offersEnd]

theorem changesOnly_lose (n : Nat) (s : State) :
    changesOnly [.links, .cch, .cache, .atu, .buf] s (startClear n (ackPort n (loseAnswers n s))) := by
  intro b hb
  cases b <;> first | rfl | simp at hb

/-- A port that is DOWN is so by the links' state and the clearing of sharers alone. -/
theorem portIsDown_congr {n : Nat} {s u v : State} (hl : v.links = u.links) (hc : v.cch = u.cch) (h : portIsDown n s u) : portIsDown n s v := by
  simpa only [portIsDown, portBecomes, port, link, hl, hc] using h

/-- Port n with its registers of DOWN, its transmit buffer lost, the event counted. -/
def portLost (n : Nat) (s : State) : State :=
  cnt (0x240 + n) none none 1 (setLink (setPort s n
    { port s n with state := 6, downEvt := true, degraded := false, since := s.clk.time, gen := (port s n).gen + 1 }) n LinkSt.zero)

theorem portLost_spec (n : Nat) (s : State) :
    port (portLost n s) n =
        { port s n with state := 6, downEvt := true, degraded := false, since := s.clk.time, gen := (port s n).gen + 1 } ∧
      (∀ k, k ≠ n → port (portLost n s) k = port s k) ∧ link (portLost n s) n = LinkSt.zero := by
  unfold portLost
  rw [cnt_only]
  refine ⟨port_setPort_self .., fun k hk => port_setPort_ne s _ hk, link_setLink_self ..⟩

/-- A port that was not DOWN is declared so; its machine stays without work. -/
theorem portDown_idle {n : Nat} {s : State} (h : idleLinks s) (hst : (port s n).state ≠ 6) :
    portIsDown n s (portDown n s) ∧ idleLinks (portDown n s) ∧ changesOnly [.links, .cch, .cache, .atu, .buf, .cnt] s (portDown n s) := by
  have hlost : portDown n s = if n < 6 then startClear n (ackPort n (loseAnswers n (portLost n s)))
      else poolResend (if n = 6 then 0 else 1) (offersEnd (if n = 6 then 0 else 1) (portLost n s)) := by
    unfold portDown
    dsimp only
    rw [putPort_eq _ _ _ (.inl hst)]
    rfl
  have hframe : changesOnly [.links, .cnt] s (portLost n s) := by simp [portLost]
  have hidle : idleLinks (portLost n s) := idleLinks_of_frame hframe h
  obtain ⟨hport, hother, hlink⟩ := portLost_spec n s
  rw [hlost]
  split
  next h6 =>
    refine ⟨⟨⟨hport, hother⟩, hlink, ?_⟩, idleLinks_lose n hidle, ?_⟩
    · rw [if_pos h6]
      exact congrArg (fun c : Cch => setBit c.clrBusy n true) (hframe .cch (by decide))
    · exact changesOnly_trans (changesOnly_mono hframe (by decide)) (changesOnly_mono (changesOnly_lose n _) (by decide))
  next h6 =>
    obtain ⟨hp, hf⟩ := idleLinks_pool (if n = 6 then 0 else 1) hidle
    have hlinks : (poolResend (if n = 6 then 0 else 1) (offersEnd (if n = 6 then 0 else 1) (portLost n s))).links = (portLost n s).links :=
      hf .links (by decide)
    refine ⟨⟨⟨?_, fun k hk => ?_⟩, ?_, ?_⟩, hp, ?_⟩
    · rw [port, hlinks]
      exact hport
    · rw [port, hlinks]
      exact hother k hk
    · rw [link, hlinks]
      exact hlink
    · rw [if_neg h6]
      exact congrArg Cch.clrBusy ((hf .cch (by decide)).trans (hframe .cch (by decide)))
    · exact changesOnly_trans (changesOnly_mono hframe (by decide)) (changesOnly_mono hf (by decide))

end Sys2Proof.Machine
end

section
/-! PROOFS. Unit commands (R420 to R422). -/

namespace Sys2Proof.Machine

open Sys2Proof.Safety

/-! ## Refusals -/

/-- The result of a unit command: its code and its unit. -/
def unitResult (u6 : BitVec 6) (code : BitVec 2) (s : State) : State :=
  s.onPwr fun p => { p with unitCode := code, unitUnit := u6, unitDone := true }

theorem unitCmd_none {u6 : BitVec 6} {op : Nat} {gen : BitVec 16} {s : State} (h : 48 ≤ u6.toNat) :
    unitCmd u6.toNat op gen s = unitResult u6 1 s := by
  unfold unitCmd
  dsimp only
  rw [if_pos h, BitVec.ofNat_toNat, BitVec.setWidth_eq]
  rfl

theorem unitCmd_stale {u6 : BitVec 6} {op : Nat} {gen : BitVec 16} {s : State} (h : u6.toNat < 48)
    (hg : (unitWord s u6.toNat).extractLsb' 16 16 ≠ gen) : unitCmd u6.toNat op gen s = unitResult u6 2 s := by
  unfold unitCmd
  dsimp only
  rw [if_neg (by omega), if_pos hg, BitVec.ofNat_toNat, BitVec.setWidth_eq]
  rfl

theorem unitCmd_lacks {u6 : BitVec 6} {op : Nat} {gen : BitVec 16} {s : State} (h : u6.toNat < 48)
    (hg : (unitWord s u6.toNat).extractLsb' 16 16 = gen) (hu : u6.toNat < 16 ∨ 42 ≤ u6.toNat) :
    unitCmd u6.toNat op gen s = unitResult u6 1 s := by
  unfold unitCmd
  dsimp only
  rw [if_neg (by omega), if_neg (by simpa using hg), if_pos (by simp; omega), BitVec.ofNat_toNat, BitVec.setWidth_eq]
  rfl

/-- Each unit command is `unitCmd` with its operation. -/
theorem exec_unitCommand (u6 : BitVec 6) (gen : BitVec 16) (s : State) {c : Instr}
    (hc : c ∈ [Instr.unitPortDisable u6 gen, .unitPortEnable u6 gen, .unitRecal u6 gen, .unitForceDown u6 gen, .unitFail u6 gen]) :
    ∃ op, exec c s = answer s (unitCmd u6.toNat op gen s) := by
  simp only [List.mem_cons, List.not_mem_nil, or_false] at hc
  obtain rfl | rfl | rfl | rfl | rfl := hc
  · exact ⟨0, rfl⟩
  · exact ⟨1, rfl⟩
  · exact ⟨2, rfl⟩
  · exact ⟨3, rfl⟩
  · exact ⟨3, rfl⟩

theorem completesWith_unitResult {c : Instr} {u6 : BitVec 6} {code : BitVec 2} {s : State} (he : exec c s = answer s (unitResult u6 code s)) :
    completesWith c s fun u => u.pwr = { s.pwr with unitCode := code, unitUnit := u6, unitDone := true } ∧ changesOnly [.pwr] s u :=
  completesWith_answer he ⟨rfl, by simp [unitResult]⟩

/-! ## Ports -/

/-- What an operation does to a port that takes it. -/
def portOp (op n : Nat) (s : State) : State :=
  if op = 0 then setPortEn n false s else if op = 1 then setPortEn n true s else if op = 2 then enterRecal n s else settle (forceDown n s)

theorem unitCmd_port {u6 : BitVec 6} {op : Nat} (hop : op < 4) {gen : BitVec 16} {s : State} (h1 : 16 ≤ u6.toNat) (h2 : u6.toNat < 24)
    (hg : (unitWord s u6.toNat).extractLsb' 16 16 = gen) : unitCmd u6.toNat op gen s = unitResult u6 0 (portOp op (u6.toNat - 16) s) := by
  unfold unitCmd
  dsimp only
  rw [if_neg (by omega), if_neg (by simpa using hg), if_neg (by simp [h1, h2, hop]), if_pos (by simp [h1, h2]), BitVec.ofNat_toNat,
    BitVec.setWidth_eq]
  rfl

/-- EN set on a DISABLED port of a domain that is on starts it (R296). -/
theorem setPortEn_starts {n : Nat} {s : State} (hst : (port s n).state = 0) (hd : domOn s (portDom n) = true) :
    portBecomes n { port s n with en := true, state := 1, since := s.clk.time, gen := (port s n).gen + 1 } s (setPortEn n true s) := by
  have hd' : domOn (setPort s n { port s n with en := true }) (portDom n) = true := hd
  have h0 : (port (setPort s n { port s n with en := true }) n).state = 0 := by rw [port_setPort_self]; exact hst
  unfold setPortEn
  dsimp only
  rw [if_pos rfl, if_pos ⟨by rw [h0]; rfl, hd'⟩, portTo_eq (by rw [h0]; decide), port_setPort_self]
  exact ⟨port_setPort_self .., fun k hk => (port_setPort_ne _ _ hk).trans (port_setPort_ne _ _ hk)⟩

/-- EN cleared on a port in DETECT disables it (R296). -/
theorem setPortEn_stops {n : Nat} {s : State} (hst : (port s n).state = 1) :
    portBecomes n { port s n with en := false, state := 0, since := s.clk.time, gen := (port s n).gen + 1 } s (setPortEn n false s) := by
  have h1 : (port (setPort s n { port s n with en := false }) n).state = 1 := by rw [port_setPort_self]; exact hst
  unfold setPortEn
  dsimp only
  rw [if_neg (by decide), if_pos (.inl (by rw [h1]; rfl)), portTo_eq (by rw [h1]; decide), port_setPort_self]
  exact ⟨port_setPort_self .., fun k hk => (port_setPort_ne _ _ hk).trans (port_setPort_ne _ _ hk)⟩

theorem portMoves_enterRecal {n : Nat} {s : State} (hst : (port s n).state = 4) : portMoves n 5 s (enterRecal n s) := by
  obtain ⟨c, hc⟩ := enterRecal_active (portActive_iff.mpr hst)
  rw [hc]
  exact ⟨port_setPort_self .., fun k hk => port_setPort_ne s _ hk⟩

/-- FORCE_DOWN of a port that is up declares it DOWN. -/
theorem forceDown_idle {n : Nat} {s : State} (h : idleLinks s) (h0 : (port s n).state ≠ 0) (h6 : (port s n).state ≠ 6) :
    portIsDown n s (settle (forceDown n s)) := by
  obtain ⟨hd, hidle, -⟩ := portDown_idle h h6
  rwa [forceDown, if_neg (not_or.mpr ⟨h0, h6⟩), settle_calm hidle.1]

/-! ## Cores -/

/-- A spare that is free is found for a core. -/
theorem spareFor_core {s : State} {h : Half} {c : Nat} (hc : c < 9) (hex : ∃ i, i < 9 ∧ (tgt s h i).state = 1) :
    (spareFor s h c).isSome = true := by
  obtain ⟨i, hi, hs⟩ := hex
  unfold spareFor
  simp only [hc, if_true, Option.isSome_map, List.find?_isSome]
  exact ⟨i, by simpa using hi, by simp [isSpare, hs]⟩

theorem tgt_setTgt (s : State) (h g : Half) (t k : Nat) (x : Target) (ht : t < 22) (hk : k < 22) :
    tgt (setTgt h t x s) g k = if g = h ∧ k = t then x else tgt s g k := by
  have hidx : 22 * g.idx + k = 22 * h.idx + t ↔ g = h ∧ k = t := by
    cases g <;> cases h <;> simp [Half.idx] <;> omega
  simp only [tgt, setTgt, State.onTst_tst, tget_tset, hidx]

/-- A record that is not fatal is queued while there is room (R341). -/
theorem writeRec_tail {r : Rec} (h : r.sev = 0) (s : State) :
    (writeRec r s).log.tail = if (s.log.tail - s.log.head).toNat < 64 then s.log.tail + 1 else s.log.tail := by
  unfold writeRec
  simp only [h]
  rw [if_neg (by decide)]
  simp only [decide_eq_true_eq]
  split <;> rfl

/-- The generations that a change of units counts are of the power block. -/
theorem genBump_eq (s t : State) : ∃ g, genBump s t = t.onPwr fun p => { p with unitGen := g } := by
  have hstep : ∀ l : List Nat, ∀ v : State, (∃ g, v = t.onPwr fun p => { p with unitGen := g }) →
      ∃ g, l.foldl (fun v i => if unitOwn s (24 + i) = unitOwn v (24 + i) then v
        else v.onPwr fun p => { p with unitGen := tmod 0 p.unitGen (24 + i) (· + 1) }) v = t.onPwr fun p => { p with unitGen := g } := by
    intro l
    induction l with
    | nil => exact fun v hv => hv
    | cons i l ih =>
      rintro v ⟨g, rfl⟩
      refine ih _ ?_
      dsimp only
      split
      · exact ⟨g, rfl⟩
      · exact ⟨_, rfl⟩
  exact hstep _ t ⟨_, rfl⟩

/-- A half's repairs stop at a core that waits for its swap-in (R360). -/
theorem repairs_core_waits {s : State} {h : Half} {n : Nat} {t : Fin 22} {ts : List (Fin 22)}
    (hw : h.pick s.rep.waitE s.rep.waitW = t :: ts) (ht : t.val < 9) (hs : (spareFor s h t.val).isSome = true) : repairs h (n + 1) s = s := by
  rw [repairs, hw]
  exact if_pos ⟨ht, hs⟩

/-- The failure of a core in service that a spare can replace: a record, and the core waits for its swap-in (R351, R360). -/
theorem failTarget_waits {s : State} {h : Half} {t : Fin 22} (step source : Nat) (expect actual : BitVec 32) (last : BitVec 64)
    (ver : BitVec 32) (ht : t.val < 9) (hst : (tgt s h t.val).state = 0) (hw : h.pick s.rep.waitE s.rep.waitW = [])
    (hex : ∃ i, i < 9 ∧ i ≠ t.val ∧ (tgt s h i).state = 1) :
    let u := failTarget h t step source expect actual last ver s
    h.pick u.rep.waitE u.rep.waitW = [t] ∧ u.tst.stat.getLsbD 0 = true ∧
      u.log.tail = if (s.log.tail - s.log.head).toNat < 64 then s.log.tail + 1 else s.log.tail := by
  have hns : isSpare (tgt s h t.val) = false := by simp [isSpare, hst]
  intro u
  have hu : u = failTarget h t step source expect actual last ver s := rfl
  unfold failTarget at hu
  dsimp only at hu
  rw [hns, if_neg (by decide)] at hu
  generalize hs1 : setTstStat 0 _ = s1 at hu
  have hframe : changesOnly [.tst] s s1 := by
    rw [← hs1]
    simp [setTgt, setTstStat]
  have hspare : ∀ x : State, x.tst = s1.tst → (spareFor x h t.val).isSome = true := by
    intro x hx
    obtain ⟨i, hi, hne, hsp⟩ := hex
    refine spareFor_core ht ⟨i, hi, ?_⟩
    rw [tgt, hx, ← hs1]
    exact (congrArg Target.state ((tgt_setTgt s h h t.val i _ (by omega) (by omega)).trans (if_neg (by tauto)))).trans hsp
  have hact : (failRec s1 h t.val step source expect actual last ver).action = 8 := by
    simp only [failRec, hspare s1 rfl, if_true]
  rw [hact, if_neg (by decide)] at hu
  generalize hr : failRec s1 h t.val step source expect actual last ver = r at hu
  have hrep : (writeRec r s1).rep = s.rep := ((writeRec_frame r s1) .rep (by decide)).trans (hframe .rep (by decide))
  have hstat : (writeRec r s1).tst.stat.getLsbD 0 = true := by
    rw [show (writeRec r s1).tst = s1.tst from (writeRec_frame r s1) .tst (by decide), ← hs1]
    exact (getLsbD_setBit_true _ 0 (by decide)).trans (by simp)
  have htail : (writeRec r s1).log.tail = if (s.log.tail - s.log.head).toNat < 64 then s.log.tail + 1 else s.log.tail := by
    rw [writeRec_tail (by rw [← hr]; rfl), show s1.log = s.log from hframe .log (by decide)]
  have htst : (writeRec r s1).tst = s1.tst := (writeRec_frame r s1) .tst (by decide)
  generalize writeRec r s1 = v at hu hrep hstat htail htst
  generalize hw1 : v.onRep _ = w at hu
  have hwait : h.pick w.rep.waitE w.rep.waitW = [t] := by
    rw [← hw1]
    cases h <;> simpa [Half.pick, hrep] using hw
  have hkeep : changesOnly [.rep] v w := by
    rw [← hw1]
    simp
  have hwtst : w.tst = v.tst := hkeep .tst (by decide)
  rw [repairs_core_waits hwait ht (hspare w (hwtst.trans htst))] at hu
  rw [hu]
  refine ⟨hwait, by rw [hwtst]; exact hstat, ?_⟩
  rw [show w.log = v.log from hkeep .log (by decide)]
  exact htail

/-- A core in service with a spare for it fails: a record is written, and it waits for its swap-in (R357, R360). -/
theorem tstSwap_core {s : State} {h : Half} {c : Nat} (hc : c < 9) (hst : (tgt s h c).state = 0)
    (hw : h.pick s.rep.waitE s.rep.waitW = []) (hex : ∃ i, i < 9 ∧ (tgt s h i).state = 1) :
    (∃ t : Fin 22, t.val = c ∧ h.pick (tstSwap h c s).rep.waitE (tstSwap h c s).rep.waitW = [t]) ∧
      (tstSwap h c s).tst.stat.getLsbD 0 = true ∧
      (tstSwap h c s).log.tail = (if (s.log.tail - s.log.head).toNat < 64 then s.log.tail + 1 else s.log.tail) := by
  obtain ⟨i, hi, hsp⟩ := hex
  have hne : i ≠ c := fun he => by
    rw [he, hst] at hsp
    exact absurd hsp (by decide)
  have hser : serving (tgt s h c) = true := by simp [serving, hst]
  unfold tstSwap
  rw [dif_pos (by omega)]
  dsimp only
  rw [if_neg (by simp [hser, waitsRepair, hw])]
  generalize hs1 : setTgt h c _ s = s1
  have htgt (k : Nat) (hk : k < 22) (hkc : k ≠ c) : tgt s1 h k = tgt s h k := by
    rw [← hs1, tgt_setTgt s h h c k _ (by omega) hk, if_neg (by tauto)]
  have hself : (tgt s1 h c).state = 0 := by
    rw [← hs1, tgt_setTgt s h h c c _ (by omega) (by omega), if_pos ⟨rfl, rfl⟩]
    exact hst
  have hframe : changesOnly [.tst] s s1 := by
    rw [← hs1]
    simp [setTgt]
  have hrep : s1.rep = s.rep := hframe .rep (by decide)
  have hlog : s1.log = s.log := hframe .log (by decide)
  obtain ⟨hwait, hstat, htail⟩ := failTarget_waits (t := ⟨c, by omega⟩) 0xFF 8 0 0 0 s1.tst.pack.ver hc hself (by rw [hrep]; exact hw)
    ⟨i, hi, hne, by rw [htgt i (by omega) hne]; exact hsp⟩
  exact ⟨⟨_, rfl, hwait⟩, hstat, by rw [htail, hlog]⟩

theorem unitCmd_core {u6 : BitVec 6} {gen : BitVec 16} {s : State} (h1 : 24 ≤ u6.toNat) (h2 : u6.toNat < 42)
    (hg : (unitWord s u6.toNat).extractLsb' 16 16 = gen) :
    unitCmd u6.toNat 3 gen s =
      unitResult u6 0 (genBump s (tstSwap (if u6.toNat < 33 then .e else .w) ((u6.toNat - 24) % 9) s)) := by
  have hh : coreHalf (u6.toNat - 24) = if u6.toNat < 33 then .e else .w := by
    simp only [coreHalf]
    split <;> split <;> first | rfl | omega
  unfold unitCmd
  dsimp only
  rw [if_neg (by omega), if_neg (by simpa using hg), if_neg (by simp [h1, h2]), if_neg (by simp; omega), BitVec.ofNat_toNat,
    BitVec.setWidth_eq, hh]
  rfl

/-- Settles O52: the refusals of every unit command, and what ports and cores do that take one. -/
theorem unitCommands : Obligations.UnitCommands := by
  intro u6 gen s n stamp cmds result only
  refine ⟨fun hn hg c hc => ?_, fun hn hg hu c hc => ?_, fun hn c hc => ?_, fun h1 h2 hg => ?_, fun h1 h2 hg => ?_⟩
  · obtain ⟨op, he⟩ := exec_unitCommand u6 gen s hc
    rw [unitCmd_stale hn hg] at he
    exact completesWith_unitResult he
  · obtain ⟨op, he⟩ := exec_unitCommand u6 gen s hc
    by_cases hlt : n < 48
    · rw [unitCmd_lacks hlt hg hu] at he
      exact completesWith_unitResult he
    · exact absurd hn hlt
  · obtain ⟨op, he⟩ := exec_unitCommand u6 gen s hc
    rw [unitCmd_none hn] at he
    exact completesWith_unitResult he
  · intro p
    refine ⟨fun hst hd => ?_, fun hst => ?_, fun hst => ?_, fun hst hcalm hpool hoff => ?_⟩
    · have he : exec (.unitPortEnable u6 gen) s = answer s (unitCmd n 1 gen s) := rfl
      rw [unitCmd_port (by decide) h1 h2 hg] at he
      exact completesWith_answer he ⟨⟨rfl, rfl, rfl⟩, setPortEn_starts hst hd⟩
    · have he : exec (.unitPortDisable u6 gen) s = answer s (unitCmd n 0 gen s) := rfl
      rw [unitCmd_port (by decide) h1 h2 hg] at he
      exact completesWith_answer he ⟨⟨rfl, rfl, rfl⟩, setPortEn_stops hst⟩
    · have he : exec (.unitRecal u6 gen) s = answer s (unitCmd n 2 gen s) := rfl
      rw [unitCmd_port (by decide) h1 h2 hg] at he
      exact completesWith_answer he ⟨⟨rfl, rfl, rfl⟩, portMoves_enterRecal hst⟩
    · have he : exec (.unitForceDown u6 gen) s = answer s (unitCmd n 3 gen s) := rfl
      rw [unitCmd_port (by decide) h1 h2 hg] at he
      have hdown := forceDown_idle ⟨hcalm, hpool, hoff⟩ (n := n - 16) (by rw [hst]; decide) (by rw [hst]; decide)
      rw [portOp, if_neg (by decide), if_neg (by decide), if_neg (by decide)] at he
      generalize settle (forceDown (n - 16) s) = v at he hdown
      exact completesWith_answer he ⟨⟨rfl, rfl, rfl⟩, portIsDown_congr rfl rfl hdown⟩
  · intro h c waits hst hw hex
    have he : exec (.unitFail u6 gen) s = answer s (unitCmd n 3 gen s) := rfl
    rw [unitCmd_core h1 h2 hg] at he
    change exec _ s = answer s (unitResult u6 0 (genBump s (tstSwap h c s))) at he
    obtain ⟨hwait, hstat, htail⟩ := tstSwap_core (s := s) (h := h) (c := c) (Nat.mod_lt _ (by decide)) hst hw hex
    obtain ⟨g, hb⟩ := genBump_eq s (tstSwap h c s)
    rw [hb] at he
    generalize tstSwap h c s = v at he hwait hstat htail
    exact completesWith_answer he ⟨⟨rfl, rfl, rfl⟩, hwait, hstat, htail⟩

end Sys2Proof.Machine
end

section
/-! PROOFS. The loss of a domain can end an epoch (R314), whose notification word (R315) then meets an uncorrectable entry of a shared
structure (R328): a fatal reset, in the midst of the command. Two statements that speak of no such state fail there. -/

namespace Sys2Proof.Machine

open Sys2Proof.Safety

/-- An epoch that the walker of half E alone has not taken up, whose notification word goes to FAR address 8, homed in half E; the entry of
the home table that this store reads is damaged beyond correction. -/
def lastUnitLags : State :=
  { State.reset with
    glb := { Glb.reset with pending := true, lag := 4, note := 1 },
    tables := { Tables.reset with damage := [(4 * 131072, 2)] } }

/-- D1 drains without work, D3 and D5 are on. -/
def drainEndsEpoch : State :=
  { lastUnitLags with
    pwr := { Pwr.reset with
      vaon := true, pwrgood := true, resetN := true,
      dom := [(1, { st := 3, gen := 0 }), (3, { st := 1, gen := 0 }), (5, { st := 1, gen := 0 })],
      cmd := some { dom := 1, on := false, force := false, since := 0, regions := [] } } }

/-- A cold reset is due; D1, D3 and D5 are still on. -/
def tripEndsEpoch : State :=
  { lastUnitLags with
    pwr := { Pwr.reset with
      vaon := true, resetN := true, resetSt := .cold,
      dom := [(1, { st := 1, gen := 0 }), (3, { st := 1, gen := 0 }), (5, { st := 1, gen := 0 })] } }

/-- The state that a command leaves satisfies a test. -/
def leaves (c : Instr) (s : State) (test : State → Bool) : Bool :=
  match exec c s with
  | .next u => test u
  | _ => false

theorem leaves_of_exec {c : Instr} {s u : State} {test : State → Bool} (h : leaves c s test = true) (he : exec c s = .next u) : test u = true := by
  rwa [leaves, he] at h

/-- The end of the drain takes every other domain down with it. -/
theorem drainEndsEpoch_loses : leaves .domainDrainEnd drainEndsEpoch (fun u => u.pwr.dom == []) = true := by decide +kernel

/-- The trip forgets the cold reset. -/
theorem tripEndsEpoch_forgets : leaves (.sensorResult 23 944) tripEndsEpoch (fun u => u.pwr.resetSt == .none) = true := by decide +kernel

/-- Refutes O51: the drain's end of D1 without work is the last unit's safe point; the notification word meets a damaged entry of the home
table, and the fatal reset puts every other domain off. -/
theorem not_domainCommands : ¬ Obligations.DomainCommands := by
  intro h
  obtain ⟨-, hcmd, -⟩ := h drainEndsEpoch
  obtain ⟨hdrain, -, -⟩ := hcmd { dom := 1, on := false, force := false, since := 0, regions := [] } rfl
  obtain ⟨u, he, ⟨-, -, -, -, hothers⟩, -⟩ := (hdrain rfl (by decide) (by decide)).1 (by decide +kernel)
  have hdom : u.pwr.dom = [] := by simpa using leaves_of_exec drainEndsEpoch_loses he
  have h3 : tget Dom.zero u.pwr.dom 3 = tget Dom.zero drainEndsEpoch.pwr.dom 3 := hothers 3 (by decide)
  rw [hdom] at h3
  exact absurd h3 (by decide)

/-- Refutes O49: at 118 °C the loss of D1 is the last unit's safe point; the notification word meets a damaged entry of the home table, and
the fatal reset forgets the cold reset that was due. -/
theorem not_sensorResults : ¬ Obligations.SensorResults := by
  intro h
  obtain ⟨u, he, -, -, -, -, hreset, -⟩ := (h 23 944 tripEndsEpoch (by decide)).2 (by decide) rfl
  have hnone : u.pwr.resetSt = .none := by simpa using leaves_of_exec tripEndsEpoch_forgets he
  rw [hnone] at hreset
  exact absurd hreset (by decide)

end Sys2Proof.Machine
end

section
/-! PROOFS. Ordered contexts (R188, R189). -/

namespace Sys2Proof.Machine

open Sys2Proof.Safety

/-- A table without the entries of some numbers. -/
theorem tget_filter {α : Type} (d : α) (p : Nat → Bool) (t : Tab α) (n : Nat) :
    tget d (t.filter fun e => p e.1) n = if p n then tget d t n else d := by
  induction t with
  | nil => simp [tget]
  | cons e t ih =>
    by_cases hp : p e.1 = true <;> by_cases hn : e.1 = n
    · subst hn
      simp [tget, hp]
    · simp [tget, hp, hn, ih]
    · subst hn
      simp [hp, ih]
    · simp [tget, hp, hn, ih]

/-! ## Entries that are discarded -/

theorem atuHalf_setAtuHalf (s : State) (h g : Half) (x : AtuHalf) : atuHalf (setAtuHalf s h x) g = if g = h then x else atuHalf s g := by
  cases g <;> cases h <;> rfl

/-- A context's entries of one half are discarded. -/
def discardHalf (n : Fin 32) (t : State) (h : Half) : State :=
  let x := atuHalf t h
  let k := (x.held.filter fun e => e.ctx == n).length
  cnt 0x023 (some h) (some (ord t n.val).part) k
    (setAtuHalf t h { x with held := x.held.filter (fun e => !(e.ctx == n)), discReset := satAdd x.discReset k })

theorem discardHeld_eq (n : Fin 32) (s : State) : discardHeld n s = discardHalf n (discardHalf n s .e) .w := rfl

theorem discardHalf_spec (n : Fin 32) (s : State) (h : Half) :
    (∃ c, discardHalf n s h = { s with atu := (discardHalf n s h).atu, cnt := c }) ∧ (discardHalf n s h).atu.ord = s.atu.ord ∧
      (discardHalf n s h).atu.next = s.atu.next ∧
      ∀ g, (atuHalf (discardHalf n s h) g).held =
        if g = h then (atuHalf s h).held.filter (fun e => !(e.ctx == n)) else (atuHalf s g).held := by
  unfold discardHalf
  dsimp only
  rw [cnt_only]
  refine ⟨⟨_, rfl⟩, ?_, ?_, fun g => ?_⟩
  · cases h <;> rfl
  · cases h <;> rfl
  · cases g <;> cases h <;> rfl

/-- What discarding a context's entries leaves: no entry of the context, and the rest of the ATU's contexts. -/
theorem discardHeld_spec (n : Fin 32) (s : State) :
    (∃ c, discardHeld n s = { s with atu := (discardHeld n s).atu, cnt := c }) ∧ (discardHeld n s).atu.ord = s.atu.ord ∧
      (discardHeld n s).atu.next = s.atu.next ∧ ∀ g, ∀ e ∈ (atuHalf (discardHeld n s) g).held, e.ctx ≠ n := by
  rw [discardHeld_eq]
  obtain ⟨⟨c1, h1⟩, o1, n1, d1⟩ := discardHalf_spec n s .e
  obtain ⟨⟨c2, h2⟩, o2, n2, d2⟩ := discardHalf_spec n (discardHalf n s .e) .w
  refine ⟨⟨c2, ?_⟩, o2.trans o1, n2.trans n1, fun g e he => ?_⟩
  · rw [h2, h1]
  · rw [d2 g] at he
    cases g with
    | e =>
      rw [if_neg (by decide), d1 .e, if_pos rfl] at he
      simpa using (List.mem_filter.mp he).2
    | w =>
      rw [if_pos rfl] at he
      simpa using (List.mem_filter.mp he).2

/-! ## Writes of a context's control (R189) -/

/-- The lines of a range homed at this slice do not depend on the ATU and on counters. -/
theorem ordHomed_discardHeld (n : Fin 32) (s : State) (x : Ord) : ordHomed (discardHeld n s) x = ordHomed s x := by
  obtain ⟨⟨c, hd⟩, -⟩ := discardHeld_spec n s
  rw [hd]
  simp only [ordHomed, decodeSa, homeOf]

theorem ord_setOrd_self (s : State) (n : Nat) (o : Ord) : ord (setOrd s n o) n = o := tget_tset_self ..

theorem changesOnly_discardHeld (n : Fin 32) (s : State) : changesOnly [.atu, .cnt] s (discardHeld n s) := by
  obtain ⟨⟨c, hd⟩, -⟩ := discardHeld_spec n s
  rw [hd]
  intro b hb
  cases b <;> first | rfl | simp at hb

/-- After a context starts, every line expects its first contributor (R188). -/
theorem ordNext_clearNext (s : State) {n l : Nat} (hl : l < 256) : ordNext (clearNext n s) n l = 0 := by
  rw [ordNext, clearNext, State.onAtu_atu, tget_filter _ (fun k => !decide (k / 256 = n))]
  rw [show (256 * n + l) / 256 = n by omega]
  simp

/-- The control fields of a write of ATU_ORD_CTL. -/
def ordWritten (o : Ord) (v : BitVec 32) : Ord :=
  { o with en := v.getLsbD 0, part := v.extractLsb' 1 5, nl := v.extractLsb' 8 8, k := v.extractLsb' 16 8 }

/-- Why a write of a context's control is refused. -/
def ordRefused (n : Fin 32) (v : BitVec 32) (s : State) : Prop :=
  let o := ord s n.val
  let x := ordWritten o v
  (o.en = true ∧ ¬ (x.part = o.part ∧ x.nl = o.nl ∧ x.k = o.k)) ∨
    (x.en = true ∧ (x.k = 0 ∨ ordRangeOk s x = false ∨ ordOverlap s n.val x = true))

/-- What a write of a context's control does once it is taken. -/
def ordTaken (n : Fin 32) (v : BitVec 32) (s : State) : State :=
  let x := ordWritten (ord s n.val) v
  if x.en then
    clearNext n.val (setOrd (discardHeld n s) n.val
      { x with err := false, tmo := false, dead := false, homed := BitVec.ofNat 9 (ordHomed (discardHeld n s) x) })
  else setOrd (discardHeld n s) n.val x

theorem exec_ordCtlWrite {n : Fin 32} {v : BitVec 32} {s : State} (hd : domOn s 5 = true ∨ domOn s 6 = true) :
    exec (.ordCtlWrite n v) s = answer s (writeOrdCtl n v s) := by
  have he : exec (.ordCtlWrite n v) s = execOrdCtlWrite n v s := rfl
  rwa [execOrdCtlWrite, ifUp, if_pos (by simpa using hd)] at he

/-- A write is taken unless it is refused (R189). -/
theorem writeOrdCtl_cases (n : Fin 32) (v : BitVec 32) (s : State) :
    (ordRefused n v s → writeOrdCtl n v s = s.onAtu fun a => { a with ordcfg := true }) ∧
      (¬ ordRefused n v s → writeOrdCtl n v s = ordTaken n v s) := by
  have hiff : ordRefused n v s ↔
      ((ord s n.val).en = true ∧ decide ((ordWritten (ord s n.val) v).part ≠ (ord s n.val).part ∨
          (ordWritten (ord s n.val) v).nl ≠ (ord s n.val).nl ∨ (ordWritten (ord s n.val) v).k ≠ (ord s n.val).k) = true) ∨
        ((ordWritten (ord s n.val) v).en = true ∧ ((ordWritten (ord s n.val) v).k = 0 ∨
          (!ordRangeOk s (ordWritten (ord s n.val) v)) = true ∨ ordOverlap s n.val (ordWritten (ord s n.val) v) = true)) := by
    unfold ordRefused
    dsimp only
    rw [Bool.not_eq_true', decide_eq_true_eq]
    tauto
  constructor
  · intro h
    rw [writeOrdCtl]
    exact if_pos (hiff.mp h)
  · intro h
    rw [writeOrdCtl]
    exact if_neg fun hc => h (hiff.mpr hc)

/-- A write that may not be taken only sets ORDCFG. -/
theorem ordCtl_refused {n : Fin 32} {v : BitVec 32} {s : State} (hd : domOn s 5 = true ∨ domOn s 6 = true) (h : ordRefused n v s) :
    completesWith (.ordCtlWrite n v) s fun u => u.atu = { s.atu with ordcfg := true } ∧ changesOnly [.atu] s u := by
  have he := exec_ordCtlWrite (n := n) (v := v) hd
  rw [(writeOrdCtl_cases n v s).1 h] at he
  exact completesWith_answer he ⟨rfl, by simp⟩

theorem changesOnly_setOrd {bs : List Block} {r s : State} {n : Nat} {o : Ord} (hb : Block.atu ∈ bs) :
    changesOnly bs r (setOrd s n o) ↔ changesOnly bs r s := changesOnly_onAtu hb

theorem changesOnly_clearNext {bs : List Block} {r s : State} {n : Nat} (hb : Block.atu ∈ bs) :
    changesOnly bs r (clearNext n s) ↔ changesOnly bs r s := changesOnly_onAtu hb

/-- Settles O42: the refusals of a write, what one that is taken leaves, and the timeout of a held contribution. -/
theorem orderedContexts : Obligations.OrderedContexts := by
  intro n s o
  obtain ⟨-, -, -, hheld⟩ := discardHeld_spec n s
  have hframe := changesOnly_discardHeld n s
  refine ⟨?_, ?_⟩
  · intro v hd x refused
    have he := exec_ordCtlWrite (n := n) (v := v) hd
    refine ⟨fun hen hne => ordCtl_refused hd (.inl ⟨hen, hne⟩), fun _ hxen hbad => ordCtl_refused hd (.inr ⟨hxen, hbad⟩),
      fun hok => ⟨fun hxen hk hr ho => ?_, fun hxen => ?_⟩⟩
    · have hnot : ¬ ordRefused n v s := by
        rintro (⟨hen, hne⟩ | ⟨-, hbad⟩)
        · obtain h0 | hsame := hok
          · exact absurd hen (by rw [h0]; decide)
          · exact hne hsame
        · obtain h0 | h1 | h2 := hbad
          · exact hk h0
          · exact absurd (hr.symm.trans h1) (by decide)
          · exact absurd (h2.symm.trans ho) (by decide)
      rw [(writeOrdCtl_cases n v s).2 hnot, ordTaken] at he
      rw [if_pos (show (ordWritten (ord s n.val) v).en = true from hxen), ordHomed_discardHeld] at he
      refine completesWith_answer he ⟨ord_setOrd_self .., fun l hl => ordNext_clearNext _ hl, fun h => ?_, ?_⟩
      · cases h
        · exact hheld .e
        · exact hheld .w
      · rw [changesOnly_answered, changesOnly_clearNext (by decide), changesOnly_setOrd (by decide)]
        exact hframe
    · have hnot : ¬ ordRefused n v s := by
        rintro (⟨hen, hne⟩ | ⟨hx, -⟩)
        · obtain h0 | hsame := hok
          · exact absurd hen (by rw [h0]; decide)
          · exact hne hsame
        · exact absurd hx (by rw [show (ordWritten (ord s n.val) v).en = false from hxen]; decide)
      rw [(writeOrdCtl_cases n v s).2 hnot, ordTaken] at he
      rw [if_neg (by rw [show (ordWritten (ord s n.val) v).en = false from hxen]; decide)] at he
      refine completesWith_answer he ⟨ord_setOrd_self .., fun h => ?_, ?_⟩
      · cases h
        · exact hheld .e
        · exact hheld .w
      · rw [changesOnly_answered, changesOnly_setOrd (by decide)]
        exact hframe
  · intro h e hmem hctx hdue
    have hlate : ((atuHalf s .e).held.any fun e => e.ctx == n && due s e.since e.limit) = true ∨
        ((atuHalf s .w).held.any fun e => e.ctx == n && due s e.since e.limit) = true := by
      have : ((atuHalf s h).held.any fun e => e.ctx == n && due s e.since e.limit) = true :=
        List.any_eq_true.mpr ⟨e, hmem, by simp [hctx, hdue]⟩
      cases h
      · exact .inl this
      · exact .inr this
    have he : exec (.ordTimeout n) s = execOrdTimeout n s := rfl
    rw [execOrdTimeout] at he
    dsimp only at he
    rw [if_pos hlate, countThaw, cnt_only] at he
    have hset : changesOnly [.atu] s (setOrd s n.val { o with err := true, tmo := true, dead := true }) := by
      rw [changesOnly_setOrd (by decide)]
      exact changesOnly_refl _ s
    have hself := ord_setOrd_self s n.val { o with err := true, tmo := true, dead := true }
    generalize setOrd s n.val { o with err := true, tmo := true, dead := true } = s1 at he hset hself
    obtain ⟨-, hord, -, hheld1⟩ := discardHeld_spec n s1
    have hframe1 := changesOnly_discardHeld n s1
    generalize discardHeld n s1 = d at he hord hheld1 hframe1
    have hkeep := changesOnly_trans (changesOnly_mono hset (by decide)) hframe1
    have hseq : d.seq = s.seq := hkeep .seq (by decide)
    refine completesWith_answer he ⟨?_, fun g => ?_, ?_, ?_⟩
    · have hsame : ord d n.val = ord s1 n.val := by rw [ord, hord]; rfl
      exact hsame.trans hself
    · cases g
      · exact hheld1 .e
      · exact hheld1 .w
    · rw [← show spReg d o.part.toNat = spReg s o.part.toNat by rw [spReg, hseq]; rfl]
      exact congrArg SeqPart.thawCnt (tget_tset_self SeqPart.zero d.seq.sp o.part.toNat _)
    · rw [changesOnly_answered, changesOnly_congr (s := d)]
      · exact changesOnly_mono hkeep (by decide)
      · intro b hb
        cases b <;> first | rfl | simp at hb

end Sys2Proof.Machine
end

section
/-! PROOFS. Patrol, refresh and error injection (R321, R323, R325, R346). -/

namespace Sys2Proof.Machine

open Sys2Proof.Safety

/-! ## What a corrected error changes -/

section
variable {bs : List Block} {r s : State}

@[simp] theorem changesOnly_writeRec {x : Rec} (h : Block.log ∈ bs) : changesOnly bs r (writeRec x s) ↔ changesOnly bs r s :=
  changesOnly_onLog (f := fun _ => (writeRec x s).log) h

@[simp] theorem changesOnly_setTstStat {i : Nat} (h : Block.tst ∈ bs) : changesOnly bs r (setTstStat i s) ↔ changesOnly bs r s :=
  changesOnly_onTst h

@[simp] theorem changesOnly_setCalve {k : Nat} {c : Calve} (h : Block.tst ∈ bs) : changesOnly bs r (setCalve k c s) ↔ changesOnly bs r s :=
  changesOnly_onTst h
end

theorem calveScan_frame (k : Nat) (s : State) : changesOnly [.tst] s (calveScan k s) := by
  unfold calveScan
  split
  · exact changesOnly_refl _ s
  · split
    · exact changesOnly_refl _ s
    · split
      · split
        · simp [calveStart]
        · exact changesOnly_refl _ s
      · split
        · simp
        · exact changesOnly_refl _ s

theorem afterCorrected_frame (k : Nat) (s : State) : changesOnly [.tst, .log] s (afterCorrected k s) := by
  unfold afterCorrected
  dsimp only
  refine changesOnly_trans ?_ (changesOnly_mono (calveScan_frame _ _) (by decide))
  split
  · simp
  · exact changesOnly_refl _ s

theorem countCorrected_frame (s : State) (key source : Nat) : changesOnly [.cnt, .tst, .loops, .log] s (countCorrected s key source) := by
  unfold countCorrected
  dsimp only
  split <;> simp

/-- What the correction of one damaged symbol leaves: the codeword is clean, every byte as it was. -/
def corrected (s u : State) : Prop :=
  changesOnly [.cache, .cnt, .tst, .loops, .log] s u ∧ u.cache = { s.cache with ecc := [] }

/-- A row whose only damage is one symbol of one codeword is corrected (R321, R322). -/
theorem checkRow_corrects {s : State} (source : Nat) {key j : Nat} (hk : key % 8 = 0) (hj : j < 32) (he : s.cache.ecc = [(4 * key + j, 1)]) :
    corrected s (checkRow source key s) := by
  have hin : 4 * (key / 8 * 8) ≤ 4 * key + j ∧ 4 * key + j < 4 * (key / 8 * 8) + 32 := by omega
  have hecc : eccOf s ((4 * key + j) / 4) ((4 * key + j) % 4) = 1 := by
    rw [eccOf, he, show 4 * ((4 * key + j) / 4) + (4 * key + j) % 4 = 4 * key + j by omega]
    simp [tget]
  have hclean : tset 0 s.cache.ecc (4 * ((4 * key + j) / 4) + (4 * key + j) % 4) 0 = [] := by
    rw [he, show 4 * ((4 * key + j) / 4) + (4 * key + j) % 4 = 4 * key + j by omega]
    simp [tset, tdel]
  have hrow : checkRow source key s = checkCodeword source ((4 * key + j) / 4) ((4 * key + j) % 4) s := by
    unfold checkRow
    dsimp only
    rw [he]
    simp [hin]
  rw [hrow, checkCodeword]
  dsimp only
  have hstate : (s.onCache fun c => { c with ecc := tset 0 c.ecc (4 * ((4 * key + j) / 4) + (4 * key + j) % 4) 0 }) =
      s.onCache fun c => { c with ecc := [] } := by simp only [State.onCache, hclean]
  rw [hecc, if_neg (by decide), if_pos rfl, hstate]
  have h2 := countCorrected_frame (s.onCache fun c => { c with ecc := [] }) ((4 * key + j) / 4) source
  have h3 := afterCorrected_frame (keyRegion ((4 * key + j) / 4))
    (countCorrected (s.onCache fun c => { c with ecc := [] }) ((4 * key + j) / 4) source)
  have h23 := changesOnly_trans (changesOnly_mono h2 (by decide)) (changesOnly_mono h3 (by decide) : changesOnly [.cnt, .tst, .loops, .log] _ _)
  refine ⟨changesOnly_trans (by simp) (changesOnly_mono h23 (by decide)), ?_⟩
  exact h23 .cache (by decide)

/-! ## A patrol step (R323) -/

/-- An activation of unregulated work only counts. -/
theorem chargeOwn_frame (h : Half) (s : State) : changesOnly [.bwr, .cnt] s (chargeOwn h s) := by
  have hroll : changesOnly [.bwr, .cnt] s (windowRoll s) := by
    cases hd : windowDue s with
    | true => exact (windowRoll_due hd).1
    | false =>
      rw [windowRoll, hd, if_neg (by decide)]
      exact changesOnly_refl _ s
  exact changesOnly_trans hroll (arbitrate_unreg false (s := s) (h := h) (ready := 0) (by simp)).1

/-- Without line CRCs to check nothing more happens to a row. -/
theorem foldl_patrolLine (l : List Nat) {s : State} (h : s.integ.lcrcChk = false) : l.foldl patrolLine s = s := by
  have hone (k : Nat) : patrolLine s k = s := by
    rw [patrolLine]
    dsimp only
    rw [if_pos (.inl (by rw [h]; rfl))]
  induction l with
  | nil => rfl
  | cons k l ih => rw [List.foldl_cons, hone, ih]

/-- A row that checks well costs its activation. -/
theorem patrolRow_checked {pos : Nat} {s t : State} (ht : checkRow 0 (rowKey pos) s = t) (hcalm : calm t = true)
    (hlcrc : t.integ.lcrcChk = false) (hdom : t.pwr = s.pwr) : changesOnly [.bwr, .cnt] t (patrolRow pos s) := by
  have hframe := chargeOwn_frame (regionHalf (pos / 65536)) t
  have hpwr : (chargeOwn (regionHalf (pos / 65536)) t).pwr = t.pwr := hframe .pwr (by decide)
  have hinteg : (chargeOwn (regionHalf (pos / 65536)) t).integ = t.integ := hframe .integ (by decide)
  have hcalm' : calm (chargeOwn (regionHalf (pos / 65536)) t) = true :=
    (calm_congr (hframe .cache (by decide)) (hframe .atu (by decide)) (hframe .buf (by decide))).trans hcalm
  unfold patrolRow
  dsimp only
  rw [ht, if_neg (by simp [wasReset, hdom]), foldl_patrolLine _ (by rw [hinteg]; exact hlcrc), if_neg (by simp [wasReset, hpwr, hdom]),
    settle_calm hcalm']
  exact hframe

theorem patrolFrom_congr {s u : State} (ht : u.tables = s.tables) (h : Half) (pos : Nat) : patrolFrom u h pos = patrolFrom s h pos := by
  simp only [patrolFrom, patrolRegions, ht]

/-- Damaged codewords are no work of the pipelines. -/
theorem calm_of_ecc {s u : State} (hc : u.cache = { s.cache with ecc := [] }) (ha : u.atu = s.atu) (hb : u.buf = s.buf) : calm u = calm s := by
  simp only [calm, quiet, addlsIdle, hc, ha, hb]

/-- A patrol step at the next row, with more rows to come. -/
theorem exec_patrolStep {h : Half} {pos next : Nat} {s v : State} (hen : s.integ.patrolEn = true) (hup : homeUp s h = true)
    (hreg : patrolRegions s h ≠ []) (hcalm : calm s = true)
    (hpos : patrolFrom s h (max (65536 * (192 * h.idx)) (tget 0 s.integ.patrol h.idx)) = some pos) (hnext : patrolFrom s h (pos + 1) = some next)
    (hv : patrolRow pos (s.onInteg fun i => { i with patrol := tset 0 i.patrol h.idx (pos + 1) }) = v) (htab : v.tables = s.tables) :
    exec (.patrolStep h) s = answer s v := by
  obtain ⟨-, hm, hi, -⟩ := calm_iff.mp hcalm
  have he : exec (.patrolStep h) s = execPatrolStep h s := rfl
  rw [execPatrolStep] at he
  dsimp only at he
  rw [if_neg (by simp [hen, hup, hreg]), hpos] at he
  dsimp only at he
  rw [if_neg (by simp [rowBusy, hm, hi]), hv, if_neg (by simp [patrolFrom_congr htab, hnext])] at he
  exact he

/-- Settles O44: a row is read, corrected where one symbol is damaged, and costs an activation. -/
theorem arrayUpkeep : Obligations.ArrayUpkeep := by
  intro s
  refine ⟨fun h pos next hen hup hreg hcalm hlcrc hpos hnext => ?_, fun die hd => ?_, fun v hd => ?_⟩
  · let s1 := s.onInteg fun i => { i with patrol := tset 0 i.patrol h.idx (pos + 1) }
    have hpatrol : changesOnly [.integ, .bwr, .cnt] s s1 := by simp [s1]
    have hcalm1 : calm s1 = true := hcalm
    refine ⟨fun hecc => ?_, fun j hj hecc => ?_⟩
    · have hrow : checkRow 0 (rowKey pos) s1 = s1 := checkRow_clean 0 (key := rowKey pos) (by simp [rowClean, s1, hecc]) rfl
      have hframe := patrolRow_checked hrow hcalm1 hlcrc rfl
      have he := exec_patrolStep hen hup hreg hcalm hpos hnext rfl (hframe .tables (by decide))
      have hcache : (patrolRow pos s1).cache = s.cache := hframe .cache (by decide)
      refine completesWith_answer he ⟨?_, sameBytes_of_data (congrArg Cache.data hcache), congrArg Cache.line hcache, ?_⟩
      · rw [answered_integ, show (patrolRow pos s1).integ = s1.integ from hframe .integ (by decide)]
        exact tget_tset_self 0 s.integ.patrol h.idx (pos + 1)
      · exact changesOnly_answered.mpr (changesOnly_trans hpatrol (changesOnly_mono hframe (by decide)))
    · obtain ⟨hcor, hcache⟩ := checkRow_corrects 0 (s := s1) (key := rowKey pos) (by unfold rowKey; omega) hj hecc
      have hframe := patrolRow_checked (t := checkRow 0 (rowKey pos) s1) rfl
        ((calm_of_ecc hcache (hcor .atu (by decide)) (hcor .buf (by decide))).trans hcalm1)
        (by rw [show (checkRow 0 (rowKey pos) s1).integ = s1.integ from hcor .integ (by decide)]; exact hlcrc) (hcor .pwr (by decide))
      have hall := changesOnly_trans (bs := [.cache, .cnt, .tst, .loops, .log, .bwr]) (changesOnly_mono hcor (by decide))
        (changesOnly_mono hframe (by decide))
      have he := exec_patrolStep hen hup hreg hcalm hpos hnext rfl (hall .tables (by decide))
      have hcache' : (patrolRow pos s1).cache = { s.cache with ecc := [] } := (hframe .cache (by decide)).trans hcache
      have hinteg : (patrolRow pos s1).integ = s1.integ := hall .integ (by decide)
      have hdata : (patrolRow pos s1).cache.data = s.cache.data := by rw [hcache']
      have hline : (patrolRow pos s1).cache.line = s.cache.line := by rw [hcache']
      have hue : (patrolRow pos s1).integ.ue = s.integ.ue := by rw [hinteg]; rfl
      refine completesWith_answer he ⟨?_, congrArg Cache.ecc hcache', sameBytes_of_data hdata, hline, hue⟩
      rw [answered_integ, hinteg]
      exact tget_tset_self 0 s.integ.patrol h.idx (pos + 1)
  · have he : exec (.refresh die) s = execRefresh die s := rfl
    rw [execRefresh, if_pos hd] at he
    exact completesWith_answer he ⟨tget_tset_self .., by simp⟩
  · have he : exec (.errorInjectArm v) s = execErrorInjectArm v s := rfl
    rw [execErrorInjectArm, ifUp, if_pos (by simpa using hd)] at he
    exact completesWith_answer he ⟨rfl, by simp [writeInj]⟩

end Sys2Proof.Machine
end

section
/-! PROOFS. Calved and retired banks (R361 to R364). -/

namespace Sys2Proof.Machine

open Sys2Proof.Safety

/-! ## Repair records that are queued (R367) -/

/-- Of the self-test's state only the queue of repair records and status bits that have come up differ, and records may have been written. -/
structure Noted (s u : State) : Prop where
  frame : changesOnly [.tst, .log] s u
  bankMap : u.tst.bankMap = s.tst.bankMap
  toRetire : u.tst.toRetire = s.tst.toRetire
  stat : ∀ i, i < 7 → s.tst.stat.getLsbD i = true → u.tst.stat.getLsbD i = true

theorem Noted.refl (s : State) : Noted s s := ⟨changesOnly_refl _ s, rfl, rfl, fun _ _ h => h⟩

theorem Noted.trans {s u v : State} (h1 : Noted s u) (h2 : Noted u v) : Noted s v where
  frame := changesOnly_trans h1.frame h2.frame
  bankMap := h2.bankMap.trans h1.bankMap
  toRetire := h2.toRetire.trans h1.toRetire
  stat i hi h := h2.stat i hi (h1.stat i hi h)

theorem noted_writeRec (r : Rec) (s : State) : Noted s (writeRec r s) := by
  have htst : (writeRec r s).tst = s.tst := (writeRec_frame r s) .tst (by decide)
  exact ⟨by simp, by rw [htst], by rw [htst], fun i _ h => by rwa [htst]⟩

theorem noted_setTstStat (i : Nat) (s : State) : Noted s (setTstStat i s) :=
  ⟨by simp, rfl, rfl, fun j hj h => (getLsbD_setBit_true _ i hj).trans (by rw [h]; rfl)⟩

theorem stat_setTstStat {i : Nat} (hi : i < 7) (s : State) : (setTstStat i s).tst.stat.getLsbD i = true :=
  (getLsbD_setBit_true _ i hi).trans (by simp)

theorem noted_queueRepair (r : Repair) (s : State) : Noted s (queueRepair r s) := by
  unfold queueRepair
  split
  · exact Noted.refl s
  · split
    · exact (noted_setTstStat 4 s).trans (noted_writeRec _ _)
    · exact ⟨by simp, rfl, rfl, fun _ _ h => h⟩

/-! ## Calving (R361, R362) -/

theorem calve_setCalve_self (k : Nat) (c : Calve) (s : State) : calve (setCalve k c s) k = c := tget_tset_self ..

theorem calve_setCalve_ne {j k : Nat} (c : Calve) (s : State) (h : j ≠ k) : calve (setCalve k c s) j = calve s j := tget_tset_ne _ _ _ h

/-- What a scan for further calving leaves of the bank map and of the status. -/
theorem calveScan_keeps (k : Nat) (s : State) :
    (calveScan k s).tst.bankMap = s.tst.bankMap ∧ (calveScan k s).tst.stat = s.tst.stat := by
  unfold calveScan
  split
  · exact ⟨rfl, rfl⟩
  · split
    · exact ⟨rfl, rfl⟩
    · split <;> split <;> exact ⟨rfl, rfl⟩

/-- The bank that serves a region after its bank's copy has ended (R362). -/
theorem regionBank_mapped {s : State} {r k b : Nat} {sp : BitVec 6} (hk : r / 64 = k) (hb : r % 64 / 2 = b)
    (h : tget none s.tst.bankMap (34 * k + b) = some sp) : regionBank s r = 34 * k + sp.toNat := by
  subst hk hb
  unfold regionBank
  dsimp only
  rw [h]

/-- With the last row copied, the bank map names the spare (R362 step 2). -/
theorem calveSwitch_spec (k : Nat) (c : Calve) (s : State) :
    changesOnly [.tst, .log] s (calveSwitch k c s) ∧ tget none (calveSwitch k c s).tst.bankMap (34 * k + c.bank.toNat) = some c.spare ∧
      (calveSwitch k c s).tst.stat.getLsbD 2 = true := by
  unfold calveSwitch
  dsimp only
  have hq := (noted_writeRec (calveRec s k c true) (setTstStat 2 s)).trans
    (noted_queueRepair { Repair.mk0 5 (regionHalf (64 * k)) (servingBank s k c.bank.toNat % 34) c.spare.toNat with die := BitVec.ofNat 3 k } _)
  have hstat := hq.stat 2 (by decide) (stat_setTstStat (by decide) s)
  have hframe := changesOnly_trans (changesOnly_mono (noted_setTstStat 2 s).frame (by decide)) hq.frame
  generalize queueRepair _ _ = x at hq hstat hframe ⊢
  generalize hy : setCalve k _ _ = y
  obtain ⟨hmap, hst⟩ := calveScan_keeps k y
  refine ⟨changesOnly_trans hframe (changesOnly_trans ?_ (changesOnly_mono (calveScan_frame k y) (by decide))), ?_, ?_⟩
  · rw [← hy]
    simp [useBank]
  · rw [hmap, ← hy]
    exact tget_tset_self (none : Option (BitVec 6)) x.tst.bankMap (34 * k + c.bank.toNat) (some c.spare)
  · rw [hst, ← hy]
    exact hstat

/-! ## Retirement (R364) -/

/-- What the retirement of region r does to regions and blocks. -/
structure Retires (r : Nat) (s u : State) : Prop where
  frame : changesOnly [.tst, .log, .buf, .cache, .tables] s u
  region : ∀ k, region u k = if k = r then { state := 0, busy := false, retired := true } else region s k
  blk : ∀ b, blk u b = if (Machine.region s r).state = 2 ∧ b / 1024 = r then Blk.zero else blk s b
  toRetire : u.tst.toRetire = s.tst.toRetire
  stat : ∀ i, i < 7 → s.tst.stat.getLsbD i = true → u.tst.stat.getLsbD i = true

/-- Records are all that is said of a retirement. -/
theorem noted_retireRec (r : Nat) (p : Option Part) (s : State) : Noted s (retireRec r p s) := noted_writeRec _ s

theorem noted_foldl {α : Type} (f : State → α → State) (hf : ∀ t a, Noted t (f t a)) (l : List α) (s : State) : Noted s (l.foldl f s) := by
  induction l generalizing s with
  | nil => exact Noted.refl s
  | cons a l ih => exact (hf s a).trans (ih _)

/-- The owners' counts fall. -/
theorem foldl_subUsed_of {α : Type} (h : Half) (p : α → Part) (l : List α) (s : State) :
    ∃ v, l.foldl (fun s e => subUsed h (p e) s) s = s.onBuf fun u => { u with used := v } := by
  induction l generalizing s with
  | nil => exact ⟨_, rfl⟩
  | cons a l ih =>
    obtain ⟨v, hv⟩ := ih (subUsed h (p a) s)
    exact ⟨v, by rw [List.foldl_cons, hv]; rfl⟩

theorem retirePinned_spec (r : Nat) (s : State) :
    changesOnly [.tst, .log, .buf, .cache] s (retirePinned r s) ∧
      (∀ b, blk (retirePinned r s) b = if b / 1024 = r then Blk.zero else blk s b) ∧ (retirePinned r s).tst.toRetire = s.tst.toRetire ∧
      ∀ i, i < 7 → s.tst.stat.getLsbD i = true → (retirePinned r s).tst.stat.getLsbD i = true := by
  unfold retirePinned
  dsimp only
  generalize (s.buf.blk.filter fun e => decide (e.1 / 1024 = r)).filter (fun e => e.2.st == 3) = owned
  obtain ⟨v, hv⟩ := foldl_subUsed_of (regionHalf r) (fun e : Nat × Blk => e.2.owner) owned s
  rw [hv]
  generalize hx : (s.onBuf fun u => { u with used := v }).onBuf _ = x
  generalize (owned.map fun e => e.2.owner).eraseDups = owners
  have hn : Noted x (if owners.isEmpty = true then retireRec r none x else owners.foldl (fun s p => retireRec r (some p) s) x) := by
    split
    · exact noted_retireRec ..
    · exact noted_foldl _ (fun _ _ => noted_retireRec ..) _ _
  generalize (if owners.isEmpty = true then retireRec r none x else owners.foldl (fun s p => retireRec r (some p) s) x) = y at hn ⊢
  have hxf : changesOnly [.buf] s x := by
    rw [← hx]
    simp
  refine ⟨?_, fun b => ?_, hn.toRetire.trans (congrArg Tst.toRetire (hxf .tst (by decide))), fun i hi h => hn.stat i hi ?_⟩
  · rw [changesOnly_onCache (by decide)]
    exact changesOnly_trans (changesOnly_mono hxf (by decide)) (changesOnly_mono hn.frame (by decide))
  · have hbuf : y.buf = x.buf := hn.frame .buf (by decide)
    rw [blk, State.onCache_buf, hbuf, ← hx]
    exact (tget_filter Blk.zero (fun k => !decide (k / 1024 = r)) s.buf.blk b).trans (by by_cases hb : b / 1024 = r <;> simp [hb, blk])
  · rw [show x.tst = s.tst from hxf .tst (by decide)]
    exact h

theorem region_setRegion (s : State) (r k : Nat) (x : Region) : region (setRegion s r x) k = if k = r then x else region s k :=
  tget_tset ..

/-- The groups of a region that is not PINNED are nobody's. -/
def groupsRetired (r : Nat) (s : State) : State :=
  s.onTables fun t => { t with
    gown := (List.range 32).foldl (fun g i => tset 0 g (6144 * (regionHalf r).idx + 32 * (r - 192 * (regionHalf r).idx) + i) 0x3F) t.gown }

/-- The contents of a region under retirement go, and it is recorded. -/
def contentsRetired (r : Nat) (s : State) : State :=
  if (region s r).state = 2 then retirePinned r s else retireRec r none (groupsRetired r s)

theorem contentsRetired_spec (r : Nat) (s : State) :
    changesOnly [.tst, .log, .buf, .cache, .tables] s (contentsRetired r s) ∧ (contentsRetired r s).tables.region = s.tables.region ∧
      (∀ b, blk (contentsRetired r s) b = if (region s r).state = 2 ∧ b / 1024 = r then Blk.zero else blk s b) ∧
      (contentsRetired r s).tst.toRetire = s.tst.toRetire ∧
      ∀ i, i < 7 → s.tst.stat.getLsbD i = true → (contentsRetired r s).tst.stat.getLsbD i = true := by
  unfold contentsRetired
  split
  next h2 =>
    obtain ⟨hf, hb, hr, hs⟩ := retirePinned_spec r s
    refine ⟨changesOnly_mono hf (by decide), congrArg Tables.region (hf .tables (by decide)), fun b => ?_, hr, hs⟩
    rw [hb b]
    simp [h2]
  next h2 =>
    have hreg : (groupsRetired r s).tables.region = s.tables.region := by rw [groupsRetired, State.onTables_tables]
    have hxf : changesOnly [.tables] s (groupsRetired r s) := by simp [groupsRetired]
    generalize groupsRetired r s = x at hreg hxf ⊢
    have hn := noted_retireRec r none x
    have htst : x.tst = s.tst := hxf .tst (by decide)
    have htab : (retireRec r none x).tables = x.tables := hn.frame .tables (by decide)
    have hbuf : (retireRec r none x).buf = s.buf := (hn.frame .buf (by decide)).trans (hxf .buf (by decide))
    refine ⟨changesOnly_trans (changesOnly_mono hxf (by decide)) (changesOnly_mono hn.frame (by decide)), by rw [htab, hreg], fun b => ?_,
      hn.toRetire.trans (by rw [htst]), fun i hi h => hn.stat i hi (by rwa [htst])⟩
    rw [if_neg fun hx => h2 hx.1, blk, hbuf]
    rfl

/-- The repair record of a retired region (R366). -/
def retireRepair (r : Nat) (t : State) : Repair :=
  { Repair.mk0 6 (regionHalf r) (servingBank t (regionDie r) (r % 64 / 2) % 34) 0xFF with
    die := BitVec.ofNat 3 (regionDie r), region := BitVec.ofNat 16 r }

theorem retireOff_eq (r : Nat) (s : State) :
    retireOff r s = queueRepair (retireRepair r (contentsRetired r s))
      (setRegion (contentsRetired r s) r { state := 0, busy := false, retired := true }) := rfl

/-- A region that is PINNED or OFFLINE is retired. -/
theorem retireOff_retires (r : Nat) (s : State) : Retires r s (retireOff r s) := by
  obtain ⟨hf, htr, htb, htt, hts⟩ := contentsRetired_spec r s
  rw [retireOff_eq]
  generalize contentsRetired r s = t at hf htr htb htt hts
  have hn := noted_queueRepair (retireRepair r t) (setRegion t r { state := 0, busy := false, retired := true })
  have hset : changesOnly [.tables] t (setRegion t r { state := 0, busy := false, retired := true }) := by simp [setRegion]
  generalize queueRepair _ _ = u at hn ⊢
  constructor
  · exact changesOnly_trans hf (changesOnly_trans (changesOnly_mono hset (by decide)) (changesOnly_mono hn.frame (by decide)))
  · intro k
    have hreg : region u k = region (setRegion t r { state := 0, busy := false, retired := true }) k :=
      congrArg (fun x : Tables => tget Region.zero x.region k) (hn.frame .tables (by decide))
    rw [hreg, region_setRegion, region, htr]
    rfl
  · intro b
    have hblk : blk u b = blk t b := congrArg (fun x : Buf => tget Blk.zero x.blk b) (hn.frame .buf (by decide))
    rw [hblk, htb]
  · exact hn.toRetire.trans htt
  · exact fun i hi h => hn.stat i hi (hts i hi h)

/-! ## The statement -/

/-- One row of a bank under copy, verified (R362). -/
theorem exec_calveRowCopy {die : Fin 6} {s : State} (hp : (calve s die.val).phase = 1) (hd : domOn s (10 + die.val) = true)
    (hcalm : calm s = true)
    (hclean : rowClean s (2 ^ 19 * (64 * die.val + 2 * (calve s die.val).bank.toNat + (calve s die.val).rows.toNat / 65536) +
      8 * ((calve s die.val).rows.toNat % 65536)) = true) :
    ∃ c, exec (.calveRowCopy die true) s = answer s
      (if (calve s die.val).rows.toNat + 1 = 131072 then
        calveSwitch die.val { calve s die.val with rows := (calve s die.val).rows + 1 } (s.onCnt fun _ => c)
      else setCalve die.val { calve s die.val with rows := (calve s die.val).rows + 1 } (s.onCnt fun _ => c)) := by
  have he : exec (.calveRowCopy die true) s = execCalveRowCopy die true s := rfl
  rw [execCalveRowCopy] at he
  dsimp only at he
  rw [if_neg (by simp [hp, hd]), checkRow_clean 0 hclean (by unfold rowKey; omega), settle_calm hcalm, if_neg (by simp [hp]),
    if_neg (by decide), cnt_only] at he
  exact ⟨_, he⟩

/-- Retirement of a bank whose regions hold no cached line: both go, one after the other. -/
theorem exec_regionRetire {die : Fin 6} {bank : Fin 32} {s : State} (hmem : 32 * die.val + bank.val ∈ s.tst.toRetire)
    (hen : s.tst.retireEn = true) (hcalm : calm s = true)
    (hreg : ∀ k ∈ [64 * die.val + 2 * bank.val, 64 * die.val + 2 * bank.val + 1],
      ((region s k).state = 2 ∨ (region s k).state = 0) ∧ (region s k).busy = false) :
    exec (.regionRetire die bank) s = answer s
      ((retireOff (64 * die.val + 2 * bank.val + 1) (retireOff (64 * die.val + 2 * bank.val) (setTstStat 2 s))).onTst
        fun t => { t with toRetire := t.toRetire.erase (32 * die.val + bank.val) }) := by
  have hno : ∀ k ∈ [64 * die.val + 2 * bank.val, 64 * die.val + 2 * bank.val + 1],
      (region s k).state ≠ 1 ∧ (region s k).busy = false := fun k hk => by
    obtain ⟨h2 | h0, hb⟩ := hreg k hk
    · exact ⟨by rw [h2]; decide, hb⟩
    · exact ⟨by rw [h0]; decide, hb⟩
  obtain ⟨n0, b0⟩ := hno (64 * die.val + 2 * bank.val) (by simp)
  obtain ⟨n1, b1⟩ := hno (64 * die.val + 2 * bank.val + 1) (by simp)
  have he : exec (.regionRetire die bank) s = execRegionRetire die bank s := rfl
  rw [execRegionRetire] at he
  have hflush : [64 * die.val + 2 * bank.val, 64 * die.val + 2 * bank.val + 1].foldl
      (fun s r => if (region s r).state = 1 then retireCache r s else s) s = s := by
    rw [List.foldl_cons, if_neg n0, List.foldl_cons, if_neg n1, List.foldl_nil]
  dsimp only at he
  rw [hflush, settle_calm hcalm] at he
  have h1 : ¬ ((!s.tst.toRetire.contains (32 * die.val + bank.val)) = true ∨ (!s.tst.retireEn) = true ∨
      ([64 * die.val + 2 * bank.val, 64 * die.val + 2 * bank.val + 1].any fun r => (region s r).busy) = true) := by
    simp [hmem, hen, b0, b1]
  have h2 : ¬ ([64 * die.val + 2 * bank.val, 64 * die.val + 2 * bank.val + 1].any fun r => decide ((region s r).state = 1) &&
      (!(regionLines s r).isEmpty || s.cache.mshr.any fun q => keyRegion q.key == r)) = true := by
    rw [List.any_cons, List.any_cons, List.any_nil, decide_eq_false n0, decide_eq_false n1]
    exact Bool.false_ne_true
  rw [if_neg h1, if_neg h2] at he
  exact he

/-- Settles O47: the start of a calving, its rows, and the retirement of two regions in turn. -/
theorem banksCalved : Obligations.BanksCalved := by
  intro s
  refine ⟨?_, ?_, ?_⟩
  · intro die bank k spare
    have hspare : spareBank s k = spare.map (·.toNat) := by
      simp only [spareBank, spare, Bool.not_eq_true']
      split
      · rfl
      · split <;> rfl
    refine ⟨fun sp hk hp hd hs => ?_, fun hbad => ?_⟩
    · have he : exec (.tstCalveGo die bank) s = answer s (calveGo k bank.toNat s) := rfl
      have hk' : ¬ 5 < k := Nat.not_lt.mpr (Nat.le_of_lt_succ hk)
      rw [calveGo, if_neg (by simp [hp, hd, hk']), hspare, hs] at he
      refine completesWith_answer he ⟨?_, fun j hj => calve_setCalve_ne _ s hj, by simp [calveStart]⟩
      refine (calve_setCalve_self ..).trans ?_
      simp
    · have he : exec (.tstCalveGo die bank) s = answer s (calveGo k bank.toNat s) := rfl
      have hcase : calveGo k bank.toNat s = setTstStat 6 s := by
        rw [calveGo]
        split
        · rfl
        · next hno =>
          rw [hspare, show spare = none by
            obtain h | h | h | h := hbad
            · exact absurd (.inl h) hno
            · exact absurd (.inr (.inl h)) hno
            · exact absurd (.inr (.inr (by simp [k, h]))) hno
            · exact h]
          rfl
      rw [hcase] at he
      exact completesWith_answer he ⟨rfl, by simp⟩
  · intro die k c row hp hd hclean hcalm
    obtain ⟨n, he⟩ := exec_calveRowCopy hp hd hcalm hclean
    have hb : c.bank.toNat < 32 := c.bank.isLt
    have hpos (n : Nat) (hn : n < 2) : (64 * k + 2 * c.bank.toNat + n) / 64 = k ∧ (64 * k + 2 * c.bank.toNat + n) % 64 / 2 = c.bank.toNat := by
      omega
    refine ⟨fun hlt => ?_, fun heq => ?_⟩
    · have hlast : ¬ (calve s die.val).rows.toNat + 1 = 131072 := Nat.ne_of_lt (Nat.succ_lt_succ hlt)
      rw [if_neg hlast] at he
      exact completesWith_answer he ⟨calve_setCalve_self .., sameBytes_refl s, by simp⟩
    · have hlast : (calve s die.val).rows.toNat + 1 = 131072 := congrArg Nat.succ heq
      rw [if_pos hlast] at he
      obtain ⟨hf, hmap, hst⟩ := calveSwitch_spec die.val { c with rows := c.rows + 1 } (s.onCnt fun _ => n)
      generalize calveSwitch _ _ _ = u at he hf hmap hst
      refine completesWith_answer he ⟨?_, ?_, ?_, hst⟩
      · exact regionBank_mapped (hpos 0 (by decide)).1 (hpos 0 (by decide)).2 hmap
      · exact regionBank_mapped (hpos 1 (by decide)).1 (hpos 1 (by decide)).2 hmap
      · exact sameBytes_of_data (congrArg Cache.data (hf .cache (by decide)))
  · intro die bank r hmem hen hcalm hreg
    have he := exec_regionRetire hmem hen hcalm hreg
    have g1 := retireOff_retires r (setTstStat 2 s)
    generalize retireOff r (setTstStat 2 s) = u at he g1
    have g2 := retireOff_retires (r + 1) u
    generalize retireOff (r + 1) u = v at he g2
    have hst : region (setTstStat 2 s) = region s := rfl
    refine completesWith_answer he ⟨?_, ?_, fun k h1 h2 => ?_, fun k hk hpin b hb => ?_, ?_, ?_⟩
    · exact (g2.region r).trans (by rw [if_neg (by omega), g1.region, if_pos rfl])
    · exact (g2.region (r + 1)).trans (if_pos rfl)
    · exact (g2.region k).trans (by rw [if_neg h2, g1.region, if_neg h1]; rfl)
    · have hblk : blk v b = Blk.zero := by
        rw [g2.blk, g1.blk, g1.region, hst]
        simp only [List.mem_cons, List.not_mem_nil, or_false] at hk
        obtain rfl | rfl := hk
        · simp [hb, hpin]
        · simp [hb, hpin]
      exact hblk
    · exact congrArg (fun l => List.erase l (32 * die.val + bank.val)) (g2.toRetire.trans g1.toRetire)
    · exact g2.stat 2 (by decide) (g1.stat 2 (by decide) (stat_setTstStat (by decide) s))

end Sys2Proof.Machine
end

section
/-! PROOFS. The pattern pack, repair records in flash, and aging monitors (R353 to R356, R365 to R369). -/

namespace Sys2Proof.Machine

open Sys2Proof.Safety

/-! ## Lines that have been read -/

theorem length_toBytes (n v : Nat) : (toBytes n v).length = n := by
  induction n generalizing v with
  | zero => rfl
  | succ n ih => simp [toBytes, ih]

/-- The number of lines of n bytes from sa. -/
def rangeLines (sa : Sa) (n : Nat) : Nat := (sa.toNat % 128 + n + 127) / 128

/-- The read of line i of a range, unless it fails decode. -/
def rangeReq (s : State) (c : Consumer) (sa : Sa) (i : Nat) : Option (Nat × LineReq) :=
  match ownHome s .e (lineOf sa + BitVec.ofNat 52 (128 * i)) Rights.rd with
  | none => none
  | some h => some (i, mkReq s (.buf c i) (.read .line none false) (lineOf sa + BitVec.ofNat 52 (128 * i)) 0 h h)

theorem rangeReqs_eq (s : State) (c : Consumer) (sa : Sa) (n : Nat) :
    rangeReqs s c sa n = if ((List.range (rangeLines sa n)).filterMap (rangeReq s c sa)).length = rangeLines sa n then
      some ((List.range (rangeLines sa n)).filterMap (rangeReq s c sa)) else none := rfl

theorem rangeReq_fst {s : State} {c : Consumer} {sa : Sa} {i : Nat} {e : Nat × LineReq} (h : rangeReq s c sa i = some e) : e.1 = i := by
  unfold rangeReq at h
  split at h
  · cases h
  · cases h
    rfl

/-- Reads that all decode are the reads of every line, in order. -/
theorem filterMap_rangeReq (s : State) (c : Consumer) (sa : Sa) (l : List Nat) (h : ∀ i ∈ l, (rangeReq s c sa i).isSome = true) :
    (l.filterMap (rangeReq s c sa)).map (·.1) = l := by
  induction l with
  | nil => rfl
  | cons i l ih =>
    obtain ⟨e, he⟩ := Option.isSome_iff_exists.mp (h i List.mem_cons_self)
    rw [List.filterMap_cons_some he, List.map_cons, ih fun j hj => h j (List.mem_cons_of_mem _ hj), rangeReq_fst he]

/-- A range that decodes asks for its lines in order, and so does each shorter one. -/
theorem rangeReqs_shorter {s : State} {c : Consumer} {sa : Sa} {m n : Nat} {rs : List (Nat × LineReq)} (h : rangeReqs s c sa n = some rs)
    (hmn : m ≤ n) : ∃ qs, rangeReqs s c sa m = some qs ∧ qs.map (·.1) = List.range (rangeLines sa m) := by
  rw [rangeReqs_eq] at h
  split at h
  case isFalse => cases h
  case isTrue hlen =>
    have hall : ∀ i ∈ List.range (rangeLines sa n), (rangeReq s c sa i).isSome = true :=
      List.filterMap_length_eq_length.mp (hlen.trans List.length_range.symm)
    have hle : rangeLines sa m ≤ rangeLines sa n := Nat.div_le_div_right (by omega)
    have hall' : ∀ i ∈ List.range (rangeLines sa m), (rangeReq s c sa i).isSome = true := fun i hi =>
      hall i (List.mem_range.mpr (Nat.lt_of_lt_of_le (List.mem_range.mp hi) hle))
    refine ⟨_, ?_, filterMap_rangeReq s c sa _ hall'⟩
    rw [rangeReqs_eq, if_pos]
    rw [List.filterMap_length_eq_length.mpr hall', List.length_range]

/-- What the lines asked for by a unit have delivered, in order. -/
def gotLines (s : State) (c : Consumer) (k : Nat) : List LineRes := (List.range k).filterMap fun i => gotOf s c i

/-- Every access of the unit is issued and answered. -/
def allGot (s : State) (c : Consumer) (k : Nat) : Prop :=
  ∀ i, i < k → s.cache.asked.contains (c, i) = true ∧ ∃ r, gotOf s c i = some r ∧ r.status = 0

theorem length_gotLines {s : State} {c : Consumer} {k : Nat} (h : allGot s c k) : (gotLines s c k).length = k := by
  rw [gotLines, List.filterMap_length_eq_length.mpr, List.length_range]
  intro i hi
  obtain ⟨-, r, hr, -⟩ := h i (List.mem_range.mp hi)
  rw [hr]
  rfl

/-- A unit whose accesses are all answered collects them; nothing else happens in a calm machine. -/
theorem collect_got {s : State} {c : Consumer} {k : Nat} {rs : List (Nat × LineReq)} (hcalm : calm s = true)
    (hrs : rs.map (·.1) = List.range k) (h : allGot s c k) : collect c rs s = (some (gotLines s c k), s) := by
  have hask : askAll c rs s = s := by
    have : ∀ l : List (Nat × LineReq), (∀ e ∈ l, e.1 < k) → askAll c l s = s := by
      intro l hl
      induction l with
      | nil => rfl
      | cons e l ih =>
        rw [askAll, List.foldl_cons, if_pos (h e.1 (hl e List.mem_cons_self)).1]
        exact ih fun x hx => hl x (List.mem_cons_of_mem _ hx)
    refine this rs fun e he => List.mem_range.mp ?_
    rw [← hrs]
    exact List.mem_map_of_mem he
  have hlines : rs.filterMap (fun r => gotOf s c r.1) = gotLines s c k := by
    rw [gotLines, ← hrs, List.filterMap_map]
    rfl
  have hlen : (gotLines s c k).length = rs.length := by
    rw [length_gotLines h, ← List.length_map (f := (·.1)) (as := rs), hrs, List.length_range]
  unfold collect
  dsimp only
  rw [hask, settle_calm hcalm, hlines, if_pos hlen]

theorem statuses_gotLines {s : State} {c : Consumer} {k : Nat} (h : allGot s c k) : (gotLines s c k).any (·.status != 0) = false := by
  rw [List.any_eq_false]
  intro x hx
  obtain ⟨i, hi, hg⟩ := List.mem_filterMap.mp hx
  obtain ⟨-, r, hr, hst⟩ := h i (List.mem_range.mp hi)
  rw [hr] at hg
  cases hg
  simp [hst]

/-! ## Bytes of a range -/

theorem length_lineBytes (xs : List LineRes) : (xs.flatMap fun x => toBytes 128 x.data.toNat).length = 128 * xs.length := by
  induction xs with
  | nil => rfl
  | cons x xs ih => simp [length_toBytes, ih]; omega

/-- The first bytes of a range are the bytes of the shorter range. -/
theorem slice_rangeBytes {s : State} {c : Consumer} {sa : Sa} {m n : Nat} (hmn : m ≤ n) (h : allGot s c (rangeLines sa n)) :
    slice (rangeBytes sa n (gotLines s c (rangeLines sa n))) 0 m = rangeBytes sa m (gotLines s c (rangeLines sa m)) := by
  have hle : rangeLines sa m ≤ rangeLines sa n := Nat.div_le_div_right (by omega)
  have hm : allGot s c (rangeLines sa m) := fun i hi => h i (Nat.lt_of_lt_of_le hi hle)
  obtain ⟨d, hd⟩ := Nat.exists_eq_add_of_le hle
  have hsplit : gotLines s c (rangeLines sa n) =
      gotLines s c (rangeLines sa m) ++ ((List.range d).map (rangeLines sa m + ·)).filterMap fun i => gotOf s c i := by
    rw [gotLines, hd, List.range_add, List.filterMap_append]
    rfl
  have hfit : sa.toNat % 128 + m ≤ 128 * rangeLines sa m := by
    unfold rangeLines
    omega
  have hlen := length_lineBytes (gotLines s c (rangeLines sa m))
  rw [length_gotLines hm] at hlen
  unfold rangeBytes slice
  rw [hsplit, List.flatMap_append, List.drop_zero, List.take_take, Nat.min_eq_left hmn, List.drop_append_of_le_length (by omega),
    List.take_append_of_le_length (by rw [List.length_drop]; omega)]

theorem leAt_slice {b : List Byte} {o n m : Nat} (h : o + n ≤ m) : leAt (slice b 0 m) o n = leAt b o n := by
  unfold leAt slice
  rw [List.drop_zero, List.drop_take, List.take_take, Nat.min_eq_left (by omega)]

/-! ## The end of a load (R355) -/

/-- What a load of a pack comes to that its checks end with r (R355, R356). -/
def packEnd (r : Nat) (b : List Byte) (es : Option (List (Nat × Nat × BitVec 32))) (s : State) : State :=
  packResult r (if r = 0 then packTake b (es.getD []) s else s)

/-- The entries of a pack of n bytes, where its header is valid. -/
def entriesOf (n : Nat) (b : List Byte) : Option (List (Nat × Nat × BitVec 32)) :=
  if packHeadOk (slice b 0 128) then packEntries 16384 (slice b 128 (n - 128)) else none

/-- With every line there, a load ends with the checks of the whole pack. -/
theorem packStep_loaded {s : State} {n : Nat} {rs : List (Nat × LineReq)} (hcalm : calm s = true)
    (hrs : rangeReqs s .pack (BitVec.ofNat 52 (s.tst.packSa.toNat * 64)) (n + 64) = some rs)
    (hgot : allGot s .pack (rangeLines (BitVec.ofNat 52 (s.tst.packSa.toNat * 64)) (n + 64)))
    (hn : leAt (rangeBytes (BitVec.ofNat 52 (s.tst.packSa.toNat * 64)) (n + 64)
      (gotLines s .pack (rangeLines (BitVec.ofNat 52 (s.tst.packSa.toNat * 64)) (n + 64)))) 16 4 = n - 128)
    (h1 : 128 ≤ n) (h2 : n % 16 = 0) (h3 : n ≤ 262144) :
    packStep s =
      let b := rangeBytes (BitVec.ofNat 52 (s.tst.packSa.toNat * 64)) (n + 64)
        (gotLines s .pack (rangeLines (BitVec.ofNat 52 (s.tst.packSa.toNat * 64)) (n + 64)))
      packEnd (packCheck s b (entriesOf n b)) b (entriesOf n b) (forget .pack s) := by
  generalize hsa : BitVec.ofNat 52 (s.tst.packSa.toNat * 64) = sa at hrs hgot hn ⊢
  obtain ⟨q1, hq1, hi1⟩ := rangeReqs_shorter hrs (m := 128) (by omega)
  obtain ⟨q2, hq2, hi2⟩ := rangeReqs_shorter hrs (le_refl (n + 64))
  have hle : rangeLines sa 128 ≤ rangeLines sa (n + 64) := Nat.div_le_div_right (by omega)
  have hgot1 : allGot s .pack (rangeLines sa 128) := fun i hi => hgot i (Nat.lt_of_lt_of_le hi hle)
  have hhead := slice_rangeBytes (m := 128) (n := n + 64) (by omega) hgot
  have hlen : leAt (rangeBytes sa 128 (gotLines s .pack (rangeLines sa 128))) 16 4 = n - 128 := by
    rw [← hhead, leAt_slice (by omega), hn]
  unfold packStep
  dsimp only
  rw [hsa, hq1]
  dsimp only
  rw [collect_got hcalm hi1 hgot1]
  dsimp only
  rw [statuses_gotLines hgot1, if_neg (by decide), hlen, if_neg (by simp; omega), show 128 + (n - 128) = n by omega, hq2]
  dsimp only
  rw [collect_got hcalm hi2 hgot]
  dsimp only
  rw [statuses_gotLines hgot, if_neg (by decide), ← hhead]
  rfl

theorem changesOnly_setTgt {bs : List Block} {r s : State} {h : Half} {t : Nat} {x : Target} (hb : Block.tst ∈ bs) :
    changesOnly bs r (setTgt h t x s) ↔ changesOnly bs r s := changesOnly_onTst hb

theorem changesOnly_foldl {α : Type} {bs : List Block} {f : State → α → State} (hf : ∀ t a, changesOnly bs t (f t a)) (l : List α) (s : State) :
    changesOnly bs s (l.foldl f s) := by
  induction l generalizing s with
  | nil => exact changesOnly_refl _ s
  | cons a l ih => exact changesOnly_trans (hf s a) (ih _)

/-- A pack that is taken is the active one (R356). -/
theorem packTake_spec (b : List Byte) (es : List (Nat × Nat × BitVec 32)) (s : State) :
    changesOnly [.tst] s (packTake b es s) ∧ (packTake b es s).tst.pack.ver = BitVec.ofNat 32 (leAt b 12 4) := by
  unfold packTake
  dsimp only
  have hfold : changesOnly [.tst] s ([Half.e, Half.w].foldl
      (fun s h => (List.range 22).foldl (fun s t => setTgt h t { tgt s h t with fresh := true } s) s) s) :=
    changesOnly_foldl (fun t h => changesOnly_foldl (fun t k => (changesOnly_setTgt (by decide)).mpr (changesOnly_refl _ t)) _ t) _ s
  generalize [Half.e, Half.w].foldl _ s = x at hfold ⊢
  exact ⟨(changesOnly_onTst (by decide)).mpr hfold, rfl⟩

/-- A load's result, and the pack that is active after it. -/
theorem packEnd_spec (r : Nat) (b : List Byte) (es : Option (List (Nat × Nat × BitVec 32))) (s : State) :
    (packEnd r b es s).tst.packBusy = false ∧ (packEnd r b es s).tst.packResult = BitVec.ofNat 3 r ∧
      (r ≠ 0 → (packEnd r b es s).tst.pack = s.tst.pack) ∧
      (r = 0 → (packEnd r b es s).tst.pack.ver = BitVec.ofNat 32 (leAt b 12 4)) ∧ changesOnly [.tst] s (packEnd r b es s) := by
  obtain ⟨hf, hv⟩ := packTake_spec b (es.getD []) s
  unfold packEnd
  generalize packTake b (es.getD []) s = t at hf hv ⊢
  have hkeep (x : State) : (packResult r x).tst.pack = x.tst.pack := rfl
  refine ⟨rfl, rfl, fun hne => ?_, fun h0 => ?_, ?_⟩
  · rw [if_neg hne, hkeep]
  · rw [if_pos h0, hkeep, hv]
  · rw [packResult, changesOnly_onTst (by decide)]
    split
    · exact hf
    · exact changesOnly_refl _ s

theorem calm_forget (c : Consumer) (s : State) : calm (forget c s) = calm s := rfl

/-! ## Repair records in flash (R367) -/

/-- The half in use and its slots are a matter of the flash and of the part's UID. -/
theorem areaHalf_onTst (s : State) (f : Tst → Tst) (h : (f s.tst).uid = s.tst.uid) (off len : Nat) :
    areaHalf (s.onTst f) off len = areaHalf s off len := by
  have hgen (a : Nat) : areaGen (s.onTst f) a = areaGen s a := by
    have hb : flashBytes (s.onTst f) a 32 = flashBytes s a 32 := rfl
    simp only [areaGen, hb, State.onTst_tst, h]
  simp only [areaHalf, hgen]

/-- The slot behind the last written one is empty. -/
theorem areaSlots_next {s : State} {a i n : Nat} (h : (areaSlots s a i n).length < n) :
    slotEmpty s (a + 32 * (i + (areaSlots s a i n).length)) = true := by
  induction n generalizing i with
  | zero => omega
  | succ n ih =>
    rw [areaSlots] at h ⊢
    cases he : slotEmpty s (a + 32 * i) with
    | true =>
      rw [if_pos rfl]
      simpa using he
    | false =>
      rw [he, if_neg (by decide), List.length_cons] at h
      have := ih (i := i + 1) (by omega)
      rw [if_neg (by decide), List.length_cons]
      rwa [show i + ((areaSlots s a (i + 1) n).length + 1) = i + 1 + (areaSlots s a (i + 1) n).length by omega]

theorem areaSlots_onTst (s : State) (f : Tst → Tst) (a i n : Nat) : areaSlots (s.onTst f) a i n = areaSlots s a i n := by
  induction n generalizing i with
  | zero => rfl
  | succ n ih =>
    have hb (x : Nat) : flashBytes (s.onTst f) x 32 = flashBytes s x 32 := rfl
    have hs (x : Nat) : slotEmpty (s.onTst f) x = slotEmpty s x := rfl
    simp only [areaSlots, hs, hb, ih]

theorem length_repairBytes (r : Repair) : (repairBytes r).length = 32 := by
  simp [repairBytes, length_toBytes]

/-- What a program leaves at each address: the bits that both hold (R407). -/
theorem flashByte_program (a : Nat) (bs : List Byte) (s : State) (k : Nat) :
    flashByte (flashProgram a bs s) k = if a ≤ k ∧ k < a + bs.length then flashByte s k &&& bs.getD (k - a) 0xFF else flashByte s k := by
  have hfold : ∀ (n : Nat) (f : Tab Byte), tget 0xFF ((List.range n).foldl
      (fun f i => tset 0xFF f (a + i) (tget 0xFF f (a + i) &&& bs.getD i 0xFF)) f) k =
      if a ≤ k ∧ k < a + n then tget 0xFF f k &&& bs.getD (k - a) 0xFF else tget 0xFF f k := by
    intro n f
    induction n with
    | zero => rw [if_neg (by omega)]; rfl
    | succ n ih =>
      rw [List.range_succ, List.foldl_append, List.foldl_cons, List.foldl_nil, tget_tset]
      by_cases hk : k = a + n
      · subst hk
        have hn : ¬ (a ≤ a + n ∧ a + n < a + n) := by omega
        rw [if_neg hn] at ih
        rw [if_pos rfl, ih, if_pos (by omega), Nat.add_sub_cancel_left]
      · rw [if_neg hk, ih]
        congr 1
        simp only [eq_iff_iff]
        omega
  exact hfold bs.length s.boot.flash

/-- A record programmed into an empty slot reads back. -/
theorem flashBytes_program {a : Nat} {bs : List Byte} {s : State} (h : slotEmpty s a = true) (hl : bs.length = 32) :
    flashBytes (flashProgram a bs s) a 32 = bs := by
  apply List.ext_getElem
  · simp [flashBytes, hl]
  · intro i h1 h2
    have hempty : flashByte s (a + i) = 0xFF := by
      have := List.all_eq_true.mp h (flashByte s (a + i)) (List.mem_map.mpr ⟨i, List.mem_range.mpr (by omega), rfl⟩)
      simpa using this
    simp only [flashBytes, List.getElem_map, List.getElem_range]
    rw [flashByte_program, if_pos (by omega), hempty, Nat.add_sub_cancel_left, List.getD_eq_getElem?_getD, List.getElem?_eq_getElem h2]
    simp only [Option.getD_some]
    exact BitVec.allOnes_and

theorem writeRec_tst (r : Rec) (s : State) : (writeRec r s).tst = s.tst := rfl

/-- The oldest record that the flash takes stands in the next unwritten slot. -/
theorem programRepair_room {r : Repair} {s : State} {a gen : Nat} (hh : areaHalf s s.boot.repOff.toNat s.boot.repLen.toNat = some (a, gen))
    (hroom : (areaSlots s (a + 32) 0 (s.boot.repLen.toNat / 2 / 32 - 1)).length < s.boot.repLen.toNat / 2 / 32 - 1) :
    programRepair r s = flashProgram (a + 32 + 32 * (areaSlots s (a + 32) 0 (s.boot.repLen.toNat / 2 / 32 - 1)).length)
      (repairBytes { r with seq := s.tst.repSeq + 1 }) (s.onTst fun t => { t with repSeq := s.tst.repSeq + 1, written := t.written + 1 }) := by
  unfold programRepair
  dsimp only
  rw [hh]
  dsimp only
  rw [if_pos hroom]

/-- Settles O48: the load's ends, the record that is programmed or lost, and the three outcomes of a measurement. -/
theorem flashRecords : Obligations.FlashRecords := by
  refine ⟨fun s => ⟨fun hb => ?_, fun hb => ?_, ?_, fun hb hno hcalm => ?_⟩, fun s => ⟨?_, ?_⟩⟩
  · have he : exec .tstPackLoad s = answer s (packLoad s) := rfl
    rw [packLoad, hb, if_neg (by decide)] at he
    exact completesWith_answer he ⟨rfl, by simp⟩
  · have he : exec .tstPackLoad s = answer s (packLoad s) := rfl
    rw [packLoad, hb, if_pos rfl] at he
    exact completesWith_answer he ⟨rfl, by simp⟩
  · intro n k rs sa b hb hcalm hrs hk hgot hn h1 h2 h3 es r
    obtain ⟨qs, hq, hi⟩ := rangeReqs_shorter hrs (le_refl _)
    have hkl : k = rangeLines sa (n + 64) := by
      rw [← hk, ← Option.some.inj (hq.symm.trans hrs), ← List.length_map (f := (·.1)) (as := qs), hi, List.length_range]
    subst hkl
    have hstep := packStep_loaded hcalm hrs hgot hn h1 h2 h3
    obtain ⟨e1, e2, e3, e4, e5⟩ := packEnd_spec r b (entriesOf n b) (forget .pack s)
    have he : exec .packLoadDone s = execPackLoadDone s := rfl
    rw [execPackLoadDone, if_pos hb, hstep] at he
    change exec _ s = answer s (settle (packEnd r b (entriesOf n b) (forget .pack s))) at he
    generalize packEnd r b (entriesOf n b) (forget .pack s) = u at he e1 e2 e3 e4 e5
    have hcalm' : calm u = true :=
      (calm_congr (e5 .cache (by decide)) (e5 .atu (by decide)) (e5 .buf (by decide))).trans ((calm_forget .pack s).trans hcalm)
    rw [settle_calm hcalm'] at he
    refine completesWith_answer he ⟨e1, e2, e3, e4, ?_⟩
    rw [changesOnly_answered]
    exact changesOnly_trans (by simp [forget]) (changesOnly_mono e5 (by decide))
  · have he : exec .packLoadDone s = execPackLoadDone s := rfl
    rw [execPackLoadDone, if_pos hb, packStep] at he
    dsimp only at he
    rw [hno] at he
    dsimp only at he
    have hcalm' : calm (packResult 5 (forget .pack s)) = true := hcalm
    rw [settle_calm hcalm'] at he
    exact completesWith_answer he ⟨rfl, by simp [packResult, forget]⟩
  · intro r rest hq
    refine ⟨?_, ?_⟩
    · have he : exec (.repairRecordProgram false) s = execRepairRecordProgram false s := rfl
      rw [execRepairRecordProgram, hq] at he
      dsimp only at he
      rw [if_neg (by simp)] at he
      refine completesWith_answer he ⟨?_, by simp [persistFail]⟩
      rw [answered_tst, persistFail, writeRec_tst]
      rfl
    · intro a gen off len m at_ hlen hhalf hroom
      have he : exec (.repairRecordProgram true) s = execRepairRecordProgram true s := rfl
      rw [execRepairRecordProgram, hq] at he
      dsimp only at he
      have hslots := areaSlots_onTst s (fun t => { t with queue := rest }) (a + 32) 0 (len / 2 / 32 - 1)
      rw [if_pos ⟨rfl, hlen⟩, programRepair_room ((areaHalf_onTst s _ rfl off len).trans hhalf)
        (by rw [State.onTst_boot, hslots]; exact hroom), State.onTst_boot, hslots] at he
      have hempty : slotEmpty s at_ = true := by
        have := areaSlots_next hroom
        rwa [Nat.zero_add] at this
      generalize hx : State.onTst (State.onTst s _) _ = x at he
      have htst : x.tst = { s.tst with queue := rest, repSeq := s.tst.repSeq + 1, written := s.tst.written + 1 } := by
        rw [← hx]
        rfl
      have hframe : changesOnly [.tst, .boot] s x := by
        rw [← hx]
        simp
      have hbyte : flashByte x = flashByte s := by
        rw [← hx]
        rfl
      have hslot : slotEmpty x at_ = true := by rwa [slotEmpty, flashBytes, hbyte]
      have hread := flashBytes_program hslot (length_repairBytes { r with seq := s.tst.repSeq + 1 })
      have hprog := flashByte_program at_ (repairBytes { r with seq := s.tst.repSeq + 1 }) x
      have hkeep : changesOnly [.boot] x (flashProgram at_ (repairBytes { r with seq := s.tst.repSeq + 1 }) x) := by simp [flashProgram]
      have he' : exec (.repairRecordProgram true) s =
        answer s (flashProgram at_ (repairBytes { r with seq := s.tst.repSeq + 1 }) x) := he
      generalize flashProgram at_ (repairBytes { r with seq := s.tst.repSeq + 1 }) x = u at he' hread hprog hkeep
      refine completesWith_answer he' ⟨(hkeep .tst (by decide)).trans htst, hread, fun b hb => ?_, ?_⟩
      · refine (hprog b).trans ?_
        rw [if_neg (by rw [length_repairBytes]; omega), hbyte]
      · exact changesOnly_answered.mpr (changesOnly_trans hframe (changesOnly_mono hkeep (by decide)))
  · intro n degr hd hl stored at_
    have he : exec (.ageMeasure n degr) s = execAgeMeasure n degr s := rfl
    rw [execAgeMeasure, if_neg (by simp [hd, hl])] at he
    dsimp only at he
    refine ⟨fun hlt => ?_, fun hge hold => ?_, fun hge hnew => ?_⟩
    · rw [if_pos (by exact hlt)] at he
      exact completesWith_answer he ⟨rfl, by simp⟩
    · rw [if_neg (by exact Nat.not_lt.mpr hge), if_pos (by exact hold)] at he
      exact completesWith_answer he ⟨rfl, by simp⟩
    · rw [if_neg (by exact Nat.not_lt.mpr hge), if_neg (by exact ne_true_of_eq_false hnew)] at he
      refine completesWith_answer he ⟨?_, by simp⟩
      rw [answered_tst, writeRec_tst]
      rfl

end Sys2Proof.Machine
end

section
/-! PROOFS. Test steps and replaced targets (R347 to R351, R356 to R360). -/

namespace Sys2Proof.Machine

open Sys2Proof.Safety

/-! ## Targets -/

theorem targetBecomes_setTgt {h : Half} {t : Nat} (ht : t < 22) (x : Target) (s : State) : targetBecomes h t x s (setTgt h t x s) :=
  ⟨(tgt_setTgt s h h t t x ht ht).trans (if_pos ⟨rfl, rfl⟩), fun g k hk hne => (tgt_setTgt s h g t k x ht hk).trans (if_neg hne)⟩

/-- What is said of a target is said of the self-test's state. -/
theorem tgt_congr {s u : State} (h : u.tst = s.tst) (g : Half) (k : Nat) : tgt u g k = tgt s g k := by rw [tgt, h]; rfl

theorem targetBecomes_congr {h : Half} {t : Nat} {x : Target} {s u v : State} (hv : v.tst = u.tst) (hu : targetBecomes h t x s u) :
    targetBecomes h t x s v :=
  ⟨(tgt_congr hv h t).trans hu.1, fun g k hk hne => (tgt_congr hv g k).trans (hu.2 g k hk hne)⟩

theorem tgtUp_eq (s : State) (h : Half) (t : Nat) :
    tgtUp s h t = if t < 9 then domOn s (h.pick 1 2) else if t < 20 then domOn s (h.pick 5 6) else domOn s 5 && domOn s 6 := by
  cases h <;> rfl

theorem tgt_setTstStat (i : Nat) (s : State) (g : Half) (k : Nat) : tgt (setTstStat i s) g k = tgt s g k := rfl

theorem tgt_writeRec (r : Rec) (s : State) (g : Half) (k : Nat) : tgt (writeRec r s) g k = tgt s g k :=
  tgt_congr ((writeRec_frame r s) .tst (by decide)) g k

theorem tgt_queueRepair (r : Repair) (s : State) (g : Half) (k : Nat) : tgt (queueRepair r s) g k = tgt s g k := by
  unfold queueRepair
  split
  · rfl
  · split
    · exact tgt_writeRec ..
    · rfl

/-- The failure of a target (R351): it alone changes, to state 3. -/
theorem tgt_failTgt {h : Half} {t : Nat} (ht : t < 22) (s : State) (g : Half) (k : Nat) (hk : k < 22) :
    tgt (failTgt h t s) g k = if g = h ∧ k = t then { tgt s h t with state := 3, back := 3 } else tgt s g k := tgt_setTgt s h g t k _ ht hk

/-- A free spare that takes a place serves (R357). -/
theorem tgt_takeSpare {h : Half} {i : Nat} (hi : i < 22) {s : State} (hs : (tgt s h i).state = 1) (g : Half) (k : Nat) (hk : k < 22) :
    tgt (takeSpare h i s) g k = if g = h ∧ k = i then { tgt s h i with state := 0, back := 0 } else tgt s g k := by
  unfold takeSpare
  dsimp only
  rw [tgt_setTgt s h g i k _ hi hk, hs]
  rfl

/-! ## Units' words (R420) -/

/-- What a target shows of itself in a unit's word. -/
def shown (x : Target) : Bool × Bool × Bool := (serving x, isSpare x, x.state != 3)

/-- Units' words are a matter of what the targets show, of the cores' numbers, of the groups and of the loader. -/
theorem unitOwn_congr {s u : State} (ht : ∀ g k, k < 22 → shown (tgt u g k) = shown (tgt s g k)) (hr : u.rep = s.rep) (hb : u.boot = s.boot)
    (n : Nat) : unitOwn u n = unitOwn s n := by
  have hserve (g : Half) (k : Nat) (hk : k < 22) : serving (tgt u g k) = serving (tgt s g k) := congrArg (·.1) (ht g k hk)
  have hspare (g : Half) (k : Nat) (hk : k < 22) : isSpare (tgt u g k) = isSpare (tgt s g k) := congrArg (·.2.1) (ht g k hk)
  have huse (g : Half) (k : Nat) (hk : k < 22) : ((tgt u g k).state != 3) = ((tgt s g k).state != 3) := congrArg (·.2.2) (ht g k hk)
  have hcore (k : Nat) : coreInHalf k < 22 := Nat.lt_trans (Nat.mod_lt k (by decide)) (by decide)
  have hlog (k : Nat) : logicalCore u k = logicalCore s k := by rw [logicalCore, hr]; rfl
  have hcount (g : Half) : countServing u g 9 9 = countServing s g 9 9 := by
    unfold countServing
    congr 1
    exact List.filter_congr fun i hi => hserve g (9 + i) (by rw [List.mem_range] at hi; omega)
  have husable (g : Half) : countUsable u g 18 2 = countUsable s g 18 2 := by
    unfold countUsable
    congr 1
    exact List.filter_congr fun i hi => huse g (18 + i) (by rw [List.mem_range] at hi; omega)
  simp only [unitOwn, hserve _ _ (hcore _), hspare _ _ (hcore _), hlog, hcount, husable, hr, hb]

/-- No generation counts where no unit's word changes. -/
theorem genBump_same {s u : State} (h : ∀ n, unitOwn u n = unitOwn s n) : genBump s u = u := by
  unfold genBump
  induction List.range 24 with
  | nil => rfl
  | cons i l ih => rw [List.foldl_cons, if_pos (h (24 + i)).symm, ih]

theorem shown_setTgt {s : State} {h : Half} {t : Nat} (ht : t < 22) {x : Target} (hx : shown x = shown (tgt s h t)) (g : Half) (k : Nat)
    (hk : k < 22) : shown (tgt (setTgt h t x s) g k) = shown (tgt s g k) := by
  rw [tgt_setTgt s h g t k x ht hk]
  split
  next he => rw [he.1, he.2, hx]
  next => rfl

/-- A target that its step is done with shows what it showed under test. -/
theorem shown_back {x : Target} (h : x.state = 2) (hb : x.back.toNat < 2) {n : BitVec 4} {l : Tab (BitVec 64)} :
    shown { x with state := x.back, next := n, lastPass := l } = shown x := by
  have hcase : x.back = 0 ∨ x.back = 1 := by
    rcases (show x.back.toNat = 0 ∨ x.back.toNat = 1 by omega) with h0 | h1
    · exact .inl (BitVec.eq_of_toNat_eq h0)
    · exact .inr (BitVec.eq_of_toNat_eq h1)
  rcases hcase with h0 | h1
  · simp [shown, serving, isSpare, h, h0]
  · simp [shown, serving, isSpare, h, h1]

/-! ## Steps (R348 to R351) -/

/-- No reset and no HALT waits for the end of a step of a core. -/
def nothingWaits (h : Half) (t : Nat) (s : State) : Prop :=
  t < 9 → calm s = true ∧ (∀ r ∈ s.integ.prst, r.running = false) ∧ ∀ i, i < 4 → (thr s (4 * (9 * h.idx + t) + i)).phase ≠ .halting

theorem coreResume_idle {s : State} {k : Nat} (hp : ∀ r ∈ s.integ.prst, r.running = false)
    (hh : ∀ i, i < 4 → (thr s (4 * k + i)).phase ≠ .halting) : coreResume k s = s := by
  have hps : (s.integ.prst.filter (·.running)).map (·.part) = [] := by
    rw [List.filter_eq_nil_iff.mpr fun r hr => by rw [hp r hr]; decide]
    rfl
  unfold coreResume
  split
  · rfl
  · dsimp only
    rw [hps]
    have : ∀ l : List Nat, (∀ i ∈ l, i < 4) → l.foldl (fun s i => if hi : 4 * k + i < 72 then haltCheck ⟨4 * k + i, hi⟩ s else s) s = s := by
      intro l hl
      induction l with
      | nil => rfl
      | cons i l ih =>
        have hone : (if hi : 4 * k + i < 72 then haltCheck ⟨4 * k + i, hi⟩ s else s) = s := by
          split
          · rw [haltCheck, if_neg fun hx => hh i (hl i List.mem_cons_self) hx.1]
          · rfl
        rw [List.foldl_cons, hone]
        exact ih fun j hj => hl j (List.mem_cons_of_mem _ hj)
    exact this _ fun i hi => List.mem_range.mp hi

/-- What follows the end of a step for its core. -/
def stepFollows (h : Half) (t : Fin 22) (s u : State) : State :=
  if t.val < 9 ∧ !wasReset s u then settle (coreResume (9 * h.idx + t.val) u) else u

/-- Nothing follows where nothing waits. -/
theorem stepFollows_idle {h : Half} {t : Fin 22} {s u : State} (hn : nothingWaits h t.val s) (hf : changesOnly [.tst, .loops, .log] s u) :
    stepFollows h t s u = u := by
  unfold stepFollows
  split
  next hx =>
    obtain ⟨hcalm, hp, hh⟩ := hn hx.1
    have hinteg : u.integ = s.integ := hf .integ (by decide)
    have hthr (k : Nat) : thr u k = thr s k := thr_congr (hf .seq (by decide)) k
    rw [coreResume_idle (by rw [hinteg]; exact hp) (fun i hi => by rw [hthr]; exact hh i hi)]
    exact settle_calm ((calm_congr (hf .cache (by decide)) (hf .atu (by decide)) (hf .buf (by decide))).trans hcalm)
  next => rfl

/-- A spare fails for good, with a record (R351). -/
theorem failTarget_spare {h : Half} {t : Fin 22} (step source : Nat) (expect actual : BitVec 32) (last : BitVec 64) (ver : BitVec 32)
    {u : State} (hsp : isSpare (tgt u h t.val) = true) :
    let v := failTarget h t step source expect actual last ver u
    (tgt v h t.val).state = 3 ∧ v.tst.stat.getLsbD 0 = true ∧
      (∀ g k, k < 22 → ¬ (g = h ∧ k = t.val) → tgt v g k = tgt u g k) ∧ changesOnly [.tst, .log] u v := by
  intro v
  have hv : v = failTarget h t step source expect actual last ver u := rfl
  unfold failTarget at hv
  dsimp only at hv
  rw [if_pos hsp] at hv
  obtain ⟨x, r, hv⟩ : ∃ x r, v = writeRec r (queueRepair (Repair.mk0 8 h t.val 0xFF) (failTgt h t.val (setTstStat 0 (setTgt h t.val x u)))) :=
    ⟨_, _, hv⟩
  have hn := (noted_queueRepair (Repair.mk0 8 h t.val 0xFF) (failTgt h t.val (setTstStat 0 (setTgt h t.val x u)))).trans (noted_writeRec r _)
  rw [← hv] at hn
  have htgt (g : Half) (k : Nat) (hk : k < 22) : tgt v g k = tgt (failTgt h t.val (setTstStat 0 (setTgt h t.val x u))) g k := by
    rw [hv, tgt_writeRec, tgt_queueRepair]
  refine ⟨?_, hn.stat 0 (by decide) (stat_setTstStat (by decide) _), fun g k hk hne => ?_, ?_⟩
  · rw [htgt h t.val t.isLt, tgt_failTgt t.isLt _ h t.val t.isLt, if_pos ⟨rfl, rfl⟩]
  · rw [htgt g k hk, tgt_failTgt t.isLt _ g k hk, if_neg hne, tgt_setTstStat, tgt_setTgt u h g t.val k x t.isLt hk, if_neg hne]
  · refine changesOnly_trans ?_ hn.frame
    simp [failTgt, changesOnly_setTgt]

/-- The effect of a step's end on its target (R350, R351), with no core's resumption. -/
def stepEnd (h : Half) (t : Fin 22) (sig : BitVec 32) (lane : Fin 32) (s : State) : State :=
  let x := tgt s h t.val
  if x.state ≠ 2 ∨ !tgtUp s h t.val then s
  else
    let step := x.next.toNat
    let last := tget 0 x.lastPass step
    let bad : Bool := decide (¬ sig = x.want)
    if bad ∧ x.repeats < 2 then setTgt h t.val { x with repeats := x.repeats + 1, bad := sig } s
    else
      let s := tally (10 + h.idx) 256
        (fun m => { m with count := m.count + 1, ended := m.ended + 1, hits := m.hits + b2n x.forced }) s
      if bad then
        let g := 8 * (2 * h.idx + (t.val - 20))
        let l : Fin 32 := if g ≤ lane.val ∧ lane.val < g + 8 then lane else Fin.ofNat 32 g
        failTarget h t step 9 x.want sig last x.packVer (setTgt h t.val { x with lane := l } s)
      else
        let s :=
          if x.repeats = 0 then s
          else
            writeRec { Rec.mk0 17 9 h with
              sev := 2, expect := x.want, actual := x.bad,
              detail := tstDetail (tgtCls t.val) t.val step 0xFF x.packVer 0 } (setTstStat 1 s)
        setTgt h t.val
          { x with state := x.back, repeats := 0, trans := if x.repeats = 0 then x.trans else satAdd x.trans 1,
                   next := BitVec.ofNat 4 ((step + 1) % 2 ^ x.log2s), lastPass := tset 0 x.lastPass step s.clk.time } s

theorem exec_testStepDone (h : Half) (t : Fin 22) (sig : BitVec 32) (lane : Fin 32) (s : State) :
    exec (.testStepDone h t sig lane) s = answer s (genBump s (stepFollows h t s (stepEnd h t sig lane s))) := rfl

section
variable {h : Half} {t : Fin 22} {sig : BitVec 32} {lane : Fin 32} {s : State} (hs : (tgt s h t.val).state = 2) (hup : tgtUp s h t.val = true)
include hs hup

theorem stepEnd_repeats (hsig : sig ≠ (tgt s h t.val).want) (hr : (tgt s h t.val).repeats < 2) :
    stepEnd h t sig lane s = setTgt h t.val { tgt s h t.val with repeats := (tgt s h t.val).repeats + 1, bad := sig } s := by
  have hgo : ¬ ((tgt s h t.val).state ≠ 2 ∨ (!tgtUp s h t.val) = true) := by simp [hs, hup]
  unfold stepEnd
  dsimp only
  rw [if_neg hgo, if_pos ⟨by simpa using hsig, hr⟩]

theorem stepEnd_passes (hsig : sig = (tgt s h t.val).want) (hr : (tgt s h t.val).repeats = 0) :
    ∃ u, changesOnly [.loops] s u ∧ stepEnd h t sig lane s = setTgt h t.val
      { tgt s h t.val with
        state := (tgt s h t.val).back, next := BitVec.ofNat 4 (((tgt s h t.val).next.toNat + 1) % 2 ^ (tgt s h t.val).log2s),
        lastPass := tset 0 (tgt s h t.val).lastPass (tgt s h t.val).next.toNat s.clk.time } u := by
  have hgo : ¬ ((tgt s h t.val).state ≠ 2 ∨ (!tgtUp s h t.val) = true) := by simp [hs, hup]
  unfold stepEnd
  dsimp only
  rw [if_neg hgo]
  refine ⟨tally (10 + h.idx) 256
    (fun m => { m with count := m.count + 1, ended := m.ended + 1, hits := m.hits + b2n (tgt s h t.val).forced }) s,
    by simp [tally, modLoopMem], ?_⟩
  simp only [hsig, hr, not_true_eq_false, decide_false, Bool.false_eq_true, false_and, if_false, if_true]
  rfl

/-- A third mismatch of a spare (R351): it is out of use, with its status bit and a record. -/
theorem stepEnd_spareFails (hsig : sig ≠ (tgt s h t.val).want) (hr : 2 ≤ (tgt s h t.val).repeats) (hb : (tgt s h t.val).back = 1) :
    (tgt (stepEnd h t sig lane s) h t.val).state = 3 ∧ (stepEnd h t sig lane s).tst.stat.getLsbD 0 = true ∧
      (∀ g k, k < 22 → ¬ (g = h ∧ k = t.val) → tgt (stepEnd h t sig lane s) g k = tgt s g k) ∧
      changesOnly [.tst, .loops, .log] s (stepEnd h t sig lane s) := by
  have hgo : ¬ ((tgt s h t.val).state ≠ 2 ∨ (!tgtUp s h t.val) = true) := by simp [hs, hup]
  have hno : ¬ (decide (¬ sig = (tgt s h t.val).want) = true ∧ (tgt s h t.val).repeats < 2) := fun hx => absurd hx.2 (by omega)
  unfold stepEnd
  dsimp only
  rw [if_neg hgo, if_neg hno, if_pos (by simpa using hsig)]
  generalize (tgt s h t.val).next.toNat = step
  generalize tget 0 (tgt s h t.val).lastPass step = last
  generalize hu : setTgt h t.val _ _ = u
  have hown : (tgt u h t.val).state = 2 ∧ (tgt u h t.val).back = 1 := by
    rw [← hu, tgt_setTgt _ h h t.val t.val _ t.isLt t.isLt, if_pos ⟨rfl, rfl⟩]
    exact ⟨hs, hb⟩
  have hoth (g : Half) (k : Nat) (hk : k < 22) (hne : ¬ (g = h ∧ k = t.val)) : tgt u g k = tgt s g k := by
    rw [← hu, tgt_setTgt _ h g t.val k _ t.isLt hk, if_neg hne]
    rfl
  have hframe : changesOnly [.tst, .loops] s u := by
    rw [← hu]
    simp [tally, modLoopMem, changesOnly_setTgt]
  obtain ⟨h3, hst, ho, hf⟩ := failTarget_spare step 9 (tgt s h t.val).want sig last (tgt s h t.val).packVer (u := u) (h := h) (t := t)
    (by simp [isSpare, hown])
  exact ⟨h3, hst, fun g k hk hne => (ho g k hk hne).trans (hoth g k hk hne),
    changesOnly_trans (changesOnly_mono hframe (by decide)) (changesOnly_mono hf (by decide))⟩
end

/-! ## Replaced targets (R357, R360) -/

theorem find?_lowest {p : Nat → Bool} {lo n i : Nat} (h1 : lo ≤ i) (h2 : i < lo + n) (hi : p i = true)
    (hlow : ∀ k, lo ≤ k → k < i → p k = false) : ((List.range n).map (lo + ·)).find? p = some i := by
  have hfind : (List.range n).find? (p ∘ (lo + ·)) = some (i - lo) := by
    rw [List.find?_range_eq_some]
    refine ⟨by simpa [Nat.add_sub_cancel' h1] using hi, List.mem_range.mpr (by omega), fun j hj => ?_⟩
    rw [Function.comp_apply, hlow (lo + j) (by omega) (by omega)]
    rfl
  rw [List.find?_map, hfind, Option.map_some, Nat.add_sub_cancel' h1]

/-- The lowest free spare of `n` targets from `lo` on. -/
def lowestSpare (s : State) (h : Half) (lo n i : Nat) : Prop :=
  lo ≤ i ∧ i < lo + n ∧ (tgt s h i).state = 1 ∧ ∀ k, lo ≤ k → k < i → (tgt s h k).state ≠ 1 ∧ (tgt s h k).state ≠ 2

theorem lowestSpare_congr {s u : State} {h : Half} {lo n i : Nat} (hl : lowestSpare s h lo n i) (hn : lo + n ≤ 22)
    (ht : ∀ k, k < 22 → (tgt u h k).state = (tgt s h k).state) : lowestSpare u h lo n i := by
  obtain ⟨h1, h2, hi, hlow⟩ := hl
  refine ⟨h1, h2, (ht i (by omega)).trans hi, fun k hk hki => ?_⟩
  rw [ht k (by omega)]
  exact hlow k hk hki

theorem find?_lowestSpare {s : State} {h : Half} {lo n i : Nat} (hl : lowestSpare s h lo n i) :
    ((List.range n).map (lo + ·)).find? (fun k => isSpare (tgt s h k)) = some i := by
  obtain ⟨h1, h2, hi, hlow⟩ := hl
  refine find?_lowest h1 h2 (by simp [isSpare, hi]) fun k hk hki => ?_
  simp only [isSpare, Bool.or_eq_false_iff, beq_eq_false_iff_ne, Bool.and_eq_false_imp, beq_iff_eq]
  exact ⟨(hlow k hk hki).1, fun h2 => absurd h2 (hlow k hk hki).2⟩

theorem spareFor_lane {s : State} {h : Half} {t i : Nat} (h9 : 9 ≤ t) (h20 : t < 20)
    (hl : lowestSpare s h (if t < 18 then 9 else 18) (if t < 18 then 9 else 2) i) :
    spareFor s h t = some (i, i - if t < 18 then 9 else 18) := by
  have hf := find?_lowestSpare hl
  unfold spareFor
  by_cases h18 : t < 18
  · simp only [h18, if_true] at hf ⊢
    rw [if_neg (by omega), hf]
    rfl
  · simp only [h18, if_false] at hf ⊢
    rw [if_neg (by omega), if_pos h20, hf]
    rfl

theorem spareFor_core_lowest {s : State} {h : Half} {t i : Nat} (h9 : t < 9) (hl : lowestSpare s h 0 9 i) : spareFor s h t = some (i, i) := by
  unfold spareFor
  dsimp only
  rw [if_pos h9, find?_lowestSpare hl]
  rfl

/-- What the failure and the replacement of a target by a spare leave of the half's targets (R357). -/
def replaced (h : Half) (t i : Nat) (s u : State) : Prop :=
  (tgt u h t).state = 3 ∧ (tgt u h i).state = 0 ∧ ∀ g k, k < 22 → ¬ (g = h ∧ (k = t ∨ k = i)) → tgt u g k = tgt s g k

theorem replaced_takeSpare {h : Half} {t i : Nat} (ht : t < 22) (hi : i < 22) (hne : i ≠ t) {s : State} (hs : (tgt s h i).state = 1) :
    replaced h t i s (takeSpare h i (failTgt h t s)) := by
  have hkeep : tgt (failTgt h t s) h i = tgt s h i := by rw [tgt_failTgt ht s h i hi, if_neg fun hx => hne hx.2]
  have htake := tgt_takeSpare hi (s := failTgt h t s) (by rw [hkeep]; exact hs)
  refine ⟨?_, ?_, fun g k hk hx => ?_⟩
  · rw [htake h t ht, if_neg fun hx => hne hx.2.symm, tgt_failTgt ht s h t ht, if_pos ⟨rfl, rfl⟩]
  · rw [htake h i hi, if_pos ⟨rfl, rfl⟩]
  · rw [htake g k hk, if_neg fun hy => hx ⟨hy.1, .inr hy.2⟩, tgt_failTgt ht s g k hk, if_neg fun hy => hx ⟨hy.1, .inl hy.2⟩]

/-- Replacement looks at nothing but the targets before and after. -/
theorem replaced_congr {h : Half} {t i : Nat} {s s' u u' : State} (hs : ∀ g k, k < 22 → ¬ (g = h ∧ k = t) → tgt s g k = tgt s' g k)
    (hu : ∀ g k, tgt u' g k = tgt u g k) (hr : replaced h t i s u) : replaced h t i s' u' := by
  obtain ⟨h3, h0, ho⟩ := hr
  refine ⟨by rw [hu]; exact h3, by rw [hu]; exact h0, fun g k hk hne => ?_⟩
  rw [hu, ho g k hk hne, hs g k hk (by tauto)]

/-- The kind of the repair record of a lane or a datapath (R365). -/
def laneKind (t : Nat) : Nat := if t < 18 then 2 else 3

theorem repairs_none {h : Half} {n : Nat} {s : State} (hw : h.pick s.rep.waitE s.rep.waitW = []) : repairs h n s = s := by
  cases n with
  | zero => rfl
  | succ n => rw [repairs, hw]

/-- The repair of a lane or a datapath that a spare replaces. -/
theorem repairOne_lane {h : Half} {t i code : Nat} {s : State} (h9 : 9 ≤ t) (h20 : t < 20) (hs : spareFor s h t = some (i, code)) :
    repairOne h t s = queueRepair (Repair.mk0 (laneKind t) h t code) (takeSpare h i (failTgt h t (setTstStat 2 s))) := by
  have hs' : spareFor (setTstStat 2 s) h t = some (i, code) := hs
  unfold repairOne
  dsimp only
  rw [hs', if_neg (show ¬ t < 9 by omega)]
  simp only [h20, if_true, laneKind]

theorem repairs_lane {h : Half} {t : Fin 22} {i code n : Nat} {s : State} (h9 : 9 ≤ t.val) (h20 : t.val < 20)
    (hw : h.pick s.rep.waitE s.rep.waitW = [t]) (hs : spareFor s h t.val = some (i, code)) :
    repairs h (n + 1) s =
      popWait h (queueRepair (Repair.mk0 (laneKind t.val) h t.val code) (takeSpare h i (failTgt h t.val (setTstStat 2 s)))) := by
  rw [repairs, hw]
  dsimp only
  rw [if_neg (show ¬ (t.val < 9 ∧ (spareFor s h t.val).isSome = true) from fun hx => absurd hx.1 (by omega)), repairOne_lane h9 h20 hs]
  have hn := (noted_queueRepair (Repair.mk0 (laneKind t.val) h t.val code) (takeSpare h i (failTgt h t.val (setTstStat 2 s)))).frame
  have hrep : (queueRepair (Repair.mk0 (laneKind t.val) h t.val code) (takeSpare h i (failTgt h t.val (setTstStat 2 s)))).rep = s.rep :=
    hn .rep (by decide)
  generalize queueRepair _ _ = v at hrep
  refine repairs_none ?_
  cases h <;> simp_all [popWait, Half.pick]

/-- The failure in service of a lane or a datapath with a spare for it, where nothing waits (R357). -/
theorem failTarget_lane {h : Half} {t : Fin 22} {i : Nat} (step source : Nat) (expect actual : BitVec 32) (last : BitVec 64) (ver : BitVec 32)
    {s : State} (h9 : 9 ≤ t.val) (h20 : t.val < 20) (hst : (tgt s h t.val).state = 0) (hw : h.pick s.rep.waitE s.rep.waitW = [])
    (hl : lowestSpare s h (if t.val < 18 then 9 else 18) (if t.val < 18 then 9 else 2) i) :
    let u := failTarget h t step source expect actual last ver s
    replaced h t.val i s u ∧ h.pick u.rep.waitE u.rep.waitW = [] ∧ u.tst.stat.getLsbD 0 = true ∧ u.tst.stat.getLsbD 2 = true ∧
      ∃ v, u.tst.queue = (queueRepair (Repair.mk0 (laneKind t.val) h t.val (i - if t.val < 18 then 9 else 18)) v).tst.queue ∧
        v.tst.queue = s.tst.queue ∧ v.tst.persistEn = s.tst.persistEn := by
  have hns : isSpare (tgt s h t.val) = false := by simp [isSpare, hst]
  intro u
  have hu : u = failTarget h t step source expect actual last ver s := rfl
  unfold failTarget at hu
  dsimp only at hu
  rw [hns, if_neg (by decide), if_neg (show ¬ (tgt s h t.val).state = 2 by rw [hst]; decide)] at hu
  generalize hs1 : setTstStat 0 _ = s1 at hu
  have htgt1 (g : Half) (k : Nat) (hk : k < 22) (hne : ¬ (g = h ∧ k = t.val)) : tgt s1 g k = tgt s g k := by
    rw [← hs1, tgt_setTstStat, tgt_setTgt s h g t.val k _ t.isLt hk, if_neg hne]
  have hstate1 (k : Nat) (hk : k < 22) : (tgt s1 h k).state = (tgt s h k).state := by
    rw [← hs1, tgt_setTstStat, tgt_setTgt s h h t.val k _ t.isLt hk]
    split
    next he => rw [he.2]
    next => rfl
  have hstat1 : s1.tst.stat.getLsbD 0 = true := by
    rw [← hs1]
    exact stat_setTstStat (by decide) _
  have hq1 : s1.tst.queue = s.tst.queue ∧ s1.tst.persistEn = s.tst.persistEn ∧ s1.rep = s.rep := by
    rw [← hs1]
    exact ⟨rfl, rfl, rfl⟩
  have hspare (x : State) (hx : x.tst = s1.tst) : spareFor x h t.val = some (i, i - if t.val < 18 then 9 else 18) :=
    spareFor_lane h9 h20 (lowestSpare_congr hl (by split <;> omega) fun k hk => by rw [tgt_congr hx, hstate1 k hk])
  have hact : (failRec s1 h t.val step source expect actual last ver).action = 8 := by
    simp only [failRec, hspare s1 rfl, Option.isSome_some, if_true]
  rw [hact, if_neg (by decide)] at hu
  generalize hr : failRec s1 h t.val step source expect actual last ver = r at hu
  have htst : (writeRec r s1).tst = s1.tst := (writeRec_frame r s1) .tst (by decide)
  have hrep : (writeRec r s1).rep = s1.rep := (writeRec_frame r s1) .rep (by decide)
  generalize writeRec r s1 = v at hu htst hrep
  generalize hw1 : v.onRep _ = w at hu
  have hwait : h.pick w.rep.waitE w.rep.waitW = [t] := by
    rw [← hw1]
    cases h <;> simpa [Half.pick, hrep, hq1.2.2] using hw
  have hwtst : w.tst = s1.tst := by
    rw [← hw1]
    exact htst
  rw [repairs_lane h9 h20 hwait (hspare w hwtst)] at hu
  have hi22 : i < 22 := by
    obtain ⟨-, h2, -⟩ := hl
    revert h2
    split <;> intro <;> omega
  have hne : i ≠ t.val := fun he => absurd (he ▸ hl.2.2.1) (by rw [hst]; decide)
  have hrepl : replaced h t.val i (setTstStat 2 w) (takeSpare h i (failTgt h t.val (setTstStat 2 w))) :=
    replaced_takeSpare t.isLt hi22 hne (by rw [tgt_setTstStat, tgt_congr hwtst, hstate1 i hi22]; exact hl.2.2.1)
  have hstat : ∀ j, j = 0 ∨ j = 2 → (takeSpare h i (failTgt h t.val (setTstStat 2 w))).tst.stat.getLsbD j = true := by
    have h2 := stat_setTstStat (i := 2) (by decide) w
    have h0 := (noted_setTstStat 2 w).stat 0 (by decide) (by rw [hwtst]; exact hstat1)
    rintro j (rfl | rfl)
    · exact h0
    · exact h2
  have hqueue : (takeSpare h i (failTgt h t.val (setTstStat 2 w))).tst.queue = s.tst.queue ∧
      (takeSpare h i (failTgt h t.val (setTstStat 2 w))).tst.persistEn = s.tst.persistEn := by
    refine ⟨(congrArg Tst.queue hwtst).trans hq1.1, (congrArg Tst.persistEn hwtst).trans hq1.2.1⟩
  have hfree : (takeSpare h i (failTgt h t.val (setTstStat 2 w))).rep = w.rep := rfl
  generalize takeSpare h i (failTgt h t.val (setTstStat 2 w)) = x at hu hrepl hstat hqueue hfree
  have hn := noted_queueRepair (Repair.mk0 (laneKind t.val) h t.val (i - if t.val < 18 then 9 else 18)) x
  have hutst : u.tst = (queueRepair (Repair.mk0 (laneKind t.val) h t.val (i - if t.val < 18 then 9 else 18)) x).tst := by
    rw [hu]
    rfl
  refine ⟨replaced_congr (fun g k hk hx => ?_) (fun g k => ?_) hrepl, ?_, ?_, ?_, x, congrArg Tst.queue hutst, hqueue⟩
  · rw [tgt_setTstStat, tgt_congr hwtst, htgt1 g k hk hx]
  · rw [tgt_congr hutst, tgt_queueRepair]
  · have hrep2 : (queueRepair (Repair.mk0 (laneKind t.val) h t.val (i - if t.val < 18 then 9 else 18)) x).rep = w.rep :=
      (hn.frame .rep (by decide)).trans hfree
    rw [hu]
    cases h <;> simp_all [popWait, Half.pick]
  · rw [hutst]
    exact hn.stat 0 (by decide) (hstat 0 (.inl rfl))
  · rw [hutst]
    exact hn.stat 2 (by decide) (hstat 2 (.inr rfl))

/-! ## The swap-in of a core (R360) -/

theorem epochFinish_idle {s : State} (h : s.glb.pending = false) : epochFinish s = s := by
  rw [epochFinish, if_pos (.inl (by rw [h]; rfl))]

/-- What dropping a core's results and its instruction lines leaves. -/
theorem roDropCore_leaves (k : Nat) (s : State) :
    changesOnly [.seq, .cache] s (roDropCore k s) ∧ calm (roDropCore k s) = calm s :=
  ⟨by simp [roDropCore, roForget], rfl⟩

/-- A core goes out of use (R359): its number, and its instruction cache to be cleared. -/
theorem coreOut_idle {k : Nat} {s : State} (h : s.glb.pending = false) :
    changesOnly [.cch, .rep, .glb, .seq, .cache] s (coreOut k s) ∧ (coreOut k s).glb.pending = false ∧ calm (coreOut k s) = calm s ∧
      (coreOut k s).rep = { s.rep with logical := tset none s.rep.logical k (some 0xFF) } ∧
      (coreOut k s).cch.clrBusy = setBit s.cch.clrBusy (6 + k) true := by
  unfold coreOut
  dsimp only
  generalize hx : State.onCch _ _ = x
  have hf : changesOnly [.cch, .rep, .glb] s x := by
    rw [← hx]
    simp
  have hcalm : calm x = calm s := by
    rw [← hx]
    rfl
  have hrep : x.rep = { s.rep with logical := tset none s.rep.logical k (some 0xFF) } := by
    rw [← hx]
    rfl
  have hcch : x.cch.clrBusy = setBit s.cch.clrBusy (6 + k) true := by
    rw [← hx]
    rfl
  have hglb : x.glb.pending = false := by
    rw [← hx]
    exact h
  obtain ⟨hd, hdc⟩ := roDropCore_leaves k x
  have hdg : (roDropCore k x).glb.pending = false := by rw [hd .glb (by decide), hglb]
  rw [epochFinish_idle hdg]
  exact ⟨changesOnly_trans (changesOnly_mono hf (by decide)) (changesOnly_mono hd (by decide)), hdg, hdc.trans hcalm,
    (hd .rep (by decide)).trans hrep, by rw [hd .cch (by decide), hcch]⟩

/-- No thread of a core without a task moves. -/
theorem foldl_free {f : State → Nat → State} {s : State} (hf : ∀ i, i < 4 → f s i = s) (l : List Nat) (hl : ∀ i ∈ l, i < 4) :
    l.foldl f s = s := by
  induction l with
  | nil => rfl
  | cons i l ih =>
    rw [List.foldl_cons, hf i (hl i List.mem_cons_self)]
    exact ih fun j hj => hl j (List.mem_cons_of_mem _ hj)

theorem swapIn_idle {h : Half} {c sp : Nat} {crcOk : BitVec 4} {s : State} (hc : c < 9) (hsp : sp < 9) (hne : sp ≠ c)
    (hst : (tgt s h sp).state = 1) (hp : s.glb.pending = false) (hfree : ∀ i, i < 4 → (thr s (4 * (9 * h.idx + c) + i)).phase = .free) :
    let u := swapIn h c sp crcOk s
    replaced h c sp s u ∧ calm u = calm s ∧
      u.rep = { s.rep with logical := tset none (tset none s.rep.logical (9 * h.idx + sp)
        (some (BitVec.ofNat 8 ((logicalCore s (9 * h.idx + c)).getD 0xFF)))) (9 * h.idx + c) (some 0xFF) } ∧
      u.cch.clrBusy = setBit s.cch.clrBusy (6 + (9 * h.idx + c)) true := by
  intro u
  have hu : u = swapIn h c sp crcOk s := rfl
  unfold swapIn at hu
  dsimp only at hu
  rw [foldl_free (fun i hi => by simp only [hfree i hi, if_true, dite_eq_ite, ite_self]) _ (fun i hi => List.mem_range.mp hi)] at hu
  generalize (logicalCore s (9 * h.idx + c)).getD 0xFF = l at hu ⊢
  have hrepl := replaced_takeSpare (h := h) (by omega : c < 22) (by omega : sp < 22) hne hst
  generalize hx : takeSpare h sp (failTgt h c s) = x at hu hrepl
  have hxf : changesOnly [.tst] s x := by
    rw [← hx]
    simp [takeSpare, failTgt, changesOnly_setTgt]
  have hxcalm : calm x = calm s := by
    rw [← hx]
    rfl
  generalize hy : x.onRep _ = y at hu
  have hyf : changesOnly [.rep] x y := by
    rw [← hy]
    simp
  have hycalm : calm y = calm x := by
    rw [← hy]
    rfl
  have hyrep : y.rep = { s.rep with logical := tset none s.rep.logical (9 * h.idx + sp) (some (BitVec.ofNat 8 l)) } := by
    have hr : y.rep = { x.rep with logical := tset none x.rep.logical (9 * h.idx + sp) (some (BitVec.ofNat 8 l)) } := by
      rw [← hy]
      rfl
    rw [hr, show x.rep = s.rep from hxf .rep (by decide)]
  obtain ⟨hof, hog, hoc, hor, hob⟩ := coreOut_idle (k := 9 * h.idx + c) (s := y)
    (by rw [hyf .glb (by decide), hxf .glb (by decide)]; exact hp)
  have hytst : y.tst = x.tst := hyf .tst (by decide)
  have hycch : y.cch = s.cch := (hyf .cch (by decide)).trans (hxf .cch (by decide))
  generalize coreOut (9 * h.idx + c) y = z at hu hof hog hoc hor hob
  have hztst : z.tst = x.tst := (hof .tst (by decide)).trans hytst
  generalize hw : z.onGlb _ = w at hu
  have hwf : changesOnly [.glb] z w := by
    rw [← hw]
    simp
  have hwg : w.glb.pending = false := by
    rw [← hw]
    exact hog
  have hwcalm : calm w = calm z := by
    rw [← hw]
    rfl
  have hn := (noted_setTstStat 2 w).trans (noted_queueRepair (Repair.mk0 1 h c sp) _)
  have hqtgt (g : Half) (k : Nat) : tgt (queueRepair (Repair.mk0 1 h c sp) (setTstStat 2 w)) g k = tgt w g k := by
    rw [tgt_queueRepair, tgt_setTstStat]
  generalize queueRepair (Repair.mk0 1 h c sp) (setTstStat 2 w) = v at hu hn hqtgt
  have hvcalm : calm v = calm w := calm_congr (hn.frame .cache (by decide)) (hn.frame .atu (by decide)) (hn.frame .buf (by decide))
  have hvg : v.glb = w.glb := hn.frame .glb (by decide)
  obtain ⟨hd, hdc⟩ := roDropCore_leaves (9 * h.idx + sp) v
  rw [epochFinish_idle (by rw [hd .glb (by decide), hvg]; exact hwg)] at hu
  have hwtst : w.tst = x.tst := (hwf .tst (by decide)).trans hztst
  refine ⟨replaced_congr (fun _ _ _ _ => rfl) (fun g k => ?_) hrepl, ?_, ?_, ?_⟩
  · rw [hu, tgt_congr (hd .tst (by decide)), hqtgt, tgt_congr hwtst]
  · rw [hu, hdc, hvcalm, hwcalm, hoc, hycalm, hxcalm]
  · rw [hu, hd .rep (by decide), hn.frame .rep (by decide), hwf .rep (by decide), hor, hyrep]
  · rw [hu, hd .cch (by decide), hn.frame .cch (by decide), hwf .cch (by decide), hob, hycch]

/-! ## The obligation -/

theorem genBump_frame (s t : State) : changesOnly [.pwr] t (genBump s t) := by
  obtain ⟨g, hg⟩ := genBump_eq s t
  rw [hg]
  simp

theorem targetBecomes_answered {h : Half} {t : Nat} {x : Target} {s u : State} : targetBecomes h t x s (answered s u) ↔ targetBecomes h t x s u :=
  Iff.rfl

theorem stepOk_of {s : State} {h : Half} {t : Fin 22} (hen : s.tst.en = true) (hup : tgtUp s h t.val = true)
    (hst : (tgt s h t.val).state = 0 ∨ (tgt s h t.val).state = 1) (hw : t ∉ h.pick s.rep.waitE s.rep.waitW) : stepOk s h t = true := by
  unfold stepOk waitsRepair
  rcases hst with hst | hst <;> simp [hen, hup, hst, hw]

theorem stepStart_spec (h : Half) (t : Fin 22) (forced : Bool) (s : State) :
    targetBecomes h t.val
      { tgt s h t.val with
        state := 2, back := (tgt s h t.val).state, next := if (tgt s h t.val).fresh then 0 else (tgt s h t.val).next, fresh := false,
        since := 0, repeats := 0, forced := forced,
        want := packWant s.tst.pack (tgtCls t.val) (if (tgt s h t.val).fresh then 0 else (tgt s h t.val).next : BitVec 4).toNat,
        log2s := packS s.tst.pack (tgtCls t.val), packVer := s.tst.pack.ver,
        lastIdle := if forced then (tgt s h t.val).lastIdle else some s.clk.time, began := s.clk.time } s (stepStart h t forced s) ∧
      changesOnly [.tst, .cnt] s (stepStart h t forced s) := by
  have hstep : (if (tgt s h t.val).fresh then 0 else (tgt s h t.val).next.toNat) =
      (if (tgt s h t.val).fresh then 0 else (tgt s h t.val).next : BitVec 4).toNat := by split <;> rfl
  unfold stepStart
  dsimp only
  rw [hstep, BitVec.ofNat_toNat, BitVec.setWidth_eq]
  exact ⟨targetBecomes_congr (cnt_tst ..) (targetBecomes_setTgt t.isLt _ s), by simp [changesOnly_setTgt]⟩

/-- The end of a step where nothing waits, with no unit's word changed. -/
theorem testStepDone_quiet {h : Half} {t : Fin 22} {sig : BitVec 32} {lane : Fin 32} {s : State} (hn : nothingWaits h t.val s)
    (hf : changesOnly [.tst, .loops, .log] s (stepEnd h t sig lane s))
    (hsh : ∀ g k, k < 22 → shown (tgt (stepEnd h t sig lane s) g k) = shown (tgt s g k)) :
    exec (.testStepDone h t sig lane) s = answer s (stepEnd h t sig lane s) := by
  rw [exec_testStepDone, stepFollows_idle hn hf,
    genBump_same (unitOwn_congr hsh (hf .rep (by decide)) (hf .boot (by decide)))]

/-- TST_SWAP of a lane or a datapath in service that a spare replaces (R357). -/
theorem tstSwap_lane {h : Half} {t i : Nat} {s : State} (ht : t < 22) (h9 : 9 ≤ t) (h20 : t < 20) (hst : (tgt s h t).state = 0)
    (hw : h.pick s.rep.waitE s.rep.waitW = []) (hl : lowestSpare s h (if t < 18 then 9 else 18) (if t < 18 then 9 else 2) i) :
    let u := tstSwap h t s
    replaced h t i s u ∧ h.pick u.rep.waitE u.rep.waitW = [] ∧ u.tst.stat.getLsbD 0 = true ∧ u.tst.stat.getLsbD 2 = true ∧
      ∃ v, u.tst.queue = (queueRepair (Repair.mk0 (laneKind t) h t (i - if t < 18 then 9 else 18)) v).tst.queue ∧
        v.tst.queue = s.tst.queue ∧ v.tst.persistEn = s.tst.persistEn := by
  intro u
  have hu : u = tstSwap h t s := rfl
  have hgo : ¬ ((!serving (tgt s h t)) = true ∨ waitsRepair s h ⟨t, ht⟩ = true) := by simp [serving, hst, waitsRepair, hw]
  unfold tstSwap at hu
  rw [dif_pos ht] at hu
  dsimp only at hu
  rw [if_neg hgo] at hu
  obtain ⟨x, hu, hx⟩ : ∃ x : Target,
      u = failTarget h ⟨t, ht⟩ 0xFF 8 0 0 0 (setTgt h t x s).tst.pack.ver (setTgt h t x s) ∧ x.state = 0 := ⟨_, hu, hst⟩
  have htgt (g : Half) (k : Nat) (hk : k < 22) : tgt (setTgt h t x s) g k = if g = h ∧ k = t then x else tgt s g k := tgt_setTgt s h g t k x ht hk
  have hstate (k : Nat) (hk : k < 22) : (tgt (setTgt h t x s) h k).state = (tgt s h k).state := by
    rw [htgt h k hk]
    split
    next he => rw [hx, he.2, hst]
    next => rfl
  have hf := failTarget_lane (t := ⟨t, ht⟩) 0xFF 8 0 0 0 (setTgt h t x s).tst.pack.ver (s := setTgt h t x s) h9 h20
    ((hstate t ht).trans hst) hw (lowestSpare_congr hl (by split <;> omega) hstate)
  rw [← hu] at hf
  obtain ⟨hr, hrest⟩ := hf
  exact ⟨replaced_congr (fun g k hk hne => by rw [htgt g k hk, if_neg hne]) (fun _ _ => rfl) hr, hrest⟩

/-- A repair record is queued for flash while there is room (R365). -/
theorem queueRepair_queues (r : Repair) {v : State} (hp : v.tst.persistEn = true) (hl : v.tst.queue.length < 16) :
    ∃ q, (queueRepair r v).tst.queue = v.tst.queue ++ [q] ∧ q.type = r.type ∧ q.half = r.half ∧ q.unit = r.unit ∧ q.subst = r.subst := by
  unfold queueRepair
  rw [if_neg (by simp [hp]), if_neg (by omega)]
  exact ⟨_, rfl, rfl, rfl, rfl, rfl⟩

theorem waits_popWait (h : Half) (s : State) :
    h.pick (popWait h s).rep.waitE (popWait h s).rep.waitW = (h.pick s.rep.waitE s.rep.waitW).tail := by cases h <;> rfl

/-- The swap-in of a core without tasks, the only target that waits (R360). -/
theorem coreSwapIn_ready {h : Half} {t : Fin 22} {i : Nat} {crcOk : BitVec 4} {s : State} (hw : h.pick s.rep.waitE s.rep.waitW = [t])
    (h9 : t.val < 9) (hst : (tgt s h t.val).state = 0) (hl : lowestSpare s h 0 9 i)
    (hfree : ∀ k, k < 4 → (thr s (4 * (9 * h.idx + t.val) + k)).phase = .free) (hcalm : calm s = true) (hpend : s.glb.pending = false) :
    exec (.coreSwapIn h crcOk) s = answer s (genBump s (popWait h (swapIn h t.val i crcOk s))) := by
  have he : exec (.coreSwapIn h crcOk) s = execCoreSwapIn h crcOk s := rfl
  have hne : i ≠ t.val := fun hx => absurd (hx ▸ hl.2.2.1) (by rw [hst]; decide)
  have hi : i < 9 := by
    obtain ⟨-, h2, -⟩ := hl
    omega
  obtain ⟨-, hc, hrep, -⟩ := swapIn_idle (crcOk := crcOk) h9 hi hne hl.2.2.1 hpend hfree
  have hready : ((List.range 4).all fun k => if hi : 4 * (9 * h.idx + t.val) + k < 72 then
      (thr s (4 * (9 * h.idx + t.val) + k)).phase == .free || canMove s ⟨4 * (9 * h.idx + t.val) + k, hi⟩ else true) = true := by
    rw [List.all_eq_true]
    intro k hk
    split
    · rw [hfree k (List.mem_range.mp hk)]
      rfl
    · rfl
  rw [execCoreSwapIn, hw] at he
  dsimp only at he
  rw [if_pos h9, spareFor_core_lowest h9 hl] at he
  dsimp only at he
  rw [if_pos hready] at he
  generalize swapIn h t.val i crcOk s = w at *
  have hpop : calm (popWait h w) = calm w := by cases h <;> rfl
  rw [repairs_none (by rw [waits_popWait, hrep]; exact congrArg List.tail hw), settle_calm (hpop.trans (hc.trans hcalm))] at he
  exact he

theorem logicalCore_out {u : State} {k : Nat} {l : Tab (Option (BitVec 8))} (h : u.rep.logical = tset none l k (some 0xFF)) :
    logicalCore u k = none := by
  rw [logicalCore, h, tget_tset_self]
  exact if_pos rfl

/-- A logical number that is given to another core (R359). -/
theorem logicalCore_moved {s u : State} {j k : Nat} {l : Tab (Option (BitVec 8))}
    (h : u.rep.logical = tset none (tset none l j (some (BitVec.ofNat 8 ((logicalCore s k).getD 0xFF)))) k (some 0xFF)) (hne : j ≠ k) :
    logicalCore u j = logicalCore s k := by
  have hu : logicalCore u j =
      if BitVec.ofNat 8 ((logicalCore s k).getD 0xFF) = 0xFF then none else some (BitVec.ofNat 8 ((logicalCore s k).getD 0xFF)).toNat := by
    rw [logicalCore, h, tget_tset_ne _ _ _ hne, tget_tset_self]
  rw [hu]
  unfold logicalCore
  split
  next v _ =>
    by_cases hv : v = 0xFF
    · rw [if_pos hv]
      rfl
    · rw [if_neg hv, Option.getD_some, BitVec.ofNat_toNat, BitVec.setWidth_eq, if_neg hv]
  next =>
    split
    next h8 =>
      have hlt : coreInHalf k < 256 := by omega
      have hno : BitVec.ofNat 8 (coreInHalf k) ≠ 0xFF := fun hx => by
        have := congrArg BitVec.toNat hx
        simp [Nat.mod_eq_of_lt hlt] at this
        omega
      rw [Option.getD_some, if_neg hno, BitVec.toNat_ofNat, Nat.mod_eq_of_lt hlt]
    next => rfl

/-- Settles O46. -/
theorem testTargets : Obligations.TestTargets := by
  unfold Obligations.TestTargets
  refine ⟨fun h t s => ?_, fun h s => ?_⟩
  · intro x cls up step loop starts none_
    have hup : tgtUp s h t.val = up := tgtUp_eq s h t.val
    refine ⟨fun hen hu hw => ⟨fun hst hop hidle => ?_, fun hst hsince => ?_⟩,
      fun sig lane hst hb hu hnone => ⟨fun hsig hr => ?_, fun hsig hr => ?_, fun hsig hr hb1 => ?_⟩⟩
    · have hok := stepOk_of hen (hup.trans hu) hst hw
      have he : exec (.idleStep h t) s = execIdleStep h t s := rfl
      rw [execIdleStep] at he
      dsimp only at he
      rw [if_pos ⟨hok, hop, hidle⟩] at he
      obtain ⟨h1, h2⟩ := stepStart_spec h t false s
      exact completesWith_answer he ⟨targetBecomes_answered.mpr h1, changesOnly_answered.mpr h2⟩
    · have hok := stepOk_of hen (hup.trans hu) (.inl hst) hw
      have he : exec (.forcedStep h t) s = execForcedStep h t s := rfl
      have hserve : serving (tgt s h t.val) = true := by simp [serving, show (tgt s h t.val).state = 0 from hst]
      rw [execForcedStep, if_pos ⟨hok, hserve, hsince⟩] at he
      obtain ⟨h1, h2⟩ := stepStart_spec h t true s
      exact completesWith_answer he ⟨targetBecomes_answered.mpr h1, changesOnly_answered.mpr h2⟩
    · obtain ⟨u, huf, hend⟩ := stepEnd_passes (lane := lane) hst (hup.trans hu) hsig hr
      have hf : changesOnly [.tst, .loops] s (stepEnd h t sig lane s) := by
        rw [hend, changesOnly_setTgt (by decide)]
        exact changesOnly_mono huf (by decide)
      have hutgt (g : Half) (k : Nat) : tgt u g k = tgt s g k := tgt_congr (huf .tst (by decide)) g k
      have he := testStepDone_quiet (lane := lane) hnone (changesOnly_mono hf (by decide)) fun g k hk => by
        rw [hend, ← hutgt g k]
        refine shown_setTgt t.isLt ?_ g k hk
        rw [hutgt]
        exact shown_back hst hb
      refine completesWith_answer he ⟨targetBecomes_answered.mpr ?_, changesOnly_answered.mpr hf⟩
      obtain ⟨h1, h2⟩ := targetBecomes_setTgt t.isLt _ u
      rw [hend]
      exact ⟨h1, fun g k hk hne => (h2 g k hk hne).trans (hutgt g k)⟩
    · have hend := stepEnd_repeats (lane := lane) hst (hup.trans hu) hsig hr
      have hf : changesOnly [.tst] s (stepEnd h t sig lane s) := by
        rw [hend]
        simp [changesOnly_setTgt]
      have he := testStepDone_quiet (lane := lane) hnone (changesOnly_mono hf (by decide)) fun g k hk => by
        rw [hend]
        exact shown_setTgt t.isLt (by rfl) g k hk
      refine completesWith_answer he ⟨targetBecomes_answered.mpr ?_, changesOnly_answered.mpr hf⟩
      rw [hend]
      exact targetBecomes_setTgt t.isLt _ s
    · obtain ⟨h3, hbit, hoth, hf⟩ := stepEnd_spareFails (lane := lane) hst (hup.trans hu) hsig hr hb1
      have he := exec_testStepDone h t sig lane s
      rw [stepFollows_idle hnone hf] at he
      have hg := genBump_frame s (stepEnd h t sig lane s)
      have htst : (genBump s (stepEnd h t sig lane s)).tst = (stepEnd h t sig lane s).tst := hg .tst (by decide)
      have hgf := changesOnly_trans (changesOnly_mono hf (show _ ⊆ [.tst, .loops, .log, .pwr] by decide)) (changesOnly_mono hg (by decide))
      generalize genBump s _ = v at he htst hgf
      refine completesWith_answer he ⟨?_, ?_, fun g k hk hne => ?_, changesOnly_answered.mpr hgf⟩
      · exact (congrArg Target.state (tgt_congr htst h t.val)).trans h3
      · exact (congrArg (fun y : Tst => y.stat.getLsbD 0) htst).trans hbit
      · exact (tgt_congr htst g k).trans (hoth g k hk hne)
  · intro waits lowest others
    refine ⟨fun t ht => ?_, fun t i h9 h20 hst hw hl => ?_, fun t i crcOk hw h9 hst hl hfree hcalm hpend => ?_⟩
    · have he : exec (.tstSwap h t) s = answer s (genBump s (tstSwap h t.toNat s)) := rfl
      have href : tstSwap h t.toNat s = setTstStat 6 s := by
        unfold tstSwap
        split
        next hlt =>
          refine if_pos (.inl ?_)
          rcases ht with h22 | h1 | h3
          · omega
          · simp [serving, h1]
          · simp [serving, h3]
        next => rfl
      rw [href, genBump_same (s := s) (u := setTstStat 6 s) (unitOwn_congr (fun _ _ _ => rfl) rfl rfl)] at he
      exact completesWith_answer he ⟨rfl, by simp⟩
    · have he : exec (.tstSwap h t) s = answer s (genBump s (tstSwap h t.toNat s)) := rfl
      obtain ⟨hr, hwt, h0, h2, v, hq, hvq, hvp⟩ := tstSwap_lane (by omega : t.toNat < 22) h9 h20 hst hw hl
      have hg := genBump_frame s (tstSwap h t.toNat s)
      have htst : (genBump s (tstSwap h t.toNat s)).tst = (tstSwap h t.toNat s).tst := hg .tst (by decide)
      have hrep : (genBump s (tstSwap h t.toNat s)).rep = (tstSwap h t.toNat s).rep := hg .rep (by decide)
      generalize tstSwap h t.toNat s = w at *
      generalize genBump s w = u at *
      have hru := replaced_congr (fun _ _ _ _ => rfl) (tgt_congr htst) hr
      refine completesWith_answer he ⟨hru.1, hru.2.1, hru.2.2, ?_, ?_, ?_, fun hp hl16 => ?_⟩
      · exact (congrArg (fun y : Repairs => h.pick y.waitE y.waitW) hrep).trans hwt
      · exact (congrArg (fun y : Tst => y.stat.getLsbD 0) htst).trans h0
      · exact (congrArg (fun y : Tst => y.stat.getLsbD 2) htst).trans h2
      · obtain ⟨r, hqr, hr1, hr2, hr3, hr4⟩ := queueRepair_queues (Repair.mk0 (laneKind t.toNat) h t.toNat (i - if t.toNat < 18 then 9 else 18))
          (hvp.trans hp) (by rw [hvq]; exact hl16)
        refine ⟨r, ?_, ?_, hr2, ?_, ?_⟩
        · rw [answered_tst, htst, hq, hqr, hvq]
        · rw [hr1]
          simp only [Repair.mk0, laneKind]
          split <;> rfl
        · rw [hr3]
          exact BitVec.toNat_ofNat .. |>.trans (Nat.mod_eq_of_lt (by omega))
        · rw [hr4]
          refine BitVec.toNat_ofNat .. |>.trans (Nat.mod_eq_of_lt ?_)
          obtain ⟨-, hlt, -⟩ := hl
          revert hlt
          split <;> intro <;> omega
    · have he : exec (.coreSwapIn h crcOk) s = answer s (genBump s (popWait h (swapIn h t.val i crcOk s))) :=
        coreSwapIn_ready hw h9 hst hl hfree hcalm hpend
      have hne : i ≠ t.val := fun hx => absurd (hx ▸ hl.2.2.1) (by rw [hst]; decide)
      obtain ⟨hr, -, hrep, hbusy⟩ := swapIn_idle (crcOk := crcOk) h9 (by omega) hne hl.2.2.1 hpend hfree
      generalize swapIn h t.val i crcOk s = w at *
      have hg := genBump_frame s (popWait h w)
      have htst : (genBump s (popWait h w)).tst = w.tst := hg .tst (by decide)
      have hrep' : (genBump s (popWait h w)).rep = (popWait h w).rep := hg .rep (by decide)
      have hcch : (genBump s (popWait h w)).cch = w.cch := hg .cch (by decide)
      generalize genBump s (popWait h w) = u at *
      have hru := replaced_congr (fun _ _ _ _ => rfl) (tgt_congr htst) hr
      have hlog : (answered s u).rep.logical = w.rep.logical := (congrArg Repairs.logical hrep').trans (by cases h <;> rfl)
      rw [hrep] at hlog
      refine completesWith_answer he ⟨hru.1, hru.2.1, hru.2.2, ?_, ?_, ?_, ?_⟩
      · refine (congrArg (fun y : Repairs => h.pick y.waitE y.waitW) hrep').trans ?_
        refine (waits_popWait h w).trans ?_
        rw [hrep]
        exact congrArg List.tail hw
      · exact logicalCore_moved hlog (by omega)
      · exact logicalCore_out hlog
      · refine (congrArg (fun y : Cch => y.clrBusy.getLsbD (6 + (9 * h.idx + t.val))) hcch).trans ?_
        rw [hbusy]
        have hidx : h.idx ≤ 1 := by cases h <;> decide
        exact (getLsbD_setBit_true _ _ (by omega)).trans (by simp)

end Sys2Proof.Machine
end

section
/-! PROOFS. Partition resets (R337, R338). -/

namespace Sys2Proof.Machine

open Sys2Proof.Safety

/-! ## What every step of a reset keeps -/

/-- What a task is, to the tasks of other partitions. -/
def taskOf (x : Thread) : Phase × Pva × Tab (BitVec 64) × List Outst × Option Wait := (x.phase, x.pc, x.g, x.outs, x.wait)

/-- The pipelines hold nothing, and no request of the shelf waits for a port. -/
def emptyPipes (s : State) : Prop := calm s = true ∧ s.cache.pool = []

/-- What a step of a reset that stops no task keeps. -/
structure ResetStep (s u : State) : Prop where
  frame : changesOnly [.integ, .cnt, .cache, .atu, .seq, .xlt] s u
  bytes : u.cache.data = s.cache.data
  pipes : emptyPipes s → emptyPipes u
  fence : fenced u = fenced s
  last : u.integ.prstPart = s.integ.prstPart ∧ u.integ.prstCause = s.integ.prstCause
  tasks : ∀ t, taskOf (thr u t) = taskOf (thr s t)
  seq : u.seq.sp = s.seq.sp ∧ u.seq.resumeE = s.seq.resumeE ∧ u.seq.resumeW = s.seq.resumeW ∧ u.seq.tq = s.seq.tq

theorem ResetStep.refl (s : State) : ResetStep s s where
  frame := changesOnly_refl _ s
  bytes := rfl
  pipes := id
  fence := rfl
  last := ⟨rfl, rfl⟩
  tasks _ := rfl
  seq := ⟨rfl, rfl, rfl, rfl⟩

theorem ResetStep.trans {s u v : State} (h1 : ResetStep s u) (h2 : ResetStep u v) : ResetStep s v where
  frame := changesOnly_trans h1.frame h2.frame
  bytes := h2.bytes.trans h1.bytes
  pipes := h2.pipes ∘ h1.pipes
  fence := h2.fence.trans h1.fence
  last := ⟨h2.last.1.trans h1.last.1, h2.last.2.trans h1.last.2⟩
  tasks t := (h2.tasks t).trans (h1.tasks t)
  seq := by
    obtain ⟨a, b, c, d⟩ := h1.seq
    obtain ⟨a', b', c', d'⟩ := h2.seq
    exact ⟨a'.trans a, b'.trans b, c'.trans c, d'.trans d⟩

theorem emptyPipes_congr {s u : State} (hc : u.cache = s.cache) (ha : u.atu = s.atu) (hb : u.buf = s.buf) (h : emptyPipes s) : emptyPipes u :=
  ⟨(calm_congr hc ha hb).trans h.1, (congrArg (·.pool) hc).trans h.2⟩

/-- A fold of steps is a step. -/
theorem ResetStep.foldl {α : Type} {f : State → α → State} (hf : ∀ u a, ResetStep u (f u a)) (l : List α) (s : State) : ResetStep s (l.foldl f s) := by
  induction l generalizing s with
  | nil => exact .refl s
  | cons a l ih => exact (hf s a).trans (ih _)

/-! ## Its steps -/

theorem resetStep_cnt (ev : Nat) (h : Option Half) (p : Option Part) (k : Nat) (s : State) : ResetStep s (cnt ev h p k s) where
  frame := by simp
  bytes := by simp
  pipes := emptyPipes_congr (by simp) (by simp) (by simp)
  fence := by
    funext q
    simp [fenced]
  last := by simp
  tasks t := by simp
  seq := by simp

/-- Counting discards (R338). -/
theorem resetStep_discard (p : Part) (k : Nat) (s : State) : ResetStep s (prstDiscard p k s) := by
  refine ResetStep.trans ?_ (resetStep_cnt 0x056 none (some p) k _)
  exact {
    frame := by simp
    bytes := rfl
    pipes := id
    fence := by
      funext q
      simp only [fenced, State.onInteg_integ, List.any_map]
      refine congrArg (fun f => s.integ.prst.any f) ?_
      funext r
      simp only [Function.comp_apply]
      split <;> rfl
    last := ⟨rfl, rfl⟩
    tasks := fun _ => rfl
    seq := ⟨rfl, rfl, rfl, rfl⟩ }

theorem onCache_same {f : Cache → Cache} {s : State} (h : f s.cache = s.cache) : s.onCache f = s := by rw [State.onCache, h]

/-- With nothing in the pipelines no accepted write is discarded. -/
theorem prstWrites_empty {p : Part} {s : State} (h : emptyPipes s) : prstWrites p s = prstDiscard p 0 s := by
  obtain ⟨hb, hm, hi, -⟩ := calm_iff.mp h.1
  have hc : ({ s.cache with pool := [], blocked := [], mshr := [], invs := [] } : Cache) = s.cache := by rw [← hb, ← hm, ← hi, ← h.2]
  unfold prstWrites
  simp only [hb, hm, hi, h.2, List.filter_nil, List.flatMap_nil, List.filterMap_nil, List.append_nil, List.foldl_nil,
    List.length_nil]
  refine congrArg (prstDiscard p 0) (onCache_same ?_)
  simp only [hb, hm, hi, h.2, List.filter_nil, List.map_nil]
  exact hc

/-- What a half's ATU discards at a reset. -/
def addlsGone (p : Part) (h : Half) (s : State) : State :=
  let x := atuHalf s h
  let q := x.queue.filter fun a => a.part == p
  let k := q.length + (x.held.filter fun a => a.part == p).length
  let s := setAtuHalf s h { x with queue := x.queue.filter fun a => !(a.part == p),
                                   held := x.held.filter fun a => !(a.part == p), discReset := satAdd x.discReset k }
  let s := s.onCache fun c => { c with blocked := c.blocked.filter fun r => match r.op with
    | .atu id => !(q.any fun a => a.id == id)
    | _ => true }
  prstDiscard p k (cnt 0x023 (some h) (some p) k s)

theorem prstAddls_eq (p : Part) (s : State) :
    prstAddls p s = (addlsGone p .w (addlsGone p .e s)).onAtu fun a =>
      { a with ord := a.ord.map fun e => if e.2.part = p then (e.1, { e.2 with en := false }) else e } := rfl

/-- Contributions that are no longer held leave the pipelines calm. -/
theorem calm_heldFilter {s u : State} (hs : calm s = true) (hc : u.cache = s.cache) (hb : u.buf = s.buf)
    (he : ∃ f, u.atu.he.held = s.atu.he.held.filter f) (hw : ∃ f, u.atu.hw.held = s.atu.hw.held.filter f)
    (hwe : u.atu.he.waiting = s.atu.he.waiting) (hww : u.atu.hw.waiting = s.atu.hw.waiting) : calm u = true := by
  obtain ⟨h1, h2, h3, h4, h5, h6⟩ := calm_iff.mp hs
  simp only [addlsIdle, Bool.and_eq_true, List.isEmpty_iff] at h5
  obtain ⟨⟨⟨i1, i2⟩, i3⟩, i4⟩ := h5
  obtain ⟨f, hf⟩ := he
  obtain ⟨g, hg⟩ := hw
  rw [calm_iff, hc, hb]
  exact ⟨h1, h2, h3, h4, by simp [addlsIdle, hf, hg, hwe, hww, i1, i2, i3, i4], h6⟩

theorem calm_setHeld {s : State} {h : Half} {q : List Addl} {f : HeldAddl → Bool} {d : BitVec 16} (hs : calm s = true) :
    calm (setAtuHalf s h { atuHalf s h with queue := q, held := (atuHalf s h).held.filter f, discReset := d }) = true := by
  have hid {l : List HeldAddl} : ∃ f, l = l.filter f := ⟨fun _ => true, (List.filter_true l).symm⟩
  cases h
  · exact calm_heldFilter hs rfl rfl ⟨f, rfl⟩ hid rfl rfl
  · exact calm_heldFilter hs rfl rfl hid ⟨f, rfl⟩ rfl rfl

theorem resetStep_addlsGone (p : Part) (h : Half) {s : State} (he : emptyPipes s) :
    ResetStep s (addlsGone p h s) ∧ (atuHalf (addlsGone p h s) h).queue = (atuHalf s h).queue.filter (fun a => !(a.part == p)) ∧
      ∀ g, g ≠ h → atuHalf (addlsGone p h s) g = atuHalf s g := by
  obtain ⟨hb, -, -, -, ha, -⟩ := calm_iff.mp he.1
  unfold addlsGone
  dsimp only
  generalize hk : List.length _ + _ = k
  generalize hx : setAtuHalf s h _ = x
  have hc : x.cache = s.cache := by rw [← hx]; rfl
  rw [onCache_same (s := x) (by rw [hc, hb]; exact Cache.blocked_nil hb)]
  have hd := (resetStep_cnt 0x023 (some h) (some p) k x).trans (resetStep_discard p k _)
  have hatu : (prstDiscard p k (cnt 0x023 (some h) (some p) k x)).atu = x.atu := by simp [prstDiscard]
  generalize prstDiscard p k _ = v at hd hatu ⊢
  have hxs : ResetStep s x := by
    rw [← hx]
    exact {
      frame := by simp [setAtuHalf]
      bytes := rfl
      pipes := fun _ => ⟨calm_setHeld he.1, he.2⟩
      fence := rfl
      last := ⟨rfl, rfl⟩
      tasks := fun _ => rfl
      seq := ⟨rfl, rfl, rfl, rfl⟩ }
  refine ⟨hxs.trans hd, ?_, fun g hg => ?_⟩
  · rw [atuHalf, hatu, ← hx]
    cases h <;> rfl
  · rw [atuHalf, hatu, ← hx]
    cases h <;> cases g <;> first | rfl | exact absurd rfl hg

theorem resetStep_prstAddls (p : Part) {s : State} (he : emptyPipes s) :
    ResetStep s (prstAddls p s) ∧ ∀ h, ∀ a ∈ (atuHalf (prstAddls p s) h).queue, a.part ≠ p := by
  obtain ⟨h1, q1, -⟩ := resetStep_addlsGone p .e he
  obtain ⟨h2, q2, o2⟩ := resetStep_addlsGone p .w (h1.pipes he)
  have hgone {l : List Addl} : ∀ a ∈ l.filter (fun a => !(a.part == p)), a.part ≠ p := fun a ha => by simpa using List.of_mem_filter ha
  rw [prstAddls_eq]
  generalize addlsGone p .e s = u at *
  generalize addlsGone p .w u = v at *
  refine ⟨(h1.trans h2).trans ?_, fun h => ?_⟩
  · exact {
      frame := by simp
      bytes := rfl
      pipes := id
      fence := rfl
      last := ⟨rfl, rfl⟩
      tasks := fun _ => rfl
      seq := ⟨rfl, rfl, rfl, rfl⟩ }
  · have hq : (atuHalf (v.onAtu fun a => { a with ord := a.ord.map fun e => if e.2.part = p then (e.1, { e.2 with en := false }) else e }) h).queue =
        (atuHalf v h).queue := by cases h <;> rfl
    rw [hq]
    cases h with
    | e => rw [o2 .e (by decide), q1]; exact hgone
    | w => rw [q2]; exact hgone

theorem resetStep_modThr (t : Nat) {f : Thread → Thread} (hf : ∀ x, taskOf (f x) = taskOf x) (s : State) : ResetStep s (modThr s t f) where
  frame := by simp
  bytes := rfl
  pipes := id
  fence := rfl
  last := ⟨rfl, rfl⟩
  tasks k := by
    by_cases h : k = t
    · rw [h, thr_modThr_self, hf]
    · rw [thr_modThr_ne _ _ h]
  seq := ⟨rfl, rfl, rfl, rfl⟩

theorem resetStep_xlt {f : Xlt → Xlt} (s : State) : ResetStep s (s.onXlt f) where
  frame := by simp
  bytes := rfl
  pipes := id
  fence := rfl
  last := ⟨rfl, rfl⟩
  tasks _ := rfl
  seq := ⟨rfl, rfl, rfl, rfl⟩

theorem resetStep_keepTlb (h : Half) (keep : Tlb → Bool) (s : State) : ResetStep s (keepTlb h keep s) := by
  unfold keepTlb
  dsimp only
  refine (resetStep_xlt s).trans (ResetStep.foldl (fun u i => resetStep_modThr _ (fun _ => ?_) u) _ _)
  rfl

/-! ## The tasks it stops -/

/-- A running task after its partition's reset has stopped it. -/
def killedTask (x : Thread) : Thread := { x with phase := .killed, wait := none, xl := none, raised := none, held := none }

/-- What stopping tasks of `p` keeps: only the threads with numbers in `l` that run a task of `p` are killed. -/
structure Stopped (p : Part) (n : Nat) (s u : State) : Prop where
  frame : changesOnly [.cache, .seq] s u
  cache : ∃ a g, u.cache = { s.cache with asked := a, got := g }
  seq : u.seq.sp = s.seq.sp ∧ u.seq.resumeE = s.seq.resumeE ∧ u.seq.resumeW = s.seq.resumeW ∧ u.seq.tq = s.seq.tq
  tasks : ∀ t, thr u t = if t < n ∧ (thr s t).part = p ∧ (thr s t).phase = .running then killedTask (thr s t) else thr s t

theorem stopped_prstThread {p : Part} {n : Nat} {s u : State} (hn : n < 72) (hu : Stopped p n s u)
    (hp : (thr s n).part = p → ((thr s n).phase = .running ∧ (thr s n).word = none) ∨ (thr s n).phase = .free)
    (hs : (thr s n).part = p → coreStepping s (thrCore n) = false) : Stopped p (n + 1) s (prstThread p u n) := by
  have hself : thr u n = thr s n := by rw [hu.tasks n, if_neg fun hx => absurd hx.1 (Nat.lt_irrefl n)]
  have hstep : coreStepping u (thrCore n) = coreStepping s (thrCore n) := by
    rw [coreStepping, tgt_congr (hu.frame .tst (by decide))]
    rfl
  by_cases hkill : (thr s n).part = p ∧ (thr s n).phase = .running
  · obtain ⟨hpart, hrun⟩ := hkill
    obtain ⟨-, hword⟩ := (hp hpart).resolve_right (by rw [hrun]; exact Phase.noConfusion)
    have heq : prstThread p u n = forgetInstr ⟨n, hn⟩ (modThr u n killedTask) := by
      unfold prstThread
      rw [dif_pos hn]
      dsimp only
      rw [hself, if_neg (show ¬ ((thr s n).part ≠ p ∨ coreStepping u (thrCore n) = true) by simp [hpart, hstep, hs hpart]), hrun]
      dsimp only
      rw [hword]
      rfl
    obtain ⟨a, g, hf⟩ := forgetInstr_eq ⟨n, hn⟩ (modThr u n killedTask)
    rw [heq, hf]
    obtain ⟨a0, g0, hc⟩ := hu.cache
    refine ⟨?_, ⟨a, g, ?_⟩, hu.seq, fun t => ?_⟩
    · simpa using hu.frame
    · rw [State.onCache_cache, modThr_cache, hc]
    · have hthr : thr ((modThr u n killedTask).onCache fun q => { q with asked := a, got := g }) t = thr (modThr u n killedTask) t := rfl
      rw [hthr]
      by_cases htn : t = n
      · rw [htn, thr_modThr_self, hself, if_pos ⟨Nat.lt_succ_self n, hpart, hrun⟩]
      · rw [thr_modThr_ne _ _ htn, hu.tasks t]
        refine if_congr (and_congr_left fun _ => ?_) rfl rfl
        omega
  · have heq : prstThread p u n = u := by
      unfold prstThread
      rw [dif_pos hn]
      dsimp only
      rw [hself]
      split
      next => rfl
      next hx =>
        have hpart : (thr s n).part = p := by
          by_contra h
          exact hx (.inl h)
        have hfree := (hp hpart).resolve_left fun h => hkill ⟨hpart, h.1⟩
        rw [hfree]
    rw [heq]
    refine ⟨hu.frame, hu.cache, hu.seq, fun t => ?_⟩
    rw [hu.tasks t]
    refine if_congr ?_ rfl rfl
    constructor
    · exact fun ⟨h1, h2⟩ => ⟨by omega, h2⟩
    · rintro ⟨h1, h2⟩
      refine ⟨lt_of_le_of_ne (by omega) fun htn => hkill (htn ▸ h2), h2⟩

/-- Step 2 of a reset, over all threads. -/
theorem stopped_all {p : Part} {s : State} (n : Nat) (hn : n ≤ 72)
    (hp : ∀ t, (thr s t).part = p → ((thr s t).phase = .running ∧ (thr s t).word = none) ∨ (thr s t).phase = .free)
    (hs : ∀ t, t < 72 → (thr s t).part = p → coreStepping s (thrCore t) = false) :
    Stopped p n s ((List.range n).foldl (prstThread p) s) := by
  induction n with
  | zero => exact ⟨changesOnly_refl _ s, ⟨_, _, rfl⟩, ⟨rfl, rfl, rfl, rfl⟩, fun t => by simp⟩
  | succ n ih =>
    rw [List.range_succ, List.foldl_append, List.foldl_cons, List.foldl_nil]
    exact stopped_prstThread (by omega) (ih (by omega)) (hp n) (hs n (by omega))

/-! ## The start of a reset -/

theorem emptyPipes_asked {s u : State} {a : List (Consumer × Nat)} {g : List (Consumer × Nat × LineRes)}
    (hc : u.cache = { s.cache with asked := a, got := g }) (ha : u.atu = s.atu) (hb : u.buf = s.buf) (h : emptyPipes s) : emptyPipes u := by
  have hcalm : calm u = calm s := by simp only [calm, quiet, addlsIdle, hc, ha, hb]
  exact ⟨hcalm.trans h.1, by rw [hc]; exact h.2⟩

/-- The reset at the head of the queue is under way, and the last one. -/
def underWay (p : Part) (cause : BitVec 2) (s : State) : State :=
  s.onInteg fun i =>
    { i with prst := i.prst.map fun r => if r.part = p then { r with running := true } else r, prstPart := p, prstCause := cause }

/-- Slots and queued tasks of the partition are dropped. -/
def dropQueued (p : Part) (s : State) : State :=
  (modSp s p.toNat fun x => { x with used := 0, park := 0, slots := [] }).onSeq fun q =>
    { q with resumeE := q.resumeE.filter (fun e => !(e.part == p)), resumeW := q.resumeW.filter (fun e => !(e.part == p)),
             tq := q.tq.map fun e => if e.2.part = p then (e.1, { e.2 with head := e.2.tail }) else e }

/-- Its cached translations go, and its walks fill nothing. -/
def dropTlb (p : Part) (s : State) : State :=
  [Half.e, Half.w].foldl
    (fun s h =>
      keepTlb h (fun e => !(e.part == p))
        (setWalks h ((walks s h).map fun w => { w with noFill := w.noFill || w.part == p }) s)) s

theorem prstStart_idle {p : Part} {cause : BitVec 2} {s : State} (he : s.buf.waitE = []) (hw : s.buf.waitW = []) :
    prstStart p cause s = settle (dropTlb p (prstAddls p (prstWrites p (dropQueued p ((List.range 72).foldl (prstThread p) (underWay p cause s)))))) := by
  have hnone : [Half.e, Half.w].foldl (fun s h => (waitQ s h).foldl (fun s w => if w.part = p then endWaiter h w stRights s else s) s)
      (underWay p cause s) = underWay p cause s := by
    have h1 : waitQ (underWay p cause s) .e = [] := he
    have h2 : waitQ (underWay p cause s) .w = [] := hw
    simp only [List.foldl_cons, List.foldl_nil, h1, h2]
  have hstart : prstStart p cause s = settle (dropTlb p (prstAddls p (prstWrites p (dropQueued p ((List.range 72).foldl (prstThread p)
      ([Half.e, Half.w].foldl (fun s h => (waitQ s h).foldl (fun s w => if w.part = p then endWaiter h w stRights s else s) s)
        (underWay p cause s))))))) := rfl
  rw [hstart, hnone]

theorem resetStep_dropTlb (p : Part) (s : State) : ResetStep s (dropTlb p s) := by
  refine ResetStep.foldl (fun u h => ResetStep.trans ?_ (resetStep_keepTlb ..)) _ _
  exact resetStep_xlt u

theorem fenced_underWay {r : PReset} {rest : List PReset} {cause : BitVec 2} {s : State} (h : s.integ.prst = r :: rest) :
    fenced (underWay r.part cause s) r.part = true := by
  simp [fenced, underWay, h]

/-- All that a reset's start does, where nothing waits (R338). -/
theorem prstStart_stops {r : PReset} {cause : BitVec 2} {s : State} (hc : emptyPipes s) (he : s.buf.waitE = []) (hw : s.buf.waitW = [])
    (hp : ∀ t, (thr s t).part = r.part → ((thr s t).phase = .running ∧ (thr s t).word = none) ∨ (thr s t).phase = .free)
    (hs : ∀ t, t < 72 → (thr s t).part = r.part → coreStepping s (thrCore t) = false) :
    ∃ v, Stopped r.part 72 (underWay r.part cause s) v ∧ ResetStep (dropQueued r.part v) (prstStart r.part cause s) ∧
      ∀ h, ∀ a ∈ (atuHalf (prstStart r.part cause s) h).queue, a.part ≠ r.part := by
  rw [prstStart_idle he hw]
  have hstop := stopped_all (s := underWay r.part cause s) 72 (Nat.le_refl _) hp hs
  generalize (List.range 72).foldl (prstThread r.part) _ = v at hstop ⊢
  obtain ⟨a, g, hcache⟩ := hstop.cache
  have hv : emptyPipes v := emptyPipes_asked hcache (hstop.frame .atu (by decide)) (hstop.frame .buf (by decide)) hc
  have hd : emptyPipes (dropQueued r.part v) := hv
  rw [prstWrites_empty hd]
  have h1 := resetStep_discard r.part 0 (dropQueued r.part v)
  obtain ⟨h2, hq⟩ := resetStep_prstAddls r.part (h1.pipes hd)
  have h3 := resetStep_dropTlb r.part (prstAddls r.part (prstDiscard r.part 0 (dropQueued r.part v)))
  have hall := (h1.trans h2).trans h3
  have hatu : (dropTlb r.part (prstAddls r.part (prstDiscard r.part 0 (dropQueued r.part v)))).atu =
      (prstAddls r.part (prstDiscard r.part 0 (dropQueued r.part v))).atu := rfl
  generalize prstAddls r.part _ = w at hq hall hatu ⊢
  rw [settle_calm (hall.pipes hd).1]
  refine ⟨v, hstop, hall, fun h => ?_⟩
  rw [atuHalf, hatu]
  exact hq h

/-! ## The obligation -/

theorem prstEnd_free {p : Part} {s : State} {i : Nat} (h : i < 72 → (thr s i).part = p → (thr s i).phase = .free) : prstEnd p s i = s := by
  unfold prstEnd
  split
  next hi =>
    refine if_neg fun hx => ?_
    have hfree := h hi hx.1
    rw [hx.2.1] at hfree
    exact Phase.noConfusion hfree
  next => rfl

theorem foldl_prstEnd {p : Part} {s : State} (h : ∀ i, i < 72 → (thr s i).part = p → (thr s i).phase = .free) (l : List Nat) :
    l.foldl (prstEnd p) s = s := by
  induction l with
  | nil => rfl
  | cons i l ih => rw [List.foldl_cons, prstEnd_free (h i), ih]

/-- What a reset's start makes of a thread. -/
theorem taskOf_started {p : Part} {cause : BitVec 2} {s v u : State} (hv : Stopped p 72 (underWay p cause s) v) (hu : ResetStep (dropQueued p v) u)
    (t : Nat) : taskOf (thr u t) =
      taskOf (if t < 72 ∧ (thr s t).part = p ∧ (thr s t).phase = .running then killedTask (thr s t) else thr s t) := by
  rw [hu.tasks t]
  exact congrArg taskOf (hv.tasks t)

theorem intPrstGo_word {p : Part} {s : State} (hd : domOn s 5 = true ∨ domOn s 6 = true) : exec (.intPrstGo p) s = answer s (prstGo p s) := by
  have he : exec (.intPrstGo p) s = execIntPrstGo p s := rfl
  rw [he, execIntPrstGo, ifUp, if_pos (by simpa using hd)]

/-- Settles O45. -/
theorem partitionResets : Obligations.PartitionResets := by
  unfold Obligations.PartitionResets
  refine fun s => ⟨fun p hd => ⟨fun h0 hno => ?_, fun h0 hin => ?_, fun h0 => ?_⟩,
    fun r rest hr _ => ⟨fun hrun hcalm hpool he hw hp hs => ?_, fun hrun hcalm hfree => ?_⟩⟩
  · have hx := intPrstGo_word (p := p) hd
    have hany : (s.integ.prst.any fun r => r.part == p) = false := by simpa using hno
    rw [prstGo, if_neg h0, prstTrigger, hany, if_neg (by decide)] at hx
    exact completesWith_answer hx ⟨rfl, by simp⟩
  · have hx := intPrstGo_word (p := p) hd
    have hany : (s.integ.prst.any fun r => r.part == p) = true := by simpa using hin
    rw [prstGo, if_neg h0, prstTrigger, if_pos hany] at hx
    exact completesWith_answer hx (by simp)
  · have hx := intPrstGo_word (p := p) hd
    rw [prstGo, if_pos h0] at hx
    exact completesWith_answer hx ⟨rfl, by simp⟩
  · have hx : exec .partitionReset s = execPartitionReset s := rfl
    rw [execPartitionReset, hr] at hx
    dsimp only at hx
    rw [if_neg (show ¬ r.running = true by rw [hrun]; decide)] at hx
    obtain ⟨v, hv, hu, hatu⟩ := prstStart_stops (r := r) (cause := r.cause) ⟨hcalm, hpool⟩ he hw hp hs
    generalize prstStart r.part r.cause s = u at hx hu hatu
    have hinteg : v.integ = (underWay r.part r.cause s).integ := hv.frame .integ (by decide)
    have htask := taskOf_started hv hu
    obtain ⟨hsp, hre, hrw, htq⟩ := hu.seq
    refine completesWith_answer hx ⟨?_, ?_, ?_, fun t ht hpart hrunning => ?_, fun t hpart => ?_, ?_, ?_,
      fun e h => ?_, fun e h => ?_, fun e h hpart => ?_, hatu, ?_⟩
    · refine (congrFun hu.fence r.part).trans ?_
      have hf : fenced (dropQueued r.part v) r.part = fenced (underWay r.part r.cause s) r.part := by
        show (v.integ.prst.any _) = _
        rw [hinteg]
        rfl
      exact hf.trans (fenced_underWay hr)
    · refine hu.last.1.trans ((congrArg Integ.prstPart hinteg).trans rfl)
    · refine hu.last.2.trans ((congrArg Integ.prstCause hinteg).trans rfl)
    · have := htask t
      rw [if_pos ⟨ht, hpart, hrunning⟩] at this
      exact congrArg (·.1) this
    · have := htask t
      rw [if_neg fun hx => hpart hx.2.1] at this
      simp only [taskOf, Prod.mk.injEq] at this
      exact this
    · have : spReg u r.part.toNat = spReg (dropQueued r.part v) r.part.toNat := congrArg (fun x => tget SeqPart.zero x r.part.toNat) hsp
      exact (congrArg SeqPart.used this).trans (congrArg SeqPart.used (tget_tset_self ..))
    · have : spReg u r.part.toNat = spReg (dropQueued r.part v) r.part.toNat := congrArg (fun x => tget SeqPart.zero x r.part.toNat) hsp
      exact (congrArg SeqPart.park this).trans (congrArg SeqPart.park (tget_tset_self ..))
    · have hmem : e ∈ (dropQueued r.part v).seq.resumeE := hre ▸ h
      simpa using List.of_mem_filter hmem
    · have hmem : e ∈ (dropQueued r.part v).seq.resumeW := hrw ▸ h
      simpa using List.of_mem_filter hmem
    · have hmem : e ∈ (dropQueued r.part v).seq.tq := htq ▸ h
      obtain ⟨x, -, rfl⟩ := List.mem_map.mp hmem
      by_cases hx : x.2.part = r.part
      · rw [if_pos hx]
      · rw [if_neg hx] at hpart
        exact absurd hpart hx
    · obtain ⟨a, g, hc⟩ := hv.cache
      refine sameBytes_of_data (hu.bytes.trans ?_)
      show v.cache.data = _
      rw [hc]
      rfl
  · have hx : exec .partitionResetDone s = execPartitionResetDone s := rfl
    rw [execPartitionResetDone, hr] at hx
    dsimp only at hx
    rw [foldl_prstEnd hfree, settle_calm hcalm, if_neg (show ¬ (!r.running) = true by rw [hrun]; decide)] at hx
    have hnone : ((List.range 72).any fun i => (thr s i).part == r.part && !((thr s i).phase == .free)) = false := by
      rw [List.any_eq_false]
      intro i hi
      by_cases h : (thr s i).part = r.part
      · simp [hfree i (List.mem_range.mp hi) h]
      · simp [h]
    rw [hnone, if_neg (by decide)] at hx
    obtain ⟨x, hx⟩ : ∃ x, exec .partitionResetDone s = answer s ((writeRec x s).onInteg fun i => { i with prst := rest }) := ⟨_, hx⟩
    refine completesWith_answer hx ⟨rfl, fun t => ?_, ?_⟩
    · exact thr_congr ((writeRec_frame x s) .seq (by decide)) t
    · rw [changesOnly_answered, changesOnly_onInteg (by decide)]
      exact changesOnly_mono (writeRec_frame _ s) (by decide)

end Sys2Proof.Machine
end

section
/-! PROOFS. A frame that a source hands to a port (R283 to R285, R294). -/

namespace Sys2Proof.Machine

open Sys2Proof.Safety

/-! ## The transmitter -/

theorem frameFlits_pos (f : Frame) : 0 < frameFlits f := by
  unfold frameFlits
  omega

theorem creditOf_setCredit {c : Credits} {cls : Fin 4} {invsc : Bool} {n : Nat} (h : n < 65536) : creditOf (setCredit c cls invsc n) cls invsc = n := by
  unfold creditOf setCredit
  cases invsc
  · fin_cases cls <;> simp [Nat.mod_eq_of_lt h]
  · simp [Nat.mod_eq_of_lt h]

theorem creditOf_lt (c : Credits) (cls : Fin 4) (invsc : Bool) : creditOf c cls invsc < 65536 := by
  unfold creditOf
  split
  · exact c.invsc.isLt
  · split
    · exact c.c0.isLt
    · split
      · exact c.c1.isLt
      · split
        · exact c.c2.isLt
        · exact c.c3.isLt

/-- Since the flits `tx` had been sent, frame f has left, or stands in the buffer, or waits. -/
def carries (f : Frame) (tx : List (Frame × Nat)) (x : LinkSt) : Prop :=
  ∃ sent, x.tx = tx ++ sent ∧ ((f, frameFlits f - 1) ∈ sent ∨ (∃ k, k < frameFlits f ∧ (f, k) ∈ x.buf) ∨ f ∈ x.wait)

/-- Frames enter the buffer, or wait on. -/
theorem carries_bufAdmit {n : Nat} {f : Frame} {tx : List (Frame × Nat)} {x : LinkSt} (h : carries f tx x) : carries f tx (bufAdmit n x) := by
  have hfold : ∀ (l : List Frame) (y : LinkSt),
      (∃ sent, y.tx = tx ++ sent ∧ ((f, frameFlits f - 1) ∈ sent ∨ (∃ k, k < frameFlits f ∧ (f, k) ∈ y.buf) ∨ f ∈ y.wait ∨ f ∈ l)) →
      carries f tx (l.foldl (fun y f => if !(y.wait.any (sameClass f)) && bufRoom n y f then { y with buf := y.buf ++ [(f, 0)] }
        else { y with wait := y.wait ++ [f] }) y) := by
    intro l
    induction l with
    | nil =>
      rintro y ⟨sent, ht, h⟩
      exact ⟨sent, ht, by simpa using h⟩
    | cons g l ih =>
      rintro y ⟨sent, ht, h⟩
      refine ih _ ?_
      dsimp only
      split
      · refine ⟨sent, ht, ?_⟩
        rcases h with h | ⟨k, hk, h⟩ | h | h
        · exact .inl h
        · exact .inr (.inl ⟨k, hk, List.mem_append_left _ h⟩)
        · exact .inr (.inr (.inl h))
        · rcases List.mem_cons.mp h with rfl | h
          · exact .inr (.inl ⟨0, frameFlits_pos _, by simp⟩)
          · exact .inr (.inr (.inr h))
      · refine ⟨sent, ht, ?_⟩
        rcases h with h | h | h | h
        · exact .inl h
        · exact .inr (.inl h)
        · exact .inr (.inr (.inl (List.mem_append_left _ h)))
        · rcases List.mem_cons.mp h with rfl | h
          · exact .inr (.inr (.inl (by simp)))
          · exact .inr (.inr (.inr h))
  obtain ⟨sent, ht, h⟩ := h
  refine hfold x.wait { x with wait := [] } ⟨sent, ht, ?_⟩
  rcases h with h | h | h
  · exact .inl h
  · exact .inr (.inl h)
  · exact .inr (.inr (.inr h))

/-- A flit that leaves takes its frame on. -/
theorem carries_flitOut {f : Frame} {tx : List (Frame × Nat)} {x : LinkSt} (i : Nat) (h : carries f tx x) : carries f tx (flitOut x i) := by
  unfold flitOut
  split
  next => exact h
  next e he =>
    obtain ⟨sent, ht, h⟩ := h
    refine ⟨sent ++ [e], by simp [ht], ?_⟩
    rcases h with h | ⟨k, hk, h⟩ | h
    · exact .inl (List.mem_append_left _ h)
    · obtain ⟨j, hj⟩ := List.mem_iff_getElem?.mp h
      by_cases hij : j = i
      · have hfe : (f, k) = e := by rw [hij, he] at hj; exact (Option.some.inj hj).symm
        by_cases hmore : e.2 + 1 < frameFlits e.1
        · rw [← hfe] at hmore
          refine .inr (.inl ⟨k + 1, hmore, ?_⟩)
          simp only [← hfe, if_pos hmore]
          exact List.mem_iff_getElem?.mpr ⟨i, by simp [List.getElem?_set_self (show i < x.buf.length from (List.getElem?_eq_some_iff.mp he).1)]⟩
        · rw [← hfe] at hmore
          have hlast : k = frameFlits f - 1 := by
            have : ¬ k + 1 < frameFlits f := hmore
            omega
          refine .inl (List.mem_append_right _ ?_)
          rw [← hfe, hlast]
          exact List.mem_singleton_self _
      · refine .inr (.inl ⟨k, hk, ?_⟩)
        dsimp only
        split
        · exact List.mem_iff_getElem?.mpr ⟨j, by rw [List.getElem?_set_ne (Ne.symm hij), hj]⟩
        · exact List.mem_eraseIdx_iff_getElem?.mpr ⟨j, hij, hj⟩
    · exact .inr (.inr h)

theorem carries_flitsOut {f : Frame} {tx : List (Frame × Nat)} (k : Nat) {x : LinkSt} (h : carries f tx x) : carries f tx (flitsOut k x) := by
  induction k generalizing x with
  | zero => exact h
  | succ k ih =>
    rw [flitsOut]
    split
    next => exact h
    next i _ => exact ih (carries_flitOut i h)

/-! ## An idle transmitter -/

/-- The transmitter after flit j of the only frame of its buffer. -/
def flitLeft (f : Frame) (j : Nat) (x : LinkSt) : LinkSt :=
  { x with tx := x.tx ++ [(f, j)],
           cred := setCredit x.cred f.cls f.invsc (creditOf x.cred f.cls f.invsc - 1),
           buf := if j + 1 < frameFlits f then [(f, j + 1)] else [],
           txResumed := true }

theorem flitOut_alone {f : Frame} {j : Nat} {x : LinkSt} (hb : x.buf = [(f, j)]) : flitOut x 0 = flitLeft f j x := by simp [flitOut, flitLeft, hb]

theorem nextFlit_alone {f : Frame} {j : Nat} {x : LinkSt} (hb : x.buf = [(f, j)]) (hc : 0 < creditOf x.cred f.cls f.invsc) :
    nextFlit x = some 0 := by
  have h1 : 1 ≤ creditOf x.cred f.cls f.invsc := hc
  by_cases h0 : j = 0
  · subst h0
    simp [nextFlit, startable, hb, List.range_succ, h1]
  · have hpos : 0 < j := by omega
    simp [nextFlit, startable, hb, List.range_succ, hpos, hc]

/-- A lone frame at its flit j, with its credits, sends its remaining flits. -/
theorem flitsOut_alone {f : Frame} (k : Nat) {x : LinkSt} (j : Nat) (hj : j + (k + 1) = frameFlits f) (hb : x.buf = [(f, j)])
    (hc : k + 1 ≤ creditOf x.cred f.cls f.invsc) :
    (flitsOut (k + 1) x).tx = x.tx ++ (List.range' j (k + 1)).map (fun i => (f, i)) ∧ (flitsOut (k + 1) x).buf = [] ∧
      (flitsOut (k + 1) x).wait = x.wait := by
  induction k generalizing x j with
  | zero =>
    rw [flitsOut, nextFlit_alone hb hc]
    dsimp only
    rw [flitOut_alone hb]
    simp [flitsOut, flitLeft, show ¬ j + 1 < frameFlits f by omega, List.range']
  | succ k ih =>
    have hlt := creditOf_lt x.cred f.cls f.invsc
    rw [flitsOut, nextFlit_alone hb (by omega)]
    dsimp only
    rw [flitOut_alone hb]
    have hbuf : (flitLeft f j x).buf = [(f, j + 1)] := if_pos (by omega)
    have hcred : creditOf (flitLeft f j x).cred f.cls f.invsc = creditOf x.cred f.cls f.invsc - 1 := creditOf_setCredit (by omega)
    obtain ⟨h1, h2, h3⟩ := ih (j + 1) (by omega) hbuf (by omega)
    refine ⟨?_, h2, h3⟩
    rw [h1, List.range'_succ (n := k + 1), List.map_cons]
    simp [flitLeft]

/-- A frame enters an empty buffer that has room. -/
theorem bufAdmit_alone {n : Nat} {f : Frame} {x : LinkSt} (hw : x.wait = []) (hr : bufRoom n x f = true) :
    bufAdmit n { x with wait := x.wait ++ [f] } = { x with buf := x.buf ++ [(f, 0)] } := by
  have hx : ({ x with wait := [] } : LinkSt) = x := by rw [← hw]
  have hroom : bufRoom n { x with wait := [] } f = true := by rw [hx]; exact hr
  simp only [bufAdmit, hw, List.nil_append, List.foldl_cons, List.foldl_nil, List.any_nil, hroom, Bool.not_false, Bool.true_and, if_true]

/-! ## The frame is sent -/

theorem link_invLeft (n : Nat) (f : Frame) (s : State) (k : Nat) : link (invLeft n f s) k = link s k := by
  unfold invLeft
  split <;> rfl

theorem link_foldl_invLeft (n : Nat) (l : List (Frame × Nat)) (s : State) (k : Nat) :
    link (l.foldl (fun t e => invLeft n e.1 t) s) k = link s k := by
  induction l generalizing s with
  | nil => rfl
  | cons e l ih => rw [List.foldl_cons, ih, link_invLeft]

/-- What the transmitter makes of its link. -/
def pumped (n : Nat) (s : State) : LinkSt :=
  if portActive s n then flitsOut ((bufAdmit n (link s n)).buf.foldl (fun k e => k + frameFlits e.1) 0) (bufAdmit n (link s n))
  else bufAdmit n (link s n)

theorem linkPump_link (n : Nat) (s : State) :
    (link (linkPump n s) n).tx = (pumped n s).tx ∧ (link (linkPump n s) n).buf = (pumped n s).buf ∧
      (link (linkPump n s) n).wait = (pumped n s).wait := by
  unfold linkPump
  dsimp only
  rw [show (if portActive s n = true then _ else _ : LinkSt) = pumped n s from rfl]
  split
  · simp
  · have hl (ev k : Nat) (t : State) : link (cnt ev none none k t) n = link t n := by rw [link, cnt_links]; rfl
    rw [hl, link_foldl_invLeft, link_setLink_self]
    exact ⟨rfl, rfl, rfl⟩

/-- Frame f is handed to a live port (R285, R294, R297). -/
theorem sends_sendFrame {n : Nat} {f : Frame} {s : State} (h : portLive s n = true) : sends n f s (sendFrame n f s) := by
  obtain ⟨c, hc⟩ := sendFrame_live n f s h
  rw [hc]
  have hlink (t : State) (k : Cnt) : link { t with cnt := k } n = link t n := rfl
  simp only [sends, hlink]
  generalize hx : modLink s n _ = x
  have hxl : link x n = { link s n with wait := (link s n).wait ++ [f] } := by rw [← hx]; simp [modLink]
  have hxa : portActive x n = portActive s n := by rw [← hx]; rfl
  obtain ⟨h1, h2, h3⟩ := linkPump_link n x
  rw [h1, h2, h3]
  constructor
  · have hin : carries f (link s n).tx (bufAdmit n (link x n)) :=
      carries_bufAdmit ⟨[], by simp [hxl], .inr (.inr (by simp [hxl]))⟩
    have hp : carries f (link s n).tx (pumped n x) := by
      unfold pumped
      split
      · exact carries_flitsOut _ hin
      · exact hin
    obtain ⟨sent, ht, hs⟩ := hp
    refine ⟨sent, ht, hs.imp_right (Or.imp_left fun ⟨k, _, hk⟩ => ⟨k, hk⟩)⟩
  · intro hm
    simp only [mayLeave, Bool.and_eq_true, List.isEmpty_iff, decide_eq_true_eq] at hm
    obtain ⟨⟨⟨⟨ha, hw⟩, hb⟩, hr⟩, hcr⟩ := hm
    have hadm : bufAdmit n (link x n) = { link s n with buf := [(f, 0)] } := by
      rw [hxl, bufAdmit_alone hw hr, hb]
      rfl
    obtain ⟨m, hm⟩ : ∃ m, frameFlits f = m + 1 := Nat.exists_eq_succ_of_ne_zero (Nat.ne_of_gt (frameFlits_pos f))
    unfold pumped
    rw [hxa, if_pos ha, hadm]
    simp only [List.foldl_cons, List.foldl_nil, Nat.zero_add, hm]
    obtain ⟨p1, p2, p3⟩ := flitsOut_alone m (x := { link s n with buf := [(f, 0)] }) 0 (by omega) rfl (by rw [← hm]; exact hcr)
    exact ⟨by rw [p1, List.range_eq_range'], p2, p3.trans hw⟩

/-! ## What a frame leaves -/

/-- What is sent looks at the link and at the port only. -/
theorem sends_congr {n : Nat} {f : Frame} {s s' u u' : State} (hl : link s' n = link s n) (hp : port s' n = port s n) (hu : link u' n = link u n)
    (h : sends n f s u) : sends n f s' u' := by
  have hm : mayLeave n f s' = mayLeave n f s := by simp only [mayLeave, portActive, hl, hp]
  rw [sends, hl, hu, hm]
  exact h

/-- The invalidations of the cache take a time each; nothing else of it changes. -/
def timesInvs (s u : State) : Prop := ∃ g : InvOp → InvOp, u.cache = { s.cache with invs := s.cache.invs.map g }

theorem timesInvs_refl (s : State) : timesInvs s s := ⟨id, by rw [List.map_id]⟩

theorem timesInvs_trans {s u v : State} (h1 : timesInvs s u) (h2 : timesInvs u v) : timesInvs s v := by
  obtain ⟨g, hg⟩ := h1
  obtain ⟨k, hk⟩ := h2
  exact ⟨k ∘ g, by rw [hk, hg, ← List.map_map]⟩

theorem timesInvs_of_cache {s u : State} (h : u.cache = s.cache) : timesInvs s u := ⟨id, by rw [List.map_id, h]⟩

/-- What handing frames to port n leaves. -/
structure Hands (n : Nat) (s u : State) : Prop where
  frame : changesOnly [.links, .cache, .cnt] s u
  cache : timesInvs s u
  ports : u.links.port = s.links.port
  links : ∀ k, k ≠ n → link u k = link s k

theorem Hands.trans {n : Nat} {s u v : State} (h1 : Hands n s u) (h2 : Hands n u v) : Hands n s v where
  frame := changesOnly_trans h1.frame h2.frame
  cache := timesInvs_trans h1.cache h2.cache
  ports := h2.ports.trans h1.ports
  links k hk := (h2.links k hk).trans (h1.links k hk)

theorem hands_setLink (n : Nat) (x : LinkSt) (s : State) : Hands n s (setLink s n x) where
  frame := by simp
  cache := timesInvs_of_cache rfl
  ports := rfl
  links k hk := link_setLink_ne s x hk

theorem hands_cnt (n ev k : Nat) (h : Option Half) (p : Option Part) (s : State) : Hands n s (cnt ev h p k s) where
  frame := by simp
  cache := timesInvs_of_cache (by simp)
  ports := by simp
  links j _ := by rw [link, cnt_links]; rfl

theorem hands_invLeft (n m : Nat) (f : Frame) (s : State) : Hands n s (invLeft m f s) := by
  unfold invLeft
  split
  · exact { frame := by simp, cache := ⟨_, rfl⟩, ports := rfl, links := fun _ _ => rfl }
  · exact { frame := changesOnly_refl _ s, cache := timesInvs_refl s, ports := rfl, links := fun _ _ => rfl }

theorem hands_foldl {α : Type} {n : Nat} {f : State → α → State} (hf : ∀ t a, Hands n t (f t a)) (l : List α) (s : State) : Hands n s (l.foldl f s) := by
  induction l generalizing s with
  | nil => exact { frame := changesOnly_refl _ s, cache := timesInvs_refl s, ports := rfl, links := fun _ _ => rfl }
  | cons a l ih => exact (hf s a).trans (ih _)

theorem hands_linkPump (n : Nat) (s : State) : Hands n s (linkPump n s) := by
  unfold linkPump
  dsimp only
  rw [show (if portActive s n = true then _ else _ : LinkSt) = pumped n s from rfl]
  generalize pumped n s = z
  split
  · exact hands_setLink ..
  · refine Hands.trans ?_ (hands_cnt ..)
    refine Hands.trans ?_ (hands_foldl (fun t (e : Frame × Nat) => hands_invLeft n n e.1 t) _ _)
    exact hands_setLink ..

theorem hands_sendFrame (n : Nat) (f : Frame) (s : State) : Hands n s (sendFrame n f s) := by
  unfold sendFrame
  split
  · have hp := (hands_setLink n _ s).trans (hands_linkPump n (modLink s n fun x => { x with wait := x.wait ++ [f] }))
    dsimp only
    split
    · exact hp.trans (hands_cnt ..)
    · exact hp
  · exact { frame := changesOnly_refl _ s, cache := timesInvs_refl s, ports := rfl, links := fun _ _ => rfl }

theorem Hands.port {n : Nat} {s u : State} (h : Hands n s u) (k : Nat) : port u k = port s k := by simp only [Machine.port, h.ports]

theorem Hands.thr {n : Nat} {s u : State} (h : Hands n s u) (k : Nat) : thr u k = thr s k := thr_congr (h.frame .seq (by decide)) k

theorem Hands.sameBytes {n : Nat} {s u : State} (h : Hands n s u) : sameBytes s u := by
  obtain ⟨g, hg⟩ := h.cache
  exact sameBytes_of_data (by rw [hg])

/-- With no invalidation under way the cache is as it was. -/
theorem Hands.cache_eq {n : Nat} {s u : State} (h : Hands n s u) (hi : s.cache.invs = []) : u.cache = s.cache := by
  obtain ⟨g, hg⟩ := h.cache
  rw [hg, hi, List.map_nil, ← hi]

end Sys2Proof.Machine
end

section
/-! PROOFS. The life of a buffer block (R159, R165 to R173). -/

namespace Sys2Proof.Machine

open Sys2Proof.Safety

/-! ## The block table -/

theorem mem_of_tget_ne {α : Type} {d : α} {t : Tab α} {n : Nat} (h : tget d t n ≠ d) : (n, tget d t n) ∈ t := by
  induction t with
  | nil => exact absurd rfl h
  | cons e t ih =>
    obtain ⟨k, v⟩ := e
    by_cases hk : k = n
    · simp [tget, hk]
    · simp only [tget, hk, if_false] at h ⊢
      exact List.mem_cons_of_mem _ (ih h)

theorem blk_setBlk (s : State) (b c : Nat) (x : Blk) : blk (setBlk s b x) c = if c = b then x else blk s c := tget_tset ..

theorem blk_congr {s u : State} (h : u.buf.blk = s.buf.blk) (b : Nat) : blk u b = blk s b := by rw [blk, h]; rfl

/-- Blocks that take one state: those, and no other part of the buffer. -/
theorem foldl_setBlk {α : Type} (g : α → Nat) (x : Blk) (l : List α) (s : State) :
    let u := l.foldl (fun t a => setBlk t (g a) x) s
    (∀ b, blk u b = if b ∈ l.map g then x else blk s b) ∧ u.buf.drain = s.buf.drain ∧ changesOnly [.buf] s u := by
  induction l generalizing s with
  | nil => exact ⟨fun b => by simp, rfl, changesOnly_refl _ s⟩
  | cons a l ih =>
    obtain ⟨h1, h2, h3⟩ := ih (setBlk s (g a) x)
    refine ⟨fun b => ?_, h2, changesOnly_trans (by simp [setBlk]) h3⟩
    rw [List.foldl_cons, h1, blk_setBlk, List.map_cons]
    by_cases hm : b ∈ l.map g
    · rw [if_pos hm, if_pos (List.mem_cons_of_mem _ hm)]
    · rw [if_neg hm]
      refine if_congr ?_ rfl rfl
      simp only [List.mem_cons, hm, or_false]

/-! ## Zeroing (R159) -/

theorem chargeMany_frame (h : Half) (k : Nat) (s : State) : changesOnly [.bwr, .cnt] s (chargeMany h k s) := by
  induction k generalizing s with
  | zero => exact changesOnly_refl _ s
  | succ k ih => exact changesOnly_trans (chargeOwn_frame h s) (ih _)

theorem memByte_filter (n b a : Nat) (m : List Host.Cell) :
    memByte (m.filter fun e => !decide (e.1 / n = b)) a = if a / n = b then 0 else memByte m a := by
  rw [memByte, tget_filter 0 (fun k => !decide (k / n = b))]
  by_cases h : a / n = b <;> simp [h, memByte]

theorem data_zeroBlock (b : Nat) (s : State) :
    (zeroBlock b s).cache.data = s.cache.data.filter (fun e => !decide (e.1 / 65536 = b)) := rfl

theorem memByte_zeroBlock (b a : Nat) (s : State) :
    memByte (zeroBlock b s).cache.data a = if a / 65536 = b then 0 else memByte s.cache.data a := by
  rw [data_zeroBlock]
  exact memByte_filter 65536 b a _

/-- A block goes to the free list when no region drains and nobody waits. -/
theorem placeBlock_free {b : Nat} {s : State} (hd : tget false s.buf.drain (b / 1024) = false) (hw : waitQ s (blockHalf b) = []) :
    placeBlock b s = setBlk s b { st := 1, owner := 0 } := by
  unfold placeBlock
  dsimp only
  rw [hd, if_neg (by decide), hw]

/-- Zeroing that may end does, with its charges. -/
theorem scrubDone_word {b : Fin 393216} {s : State}
    (h : (blk s b.val).st = 2 ∧ (region s (b.val / 1024)).state = 2 ∧ (!blockBusy s b.val) = true ∧ domRuns s ((blockHalf b.val).pick 5 6) = true) :
    ∃ k, exec (.scrubDone b) s =
      answer s (placeBlock b.val (chargeMany (blockHalf b.val) k (cnt 0x035 (some (blockHalf b.val)) none 1 (zeroBlock b.val s)))) :=
  ⟨512, congrArg (answer s) (if_pos h)⟩

theorem scrubDone_frees {b : Fin 393216} {s : State} (h2 : (blk s b.val).st = 2) (hr : (region s (b.val / 1024)).state = 2)
    (hb : blockBusy s b.val = false) (hd : domRuns s ((blockHalf b.val).pick 5 6) = true) (hdr : tget false s.buf.drain (b.val / 1024) = false)
    (hw : waitQ s (blockHalf b.val) = []) :
    completesWith (.scrubDone b) s fun u =>
      (blk u b.val) = { st := 1, owner := 0 } ∧ (∀ c, c ≠ b.val → blk u c = blk s c) ∧
      (∀ a, a / 65536 = b.val → memByte u.cache.data a = 0) ∧ (∀ a, a / 65536 ≠ b.val → memByte u.cache.data a = memByte s.cache.data a) ∧
      changesOnly [.buf, .cache, .cnt, .bwr] s u := by
  have hgo : (blk s b.val).st = 2 ∧ (region s (b.val / 1024)).state = 2 ∧ (!blockBusy s b.val) = true ∧ domRuns s ((blockHalf b.val).pick 5 6) = true :=
    ⟨h2, hr, by rw [hb]; rfl, hd⟩
  obtain ⟨k, he⟩ := scrubDone_word hgo
  have hzero := fun a => memByte_zeroBlock b.val a s
  have hzf : changesOnly [.cache] s (zeroBlock b.val s) := by simp [zeroBlock]
  generalize zeroBlock b.val s = z at he hzero hzf
  have hcf : changesOnly [.cnt, .bwr] z (chargeMany (blockHalf b.val) k (cnt 0x035 (some (blockHalf b.val)) none 1 z)) :=
    changesOnly_trans (u := cnt 0x035 (some (blockHalf b.val)) none 1 z) (by simp)
      (changesOnly_mono (chargeMany_frame (blockHalf b.val) k _) (by decide))
  generalize chargeMany (blockHalf b.val) k _ = x at he hcf
  have hxf : changesOnly [.cache, .cnt, .bwr] s x := changesOnly_trans (changesOnly_mono hzf (by decide)) (changesOnly_mono hcf (by decide))
  have hbuf : x.buf = s.buf := hxf .buf (by decide)
  rw [placeBlock_free (by rw [hbuf]; exact hdr) (by rw [waitQ, hbuf]; exact hw)] at he
  have hdata : x.cache = z.cache := hcf .cache (by decide)
  have hblk (c : Nat) : blk (setBlk x b.val { st := 1, owner := 0 }) c = if c = b.val then { st := 1, owner := 0 } else blk s c := by
    rw [blk_setBlk, blk_congr (s := s) (u := x) (by rw [hbuf])]
  have hmem (a : Nat) : memByte (setBlk x b.val { st := 1, owner := 0 }).cache.data a = if a / 65536 = b.val then 0 else memByte s.cache.data a := by
    rw [← hzero a, ← hdata]
    rfl
  refine completesWith_answer he ⟨?_, fun c hc => ?_, fun a ha => ?_, fun a ha => ?_, ?_⟩
  · exact (hblk b.val).trans (if_pos rfl)
  · exact (hblk c).trans (if_neg hc)
  · exact (hmem a).trans (if_pos ha)
  · exact (hmem a).trans (if_neg ha)
  · rw [changesOnly_answered, setBlk, changesOnly_onBuf (by decide)]
    exact changesOnly_mono hxf (by decide)

/-! ## DRAIN (R172) -/

/-- Setting DRAIN of a pinned region takes its free blocks out of use. -/
theorem setDrain_on {r : Nat} {s : State} (hst : (region s r).state = 2) (hb : (region s r).busy = false) :
    tget false (setDrain r true s).buf.drain r = true ∧
      (∀ b, blk (setDrain r true s) b = if b / 1024 = r ∧ (blk s b).st = 1 then { st := 4, owner := 0 } else blk s b) ∧
      changesOnly [.buf] s (setDrain r true s) := by
  unfold setDrain
  dsimp only
  generalize hx : s.onBuf _ = x
  have hblk (b : Nat) : blk x b = blk s b := by rw [← hx]; rfl
  have hreg : region x r = region s r := by rw [← hx]; rfl
  have hdr : tget false x.buf.drain r = true := by
    rw [← hx]
    exact tget_tset_self false s.buf.drain r true
  have hxf : changesOnly [.buf] s x := by
    rw [← hx]
    simp
  rw [hreg, if_neg (show ¬ ((region s r).state ≠ 2 ∨ (region s r).busy = true) by simp [hst, hb]), if_pos rfl]
  obtain ⟨h1, h2, h3⟩ := foldl_setBlk (fun k => 1024 * r + k) { st := 4, owner := 0 }
    ((List.range 1024).filter fun k => (blk x (1024 * r + k)).st == 1) x
  refine ⟨by rw [h2]; exact hdr, fun b => ?_, changesOnly_trans hxf h3⟩
  rw [h1, hblk]
  refine if_congr ?_ rfl rfl
  simp only [List.mem_map, List.mem_filter, List.mem_range, beq_iff_eq, hblk]
  constructor
  · rintro ⟨k, ⟨hk, hs⟩, rfl⟩
    exact ⟨by omega, hs⟩
  · rintro ⟨hb, hs⟩
    refine ⟨b % 1024, ⟨Nat.mod_lt _ (by decide), ?_⟩, by omega⟩
    rw [show 1024 * r + b % 1024 = b by omega]
    exact hs

theorem foldl_placeBlock {r : Nat} (l : List Nat) {s : State} (hd : tget false s.buf.drain r = false) (hw : waitQ s (regionHalf r) = [])
    (hl : ∀ b ∈ l, b / 1024 = r) : l.foldl (fun t b => placeBlock b t) s = l.foldl (fun t b => setBlk t b { st := 1, owner := 0 }) s := by
  induction l generalizing s with
  | nil => rfl
  | cons b l ih =>
    have hb := hl b List.mem_cons_self
    have hp : placeBlock b s = setBlk s b { st := 1, owner := 0 } := placeBlock_free (by rw [hb]; exact hd) (by rw [blockHalf, hb]; exact hw)
    rw [List.foldl_cons, List.foldl_cons, hp]
    exact ih hd hw fun c hc => hl c (List.mem_cons_of_mem _ hc)

/-- Clearing DRAIN of a pinned region that nobody waits for gives its blocks back. -/
theorem setDrain_off {r : Nat} {s : State} (hst : (region s r).state = 2) (hb : (region s r).busy = false) (hw : waitQ s (regionHalf r) = [])
    (hcanon : ∀ e ∈ s.buf.blk, e.2 = blk s e.1) :
    tget false (setDrain r false s).buf.drain r = false ∧
      (∀ b, blk (setDrain r false s) b = if b / 1024 = r ∧ (blk s b).st = 4 then { st := 1, owner := 0 } else blk s b) ∧
      changesOnly [.buf] s (setDrain r false s) := by
  unfold setDrain
  dsimp only
  generalize hx : s.onBuf _ = x
  have htab : x.buf.blk = s.buf.blk := by rw [← hx]; rfl
  have hreg : region x r = region s r := by rw [← hx]; rfl
  have hdr : tget false x.buf.drain r = false := by
    rw [← hx]
    exact tget_tset_self false s.buf.drain r false
  have hxf : changesOnly [.buf] s x := by
    rw [← hx]
    simp
  have hwx : waitQ x (regionHalf r) = [] := by
    rw [← hx]
    exact hw
  have hin (b : Nat) : b ∈ blocksIn x r 4 ↔ b / 1024 = r ∧ (blk s b).st = 4 := by
    simp only [blocksIn, htab, List.mem_map, List.mem_filter, Bool.and_eq_true, decide_eq_true_eq]
    constructor
    · rintro ⟨e, ⟨he, hr, h4⟩, rfl⟩
      refine ⟨hr, ?_⟩
      rw [← hcanon e he]
      exact BitVec.eq_of_toNat_eq h4
    · rintro ⟨hr, h4⟩
      have hmem : (b, blk s b) ∈ s.buf.blk := mem_of_tget_ne fun hz => by
        have : (blk s b).st = 1 := congrArg Blk.st hz
        rw [h4] at this
        exact absurd this (by decide)
      exact ⟨_, ⟨hmem, hr, by rw [h4]; rfl⟩, rfl⟩
  rw [hreg, if_neg (show ¬ ((region s r).state ≠ 2 ∨ (region s r).busy = true) by simp [hst, hb]), if_neg (by decide),
    foldl_placeBlock _ hdr hwx fun b hb => ((hin b).mp hb).1]
  obtain ⟨h1, h2, h3⟩ := foldl_setBlk id { st := 1, owner := 0 } (blocksIn x r 4) x
  simp only [id_eq, List.map_id] at h1 h2 h3
  refine ⟨by rw [h2]; exact hdr, fun b => ?_, changesOnly_trans hxf h3⟩
  rw [h1, blk_congr htab]
  exact if_congr (hin b) rfl rfl

/-! ## The thaw of a waiter (R166) -/

/-- AUX of a response without poison (R287). -/
theorem respAux_clean {status : Nat} (h : status < 256) (untrk : Bool) :
    respAux status 0 untrk = BitVec.ofNat 32 (status + if untrk then 4096 else 0) := by
  have hall : ∀ n : Fin 256, ∀ b : Bool, respAux n.val 0 b = BitVec.ofNat 32 (n.val + if b then 4096 else 0) := by decide +kernel
  exact hall ⟨status, h⟩ untrk

theorem respond_eq {p : PartnerPort} {cls : Fin 4} {tag : BitVec 12} {part : Part} {sa : Sa} {status : Nat} {untrk : Bool} {data : List Byte}
    (h : status < 256) (s : State) :
    respond p cls tag part sa status 0 untrk data s =
      sendFrame p.val (rsp { port := p, cls := cls, tag := tag, part := part, sa := sa } status untrk data) s := by
  unfold respond rsp
  dsimp only
  rw [respAux_clean h]

theorem allocEvent_frame (h : Half) (p : Part) (n : Nat) (s : State) : changesOnly [.cnt] s (allocEvent h p n s) := by
  unfold allocEvent
  split
  · simp
  · split
    · simp
    · split
      · simp
      · split <;> simp

theorem countThaw_spec (s : State) (h : Half) (p : Part) :
    (spReg (countThaw s h p) p.toNat).thawCnt = (spReg s p.toNat).thawCnt + 1 ∧ changesOnly [.seq, .cnt] s (countThaw s h p) := by
  unfold countThaw
  refine ⟨?_, by simp [modSp]⟩
  rw [spReg, cnt_seq]
  exact congrArg SeqPart.thawCnt (tget_tset_self ..)

/-- A waiter for a partner that leaves its queue: its reservation, and the answer (R164, R166). -/
theorem endWaiter_port {h : Half} {w : Waiter} {p : PartnerPort} {c : Fin 4} {tag : BitVec 12} {status : Nat} {s : State} (hs : status < 256)
    (hw : w.who = .port p c tag) (hp : portActive s p.val = true) :
    waitQ (endWaiter h w status s) h = (waitQ s h).erase w ∧ used (endWaiter h w status s) h w.part = used s h w.part - 1 ∧
      sends p.val (rsp { port := p, cls := c, tag := tag, part := w.part, sa := 0 } status false []) s (endWaiter h w status s) ∧
      (endWaiter h w status s).seq = s.seq := by
  unfold endWaiter blockAnswer
  dsimp only
  rw [hw]
  dsimp only
  rw [respond_eq hs]
  generalize hx : setWaitQ h _ _ = x
  have hxw : waitQ x h = (waitQ s h).erase w := by
    rw [← hx]
    cases h <;> rfl
  have hxu : used x h w.part = used s h w.part - 1 := by
    rw [← hx]
    refine Eq.trans ?_ (tget_tset_self 0 s.buf.used (32 * h.idx + w.part.toNat) _)
    cases h <;> rfl
  have hxf : changesOnly [.buf] s x := by
    rw [← hx]
    simp [setWaitQ, subUsed]
  have hy := allocEvent_frame h w.part status x
  generalize allocEvent h w.part status x = y at hy ⊢
  generalize rsp { port := p, cls := c, tag := tag, part := w.part, sa := 0 } status false [] = f
  have hlinks : y.links = s.links := (hy .links (by decide)).trans (hxf .links (by decide))
  have hlink : link y p.val = link s p.val := by simp only [link, hlinks]
  have hport : port y p.val = port s p.val := by simp only [port, hlinks]
  have hlive : portLive y p.val = true := by
    simp only [portActive, portLive] at hp ⊢
    rw [hport, hp]
    rfl
  have hz := hands_sendFrame p.val f y
  have hsend := sends_sendFrame (f := f) hlive
  generalize sendFrame p.val f y = z at hz hsend
  have hbuf : z.buf = x.buf := (hz.frame .buf (by decide)).trans (hy .buf (by decide))
  refine ⟨?_, ?_, sends_congr hlink.symm hport.symm rfl hsend, ?_⟩
  · rw [waitQ, hbuf]
    exact hxw
  · rw [used, hbuf]
    exact hxu
  · rw [hz.frame .seq (by decide), hy .seq (by decide), hxf .seq (by decide)]

/-! ## A release (R169) -/

/-- The blocks of `l` that partition p owns are free of it; what their frees wait for is nobody's. -/
structure Released (p : Part) (l : List Nat) (s u : State) : Prop where
  frame : changesOnly [.buf] s u
  blk : ∀ b, blk u b = if b ∈ l ∧ (blk s b).st = 3 ∧ (blk s b).owner = p then { st := 2, owner := p } else blk s b
  frees : ∀ e ∈ u.buf.frees, e.2.1 = none

theorem released_freeBlock {p : Part} {l : List Nat} {b : Nat} {s u : State} (hu : Released p l s u) (h3 : (blk s b).st = 3)
    (ho : (blk s b).owner = p) (hr : (region s (b / 1024)).state = 2) : Released p (b :: l) s (freeBlock none p b u) := by
  have hreg : region u (b / 1024) = region s (b / 1024) :=
    congrArg (fun t : Tables => tget Region.zero t.region (b / 1024)) (hu.frame .tables (by decide))
  by_cases hb : b ∈ l
  · have hblk : blk u b = { st := 2, owner := p } := by rw [hu.blk b, if_pos ⟨hb, h3, ho⟩]
    have heq : freeBlock none p b u = u := by
      unfold freeBlock
      dsimp only
      rw [if_neg (by rw [hreg, hr]; decide), if_pos (.inl (by rw [hblk]; exact (by decide : (2 : BitVec 3) ≠ 3)))]
    rw [heq]
    refine ⟨hu.frame, fun c => (hu.blk c).trans (if_congr (and_congr_left fun _ => ?_) rfl rfl), hu.frees⟩
    exact ⟨List.mem_cons_of_mem _, fun hc => (List.mem_cons.mp hc).elim (fun h => h ▸ hb) id⟩
  · have hblk : blk u b = blk s b := by rw [hu.blk b, if_neg fun h => hb h.1]
    have heq : freeBlock none p b u = (setBlk u b { st := 2, owner := p }).onBuf fun x => { x with frees := x.frees ++ [(b, none, p)] } := by
      unfold freeBlock
      dsimp only
      rw [if_neg (by rw [hreg, hr]; decide), if_neg (by rw [hblk, h3, ho]; simp), hblk, ho]
    rw [heq]
    refine ⟨?_, fun c => ?_, fun e he => ?_⟩
    · simpa [setBlk] using hu.frame
    · have hc : Machine.blk ((setBlk u b { st := 2, owner := p }).onBuf fun x => { x with frees := x.frees ++ [(b, none, p)] }) c =
          Machine.blk (setBlk u b { st := 2, owner := p }) c := rfl
      rw [hc, blk_setBlk, hu.blk c]
      by_cases hcb : c = b
      · rw [if_pos hcb, hcb, if_pos ⟨List.mem_cons_self, h3, ho⟩]
      · rw [if_neg hcb]
        refine if_congr (and_congr_left fun _ => ?_) rfl rfl
        simp [hcb]
    · rcases List.mem_append.mp he with he | he
      · exact hu.frees e he
      · rw [List.mem_singleton.mp he]

theorem released_foldl {p : Part} (l : List (Nat × Blk)) {k : List Nat} {s u : State} (hu : Released p k s u)
    (hl : ∀ e ∈ l, (blk s e.1).st = 3 ∧ (blk s e.1).owner = p ∧ (region s (e.1 / 1024)).state = 2) :
    ∃ m, (∀ b, b ∈ m ↔ b ∈ k ∨ b ∈ l.map (·.1)) ∧ Released p m s (l.foldl (fun t e => freeBlock none p e.1 t) u) := by
  induction l generalizing k u with
  | nil => exact ⟨k, fun b => by simp, hu⟩
  | cons e l ih =>
    obtain ⟨h3, ho, hr⟩ := hl e List.mem_cons_self
    obtain ⟨m, hm, hrel⟩ := ih (released_freeBlock hu h3 ho hr) fun x hx => hl x (List.mem_cons_of_mem _ hx)
    refine ⟨m, fun b => ?_, hrel⟩
    rw [hm]
    simp only [List.mem_cons, List.map_cons]
    tauto

/-- A release of a partition's blocks where no release runs. -/
theorem releaseAll_spec {p : Part} {s : State} (hf : s.buf.frees = [])
    (hcanon : ∀ e ∈ s.buf.blk, e.2 = blk s e.1 ∧ (e.2.st = 3 → (region s (e.1 / 1024)).state = 2)) :
    changesOnly [.buf] s (releaseAll p s) ∧ (∀ e ∈ (releaseAll p s).buf.frees, e.2.1 = none) ∧
      ∀ b, blk (releaseAll p s) b = if (blk s b).st = 3 ∧ (blk s b).owner = p then { st := 2, owner := p } else blk s b := by
  have hbusy (h : Half) : relBusy s h = false := by simp [relBusy, hf]
  unfold releaseAll
  rw [if_neg (by simp [hbusy])]
  have hin (e : Nat × Blk) : e ∈ s.buf.blk.filter (fun e => e.2.st == 3 && e.2.owner == p) ↔ e ∈ s.buf.blk ∧ e.2.st = 3 ∧ e.2.owner = p := by
    simp [List.mem_filter]
  obtain ⟨m, hm, hrel⟩ := released_foldl (p := p) (k := []) (s := s) (u := s) (s.buf.blk.filter fun e => e.2.st == 3 && e.2.owner == p)
    ⟨changesOnly_refl _ s, fun b => by simp, by simp [hf]⟩ fun e he => by
      obtain ⟨hmem, h3, ho⟩ := (hin e).mp he
      obtain ⟨heq, hreg⟩ := hcanon e hmem
      rw [heq] at h3 ho hreg
      exact ⟨h3, ho, hreg h3⟩
  refine ⟨hrel.frame, hrel.frees, fun b => (hrel.blk b).trans (if_congr ?_ rfl rfl)⟩
  refine ⟨fun h => h.2, fun h => ⟨(hm b).mpr (.inr ?_), h⟩⟩
  have hmem : (b, blk s b) ∈ s.buf.blk := mem_of_tget_ne fun hz => by
    have : (blk s b).st = 1 := congrArg Blk.st hz
    rw [h.1] at this
    exact absurd this (by decide)
  exact List.mem_map.mpr ⟨_, (hin _).mpr ⟨hmem, h⟩, rfl⟩

theorem cache_finishFree {e : Nat × Option (Who × Part × Sa) × Part} (s : State) (h : e.2.1 = none) : (finishFree e s).cache = s.cache := by
  unfold finishFree
  dsimp only
  rw [h]
  simp [subUsed]

theorem blk_finishFree {e : Nat × Option (Who × Part × Sa) × Part} (s : State) (h : e.2.1 = none) : (finishFree e s).buf.blk = s.buf.blk := by
  unfold finishFree
  dsimp only
  rw [h]
  simp [subUsed]

theorem drain_word {r : Fin 384} {on : Bool} {s : State} (hd : domOn s 5 = true ∨ domOn s 6 = true) :
    exec (.drain r on) s = answer s (setDrain r.val on s) := by
  have he : exec (.drain r on) s = execDrain r on s := rfl
  rw [he, execDrain, ifUp, if_pos (by simpa using hd)]

/-- Frees that wait for nobody's copies end at once, and change no block (R168). -/
theorem settle_frees {s : State} (hq : quiet s = true) (ha : addlsIdle s = true) (hf : ∀ e ∈ s.buf.frees, e.2.1 = none)
    (hl : ∀ e ∈ s.cache.line, e.2.sharers = 0 ∧ e.2.rheld = false) :
    (settle s).buf.blk = s.buf.blk ∧ (settle s).cache = s.cache := by
  have hb : s.cache.blocked = [] := by
    simp only [quiet, Bool.and_eq_true, List.isEmpty_iff] at hq
    exact hq.1.1.1
  have hro (u : State) (hu : u.cache = s.cache) (b : Nat) : roWaits u b = false := by simp [roWaits, hu, hb]
  have hsh (u : State) (hu : u.cache = s.cache) (b : Nat) : sharedIn u b = [] := by
    have hnone : s.cache.line.filter (fun e => inBlock b e.1 && needInv u e.2) = [] := by
      rw [List.filter_eq_nil_iff]
      intro e he
      simp [needInv, hl e he]
    rw [sharedIn, hu, hnone]
    rfl
  have hscan : scanFrees s = s := by
    unfold scanFrees
    induction s.buf.frees with
    | nil => rfl
    | cons e l ih => rw [List.foldl_cons, hro s rfl, if_neg (by decide), hsh s rfl, List.foldl_nil, ih]
  have hfinish : ∀ (l : List (Nat × Option (Who × Part × Sa) × Part)) (u : State), (∀ e ∈ l, e.2.1 = none) → u.cache = s.cache →
      u.buf.blk = s.buf.blk → ∀ v, v = l.foldl (fun t e =>
        if roWaits t e.1 ∨ t.cache.invs.any (fun o => inBlock e.1 o.key) ∨ !(sharedIn t e.1).isEmpty then t else finishFree e t) u →
      v.buf.blk = s.buf.blk ∧ v.cache = s.cache := by
    intro l
    induction l with
    | nil =>
      rintro u - hc hbk v rfl
      exact ⟨hbk, hc⟩
    | cons e l ih =>
      rintro u hn hc hbk v rfl
      refine ih _ (fun x hx => hn x (List.mem_cons_of_mem _ hx)) ?_ ?_ _ rfl
      · dsimp only
        split
        · exact hc
        · exact (cache_finishFree u (hn e List.mem_cons_self)).trans hc
      · dsimp only
        split
        · exact hbk
        · exact (blk_finishFree u (hn e List.mem_cons_self)).trans hbk
  unfold settle
  dsimp only
  rw [settleAll_quiet hq, if_pos ha, hscan, settleAll_quiet hq]
  split
  · exact ⟨rfl, rfl⟩
  · exact hfinish _ s hf rfl rfl _ rfl

/-! ## The obligation -/

/-- Settles O43. -/
theorem bufferBlocks : Obligations.BufferBlocks := by
  unfold Obligations.BufferBlocks
  refine fun s => ⟨fun b h2 hr hb hd hdr hw => scrubDone_frees h2 hr hb hd hdr hw, fun h k w p c tag hk hdue hwho hp => ?_,
    fun part hd hcalm hcop hcanon => ?_, fun r hd hst hb => ⟨?_, fun hw hcanon => ?_⟩, fun r on hd hx => ?_⟩
  · have he : exec (.allocWaiterThaw h k) s = execAllocWaiterThaw h k s := rfl
    rw [execAllocWaiterThaw, hk] at he
    dsimp only at he
    rw [if_pos hdue] at he
    obtain ⟨hthaw, hcf⟩ := countThaw_spec s h w.part
    generalize countThaw s h w.part = x at he hthaw hcf
    have hlinks : x.links = s.links := hcf .links (by decide)
    have hbuf : x.buf = s.buf := hcf .buf (by decide)
    have hport (n : Nat) : port x n = port s n := by simp only [port, hlinks]
    have hlink (n : Nat) : link x n = link s n := by simp only [link, hlinks]
    obtain ⟨h1, h2, h3, h4⟩ := endWaiter_port (h := h) (status := stThawed) (by decide) hwho
      (by rw [portActive, hport]; exact hp : portActive x p.val = true)
    generalize endWaiter h w stThawed x = u at he h1 h2 h3 h4
    refine completesWith_answer he ⟨?_, ?_, ?_, ?_⟩
    · exact h1.trans (by rw [waitQ, hbuf]; rfl)
    · exact h2.trans (by rw [used, hbuf]; rfl)
    · exact sends_congr (hlink _).symm (hport _).symm rfl h3
    · refine (congrArg (fun q : Seq => (tget SeqPart.zero q.sp w.part.toNat).thawCnt) h4).trans hthaw
  · have he : exec (.bufRelease part) s = answer s (settle (releaseAll part s)) := by
      have h0 : exec (.bufRelease part) s = execBufRelease part s := rfl
      rw [h0, execBufRelease, ifUp, if_pos (by simpa using hd)]
    obtain ⟨hb, hm, hi, hp, ha, hf⟩ := calm_iff.mp hcalm
    obtain ⟨hrf, hrn, hrb⟩ := releaseAll_spec (p := part) hf hcanon
    generalize releaseAll part s = x at he hrf hrn hrb
    have hc : x.cache = s.cache := hrf .cache (by decide)
    have hquiet : quiet x = true := by
      simp only [calm, Bool.and_eq_true] at hcalm
      rw [quiet, hc]
      exact hcalm.1.1
    obtain ⟨sb, sc⟩ := settle_frees hquiet (by rw [addlsIdle, hrf .atu (by decide)]; exact ha) hrn (by rw [hc]; exact hcop)
    generalize settle x = u at he sb sc
    have hblk (b : Nat) : blk u b = if (blk s b).st = 3 ∧ (blk s b).owner = part then { st := 2, owner := part } else blk s b :=
      (blk_congr sb b).trans (hrb b)
    refine completesWith_answer he ⟨fun b h3 ho => ?_, fun b hn => ?_, ?_⟩
    · exact congrArg Blk.st ((hblk b).trans (if_pos ⟨h3, ho⟩))
    · exact (hblk b).trans (if_neg hn)
    · exact sameBytes_answered.mpr (sameBytes_of_data (by rw [sc, hc]))
  · have he := drain_word (r := r) (on := true) hd
    obtain ⟨h1, h2, h3⟩ := setDrain_on hst hb
    generalize setDrain r.val true s = u at he h1 h2 h3
    refine completesWith_answer he ⟨h1, fun b hb1 hb2 => ?_, fun b hb1 => ?_, changesOnly_answered.mpr h3⟩
    · exact congrArg Blk.st ((h2 b).trans (if_pos ⟨hb1, hb2⟩))
    · exact (h2 b).trans (if_neg (by tauto))
  · have he := drain_word (r := r) (on := false) hd
    obtain ⟨h1, h2, h3⟩ := setDrain_off hst hb hw hcanon
    generalize setDrain r.val false s = u at he h1 h2 h3
    refine completesWith_answer he ⟨h1, fun b hb1 hb2 => ?_, fun b hb1 => ?_, changesOnly_answered.mpr h3⟩
    · exact congrArg Blk.st ((h2 b).trans (if_pos ⟨hb1, hb2⟩))
    · exact (h2 b).trans (if_neg (by tauto))
  · have he := drain_word (r := r) (on := on) hd
    have hset : setDrain r.val on s = s.onBuf fun u => { u with drain := tset false u.drain r.val on } := if_pos hx
    rw [hset] at he
    exact completesWith_answer he ⟨tget_tset_self .., fun _ => rfl, by simp⟩

end Sys2Proof.Machine
end

section
/-! PROOFS. Task queues and doorbells (R221, R222, R233). -/

namespace Sys2Proof.Machine

open Sys2Proof.Safety

/-! ## Queues -/

theorem tq_setTq_self (q : Nat) (x : TaskQ) (s : State) : tq (setTq q x s) q = x := tget_tset_self ..

theorem tq_setTq_ne {q k : Nat} (x : TaskQ) (s : State) (h : k ≠ q) : tq (setTq q x s) k = tq s k := tget_tset_ne _ _ _ h

theorem setTq_frame (q : Nat) (x : TaskQ) (s : State) :
    (setTq q x s).seq = { s.seq with tq := (setTq q x s).seq.tq } ∧ changesOnly [.seq] s (setTq q x s) := ⟨rfl, by simp [setTq]⟩

/-- A command that gives a queue its registers. -/
theorem completesWith_setTq {c : Instr} {q : Nat} {x : TaskQ} {s : State} (he : exec c s = answer s (setTq q x s)) :
    completesWith c s fun u => tq u q = x ∧ (∀ k, k ≠ q → tq u k = tq s k) ∧ u.seq = { s.seq with tq := u.seq.tq } ∧ changesOnly [.seq] s u :=
  completesWith_answer he ⟨tq_setTq_self q x s, fun _ hk => tq_setTq_ne x s hk, rfl, changesOnly_answered.mpr (setTq_frame q x s).2⟩

/-- A command that leaves the queues as they are. -/
theorem completesWith_tq_same {c : Instr} {q : Nat} {s : State} (he : exec c s = answer s s) :
    completesWith c s fun u => tq u q = tq s q ∧ (∀ k, k ≠ q → tq u k = tq s k) ∧ u.seq = { s.seq with tq := u.seq.tq } ∧ changesOnly [.seq] s u :=
  completesWith_answer he ⟨rfl, fun _ _ => rfl, rfl, by simp⟩

theorem frGe_iff (v t : BitVec 32) : frGe v t = true ↔ (v - t).toNat < 2 ^ 31 := by
  simp [frGe]

/-! ## Context slots -/

theorem spReg_modSp_self (s : State) (p : Nat) (f : SeqPart → SeqPart) : spReg (modSp s p f) p = f (spReg s p) := tget_tset_self ..

theorem getLsbD_setBit_false {n : Nat} (v : BitVec n) (i : Nat) : (setBit v i false).getLsbD i = false := by
  by_cases h : i < n
  · have hone : (BitVec.ofNat n 1 <<< i).getLsbD i = true := by
      simp [h]
    simp [setBit, hone]
  · exact BitVec.getLsbD_of_ge _ _ (by omega)

theorem changesOnly_modSp {bs : List Block} {r s : State} {p : Nat} {f : SeqPart → SeqPart} (hb : Block.seq ∈ bs) :
    changesOnly bs r (modSp s p f) ↔ changesOnly bs r s := changesOnly_onSeq hb

/-! ## Doorbells (R222, R233) -/

theorem bellTail_refused {part : Part} {q : Nat} {v : BitVec 32} {s : State} (h0 : part ≠ 0) (hp : part ≠ (tq s q).part) :
    (bellTail part q v s).2 = s := by
  unfold bellTail
  dsimp only
  rw [if_pos ⟨h0, hp⟩]

/-- A TAIL that the queue takes. -/
def tailOk (x : TaskQ) (v : BitVec 32) : Prop := x.en = true ∧ (v - x.tail).toNat < 2 ^ 31 ∧ (v - x.head).toNat ≤ 2 ^ x.log2n.toNat

theorem bellTail_moves {part : Part} {q : Nat} {v : BitVec 32} {s : State} (hp : part = 0 ∨ part = (tq s q).part) (hok : tailOk (tq s q) v) :
    (bellTail part q v s).2 = setTq q { tq s q with tail := v } s := by
  obtain ⟨he, ht, hh⟩ := hok
  have hno : ¬ ((!(tq s q).en) = true ∨ (!frGe v (tq s q).tail) = true ∨ 2 ^ (tq s q).log2n.toNat < (v - (tq s q).head).toNat) := by
    rw [he, (frGe_iff ..).mpr ht]
    simpa using hh
  unfold bellTail
  dsimp only
  rw [if_neg (by tauto), if_neg hno]

theorem bellTail_errs {part : Part} {q : Nat} {v : BitVec 32} {s : State} (hp : part = 0 ∨ part = (tq s q).part) (hok : ¬ tailOk (tq s q) v) :
    (bellTail part q v s).2 = setTq q { tq s q with dbErr := true } s := by
  have hno : (!(tq s q).en) = true ∨ (!frGe v (tq s q).tail) = true ∨ 2 ^ (tq s q).log2n.toNat < (v - (tq s q).head).toNat := by
    by_contra h
    push Not at h
    obtain ⟨he, ht, hh⟩ := h
    exact hok ⟨by simpa using he, (frGe_iff ..).mp (by simpa using ht), hh⟩
  unfold bellTail
  dsimp only
  rw [if_neg (by tauto), if_pos hno]

theorem bellResume_other {part p : Part} {slot : Nat} {s : State} (h0 : part ≠ 0) (hp : part ≠ p) : (bellResume part p slot s).2 = s := by
  rw [bellResume, if_pos ⟨h0, hp⟩]

theorem bellDiscard_other {part p : Part} {slot : Nat} {s : State} (h0 : part ≠ 0) (hp : part ≠ p) : (bellDiscard part p slot s).2 = s := by
  rw [bellDiscard, if_pos ⟨h0, hp⟩]

section
variable {part p : Part} {slot : Nat} {s : State} (hp : part = 0 ∨ part = p)
include hp

theorem bellResume_unparked (h : slotParked s p.toNat slot = false) : (bellResume part p slot s).2 = badCmd p.toNat s := by
  rw [bellResume, if_neg (by tauto), if_pos (by rw [h]; rfl)]

theorem bellDiscard_unparked (h : slotParked s p.toNat slot = false) : (bellDiscard part p slot s).2 = badCmd p.toNat s := by
  rw [bellDiscard, if_neg (by tauto), if_pos (by rw [h]; rfl)]

theorem bellDiscard_parked (h : slotParked s p.toNat slot = true) : (bellDiscard part p slot s).2 = dropSlot p.toNat slot s := by
  rw [bellDiscard, if_neg (by tauto), if_neg (by rw [h]; decide)]

theorem bellResume_parked (h : slotParked s p.toNat slot = true) :
    (bellResume part p slot s).2 = pushResume (tget { half := .e, prio := 0 } (spReg s p.toNat).slots slot).half p slot
      (tget { half := .e, prio := 0 } (spReg s p.toNat).slots slot).prio (modSp s p.toNat fun x => { x with park := setBit x.park slot false }) := by
  rw [bellResume, if_neg (by tauto), if_neg (by rw [h]; decide)]
end

/-! ## The queue's control (R221) -/

/-- The control fields of a write. -/
def ctlOf (x : TaskQ) (v : BitVec 32) : TaskQ :=
  { x with en := v.getLsbD 0, part := v.extractLsb' 1 5, prio := v.extractLsb' 6 2, half := Half.ofBool (v.getLsbD 8), log2n := v.extractLsb' 9 4 }

theorem tqCtl_word {q : Fin 128} {v : BitVec 32} {s : State} (hd : domOn s 1 = true ∨ domOn s 2 = true) :
    exec (.tqCtlWrite q v) s = answer s (writeTqCtl q.val v s) := by
  have he : exec (.tqCtlWrite q v) s = execTqCtlWrite q v s := rfl
  rw [he, execTqCtlWrite, ifUp, if_pos (by simpa using hd)]

/-- A write of the control that is refused (R221). -/
def ctlRefused (x y : TaskQ) : Prop :=
  (x.en = true ∧ ¬ (y.part = x.part ∧ y.half = x.half ∧ y.log2n = x.log2n)) ∨ y.log2n.toNat < 4 ∨ 12 < y.log2n.toNat

theorem writeTqCtl_eq (q : Nat) (v : BitVec 32) (s : State) [Decidable (ctlRefused (tq s q) (ctlOf (tq s q) v))] :
    writeTqCtl q v s =
      if ctlRefused (tq s q) (ctlOf (tq s q) v) then setTq q { tq s q with cfg := true } s
      else if (ctlOf (tq s q) v).en = true ∧ (tq s q).en = false then setTq q { ctlOf (tq s q) v with head := 0, tail := 0 } s
      else setTq q (ctlOf (tq s q) v) s := by
  unfold writeTqCtl
  dsimp only
  refine if_congr (by simp only [ctlRefused, decide_eq_true_eq]; rfl) rfl (if_congr ?_ rfl rfl)
  rw [Bool.not_eq_true']
  rfl

/-! ## The obligation -/

/-- Settles O22. -/
theorem queuesAndDoorbells : Obligations.QueuesAndDoorbells := by
  unfold Obligations.QueuesAndDoorbells
  refine ⟨?_, ?_⟩
  · intro part p q v slot s x ok tails parked keeps
    have hres : exec (.doorbellResume part p slot) s = answer s (bellResume part p slot.toNat s).2 := rfl
    have hdis : exec (.doorbellDiscard part p slot) s = answer s (bellDiscard part p slot.toNat s).2 := rfl
    have htail : exec (.doorbellTail part q v) s = answer s (bellTail part q.val v s).2 := rfl
    refine ⟨fun hx => ⟨fun hok => ?_, fun hok => ?_⟩, fun h0 hx => ?_, fun hp => ⟨fun hpark => ⟨?_, ?_⟩, fun hpark c hc => ?_⟩,
      fun h0 hne c hc => ?_⟩
    · rw [bellTail_moves hx hok] at htail
      exact completesWith_setTq htail
    · rw [bellTail_errs hx hok] at htail
      exact completesWith_setTq htail
    · rw [bellTail_refused h0 hx] at htail
      exact completesWith_tq_same htail
    · rw [bellResume_parked hp hpark] at hres
      generalize tget { half := .e, prio := 0 } (spReg s p.toNat).slots slot.toNat = i at hres ⊢
      have hsp : spReg (modSp s p.toNat fun x => { x with park := setBit x.park slot.toNat false }) p.toNat =
          { spReg s p.toNat with park := setBit (spReg s p.toNat).park slot.toNat false } := spReg_modSp_self ..
      generalize hm : modSp s p.toNat _ = m at hres hsp
      have hmf : changesOnly [.seq] s m ∧ m.seq.th = s.seq.th ∧ m.seq.tq = s.seq.tq ∧ m.seq.resumeE = s.seq.resumeE ∧ m.seq.resumeW = s.seq.resumeW := by
        rw [← hm]
        exact ⟨(changesOnly_modSp (by decide)).mpr (changesOnly_refl _ s), rfl, rfl, rfl, rfl⟩
      obtain ⟨hmf, hth, htq, hre, hrw⟩ := hmf
      have hspu : spReg (pushResume i.half p slot.toNat i.prio m) p.toNat = spReg m p.toNat := by
        cases hh : i.half <;> rfl
      have hslot : BitVec.ofNat 6 slot.toNat = slot := by simp
      refine completesWith_answer hres ⟨?_, ?_, ?_, ?_, ?_, fun hh => ?_, fun hh => ?_⟩
      · rw [changesOnly_answered, pushResume, changesOnly_onSeq (by decide)]
        exact hmf
      · exact Eq.trans (by cases hh : i.half <;> simp [pushResume]) hth
      · exact Eq.trans (by cases hh : i.half <;> simp [pushResume]) htq
      · refine (congrArg (fun y : SeqPart => y.park.getLsbD slot.toNat) (hspu.trans hsp)).trans ?_
        exact getLsbD_setBit_false ..
      · refine (congrArg (fun y : SeqPart => y.used.getLsbD slot.toNat) (hspu.trans hsp)).trans ?_
        rfl
      · rw [answered_seq, hh, ← hre]
        simp [pushResume, hslot]
      · rw [answered_seq, hh, ← hrw]
        simp [pushResume, hslot]
    · rw [bellDiscard_parked hp hpark] at hdis
      have hsp : spReg (dropSlot p.toNat slot.toNat s) p.toNat = _ := spReg_modSp_self s p.toNat _
      refine completesWith_answer hdis ⟨?_, rfl, rfl, ?_, ?_, rfl, rfl⟩
      · rw [changesOnly_answered, dropSlot, changesOnly_modSp (by decide)]
        exact changesOnly_refl _ s
      · exact (congrArg (fun y : SeqPart => y.park.getLsbD slot.toNat) hsp).trans (getLsbD_setBit_false ..)
      · exact (congrArg (fun y : SeqPart => y.used.getLsbD slot.toNat) hsp).trans (getLsbD_setBit_false ..)
    · have he : exec c s = answer s (badCmd p.toNat s) := by
        rcases hc with rfl | rfl
        · rw [hres, bellResume_unparked hp hpark]
        · rw [hdis, bellDiscard_unparked hp hpark]
      refine completesWith_answer he ⟨?_, rfl, rfl, spReg_modSp_self s p.toNat fun x => { x with badcmd := true }, rfl, rfl⟩
      rw [changesOnly_answered, badCmd, changesOnly_modSp (by decide)]
      exact changesOnly_refl _ s
    · have he : exec c s = answer s s := by
        rcases hc with rfl | rfl
        · rw [hres, bellResume_other h0 hne]
        · rw [hdis, bellDiscard_other h0 hne]
      exact completesWith_answer he ⟨by simp, rfl, rfl, rfl⟩
  · intro q v s hd x y refused becomes
    have he := tqCtl_word (q := q) (v := v) hd
    classical
    rw [writeTqCtl_eq] at he
    refine ⟨fun (hr : ctlRefused (tq s q.val) (ctlOf (tq s q.val) v)) => ?_,
      fun (hr : ¬ ctlRefused (tq s q.val) (ctlOf (tq s q.val) v)) (h1 : (ctlOf (tq s q.val) v).en = true) (h0 : (tq s q.val).en = false) => ?_,
      fun (hr : ¬ ctlRefused (tq s q.val) (ctlOf (tq s q.val) v)) (hn : ¬ ((ctlOf (tq s q.val) v).en = true ∧ (tq s q.val).en = false)) => ?_⟩
    · rw [if_pos hr] at he
      exact completesWith_setTq he
    · rw [if_neg hr, if_pos ⟨h1, h0⟩] at he
      exact completesWith_setTq he
    · rw [if_neg hr, if_neg hn] at he
      exact completesWith_setTq he

end Sys2Proof.Machine
end

section
/-! PROOFS. The end of an outstanding access (R214, R258). -/

namespace Sys2Proof.Machine

open Sys2Proof.Safety

/-- A thread with the results of an access in n registers from d on. -/
def withResults (d n : Nat) (v : List (BitVec 64)) (x : Thread) : Thread := (List.range n).foldl (fun y i => y.setG (d + i) (v.getD i 0)) x

theorem withResults_succ (d n : Nat) (v : List (BitVec 64)) (x : Thread) :
    withResults d (n + 1) v x = (withResults d n v x).setG (d + n) (v.getD n 0) := by
  rw [withResults, List.range_succ, List.foldl_append]
  rfl

theorem gReg_withResults (d n : Nat) (v : List (BitVec 64)) (x : Thread) (r : Nat) :
    gReg (withResults d n v x) r = if r ≠ 0 ∧ d ≤ r ∧ r < d + n then v.getD (r - d) 0 else gReg x r := by
  induction n with
  | zero => exact (if_neg (by omega)).symm
  | succ n ih =>
    rw [withResults_succ, gReg_setG, ih]
    by_cases hr : r = d + n
    · subst hr
      by_cases h0 : d + n = 0
      · rw [if_neg (by omega), if_neg (by omega), if_neg (by omega)]
      · rw [if_pos ⟨rfl, h0⟩, if_pos (by omega), Nat.add_sub_cancel_left]
    · rw [if_neg (fun h => hr h.1)]
      exact if_congr (by omega) rfl rfl

/-- The registers alone change. -/
theorem withResults_eq (d n : Nat) (v : List (BitVec 64)) (x : Thread) : withResults d n v x = { x with g := (withResults d n v x).g } := by
  induction n with
  | zero => rfl
  | succ n ih =>
    rw [withResults_succ, ih]
    unfold Thread.setG
    split <;> rfl

theorem haltCheck_running {t : ThreadId} {s : State} (h : (thr s t.val).phase = .running) : haltCheck t s = s := by
  unfold haltCheck
  refine if_neg fun hx => ?_
  rw [h] at hx
  exact Phase.noConfusion hx.1

/-- Settles O14. -/
theorem accessCompletes : Obligations.AccessCompletes := by
  intro t k s o v ho hv hrun hwait
  have he : exec (.threadAccessComplete t k) s = execThreadAccessComplete t k s := rfl
  rw [execThreadAccessComplete, ho] at he
  dsimp only at he
  rw [hv] at he
  dsimp only at he
  rw [thr_modThr_self] at he
  dsimp only at he
  rw [hwait] at he
  dsimp only at he
  change exec (.threadAccessComplete t k) s = answer s (haltCheck t (modThr _ t.val (withResults o.dest.toNat o.count v))) at he
  have hthr : thr (modThr (modThr s t.val fun x => { x with outs := x.outs.erase o }) t.val (withResults o.dest.toNat o.count v)) t.val =
      withResults o.dest.toNat o.count v { thr s t.val with outs := (thr s t.val).outs.erase o } := by
    rw [thr_modThr_self, thr_modThr_self]
  have hother : otherThreads t s (modThr (modThr s t.val fun x => { x with outs := x.outs.erase o }) t.val (withResults o.dest.toNat o.count v)) :=
    fun j hj => by rw [thr_modThr_ne _ _ hj, thr_modThr_ne _ _ hj]
  have hframe : changesOnly [.seq] s (modThr (modThr s t.val fun x => { x with outs := x.outs.erase o }) t.val
      (withResults o.dest.toNat o.count v)) := by simp
  generalize modThr (modThr s t.val _) t.val _ = u at he hthr hother hframe
  rw [haltCheck_running (by rw [hthr, withResults_eq]; exact hrun)] at he
  refine completesWith_answer he ⟨fun r => ?_, ?_, otherThreads_answered.mpr hother, changesOnly_answered.mpr hframe⟩
  · rw [thr_answered, hthr, gReg_withResults]
    rfl
  · rw [thr_answered, hthr]
    exact withResults_eq ..

end Sys2Proof.Machine
end

section
/-! PROOFS. Waits that thaw or evaluate again (R242, R243, R271). -/

namespace Sys2Proof.Machine

open Sys2Proof.Safety

/-! ## The thaw of a wait (R242) -/

theorem thaw_wait {t : ThreadId} {s : State} {w : Wait} (hrun : (thr s t.val).phase = .running) (hw : (thr s t.val).wait = some w)
    (hdue : due s w.start w.limit = true) (hev : w.eval = none) (hk : w.kind.toNat ∈ [1, 2, 3, 5]) :
    thaw t s = retire t (fun y => (y.setG w.dest.toNat (statusWord 1 (if w.kind = 1 then tokLine (thr s t.val) w.tok.toNat else 0))).next)
      (forgetInstr t (countThaw s (thrHalf t.val) (thr s t.val).part)) := by
  have hne (n : Nat) (hn : n ∉ [1, 2, 3, 5]) : ∀ k : BitVec 3, k.toNat = n → w.kind ≠ k := fun k hkn he => hn (hkn ▸ he ▸ hk)
  have hgo : ¬ ((thr s t.val).phase ≠ .running ∨ w.kind = 0 ∨ w.kind = 6 ∨ (!due s w.start w.limit) = true ∨ w.eval.isSome = true) := by
    rintro (h | h | h | h | h)
    · exact h hrun
    · exact hne 0 (by decide) 0 rfl h
    · exact hne 6 (by decide) 6 rfl h
    · rw [hdue] at h
      exact absurd h (by decide)
    · rw [hev] at h
      exact absurd h (by decide)
  unfold thaw
  dsimp only
  rw [hw]
  dsimp only
  rw [if_neg hgo, if_neg (hne 4 (by decide) 4 rfl)]

theorem thr_forgetInstr (t : ThreadId) (s : State) (k : Nat) : thr (forgetInstr t s) k = thr s k := by
  obtain ⟨a, g, he⟩ := forgetInstr_eq t s
  rw [he]
  rfl

theorem thr_countThaw (s : State) (h : Half) (p : Part) (k : Nat) : thr (countThaw s h p) k = thr s k := by rw [countThaw, thr_cnt]; rfl

theorem thawCnt_dropSlot (p q k : Nat) (s : State) : (spReg (dropSlot p k s) q).thawCnt = (spReg s q).thawCnt := by
  by_cases h : q = p
  · subst h
    rw [dropSlot, spReg_modSp_self]
  · exact congrArg SeqPart.thawCnt (tget_tset_ne _ _ _ h)

/-- Retirement counts no thaw. -/
theorem thawCnt_retire (t : ThreadId) (f : Thread → Thread) (s : State) (q : Nat) :
    (spReg (retire t f s) q).thawCnt = (spReg s q).thawCnt := by
  have hcount : (spReg (retire t f s) q).thawCnt = (spReg (firstIssue t s) q).thawCnt := by simp [retire, countIssue, spReg]
  rw [hcount]
  obtain ⟨-, e⟩ | ⟨k, -, e⟩ := firstIssue_cases t s <;> rw [e]
  rw [thawCnt_dropSlot]
  rfl

/-- A wait for a token, a value or a lock ends THAWED. -/
theorem thaw_ends {t : ThreadId} {s : State} {w : Wait} (hrun : (thr s t.val).phase = .running) (hw : (thr s t.val).wait = some w)
    (hdue : due s w.start w.limit = true) (hev : w.eval = none) (hk : w.kind.toNat ∈ [1, 2, 3, 5]) :
    completesWith (.thaw t) s fun u =>
      thr u t.val = ended (((thr s t.val).setG w.dest.toNat (BitVec.ofNat 64
        (1 + if w.kind = 1 then (tokLine (thr s t.val) w.tok.toNat).toNat * 2 ^ 32 else 0))).next) ∧
      (spReg u (thr s t.val).part.toNat).thawCnt = (spReg s (thr s t.val).part.toNat).thawCnt + 1 ∧
      otherThreads t s u ∧ changesOnly [.seq, .cnt, .tst, .cache] s u ∧ sameBytes s u := by
  have he : exec (.thaw t) s = answer s (thaw t s) := rfl
  rw [thaw_wait hrun hw hdue hev hk] at he
  have hword : statusWord 1 (if w.kind = 1 then tokLine (thr s t.val) w.tok.toNat else 0) =
      BitVec.ofNat 64 (1 + if w.kind = 1 then (tokLine (thr s t.val) w.tok.toNat).toNat * 2 ^ 32 else 0) := by
    unfold statusWord
    split <;> rfl
  rw [hword] at he
  generalize BitVec.ofNat 64 _ = v at he ⊢
  obtain ⟨hcnt, hcf⟩ := countThaw_spec s (thrHalf t.val) (thr s t.val).part
  have hct := thr_countThaw s (thrHalf t.val) (thr s t.val).part
  generalize countThaw s (thrHalf t.val) (thr s t.val).part = x at he hcnt hcf hct
  have hft := thr_forgetInstr t x
  obtain ⟨a, g, hf⟩ := forgetInstr_eq t x
  have hfs : (forgetInstr t x).seq = x.seq := by rw [hf]; rfl
  have hff : changesOnly [.cache] x (forgetInstr t x) ∧ (forgetInstr t x).cache.data = x.cache.data := by
    rw [hf]
    exact ⟨by simp, rfl⟩
  generalize forgetInstr t x = y at he hft hfs hff
  have hself := thr_retire_self t (fun y => (y.setG w.dest.toNat v).next) y
  have hother (k : Nat) (hk : k ≠ t.val) := thr_retire_ne t (fun y => (y.setG w.dest.toNat v).next) y hk
  have hframe := (retire_frame t (fun y => (y.setG w.dest.toNat v).next) y).1
  have hthaw := thawCnt_retire t (fun y => (y.setG w.dest.toNat v).next) y (thr s t.val).part.toNat
  generalize retire t _ y = u at he hself hother hframe hthaw
  refine completesWith_answer he ⟨?_, ?_, fun k hk => ?_, ?_, ?_⟩
  · rw [thr_answered, hself, hft, hct]
    unfold Thread.setG
    split <;> rfl
  · refine hthaw.trans (Eq.trans ?_ hcnt)
    rw [spReg, hfs]
    rfl
  · rw [thr_answered, hother k hk, hft, hct]
  · rw [changesOnly_answered]
    exact changesOnly_trans (changesOnly_trans (changesOnly_mono hcf (by decide)) (changesOnly_mono hff.1 (by decide))) (changesOnly_mono hframe (by decide))
  · refine sameBytes_answered.mpr (sameBytes_of_data ?_)
    rw [show u.cache = y.cache from hframe .cache (by decide), hff.2, show x.cache = s.cache from hcf .cache (by decide)]

/-- A waiting allocation ends THAWED (R166, R242). -/
theorem thaw_alloc {t : ThreadId} {s : State} {w : Wait} {h : Half} {a : Waiter} {d : BitVec 5} (hrun : (thr s t.val).phase = .running)
    (hw : (thr s t.val).wait = some w) (hdue : due s w.start w.limit = true) (hev : w.eval = none) (hk : w.kind = 4)
    (ha : allocWaiter s t = some (h, a)) (hwho : a.who = .thread t d.toNat) :
    completesWith (.thaw t) s fun u =>
      thr u t.val = { ((thr s t.val).setG d.toNat 1).next with wait := none, waitLeft := none } ∧
      waitQ u h = (waitQ s h).erase a ∧ used u h a.part = used s h a.part - 1 ∧
      (spReg u a.part.toNat).thawCnt = (spReg s a.part.toNat).thawCnt + 1 ∧ otherThreads t s u := by
  have he : exec (.thaw t) s = answer s (thaw t s) := rfl
  have hgo : ¬ ((thr s t.val).phase ≠ .running ∨ w.kind = 0 ∨ w.kind = 6 ∨ (!due s w.start w.limit) = true ∨ w.eval.isSome = true) := by
    simp [hrun, hdue, hev, hk]
  have hth : thaw t s = endWaiter h a stThawed (countThaw s h a.part) := by
    unfold thaw
    dsimp only
    rw [hw]
    dsimp only
    rw [if_neg hgo, if_pos hk, ha]
  rw [hth] at he
  obtain ⟨hcnt, hcf⟩ := countThaw_spec s h a.part
  have hct := thr_countThaw s h a.part
  generalize countThaw s h a.part = x at he hcnt hcf hct
  have hbuf : x.buf = s.buf := hcf .buf (by decide)
  unfold endWaiter blockAnswer at he
  dsimp only at he
  rw [hwho] at he
  dsimp only at he
  rw [if_neg (by decide : ¬ stThawed = stOk)] at he
  generalize hy : setWaitQ h _ _ = y at he
  have hyw : waitQ y h = (waitQ s h).erase a := by
    rw [← hy, show waitQ x h = waitQ s h by rw [waitQ, hbuf]; rfl]
    cases h <;> rfl
  have hyu : used y h a.part = used s h a.part - 1 := by
    rw [← hy, show used s h a.part = used x h a.part by rw [used, ← hbuf]; rfl]
    refine Eq.trans ?_ (tget_tset_self 0 x.buf.used (32 * h.idx + a.part.toNat) _)
    cases h <;> rfl
  have hyf : changesOnly [.buf] x y := by
    rw [← hy]
    simp [setWaitQ, subUsed]
  have hzf := allocEvent_frame h a.part stThawed y
  generalize allocEvent h a.part stThawed y = z at he hzf
  have hseq : z.seq = x.seq := (hzf .seq (by decide)).trans (hyf .seq (by decide))
  have hzb : z.buf = y.buf := hzf .buf (by decide)
  refine completesWith_answer he ⟨?_, ?_, ?_, ?_, fun k hk => ?_⟩
  · rw [thr_answered, thr_modThr_self, thr_congr hseq, hct]
    rfl
  · rw [waitQ, answered_buf, modThr_buf, hzb]
    exact hyw
  · rw [used, answered_buf, modThr_buf, hzb]
    exact hyu
  · refine Eq.trans ?_ hcnt
    rw [spReg, answered_seq, modThr_seq_sp, hseq]
    rfl
  · rw [thr_answered, thr_modThr_ne _ _ hk, thr_congr hseq, hct]

/-! ## A wait that evaluates again (R271) -/

/-- The state in which the evaluation's access is issued: the access outstanding, and the wait that goes on until its value is known. -/
def evalState (t : ThreadId) (w : Wait) (s : State) : State :=
  modThr (issueOut t w.sa false 0 0 w.pva false (firstIssue t s)).2 t.val fun y =>
    { y with wait := some { w with eval := some (thr s t.val).nextId, again := false } }

theorem issueEval_semw {t : ThreadId} {x : Space} {w : Wait} {s : State} (hk : w.kind = 2) :
    issueEval t x w s = acceptAtom (.thread t (thr s t.val).nextId) .semw true 0 0 w.sa (thr s t.val).part (thrHalf t.val) (x.home t.val)
      (thrMaster (evalState t w s) t.val) (evalState t w s) := by
  have hid : (issueOut t w.sa false 0 0 w.pva false (firstIssue t s)).1 = (thr s t.val).nextId := by
    rw [issueOut, thr_firstIssue_self]
  unfold issueEval
  dsimp only
  rw [if_pos hk, hid]
  rfl

theorem issueEval_waitt {t : ThreadId} {x : Space} {w : Wait} {s : State} (hk : w.kind = 3) :
    issueEval t x w s = enqueue (mkReq (evalState t w s) (.thread t (thr s t.val).nextId)
      (.read (.bytes (field w.sa.toNat 0 7) 8 false) none false) w.sa (thr s t.val).part (thrHalf t.val) (x.home t.val)) (evalState t w s) := by
  have hid : (issueOut t w.sa false 0 0 w.pva false (firstIssue t s)).1 = (thr s t.val).nextId := by
    rw [issueOut, thr_firstIssue_self]
  unfold issueEval
  dsimp only
  rw [if_neg (by rw [hk]; decide), hid]
  rfl

theorem seqWork_issueOut (t : ThreadId) (sa : Sa) (store : Bool) (dest : BitVec 5) (count : Nat) (pva : BitVec 48) (viaRo : Bool) (s : State) :
    seqWork s (issueOut t sa store dest count pva viaRo s).2 := ⟨_, _, _, _, rfl⟩

theorem seqWork_evalState (t : ThreadId) (w : Wait) (s : State) : seqWork s (evalState t w s) := by
  unfold evalState
  refine seqWork_trans ?_ (seqWork_modThr ..)
  exact seqWork_trans (seqWork_firstIssue t s) (seqWork_issueOut ..)

theorem thr_evalState (t : ThreadId) (w : Wait) (s : State) :
    thr (evalState t w s) t.val =
      { thr s t.val with
        held := none, nextId := (thr s t.val).nextId + 1, outs := (thr s t.val).outs ++ [newOut t w.sa false 0 0 w.pva false s],
        wait := some { w with eval := some (thr s t.val).nextId, again := false } } := by
  unfold evalState issueOut
  rw [thr_modThr_self, thr_setThr_self, thr_firstIssue_self]
  rfl

/-- What a wait that evaluates again has become, its access being `o`. -/
def evaluates (t : ThreadId) (w : Wait) (sa : Sa) (s u : State) (o : Outst) : Prop :=
  (thr u t.val).outs = outsWith (thr s t.val).outs o ∧ o.id = (thr s t.val).nextId ∧
    (thr u t.val).wait = some { w with sa := sa, eval := some o.id, again := false } ∧
    (thr u t.val).pc = (thr s t.val).pc ∧ (thr u t.val).g = (thr s t.val).g ∧ sameBytes s u ∧
    o.line = lineOf sa ∧ o.count = 0 ∧ o.store = false

/-- The evaluation of a WAITT on a line that is there has its value. -/
theorem issueEval_reads {t : ThreadId} {x : Space} {w : Wait} {s : State} {key : Nat} (hk : w.kind = 3) (ha : w.sa.toNat % 8 = 0)
    (h : lineHere s (.read (.bytes (w.sa.toNat % 128) 8 false) none false) w.sa (thr s t.val).part (thrHalf t.val) (x.home t.val) key = true)
    (hp : (metaAt s key).sp = 0) :
    ∃ o : Outst, evaluates t w w.sa s (settle (issueEval t x w s)) o ∧
      o.result = some [BitVec.ofNat 64 (lineField s key (w.sa.toNat % 128) 8)] := by
  rw [issueEval_waitt hk, field_low]
  have hs := seqWork_evalState t w s
  have hth := thr_evalState t w s
  generalize evalState t w s = e at hs hth ⊢
  have hcache : e.cache = s.cache := by
    obtain ⟨_, _, _, _, rfl⟩ := hs
    rfl
  have hmeta : metaAt e key = metaAt s key := by
    obtain ⟨_, _, _, _, rfl⟩ := hs
    rfl
  have hline : lineData e key = lineData s key := by
    obtain ⟨_, _, _, _, rfl⟩ := hs
    rfl
  rw [mkReq_seqWork hs]
  obtain ⟨v, hv, hset⟩ := settle_read_thread (t := t) (id := (thr s t.val).nextId)
    ((meets_mkReq h (.thread t (thr s t.val).nextId)).seqWork hs) rfl rfl (by rw [hmeta, hp])
  rw [show 2 ^ 7 = 128 from rfl, hset, hline, spanRegs_bytes s key false (by decide) (by decide) (by omega)]
  simp only [Bool.false_eq_true, if_false]
  generalize [BitVec.ofNat 64 (lineField s key (w.sa.toNat % 128) 8)] = vals
  have hself := thr_threadResult t (thr s t.val).nextId vals v
  rw [thr_lineWork hv, hth] at hself
  refine ⟨{ newOut t w.sa false 0 0 w.pva false s with result := some vals }, ⟨?_, rfl, ?_, ?_, ?_, ?_, rfl, rfl, rfl⟩, rfl⟩
  · rw [hself]
    simp [outsWith, newOut]
    exact fun _ _ => rfl
  · rw [hself]
    rfl
  · rw [hself]
  · rw [hself]
  · exact sameBytes_of_data ((data_lineWork hv).trans (congrArg Cache.data hcache))

/-- The evaluation of a SEMW on a line that is there waits at its home. -/
theorem issueEval_accepted {t : ThreadId} {x : Space} {w : Wait} {s : State} {key : Nat} (hk : w.kind = 2)
    (h : lineHere s (.atu 0) w.sa (thr s t.val).part (thrHalf t.val) (x.home t.val) key = true) (hn : noCopies s key = true)
    (hf : findAtom s (x.home t.val) s.atu.ids = none) :
    ∃ o : Outst, evaluates t w w.sa s (settle (issueEval t x w s)) o ∧
      ∃ a, (atuHalf (settle (issueEval t x w s)) (x.home t.val)).atoms = (atuHalf s (x.home t.val)).atoms ++ [a] ∧ a.kind = .semw ∧
        a.wide = true ∧ a.sa = w.sa ∧ a.who = Who.thread t o.id ∧ a.go = false := by
  rw [issueEval_semw hk]
  have hs := seqWork_evalState t w s
  have hth := thr_evalState t w s
  generalize thrMaster (evalState t w s) t.val = m
  generalize evalState t w s = e at hs hth ⊢
  have hsame : e.cache = s.cache ∧ e.atu = s.atu ∧ noCopies e key = noCopies s key ∧ findAtom e (x.home t.val) e.atu.ids = findAtom s (x.home t.val) s.atu.ids := by
    obtain ⟨_, _, _, _, rfl⟩ := hs
    exact ⟨rfl, rfl, rfl, rfl⟩
  obtain ⟨hcache, hatu, hnc, hfa⟩ := hsame
  obtain ⟨hseq, -, hdata, hatoms⟩ := settle_acceptAtom (.thread t (thr s t.val).nextId) .semw true 0 0 m
    (by rw [lineHere_seqWork hs]; exact h) (by rw [hnc]; exact hn) (by rw [hfa]; exact hf)
  generalize settle _ = u at hseq hdata hatoms ⊢
  have hself : thr u t.val = thr e t.val := thr_congr hseq t.val
  rw [hth] at hself
  refine ⟨newOut t w.sa false 0 0 w.pva false s, ⟨?_, rfl, ?_, ?_, ?_, ?_, rfl, rfl, rfl⟩,
    newAtom (.thread t (thr s t.val).nextId) .semw true 0 0 w.sa (thr s t.val).part (thrHalf t.val) m e, ?_, rfl, rfl, rfl, rfl, rfl⟩
  · rw [hself, outsWith_none _ _ rfl]
  · rw [hself]
    rfl
  · rw [hself]
  · rw [hself]
  · exact sameBytes_of_data (hdata.trans (congrArg Cache.data hcache))
  · refine hatoms.trans ?_
    rw [atuHalf, hatu]
    rfl

/-- Re-evaluation of a wait whose address translates. -/
theorem waitReevaluate_word {t : ThreadId} {s s2 : State} {w : Wait} {x : Space} {sa : Sa} (hrun : (thr s t.val).phase = .running)
    (hw : (thr s t.val).wait = some w) (hk : w.kind = 2 ∨ w.kind = 3) (hev : w.eval = none) (ha : w.again = true)
    (hxl : (thr s t.val).xl = none) (hlen : (thr s t.val).outs.length < 16)
    (hr : reach t.val (thr s t.val).part (w.pva.setWidth 64) (if w.kind = 2 then Rights.atom else Rights.rd)
      (if w.kind = 2 then Rights.atom else Rights.rd) (if w.kind = 2 then 2 else 0) noDev (thr s t.val).hit s = (.go x sa, s2)) :
    exec (.waitReevaluate t) s = answer s (settle (issueEval t x { w with sa := sa } (modThr s2 t.val fun y => { y with hit := none }))) := by
  have he : exec (.waitReevaluate t) s = execWaitReevaluate t s := rfl
  have hgo : ¬ ((thr s t.val).phase ≠ .running ∨ (w.kind ≠ 2 ∧ w.kind ≠ 3) ∨ w.eval.isSome = true ∨ (!w.again) = true ∨
      (thr s t.val).xl.isSome = true ∨ outsFull s t = true) := by
    rw [hrun, hev, ha, hxl, outsFull_of_lt hlen]
    rcases hk with hk | hk <;> simp [hk]
  rw [he, execWaitReevaluate]
  dsimp only
  rw [hw]
  dsimp only
  rw [if_neg hgo, hr]

theorem reach_state {t : Nat} {p : Part} {pva : BitVec 64} {page need : Rights} {kind : Nat} {dev : Space → Bool} {held : Option Tlb}
    {s s2 : State} {r : Reach} (h : reach t p pva page need kind dev held s = (r, s2)) : ∃ x, s2 = { s with xlt := x } := by
  obtain ⟨x, hx⟩ := reach_only t p pva page need kind dev held s
  exact ⟨x, by rw [← hx, h]⟩

theorem metaAt_seqWork {s u : State} (h : seqWork s u) (key : Nat) : metaAt u key = metaAt s key := by
  obtain ⟨_, _, _, _, rfl⟩ := h
  rfl

/-- The state in which a wait evaluates: its translation is found, and the walk's result used up (R97). -/
theorem unhit_spec (t : ThreadId) (y : Xlt) (s : State) :
    ∃ z, z = (modThr { s with xlt := y } t.val fun y => { y with hit := none }) ∧ seqWork { s with xlt := y } z ∧
      thr z t.val = { thr s t.val with hit := none } ∧ z.cache = s.cache ∧ z.atu = s.atu :=
  ⟨_, rfl, seqWork_modThr .., thr_modThr_self .., rfl, rfl⟩

/-- A command after which the wait of the thread goes on. -/
theorem completesWith_evaluates {c : Instr} {t : ThreadId} {w : Wait} {sa : Sa} {s z v : State} {o : Outst} {P : State → Outst → Prop}
    (he : exec c s = answer s v) (hz : thr z t.val = { thr s t.val with hit := none }) (hc : z.cache = s.cache)
    (ho : evaluates t w sa z v o) (hP : P (answered s v) o) :
    completesWith c s fun u => ∃ o,
      (thr u t.val).outs = outsWith (thr s t.val).outs o ∧ o.id = (thr s t.val).nextId ∧
      (thr u t.val).wait = some { w with sa := sa, eval := some o.id, again := false } ∧
      (thr u t.val).pc = (thr s t.val).pc ∧ (thr u t.val).g = (thr s t.val).g ∧ sameBytes s u ∧ P u o := by
  obtain ⟨h1, h2, h3, h4, h5, h6, -⟩ := ho
  rw [hz] at h1 h2 h4 h5
  refine completesWith_answer he ⟨o, h1, h2, h3, h4, h5, ?_, hP⟩
  refine sameBytes_answered.mpr fun a => (h6 a).trans ?_
  rw [hc]

/-- Settles O24. -/
theorem waitsGoOn : Obligations.WaitsGoOn := by
  refine ⟨fun t s w hrun hw hdue hev => ⟨fun hk => thaw_ends hrun hw hdue hev hk, fun h a d hk ha hwho => thaw_alloc hrun hw hdue hev hk ha hwho⟩, ?_⟩
  intro t s s2 w x sa key th h pva hrun hw hev ha hxl hlen _ hn hal goesOn
  refine ⟨fun hk hr hh hp => ?_, fun hk hr hh hf => ?_⟩
  · have he := waitReevaluate_word hrun hw (.inr hk) hev ha hxl hlen (by rw [hk]; exact hr)
    obtain ⟨y, rfl⟩ := reach_state hr
    obtain ⟨z, hz, hs, hth, hcache, -⟩ := unhit_spec t y s
    rw [← hz] at he
    rw [← lineHere_seqWork hs, show th.part = (thr z t.val).part by rw [hth]] at hh
    have hmeta : metaAt z key = metaAt s key := metaAt_seqWork hs key
    obtain ⟨o, ho, hres⟩ := issueEval_reads (t := t) (x := x) (w := { w with sa := sa }) (s := z) (key := key) hk hal hh (by rw [hmeta]; exact hp)
    refine completesWith_evaluates he hth hcache ho (hres.trans ?_)
    rw [lineField, hcache]
    rfl
  · have he := waitReevaluate_word hrun hw (.inl hk) hev ha hxl hlen (by rw [hk]; exact hr)
    obtain ⟨y, rfl⟩ := reach_state hr
    obtain ⟨z, hz, hs, hth, hcache, hatu⟩ := unhit_spec t y s
    rw [← hz] at he
    rw [← lineHere_seqWork hs, show th.part = (thr z t.val).part by rw [hth]] at hh
    have hnc : noCopies z key = noCopies s key := by rw [noCopies, metaAt_seqWork hs]; rfl
    have hfa : findAtom z (x.home t.val) z.atu.ids = findAtom s (x.home t.val) s.atu.ids := by rw [findAtom, atuHalf, hatu]; rfl
    obtain ⟨o, ho, a, hatoms, hkind, hwide, hsa, hwho, -⟩ := issueEval_accepted (t := t) (x := x) (w := { w with sa := sa }) (s := z) (key := key) hk hh
      (by rw [hnc]; exact hn) (by rw [hfa]; exact hf)
    refine completesWith_evaluates he hth hcache ho ⟨a, hatoms.trans ?_, hkind, hwide, hsa, hwho⟩
    rw [atuHalf, hatu]
    rfl

end Sys2Proof.Machine
end

section
/-! PROOFS. Plow commands enter their queue (R148, R149, R265). -/

namespace Sys2Proof.Machine

open Sys2Proof.Safety

/-! ## The queue -/

/-- The command as it stands in the queue: with its sequence number, and the partitions whose stale risk its end clears. -/
def queued (c : PlowCmd) (s : State) : PlowCmd :=
  { c with seq := s.cch.issued + 1, clears := (s.tables.staleRisk.filter (·.2)).map fun e => BitVec.ofNat 5 e.1 }

theorem plowAccept_room {c : PlowCmd} {s : State} (h : s.cch.plow.length < 16) :
    plowAccept c s = (true, s.onCch fun x => { x with issued := x.issued + 1, plow := x.plow ++ [queued c s] }) := by
  rw [plowAccept, if_neg (by omega)]
  rfl

theorem plowAccept_full {c : PlowCmd} {s : State} (h : 16 ≤ s.cch.plow.length) : plowAccept c s = (false, s) := by rw [plowAccept, if_pos h]

/-- A running command goes on. -/
theorem plowStart_running {s : State} {c : PlowCmd} {l : List PlowCmd} (h : s.cch.plow = c :: l) (hs : c.started = true) : plowStart s = s := by
  unfold plowStart
  rw [h]
  dsimp only
  rw [if_pos hs]

/-- A register command behind one that runs enters the queue, or sets QFULL (R148). -/
theorem plowReg_room {op : Nat} {scope : BitVec 2} {part : Part} {h : Half} {s : State} {head : PlowCmd} {tail : List PlowCmd}
    (hq : s.cch.plow = head :: tail) (hs : head.started = true) (hc : calm s = true) (hlen : tail.length < 15) :
    plowReg op scope part h s = s.onCch fun x =>
      { x with issued := x.issued + 1, plow := x.plow ++ [queued (PlowCmd.mk0 op scope part h s.cch.arg0 s.cch.arg1 none) s] } := by
  unfold plowReg
  dsimp only
  rw [plowAccept_room (by rw [hq, List.length_cons]; omega)]
  dsimp only
  rw [if_pos rfl, plowStart_running (c := head) (l := tail ++ [queued (PlowCmd.mk0 op scope part h s.cch.arg0 s.cch.arg1 none) s])
    (by simp [hq]) hs]
  exact settle_calm hc

theorem plowReg_full {op : Nat} {scope : BitVec 2} {part : Part} {h : Half} {s : State} (hlen : 16 ≤ s.cch.plow.length) :
    plowReg op scope part h s = s.onCch fun x => { x with qfull := true } := by
  unfold plowReg
  dsimp only
  rw [plowAccept_full hlen]
  rfl

/-- What the statement says of a register command. -/
def entersQueue (s : State) (tail : List PlowCmd) (c : Instr) (op : BitVec 4) (scope : BitVec 2) (part : Part) (h : Half) : Prop :=
  (tail.length < 15 → completesWith c s fun u => ∃ x,
    u.cch = { s.cch with issued := s.cch.issued + 1, plow := s.cch.plow ++ [x] } ∧ x.op = op ∧ x.scope = scope ∧ x.part = part ∧
    x.half = h ∧ x.arg0 = s.cch.arg0 ∧ x.arg1 = s.cch.arg1 ∧ x.user = none ∧ x.seq = s.cch.issued + 1 ∧ x.started = false ∧
    changesOnly [.cch] s u) ∧
  (15 ≤ tail.length → completesWith c s fun u => u.cch = { s.cch with qfull := true } ∧ changesOnly [.cch] s u)

theorem entersQueue_of {c : Instr} {op : Nat} {scope : BitVec 2} {part : Part} {h : Half} {s : State} {head : PlowCmd} {tail : List PlowCmd}
    (he : exec c s = answer s (ifUp 3 4 (plowReg op scope part h) s)) (hd : domOn s 3 = true ∨ domOn s 4 = true) (hc : calm s = true)
    (hq : s.cch.plow = head :: tail) (hs : head.started = true) : entersQueue s tail c (BitVec.ofNat 4 op) scope part h := by
  rw [ifUp, if_pos (by simpa using hd)] at he
  refine ⟨fun hlen => ?_, fun hlen => ?_⟩
  · rw [plowReg_room hq hs hc hlen] at he
    exact completesWith_answer he ⟨_, rfl, rfl, rfl, rfl, rfl, rfl, rfl, rfl, rfl, rfl, by simp⟩
  · rw [plowReg_full (by rw [hq, List.length_cons]; omega)] at he
    exact completesWith_answer he ⟨rfl, by simp⟩

/-! ## The instruction (R265) -/

theorem plowScope_zero (f : TFields) : plowScope f = 0 ↔ f.imm.toNat % 4 = 0 := by
  rw [plowScope, ← BitVec.toNat_inj, BitVec.extractLsb'_toNat]
  simp

/-- PLOW with untranslated arguments, in S mode. -/
theorem plow_word {t : ThreadId} {f : TFields} {s : State} (hi : issues t [f.d.toNat, f.a.toNat, f.b.toNat] s) (hc : standsAt t (.plow t f) s)
    (hp : (thr s t.val).part = 0) (h1 : 1 ≤ f.v.toNat) (h8 : f.v.toNat ≤ 8) (c0 : f.c = 0) (himm : f.imm.toNat < 512) (hr : f.imm.getLsbD 8 = true) :
    exec (.plow t f) s = answer s (plowRange t f (thr (fetched t s) t.val) (fetched t s)) := by
  have he : exec (.plow t f) s = execPlow t f s := rfl
  have hs : sMode (thr s t.val) = true := by simp [sMode, hp]
  have hraw : plowRaw f = true := hr
  have hlegal : plowLegal true f = true := by simp [plowLegal, hraw, h1, h8, c0, himm]
  rw [he, execPlow, hs, hlegal, Bool.true_or, instr_issues 0 _ hi hc, if_pos hraw]

/-- A status of a stream instruction is all that the instruction leaves. -/
theorem became_streamStatus (t : ThreadId) (f : TFields) (st : Nat) (hi : BitVec 32) (s : State) {v : BitVec 64} (hv : statusWord st hi = v) :
    became t ((thr s t.val).setG f.d.toNat v).next s (streamStatus t f st hi id s) := by
  subst hv
  obtain ⟨hframe, hseq⟩ := streamStatus_frame t f st hi s
  exact ⟨thr_streamStatus_self t f st hi s, fun k hk => thr_streamStatus_ne t f st hi s hk, hseq, hframe⟩

theorem becameWith_answered {bs : List Block} {t : ThreadId} {th : Thread} {r s u : State} :
    becameWith bs t th r (answered s u) ↔ becameWith bs t th r u := by
  simp only [becameWith, thr_answered, otherThreads_answered, changesOnly_answered]
  rfl

theorem plow_badarg {t : ThreadId} {f : TFields} {s : State} (h : f.v.toNat ≤ 5 ∧ f.imm.toNat % 4 = 0 ∧ (gReg (thr s t.val) f.b.toNat).toNat % 2 ^ 32 = 0) :
    became t ((thr s t.val).setG f.d.toNat 5).next s (plowRange t f (thr s t.val) s) := by
  unfold plowRange
  dsimp only
  rw [if_pos ⟨h.1, (plowScope_zero f).mpr h.2.1, h.2.2⟩]
  exact became_streamStatus t f 5 0 s rfl

theorem plowRange_issues {t : ThreadId} {f : TFields} {s : State}
    (h : ¬ (f.v.toNat ≤ 5 ∧ f.imm.toNat % 4 = 0 ∧ (gReg (thr s t.val) f.b.toNat).toNat % 2 ^ 32 = 0)) :
    plowRange t f (thr s t.val) s = plowIssue t f none (gReg (thr s t.val) f.a.toNat) (gReg (thr s t.val) f.b.toNat) s := by
  unfold plowRange
  dsimp only
  rw [if_neg (by rw [plowScope_zero]; exact h)]

theorem plowIssue_full {t : ThreadId} {f : TFields} {user : Option Part} {a0 a1 : BitVec 64} {s : State} (h : 16 ≤ s.cch.plow.length) :
    became t ((thr s t.val).setG f.d.toNat 12).next s (plowIssue t f user a0 a1 s) := by
  unfold plowIssue
  dsimp only
  rw [plowAccept_full h]
  exact became_streamStatus t f 12 0 s rfl

/-- A command that enters the queue: its sequence number answers. -/
theorem plowIssue_room {t : ThreadId} {f : TFields} {user : Option Part} {a0 a1 : BitVec 64} {s : State} (h : s.cch.plow.length < 16) :
    becameWith [.cch] t ((thr s t.val).setG f.d.toNat (BitVec.ofNat 64 ((s.cch.issued + 1).toNat * 2 ^ 32))).next s (plowIssue t f user a0 a1 s) ∧
      (plowIssue t f user a0 a1 s).cch.issued = s.cch.issued + 1 ∧
      (plowIssue t f user a0 a1 s).cch.plow = s.cch.plow ++
        [queued (PlowCmd.mk0 f.v.toNat (plowScope f) (f.imm.extractLsb' 2 5) (Half.ofBool (bit f.imm 7)) a0 a1 user) s] := by
  unfold plowIssue
  dsimp only
  rw [plowAccept_room h]
  generalize queued _ s = c
  dsimp only
  rw [if_pos rfl]
  have hb := became_streamStatus t f 0 (s.cch.issued + 1) (s.onCch fun x => { x with issued := x.issued + 1, plow := x.plow ++ [c] })
    (v := BitVec.ofNat 64 ((s.cch.issued + 1).toNat * 2 ^ 32)) (by rw [statusWord, Nat.zero_add])
  have hi : (s.onCch fun x => { x with issued := x.issued + 1, plow := x.plow ++ [c] }).cch.issued = s.cch.issued + 1 := rfl
  have hpl : (s.onCch fun x => { x with issued := x.issued + 1, plow := x.plow ++ [c] }).cch.plow = s.cch.plow ++ [c] := rfl
  have hu : changesOnly [.cch] s (s.onCch fun x => { x with issued := x.issued + 1, plow := x.plow ++ [c] }) := by simp
  have hseq : (s.onCch fun x => { x with issued := x.issued + 1, plow := x.plow ++ [c] }).seq = s.seq := rfl
  rw [if_pos rfl, hi]
  generalize s.onCch _ = u at hb hi hpl hu hseq ⊢
  obtain ⟨h1, h2, h3, h4⟩ := hb
  have hcch : (streamStatus t f 0 (s.cch.issued + 1) id u).cch = u.cch := h4 .cch (by decide)
  rw [thr_congr hseq] at h1
  refine ⟨⟨h1, fun k hk => (h2 k hk).trans (thr_congr hseq k), ?_, ?_⟩, by rw [hcch, hi], by rw [hcch, hpl]⟩
  · rw [seqKept, ← hseq, ← thr_congr hseq]
    exact h3
  · exact changesOnly_trans (changesOnly_mono hu (by decide)) (changesOnly_mono h4 (by decide))

/-- Settles O19. -/
theorem plowCommands : Obligations.PlowCommands := by
  unfold Obligations.PlowCommands
  refine ⟨?_, ?_⟩
  · intro t f s hi hc s1 th noBlock hp h1 h8 c0 himm hraw
    have he := plow_word hi hc hp h1 h8 c0 himm hraw
    refine ⟨fun hn => ?_, fun hn => ⟨fun hlen => ?_, fun hlen => ?_⟩⟩
    · exact completesWith_answer he (becameWith_answered.mpr (plow_badarg hn))
    · rw [plowRange_issues hn] at he
      obtain ⟨hb, hiss, hpl⟩ := plowIssue_room (t := t) (f := f) (user := none) (a0 := gReg th f.a.toNat) (a1 := gReg th f.b.toNat) hlen
      generalize plowIssue t f none _ _ _ = u at he hb hiss hpl
      refine completesWith_answer he ⟨becameWith_answered.mpr hb, hiss, _, hpl, ?_, rfl, rfl, rfl, rfl, rfl, rfl, rfl, rfl⟩
      simp [queued, PlowCmd.mk0]
    · rw [plowRange_issues hn] at he
      exact completesWith_answer he (becameWith_answered.mpr (plowIssue_full hlen))
  · intro s head tail hd hcalm hq hs
    have hop {c : Instr} {op : Nat} {scope : BitVec 2} {part : Part} {h : Half} (he : exec c s = answer s (ifUp 3 4 (plowReg op scope part h) s)) :
        entersQueue s tail c (BitVec.ofNat 4 op) scope part h := entersQueue_of he hd hcalm hq hs
    exact ⟨fun scope part => ⟨hop rfl, hop rfl, hop rfl, hop rfl, hop rfl⟩, fun h => ⟨hop rfl, hop rfl⟩, hop rfl⟩

end Sys2Proof.Machine
end

section
/-! PROOFS. The allocator's choice (R161, R162), the end of a single free (R168), and the frame of a partner's request (R286). -/

namespace Sys2Proof.Machine

open Sys2Proof.Safety

/-! ## Tables in canonical form -/

theorem pairwise_of_twfFrom {α : Type} [DecidableEq α] {d : α} {t : Tab α} {lo : Nat} (h : twfFrom d lo t = true) :
    (∀ e ∈ t, lo ≤ e.1) ∧ t.Pairwise (fun a b => a.1 < b.1) := by
  induction t generalizing lo with
  | nil => exact ⟨by simp, List.Pairwise.nil⟩
  | cons e t ih =>
    obtain ⟨k, v⟩ := e
    simp only [twfFrom, Bool.and_eq_true, decide_eq_true_eq] at h
    obtain ⟨⟨hlo, -⟩, ht⟩ := h
    obtain ⟨h1, h2⟩ := ih ht
    refine ⟨fun e he => ?_, List.Pairwise.cons (fun e he => h1 e he) h2⟩
    rcases List.mem_cons.mp he with rfl | he
    · exact hlo
    · have := h1 e he
      omega

theorem tget_of_mem {α : Type} {d : α} {t : Tab α} (h : t.Pairwise (fun a b => a.1 < b.1)) {e : Nat × α} (he : e ∈ t) : tget d t e.1 = e.2 := by
  induction t with
  | nil => cases he
  | cons x t ih =>
    obtain ⟨k, v⟩ := x
    rcases List.mem_cons.mp he with rfl | he
    · simp [tget]
    · have hlt := (List.pairwise_cons.mp h).1 e he
      rw [tget, if_neg (Nat.ne_of_lt hlt)]
      exact ih (List.pairwise_cons.mp h).2 he

/-! ## The choice of a free block -/

/-- One step of the search for a free offset. -/
def skipBusy (k o : Nat) : Nat := if o ≤ k then k + 1 else k

theorem foldl_skipBusy {l : List Nat} (h : l.Pairwise (· < ·)) (k : Nat) :
    k ≤ l.foldl skipBusy k ∧ l.foldl skipBusy k ≤ k + l.length ∧ l.foldl skipBusy k ∉ l := by
  induction l generalizing k with
  | nil => simp
  | cons o l ih =>
    obtain ⟨ho, hl⟩ := List.pairwise_cons.mp h
    obtain ⟨h1, h2, h3⟩ := ih hl (skipBusy k o)
    rw [List.foldl_cons, List.length_cons]
    by_cases hok : o ≤ k
    · have hs : skipBusy k o = k + 1 := if_pos hok
      rw [hs] at h1 h2 h3 ⊢
      refine ⟨by omega, by omega, fun hm => ?_⟩
      rcases List.mem_cons.mp hm with heq | hm
      · omega
      · exact h3 hm
    · have hs : skipBusy k o = k := if_neg hok
      have hstop : l.foldl skipBusy k = k := by
        clear ih h1 h2 h3 h
        induction l with
        | nil => rfl
        | cons p l ih =>
          have hp := ho p List.mem_cons_self
          rw [List.foldl_cons, show skipBusy k p = k from if_neg (by omega)]
          exact ih (fun q hq => ho q (List.mem_cons_of_mem _ hq)) (List.pairwise_cons.mp hl).2
      rw [hs, hstop]
      refine ⟨Nat.le_refl k, by omega, fun hm => ?_⟩
      rcases List.mem_cons.mp hm with heq | hm
      · omega
      · have := ho k hm
        omega

theorem kthFree_not_busy {l : List Nat} (h : l.Pairwise (· < ·)) {k : Nat} (hk : k < 1024 - l.length) :
    kthFree l k < 1024 ∧ kthFree l k ∉ l := by
  obtain ⟨-, h2, h3⟩ := foldl_skipBusy h k
  have hk2 : kthFree l k = l.foldl skipBusy k := rfl
  rw [hk2]
  exact ⟨by omega, h3⟩

theorem busyBlocks_rising {s : State} {r : Nat} (h : twf Blk.zero s.buf.blk = true) : (busyBlocks s r).Pairwise (· < ·) := by
  have hp := (pairwise_of_twfFrom h).2
  rw [busyBlocks, List.pairwise_map]
  refine (List.Pairwise.filter _ hp).imp_of_mem fun ha hb hlt => ?_
  simp only [List.mem_filter, Bool.and_eq_true, decide_eq_true_eq] at ha hb
  omega

theorem blk_free_of_not_busy {s : State} {r o : Nat} (ho : o < 1024) (h : o ∉ busyBlocks s r) : (blk s (1024 * r + o)).st = 1 := by
  by_contra hne
  have hmem : (1024 * r + o, blk s (1024 * r + o)) ∈ s.buf.blk := mem_of_tget_ne fun hz => hne (congrArg Blk.st hz)
  refine h (List.mem_map.mpr ⟨_, List.mem_filter.mpr ⟨hmem, ?_⟩, ?_⟩)
  · simp only [Bool.and_eq_true, decide_eq_true_eq, Bool.not_eq_true', beq_eq_false_iff_ne]
    exact ⟨by omega, hne⟩
  · show (1024 * r + o) % 1024 = o
    omega

/-- A free block, in a pinned region of half h that is not in transition (R161). -/
def allocable (s : State) (h : Half) (b : Nat) : Prop :=
  regionHalf (b / 1024) = h ∧ (region s (b / 1024)).state = 2 ∧ (region s (b / 1024)).busy = false ∧ (blk s b).st = 1

theorem pinnedRegions_spec {s : State} {h : Half} {r : Nat} (hw : twf Region.zero s.tables.region = true) (hr : r ∈ pinnedRegions s h) :
    regionHalf r = h ∧ (region s r).state = 2 ∧ (region s r).busy = false := by
  obtain ⟨e, he, rfl⟩ := List.mem_map.mp hr
  simp only [List.mem_filter, Bool.and_eq_true, beq_iff_eq, Bool.not_eq_true'] at he
  obtain ⟨hmem, ⟨h2, hb⟩, hh⟩ := he
  have hreg : region s e.1 = e.2 := tget_of_mem (pairwise_of_twfFrom hw).2 hmem
  rw [hreg]
  exact ⟨hh, h2, hb⟩

theorem pickBlock_free {s : State} {h : Half} (hb : twf Blk.zero s.buf.blk = true) (l : List Nat)
    (hl : ∀ r ∈ l, regionHalf r = h ∧ (region s r).state = 2 ∧ (region s r).busy = false) {k : Nat} (hk : k < (l.map (freeIn s)).sum) :
    ∃ b, pickBlock s l k = some b ∧ allocable s h b := by
  induction l generalizing k with
  | nil => exact absurd hk (by simp)
  | cons r l ih =>
    rw [pickBlock]
    split
    next hlt =>
      obtain ⟨ho, hn⟩ := kthFree_not_busy (busyBlocks_rising hb) hlt
      have hfree := blk_free_of_not_busy ho hn
      generalize kthFree (busyBlocks s r) k = o at ho hfree
      have hdiv : (1024 * r + o) / 1024 = r := by omega
      refine ⟨_, rfl, ?_⟩
      rw [allocable, hdiv]
      obtain ⟨h1, h2, h3⟩ := hl r List.mem_cons_self
      exact ⟨h1, h2, h3, hfree⟩
    next hge =>
      refine ih (fun q hq => hl q (List.mem_cons_of_mem _ hq)) ?_
      rw [List.map_cons, List.sum_cons] at hk
      omega

/-- With quota left and a block free, the allocator grants one (R161). -/
theorem allocStep_grants {s : State} {h : Half} {p : Part} (wait : Bool)
    (hq : p = 0 ∨ (used s h p).toNat < min 196608 (h.pick (partReg (allocView s h) p.toNat).quotaE (partReg (allocView s h) p.toNat).quotaW).toNat)
    (hb : twf Blk.zero s.buf.blk = true) (hr : twf Region.zero s.tables.region = true) (hn : freeCount s h ≠ 0) :
    ∃ b, allocStep s h p wait = .granted b ∧ allocable s h b := by
  obtain ⟨b, hpick, hall⟩ := pickBlock_free (k := Config.freeBlock s.freeCtr % freeCount s h) hb (pinnedRegions s h)
    (fun r hr' => pinnedRegions_spec hr hr') (Nat.mod_lt _ (Nat.pos_of_ne_zero hn))
  refine ⟨b, ?_, hall⟩
  unfold allocStep
  dsimp only
  rw [if_neg (by rintro ⟨h0, hle⟩; rcases hq with rfl | hq
                 · exact h0 rfl
                 · omega), if_neg hn, hpick]

/-- The half whose allocator a selector names (R162). -/
theorem allocate_grants {w : Who} {p : Part} {sel : Nat} {wait : Bool} {arrival : Half} {sa : Sa} {limit : Nat} {s : State} {h : Half}
    (hh : h = if sel = 0 then .e else if sel = 1 then .w else arrival) (hsel : sel ≤ 2) (hun : unavailable s h arrival = false)
    (hq : p = 0 ∨ (used s h p).toNat < min 196608 (h.pick (partReg (allocView s h) p.toNat).quotaE (partReg (allocView s h) p.toNat).quotaW).toNat)
    (hb : twf Blk.zero s.buf.blk = true) (hr : twf Region.zero s.tables.region = true) (hn : freeCount s h ≠ 0) :
    ∃ b, allocate w p sel wait arrival sa limit s = allocGrant w h p b s ∧ allocable s h b := by
  unfold allocate
  rw [if_neg (by omega)]
  by_cases h2 : sel < 2
  · have hof : Half.ofBool (decide (sel = 1)) = h := by
      rw [hh]
      rcases (by omega : sel = 0 ∨ sel = 1) with rfl | rfl <;> rfl
    obtain ⟨b, hg, hall⟩ := allocStep_grants wait hq hb hr hn
    refine ⟨b, ?_, hall⟩
    rw [if_pos h2]
    dsimp only
    rw [hof, hun, if_neg (by decide), hg]
  · have harr : arrival = h := by rw [hh, if_neg (by omega), if_neg (by omega)]
    obtain ⟨b, hg, hall⟩ := allocStep_grants false hq hb hr hn
    refine ⟨b, ?_, hall⟩
    rw [harr] at hun ⊢
    rw [if_neg h2, hun, if_neg (by decide), hg]

end Sys2Proof.Machine
end

section
/-! PROOFS. BALLOC and BFREE of a thread (R160 to R168, R266, R267). -/

namespace Sys2Proof.Machine

open Sys2Proof.Safety

/-! ## The issue of an allocation or a free -/

/-- The thread's instruction counts as issued, its access set-up cleared. -/
def issuing (t : ThreadId) (s : State) : State :=
  modThr (countIssue t s) t.val fun y => { y with hit := none, xl := none, wait := none, ahead := none }

theorem seqWork_issuing (t : ThreadId) (s : State) : seqWork s (issuing t s) :=
  seqWork_trans (seqWork_countIssue t s) (seqWork_modThr ..)

theorem thr_issuing (t : ThreadId) (s : State) :
    thr (issuing t s) t.val = { thr s t.val with held := none, hit := none, xl := none, wait := none, ahead := none } := by
  simp [issuing, countIssue, thr_firstIssue_self]

/-- The answer of a thread's request to the allocator ends its instruction. -/
theorem ended_answer (th : Thread) (w : Option Wait) (d : Nat) (v : BitVec 64) :
    { (({ th with held := none, hit := none, xl := none, wait := w, ahead := none } : Thread).setG d v).next with wait := none, waitLeft := none } =
      ended (th.setG d v).next := by
  unfold Thread.setG
  split <;> rfl

/-! ## A grant (R161) -/

/-- A grant's block, its count and its event. -/
def granting (h : Half) (p : Part) (b : Nat) (s : State) : State := allocEvent h p stOk (addUsed h p (grant b p s))

theorem granting_spec (h : Half) (p : Part) (b : Nat) (s : State) :
    blk (granting h p b s) b = { st := 3, owner := p } ∧ (∀ c, c ≠ b → blk (granting h p b s) c = blk s c) ∧
      used (granting h p b s) h p = used s h p + 1 ∧ (granting h p b s).buf.frees = s.buf.frees ∧
      changesOnly [.buf, .freeCtr, .cnt] s (granting h p b s) := by
  unfold granting
  have hf := allocEvent_frame h p stOk (addUsed h p (grant b p s))
  generalize allocEvent h p stOk (addUsed h p (grant b p s)) = u at hf
  have hbuf : u.buf = (addUsed h p (grant b p s)).buf := hf .buf (by decide)
  refine ⟨?_, fun c hc => ?_, ?_, ?_, ?_⟩
  · rw [blk, hbuf]
    exact (blk_setBlk { s with freeCtr := s.freeCtr + 1 } b b { st := 3, owner := p }).trans (if_pos rfl)
  · rw [blk, hbuf]
    exact (blk_setBlk { s with freeCtr := s.freeCtr + 1 } b c { st := 3, owner := p }).trans (if_neg hc)
  · rw [used, hbuf]
    exact tget_tset_self ..
  · rw [hbuf]
    rfl
  · refine changesOnly_trans ?_ (changesOnly_mono hf (by decide))
    rw [addUsed, changesOnly_onBuf (by decide)]
    intro x hx
    cases x <;> first | rfl | simp at hx

/-- What makes a state calm: the line pipelines, the add-to-line queues and the frees. -/
theorem calm_of_same {s u : State} (hc : u.cache = s.cache) (ha : u.atu = s.atu) (hf : u.buf.frees = s.buf.frees) : calm u = calm s := by
  rw [calm, calm, quiet, quiet, addlsIdle, addlsIdle, hc, ha, hf]

theorem calm_granting (h : Half) (p : Part) (b : Nat) (s : State) : calm (granting h p b s) = calm s := by
  obtain ⟨-, -, -, hfr, hf⟩ := granting_spec h p b s
  exact calm_of_same (hf .cache (by decide)) (hf .atu (by decide)) hfr

/-! ## A free that nothing holds up (R168) -/

theorem freeBlock_owned {w : Who} {q p : Part} {sa : Sa} {b : Nat} {s : State} (hr : (region s (b / 1024)).state = 2) (h3 : (blk s b).st = 3)
    (ho : (blk s b).owner = p ∨ p = 0) :
    freeBlock (some (w, q, sa)) p b s = (setBlk s b { st := 2, owner := (blk s b).owner }).onBuf fun u =>
      { u with frees := u.frees ++ [(b, some (w, q, sa), (blk s b).owner)] } := by
  unfold freeBlock
  dsimp only
  rw [if_neg (by rw [hr]; decide), if_neg (by rw [h3]; rcases ho with ho | ho <;> simp [ho])]

/-- With nothing else at work, a free of a block whose lines are held nowhere else ends at once. -/
theorem settle_free {s : State} {e : Nat × Option (Who × Part × Sa) × Part} (hq : quiet s = true) (ha : addlsIdle s = true)
    (hf : s.buf.frees = [e]) (hl : ∀ x ∈ s.cache.line, x.1 / 512 = e.1 → x.2.sharers = 0 ∧ x.2.rheld = false) :
    settle s = finishFree e s := by
  have hq' := hq
  simp only [quiet, Bool.and_eq_true, List.isEmpty_iff] at hq'
  obtain ⟨⟨⟨hb, -⟩, hi⟩, -⟩ := hq'
  have hro : roWaits s e.1 = false := by simp [roWaits, hb]
  have hsh : sharedIn s e.1 = [] := by
    rw [sharedIn, List.map_eq_nil_iff, List.filter_eq_nil_iff]
    intro x hx
    by_cases hk : x.1 / 512 = e.1
    · simp [needInv, hl x hx hk]
    · simp [inBlock, hk]
  have hscan : scanFrees s = s := by simp [scanFrees, hf, hro, hsh]
  have hfinish : finishFrees s = finishFree e s := by simp [finishFrees, hf, hro, hsh, hi]
  have hne : s.buf.frees.isEmpty = false := by simp [hf]
  unfold settle
  dsimp only
  rw [settleAll_quiet hq, if_pos ha, hne, if_neg (by decide), hscan, settleAll_quiet hq, hfinish]

/-- The end of a thread's free (R168). -/
theorem finishFree_thread {t : ThreadId} {d b : Nat} {q o : Part} {sa : Sa} {s : State} :
    let u := finishFree (b, some (.thread t d, q, sa), o) s
    u.buf.blk = s.buf.blk ∧ used u (blockHalf b) o = used s (blockHalf b) o - 1 ∧
      thr u t.val = { ((thr s t.val).setG d 0).next with wait := none, waitLeft := none } ∧ changesOnly [.buf, .seq, .cnt] s u := by
  unfold finishFree
  dsimp only
  generalize hx : subUsed (blockHalf b) o _ = x
  have hbuf : (cnt 0x034 (some (blockHalf b)) (some o) 1 x).buf = x.buf := cnt_buf ..
  have hthr : thr (cnt 0x034 (some (blockHalf b)) (some o) 1 x) t.val = thr s t.val := by
    rw [← hx, thr_cnt]
    rfl
  generalize hy : cnt 0x034 (some (blockHalf b)) (some o) 1 x = y at hbuf hthr
  refine ⟨?_, ?_, ?_, ?_⟩
  · show y.buf.blk = s.buf.blk
    rw [hbuf, ← hx]
    rfl
  · show tget 0 y.buf.used _ = _
    rw [hbuf, ← hx]
    exact tget_tset_self ..
  · rw [thr_modThr_self, hthr]
  · rw [← hy, ← hx]
    simp [subUsed]

/-! ## The obligation -/

/-- The block that BALLOC is granted. -/
theorem balloc_grants {t : ThreadId} {f : TFields} {s : State} {h : Half} (hi : issues t [f.d.toNat] s) (hc : standsAt t (.balloc t f) s)
    (hw : (f.a == 0 && f.b == 0 && decide (f.v.toNat < 8) && f.c == 0 && f.imm == 0) = true)
    (hh : h = allocHalf (f.v.toNat % 4) (thrHalf t.val)) (hv : f.v.toNat % 4 ≠ 3) (hcalm : calm (fetched t s) = true)
    (hact : mayAct (fetched t s) (allocView (fetched t s) h) (thr (fetched t s) t.val).part none = true)
    (hun : unavailable (fetched t s) h (thrHalf t.val) = false)
    (hquota : (thr (fetched t s) t.val).part = 0 ∨ (used (fetched t s) h (thr (fetched t s) t.val).part).toNat <
      min 196608 (h.pick (partReg (allocView (fetched t s) h) (thr (fetched t s) t.val).part.toNat).quotaE
        (partReg (allocView (fetched t s) h) (thr (fetched t s) t.val).part.toNat).quotaW).toNat)
    (hbw : twf Blk.zero (fetched t s).buf.blk = true) (hrw : twf Region.zero (fetched t s).tables.region = true)
    (hn : freeCount (fetched t s) h ≠ 0) :
    ∃ b, allocable (fetched t s) h b ∧ exec (.balloc t f) s = answer s
      (modThr (granting h (thr (fetched t s) t.val).part b (issuing t (fetched t s))) t.val fun x =>
        { (x.setG f.d.toNat ((blockSa (fetched t s) b).setWidth 64)).next with wait := none, waitLeft := none }) := by
  have he : exec (.balloc t f) s = execBalloc t f s := rfl
  rw [execBalloc, hw, instr_issues 0 _ hi hc] at he
  generalize fetched t s = s1 at *
  generalize thr s1 t.val = th at *
  have hwork := seqWork_issuing t s1
  have hcx : calm (issuing t s1) = true := (seqWork_calm hwork).trans hcalm
  unfold ballocIssue at he
  dsimp only at he
  rw [← hh, hact, if_neg (show ¬ ((!true) = true) by decide), if_neg hv, hun, if_neg (by decide)] at he
  obtain ⟨limit, he⟩ : ∃ limit, exec (.balloc t f) s = answer s
      (settle (allocate (.thread t f.d.toNat) th.part (f.v.toNat % 4) (f.v.getLsbD 2) (thrHalf t.val) 0 limit (issuing t s1))) := ⟨_, he⟩
  obtain ⟨b, hg, hall⟩ : ∃ b, allocate (.thread t f.d.toNat) th.part (f.v.toNat % 4) (f.v.getLsbD 2) (thrHalf t.val) 0
      limit (issuing t s1) =
        allocGrant (.thread t f.d.toNat) h th.part b (issuing t s1) ∧ allocable s1 h b := by
    obtain ⟨_, _, _, _, hx⟩ := hwork
    obtain ⟨b, hg, hall⟩ := allocate_grants (w := .thread t f.d.toNat) (p := th.part) (sel := f.v.toNat % 4) (wait := f.v.getLsbD 2)
      (arrival := thrHalf t.val) (sa := 0) (limit := limit) (s := issuing t s1) (h := h) hh (by omega)
      (by rw [hx]; exact hun) (by rw [hx]; exact hquota) (by rw [hx]; exact hbw) (by rw [hx]; exact hrw) (by rw [hx]; exact hn)
    exact ⟨b, hg, by rw [hx] at hall; exact hall⟩
  have hsa : blockSa (issuing t s1) b = blockSa s1 b := by
    obtain ⟨_, _, _, _, hx⟩ := hwork
    rw [hx]
    rfl
  rw [hg] at he
  have hgr : allocGrant (.thread t f.d.toNat) h th.part b (issuing t s1) = modThr (granting h th.part b (issuing t s1)) t.val fun x =>
      { (x.setG f.d.toNat ((blockSa s1 b).setWidth 64)).next with wait := none, waitLeft := none } := by
    rw [← hsa]
    rfl
  refine ⟨b, hall, ?_⟩
  have hcg := (calm_granting h th.part b (issuing t s1)).trans hcx
  generalize granting h th.part b (issuing t s1) = y at hgr hcg ⊢
  have hcz (g : Thread → Thread) : calm (modThr y t.val g) = true := (calm_of_same rfl rfl rfl).trans hcg
  rw [hgr, settle_calm (hcz _)] at he
  exact he

/-- A block in SCRUB whose free waits for its copies. -/
def freeing (w : Who) (q : Part) (sa : Sa) (b : Nat) (s : State) : State :=
  (setBlk s b { st := 2, owner := (blk s b).owner }).onBuf fun u => { u with frees := u.frees ++ [(b, some (w, q, sa), (blk s b).owner)] }

theorem freeing_spec (w : Who) (q : Part) (sa : Sa) (b : Nat) (s : State) :
    blk (freeing w q sa b s) b = { st := 2, owner := (blk s b).owner } ∧ (∀ c, c ≠ b → blk (freeing w q sa b s) c = blk s c) ∧
      (freeing w q sa b s).buf.used = s.buf.used ∧ (freeing w q sa b s).buf.frees = s.buf.frees ++ [(b, some (w, q, sa), (blk s b).owner)] ∧
      changesOnly [.buf] s (freeing w q sa b s) :=
  ⟨(blk_setBlk s b b { st := 2, owner := (blk s b).owner }).trans (if_pos rfl), fun c hc => (blk_setBlk s b c { st := 2, owner := (blk s b).owner }).trans (if_neg hc), rfl, rfl, by simp [freeing, setBlk]⟩

theorem freePending_of_mem {t : ThreadId} {d b : Nat} {q o : Part} {sa : Sa} {s : State} (h : (b, some (Who.thread t d, q, sa), o) ∈ s.buf.frees) :
    freePending s t = true :=
  List.any_eq_true.mpr ⟨_, h, by simp⟩

/-- The block that BFREE frees. -/
theorem bfree_frees {t : ThreadId} {f : TFields} {s : State} {b : Nat} (hi : issues t [f.d.toNat, f.a.toNat] s) (hc : standsAt t (.bfree t f) s)
    (hw : (f.b == 0 && noVC f) = true) (hcalm : calm (fetched t s) = true)
    (hft : freeTarget (fetched t s) (pipeView (fetched t s) (thrHalf t.val)) (thr (fetched t s) t.val).part none (thrHalf t.val)
      ((effAddr (thr (fetched t s) t.val) f).setWidth 52) = .ok b)
    (hr : (region (fetched t s) (b / 1024)).state = 2) (h3 : (blk (fetched t s) b).st = 3)
    (ho : (blk (fetched t s) b).owner = (thr (fetched t s) t.val).part ∨ (thr (fetched t s) t.val).part = 0)
    (hl : ∀ e ∈ (fetched t s).cache.line, e.1 / 512 = b → e.2.sharers = 0 ∧ e.2.rheld = false) :
    ∃ sa, exec (.bfree t f) s = answer s (finishFree (b, some (.thread t f.d.toNat, (thr (fetched t s) t.val).part, sa), (blk (fetched t s) b).owner)
      (stall t.val (freeing (.thread t f.d.toNat) (thr (fetched t s) t.val).part sa b (issuing t (fetched t s))))) := by
  have he : exec (.bfree t f) s = execBfree t f s := rfl
  rw [execBfree, hw, instr_issues 0 _ hi hc] at he
  generalize fetched t s = s1 at *
  generalize thr s1 t.val = th at *
  have hwork := seqWork_issuing t s1
  have hcx : calm (issuing t s1) = true := (seqWork_calm hwork).trans hcalm
  unfold bfreeIssue at he
  dsimp only at he
  generalize (effAddr th f).setWidth 52 = sa at he hft
  rw [hft] at he
  refine ⟨sa, ?_⟩
  change _ = answer s (settle (if freePending (freeBlock _ th.part b (issuing t s1)) t then stall t.val (freeBlock _ th.part b (issuing t s1))
    else freeBlock _ th.part b (issuing t s1))) at he
  have hx : (issuing t s1).buf = s1.buf ∧ (issuing t s1).cache = s1.cache ∧ (issuing t s1).tables = s1.tables := by
    obtain ⟨_, _, _, _, hx⟩ := hwork
    rw [hx]
    exact ⟨rfl, rfl, rfl⟩
  generalize issuing t s1 = x at he hcx hx ⊢
  obtain ⟨hbuf, hcache, htab⟩ := hx
  have hblk : blk x b = blk s1 b := blk_congr (congrArg Buf.blk hbuf) b
  have hreg : region x (b / 1024) = region s1 (b / 1024) := congrArg (fun q : Tables => tget Region.zero q.region (b / 1024)) htab
  have hfree : freeBlock (some (.thread t f.d.toNat, th.part, sa)) th.part b x = freeing (.thread t f.d.toNat) th.part sa b x :=
    freeBlock_owned (by rw [hreg]; exact hr) (by rw [hblk]; exact h3) (by rw [hblk]; exact ho)
  rw [hfree] at he
  obtain ⟨-, -, -, g4, g5⟩ := freeing_spec (.thread t f.d.toNat) th.part sa b x
  obtain ⟨-, -, -, -, ha, hf⟩ := calm_iff.mp hcx
  rw [hf, List.nil_append] at g4
  rw [hblk] at g4
  generalize freeing (.thread t f.d.toNat) th.part sa b x = y at he g4 g5
  rw [freePending_of_mem (by rw [g4]; exact List.mem_cons_self), if_pos rfl] at he
  have hyc : (stall t.val y).cache = x.cache := g5 .cache (by decide)
  have hya : (stall t.val y).atu = x.atu := g5 .atu (by decide)
  have hyf : (stall t.val y).buf.frees = y.buf.frees := rfl
  generalize stall t.val y = z at he hyc hya hyf
  have hquiet : quiet z = true := by
    simp only [calm, Bool.and_eq_true] at hcx
    rw [quiet, hyc]
    exact hcx.1.1
  rw [settle_free hquiet (by rw [addlsIdle, hya]; exact ha) (hyf.trans g4) (by rw [hyc, hcache]; exact hl)] at he
  exact he

/-- Settles O20. -/
theorem bufferInstructions : Obligations.BufferInstructions := by
  unfold Obligations.BufferInstructions
  refine ⟨?_, ?_⟩
  · intro t f s hi hc ha hb hcf him hv s1 th arrival h q hv3 hcalm hact hun hquota hbw hrw hn
    obtain ⟨b, hall, he⟩ := balloc_grants (h := h) hi hc (by simp [ha, hb, hcf, him, hv]) rfl hv3 hcalm hact hun hquota hbw hrw hn
    change exec _ s = answer s (modThr (granting h th.part b (issuing t s1)) t.val _) at he
    obtain ⟨hr1, hr2, hr3, hr4⟩ := hall
    obtain ⟨g1, g2, g3, -, g4⟩ := granting_spec h th.part b (issuing t s1)
    have hthr : thr (granting h th.part b (issuing t s1)) t.val =
        { th with held := none, hit := none, xl := none, wait := none, ahead := none } :=
      (congrArg (fun x : Seq => tget Thread.zero x.th t.val) (g4 .seq (by decide))).trans (thr_issuing t s1)
    have hwork := seqWork_issuing t s1
    have hbuf : (issuing t s1).buf = s1.buf := by
      obtain ⟨_, _, _, _, hx⟩ := hwork
      rw [hx]
    have hcache : (issuing t s1).cache = s1.cache := by
      obtain ⟨_, _, _, _, hx⟩ := hwork
      rw [hx]
    generalize issuing t s1 = x at he g1 g2 g3 g4 hthr hbuf hcache
    generalize granting h th.part b x = y at he g1 g2 g3 g4 hthr
    obtain ⟨u, hu⟩ : ∃ u, u = modThr y t.val fun x =>
        { (x.setG f.d.toNat ((blockSa s1 b).setWidth 64)).next with wait := none, waitLeft := none } := ⟨_, rfl⟩
    have hut : thr u t.val = ended (th.setG f.d.toNat ((blockSa s1 b).setWidth 64)).next := by
      rw [hu, thr_modThr_self, hthr]
      exact ended_answer th none f.d.toNat _
    have hub : u.buf = y.buf := by rw [hu]; rfl
    have huc : u.cache = s1.cache := by rw [← hcache, ← g4 .cache (by decide), hu]; rfl
    rw [← hu] at he
    refine completesWith_answer he ⟨b, hr1, hr2, hr3, hr4, ?_, ?_, fun c hcb => ?_, ?_, ?_, ?_⟩
    · exact congrArg Blk.st ((blk_congr (congrArg Buf.blk hub) b).trans g1)
    · exact congrArg Blk.owner ((blk_congr (congrArg Buf.blk hub) b).trans g1)
    · exact ((blk_congr (congrArg Buf.blk hub) c).trans (g2 c hcb)).trans (blk_congr (congrArg Buf.blk hbuf) c)
    · show used u h th.part = used s1 h th.part + 1
      rw [used, hub]
      refine g3.trans ?_
      rw [used, hbuf]
      rfl
    · rw [thr_answered]
      exact hut
    · exact sameBytes_answered.mpr (sameBytes_of_data (by rw [huc]))
  · intro t f s b hi hc hb0 hv hcf s1 th sa h hcalm hft hr h3 ho hl
    obtain ⟨sa, he⟩ := bfree_frees hi hc (by simp [hb0, noVC, hv, hcf]) hcalm hft hr h3 ho hl
    change exec _ s = answer s (finishFree (b, some (.thread t f.d.toNat, th.part, sa), (blk s1 b).owner)
      (stall t.val (freeing (.thread t f.d.toNat) th.part sa b (issuing t s1)))) at he
    have hx : (issuing t s1).buf = s1.buf ∧ (issuing t s1).cache = s1.cache := by
      obtain ⟨_, _, _, _, hx⟩ := seqWork_issuing t s1
      rw [hx]
      exact ⟨rfl, rfl⟩
    have hxt := thr_issuing t s1
    generalize issuing t s1 = x at he hx hxt
    obtain ⟨hxb, hxc⟩ := hx
    have hxblk (c : Nat) : blk x c = blk s1 c := blk_congr (congrArg Buf.blk hxb) c
    obtain ⟨g1, g2, g3, -, g5⟩ := freeing_spec (.thread t f.d.toNat) th.part sa b x
    have hyt : thr (freeing (.thread t f.d.toNat) th.part sa b x) t.val = { th with held := none, hit := none, xl := none, wait := none, ahead := none } :=
      hxt
    generalize freeing (.thread t f.d.toNat) th.part sa b x = y at he g1 g2 g3 g5 hyt
    obtain ⟨w, hzt⟩ : ∃ w, thr (stall t.val y) t.val = { th with held := none, hit := none, xl := none, wait := w, ahead := none } :=
      ⟨some (hardWait y), by rw [stall, thr_modThr_self, hyt]; rfl⟩
    have hzb : (stall t.val y).buf = y.buf := rfl
    have hzc : (stall t.val y).cache = y.cache := rfl
    generalize stall t.val y = z at he hzt hzb hzc
    obtain ⟨f1, f2, f3, f4⟩ := finishFree_thread (t := t) (d := f.d.toNat) (b := b) (q := th.part) (o := (blk s1 b).owner) (sa := sa) (s := z)
    generalize finishFree _ z = u at he f1 f2 f3 f4
    have hblk (c : Nat) : blk u c = blk y c := (blk_congr f1 c).trans (blk_congr (congrArg Buf.blk hzb) c)
    refine completesWith_answer he ⟨?_, ?_, fun c hcb => ?_, ?_, ?_, ?_⟩
    · exact congrArg Blk.st ((hblk b).trans g1)
    · exact (congrArg Blk.owner ((hblk b).trans g1)).trans (congrArg Blk.owner (hxblk b) :)
    · exact ((hblk c).trans (g2 c hcb)).trans (hxblk c)
    · refine f2.trans (congrArg (· - 1) ?_)
      rw [used, hzb, g3, hxb]
      rfl
    · rw [thr_answered, f3, hzt]
      exact ended_answer th w f.d.toNat 0
    · exact sameBytes_answered.mpr (sameBytes_of_data (by rw [f4 .cache (by decide), hzc, g5 .cache (by decide), hxc]))

end Sys2Proof.Machine
end

section
/-! PROOFS. A partner's request (R286 to R288): its frame is taken, then it is performed; allocations, frees and atomics of a partner. -/

namespace Sys2Proof.Machine

open Sys2Proof.Safety

theorem sameBytes_trans {s u v : State} (h1 : sameBytes s u) (h2 : sameBytes u v) : sameBytes s v := fun a => (h2 a).trans (h1 a)

/-! ## The frame of a request -/

/-- A frame has been taken from port n: only assembled frames and freed credits of links differ. -/
structure Took (s u : State) : Prop where
  only : ∃ l, u = { s with links := l }
  rest : { u.links with link := [] } = { s.links with link := [] }
  link : ∀ k, ∃ rx fr, link u k = { link s k with rx := rx, freed := fr }

theorem Took.refl (s : State) : Took s s := ⟨⟨_, rfl⟩, rfl, fun _ => ⟨_, _, rfl⟩⟩

theorem Took.trans {s u v : State} (h1 : Took s u) (h2 : Took u v) : Took s v := by
  refine ⟨?_, h2.rest.trans h1.rest, fun k => ?_⟩
  · obtain ⟨_, hu⟩ := h1.only
    obtain ⟨_, hv⟩ := h2.only
    exact ⟨_, by rw [hv, hu]⟩
  · obtain ⟨_, _, hu⟩ := h1.link k
    obtain ⟨_, _, hv⟩ := h2.link k
    exact ⟨_, _, by rw [hv, hu]⟩

theorem took_setLink (s : State) (n : Nat) (rx : List Frame) (fr : Credits) : Took s (setLink s n { link s n with rx := rx, freed := fr }) := by
  refine ⟨⟨_, rfl⟩, rfl, fun k => ?_⟩
  by_cases hk : k = n
  · subst hk
    exact ⟨rx, fr, link_setLink_self ..⟩
  · exact ⟨_, _, link_setLink_ne s _ hk⟩

theorem took_takeFrame (n : Nat) (f : Frame) (s : State) : Took s (takeFrame n f s) :=
  (took_setLink s n _ _).trans (took_setLink _ n _ _)

theorem took_takeRx (n opc : Nat) (tag : BitVec 12) (s : State) : Took s (takeRx n opc tag s) := by
  unfold takeRx
  split
  · exact Took.refl s
  · exact took_takeFrame ..

theorem Took.port {s u : State} (h : Took s u) (k : Nat) : Machine.port u k = Machine.port s k := by
  have hp : u.links.port = s.links.port := (congrArg Links.port h.rest :)
  rw [Machine.port, hp]
  rfl

theorem Took.tx {s u : State} (h : Took s u) (k : Nat) : (Machine.link u k).tx = (Machine.link s k).tx := by
  obtain ⟨_, _, hl⟩ := h.link k
  rw [hl]

theorem Took.frame {s u : State} (h : Took s u) : changesOnly [.links] s u := by
  obtain ⟨_, rfl⟩ := h.only
  intro b hb
  cases b <;> first | rfl | simp at hb

/-- What a port sends after a frame has been taken is what it sends. -/
theorem Took.sends {s u v : State} {n : Nat} {f : Frame} (h : Took s u) (hs : sends n f u v) : sends n f s v := by
  obtain ⟨rx, fr, hl⟩ := h.link n
  have hm : mayLeave n f u = mayLeave n f s := by
    simp only [mayLeave, portActive, hl, h.port]
    rfl
  rw [Safety.sends, h.tx, hm] at hs
  exact hs

theorem portOpen_live {s : State} {n : Nat} (h : portOpen s n = true) : portActive s n = true ∧ portLive s n = true := by
  simp only [portOpen, Bool.and_eq_true] at h
  refine ⟨h.1, ?_⟩
  have h1 := h.1
  rw [portActive] at h1
  rw [portLive, h1]
  rfl

/-- A request on an open port, no longer than its class allows, is taken and performed. -/
theorem partner_open {m : PHdr} {opc n : Nat} {s : State} (h : portOpen s m.port.val = true) (hc : (16 + n + 61) / 62 ≤ classMax m.cls)
    (f : State → State) : ∃ u, Took s u ∧ partner m opc n f s = settle (f u) := by
  refine ⟨takeRx m.port.val opc m.tag s, took_takeRx .., ?_⟩
  rw [partner, if_neg (by simp [h])]
  exact if_neg (by omega)

theorem two_le_classMax (c : Fin 4) : 2 ≤ classMax c := by
  fin_cases c <;> decide

/-- A request of one or two flits fits every class. -/
theorem partner_short {m : PHdr} {opc n : Nat} {s : State} (h : portOpen s m.port.val = true) (hn : n ≤ 32) (f : State → State) :
    ∃ u, Took s u ∧ partner m opc n f s = settle (f u) :=
  partner_open h (Nat.le_trans (by omega) (two_le_classMax m.cls)) f

/-! ## Allocations and frees -/

/-- An answer of the allocator to a partner, its block granted (R161). -/
theorem blockAnswer_port {m : PHdr} {sa : Sa} (s : State) :
    blockAnswer (hdrWho m) m.part sa stOk s = sendFrame m.port.val (rsp { m with sa := sa } 0 false []) s :=
  respond_eq (by decide) s

theorem calm_hands {n : Nat} {s u : State} (h : Hands n s u) (hc : calm s = true) : calm u = true := by
  rw [← hc]
  exact calm_congr (h.cache_eq (calm_iff.mp hc).2.2.1) (h.frame .atu (by decide)) (h.frame .buf (by decide))

/-- Settles the first half of O29: which block the allocator gives. -/
theorem alloc_grants {m : PHdr} {sel : BitVec 2} {wait : Bool} {s : State} {h : Half}
    (hh : h = if sel = 0 then .e else if sel = 1 then .w else portHalf m.port.val) (hsel : sel ≠ 3) (hopen : portOpen s m.port.val = true)
    (hcalm : calm s = true) (hact : mayAct s (allocView s h) m.part (some m.port.val) = true)
    (hun : unavailable s h (portHalf m.port.val) = false)
    (hquota : m.part = 0 ∨ (used s h m.part).toNat <
      min 196608 (h.pick (partReg (allocView s h) m.part.toNat).quotaE (partReg (allocView s h) m.part.toNat).quotaW).toNat)
    (hbw : twf Blk.zero s.buf.blk = true) (hrw : twf Region.zero s.tables.region = true) (hn : freeCount s h ≠ 0) :
    ∃ b u, allocable s h b ∧ Took s u ∧ exec (.alloc m sel wait) s = answer s
      (sendFrame m.port.val (rsp { m with sa := blockSa s b } 0 false []) (granting h m.part b u)) := by
  obtain ⟨u, htook, hp⟩ := partner_short (opc := 0x20) (n := 0) hopen (by decide) (allocReq m sel wait)
  have he : exec (.alloc m sel wait) s = answer s (settle (allocReq m sel wait u)) := by rw [← hp]; rfl
  have hcu : calm u = true := by
    obtain ⟨_, hx⟩ := htook.only
    rw [hx]
    exact hcalm
  have hselN : (if sel = 0 then Half.e else if sel = 1 then .w else portHalf m.port.val) =
      (if sel.toNat = 0 then Half.e else if sel.toNat = 1 then .w else portHalf m.port.val) ∧ sel.toNat ≤ 2 := by
    have hall : ∀ x : BitVec 2, ∀ a : Half, x ≠ 3 → (if x = 0 then Half.e else if x = 1 then .w else a) =
      (if x.toNat = 0 then Half.e else if x.toNat = 1 then .w else a) ∧ x.toNat ≤ 2 := by
      intro x a
      revert x
      cases a <;> decide
    exact hall sel _ hsel
  obtain ⟨b, hg, hall⟩ : ∃ b, allocate (hdrWho m) m.part sel.toNat wait (hdrHalf m) m.sa (thawNs u m.part.toNat) u =
      allocGrant (hdrWho m) h m.part b u ∧ allocable s h b := by
    obtain ⟨_, hx⟩ := htook.only
    obtain ⟨b, hg, hall⟩ := allocate_grants (w := hdrWho m) (p := m.part) (sel := sel.toNat) (wait := wait) (arrival := hdrHalf m) (sa := m.sa)
      (limit := thawNs u m.part.toNat) (s := u) (h := h) (hh.trans hselN.1) hselN.2 (by rw [hx]; exact hun) (by rw [hx]; exact hquota)
      (by rw [hx]; exact hbw) (by rw [hx]; exact hrw) (by rw [hx]; exact hn)
    exact ⟨b, hg, by rw [hx] at hall; exact hall⟩
  have hact' : mayAct u (allocView u h) m.part (some m.port.val) = true := by
    obtain ⟨_, hx⟩ := htook.only
    rw [hx]
    exact hact
  have hsa : blockSa u b = blockSa s b := by
    obtain ⟨_, hx⟩ := htook.only
    rw [hx]
    rfl
  refine ⟨b, u, hall, htook, ?_⟩
  have hreq : allocReq m sel wait u = sendFrame m.port.val (rsp { m with sa := blockSa s b } 0 false []) (granting h m.part b u) := by
    unfold allocReq
    dsimp only
    rw [show (if sel = 0 then Half.e else if sel = 1 then .w else hdrHalf m) = h from hh.symm, hact',
      if_neg (show ¬ ((!true) = true) by decide), hg, allocGrant, blockAnswer_port, hsa]
    rfl
  rw [he, hreq, settle_calm (calm_hands (hands_sendFrame ..) ((calm_granting ..).trans hcu))]

/-- The end of a partner's free (R168). -/
theorem finishFree_port {m : PHdr} {b : Nat} {o : Part} {s : State} :
    ∃ u, finishFree (b, some (hdrWho m, m.part, m.sa), o) s = sendFrame m.port.val (rsp m 0 false []) u ∧ u.buf.blk = s.buf.blk ∧
      used u (blockHalf b) o = used s (blockHalf b) o - 1 ∧ changesOnly [.buf, .cnt] s u := by
  refine ⟨cnt 0x034 (some (blockHalf b)) (some o) 1 (subUsed (blockHalf b) o (s.onBuf fun u =>
    { u with frees := u.frees.erase (b, some (hdrWho m, m.part, m.sa), o) })), blockAnswer_port (sa := m.sa) _, ?_, ?_, ?_⟩
  · rw [cnt_buf]
    rfl
  · rw [used, cnt_buf]
    exact tget_tset_self ..
  · simp [subUsed]

/-- A partner's free that nothing holds up. -/
theorem free_frees {m : PHdr} {b : Nat} {s : State} (hopen : portOpen s m.port.val = true) (hcalm : calm s = true)
    (hft : freeTarget s (pipeView s (portHalf m.port.val)) m.part (some m.port.val) (portHalf m.port.val) m.sa = .ok b)
    (hr : (region s (b / 1024)).state = 2) (h3 : (blk s b).st = 3) (ho : (blk s b).owner = m.part ∨ m.part = 0)
    (hl : ∀ e ∈ s.cache.line, e.1 / 512 = b → e.2.sharers = 0 ∧ e.2.rheld = false) :
    ∃ u, Took s u ∧ exec (.free m) s = answer s
      (finishFree (b, some (hdrWho m, m.part, m.sa), (blk s b).owner) (freeing (hdrWho m) m.part m.sa b u)) := by
  obtain ⟨u, htook, hp⟩ := partner_short (opc := 0x21) (n := 0) hopen (by decide) (freeReq m)
  refine ⟨u, htook, ?_⟩
  have he : exec (.free m) s = answer s (settle (freeReq m u)) := by rw [← hp]; rfl
  have hframe := htook.frame
  have hblk : blk u b = blk s b := blk_congr (congrArg Buf.blk (hframe .buf (by decide))) b
  have hreg : region u (b / 1024) = region s (b / 1024) :=
    congrArg (fun q : Tables => tget Region.zero q.region (b / 1024)) (hframe .tables (by decide))
  have hft' : freeTarget u (pipeView u (hdrHalf m)) m.part (some m.port.val) (hdrHalf m) m.sa = .ok b := by
    obtain ⟨_, hx⟩ := htook.only
    rw [hx]
    exact hft
  have hfree : freeReq m u = freeing (hdrWho m) m.part m.sa b u := by
    unfold freeReq
    rw [hft']
    exact freeBlock_owned (by rw [hreg]; exact hr) (by rw [hblk]; exact h3) (by rw [hblk]; exact ho)
  obtain ⟨-, -, -, g4, g5⟩ := freeing_spec (hdrWho m) m.part m.sa b u
  obtain ⟨-, -, -, -, ha, hf⟩ := calm_iff.mp hcalm
  rw [hframe .buf (by decide), hf, List.nil_append, hblk] at g4
  rw [he, hfree]
  refine congrArg (answer s) (settle_free ?_ ?_ g4 ?_)
  · simp only [calm, Bool.and_eq_true] at hcalm
    rw [quiet, g5 .cache (by decide), hframe .cache (by decide)]
    exact hcalm.1.1
  · rw [addlsIdle, g5 .atu (by decide), hframe .atu (by decide)]
    exact ha
  · rw [g5 .cache (by decide), hframe .cache (by decide)]
    exact hl

/-- Settles O29. -/
theorem partnerBlocks : Obligations.PartnerBlocks := by
  unfold Obligations.PartnerBlocks
  refine ⟨?_, ?_⟩
  · intro m sel wait s n h q hsel hopen hcalm hact hun hquota hbw hrw hn
    obtain ⟨b, x, ⟨hr1, hr2, hr3, hr4⟩, htook, he⟩ := alloc_grants (h := h) (wait := wait) rfl hsel hopen hcalm hact hun hquota hbw hrw hn
    obtain ⟨g1, g2, g3, -, g5⟩ := granting_spec h m.part b x
    generalize hf : rsp { m with sa := blockSa s b } 0 false [] = f at he
    change exec _ s = answer s (sendFrame n f _) at he
    have hxb : x.buf = s.buf := htook.frame .buf (by decide)
    generalize granting h m.part b x = y at he g1 g2 g3 g5
    have hyl : y.links = x.links := g5 .links (by decide)
    have hport : port y n = port x n := by simp only [port, hyl]
    have hlink : link y n = link x n := by simp only [link, hyl]
    have hlive : portLive y n = true := by
      have := (portOpen_live hopen).2
      rw [portLive] at this ⊢
      rw [hport, htook.port]
      exact this
    have hsend := sends_congr (s' := x) hlink.symm hport.symm rfl (sends_sendFrame (f := f) hlive)
    have hhands := hands_sendFrame n f y
    generalize sendFrame n f y = u at he hsend hhands
    have hub : u.buf = y.buf := hhands.frame .buf (by decide)
    refine completesWith_answer he ⟨b, hr1, hr2, hr3, hr4, ?_, ?_, fun c hcb => ?_, ?_, ?_, ?_⟩
    · exact congrArg Blk.st ((blk_congr (congrArg Buf.blk hub) b).trans g1)
    · exact congrArg Blk.owner ((blk_congr (congrArg Buf.blk hub) b).trans g1)
    · exact ((blk_congr (congrArg Buf.blk hub) c).trans (g2 c hcb)).trans (blk_congr (congrArg Buf.blk hxb) c)
    · show used u h m.part = used s h m.part + 1
      rw [used, hub]
      refine g3.trans ?_
      rw [used, hxb]
      rfl
    · rw [hf]
      exact sends_congr rfl rfl (link_answered ..) (htook.sends hsend)
    · refine sameBytes_answered.mpr (sameBytes_trans (sameBytes_of_data ?_) hhands.sameBytes)
      rw [g5 .cache (by decide), htook.frame .cache (by decide)]
  · intro m b s n hopen hcalm hft hr h3 ho hl
    obtain ⟨x, htook, he⟩ := free_frees hopen hcalm hft hr h3 ho hl
    obtain ⟨g1, g2, g3, -, g5⟩ := freeing_spec (hdrWho m) m.part m.sa b x
    have hxb : x.buf = s.buf := htook.frame .buf (by decide)
    generalize freeing (hdrWho m) m.part m.sa b x = y at he g1 g2 g3 g5
    obtain ⟨z, hz, z1, z2, z3⟩ := finishFree_port (m := m) (b := b) (o := (blk s b).owner) (s := y)
    generalize hf : rsp m 0 false [] = f at hz
    rw [hz] at he
    change exec _ s = answer s (sendFrame n f z) at he
    have hzl : z.links = x.links := (z3 .links (by decide)).trans (g5 .links (by decide))
    have hport : port z n = port x n := by simp only [port, hzl]
    have hlink : link z n = link x n := by simp only [link, hzl]
    have hlive : portLive z n = true := by
      have := (portOpen_live hopen).2
      rw [portLive] at this ⊢
      rw [hport, htook.port]
      exact this
    have hsend := sends_congr (s' := x) hlink.symm hport.symm rfl (sends_sendFrame (f := f) hlive)
    have hhands := hands_sendFrame n f z
    generalize sendFrame n f z = u at he hsend hhands
    have hub : u.buf = z.buf := hhands.frame .buf (by decide)
    have hblk (c : Nat) : blk u c = blk y c := (blk_congr (congrArg Buf.blk hub) c).trans (blk_congr z1 c)
    have hblkx (c : Nat) : blk x c = blk s c := blk_congr (congrArg Buf.blk hxb) c
    refine completesWith_answer he ⟨?_, ?_, fun c hcb => ?_, ?_, ?_, ?_⟩
    · exact congrArg Blk.st ((hblk b).trans g1)
    · exact (congrArg Blk.owner ((hblk b).trans g1)).trans (congrArg Blk.owner (hblkx b) :)
    · exact ((hblk c).trans (g2 c hcb)).trans (hblkx c)
    · show used u (blockHalf b) (blk s b).owner = _
      rw [used, hub]
      refine z2.trans (congrArg (· - 1) ?_)
      rw [used, g3, hxb]
      rfl
    · exact sends_congr rfl rfl (link_answered ..) (htook.sends hsend)
    · refine sameBytes_answered.mpr (sameBytes_trans (sameBytes_of_data ?_) hhands.sameBytes)
      rw [z3 .cache (by decide), g5 .cache (by decide), htook.frame .cache (by decide)]

end Sys2Proof.Machine
end

section
/-! PROOFS. Atomics of the partners (R174, R177, R288). -/

namespace Sys2Proof.Machine

open Sys2Proof.Safety

/-- A partner's atomic on a line that is there is accepted at its home. -/
theorem atomReq_accepts {m : PHdr} {c : Instr} {opc n : Nat} {k : AtomKind} {wide : Bool} {v w : BitVec 64} {s : State} {h : Half} {key : Nat}
    (he : exec c s = linkAtom m opc n k wide v w s) (hn : n ≤ 32) (hop : operandOk wide v = true ∧ operandOk wide w = true)
    (hopen : portOpen s m.port.val = true) (hal : m.sa.toNat % (if wide then 8 else 4) = 0) (hm : memHome m Rights.atom m.sa s = .ok h)
    (hl : lineHere s (.atu 0) m.sa m.part (portHalf m.port.val) h key) (hno : noCopies s key) (hid : findAtom s h s.atu.ids = none) :
    completesWith c s fun u => ∃ a,
      (atuHalf u h).atoms = (atuHalf s h).atoms ++ [a] ∧ a.who = Who.port m.port m.cls m.tag ∧ a.kind = k ∧ a.wide = wide ∧ a.v = v ∧
      a.cmp = w ∧ a.sa = m.sa ∧ a.part = m.part ∧ a.go = false ∧ (link u m.port.val).tx = (link s m.port.val).tx ∧ sameBytes s u := by
  obtain ⟨u, htook, hp⟩ := partner_short (opc := opc) hopen hn (atomReq m k wide v w)
  rw [linkAtom, hop.1, hop.2, if_pos (by decide), hp] at he
  have hreq : atomReq m k wide v w u = acceptAtom (hdrWho m) k wide v w m.sa m.part (hdrHalf m) h m.port.val u := by
    have hmu : memHome m Rights.atom m.sa u = .ok h := by
      obtain ⟨_, hx⟩ := htook.only
      rw [hx]
      exact hm
    rw [atomReq, if_neg (by simpa using hal), hmu]
  have hacc : hasAccepted h (newAtom (hdrWho m) k wide v w m.sa m.part (hdrHalf m) m.port.val u) u
      (settle (acceptAtom (hdrWho m) k wide v w m.sa m.part (hdrHalf m) h m.port.val u)) := by
    refine settle_acceptAtom (key := key) _ _ _ _ _ _ ?_ ?_ ?_ <;>
    · obtain ⟨_, hx⟩ := htook.only
      rw [hx]
      assumption
  rw [hreq] at he
  generalize settle _ = x at he hacc
  obtain ⟨-, hlinks, hdata, hatoms⟩ := hacc
  have hframe := htook.frame
  refine completesWith_answer he ⟨newAtom (hdrWho m) k wide v w m.sa m.part (hdrHalf m) m.port.val u,
    ?_, rfl, rfl, rfl, rfl, rfl, rfl, rfl, rfl, ?_, ?_⟩
  · have hatu : atuHalf u h = atuHalf s h := by
      rw [atuHalf, atuHalf, hframe .atu (by decide)]
    exact (show (atuHalf (answered s x) h).atoms = _ from hatoms).trans (by rw [hatu])
  · have hlink : link x m.port.val = link u m.port.val := by simp only [link, hlinks]
    rw [link_answered, hlink, htook.tx]
  · exact sameBytes_answered.mpr (sameBytes_of_data (hdata.trans (by rw [hframe .cache (by decide)])))

theorem operandOk_of {wide : Bool} {v w : BitVec 64} (h : wide = true ∨ (v.toNat < 2 ^ 32 ∧ w.toNat < 2 ^ 32)) :
    operandOk wide v = true ∧ operandOk wide w = true := by
  rcases h with rfl | ⟨hv, hw⟩
  · exact ⟨rfl, rfl⟩
  · exact ⟨by rw [operandOk, decide_eq_true hv, Bool.or_true], by rw [operandOk, decide_eq_true hw, Bool.or_true]⟩

theorem operandOk_zero (wide : Bool) : operandOk wide 0 = true := by cases wide <;> decide

/-- An operand whose bytes 4 to 7 are not all 0. -/
theorem operandOk_wrong {v : BitVec 64} (h : 2 ^ 32 ≤ v.toNat) : operandOk false v = false := by
  rw [operandOk, decide_eq_false (Nat.not_lt.mpr h), Bool.or_false]

/-- The breach of R288. -/
theorem linkAtom_breach {m : PHdr} {opc n : Nat} {k : AtomKind} {v w : BitVec 64} (h : operandOk false v = false ∨ operandOk false w = false)
    (s : State) : linkAtom m opc n k false v w s = .fault .breach := by
  have hand : (operandOk false v && operandOk false w) = false := by rcases h with h | h <;> simp [h]
  rw [linkAtom, hand, if_neg (by decide)]

/-- Settles O28. -/
theorem partnerAtomics : Obligations.PartnerAtomics := by
  unfold Obligations.PartnerAtomics
  refine ⟨?_, ?_⟩
  · intro m wide v cmp s h key n accepts hopen hal hm hop hl hno hid
    obtain ⟨hv, hw⟩ := operandOk_of hop
    have hz := operandOk_zero wide
    refine ⟨?_, ?_, ?_, fun sg => ⟨?_, ?_⟩⟩
    · exact atomReq_accepts (c := .linkAadd m wide v) rfl (by decide) ⟨hv, hz⟩ hopen hal hm hl hno hid
    · exact atomReq_accepts (c := .linkAcas m wide v cmp) rfl (by decide) ⟨hv, hw⟩ hopen hal hm hl hno hid
    · exact atomReq_accepts (c := .linkAswp m wide v) rfl (by decide) ⟨hv, hz⟩ hopen hal hm hl hno hid
    · exact atomReq_accepts (c := .linkAmin m wide sg v) rfl (by decide) ⟨hv, hz⟩ hopen hal hm hl hno hid
    · exact atomReq_accepts (c := .linkAmax m wide sg v) rfl (by decide) ⟨hv, hz⟩ hopen hal hm hl hno hid
  · intro m v cmp sg s
    refine ⟨fun hv => ?_, fun hv => ?_⟩
    · have hb := operandOk_wrong hv
      exact ⟨linkAtom_breach (.inl hb) s, linkAtom_breach (.inl hb) s, linkAtom_breach (.inl hb) s, linkAtom_breach (.inl hb) s⟩
    · exact linkAtom_breach (hv.imp operandOk_wrong operandOk_wrong) s

end Sys2Proof.Machine
end

section
/-! PROOFS. Storing a line (R7, R346), the waits that a write wakes (R271), and atomics performed in the array (R174, R177). -/

namespace Sys2Proof.Machine

open Sys2Proof.Safety

/-! ## The bytes after a store -/

theorem memByte_setData_inside (s : State) (key : Nat) (d : BitVec 1024) {i : Nat} (h : i < 128) :
    memByte (setData s key d).cache.data (128 * key + i) = lineByte d i := by
  rw [lineByte_eq]
  exact memByte_memWrite_inside s.cache.data (128 * key) d.toNat h

theorem memByte_setData_outside (s : State) (key : Nat) (d : BitVec 1024) {a : Nat} (h : a < 128 * key ∨ 128 * key + 128 ≤ a) :
    memByte (setData s key d).cache.data a = memByte s.cache.data a := memByte_memWrite_outside _ _ _ _ _ h

/-- A byte of a value that stands at an offset of the line. -/
theorem lineByte_placed (v : Nat) {off i : Nat} (h1 : off ≤ i) (h2 : i < 128) :
    lineByte (BitVec.ofNat 1024 (v * 2 ^ (8 * off))) i = BitVec.ofNat 8 (v / 256 ^ (i - off)) := by
  obtain ⟨j, rfl⟩ := Nat.exists_eq_add_of_le h1
  rw [lineByte_eq, Nat.add_sub_cancel_left]
  apply BitVec.eq_of_toNat_eq
  have h1024 : (2 : Nat) ^ 1024 = 256 ^ (off + j) * 256 ^ (128 - (off + j)) := by
    rw [← Nat.pow_add, show off + j + (128 - (off + j)) = 128 by omega, show (1024 : Nat) = 8 * 128 from rfl, two_pow_eight_mul]
  have hdvd : (2 : Nat) ^ 8 ∣ 256 ^ (128 - (off + j)) := dvd_pow_self 256 (by omega)
  rw [BitVec.toNat_ofNat, BitVec.toNat_ofNat, BitVec.toNat_ofNat, h1024, Nat.mod_mul_right_div_self, Nat.mod_mod_of_dvd _ hdvd,
    two_pow_eight_mul, Nat.pow_add, ← Nat.div_div_eq_div_mul, Nat.mul_div_cancel _ (by positivity)]

/-- A line stored with n bytes of v merged in at an offset: those bytes change, and no other. -/
theorem bytesStored_merge {s u : State} {key off n v : Nat} (h : off + n ≤ 128)
    (hu : u.cache.data = (setData s key (mergeBytes (byteMask off n) (lineData s key) (BitVec.ofNat 1024 (v * 2 ^ (8 * off))))).cache.data) :
    bytesStored key off n v s u := by
  refine ⟨fun i hi => ?_, fun a ha => ?_⟩
  · have hmask : (byteMask off n).getLsbD (off + i) = true := by
      rw [byteMask_getLsbD h]
      simp
      omega
    rw [hu, Nat.add_assoc, memByte_setData_inside s key _ (by omega), lineByte_mergeBytes _ _ _ (by omega), if_pos hmask,
      lineByte_placed v (by omega) (by omega), Nat.add_sub_cancel_left]
  · rw [hu]
    by_cases hout : a < 128 * key ∨ 128 * key + 128 ≤ a
    · exact memByte_setData_outside s key _ hout
    · obtain ⟨i, rfl⟩ := Nat.exists_eq_add_of_le (show 128 * key ≤ a by omega)
      have hmask : ¬ (byteMask off n).getLsbD i = true := by
        rw [byteMask_getLsbD h]
        simp
        omega
      rw [memByte_setData_inside s key _ (by omega), lineByte_mergeBytes _ _ _ (by omega), if_neg hmask, lineByte_lineData s key (by omega)]

/-- Where the bytes are v already, storing v changes nothing. -/
theorem bytesStored_same {s u : State} {key off n : Nat} (hu : u.cache.data = s.cache.data) :
    bytesStored key off n (lineField s key off n) s u := by
  refine ⟨fun i hi => ?_, fun a _ => by rw [hu]⟩
  have hpart := memRead_part s.cache.data (128 * key + off) (i := i) (k := 1) (n := n) (by omega)
  rw [memRead_one] at hpart
  apply BitVec.eq_of_toNat_eq
  rw [hu, ← hpart, BitVec.toNat_ofNat]
  rfl

/-! ## A line written in the array -/

/-- The answers of units, without their marks of later writes. -/
def unmarked (g : List (Consumer × Nat × LineRes)) : List (Consumer × Nat × LineRes) :=
  g.map fun e => (e.1, e.2.1, { e.2.2 with written := false })

/-- Of the sequencer only waits of threads change, and of the units' answers only their marks. -/
structure Woken (s u : State) : Prop where
  threads : ∀ k, ∃ w, thr u k = { thr s k with wait := w }
  seq : ∃ t, u.seq = { s.seq with th := t }
  got : unmarked u.cache.got = unmarked s.cache.got

theorem woken_of_same {s u : State} (hs : u.seq = s.seq) (hg : u.cache.got = s.cache.got) : Woken s u :=
  ⟨fun k => ⟨(thr s k).wait, thr_congr hs k⟩, ⟨_, hs⟩, by rw [hg]⟩

theorem Woken.trans {s u v : State} (h1 : Woken s u) (h2 : Woken u v) : Woken s v where
  threads k := by
    obtain ⟨w1, hw1⟩ := h1.threads k
    obtain ⟨w2, hw2⟩ := h2.threads k
    exact ⟨w2, by rw [hw2, hw1]⟩
  seq := by
    obtain ⟨t1, ht1⟩ := h1.seq
    obtain ⟨t2, ht2⟩ := h2.seq
    exact ⟨t2, by rw [ht2, ht1]⟩
  got := h2.got.trans h1.got

/-- What performing a write on line `key` leaves: its bytes, metadata and check bits, the waits that it wakes, the atomic unit's lists and
flags, and counts. -/
structure Wrote (key : Nat) (s u : State) : Prop where
  frame : changesOnly [.loops, .cnt, .bwr, .tst, .integ, .seq, .atu, .cache] s u
  cache : ∃ d ln ec g, u.cache = { s.cache with data := d, line := ln, ecc := ec, got := g }
  ecc : ∀ e ∈ u.cache.ecc, e ∈ s.cache.ecc
  metas : ∀ k, k ≠ key → metaAt u k = metaAt s k
  arm : u.integ.injArm = s.integ.injArm
  idle : addlsIdle u = addlsIdle s
  waits : ∀ k, (thr s k).wait = none → thr u k = thr s k
  woken : Woken s u

theorem Wrote.trans {key : Nat} {s u v : State} (h1 : Wrote key s u) (h2 : Wrote key u v) : Wrote key s v where
  frame := changesOnly_trans h1.frame h2.frame
  cache := by
    obtain ⟨_, _, _, _, hu⟩ := h1.cache
    obtain ⟨_, _, _, _, hv⟩ := h2.cache
    exact ⟨_, _, _, _, by rw [hv, hu]⟩
  ecc e he := h1.ecc e (h2.ecc e he)
  metas k hk := (h2.metas k hk).trans (h1.metas k hk)
  arm := h2.arm.trans h1.arm
  idle := h2.idle.trans h1.idle
  waits k hk := by rw [h2.waits k (by rw [h1.waits k hk]; exact hk), h1.waits k hk]
  woken := h1.woken.trans h2.woken

/-- What leaves the cache, the injection, the atomic unit's lists and the sequencer is no write. -/
theorem wrote_of_same {key : Nat} {s u : State} (hf : changesOnly [.loops, .cnt, .bwr, .tst, .atu] s u) (hi : addlsIdle u = addlsIdle s) :
    Wrote key s u := by
  have hc : u.cache = s.cache := hf .cache (by decide)
  refine ⟨changesOnly_mono hf (by decide), ⟨_, _, _, _, hc⟩, by rw [hc]; exact fun _ h => h, fun k _ => ?_, ?_, hi, fun k _ => ?_,
    woken_of_same (hf .seq (by decide)) (by rw [hc])⟩
  · rw [metaAt, metaAt, metaDefault, metaDefault, region, region, hc, hf .tables (by decide)]
  · rw [hf .integ (by decide)]
  · exact thr_congr (hf .seq (by decide)) k

theorem wrote_of_onlyCounts {key : Nat} {s u : State} (h : onlyCounts s u) : Wrote key s u := by
  obtain ⟨_, _, _, rfl⟩ := h
  refine wrote_of_same (fun b hb => ?_) rfl
  cases b <;> first | rfl | simp at hb

theorem wrote_prefEnded_if (key : Nat) (b : Bool) (h : Half) (p : Part) (useful : Bool) (s : State) :
    Wrote key s (if b then prefEnded h p useful s else s) := by
  have hsame (t : State) : Wrote key t t := wrote_of_onlyCounts (onlyCounts_refl t)
  split
  · unfold prefEnded
    refine Wrote.trans (u := modLoopMem s (8 + h.idx) fun m =>
        { m with hits := m.hits + b2n !useful, ended := m.ended + 1 }) (wrote_of_same ?_ rfl) (wrote_of_onlyCounts (onlyCounts_cnt ..))
    intro b hb
    cases b <;> first | rfl | simp at hb
  · exact hsame s

theorem wrote_setMeta (key : Nat) (m : Meta) (s : State) : Wrote key s (setMeta s key m) where
  frame := by simp [setMeta]
  cache := ⟨_, _, _, _, rfl⟩
  ecc _ h := h
  metas k hk := tget_tset_other _ _ _ _ hk
  arm := rfl
  idle := rfl
  waits _ _ := rfl
  woken := woken_of_same rfl rfl

theorem wrote_setData (key : Nat) (d : BitVec 1024) (s : State) : Wrote key s (setData s key d) where
  frame := by simp [setData]
  cache := ⟨_, _, _, _, rfl⟩
  ecc _ h := h
  metas _ _ := rfl
  arm := rfl
  idle := rfl
  waits _ _ := rfl
  woken := woken_of_same rfl rfl

theorem mem_tset_default {α : Type} [DecidableEq α] {d : α} {t : Tab α} {n : Nat} {e : Nat × α} (h : e ∈ tset d t n d) : e ∈ t := by
  rw [tset, if_pos rfl] at h
  exact (mem_tdel t n e h).1

/-- What follows a store with no injection armed: the line's check bits are right, and no injected error is left in it. -/
theorem wrote_afterStore (key : Nat) (line : Sa) {s : State} (h : s.integ.injArm = false) : Wrote key s (afterStore key line s) ∧
    (afterStore key line s).cache.data = s.cache.data ∧ (afterStore key line s).atu = s.atu := by
  obtain ⟨ec, hec⟩ : ∃ ec, ec = (List.range 4).foldl (fun e j => tset 0 e (4 * key + j) 0) s.cache.ecc := ⟨_, rfl⟩
  have hsub : ∀ e ∈ ec, e ∈ s.cache.ecc := by
    rw [hec]
    intro e he
    simp only [List.range_succ, List.range_zero, List.nil_append, List.cons_append, List.foldl_cons, List.foldl_nil] at he
    exact mem_tset_default (mem_tset_default (mem_tset_default (mem_tset_default he)))
  have he : afterStore key line s =
      { s with integ := { s.integ with injected := s.integ.injected.filter (· ≠ key) }, cache := { s.cache with ecc := ec } } := by
    have hno : ¬ (({ s.integ with injected := s.integ.injected.filter (· ≠ key) } : Integ).injArm = true ∧
        s.integ.injAddr = line.extractLsb' 7 45) := by simp [h]
    rw [hec]
    unfold afterStore
    exact if_neg hno
  rw [he]
  exact ⟨⟨fun b hb => by cases b <;> first | rfl | simp at hb, ⟨_, _, _, _, rfl⟩, hsub, fun _ _ => rfl, rfl, rfl, fun _ _ => rfl,
    woken_of_same rfl rfl⟩, rfl, rfl⟩

/-- A store with no injection armed. -/
theorem wrote_storeLine (key : Nat) (line : Sa) (d : BitVec 1024) (m : Meta) {s : State} (h : s.integ.injArm = false) :
    Wrote key s (storeLine key line d m s) ∧ (storeLine key line d m s).cache.data = (setData s key d).cache.data ∧
      (storeLine key line d m s).atu = s.atu := by
  unfold storeLine
  have h1 := (wrote_setData key d s).trans (wrote_setMeta key (withCrc m d line) (setData s key d))
  have h1d : (setMeta (setData s key d) key (withCrc m d line)).cache.data = (setData s key d).cache.data := rfl
  have h1a : (setMeta (setData s key d) key (withCrc m d line)).atu = s.atu := rfl
  generalize setMeta (setData s key d) key (withCrc m d line) = x at h1 h1d h1a ⊢
  obtain ⟨h2, h2d, h2a⟩ := wrote_afterStore key line (s := x) (h1.arm.trans h)
  generalize afterStore key line x = y at h2 h2d h2a ⊢
  refine ⟨(h1.trans h2).trans (wrote_of_onlyCounts (onlyCounts_countOps ..)), ?_, ?_⟩
  · rw [countOps_only, ← h1d, ← h2d]
  · rw [countOps_only, ← h1a, ← h2a]

/-! ## Waits that a write wakes (R271) -/

/-- Only what waits of threads and units remember of a write differs. -/
def wakeWork (s u : State) : Prop :=
  (∃ q g, u = { s with seq := q, cache := { s.cache with got := g } }) ∧ Woken s u ∧ ∀ k, (thr s k).wait = none → thr u k = thr s k

theorem wakeWork_refl (s : State) : wakeWork s s := ⟨⟨_, _, rfl⟩, woken_of_same rfl rfl, fun _ _ => rfl⟩

theorem wakeWork_trans {s u v : State} (h1 : wakeWork s u) (h2 : wakeWork u v) : wakeWork s v := by
  obtain ⟨⟨_, _, rfl⟩, hw1, hn1⟩ := h1
  obtain ⟨⟨_, _, rfl⟩, hw2, hn2⟩ := h2
  refine ⟨⟨_, _, rfl⟩, hw1.trans hw2, fun k hk => ?_⟩
  rw [hn2 k (by rw [hn1 k hk]; exact hk), hn1 k hk]

theorem wakeWork_foldl (f : State → Nat → State) (hf : ∀ t a, wakeWork t (f t a)) (l : List Nat) (s : State) : wakeWork s (l.foldl f s) := by
  induction l generalizing s with
  | nil => exact wakeWork_refl s
  | cons a l ih => exact wakeWork_trans (hf s a) (ih _)

/-- Waking one thread's wait. -/
theorem wakeWork_modThr (s : State) (t : Nat) (w : Wait) (hw : (thr s t).wait = some w) (v : Wait) :
    wakeWork s (modThr s t fun x => { x with wait := some v }) := by
  refine ⟨⟨_, _, rfl⟩, ⟨fun k => ?_, ⟨_, rfl⟩, rfl⟩, fun k hk => ?_⟩
  · by_cases h : k = t
    · subst h
      exact ⟨some v, thr_modThr_self ..⟩
    · exact ⟨(thr s k).wait, by rw [thr_modThr_ne _ _ h]⟩
  · refine thr_modThr_ne _ _ fun h => ?_
    rw [h, hw] at hk
    cases hk

theorem wakeWork_got {g : List (Consumer × Nat × LineRes) → List (Consumer × Nat × LineRes)} (hg : ∀ l, unmarked (g l) = unmarked l) (s : State) :
    wakeWork s (s.onCache fun c => { c with got := g c.got }) := ⟨⟨_, _, rfl⟩, ⟨fun _ => ⟨_, rfl⟩, ⟨_, rfl⟩, hg _⟩, fun _ _ => rfl⟩

theorem unmarked_mark (line : Sa) (l : List (Consumer × Nat × LineRes)) :
    unmarked (l.map fun e => if e.2.2.line = line then (e.1, e.2.1, { e.2.2 with written := true }) else e) = unmarked l := by
  rw [unmarked, List.map_map]
  refine List.map_congr_left fun e _ => ?_
  dsimp only [Function.comp]
  split <;> rfl

/-- Only waits of threads, and what units remember of the line, change when a write wakes them. -/
theorem wakeWork_wakeWaits (line : Sa) (s : State) : wakeWork s (wakeWaits line s) := by
  have hgot : wakeWork s (s.onCache fun c => { c with got := c.got.map fun e =>
      if e.2.2.line = line then (e.1, e.2.1, { e.2.2 with written := true }) else e }) := wakeWork_got (unmarked_mark line) s
  unfold wakeWaits
  refine wakeWork_trans hgot (wakeWork_foldl _ (fun u t => ?_) _ _)
  split
  · split
    · exact wakeWork_modThr u t _ ‹_› _
    · exact wakeWork_refl u
  · exact wakeWork_refl u

theorem wrote_wakeWaits (key : Nat) (line : Sa) (s : State) :
    Wrote key s (wakeWaits line s) ∧ (wakeWaits line s).cache.data = s.cache.data ∧ (wakeWaits line s).atu = s.atu := by
  obtain ⟨⟨q, g, h⟩, hk, hw⟩ := wakeWork_wakeWaits line s
  generalize wakeWaits line s = u at h hk hw
  subst h
  exact ⟨⟨fun b hb => by cases b <;> first | rfl | simp at hb, ⟨_, _, _, _, rfl⟩, fun _ h => h, fun _ _ => rfl, rfl, rfl, hw, hk⟩, rfl,
    rfl⟩

/-- A line is stored, and the waits on it wake (R198 step 4, R271). -/
theorem wrote_store {key : Nat} {line : Sa} {d : BitVec 1024} {m : Meta} {s : State} (h : s.integ.injArm = false) :
    Wrote key s (wakeWaits line (storeLine key line d m s)) ∧
      (wakeWaits line (storeLine key line d m s)).cache.data = (setData s key d).cache.data ∧
      (wakeWaits line (storeLine key line d m s)).atu = s.atu := by
  obtain ⟨h1, h1d, h1a⟩ := wrote_storeLine key line d m h
  obtain ⟨h2, h2d, h2a⟩ := wrote_wakeWaits key line (storeLine key line d m s)
  exact ⟨h1.trans h2, h2d.trans h1d, h2a.trans h1a⟩

theorem wrote_calm {key : Nat} {s u : State} (h : Wrote key s u) : calm u = calm s := by
  obtain ⟨_, _, _, _, hc⟩ := h.cache
  have hb := h.frame .buf (by decide)
  have hb : u.buf = s.buf := hb
  rw [calm, calm, quiet, quiet, h.idle, hc, hb]

end Sys2Proof.Machine
end

section
/-! PROOFS. Atomics performed in the array (R174, R177). -/

namespace Sys2Proof.Machine

open Sys2Proof.Safety

theorem addlsIdle_setAtuHalf {s : State} {h : Half} {x : AtuHalf} (hw : x.waiting = (atuHalf s h).waiting) (hh : x.held = (atuHalf s h).held) :
    addlsIdle (setAtuHalf s h x) = addlsIdle s := by
  cases h <;> (simp only [atuHalf, Half.pick] at hw hh; simp [addlsIdle, setAtuHalf, hw, hh])

theorem wrote_setAtuHalf {key : Nat} {s : State} {h : Half} {x : AtuHalf} (hw : x.waiting = (atuHalf s h).waiting)
    (hh : x.held = (atuHalf s h).held) : Wrote key s (setAtuHalf s h x) :=
  wrote_of_same (by simp [setAtuHalf]) (addlsIdle_setAtuHalf hw hh)

theorem wrote_dropAtom (key : Nat) (h : Half) (id : Nat) (s : State) : Wrote key s (dropAtom h id s) := wrote_setAtuHalf rfl rfl

/-- An atomic's answer to its thread. -/
theorem answerAtom_thread {a : Atom} {t : ThreadId} {o : Nat} (hw : a.who = .thread t o) (h : Half) (old : Nat) (s : State) :
    ∃ u, onlyCounts s u ∧ answerAtom a h false old s = threadResult t o [atomReg a old] u := by
  refine ⟨countOps h 9 9 1 (cnt 0x020 (some h) (some a.part) 1 s), onlyCounts_trans (onlyCounts_cnt ..) (onlyCounts_countOps ..), ?_⟩
  unfold answerAtom
  rw [hw]
  rfl

/-- An atomic of a thread on a line without poison and without an armed injection. -/
theorem atuOnLine_thread {h : Half} {id key : Nat} {s : State} {a : Atom} {t : ThreadId} {o : Nat} (hf : findAtom s h id = some a)
    (hw : a.who = .thread t o) (hsp : (metaAt s key).sp = 0) (harm : s.integ.injArm = false) (hfit : a.off + a.n ≤ 128) :
    ∃ u, Wrote key s u ∧
      bytesStored key a.off a.n (atomNew a.kind a.n (lineField s key a.off a.n) (a.v.toNat % 2 ^ (8 * a.n)) (a.cmp.toNat % 2 ^ (8 * a.n))) s u ∧
      (atuHalf u h).atoms = (atuHalf s h).atoms.filter (fun b => !(b.id == id)) ∧
      atuOnLine h id key s = threadResult t o [atomReg a (lineField s key a.off a.n)] u := by
  have hfound : a.found (lineData s key) = lineField s key a.off a.n := lineData_part s key hfit
  have hp := wrote_prefEnded_if key (metaAt s key).pf h (metaAt s key).part true s
  have hpd : (if (metaAt s key).pf = true then prefEnded h (metaAt s key).part true s else s).cache.data = s.cache.data ∧
      (if (metaAt s key).pf = true then prefEnded h (metaAt s key).part true s else s).atu = s.atu := by
    split
    · simp [prefEnded, modLoopMem]
    · exact ⟨rfl, rfl⟩
  unfold atuOnLine
  dsimp only
  generalize (if (metaAt s key).pf = true then prefEnded h (metaAt s key).part true s else s) = x at hp hpd ⊢
  obtain ⟨hxd, hxa⟩ := hpd
  have hfx : findAtom x h id = some a := by
    rw [findAtom, atuHalf, hxa]
    exact hf
  have hax : (atuHalf x h).atoms = (atuHalf s h).atoms := by rw [atuHalf, hxa]; rfl
  rw [hfx]
  dsimp only
  rw [hsp, if_neg (by simp)]
  by_cases hr : a.reads (lineData s key) = true
  · rw [if_pos hr]
    simp only [Atom.reads, Bool.and_eq_true, decide_eq_true_eq, hfound] at hr
    obtain ⟨hk, h0⟩ := hr
    have h1 := (hp.trans (wrote_setMeta key (usedMeta (metaAt s key)) x)).trans (wrote_dropAtom key h id _)
    have h1d : (dropAtom h id (setMeta x key (usedMeta (metaAt s key)))).cache.data = x.cache.data := rfl
    have h1a : (atuHalf (dropAtom h id (setMeta x key (usedMeta (metaAt s key)))) h).atoms = (atuHalf x h).atoms.filter (fun b => !(b.id == id)) := by
      cases h <;> rfl
    generalize dropAtom h id (setMeta x key (usedMeta (metaAt s key))) = y at h1 h1d h1a ⊢
    obtain ⟨u, hu, he⟩ := answerAtom_thread hw h 0 y
    refine ⟨u, h1.trans (wrote_of_onlyCounts hu), ?_, ?_, ?_⟩
    · have hnew : atomNew a.kind a.n (lineField s key a.off a.n) (a.v.toNat % 2 ^ (8 * a.n)) (a.cmp.toNat % 2 ^ (8 * a.n)) =
          lineField s key a.off a.n := by rw [hk, h0]; rfl
      rw [hnew]
      refine bytesStored_same ?_
      obtain ⟨_, _, _, rfl⟩ := hu
      rw [h1d, hxd]
    · obtain ⟨_, _, _, rfl⟩ := hu
      exact h1a.trans (by rw [hax])
    · rw [he, h0]
  · rw [if_neg hr]
    have happ : atomApply a (lineData s key) = (mergeBytes (byteMask a.off a.n) (lineData s key) (BitVec.ofNat 1024
        (atomNew a.kind a.n (lineField s key a.off a.n) (a.v.toNat % 2 ^ (8 * a.n)) (a.cmp.toNat % 2 ^ (8 * a.n)) * 2 ^ (8 * a.off))),
        lineField s key a.off a.n) := by
      rw [← hfound]
      rfl
    rw [happ]
    dsimp only
    generalize atomNew a.kind a.n (lineField s key a.off a.n) (a.v.toNat % 2 ^ (8 * a.n)) (a.cmp.toNat % 2 ^ (8 * a.n)) = new
    obtain ⟨h2, h2d, h2a⟩ := wrote_store (key := key) (line := lineOf a.sa)
      (d := mergeBytes (byteMask a.off a.n) (lineData s key) (BitVec.ofNat 1024 (new * 2 ^ (8 * a.off))))
      (m := atuMeta (metaAt s key) (BitVec.ofNat 4 (2 ^ sectorOf a.sa))) (s := x) (hp.arm.trans harm)
    generalize wakeWaits (lineOf a.sa) _ = z at h2 h2d h2a ⊢
    have h3 := wrote_dropAtom key h id z
    have h3d : (dropAtom h id z).cache.data = z.cache.data := rfl
    have h3a : (atuHalf (dropAtom h id z) h).atoms = (atuHalf z h).atoms.filter (fun b => !(b.id == id)) := by cases h <;> rfl
    generalize dropAtom h id z = v at h3 h3d h3a ⊢
    obtain ⟨u, hu, he⟩ := answerAtom_thread hw h (lineField s key a.off a.n) v
    refine ⟨u, ((hp.trans h2).trans h3).trans (wrote_of_onlyCounts hu), ?_, ?_, he⟩
    · refine bytesStored_merge hfit ?_
      obtain ⟨_, _, _, rfl⟩ := hu
      rw [h3d, h2d, setData, setData]
      simp only [State.onCache, hxd]
    · obtain ⟨_, _, _, rfl⟩ := hu
      refine h3a.trans ?_
      rw [atuHalf, h2a, ← hax]
      rfl

/-! ## The activation (R177) -/

/-- A waiting operation whose activation is due is performed on the line that is there. -/
theorem settle_activation {s : State} {r : LineReq} {id key : Nat} (hm : Meets s r key) (hop : r.op = .atu id)
    (hgo : atuGo s r.home id = some true) (hn : noCopies s key = true) (hc : calm (atuOnLine r.home id key s) = true) :
    onlyCounts (atuOnLine r.home id key s) (settle (requeue r s)) := by
  have hline : atLine r key s = (true, atuOnLine r.home id key s) := by
    unfold atLine
    dsimp only
    rw [hop]
    dsimp only
    rw [hgo]
    dsimp only
    rw [needInv_of_noCopies hn, if_neg (by simp), if_pos rfl]
  obtain ⟨h1, h2, -⟩ := tryReq_meets hm
  rw [hline] at h1 h2
  have h3 : onlyCounts (atuOnLine r.home id key s) (tryReq r s).2 := h2 rfl
  rw [settle_done hm.calm (u := (tryReq r s).2) (Prod.ext h1 rfl) ((onlyCounts_calm h3).trans hc)]
  exact h3

/-- A state with one waiting request is that request in the state without. -/
theorem requeue_alone {s : State} {r : LineReq} (h : s.cache.blocked = [r]) : requeue r (s.onCache fun c => { c with blocked := [] }) = s := by
  have hc : ({ s.cache with blocked := [] ++ [r] } : Cache) = s.cache := by
    rw [List.nil_append, ← h]
  exact congrArg (fun c : Cache => { s with cache := c }) hc

theorem findAtom_putAtom {s : State} {h : Half} {id : Nat} {a b : Atom} (hf : findAtom s h id = some a) (hb : b.id = a.id) :
    findAtom (putAtom h b s) h id = some b := by
  have hs : ∀ l : List Atom, l.find? (fun x => x.id == id) = some a → (l.map fun x => if x.id = b.id then b else x).find? (fun x => x.id == id) = some b := by
    intro l
    induction l with
    | nil => simp
    | cons x l ih =>
      intro hl
      rw [List.find?_cons] at hl
      rw [List.map_cons, List.find?_cons]
      by_cases hx : x.id = id
      · have : (x.id == id) = true := by simpa using hx
        rw [this] at hl
        obtain rfl : x = a := by simpa using hl
        rw [if_pos hb.symm]
        simp [hb, hx]
      · have hxb : (x.id == id) = false := by simpa using hx
        rw [hxb] at hl
        have haid : a.id = id := by simpa using List.find?_some hl
        rw [if_neg (by rw [hb, haid]; exact hx), hxb]
        exact ih hl
  cases h <;> exact hs _ hf

/-! ## Values (R174, R261) -/

/-- The value of n bytes as a signed number. -/
theorem toInt_ofNat {n y : Nat} (hn : 0 < n) (h : y < 2 ^ (8 * n)) :
    (BitVec.ofNat (8 * n) y).toInt = if y < 2 ^ (8 * n - 1) then (y : Int) else (y : Int) - 2 ^ (8 * n) := by
  have hpow : 2 ^ (8 * n) = 2 * 2 ^ (8 * n - 1) := by
    rw [← Nat.pow_succ', show (8 * n - 1).succ = 8 * n by omega]
  rw [BitVec.toInt_eq_toNat_cond, BitVec.toNat_ofNat, Nat.mod_eq_of_lt h]
  refine if_congr ?_ rfl (by push_cast; rfl)
  omega

/-- R174's new value. -/
def atomValue (k : AtomKind) (n old v cmp : Nat) : Nat :=
  let signed (y : Nat) : Int := (BitVec.ofNat (8 * n) y).toInt
  match k with
  | .add => (old + v) % 2 ^ (8 * n)
  | .cas => if old = cmp then v else old
  | .swp => v
  | .min sg => if (if sg then decide (signed v < signed old) else decide (v < old)) then v else old
  | .max sg => if (if sg then decide (signed old < signed v) else decide (old < v)) then v else old
  | .semw => old - 1

theorem atomNew_eq (k : AtomKind) {n old v : Nat} (cmp : Nat) (hn : 0 < n) (ho : old < 2 ^ (8 * n)) (hv : v < 2 ^ (8 * n)) :
    atomNew k n old v cmp = atomValue k n old v cmp := by
  cases k with
  | add => rfl
  | cas => rfl
  | swp => rfl
  | min sg => cases sg <;> simp [atomNew, atomValue, toInt_ofNat hn ho, toInt_ofNat hn hv]
  | max sg => cases sg <;> simp [atomNew, atomValue, toInt_ofNat hn ho, toInt_ofNat hn hv]
  | semw =>
    show (if old = 0 then 0 else old - 1) = old - 1
    split <;> omega

/-- R261's register for a signed minimum or maximum. -/
theorem signExtend_ofNat {n old : Nat} (hn : 0 < n) (h : old < 2 ^ (8 * n)) :
    (BitVec.ofNat (8 * n) old).signExtend 64 =
      if 2 ^ (8 * n - 1) ≤ old then BitVec.ofNat 64 old - BitVec.ofNat 64 (2 ^ (8 * n)) else BitVec.ofNat 64 old := by
  rw [BitVec.signExtend, toInt_ofNat hn h]
  by_cases hs : old < 2 ^ (8 * n - 1)
  · rw [if_pos hs, if_neg (by omega), BitVec.ofInt_natCast]
  · rw [if_neg hs, if_pos (by omega)]
    have : ((2 : Int) ^ (8 * n)) = ((2 ^ (8 * n) : Nat) : Int) := by push_cast; rfl
    rw [this, Int.sub_eq_add_neg, BitVec.ofInt_add, BitVec.ofInt_neg, BitVec.ofInt_natCast, BitVec.ofInt_natCast, ← BitVec.sub_eq_add_neg]

/-- gd of a thread's atomic. -/
def atomValueReg (k : AtomKind) (n old : Nat) : BitVec 64 :=
  match k with
  | .min true => (BitVec.ofNat (8 * n) old).signExtend 64
  | .max true => (BitVec.ofNat (8 * n) old).signExtend 64
  | _ => BitVec.ofNat 64 old

theorem atomReg_eq {a : Atom} {old : Nat} (hn : 0 < a.n) (h : old < 2 ^ (8 * a.n)) : atomReg a old = atomValueReg a.kind a.n old := by
  have hsign := signExtend_ofNat hn h
  unfold atomReg atomValueReg
  cases a.kind with
  | min sg => cases sg <;> simp [hsign]
  | max sg => cases sg <;> simp [hsign]
  | _ => simp

/-! ## The obligation -/

/-- Settles O13. -/
theorem atomicsPerformed : Obligations.AtomicsPerformed := by
  unfold Obligations.AtomicsPerformed
  intro h k s a r t id o hk hfind hwho hgo huniq hblocked hcalm hdom hdam hop hrsa hrhome hbuf hclean hno hsp harm hwait ho hoid houniq n off hal
    key old v signed new reg
  have he : exec (.atomicPerform h k) s = execAtomicPerform h k s := rfl
  rw [execAtomicPerform, hk] at he
  dsimp only at he
  have hn : 0 < ({ a with go := true } : Atom).n := by
    show 0 < (if a.wide then 8 else 4)
    split <;> decide
  have hfit : ({ a with go := true } : Atom).off + ({ a with go := true } : Atom).n ≤ 128 := by
    show field a.sa.toNat 0 7 + n ≤ 128
    rw [field_low]
    have hn8 : n = 4 ∨ n = 8 := by
      show (if a.wide then 8 else 4) = 4 ∨ (if a.wide then 8 else 4) = 8
      cases a.wide <;> simp
    rcases hn8 with h4 | h4 <;> rw [h4] at hal ⊢ <;> omega
  obtain ⟨s0, hs0⟩ : ∃ s0, s0 = putAtom h { a with go := true } (s.onCache fun c => { c with blocked := [] }) := ⟨_, rfl⟩
  have hreq : putAtom h { a with go := true } s = requeue r s0 := by
    rw [hs0, ← requeue_alone hblocked]
    cases h <;> rfl
  have hcache : s0.cache = { s.cache with blocked := [] } := by
    rw [hs0]
    cases h <;> rfl
  have hframe : changesOnly [.cache, .atu] s s0 := by
    rw [hs0]
    simp [putAtom, setAtuHalf]
  have hidle : addlsIdle s0 = addlsIdle s := by
    rw [hs0]
    exact addlsIdle_setAtuHalf rfl rfl
  have hmeta (j : Nat) : metaAt s0 j = metaAt s j := by
    rw [hs0]
    cases h <;> rfl
  have hm : Meets s0 r key := by
    refine ⟨?_, ?_, ?_, ?_, .inl ⟨by rw [hrsa]; exact hbuf, by rw [hrsa]⟩⟩
    · rw [← hcalm]
      have hb : s0.buf = s.buf := hframe .buf (by decide)
      rw [calm, calm, quiet, quiet, hcache, hidle, hb]
      rfl
    · rw [rowClean, hcache]
      exact hclean
    · rw [hrhome, domRuns, domSt, hframe .pwr (by decide)]
      exact hdom
    · rw [hframe .tables (by decide)]
      exact hdam
  have hfind0 : findAtom s0 h a.id = some { a with go := true } := by
    rw [hs0]
    refine findAtom_putAtom (a := a) ?_ rfl
    exact hfind
  have hgo0 : atuGo s0 r.home a.id = some true := by rw [hrhome, atuGo, hfind0]
  have hno0 : noCopies s0 key = true := by rw [noCopies, hmeta]; exact hno
  have hfield : lineField s0 key = lineField s key := by
    funext i j
    rw [lineField, hcache]
    rfl
  obtain ⟨x, hx, hbytes, hatoms, honline⟩ := atuOnLine_thread (key := key) hfind0 hwho (by rw [hmeta]; exact hsp)
    (by rw [hframe .integ (by decide)]; exact harm) hfit
  have hthr : thr x t.val = thr s t.val := by
    have h0 : thr s0 t.val = thr s t.val := thr_congr (hframe .seq (by decide)) _
    rw [hx.waits t.val (by rw [h0]; exact hwait), h0]
  have hset := settle_activation hm hop hgo0 hno0 (by
    rw [hrhome, honline]
    exact (seqWork_calm (seqWork_modThr ..)).trans ((wrote_calm hx).trans hm.calm))
  rw [hrhome, honline, ← hreq] at hset
  have holdlt : lineField s key ({ a with go := true } : Atom).off ({ a with go := true } : Atom).n < 2 ^ (8 * ({ a with go := true } : Atom).n) := by
    rw [lineField, two_pow_eight_mul]
    exact memRead_lt ..
  rw [hfield] at hbytes hset
  rw [atomNew_eq _ _ hn holdlt (Nat.mod_lt _ (by positivity))] at hbytes
  rw [atomReg_eq hn holdlt] at hset
  change bytesStored key (field a.sa.toNat 0 7) n (atomValue a.kind n (lineField s key (field a.sa.toNat 0 7) n) v (a.cmp.toNat % 2 ^ (8 * n))) s0 x at hbytes
  change onlyCounts (threadResult t id [atomValueReg a.kind n (lineField s key (field a.sa.toNat 0 7) n)] x) _ at hset
  rw [field_low] at hbytes hset
  generalize settle (putAtom h { a with go := true } s) = u at he hset
  have hself := thr_threadResult t id [atomValueReg a.kind n old] x
  obtain ⟨_, _, _, hu⟩ := hset
  have hut : thr u t.val = thr (threadResult t id [atomValueReg a.kind n old] x) t.val := by rw [hu]; rfl
  have huc : u.cache = x.cache := by rw [hu]; rfl
  have hua : u.atu = x.atu := by rw [hu]; rfl
  rw [hself, hthr] at hut
  refine completesWith_answer he ⟨?_, ?_, { o with result := some [atomValueReg a.kind n old] }, ?_, hoid, rfl, rfl⟩
  · obtain ⟨h1, h2⟩ := hbytes
    refine ⟨fun i hi => ?_, fun b hb => ?_⟩
    · show memByte u.cache.data _ = _
      rw [huc]
      exact h1 i hi
    · show memByte u.cache.data _ = _
      rw [huc, h2 b hb, hcache]
  · intro b hb
    have hb' : b ∈ (atuHalf u h).atoms := hb
    rw [atuHalf, hua] at hb'
    have := (List.mem_filter.mp (hatoms ▸ hb' : b ∈ (atuHalf s0 h).atoms.filter fun b => !(b.id == a.id))).2
    simpa using this
  · rw [thr_answered, hut]
    exact List.mem_map.mpr ⟨o, ho, if_pos hoid⟩

end Sys2Proof.Machine
end

section
/-! PROOFS. Adding to a line (R178 to R187, R262). -/

namespace Sys2Proof.Machine

open Sys2Proof.Safety

/-! ## Values stacked in a line -/

/-- Values of w bits, one above the other. -/
def stack (w : Nat) (f : Nat → Nat) : Nat → Nat
  | 0 => 0
  | n + 1 => stack w f n + f n * 2 ^ (w * n)

theorem stack_lt {w : Nat} {f : Nat → Nat} (h : ∀ i, f i < 2 ^ w) (n : Nat) : stack w f n < 2 ^ (w * n) := by
  induction n with
  | zero => simp [stack]
  | succ n ih =>
    have hle : f n * 2 ^ (w * n) + 2 ^ (w * n) ≤ 2 ^ w * 2 ^ (w * n) := by
      rw [← Nat.succ_mul]
      exact Nat.mul_le_mul_right _ (h n)
    rw [stack, Nat.mul_succ, Nat.add_comm (w * n) w, Nat.pow_add]
    omega

/-- Each of the values can be taken out again. -/
theorem stack_part {w : Nat} {f : Nat → Nat} (h : ∀ i, f i < 2 ^ w) {i n : Nat} (hi : i < n) :
    stack w f n / 2 ^ (w * i) % 2 ^ w = f i := by
  induction n with
  | zero => exact absurd hi (by omega)
  | succ n ih =>
    rw [stack]
    by_cases hn : i = n
    · subst hn
      rw [Nat.add_mul_div_right _ _ (by positivity), Nat.div_eq_of_lt (stack_lt h i), Nat.zero_add, Nat.mod_eq_of_lt (h i)]
    · have hpow : 2 ^ (w * n) = 2 ^ (w * i) * (2 ^ w * 2 ^ (w * (n - i - 1))) := by
        rw [← Nat.pow_add, ← Nat.pow_add]
        congr 1
        obtain ⟨k, rfl⟩ := Nat.exists_eq_add_of_lt (show i < n by omega)
        rw [show i + k + 1 - i - 1 = k by omega]
        ring
      rw [hpow, show f n * (2 ^ (w * i) * (2 ^ w * 2 ^ (w * (n - i - 1)))) = 2 ^ (w * i) * (2 ^ w * (f n * 2 ^ (w * (n - i - 1)))) by ring,
        Nat.add_mul_div_left _ _ (by positivity), Nat.add_mul_mod_self_left]
      exact ih (by omega)

theorem stack_eq_sum (w : Nat) (f : Nat → Nat) (n : Nat) : ((List.range n).map fun i => f i * 2 ^ (w * i)).sum = stack w f n := by
  induction n with
  | zero => rfl
  | succ n ih => rw [List.range_succ, List.map_append, List.sum_append, ih]; simp [stack]

/-- Register i of the group that a line is stored from (R258, R262). -/
theorem groupLine_part (th : Thread) (b : BitVec 5) {i : Nat} (hi : i < 16) :
    (groupLine th b).extractLsb' (64 * i) 64 = gReg th (b.toNat + i) := by
  have hlt : ∀ j, (gReg th (b.toNat + j)).toNat < 2 ^ 64 := fun j => (gReg th (b.toNat + j)).isLt
  apply BitVec.eq_of_toNat_eq
  rw [groupLine, stack_eq_sum, BitVec.extractLsb'_toNat, BitVec.toNat_ofNat, Nat.mod_eq_of_lt (stack_lt hlt 16), Nat.shiftRight_eq_div_pow]
  exact stack_part hlt hi

/-! ## The integer sums (R180) -/

theorem addlElems_int {fmt w : Nat} (h : ∀ m p, addlElem fmt m p = ((m + p) % 2 ^ w, FpFlags.none)) (line payload n : Nat) :
    (addlElems fmt w line payload n).1 = stack w (fun i => (field line (w * i) w + field payload (w * i) w) % 2 ^ w) n := by
  induction n with
  | zero => rfl
  | succ n ih =>
    rw [addlElems, stack]
    dsimp only
    rw [ih, h]

/-- Element i of a line to which integers of w bits have been added. -/
theorem addlLine_int {fmt w b : Nat} (hw : addlWidth fmt = some w) (h : ∀ m p, addlElem fmt m p = ((m + p) % 2 ^ w, FpFlags.none)) (hb : w = 8 * b)
    (hdvd : w * (1024 / w) = 1024) {s u : State} {key : Nat} {d : BitVec 1024} (hu : lineData u key = (addlLine fmt (lineData s key) d).1)
    {i : Nat} (hi : i < 1024 / w) : lineField u key (b * i) b = (lineField s key (b * i) b + d.toNat / 2 ^ (w * i) % 2 ^ w) % 2 ^ w := by
  have hfit : b * i + b ≤ 128 := by
    have h1 : w * i + w ≤ 1024 := by
      calc w * i + w = w * (i + 1) := by ring
        _ ≤ w * (1024 / w) := Nat.mul_le_mul_left _ hi
        _ = 1024 := hdvd
    rw [hb] at h1
    nlinarith
  have hlt : ∀ j, (field (lineData s key).toNat (w * j) w + field d.toNat (w * j) w) % 2 ^ w < 2 ^ w := fun j => Nat.mod_lt _ (by positivity)
  have hline : (lineData u key).toNat = stack w (fun i => (field (lineData s key).toNat (w * i) w + field d.toNat (w * i) w) % 2 ^ w) (1024 / w) := by
    have hs := stack_lt hlt (1024 / w)
    rw [hdvd] at hs
    rw [hu, addlLine, hw]
    dsimp only
    rw [addlElems_int h, BitVec.toNat_ofNat, Nat.mod_eq_of_lt hs]
  have hwi : w * i = 8 * (b * i) := by rw [hb]; ring
  rw [← lineData_part u key hfit, hline, ← hwi, ← hb, stack_part hlt hi, ← lineData_part s key hfit, ← hwi, ← hb]
  rfl

/-! ## Acceptance (R182, R183) -/

theorem metaAt_congr {s u : State} (hc : u.cache = s.cache) (ht : u.tables = s.tables) (key : Nat) : metaAt u key = metaAt s key := by
  rw [metaAt, metaAt, metaDefault, metaDefault, region, region, hc, ht]

/-- What a request meets is a matter of the cache, the tables, the domains and of what waits. -/
theorem Meets.of_same {s u : State} {r : LineReq} {key : Nat} (h : Meets s r key) (hc : u.cache = s.cache) (ht : u.tables = s.tables)
    (hp : u.pwr = s.pwr) (hcalm : Safety.calm u = true) : Meets u r key := by
  have hmeta := metaAt_congr hc ht
  have hgt (x : Half) (i : Nat) : gtLive u x i = gtLive s x i := by simp only [gtLive, gtEnt, region, ht]
  have hfind (k tag : Nat) : findWay u k tag = findWay s k tag := by simp only [findWay, hmeta]
  have hrow : replicaRow u r = replicaRow s r := by simp only [replicaRow, hgt, hc]
  have hinv (k : Nat) : invBusy u k = invBusy s k := by rw [invBusy, hc]; rfl
  have hrep : replicaKey u r = replicaKey s r := by
    simp only [replicaKey, hrow, hfind, hmeta, hinv]
  obtain ⟨-, h2, h3, h4, h5⟩ := h
  refine ⟨hcalm, by rw [rowClean, hc]; exact h2, by rw [domRuns, domSt, hp]; exact h3, by rw [ht]; exact h4, ?_⟩
  rw [hrow, hrep, uncachedBusy, hc]
  simp only [hgt, hfind, hmeta, rowClean, hc]
  exact h5

/-- A single waiting operation whose activation is not due waits on. -/
theorem settle_unripe {s : State} {r : LineReq} {id key : Nat} (hb : s.cache.blocked = [r])
    (hm : Meets (s.onCache fun c => { c with blocked := [] }) r key) (hop : r.op = .atu id) (hgo : atuGo s r.home id = some false)
    (hn : noCopies s key = true) : settle s = s := by
  have hline : atLine r key (s.onCache fun c => { c with blocked := [] }) = (false, s.onCache fun c => { c with blocked := [] }) :=
    atLine_waits hop hgo hn
  obtain ⟨h1, -, h3⟩ := tryReq_meets hm
  rw [hline] at h1 h3
  have hw := settle_waits hm.calm (Prod.ext h1 (h3 rfl))
  rw [requeue_alone hb] at hw
  exact hw

/-- The ADDL that an acceptance puts into its queue. -/
def newAddl (fmt : BitVec 4) (line : Sa) (d : BitVec 1024) (p : Part) (arrival : Half) (master : Nat) (s : State) : Addl :=
  { id := s.atu.ids, fmt := fmt, line := line, data := d, part := p, arrival := arrival, master := master, ctx := none, copy := .idle, go := false }

/-- An untagged ADDL is accepted: it stands in its half's queue, its request waits alone, and nothing else differs but counts. -/
structure AddlTaken (home : Half) (a : Addl) (s u : State) : Prop where
  frame : changesOnly [.cnt, .bwr, .tst, .atu, .cache] s u
  cache : ∃ r : LineReq, u.cache = { s.cache with blocked := [r] } ∧ r.op = .atu a.id ∧ r.home = home ∧
    ∀ key, Meets s (atuReq a.id a.line a.part a.arrival home a.master s) key → Meets s r key
  queue : (atuHalf u home).queue = (atuHalf s home).queue ++ [a]
  atoms : (atuHalf u home).atoms = (atuHalf s home).atoms
  idle : addlsIdle u = addlsIdle s
  ids : a.id = s.atu.ids

/-- The state with an ADDL in its half's queue, before its request is accepted. -/
def withAddl (home : Half) (a : Addl) (s : State) : State :=
  let t := s.onAtu fun x => { x with ids := x.ids + 1 }
  setAtuHalf t home { atuHalf t home with queue := (atuHalf t home).queue ++ [a] }

theorem pushAddl_eq (home : Half) (fmt : BitVec 4) (line : Sa) (d : BitVec 1024) (p : Part) (arrival : Half) (master : Nat) (s : State) :
    pushAddl home fmt line d p arrival master none s =
      enqueue (atuReq s.atu.ids line p arrival home master s) (withAddl home (newAddl fmt line d p arrival master s) s) := by
  cases home <;> rfl

theorem withAddl_spec (home : Half) (a : Addl) (s : State) :
    changesOnly [.atu] s (withAddl home a s) ∧ (atuHalf (withAddl home a s) home).queue = (atuHalf s home).queue ++ [a] ∧
      (atuHalf (withAddl home a s) home).atoms = (atuHalf s home).atoms ∧ addlsIdle (withAddl home a s) = addlsIdle s := by
  refine ⟨by simp [withAddl, setAtuHalf], ?_, ?_, ?_⟩ <;> cases home <;> rfl

theorem addlTaken_push {s : State} (hb : s.cache.blocked = []) (fmt : BitVec 4) (line : Sa) (d : BitVec 1024) (p : Part) (arrival home : Half)
    (master : Nat) {x : State} (hx : onlyCounts s x) (e : Nat) (h : Option Half) (q : Option Part) (k : Nat) :
    AddlTaken home (newAddl fmt line d p arrival master s) s (cnt e h q k (pushAddl home fmt line d p arrival master none x)) := by
  have hids : x.atu.ids = s.atu.ids := by
    obtain ⟨_, _, _, rfl⟩ := hx
    rfl
  have hnew : newAddl fmt line d p arrival master x = newAddl fmt line d p arrival master s := by rw [newAddl, hids, newAddl]
  have hreq : atuReq s.atu.ids line p arrival home master x = atuReq s.atu.ids line p arrival home master s := by
    obtain ⟨_, _, _, rfl⟩ := hx
    rfl
  have hxf : changesOnly [.cnt, .bwr, .tst] s x := by
    obtain ⟨_, _, _, rfl⟩ := hx
    exact fun b hb => by cases b <;> first | rfl | simp at hb
  rw [pushAddl_eq, hids, hnew, hreq]
  obtain ⟨a, ha⟩ : ∃ a, a = newAddl fmt line d p arrival master s := ⟨_, rfl⟩
  rw [← ha]
  obtain ⟨w1, w2, w3, w4⟩ := withAddl_spec home a x
  have hwx : changesOnly [.atu] x (withAddl home a x) := w1
  generalize withAddl home a x = y at w1 w2 w3 w4 hwx ⊢
  obtain ⟨u, hu, he⟩ := enqueue_counts (atuReq s.atu.ids line p arrival home master s) y
  have hux : onlyCounts (requeue (atuReq s.atu.ids line p arrival home master s) u)
    (cnt e h q k (enqueue (atuReq s.atu.ids line p arrival home master s) y)) := by
    rw [he]
    exact onlyCounts_cnt ..
  generalize cnt e h q k (enqueue (atuReq s.atu.ids line p arrival home master s) y) = v at hux ⊢
  have hxa : ∀ j, atuHalf x j = atuHalf s j := by
    obtain ⟨_, _, _, rfl⟩ := hx
    exact fun _ => rfl
  have hxi : addlsIdle x = addlsIdle s := by
    obtain ⟨_, _, _, rfl⟩ := hx
    rfl
  have hya : v.atu = y.atu := by
    obtain ⟨_, _, _, rfl⟩ := hu
    obtain ⟨_, _, _, rfl⟩ := hux
    rfl
  have hyc : v.cache = { y.cache with blocked := y.cache.blocked ++ [atuReq s.atu.ids line p arrival home master s] } := by
    obtain ⟨_, _, _, rfl⟩ := hu
    obtain ⟨_, _, _, rfl⟩ := hux
    rfl
  have hyf : changesOnly [.cnt, .bwr, .tst, .cache] y v := by
    obtain ⟨_, _, _, rfl⟩ := hu
    obtain ⟨_, _, _, rfl⟩ := hux
    exact fun b hb => by cases b <;> first | rfl | simp at hb
  have hyx : y.cache = s.cache := (hwx .cache (by decide)).trans (hxf .cache (by decide))
  have hhalf : atuHalf v home = atuHalf y home := by rw [atuHalf, hya]; rfl
  refine ⟨changesOnly_trans (changesOnly_mono hxf (by decide)) (changesOnly_trans (changesOnly_mono hwx (by decide)) (changesOnly_mono hyf (by decide))),
    ⟨atuReq s.atu.ids line p arrival home master s, ?_, ?_, rfl, ?_⟩, ?_, ?_, ?_, ?_⟩
  · rw [hyc, hyx, hb, List.nil_append]
  · rw [ha]
    rfl
  · rw [ha]
    exact fun _ h => h
  · rw [hhalf, w2, hxa]
  · rw [hhalf, w3, hxa]
  · rw [← hxi, ← w4, addlsIdle, addlsIdle, hya]
  · rw [ha]
    rfl

theorem decideAddl_plain {fmt : BitVec 4} {line : Sa} {d : BitVec 1024} {p : Part} {arrival home : Half} {master : Nat} {s : State}
    (hroom : (atuHalf s home).queue.length < 256) (hb : s.cache.blocked = []) :
    (decideAddl fmt 0 line d p arrival home master s).1 = some stOk ∧
      AddlTaken home (newAddl fmt line d p arrival master s) s (decideAddl fmt 0 line d p arrival home master s).2 := by
  have hfull : queueFull s home = false := by simp [queueFull, hroom]
  have hch := onlyCounts_charge home (some master) s
  unfold decideAddl
  dsimp only
  simp only [hfull, Bool.false_eq_true, if_false, eq_self, if_true]
  refine ⟨trivial, ?_⟩
  exact addlTaken_push hb fmt line d p arrival home master hch ..

/-- An accepted ADDL waits for its activation, whatever threads and links do in the meantime. -/
theorem AddlTaken.settles {home : Half} {a : Addl} {s u v : State} {key : Nat} (h : AddlTaken home a s u) (hgo : a.go = false)
    (hl : lineHere s (.atu 0) a.line a.part a.arrival home key = true) (hn : noCopies s key = true) (hfa : findAtom s home s.atu.ids = none)
    (hfd : findAddl s home s.atu.ids = none) (hc : v.cache = u.cache) (hv : changesOnly [.cnt, .bwr, .tst, .seq, .links] u v) : settle v = v := by
  obtain ⟨r, hr, hop, hhome, hmeets⟩ := h.cache
  have hcalm : calm s = true := (meets_of_lineHere hl).calm
  have hv' : changesOnly [.cnt, .bwr, .tst, .seq, .links, .atu, .cache] s v :=
    changesOnly_trans (changesOnly_mono h.frame (by decide)) (changesOnly_mono hv (by decide))
  have hatu : v.atu = u.atu := hv .atu (by decide)
  have hnil : s.cache.blocked = [] := (calm_iff.mp hcalm).1
  have hcache : (v.onCache fun c => { c with blocked := [] }).cache = s.cache := by
    show ({ v.cache with blocked := [] } : Cache) = s.cache
    rw [hc, hr]
    exact Cache.blocked_nil hnil
  have hm : Meets (v.onCache fun c => { c with blocked := [] }) r key := by
    refine (hmeets key (meets_atuReq hl a.id a.master)).of_same hcache (hv' .tables (by decide)) (hv' .pwr (by decide)) ?_
    rw [← hcalm]
    have hb : v.buf = s.buf := hv' .buf (by decide)
    have hi : addlsIdle v = addlsIdle s := by rw [← h.idle, addlsIdle, addlsIdle, hatu]
    rw [calm, calm, quiet, quiet, hcache, ← hi]
    show (_ && v.buf.frees.isEmpty) = _
    rw [hb]
    rfl
  refine settle_unripe (by rw [hc, hr]) hm hop ?_ ?_
  · have hatoms : findAtom v r.home a.id = none := by
      have : atuHalf v home = atuHalf u home := by rw [atuHalf, hatu]; rfl
      rw [hhome, findAtom, this, h.atoms, h.ids]
      exact hfa
    have hqueue : findAddl v r.home a.id = some a := by
      have : atuHalf v home = atuHalf u home := by rw [atuHalf, hatu]; rfl
      have hnone : (atuHalf s home).queue.find? (fun b => b.id == a.id) = none := by
        rw [h.ids]
        exact hfd
      rw [hhome, findAddl, this, h.queue, List.find?_append, hnone]
      simp
    rw [atuGo, hatoms]
    dsimp only
    rw [hqueue]
    exact congrArg some hgo
  · have hmeta : metaAt v key = metaAt s key := metaAt_congr (s := s) (u := v.onCache fun c => { c with blocked := [] }) hcache (hv' .tables (by decide)) key
    rw [noCopies, hmeta]
    exact hn

/-- An ADDL of a thread on a line that is there (R262). -/
theorem addl_completes {t : ThreadId} {f : TFields} {s : State} {x : Space} {sa : Sa} {key : Nat}
    (hi : issues t (f.d.toNat :: f.a.toNat :: f.c.toNat :: groupRegs f.b) s) (hc : standsAt t (.addl t f) s)
    (hl : (groupOk f.b && (addlWidth f.v.toNat).isSome && (f.c != 0 || f.d == 0)) = true) (hfc : f.c = 0)
    (hr : reachesAt t (effAddr (thr (fetched t s) t.val) f) 128 Rights.atom 2 noDev x sa (fetched t s)) {s2 : State}
    (hs2 : reached t (effAddr (thr (fetched t s) t.val) f) Rights.atom 2 noDev (fetched t s) = s2)
    (hlen : (thr (fetched t s) t.val).outs.length < 16) (hroom : (atuHalf s2 (x.home t.val)).queue.length < 256)
    (hh : lineHere s2 (.atu 0) sa (thr (fetched t s) t.val).part (thrHalf t.val) (x.home t.val) key = true) (hn : noCopies s2 key = true)
    (hfa : findAtom s2 (x.home t.val) s2.atu.ids = none) (hfd : findAddl s2 (x.home t.val) s2.atu.ids = none) :
    ∃ u, exec (.addl t f) s = answer s (retire t Thread.next u) ∧
      AddlTaken (x.home t.val) (newAddl f.v sa (groupLine (thr (fetched t s) t.val) f.b) (thr (fetched t s) t.val).part (thrHalf t.val)
        (thrMaster s2 t.val) s2) s2 u := by
  have hthr : ∀ k, thr s2 k = thr (fetched t s) k := fun k => by rw [← hs2, thr_reached]
  have hfull : outsFull s2 t = false := outsFull_of_lt (by rw [hthr]; exact hlen)
  have he : exec (.addl t f) s = execAddl t f s := rfl
  rw [execAddl, hl, instr_issues 0 _ hi hc] at he
  rw [access_reaches hr, hs2, hfull] at he
  simp only [Bool.false_eq_true, if_false, addlIssue, hfc, bne_self_eq_false, false_and] at he
  obtain ⟨hst, htaken⟩ := decideAddl_plain (fmt := f.v) (line := sa) (d := groupLine (thr (fetched t s) t.val) f.b)
    (p := (thr (fetched t s) t.val).part) (arrival := thrHalf t.val) (master := thrMaster s2 t.val) hroom
    (calm_iff.mp (meets_of_lineHere hh).calm).1
  rw [hst] at he
  generalize decideAddl _ _ _ _ _ _ _ _ _ = r at he htaken
  refine ⟨r.2, ?_, htaken⟩
  rw [he]
  have hf := (retire_frame t Thread.next r.2).1
  exact congrArg (answer s) (htaken.settles rfl hh hn hfa hfd (hf .cache (by decide)) (changesOnly_mono hf (by decide)))

/-- A partner's ADDL on a line that is there (R182). -/
theorem linkAddl_completes {m : PHdr} {fmt : BitVec 3} {data : BitVec 1024} {s : State} {h : Half} {key : Nat}
    (hopen : portOpen s m.port.val = true) (hcls : m.cls ≠ 0) (hal : m.sa.toNat % 128 = 0) (hm : memHome m Rights.atom m.sa s = .ok h)
    (hfmt : fmt.toNat < 5) (hroom : (atuHalf s h).queue.length < 256)
    (hh : lineHere s (.atu 0) m.sa m.part (portHalf m.port.val) h key = true) (hn : noCopies s key = true)
    (hfa : findAtom s h s.atu.ids = none) (hfd : findAddl s h s.atu.ids = none) :
    ∃ u x, exec (.linkAddl m fmt 0 data) s = answer s (sendFrame m.port.val (rsp m 0 false []) x) ∧ Took u x ∧
      AddlTaken h (newAddl (fmt.setWidth 4) m.sa data m.part (portHalf m.port.val) m.port.val s) s u := by
  have he : exec (.linkAddl m fmt 0 data) s = answer s (partnerHeld m (addlReq m fmt 0 data) s) := rfl
  have hclass : ¬ classMax m.cls < (16 + 128 + 61) / 62 := by
    have hall : ∀ c : Fin 4, c ≠ 0 → ¬ classMax c < (16 + 128 + 61) / 62 := by decide
    exact hall _ hcls
  have hwidth : (addlWidth fmt.toNat).isNone = false := by
    have hall : ∀ n : Fin 5, (addlWidth n.val).isNone = false := by decide
    exact hall ⟨_, hfmt⟩
  have hcalm := (meets_of_lineHere hh).calm
  have hwaiting : (atuHalf s h).waiting.isEmpty = true := by
    obtain ⟨-, -, -, -, ha, -⟩ := calm_iff.mp hcalm
    simp only [addlsIdle, Bool.and_eq_true] at ha
    obtain ⟨⟨⟨h1, h2⟩, -⟩, -⟩ := ha
    cases h
    · exact h1
    · exact h2
  rw [partnerHeld, if_neg (by simp [hopen]), if_neg hclass] at he
  unfold addlReq at he
  dsimp only at he
  rw [if_neg (by simp [hal]), hm] at he
  dsimp only at he
  rw [hwidth, if_neg (by decide), hwaiting, if_neg (by decide)] at he
  obtain ⟨hst, htaken⟩ := decideAddl_plain (fmt := fmt.setWidth 4) (line := m.sa) (d := data) (p := m.part) (arrival := portHalf m.port.val)
    (home := h) (master := m.port.val) hroom (calm_iff.mp hcalm).1
  change (decideAddl (fmt.setWidth 4) 0 m.sa data m.part (hdrHalf m) h m.port.val s).1 = _ at hst
  change AddlTaken h _ s (decideAddl (fmt.setWidth 4) 0 m.sa data m.part (hdrHalf m) h m.port.val s).2 at htaken
  rw [hst] at he
  generalize decideAddl (fmt.setWidth 4) 0 m.sa data m.part (hdrHalf m) h m.port.val s = r at he htaken
  have htook := took_takeRx m.port.val 0x18 m.tag r.2
  refine ⟨r.2, takeRx m.port.val 0x18 m.tag r.2, ?_, htook, htaken⟩
  have hans : answerAddl (hdrWho m) m.part m.sa stOk r.2 = sendFrame m.port.val (rsp m 0 false []) (takeRx m.port.val 0x18 m.tag r.2) :=
    respond_eq (by decide) _
  dsimp only at he
  rw [hans] at he
  generalize takeRx m.port.val 0x18 m.tag r.2 = x at htook he ⊢
  generalize rsp m 0 false [] = g at he ⊢
  have hhands := hands_sendFrame m.port.val g x
  obtain ⟨q, hq, -⟩ := htaken.cache
  have hinvs : x.cache.invs = [] := by
    rw [htook.frame .cache (by decide), hq]
    exact (calm_iff.mp hcalm).2.2.1
  have hxc : x.cache = r.2.cache := htook.frame .cache (by decide)
  have hcache := hhands.cache_eq hinvs
  have hframe : changesOnly [.cnt, .bwr, .tst, .seq, .links] r.2 (sendFrame m.port.val g x) := by
    intro b hb
    by_cases hbc : b = .cache
    · subst hbc
      exact hcache.trans hxc
    · refine changesOnly_trans (changesOnly_mono htook.frame (by decide)) hhands.frame b ?_
      have hno : b ∉ [Block.cnt, .bwr, .tst, .seq, .links, .cache] := by
        simp only [List.mem_cons, List.not_mem_nil, or_false, not_or] at hb ⊢
        tauto
      exact fun h => hno ((by decide : ∀ b ∈ [Block.links, .cache, .cnt], b ∈ [Block.cnt, .bwr, .tst, .seq, .links, .cache]) b h)
  rw [he]
  exact congrArg (answer s) (htaken.settles rfl hh hn hfa hfd (hcache.trans hxc) hframe)

/-! ## The activation (R184) -/

/-- What an ADDL that has been performed leaves of its half. -/
structure AddlDone (h : Half) (id : Nat) (f : FpFlags) (s u : State) : Prop where
  queue : (atuHalf u h).queue = (atuHalf s h).queue.filter fun a => !(a.id == id)
  nv : (atuHalf u h).nv = ((atuHalf s h).nv || f.nv)
  of : (atuHalf u h).of = ((atuHalf s h).of || f.of)
  uf : (atuHalf u h).uf = ((atuHalf s h).uf || f.uf)
  nx : (atuHalf u h).nx = ((atuHalf s h).nx || f.nx)

theorem addlDone_half (h : Half) (id : Nat) (f : FpFlags) (s : State) : AddlDone h id f s (setFp h f (dropAddl h id s)) := by
  cases h <;> exact ⟨rfl, rfl, rfl, rfl, rfl⟩

theorem addlDone_congr {h : Half} {id : Nat} {f : FpFlags} {s s' u u' : State} (hs : s'.atu = s.atu) (hu : u'.atu = u.atu)
    (hd : AddlDone h id f s u) : AddlDone h id f s' u' := by
  have h1 : atuHalf s' h = atuHalf s h := by rw [atuHalf, hs]; rfl
  have h2 : atuHalf u' h = atuHalf u h := by rw [atuHalf, hu]; rfl
  obtain ⟨a, b, c, d, e⟩ := hd
  exact ⟨by rw [h1, h2, a], by rw [h1, h2, b], by rw [h1, h2, c], by rw [h1, h2, d], by rw [h1, h2, e]⟩

theorem wrote_dropAddl (key : Nat) (h : Half) (id : Nat) (s : State) : Wrote key s (dropAddl h id s) := wrote_setAtuHalf rfl rfl

theorem wrote_setFp (key : Nat) (h : Half) (f : FpFlags) (s : State) : Wrote key s (setFp h f s) := wrote_setAtuHalf rfl rfl

/-- An ADDL on a line without poison and without an armed injection. -/
theorem atuOnLine_addl {h : Half} {id key : Nat} {s : State} {a : Addl} (hfa : findAtom s h id = none) (hfd : findAddl s h id = some a)
    (hsp : (metaAt s key).sp = 0) (harm : s.integ.injArm = false) :
    Wrote key s (atuOnLine h id key s) ∧
      (atuOnLine h id key s).cache.data = (setData s key (addlLine a.fmt.toNat (lineData s key) a.data).1).cache.data ∧
      AddlDone h id (addlLine a.fmt.toNat (lineData s key) a.data).2 s (atuOnLine h id key s) := by
  have hp := wrote_prefEnded_if key (metaAt s key).pf h (metaAt s key).part true s
  have hpd : (if (metaAt s key).pf = true then prefEnded h (metaAt s key).part true s else s).cache.data = s.cache.data ∧
      (if (metaAt s key).pf = true then prefEnded h (metaAt s key).part true s else s).atu = s.atu := by
    split
    · simp [prefEnded, modLoopMem]
    · exact ⟨rfl, rfl⟩
  unfold atuOnLine
  dsimp only
  generalize (if (metaAt s key).pf = true then prefEnded h (metaAt s key).part true s else s) = x at hp hpd ⊢
  obtain ⟨hxd, hxa⟩ := hpd
  have hfax : findAtom x h id = none := by
    rw [findAtom, atuHalf, hxa]
    exact hfa
  have hfdx : findAddl x h id = some a := by
    rw [findAddl, atuHalf, hxa]
    exact hfd
  rw [hfax]
  dsimp only
  rw [hfdx]
  dsimp only
  rw [if_neg (show ¬ (metaAt s key).sp ≠ 0 from fun h => h hsp)]
  generalize addlLine a.fmt.toNat (lineData s key) a.data = r
  obtain ⟨h2, h2d, h2a⟩ := wrote_store (key := key) (line := lineOf a.line) (d := r.1) (m := atuMeta (metaAt s key) 15) (s := x) (hp.arm.trans harm)
  generalize wakeWaits (lineOf a.line) _ = z at h2 h2d h2a ⊢
  have h3 : Wrote key z (setFp h r.2 (dropAddl h id z)) := Wrote.trans (wrote_dropAddl key h id z) (wrote_setFp key h r.2 _)
  have h3d : (setFp h r.2 (dropAddl h id z)).cache.data = z.cache.data := rfl
  have h3a := addlDone_half h id r.2 z
  generalize setFp h r.2 (dropAddl h id z) = v at h3 h3d h3a ⊢
  have h4 : onlyCounts v (countOps h 9 9 1 (cnt 0x022 (some h) (some a.part) 1 v)) :=
    onlyCounts_trans (onlyCounts_cnt ..) (onlyCounts_countOps ..)
  generalize countOps h 9 9 1 (cnt 0x022 (some h) (some a.part) 1 v) = u at h4 ⊢
  have hw := ((hp.trans h2).trans h3).trans (wrote_of_onlyCounts (key := key) h4)
  refine ⟨hw, ?_, ?_⟩
  · obtain ⟨_, _, _, rfl⟩ := h4
    rw [h3d, h2d, setData, setData]
    simp only [State.onCache, hxd]
  · refine addlDone_congr (s := z) (u := v) ?_ ?_ h3a
    · rw [h2a, hxa]
    · obtain ⟨_, _, _, rfl⟩ := h4
      rfl

theorem findAddl_putAddl {s : State} {h : Half} {id : Nat} {a b : Addl} (hf : findAddl s h id = some a) (hb : b.id = a.id) :
    findAddl (putAddl h b s) h id = some b := by
  have hs : ∀ l : List Addl, l.find? (fun x => x.id == id) = some a → (l.map fun x => if x.id = b.id then b else x).find? (fun x => x.id == id) = some b := by
    intro l
    induction l with
    | nil => simp
    | cons x l ih =>
      intro hl
      rw [List.find?_cons] at hl
      rw [List.map_cons, List.find?_cons]
      by_cases hx : x.id = id
      · have : (x.id == id) = true := by simpa using hx
        rw [this] at hl
        obtain rfl : x = a := by simpa using hl
        rw [if_pos hb.symm]
        simp [hb, hx]
      · have hxb : (x.id == id) = false := by simpa using hx
        rw [hxb] at hl
        have haid : a.id = id := by simpa using List.find?_some hl
        rw [if_neg (by rw [hb, haid]; exact hx), hxb]
        exact ih hl
  cases h <;> exact hs _ hf

/-- The bytes of a line that is stored whole. -/
theorem lineData_stored {s u : State} {key : Nat} {d : BitVec 1024} (h : u.cache.data = (setData s key d).cache.data) : lineData u key = d := by
  apply BitVec.eq_of_toNat_eq
  rw [lineData_toNat, h]
  show memRead (memWrite s.cache.data (128 * key) 128 d.toNat) (128 * key) 128 = d.toNat
  rw [memRead_memWrite_self, ← two_pow_eight_mul]
  exact Nat.mod_eq_of_lt d.isLt

/-- The state in which an ADDL's activation is due, without its waiting request. -/
def dueAddl (h : Half) (a : Addl) (s : State) : State := putAddl h { a with go := true } (s.onCache fun c => { c with blocked := [] })

/-- An ADDL is performed at its activation. -/
theorem addlApply_performs {h : Half} {k : Nat} {s : State} {a : Addl} {r : LineReq} (hk : (atuHalf s h).queue[k]? = some a)
    (hfa : findAtom s h a.id = none) (hfd : findAddl s h a.id = some a) (hblocked : s.cache.blocked = [r])
    (hcalm : calm (s.onCache fun c => { c with blocked := [] }) = true) (hdom : domRuns s (h.pick 3 4) = true) (hdam : s.tables.damage = [])
    (hop : r.op = .atu a.id) (hrsa : r.sa = a.line) (hrhome : r.home = h) (hbuf : isBuf a.line = true) (hclean : rowClean s (bufKey a.line) = true)
    (hno : noCopies s (bufKey a.line) = true) (hsp : (metaAt s (bufKey a.line)).sp = 0) (harm : s.integ.injArm = false) :
    ∃ u, exec (.addlApply h k) s = answer s u ∧
      u.cache.data = (setData s (bufKey a.line) (addlLine a.fmt.toNat (lineData s (bufKey a.line)) a.data).1).cache.data ∧
      AddlDone h a.id (addlLine a.fmt.toNat (lineData s (bufKey a.line)) a.data).2 (dueAddl h a s) u := by
  have he : exec (.addlApply h k) s = execAddlApply h k s := rfl
  rw [execAddlApply, hk] at he
  dsimp only at he
  obtain ⟨s0, hs0⟩ : ∃ s0, s0 = dueAddl h a s := ⟨_, rfl⟩
  have hreq : putAddl h { a with go := true } s = requeue r s0 := by
    rw [hs0, dueAddl, ← requeue_alone hblocked]
    cases h <;> rfl
  have hcache : s0.cache = { s.cache with blocked := [] } := by
    rw [hs0]
    cases h <;> rfl
  have hframe : changesOnly [.cache, .atu] s s0 := by
    rw [hs0]
    simp [dueAddl, putAddl, setAtuHalf]
  have hidle : addlsIdle s0 = addlsIdle s := by
    rw [hs0]
    exact addlsIdle_setAtuHalf rfl rfl
  have hmeta (j : Nat) : metaAt s0 j = metaAt s j := by
    rw [hs0]
    cases h <;> rfl
  have hm : Meets s0 r (bufKey a.line) := by
    refine ⟨?_, ?_, ?_, ?_, .inl ⟨by rw [hrsa]; exact hbuf, by rw [hrsa]⟩⟩
    · rw [← hcalm]
      have hb : s0.buf = s.buf := hframe .buf (by decide)
      rw [calm, calm, quiet, quiet, hcache, hidle, hb]
      rfl
    · rw [rowClean, hcache]
      exact hclean
    · rw [hrhome, domRuns, domSt, hframe .pwr (by decide)]
      exact hdom
    · rw [hframe .tables (by decide)]
      exact hdam
  have hfa0 : findAtom s0 h a.id = none := by
    rw [hs0]
    cases h <;> exact hfa
  have hfd0 : findAddl s0 h a.id = some { a with go := true } := by
    rw [hs0]
    refine findAddl_putAddl (a := a) ?_ rfl
    exact hfd
  have hline : lineData s0 (bufKey a.line) = lineData s (bufKey a.line) := by
    rw [lineData, hcache]
    rfl
  obtain ⟨h1, h2, h3⟩ := atuOnLine_addl (key := bufKey a.line) hfa0 hfd0 (by rw [hmeta]; exact hsp) (by rw [hframe .integ (by decide)]; exact harm)
  have hgo0 : atuGo s0 r.home a.id = some true := by rw [hrhome, atuGo, hfa0]; exact congrArg (Option.map Addl.go) hfd0
  have hset := settle_activation hm hop hgo0 (by rw [noCopies, hmeta]; exact hno) (by rw [hrhome]; exact (wrote_calm h1).trans hm.calm)
  rw [hrhome, ← hreq] at hset
  rw [hline] at h2 h3
  refine ⟨_, he, ?_, ?_⟩
  · obtain ⟨_, _, _, hu⟩ := hset
    rw [hu]
    refine h2.trans ?_
    simp only [setData, State.onCache, hcache]
  · rw [← hs0]
    refine addlDone_congr rfl ?_ h3
    obtain ⟨_, _, _, hu⟩ := hset
    rw [hu]

theorem dueAddl_half (h : Half) (a : Addl) (s : State) :
    (atuHalf (dueAddl h a s) h) = { atuHalf s h with queue := (atuHalf s h).queue.map fun b => if b.id = a.id then { a with go := true } else b } := by
  cases h <;> rfl

/-- Settles O15. -/
theorem reductions : Obligations.Reductions := by
  unfold Obligations.Reductions
  refine ⟨?_, ?_, ?_⟩
  · intro t f s x sa key hi hc hb1 hb16 hv hfc hd s1 th pva h hr s2 hx hlen houts hroom hh hn hfa hfd
    have hperm : issues t (f.d.toNat :: f.a.toNat :: f.c.toNat :: groupRegs f.b) s := by
      refine issues_of_subset hi ?_
      intro r hr
      simp only [groupRegs, List.mem_cons] at hr ⊢
      tauto
    have hw : (addlWidth f.v.toNat).isSome = true := by
      have hall : ∀ n : Fin 5, (addlWidth n.val).isSome = true := by decide
      exact hall ⟨_, hv⟩
    have hs2f : changesOnly [.xlt] s1 s2 := by
      obtain ⟨y, hy⟩ := reached_only t pva Rights.atom 2 (fun _ => false) s1
      rw [show s2 = _ from hy]
      exact fun b hb => by cases b <;> first | rfl | simp at hb
    obtain ⟨u, he, htaken⟩ := addl_completes hperm hc (by simp [groupOk, hb1, hb16, hw, hd]) hfc hr rfl hlen hroom hh hn hfa hfd
    change AddlTaken h (newAddl f.v sa (groupLine th f.b) th.part (thrHalf t.val) (thrMaster s2 t.val) s2) s2 u at htaken
    have hthr : thr u t.val = th :=
      (thr_congr (htaken.frame .seq (by decide)) _).trans (thr_congr (hs2f .seq (by decide)) _)
    have hself := thr_retire_self t Thread.next u
    rw [hthr] at hself
    have hf := (retire_frame t Thread.next u).1
    obtain ⟨q, hq, -⟩ := htaken.cache
    generalize retire t Thread.next u = v at he hself hf
    refine completesWith_answer he ⟨newAddl f.v sa (groupLine th f.b) th.part (thrHalf t.val) (thrMaster s2 t.val) s2, ?_, rfl, rfl, rfl, rfl, rfl,
      fun i hi => groupLine_part th f.b hi, ?_, fun r => ?_, ?_⟩
    · have hatu : atuHalf v h = atuHalf u h := by rw [atuHalf, hf .atu (by decide)]; rfl
      exact (congrArg AtuHalf.queue hatu).trans htaken.queue
    · rw [thr_answered, hself]
      rfl
    · rw [thr_answered, hself]
      rfl
    · refine sameBytes_answered.mpr (sameBytes_of_data ?_)
      rw [hf .cache (by decide), hq]
  · intro m fmt data s h key n hopen hcls hal hm hfmt hh hn hroom hfa hfd
    obtain ⟨u, x, he, htook, htaken⟩ := linkAddl_completes hopen hcls hal hm hfmt hroom hh hn hfa hfd
    have hlive : portLive x n = true := by
      have := (portOpen_live hopen).2
      rw [portLive] at this ⊢
      rw [htook.port, port, htaken.frame .links (by decide)]
      exact this
    generalize hg : rsp m 0 false [] = g at he
    have hsend := sends_sendFrame (f := g) hlive
    have hhands := hands_sendFrame n g x
    change exec _ s = answer s (sendFrame n g x) at he
    generalize sendFrame n g x = v at he hsend hhands
    have hsx := htook.sends hsend
    have hlinks : u.links = s.links := htaken.frame .links (by decide)
    have hss : sends n g s v := sends_congr (s := u) (by simp only [link, hlinks]) (by simp only [port, hlinks]) rfl hsx
    obtain ⟨q, hq, -⟩ := htaken.cache
    have hatu : atuHalf v h = atuHalf u h := by
      rw [atuHalf, hhands.frame .atu (by decide), htook.frame .atu (by decide)]
      rfl
    refine completesWith_answer he ⟨newAddl (fmt.setWidth 4) m.sa data m.part (portHalf m.port.val) m.port.val s, ?_, ?_, rfl, rfl, rfl, rfl, rfl, ?_, ?_⟩
    · exact (congrArg AtuHalf.queue hatu).trans htaken.queue
    · show (fmt.setWidth 4).toNat = fmt.toNat
      rw [BitVec.toNat_setWidth]
      omega
    · exact sends_congr rfl rfl (link_answered ..) hss
    · refine sameBytes_answered.mpr (sameBytes_trans (sameBytes_of_data ?_) hhands.sameBytes)
      rw [htook.frame .cache (by decide), hq]
  · intro h k s a r hk hfa hfd huniq hblocked hcalm hdom hdam hop hrsa hrhome hbuf hal hclean hno hsp harm key sum
    obtain ⟨u, he, hdata, hdone⟩ := addlApply_performs hk hfa hfd hblocked hcalm hdom hdam hop hrsa hrhome hbuf hclean hno hsp harm
    have hline : lineData u key = sum.1 := lineData_stored hdata
    obtain ⟨d1, d2, d3, d4, d5⟩ := hdone
    rw [dueAddl_half] at d1 d2 d3 d4 d5
    refine completesWith_answer he ⟨hline, ?_, ?_, d2, d3, d4, d5, fun h3 i hi => ?_, fun h4 i hi => ?_⟩
    · intro b hb
      show memByte u.cache.data b = _
      rw [hdata]
      exact memByte_setData_outside s key _ hb
    · intro b hb
      have hb' : b ∈ (atuHalf u h).queue := hb
      rw [d1] at hb'
      simpa using (List.mem_filter.mp hb').2
    · have hw3 : sum = addlLine 3 (lineData s key) a.data := by rw [show sum = addlLine a.fmt.toNat _ _ from rfl, h3]; rfl
      rw [hw3] at hline
      exact addlLine_int (w := 32) (b := 4) rfl (fun _ _ => rfl) rfl rfl hline hi
    · have hw4 : sum = addlLine 4 (lineData s key) a.data := by rw [show sum = addlLine a.fmt.toNat _ _ from rfl, h4]; rfl
      rw [hw4] at hline
      exact addlLine_int (w := 16) (b := 2) rfl (fun _ _ => rfl) rfl rfl hline hi

end Sys2Proof.Machine
end

section
/-! PROOFS. Partner reads and writes of a line that is there (R195, R196, R288). -/

namespace Sys2Proof.Machine

open Sys2Proof.Safety

/-! ## The request of a partner -/

theorem Took.mkReq {s u : State} (h : Took s u) (w : Who) (op : LineOp) (sa : Sa) (p : Part) (arrival home : Half) :
    Machine.mkReq u w op sa p arrival home = Machine.mkReq s w op sa p arrival home := by
  obtain ⟨_, rfl⟩ := h.only
  rfl

theorem Took.meets {s u : State} {r : LineReq} {key : Nat} (h : Took s u) (hm : Meets s r key) : Meets u r key := by
  obtain ⟨_, rfl⟩ := h.only
  exact ⟨hm.calm, hm.clean, hm.runs, hm.damage, hm.place⟩

theorem Took.live {s u : State} {n : Nat} (h : Took s u) (ho : portOpen s n = true) : portLive u n = true := by
  have := (portOpen_live ho).2
  rw [portLive] at this ⊢
  rw [h.port]
  exact this

/-- A partner's memory request that its checks let pass enters the order of its line. -/
theorem memReq_enters {m : PHdr} {need : Rights} {op : LineOp} {s u : State} {h : Half} (ht : Took s u) (hm : memHome m need m.sa s = .ok h) :
    memReq m need op u = enqueue (mkReq s (hdrWho m) op m.sa m.part (portHalf m.port.val) h) u := by
  have hmu : memHome m need m.sa u = .ok h := by
    obtain ⟨_, rfl⟩ := ht.only
    exact hm
  rw [memReq, hmu]
  dsimp only
  rw [ht.mkReq]
  rfl

/-- A command that hands a partner's port one frame, after work that leaves the links. -/
theorem sends_after {s u v : State} {n : Nat} {f : Frame} (ht : Took s u) (hl : v.links = u.links) (ho : portOpen s n = true) :
    sends n f s (sendFrame n f v) := by
  have hlive : portLive v n = true := by
    have := ht.live ho
    rw [portLive] at this ⊢
    rw [port, hl]
    exact this
  exact ht.sends (sends_congr (s := v) (by simp only [link, hl]) (by simp only [port, hl]) rfl (sends_sendFrame hlive))

theorem sends_counts {s u v : State} {n : Nat} {f : Frame} (h : sends n f s u) (hv : onlyCounts u v) : sends n f s v := by
  obtain ⟨_, _, _, rfl⟩ := hv
  exact h

/-! ## Reads (R195, R196, R288) -/

/-- The answer of a read to a partner. -/
theorem answerReq_read_port {r : LineReq} {m : PHdr} {sp : Span} {ro : Option Nat} {melt : Bool} (hop : r.op = .read sp ro melt)
    (hwho : r.who = hdrWho m) (hpart : r.part = m.part) (hsa : r.sa = m.sa) {x : LineRes} (hst : x.status = 0) (hp : x.poison = 0)
    (key : Option Nat) (s : State) :
    ∃ u, onlyCounts s u ∧ answerReq r x key s = sendFrame m.port.val (rsp m 0 x.untrk (spanBytes sp m.sa x.data)) u := by
  refine ⟨answerUnits r 0 s, onlyCounts_answerUnits .., ?_⟩
  have hr := respond_eq (p := m.port) (cls := m.cls) (tag := m.tag) (part := m.part) (sa := m.sa) (status := 0) (untrk := x.untrk)
    (data := spanBytes sp m.sa x.data) (by decide) (answerUnits r 0 s)
  rw [← hr]
  simp [answerReq, hop, hwho, hdrWho, hpart, hsa, hst, hp, poisonData_zero, stPoison, stOk]

theorem sectorOf_lt (sa : Sa) : sectorOf sa < 4 := by
  unfold sectorOf field
  exact Nat.mod_lt _ (by decide)

/-- The bytes of a sector or of a line as they stand. -/
theorem spanBytes_sector (s : State) (key : Nat) (sa : Sa) :
    spanBytes .sector sa (lineData s key) = toBytes 32 (lineField s key (32 * sectorOf sa) 32) := by
  have hj := sectorOf_lt sa
  have hsec : 32 * sectorOf sa + 32 ≤ 128 := by omega
  rw [← lineData_part s key hsec]
  refine congrArg (toBytes 32) ?_
  rw [BitVec.extractLsb'_toNat, Nat.shiftRight_eq_div_pow, show 256 * sectorOf sa = 8 * (32 * sectorOf sa) by omega]

theorem spanBytes_line (s : State) (key : Nat) (sa : Sa) : spanBytes .line sa (lineData s key) = toBytes 128 (lineField s key 0 128) := by
  rw [lineField, Nat.add_zero, ← lineData_toNat]
  rfl

/-- A partner's read of a line that is there, without poison. -/
theorem partnerRead {m : PHdr} {c : Instr} {opc : Nat} {sp : Span} {ro : Option Nat} {melt : Bool} {f : State → State} {s : State} {h : Half}
    {key : Nat} (he : exec c s = answer s (partner m opc 0 f s))
    (hf : ∀ u, Took s u → f u = enqueue (mkReq s (hdrWho m) (.read sp ro melt) m.sa m.part (portHalf m.port.val) h) u)
    (hopen : portOpen s m.port.val = true)
    (hl : lineHere s (.read sp ro melt) m.sa m.part (portHalf m.port.val) h key = true) (hp : (metaAt s key).sp = 0) :
    completesWith c s fun u => sends m.port.val (rsp m 0 (readRes ro key s).untrk (spanBytes sp m.sa (lineData s key))) s u ∧ sameBytes s u ∧
      (metaAt u key).sharers = readSharers ro key s := by
  obtain ⟨x, htook, hpart⟩ := partner_short (opc := opc) (n := 0) hopen (by decide) f
  rw [hpart, hf x htook] at he
  have hm := htook.meets (meets_mkReq hl (hdrWho m))
  have hres : readRes ro key x = readRes ro key s ∧ readSharers ro key x = readSharers ro key s ∧ metaAt x key = metaAt s key := by
    obtain ⟨_, rfl⟩ := htook.only
    exact ⟨rfl, rfl, rfl⟩
  obtain ⟨hr1, hr2, hr3⟩ := hres
  obtain ⟨u, hu, hmeta, hset⟩ := settle_read hm rfl
  obtain ⟨v, hv, ha⟩ := answerReq_read_port (m := m) (r := mkReq s (hdrWho m) (.read sp ro melt) m.sa m.part (portHalf m.port.val) h)
    rfl rfl rfl rfl (x := readRes ro key x) rfl (by rw [hr1]; exact hp) (some key) u
  rw [ha, hr1] at hset
  have hvl : v.links = x.links := by
    obtain ⟨_, _, _, _, _, _, _, rfl⟩ := hu
    obtain ⟨_, _, _, rfl⟩ := hv
    rfl
  have hvc : v.cache = u.cache ∧ v.tables = u.tables := by
    obtain ⟨_, _, _, rfl⟩ := hv
    exact ⟨rfl, rfl⟩
  have hcalm : calm v = true := by rw [onlyCounts_calm hv, lineWork_calm hu]; exact hm.calm
  have hut : u.tables = x.tables := by
    obtain ⟨_, _, _, _, _, _, _, rfl⟩ := hu
    rfl
  have hsend := sends_after (f := rsp m 0 (readRes ro key s).untrk (spanBytes sp m.sa (lineData s key))) htook hvl hopen
  change calm (sendFrame m.port.val (rsp m 0 (readRes ro key s).untrk (spanBytes sp m.sa (lineData s key))) v) = true →
    onlyCounts (sendFrame m.port.val (rsp m 0 (readRes ro key s).untrk (spanBytes sp m.sa (lineData s key))) v) _ at hset
  generalize rsp m 0 (readRes ro key s).untrk (spanBytes sp m.sa (lineData s key)) = g at hset hsend ⊢
  have hhands := hands_sendFrame m.port.val g v
  have hset := hset (calm_hands hhands hcalm)
  have hcache : (sendFrame m.port.val g v).cache = v.cache := hhands.cache_eq (calm_iff.mp hcalm).2.2.1
  have htab : (sendFrame m.port.val g v).tables = v.tables := hhands.frame .tables (by decide)
  generalize sendFrame m.port.val g v = w at hset hsend hcache htab
  generalize settle _ = z at he hset
  have hzc : z.cache = u.cache ∧ z.tables = u.tables := by
    obtain ⟨_, _, _, rfl⟩ := hset
    exact ⟨hcache.trans hvc.1, htab.trans hvc.2⟩
  refine completesWith_answer he ⟨?_, ?_, ?_⟩
  · exact sends_congr rfl rfl (link_answered ..) (sends_counts hsend hset)
  · refine sameBytes_answered.mpr (sameBytes_of_data ?_)
    rw [hzc.1, data_lineWork hu, htook.frame .cache (by decide)]
  · rw [metaAt_answered, metaAt_congr hzc.1 hzc.2, hmeta.sharers, hr2]

/-! ## Writes (R198, R288) -/

/-- Serving a write on a line stores it, and answers. -/
theorem serveWrite_work (r : LineReq) (mask : BitVec 128) (d : BitVec 1024) (key : Nat) {s : State} (harm : s.integ.injArm = false) :
    ∃ u, Wrote key s u ∧ u.cache.data = (setData s key (mergeBytes mask (lineData s key) d)).cache.data ∧
      serveWrite r mask d key s = answerReq r (LineRes.st 0) (some key) u := by
  have hp := wrote_prefEnded_if key (metaAt s key).pf (regionHalf (keyRegion key)) (metaAt s key).part true s
  have hpd : (if (metaAt s key).pf = true then prefEnded (regionHalf (keyRegion key)) (metaAt s key).part true s else s).cache = s.cache := by
    split
    · simp [prefEnded, modLoopMem]
    · rfl
  unfold serveWrite
  dsimp only
  generalize (if (metaAt s key).pf = true then prefEnded (regionHalf (keyRegion key)) (metaAt s key).part true s else s) = x at hp hpd ⊢
  have hline : lineData x key = lineData s key := by rw [lineData, hpd]; rfl
  rw [hline]
  refine ⟨_, hp.trans (wrote_store (hp.arm.trans harm)).1, ?_, rfl⟩
  rw [(wrote_store (hp.arm.trans harm)).2.1, setData, setData]
  simp only [State.onCache, hpd]

/-- A write that meets its line, of which no copy is elsewhere, is answered once it is stored. -/
theorem settle_write {s : State} {r : LineReq} {key : Nat} {mask : BitVec 128} {d : BitVec 1024} (h : Meets s r key) (hop : r.op = .write mask d)
    (hn : noCopies s key = true) (harm : s.integ.injArm = false) :
    ∃ u, Wrote key s u ∧ u.cache.data = (setData s key (mergeBytes mask (lineData s key) d)).cache.data ∧
      (calm (answerReq r (LineRes.st 0) (some key) u) = true → onlyCounts (answerReq r (LineRes.st 0) (some key) u) (settle (enqueue r s))) := by
  obtain ⟨t, ht, hdone, -⟩ := settle_enqueue h
  obtain ⟨u, hu, hdata, he⟩ := serveWrite_work r mask d key (s := t) (by
    obtain ⟨_, _, _, rfl⟩ := ht
    exact harm)
  have hsame : metaAt t key = metaAt s key ∧ t.cache = s.cache ∧ lineData t key = lineData s key := by
    obtain ⟨_, _, _, rfl⟩ := ht
    exact ⟨rfl, rfl, rfl⟩
  obtain ⟨hm, hc, hl⟩ := hsame
  have hline : atLine r key t = (true, answerReq r (LineRes.st 0) (some key) u) := by
    unfold atLine
    dsimp only
    rw [hop]
    dsimp only
    rw [hm, needInv_of_noCopies hn, if_neg (by simp), he]
  rw [hline] at hdone
  refine ⟨u, (wrote_of_onlyCounts ht).trans hu, ?_, fun hc => ?_⟩
  · rw [hdata, hl, setData, setData]
    simp only [State.onCache, hc]
  · obtain ⟨w, hw, hset⟩ := hdone rfl hc
    rwa [hset]

theorem answerReq_write_port {r : LineReq} {m : PHdr} {mask : BitVec 128} {d : BitVec 1024} (hop : r.op = .write mask d) (hwho : r.who = hdrWho m)
    (hpart : r.part = m.part) (hsa : r.sa = m.sa) (key : Option Nat) (s : State) :
    ∃ u, onlyCounts s u ∧ answerReq r (LineRes.st 0) key s = sendFrame m.port.val (rsp m 0 false []) u := by
  refine ⟨answerUnits r 0 s, onlyCounts_answerUnits .., ?_⟩
  have hr := respond_eq (p := m.port) (cls := m.cls) (tag := m.tag) (part := m.part) (sa := m.sa) (status := 0) (untrk := false)
    (data := []) (by decide) (answerUnits r 0 s)
  rw [← hr]
  simp [answerReq, hop, hwho, hdrWho, hpart, hsa, LineRes.st, stPoison]

/-- A partner's write to a line that is there, with no copy elsewhere. -/
theorem partnerWrite {m : PHdr} {c : Instr} {opc n : Nat} {mask : BitVec 128} {d : BitVec 1024} {f : State → State} {s : State} {h : Half}
    {key : Nat} (he : exec c s = answer s (partner m opc n f s)) (hn : (16 + n + 61) / 62 ≤ classMax m.cls)
    (hf : ∀ u, Took s u → f u = enqueue (mkReq s (hdrWho m) (.write mask d) m.sa m.part (portHalf m.port.val) h) u)
    (hopen : portOpen s m.port.val = true) (hl : lineHere s (.write mask d) m.sa m.part (portHalf m.port.val) h key = true)
    (hno : noCopies s key = true) (harm : s.integ.injArm = false) :
    completesWith c s fun u => sends m.port.val (rsp m 0 false []) s u ∧
      u.cache.data = (setData s key (mergeBytes mask (lineData s key) d)).cache.data := by
  obtain ⟨x, htook, hpart⟩ := partner_open (opc := opc) hopen hn f
  rw [hpart, hf x htook] at he
  have hm := htook.meets (meets_mkReq hl (hdrWho m))
  have hsame : metaAt x key = metaAt s key ∧ x.cache = s.cache ∧ x.integ = s.integ := by
    obtain ⟨_, rfl⟩ := htook.only
    exact ⟨rfl, rfl, rfl⟩
  obtain ⟨h1, h2, h3⟩ := hsame
  obtain ⟨u, hu, hdata, hset⟩ := settle_write hm rfl (by rw [noCopies, h1]; exact hno) (by rw [h3]; exact harm)
  obtain ⟨v, hv, ha⟩ := answerReq_write_port (m := m) (r := mkReq s (hdrWho m) (.write mask d) m.sa m.part (portHalf m.port.val) h)
    rfl rfl rfl rfl (some key) u
  rw [ha] at hset
  have hcalm : calm v = true := by rw [onlyCounts_calm hv, wrote_calm hu]; exact hm.calm
  have hvl : v.links = x.links := by
    obtain ⟨_, _, _, rfl⟩ := hv
    exact hu.frame .links (by decide)
  have hvc : v.cache = u.cache := by
    obtain ⟨_, _, _, rfl⟩ := hv
    rfl
  have hsend := sends_after (f := rsp m 0 false []) htook hvl hopen
  generalize rsp m 0 false [] = g at hset hsend ⊢
  have hhands := hands_sendFrame m.port.val g v
  have hset := hset (calm_hands hhands hcalm)
  have hcache : (sendFrame m.port.val g v).cache = v.cache := hhands.cache_eq (calm_iff.mp hcalm).2.2.1
  generalize sendFrame m.port.val g v = w at hset hsend hcache
  generalize settle _ = z at he hset
  have hzc : z.cache = u.cache := by
    obtain ⟨_, _, _, rfl⟩ := hset
    exact hcache.trans hvc
  refine completesWith_answer he ⟨?_, ?_⟩
  · exact sends_congr rfl rfl (link_answered ..) (sends_counts hsend hset)
  · show z.cache.data = _
    rw [hzc, hdata, lineData, setData, setData, lineData]
    simp only [State.onCache, h2]

/-! ## The bytes of a sector (R288) -/

theorem sectorAt_full (sa : Sa) (d : BitVec 256) :
    sectorAt sa (BitVec.allOnes 32) d = (byteMask (32 * sectorOf sa) 32, BitVec.ofNat 1024 (d.toNat * 2 ^ (8 * (32 * sectorOf sa)))) := by
  rw [sectorAt, byteMask, show 8 * (32 * sectorOf sa) = 256 * sectorOf sa by omega]
  rfl

/-- Bit i of a sector's mask, moved to its place in the line. -/
theorem sectorAt_mask {sa : Sa} {mask : BitVec 32} {d : BitVec 256} {i : Nat} (hi : i < 128) :
    (sectorAt sa mask d).1.getLsbD i = (decide (32 * sectorOf sa ≤ i) && mask.getLsbD (i - 32 * sectorOf sa)) := by
  rw [sectorAt, BitVec.getLsbD_ofNat, Nat.mul_comm, Nat.testBit_two_pow_mul]
  simp [hi, BitVec.getLsbD]

/-- A masked sector stored in its line. -/
theorem memByte_sector {s u : State} {key : Nat} {sa : Sa} {mask : BitVec 32} {d : BitVec 256}
    (hu : u.cache.data = (setData s key (mergeBytes (sectorAt sa mask d).1 (lineData s key) (sectorAt sa mask d).2)).cache.data) :
    (∀ i, i < 32 → memByte u.cache.data (128 * key + 32 * sectorOf sa + i) =
      if mask.getLsbD i then d.extractLsb' (8 * i) 8 else memByte s.cache.data (128 * key + 32 * sectorOf sa + i)) ∧
    (∀ a, a < 128 * key + 32 * sectorOf sa ∨ 128 * key + 32 * sectorOf sa + 32 ≤ a → memByte u.cache.data a = memByte s.cache.data a) := by
  have hj := sectorOf_lt sa
  refine ⟨fun i hi => ?_, fun a ha => ?_⟩
  · rw [hu, Nat.add_assoc, memByte_setData_inside s key _ (by omega), lineByte_mergeBytes _ _ _ (by omega), sectorAt_mask (by omega),
      lineByte_lineData s key (by omega), Nat.add_sub_cancel_left]
    refine if_congr (by simp) ?_ rfl
    rw [sectorAt, show 256 * sectorOf sa = 8 * (32 * sectorOf sa) by omega, lineByte_placed _ (by omega) (by omega), Nat.add_sub_cancel_left,
      BitVec.extractLsb', Nat.shiftRight_eq_div_pow, two_pow_eight_mul]
  · rw [hu]
    by_cases hout : a < 128 * key ∨ 128 * key + 128 ≤ a
    · exact memByte_setData_outside s key _ hout
    · obtain ⟨i, rfl⟩ := Nat.exists_eq_add_of_le (show 128 * key ≤ a by omega)
      have hmask : ¬ (sectorAt sa mask d).1.getLsbD i = true := by
        rw [sectorAt_mask (by omega)]
        simp only [Bool.and_eq_true, decide_eq_true_eq, not_and]
        intro hle
        rw [BitVec.getLsbD_of_ge _ _ (by omega)]
        decide
      rw [memByte_setData_inside s key _ (by omega), lineByte_mergeBytes _ _ _ (by omega), if_neg hmask, lineByte_lineData s key (by omega)]

/-- All bytes of a line merged in are the line. -/
theorem mergeBytes_all (old new : BitVec 1024) : mergeBytes (BitVec.allOnes 128) old new = new := by
  have hall : BitVec.ofNat 1024 (maskBits (BitVec.allOnes 128) 128) = BitVec.allOnes 1024 := by decide +kernel
  rw [mergeBytes, hall, BitVec.not_allOnes, BitVec.and_zero, BitVec.zero_or, BitVec.and_allOnes]

end Sys2Proof.Machine
end

section
/-! PROOFS. Several requests at once: each is performed in order on its line of BUF space (R123, R125). -/

namespace Sys2Proof.Machine

open Sys2Proof.Safety

/-- The state without its waiting requests. -/
def unblocked (s : State) : State := s.onCache fun c => { c with blocked := [] }

theorem unblocked_facts {s : State} (h : calm (unblocked s) = true) :
    s.cache.mshr = [] ∧ s.cache.invs = [] ∧ (∀ q ∈ s.cache.pool, ¬ (q.kind = .fill ∧ q.port.isNone = true)) ∧ addlsIdle s = true ∧
      s.buf.frees = [] := by
  obtain ⟨-, h1, h2, h3, h4, h5⟩ := calm_iff.mp h
  exact ⟨h1, h2, h3, h4, h5⟩

/-- With no waiting request a state is calm when it is calm without them. -/
theorem calm_of_unblocked {s : State} (h : calm (unblocked s) = true) (hb : s.cache.blocked = []) : calm s = true := by
  obtain ⟨h1, h2, h3, h4, h5⟩ := unblocked_facts h
  exact calm_iff.mpr ⟨hb, h1, h2, h3, h4, h5⟩

theorem parked_idle {s : State} (h : addlsIdle s = true) (r : LineReq) : parked s r = false := by
  simp only [addlsIdle, Bool.and_eq_true, List.isEmpty_iff] at h
  obtain ⟨⟨⟨h1, h2⟩, -⟩, -⟩ := h
  simp [parked, h1, h2]

theorem settleRound_blocked {s : State} (h : calm (unblocked s) = true) : settleRound s = pumpBlocked s := by
  obtain ⟨hm, hi, hp, -, -⟩ := unblocked_facts h
  have hpool : pumpPool s = s := by
    have hnone : s.cache.pool.filter (fun q => q.kind = .fill ∧ q.port.isNone) = [] := by
      rw [List.filter_eq_nil_iff]
      intro q hq
      simpa using hp q hq
    unfold pumpPool
    rw [hnone]
    rfl
  have hinv : finishInvs s = s := by simp [finishInvs, hi]
  have hmshr : pumpMshrs s = s := by simp [pumpMshrs, hm]
  rw [settleRound, hpool, hinv, hmshr]

/-- What holds before the requests `pre` of L are performed, holds after each. -/
structure Bunch (L : List LineReq) (Q : List LineReq → State → Prop) : Prop where
  frame : ∀ pre t bl, Q pre t → Q pre (t.onCache fun c => { c with blocked := bl })
  step : ∀ pre r post t, L = pre ++ r :: post → t.cache.blocked = post → calm (unblocked t) = true → Q pre t →
    ∃ u, tryReq r t = (true, u) ∧ u.cache.blocked = post ∧ calm (unblocked u) = true ∧ Q (pre ++ [r]) u

theorem Bunch.pump {L : List LineReq} {Q : List LineReq → State → Prop} (h : Bunch L Q) (post : List LineReq) :
    ∀ pre t n, L = pre ++ post → t.cache.blocked = post → post.length ≤ n → calm (unblocked t) = true → Q pre t →
      calm (pumpFrom n 0 t) = true ∧ Q L (pumpFrom n 0 t) := by
  induction post with
  | nil =>
    intro pre t n hL hb _ hc hq
    have hstay : pumpFrom n 0 t = t := by
      cases n with
      | zero => rfl
      | succ n => simp [pumpFrom, hb]
    rw [hstay, hL, List.append_nil]
    exact ⟨calm_of_unblocked hc hb, hq⟩
  | cons r post ih =>
    intro pre t n hL hb hn hc hq
    obtain ⟨k, rfl⟩ : ∃ k, n = k + 1 := ⟨n - 1, by simp at hn; omega⟩
    obtain ⟨u, hu, hub, huc, huq⟩ := h.step pre r post (t.onCache fun c => { c with blocked := c.blocked.eraseIdx 0 }) hL
      (by show t.cache.blocked.eraseIdx 0 = post; rw [hb]; rfl) hc (h.frame pre t _ hq)
    have hnext : pumpFrom (k + 1) 0 t = pumpFrom k 0 u := by
      have hget : t.cache.blocked[0]? = some r := by rw [hb]; rfl
      rw [pumpFrom, hget]
      simp only [parked_idle (unblocked_facts hc).2.2.2.1, List.take_zero, List.any_nil, Bool.or_self, Bool.false_eq_true, if_false, hu, if_true]
    rw [hnext]
    exact ih (pre ++ [r]) u k (by rw [hL]; simp) hub (by simp at hn; omega) huc huq

/-- Requests that are performed as they come leave the machine calm. -/
theorem Bunch.settle {L : List LineReq} {Q : List LineReq → State → Prop} (h : Bunch L Q) {s : State} (hb : s.cache.blocked = L)
    (hc : calm (unblocked s) = true) (hq : Q [] s) : calm (Machine.settle s) = true ∧ Q L (Machine.settle s) := by
  obtain ⟨hp, hQ⟩ := h.pump L [] s s.cache.blocked.length rfl hb (by rw [hb]) hc hq
  have hround : settleRound s = pumpFrom s.cache.blocked.length 0 s := settleRound_blocked hc
  rw [← hround] at hp hQ
  have hquiet : quiet (settleRound s) = true := by
    simp only [calm, Bool.and_eq_true] at hp
    exact hp.1.1
  by_cases hs : quiet s = true
  · have hnil : s.cache.blocked = [] := by
      simp only [quiet, Bool.and_eq_true, List.isEmpty_iff] at hs
      exact hs.1.1.1
    rw [settle_calm (calm_of_unblocked hc hnil)]
    refine ⟨calm_of_unblocked hc hnil, ?_⟩
    rw [← hb, hnil]
    exact hq
  · have hall : settleAll s = settleRound s := by
      rw [settleAll, show ∀ n, 6 + 3 * n = (5 + 3 * n) + 1 from fun n => by omega, settleN, if_neg hs]
      exact settleN_quiet _ hquiet
    obtain ⟨-, -, -, -, ha, hf⟩ := calm_iff.mp hp
    have hset : Machine.settle s = settleRound s := by simp [Machine.settle, hall, ha, hf]
    rw [hset]
    exact ⟨hp, hQ⟩

/-- A request to a line of BUF space without damage is performed there. -/
theorem tryReq_buf {r : LineReq} {s : State} (hbuf : isBuf r.sa = true) (hruns : domRuns s (r.home.pick 3 4) = true)
    (hdam : s.tables.damage = []) (hclean : rowClean s (bufKey r.sa) = true) (hi : s.cache.invs = []) :
    tryReq r s = charged r.home r.master (atLine r (bufKey r.sa) s) := by
  have hrow : replicaRow s r = none := by
    unfold replicaRow
    split
    · rw [if_pos (.inr (.inl hbuf))]
    · rfl
  have hinv : invBusy s (bufKey r.sa) = false := by simp [invBusy, hi]
  rw [tryReq, hrow, tryHome]
  simp only [checkTables_clean r hdam, hruns, wasReset_self, Bool.not_true, Bool.false_eq_true, if_false, hbuf, if_true,
    checkRow_clean 1 hclean rfl, hinv]

theorem charged_done (h : Half) (m : Option Nat) (s : State) : ∃ u, onlyCounts s u ∧ charged h m (true, s) = (true, u) :=
  ⟨charge h m s, onlyCounts_charge .., rfl⟩

/-! ## The lines of a block -/

/-- Line i of an aligned run of lines. -/
theorem line_of_run {sa : Sa} {i : Nat} (n : Nat) (hn : n = 4 ∨ n = 32) (hal : sa.toNat % (128 * n) = 0) (hi : i < n) :
    bufKey (sa + BitVec.ofNat 52 (128 * i)) = bufKey sa + i ∧ isBuf (sa + BitVec.ofNat 52 (128 * i)) = isBuf sa := by
  have hlt := sa.isLt
  have hadd : (sa + BitVec.ofNat 52 (128 * i)).toNat = sa.toNat + 128 * i := by
    rw [BitVec.toNat_add, BitVec.toNat_ofNat]
    rcases hn with rfl | rfl <;> omega
  have hbit (x : Sa) : isBuf x = decide (2 ^ 51 ≤ x.toNat) := by
    have hx := x.isLt
    rw [isBuf, bit, BitVec.getLsbD, Nat.testBit_eq_decide_div_mod_eq]
    refine decide_eq_decide.mpr ?_
    omega
  refine ⟨?_, ?_⟩
  · rw [bufKey, bufKey, field, field, hadd]
    rcases hn with rfl | rfl <;> omega
  · rw [hbit, hbit, hadd]
    refine decide_eq_decide.mpr ?_
    rcases hn with rfl | rfl <;> omega

/-- Only counts and the waiting requests differ. -/
def entered (s u : State) : Prop := ∃ c b x bl, u = { s with cnt := c, bwr := b, tst := x, cache := { s.cache with blocked := bl } }

/-- Requests that enter one after another wait in this order. -/
theorem enqueue_many {α : Type} (g : State → α → LineReq) (s : State) (hg : ∀ t a, entered s t → g t a = g s a) (l : List α) :
    entered s (l.foldl (fun t a => enqueue (g t a) t) s) ∧
      (l.foldl (fun t a => enqueue (g t a) t) s).cache.blocked = s.cache.blocked ++ l.map (g s) := by
  have hgen : ∀ (l : List α) (t : State), entered s t → entered s (l.foldl (fun t a => enqueue (g t a) t) t) ∧
      (l.foldl (fun t a => enqueue (g t a) t) t).cache.blocked = t.cache.blocked ++ l.map (g s) := by
    intro l
    induction l with
    | nil => exact fun t ht => ⟨ht, by simp⟩
    | cons a l ih =>
      intro t ht
      obtain ⟨u, hu, he⟩ := enqueue_counts (g t a) t
      have hnext : entered s (enqueue (g t a) t) ∧ (enqueue (g t a) t).cache.blocked = t.cache.blocked ++ [g s a] := by
        rw [he, ← hg t a ht]
        generalize g t a = r
        obtain ⟨_, _, _, rfl⟩ := hu
        obtain ⟨_, _, _, _, rfl⟩ := ht
        exact ⟨⟨_, _, _, _, rfl⟩, rfl⟩
      obtain ⟨h1, h2⟩ := ih _ hnext.1
      refine ⟨h1, ?_⟩
      rw [List.foldl_cons, h2, hnext.2, List.map_cons, List.append_assoc]
      rfl
  exact hgen l s ⟨_, _, _, _, rfl⟩

end Sys2Proof.Machine
end

section
/-! PROOFS. A partner's write of a block (R290). -/

namespace Sys2Proof.Machine

open Sys2Proof.Safety

/-- The block write that a WRB starts. -/
def blockWrOf (m : PHdr) : BlockWr := { port := m.port, cls := m.cls, tag := m.tag, part := m.part, sa := m.sa, left := 32, status := 0 }

/-- Line k's request of a WRB. -/
def blockReqOf (m : PHdr) (base : Sa) (h : Half) (data : BitVec 32768) (s : State) (k : Nat) : LineReq :=
  mkReq s (.block m.port m.tag k) (.write (BitVec.allOnes 128) (blockData data k)) (base + BitVec.ofNat 52 (128 * k)) m.part (portHalf m.port.val) h

/-- Before line k of a WRB is written: the lines below hold their data, everything else in memory is as it was, and the block write counts
the lines left; after line 31 it has been answered. -/
structure Writing (m : PHdr) (data : BitVec 32768) (key : Nat) (s : State) (k : Nat) (t : State) : Prop where
  frame : changesOnly [.loops, .cnt, .bwr, .tst, .integ, .seq, .atu, .cache, .links] s t
  ecc : ∀ e ∈ t.cache.ecc, e ∈ s.cache.ecc
  arm : t.integ.injArm = s.integ.injArm
  metas : ∀ i, k ≤ i → metaAt t (key + i) = metaAt s (key + i)
  lines : ∀ i, i < k → lineData t (key + i) = blockData data i
  out : ∀ a, a < 128 * key ∨ 128 * key + 128 * k ≤ a → memByte t.cache.data a = memByte s.cache.data a
  running : k < 32 → t.links = { s.links with blocks := [{ blockWrOf m with left := 32 - k }] }
  done : k = 32 → t.links.blocks = [] ∧ sends m.port.val (rsp m 0 false []) s t

/-- A line's write of a WRB that is not the last one. -/
theorem blockLine_next {m : PHdr} {k : Nat} {s : State} {l : Links} (hl : s.links = { l with blocks := [{ blockWrOf m with left := 32 - k }] })
    (hk : k < 31) : blockLine m.port m.tag 0 s = { s with links := { l with blocks := [{ blockWrOf m with left := 32 - (k + 1) }] } } := by
  have hfind : s.links.blocks.find? (fun b => decide (b.port = m.port ∧ b.tag = m.tag)) = some { blockWrOf m with left := 32 - k } := by
    rw [hl]
    simp [blockWrOf]
  unfold blockLine
  rw [hfind]
  dsimp only
  rw [if_neg (show ¬ 32 - k ≤ 1 by omega), hl]
  simp only [State.onLinks, hl, blockWrOf, List.filter_cons, List.filter_nil]
  simp
  omega

/-- The last one. -/
theorem blockLine_last {m : PHdr} {s : State} {l : Links} (hl : s.links = { l with blocks := [{ blockWrOf m with left := 1 }] }) :
    blockLine m.port m.tag 0 s = sendFrame m.port.val (rsp m 0 false []) { s with links := { l with blocks := [] } } := by
  have hfind : s.links.blocks.find? (fun b => decide (b.port = m.port ∧ b.tag = m.tag)) = some { blockWrOf m with left := 1 } := by
    rw [hl]
    simp [blockWrOf]
  unfold blockLine
  rw [hfind]
  dsimp only
  rw [if_pos (Nat.le_refl 1)]
  have hr := respond_eq (p := m.port) (cls := m.cls) (tag := m.tag) (part := m.part) (sa := m.sa) (status := 0) (untrk := false)
    (data := []) (by decide) { s with links := { l with blocks := [] } }
  rw [← hr]
  simp only [State.onLinks, hl, blockWrOf, List.filter_cons, List.filter_nil]
  simp

theorem blocks_linkPump (n : Nat) (s : State) : (linkPump n s).links.blocks = s.links.blocks := by
  have hfold : ∀ (l : List (Frame × Nat)) (t : State), (l.foldl (fun t e => invLeft n e.1 t) t).links = t.links := by
    intro l
    induction l with
    | nil => exact fun _ => rfl
    | cons e l ih =>
      intro t
      rw [List.foldl_cons, ih, invLeft]
      split <;> rfl
  unfold linkPump
  dsimp only
  rw [show (if portActive s n = true then _ else _ : LinkSt) = pumped n s from rfl]
  generalize pumped n s = z
  split
  · rfl
  · rw [cnt_links, hfold]
    rfl

theorem blocks_sendFrame (n : Nat) (f : Frame) (s : State) : (sendFrame n f s).links.blocks = s.links.blocks := by
  unfold sendFrame
  split
  · dsimp only
    split
    · rw [cnt_links, blocks_linkPump]
      rfl
    · rw [blocks_linkPump]
      rfl
  · rfl

/-- What a line of a WRB leaves. -/
theorem blockLine_spec {m : PHdr} {k : Nat} {s x : State} (hk : k < 32) (hl : x.links = { s.links with blocks := [{ blockWrOf m with left := 32 - k }] })
    (hopen : portLive s m.port.val = true) (hi : x.cache.invs = []) :
    (blockLine m.port m.tag 0 x).cache = x.cache ∧ changesOnly [.links, .cnt] x (blockLine m.port m.tag 0 x) ∧
      (k + 1 < 32 → (blockLine m.port m.tag 0 x).links = { s.links with blocks := [{ blockWrOf m with left := 32 - (k + 1) }] }) ∧
      (k + 1 = 32 → (blockLine m.port m.tag 0 x).links.blocks = [] ∧ sends m.port.val (rsp m 0 false []) s (blockLine m.port m.tag 0 x)) := by
  by_cases h31 : k < 31
  · rw [blockLine_next hl h31]
    refine ⟨rfl, ?_, fun _ => rfl, fun h => by omega⟩
    intro b hb
    cases b <;> first | rfl | simp at hb
  · obtain rfl : k = 31 := by omega
    rw [blockLine_last hl]
    have hlive : portLive ({ x with links := { s.links with blocks := [] } } : State) m.port.val = true := hopen
    have hsend := sends_sendFrame (f := rsp m 0 false []) hlive
    have hhands := hands_sendFrame m.port.val (rsp m 0 false []) ({ x with links := { s.links with blocks := [] } } : State)
    have hcache := hhands.cache_eq hi
    have hblocks := blocks_sendFrame m.port.val (rsp m 0 false []) ({ x with links := { s.links with blocks := [] } } : State)
    generalize rsp m 0 false [] = g at hsend hhands hcache hblocks ⊢
    obtain ⟨y, hy⟩ : ∃ y, y = ({ x with links := { s.links with blocks := [] } } : State) := ⟨_, rfl⟩
    have hyf : changesOnly [.links] x y := by
      rw [hy]
      intro b hb
      cases b <;> first | rfl | simp at hb
    have hyl : ∀ n, link y n = link s n := by
      rw [hy]
      exact fun _ => rfl
    have hyp : ∀ n, port y n = port s n := by
      rw [hy]
      exact fun _ => rfl
    have hyc : y.cache = x.cache := by rw [hy]
    have hyb : y.links.blocks = [] := by rw [hy]
    rw [← hy] at hsend hhands hcache hblocks ⊢
    refine ⟨hcache.trans hyc, ?_, fun h => by omega, fun _ => ⟨hblocks.trans hyb, ?_⟩⟩
    · intro b hb
      by_cases hbc : b = .cache
      · subst hbc
        exact hcache.trans hyc
      · refine changesOnly_trans (changesOnly_mono hyf (by decide)) hhands.frame b ?_
        simp only [List.mem_cons, List.not_mem_nil, or_false, not_or] at hb ⊢
        tauto
    · exact sends_congr (hyl _).symm (hyp _).symm rfl hsend

theorem unblocked_calm {s u : State} (hc : ∃ d ln ec g te tw, u.cache = { s.cache with data := d, line := ln, ecc := ec, got := g, toE := te, toW := tw })
    (hi : addlsIdle u = addlsIdle s) (hf : u.buf = s.buf) (h : calm (unblocked s) = true) : calm (unblocked u) = true := by
  obtain ⟨h1, h2, h3, h4, h5⟩ := unblocked_facts h
  obtain ⟨_, _, _, _, _, _, hc⟩ := hc
  refine calm_iff.mpr ⟨rfl, ?_, ?_, ?_, hi.trans h4, ?_⟩
  · show u.cache.mshr = []
    rw [hc]
    exact h1
  · show u.cache.invs = []
    rw [hc]
    exact h2
  · show ∀ q ∈ u.cache.pool, _
    rw [hc]
    exact h3
  · show u.buf.frees = []
    rw [hf]
    exact h5

theorem rowClean_of_subset {s u : State} {key : Nat} (h : ∀ e ∈ u.cache.ecc, e ∈ s.cache.ecc) (hc : rowClean s key = true) : rowClean u key = true := by
  rw [rowClean, List.all_eq_true] at hc ⊢
  exact fun e he => hc e (h e he)

/-- One line of a WRB. -/
theorem writing_step {m : PHdr} {base : Sa} {h : Half} {data : BitVec 32768} {s t : State} {k : Nat} {post : List LineReq} (hk : k < 32)
    (hbuf : isBuf base = true) (hal : base.toNat % 4096 = 0) (hopen : portLive s m.port.val = true) (hruns : domRuns s (h.pick 3 4) = true)
    (hdam : s.tables.damage = []) (harm : s.integ.injArm = false)
    (hline : ∀ i, i < 32 → rowClean s (bufKey base + i) = true ∧ noCopies s (bufKey base + i) = true)
    (hw : Writing m data (bufKey base) s k t) (hb : t.cache.blocked = post) (hc : calm (unblocked t) = true) :
    ∃ u, tryReq (blockReqOf m base h data s k) t = (true, u) ∧ u.cache.blocked = post ∧ calm (unblocked u) = true ∧
      Writing m data (bufKey base) s (k + 1) u := by
  obtain ⟨hkey, hkbuf⟩ := line_of_run (i := k) 32 (.inr rfl) hal hk
  obtain ⟨hclean, hno⟩ := hline k hk
  obtain ⟨-, hinvs, -, hidle, -⟩ := unblocked_facts hc
  have hmeta : metaAt t (bufKey base + k) = metaAt s (bufKey base + k) := hw.metas k (Nat.le_refl k)
  have htry := tryReq_buf (r := blockReqOf m base h data s k) (s := t) (hkbuf.trans hbuf)
    (by rw [domRuns, domSt, hw.frame .pwr (by decide)]; exact hruns) (by rw [hw.frame .tables (by decide)]; exact hdam)
    (by show rowClean t (bufKey (base + BitVec.ofNat 52 (128 * k))) = true; rw [hkey]; exact rowClean_of_subset hw.ecc hclean) hinvs
  have hsa : bufKey (blockReqOf m base h data s k).sa = bufKey base + k := hkey
  rw [hsa] at htry
  obtain ⟨u1, hu1, hdata, hserve⟩ := serveWrite_work (blockReqOf m base h data s k) (BitVec.allOnes 128) (blockData data k) (bufKey base + k)
    (s := t) (hw.arm.trans harm)
  have hat : atLine (blockReqOf m base h data s k) (bufKey base + k) t =
      (true, answerReq (blockReqOf m base h data s k) (LineRes.st 0) (some (bufKey base + k)) u1) := by
    have hop : (blockReqOf m base h data s k).op = .write (BitVec.allOnes 128) (blockData data k) := rfl
    unfold atLine
    dsimp only
    rw [hop]
    dsimp only
    rw [hmeta, needInv_of_noCopies hno, if_neg (by simp), hserve]
  rw [hat] at htry
  have hans : answerReq (blockReqOf m base h data s k) (LineRes.st 0) (some (bufKey base + k)) u1 =
      blockLine m.port m.tag 0 (answerUnits (blockReqOf m base h data s k) 0 u1) := by
    simp [answerReq, blockReqOf, mkReq, LineRes.st, stPoison]
  have hcounts := onlyCounts_answerUnits (blockReqOf m base h data s k) 0 u1
  rw [hans] at htry
  generalize answerUnits (blockReqOf m base h data s k) 0 u1 = u2 at htry hcounts
  have h2c : u2.cache = u1.cache := by
    obtain ⟨_, _, _, rfl⟩ := hcounts
    rfl
  have h2l : u2.links = t.links := by
    obtain ⟨_, _, _, rfl⟩ := hcounts
    exact hu1.frame .links (by decide)
  have h2f : changesOnly [.cnt, .bwr, .tst] u1 u2 := by
    obtain ⟨_, _, _, rfl⟩ := hcounts
    exact fun b hb => by cases b <;> first | rfl | simp at hb
  obtain ⟨d, ln, ec, g, h1c⟩ := hu1.cache
  have hi2 : u2.cache.invs = [] := by
    rw [h2c, h1c]
    exact hinvs
  obtain ⟨b1, b2, b3, b4⟩ := blockLine_spec (x := u2) hk (h2l.trans (hw.running hk)) hopen hi2
  generalize blockLine m.port m.tag 0 u2 = u3 at htry b1 b2 b3 b4
  obtain ⟨u, hu, hdone⟩ := charged_done (blockReqOf m base h data s k).home (blockReqOf m base h data s k).master u3
  rw [hdone] at htry
  have huc : u.cache = u1.cache := by
    obtain ⟨_, _, _, rfl⟩ := hu
    exact b1.trans h2c
  have hul : u.links = u3.links := by
    obtain ⟨_, _, _, rfl⟩ := hu
    rfl
  have huf : changesOnly [.cnt, .bwr, .tst, .links] u1 u := by
    refine changesOnly_trans (changesOnly_mono h2f (by decide)) (changesOnly_trans (changesOnly_mono b2 (by decide)) ?_)
    obtain ⟨_, _, _, rfl⟩ := hu
    exact fun b hb => by cases b <;> first | rfl | simp at hb
  have htf : changesOnly [.loops, .cnt, .bwr, .tst, .integ, .seq, .atu, .cache, .links] t u :=
    changesOnly_trans (changesOnly_mono hu1.frame (by decide)) (changesOnly_mono huf (by decide))
  have hmetas (i : Nat) : metaAt u (bufKey base + i) = metaAt u1 (bufKey base + i) := metaAt_congr huc (huf .tables (by decide)) _
  have hbytes : u.cache.data = (setData t (bufKey base + k) (blockData data k)).cache.data := by rw [huc, hdata, mergeBytes_all]
  refine ⟨u, htry, ?_, ?_, ?_⟩
  · rw [huc, h1c]
    exact hb
  · refine unblocked_calm (s := t) ⟨d, ln, ec, g, t.cache.toE, t.cache.toW, huc.trans h1c⟩ ?_ (htf .buf (by decide)) hc
    rw [← hu1.idle, addlsIdle, addlsIdle, huf .atu (by decide)]
  · refine ⟨changesOnly_trans hw.frame htf, fun e he => hw.ecc e (hu1.ecc e (by rw [← huc]; exact he)), ?_, fun i hi => ?_, fun i hi => ?_, fun a ha => ?_,
      fun h => ?_, fun h => ?_⟩
    · rw [huf .integ (by decide), hu1.arm, hw.arm]
    · rw [hmetas, hu1.metas _ (by omega)]
      exact hw.metas i (by omega)
    · by_cases hik : i = k
      · rw [hik]
        exact lineData_stored hbytes
      · rw [← hw.lines i (by omega), lineData, lineData, hbytes]
        refine congrArg (BitVec.ofNat 1024) (memRead_congr _ _ _ _ fun j hj => memByte_setData_outside t _ _ (by omega))
    · rw [hbytes, memByte_setData_outside t _ _ (by omega)]
      exact hw.out a (by omega)
    · rw [hul]
      exact b3 h
    · obtain ⟨c1, c2⟩ := b4 h
      exact ⟨by rw [hul]; exact c1, sends_counts c2 hu⟩

/-- The WRB's requests enter, and each is performed. -/
theorem writeLines_settles {m : PHdr} {base : Sa} {h : Half} {data : BitVec 32768} {s : State} (hbuf : isBuf base = true)
    (hal : base.toNat % 4096 = 0) (hopen : portLive s m.port.val = true) (hruns : domRuns s (h.pick 3 4) = true) (hdam : s.tables.damage = [])
    (harm : s.integ.injArm = false) (hline : ∀ i, i < 32 → rowClean s (bufKey base + i) = true ∧ noCopies s (bufKey base + i) = true)
    (hblocks : s.links.blocks = []) (hcalm : calm s = true) :
    Writing m data (bufKey base) s 32 (settle (writeLines m base h data s)) := by
  obtain ⟨x, hx⟩ : ∃ x, x = s.onLinks fun l => { l with blocks := l.blocks ++ [blockWrOf m] } := ⟨_, rfl⟩
  have hxl : x.links = { s.links with blocks := [{ blockWrOf m with left := 32 - 0 }] } := by
    rw [hx]
    show { s.links with blocks := s.links.blocks ++ [blockWrOf m] } = _
    rw [hblocks]
    rfl
  obtain ⟨he, hb⟩ := enqueue_many (blockReqOf m base h data) x (fun t a ht => by
    obtain ⟨_, _, _, _, rfl⟩ := ht
    rfl) (List.range 32)
  have hlines : writeLines m base h data s = (List.range 32).foldl (fun t a => enqueue (blockReqOf m base h data t a) t) x := by rw [hx]; rfl
  rw [← hlines] at he hb
  generalize writeLines m base h data s = y at he hb ⊢
  have hreq : blockReqOf m base h data x = blockReqOf m base h data s := by
    rw [hx]
    rfl
  have hxc : x.cache = s.cache := by rw [hx]; rfl
  rw [hreq, hxc, (calm_iff.mp hcalm).1, List.nil_append] at hb
  have hyl : y.links = x.links := by
    obtain ⟨_, _, _, _, rfl⟩ := he
    rfl
  have hyc : ∃ bl, y.cache = { s.cache with blocked := bl } := by
    obtain ⟨_, _, _, bl, rfl⟩ := he
    exact ⟨bl, by rw [hxc]⟩
  have hxf : changesOnly [.links] s x := by
    rw [hx]
    simp
  have hyf : changesOnly [.cnt, .bwr, .tst, .cache] x y := by
    obtain ⟨_, _, _, _, rfl⟩ := he
    exact fun b hb => by cases b <;> first | rfl | simp at hb
  have hf : changesOnly [.cnt, .bwr, .tst, .cache, .links] s y :=
    changesOnly_trans (changesOnly_mono hxf (by decide)) (changesOnly_mono hyf (by decide))
  obtain ⟨bl, hyc⟩ := hyc
  have hmeta (j : Nat) : metaAt y j = metaAt s j := by
    rw [metaAt, metaAt, metaDefault, metaDefault, region, region, hyc, hf .tables (by decide)]
  have hbunch : Bunch ((List.range 32).map (blockReqOf m base h data s)) fun pre t => Writing m data (bufKey base) s pre.length t := by
    refine ⟨fun pre t bl hw => ?_, fun pre r post t hL hb hc hw => ?_⟩
    · obtain ⟨h1, h2, h3, h4, h5, h6, h7, h8⟩ := hw
      exact ⟨changesOnly_trans h1 (by simp), h2, h3, h4, h5, h6, h7, h8⟩
    · have hlen : pre.length < 32 := by
        have := congrArg List.length hL
        simp at this
        omega
      have hr : r = blockReqOf m base h data s pre.length := by
        have hget := congrArg (fun l => l[pre.length]?) hL
        simp [hlen] at hget
        exact hget.symm
      rw [hr, List.length_append]
      exact writing_step hlen hbuf hal hopen hruns hdam harm hline hw hb hc
  have hcy : calm (unblocked y) = true := by
    refine calm_iff.mpr ⟨rfl, ?_⟩
    obtain ⟨-, h1, h2, h3, h4, h5⟩ := calm_iff.mp hcalm
    have hyb : y.buf = s.buf := hf .buf (by decide)
    refine ⟨?_, ?_, ?_, ?_, ?_⟩
    · show y.cache.mshr = []
      rw [hyc]
      exact h1
    · show y.cache.invs = []
      rw [hyc]
      exact h2
    · show ∀ q ∈ y.cache.pool, _
      rw [hyc]
      exact h3
    · show addlsIdle y = true
      rw [addlsIdle, hf .atu (by decide)]
      exact h4
    · show y.buf.frees = []
      rw [hyb]
      exact h5
  have hw0 : Writing m data (bufKey base) s 0 y := by
    refine ⟨changesOnly_mono hf (by decide), ?_, ?_, fun i _ => hmeta _, fun i hi => absurd hi (by simp), fun a _ => ?_, fun _ => hyl.trans hxl, fun h => absurd h (by decide)⟩
    · rw [hyc]
      exact fun _ h => h
    · rw [hf .integ (by decide)]
    · rw [hyc]
  obtain ⟨-, hQ⟩ := hbunch.settle (s := y) hb hcy hw0
  simpa using hQ

/-! ## The obligation -/

theorem memReq_partner {m : PHdr} {need : Rights} {op : LineOp} {s : State} {h : Half} (hm : memHome m need m.sa s = .ok h) (u : State)
    (ht : Took s u) : memReq m need op u = enqueue (mkReq s (hdrWho m) op m.sa m.part (portHalf m.port.val) h) u := memReq_enters ht hm

/-- RDS of memory: the decoded place is none of CTL and doorbell space. -/
theorem memHome_space {m : PHdr} {need : Rights} {sa : Sa} {s : State} {h : Half} (hm : memHome m need sa s = .ok h) :
    ∃ x, decodeSa s (pipeView s (hdrHalf m)) sa = .ok x ∧ x.isDev = false := by
  unfold memHome memCheck at hm
  cases hd : decodeSa s (pipeView s (hdrHalf m)) sa with
  | error e => rw [hd] at hm; cases hm
  | ok x =>
    refine ⟨x, rfl, ?_⟩
    cases hx : x.isDev with
    | false => rfl
    | true =>
      rw [hd] at hm
      dsimp only at hm
      rw [hx, if_pos rfl] at hm
      cases hm

theorem homeUp_runs {s : State} {h : Half} (hu : homeUp s h = true) : domRuns s (h.pick 3 4) = true := by
  cases h <;>
  · simp only [homeUp, Half.pick, domOn, Bool.and_eq_true, beq_iff_eq] at hu
    simp [domRuns, Half.pick, hu.1]

/-- The home half of a request that is let pass runs. -/
theorem memHome_runs {m : PHdr} {need : Rights} {sa : Sa} {s : State} {h : Half} (hm : memHome m need sa s = .ok h) : domRuns s (h.pick 3 4) = true := by
  unfold memHome at hm
  split at hm
  · cases hm
  next x _ =>
    dsimp only at hm
    split at hm
    · cases hm
    next hu =>
      cases hm
      simp only [unavailable, Bool.or_eq_true, Bool.not_eq_true', not_or, Bool.not_eq_false] at hu
      exact homeUp_runs hu.1

/-- Settles O27. -/
theorem partnerAccesses : Obligations.PartnerAccesses := by
  unfold Obligations.PartnerAccesses
  refine ⟨?_, ?_, ?_⟩
  · intro m melt s h key n op here sector line tracked hopen hm hp
    have hsec := spanBytes_sector s key m.sa
    have hlin := spanBytes_line s key m.sa
    have hds : ∀ u, Took s u → readSector m melt u = memReq m Rights.rd (.read .sector none melt) u := by
      intro u ht
      obtain ⟨x, hx, hdev⟩ := memHome_space hm
      have hxu : decodeSa u (pipeView u (hdrHalf m)) m.sa = .ok x := by
        obtain ⟨_, rfl⟩ := ht.only
        exact hx
      rw [readSector, hxu]
      dsimp only
      rw [hdev]
      rfl
    have plain {c : Instr} {opc : Nat} {sp : Span} {f : State → State} (he : exec c s = answer s (partner m opc 0 f s))
        (hf : ∀ u, Took s u → f u = memReq m Rights.rd (.read sp none melt) u) (hl : here sp none) :
        completesWith c s fun u => sends n (rsp m 0 false (spanBytes sp m.sa (lineData s key))) s u ∧ sameBytes s u := by
      obtain ⟨u, hu, h1, h2, -⟩ := partnerRead he (fun u ht => (hf u ht).trans (memReq_partner hm u ht)) hopen hl hp
      exact ⟨u, hu, h1, h2⟩
    have shared {c : Instr} {sp : Span} {f : State → State} (he : exec c s = answer s (partner m 3 0 f s))
        (hf : ∀ u, Took s u → f u = memReq m Rights.rd (.read sp (some n) melt) u) (hl : here sp (some n)) :
        completesWith c s fun u => sends n (rsp m 0 (s.cch.clrBusy.getLsbD n) (spanBytes sp m.sa (lineData s key))) s u ∧ sameBytes s u ∧
          (metaAt u key).sharers = if s.cch.clrBusy.getLsbD n then (metaAt s key).sharers else setBit (metaAt s key).sharers n true :=
      partnerRead he (fun u ht => (hf u ht).trans (memReq_partner hm u ht)) hopen hl hp
    have hn24 : n < 24 := by
      have := m.port.isLt
      omega
    refine ⟨fun hl => ?_, fun hl => ?_, fun hl hb => ?_, fun hl hb => ?_, fun hl hb => ?_⟩
    · have := plain (c := .rds m melt) (opc := 1) rfl hds hl
      rwa [hsec] at this
    · have := plain (c := .rdl m melt) (opc := 2) rfl (fun _ _ => rfl) hl
      rwa [hlin] at this
    · obtain ⟨u, hu, h1, h2, h3⟩ := shared (c := .rdro m false melt) (sp := .sector) rfl (fun _ _ => rfl) hl
      rw [hb] at h1 h3
      rw [hsec] at h1
      exact ⟨u, hu, h1, h2, by rw [show tracked u = ((metaAt u key).sharers.getLsbD n = true) from rfl, h3]; simp [getLsbD_setBit_true _ _ hn24]⟩
    · obtain ⟨u, hu, h1, h2, h3⟩ := shared (c := .rdro m true melt) (sp := .line) rfl (fun _ _ => rfl) hl
      rw [hb] at h1 h3
      rw [hlin] at h1
      exact ⟨u, hu, h1, h2, by rw [show tracked u = ((metaAt u key).sharers.getLsbD n = true) from rfl, h3]; simp [getLsbD_setBit_true _ _ hn24]⟩
    · obtain ⟨u, hu, h1, h2, h3⟩ := shared (c := .rdro m false melt) (sp := .sector) rfl (fun _ _ => rfl) hl
      rw [hb] at h1 h3
      rw [hsec] at h1
      exact ⟨u, hu, h1, h2, h3⟩
  · intro m s h key n at_ here hopen hm harm
    have hshort : (16 + 32 + 61) / 62 ≤ classMax m.cls := Nat.le_trans (by decide) (two_le_classMax m.cls)
    refine ⟨fun data ⟨hl, hno⟩ => ?_, fun mask data hmask ⟨hl, hno⟩ => ?_, fun data hcls ⟨hl, hno⟩ => ?_⟩
    · obtain ⟨u, hu, h1, h2⟩ := partnerWrite (c := .wrs m data) (opc := 8) (n := 32) rfl hshort (fun u ht => memReq_partner hm u ht) hopen hl hno harm
      refine ⟨u, hu, h1, ?_⟩
      rw [sectorAt_full] at h2
      have hj := sectorOf_lt m.sa
      exact bytesStored_merge (by omega) h2
    · have hfm : ∀ u, Took s u → maskedWrite m mask data u =
          memReq m Rights.wr (.write (sectorAt m.sa mask data).1 (sectorAt m.sa mask data).2) u := by
        intro u ht
        obtain ⟨x, hx, hdev⟩ := memHome_space hm
        have hxu : decodeSa u (pipeView u (hdrHalf m)) m.sa = .ok x := by
          obtain ⟨_, rfl⟩ := ht.only
          exact hx
        rw [maskedWrite, hxu]
        dsimp only
        rw [if_neg hmask, hdev]
        rfl
      obtain ⟨u, hu, h1, h2⟩ := partnerWrite (c := .wrm m mask data) (opc := 9) (n := 32) rfl hshort
        (fun u ht => (hfm u ht).trans (memReq_partner hm u ht)) hopen hl hno harm
      exact ⟨u, hu, h1, memByte_sector h2⟩
    · have hlong : (16 + 128 + 61) / 62 ≤ classMax m.cls := by
        have hall : ∀ c : Fin 4, c ≠ 0 → (16 + 128 + 61) / 62 ≤ classMax c := by decide
        exact hall _ hcls
      obtain ⟨u, hu, h1, h2⟩ := partnerWrite (c := .wrl m data) (opc := 10) (n := 128) rfl hlong (fun u ht => memReq_partner hm u ht) hopen hl hno harm
      rw [mergeBytes_all] at h2
      exact ⟨u, hu, h1, lineData_stored h2, fun a ha => by rw [h2]; exact memByte_setData_outside s key _ ha⟩
  · intro m data ctag s h n base key hopen hcls hm hbuf hcalm harm hdam hblocks hline
    have hal : base.toNat % 4096 = 0 := by
      show (m.sa &&& ~~~(4095 : BitVec 52)).toNat % 4096 = 0
      have hz : (m.sa &&& ~~~(4095 : BitVec 52)) &&& 4095 = 0 := by
        rw [BitVec.and_assoc, show (~~~(4095 : BitVec 52)) &&& 4095 = 0 by decide]
        exact BitVec.and_zero
      have hmod := congrArg BitVec.toNat hz
      rw [BitVec.toNat_and] at hmod
      have := Nat.and_two_pow_sub_one_eq_mod (m.sa &&& ~~~(4095 : BitVec 52)).toNat 12
      simp only [Nat.reducePow, Nat.reduceSub] at this
      rw [← this]
      exact hmod
    have hruns : domRuns s (h.pick 3 4) = true := memHome_runs hm
    obtain ⟨x, htook, hpart⟩ := partner_open (opc := 0x0B) (n := 4096) hopen (by rw [hcls]; decide) (blockWrite m false ctag data)
    have he : exec (.wrb m false ctag data) s = answer s (settle (blockWrite m false ctag data x)) := by rw [← hpart]; rfl
    have hmx : memHome m Rights.wr base x = .ok h := by
      obtain ⟨_, rfl⟩ := htook.only
      exact hm
    have hbw : blockWrite m false ctag data x = writeLines m base h data x := by
      unfold blockWrite
      dsimp only
      rw [show (m.sa &&& ~~~(4095 : BitVec 52)) = base from rfl, hmx]
      rfl
    have hw : Writing m data key x 32 (settle (writeLines m base h data x)) := by
      have hlive := htook.live hopen
      have hbl : x.links.blocks = [] := (congrArg Links.blocks htook.rest :).trans hblocks
      refine writeLines_settles hbuf hal hlive ?_ ?_ ?_ ?_ hbl ?_ <;>
      · obtain ⟨_, rfl⟩ := htook.only
        assumption
    rw [hbw] at he
    generalize settle (writeLines m base h data x) = u at he hw
    have hxc : x.cache = s.cache := htook.frame .cache (by decide)
    obtain ⟨hd1, hd2⟩ := hw.done rfl
    refine completesWith_answer he ⟨?_, fun i hi => ?_, fun a ha => ?_, hd1⟩
    · exact sends_congr rfl rfl (link_answered ..) (htook.sends hd2)
    · exact hw.lines i hi
    · refine (hw.out a (by omega)).trans ?_
      rw [hxc]

end Sys2Proof.Machine
end

section
/-! PROOFS. A unit that asks for several lines and collects their answers (R125, R275): reads of lines of BUF space. -/

namespace Sys2Proof.Machine

open Sys2Proof.Safety

/-! ## Asking and collecting -/

/-- Request e of a unit, as it enters. -/
def asReq (c : Consumer) (e : Nat × LineReq) : LineReq := { e.2 with who := .buf c e.1 }

/-- The state in which all requests of a unit have entered. -/
def asked (c : Consumer) (L : List (Nat × LineReq)) (s u : State) : Prop :=
  ∃ n b x, u = { s with cnt := n, bwr := b, tst := x, cache := { s.cache with asked := s.cache.asked ++ L.map fun e => (c, e.1),
                                                                              blocked := s.cache.blocked ++ L.map (asReq c) } }

/-- Nothing of the unit is under way. -/
def unasked (c : Consumer) (s : State) : Prop := (∀ p ∈ s.cache.asked, p.1 ≠ c) ∧ ∀ p ∈ s.cache.got, p.1 ≠ c

theorem asked_askAll (c : Consumer) (L : List (Nat × LineReq)) : ∀ s : State, (L.map Prod.fst).Nodup →
    (∀ e ∈ L, (c, e.1) ∉ s.cache.asked) → asked c L s (askAll c L s) := by
  induction L with
  | nil => exact fun s _ _ => ⟨_, _, _, by simp [askAll]; rfl⟩
  | cons e L ih =>
    intro s hn hfree
    rw [List.map_cons, List.nodup_cons] at hn
    have hstep : askAll c (e :: L) s = askAll c L (enqueue (asReq c e) (s.onCache fun q => { q with asked := q.asked ++ [(c, e.1)] })) := by
      rw [askAll, List.foldl_cons, if_neg (by simpa using hfree e (by simp))]
      rfl
    obtain ⟨v, hv, he⟩ := enqueue_counts (asReq c e) (s.onCache fun q => { q with asked := q.asked ++ [(c, e.1)] })
    obtain ⟨_, _, _, rfl⟩ := hv
    rw [hstep, he]
    generalize hz : requeue (asReq c e) _ = z
    have hnext : ∀ e' ∈ L, (c, e'.1) ∉ s.cache.asked ++ [(c, e.1)] := by
      intro e' he' hmem
      rw [List.mem_append, List.mem_singleton] at hmem
      rcases hmem with hmem | hmem
      · exact hfree e' (by simp [he']) hmem
      · exact hn.1 (List.mem_map.mpr ⟨e', he', by simpa using hmem⟩)
    obtain ⟨n, b, x, hx⟩ := ih z hn.2 (by rw [← hz]; exact hnext)
    refine ⟨n, b, x, hx.trans ?_⟩
    rw [← hz]
    simp [requeue, State.onCache]

/-- An answer that stands is found by its number. -/
theorem gotOf_one {c : Consumer} {L : List (Nat × LineReq)} {f : Nat × LineReq → LineRes} {s u : State} (hn : (L.map Prod.fst).Nodup)
    (hfree : unasked c s) (hgot : u.cache.got = s.cache.got ++ L.map fun e => (c, e.1, f e)) : ∀ e ∈ L, gotOf u c e.1 = some (f e) := by
  intro e he
  have hold : s.cache.got.find? (fun g => decide (g.1 = c ∧ g.2.1 = e.1)) = none :=
    List.find?_eq_none.mpr fun g hg => by simp [hfree.2 g hg]
  have hnew : (L.map fun e => (c, e.1, f e)).find? (fun g => decide (g.1 = c ∧ g.2.1 = e.1)) = some (c, e.1, f e) := by
    clear hgot
    induction L with
    | nil => cases he
    | cons a L ih =>
      rw [List.map_cons, List.nodup_cons] at hn
      by_cases ha : a.1 = e.1
      · obtain rfl : a = e := by
          rcases List.mem_cons.mp he with h | h
          · exact h.symm
          · exact absurd (List.mem_map.mpr ⟨e, h, ha.symm⟩) hn.1
        simp
      · have hmem : e ∈ L := (List.mem_cons.mp he).resolve_left fun h => ha (by rw [h])
        rw [List.map_cons, List.find?_cons_of_neg (by simp [ha])]
        exact ih hn.2 hmem
  rw [gotOf, hgot, List.find?_append, hold, hnew]
  rfl

theorem gotOf_all {c : Consumer} {L : List (Nat × LineReq)} {f : Nat × LineReq → LineRes} {s u : State} (hn : (L.map Prod.fst).Nodup)
    (hfree : unasked c s) (hgot : u.cache.got = s.cache.got ++ L.map fun e => (c, e.1, f e)) :
    L.filterMap (fun r => gotOf u c r.1) = L.map f := by
  rw [← List.filterMap_eq_map]
  exact List.filterMap_congr (gotOf_one hn hfree hgot)

/-- With every answer in, a unit has collected them. -/
theorem collect_done {c : Consumer} {L : List (Nat × LineReq)} {f : Nat × LineReq → LineRes} {s u : State} (hn : (L.map Prod.fst).Nodup)
    (hfree : unasked c s) (hu : settle (askAll c L s) = u) (hgot : u.cache.got = s.cache.got ++ L.map fun e => (c, e.1, f e)) :
    collect c L s = (some (L.map f), u) := by
  simp only [collect, hu, gotOf_all hn hfree hgot, List.length_map, if_true]

/-- A unit that has gathered its answers forgets them. -/
theorem gather_done {c : Consumer} {L : List (Nat × LineReq)} {f : Nat × LineReq → LineRes} {s u : State} (hn : (L.map Prod.fst).Nodup)
    (hfree : unasked c s) (hu : settle (askAll c L s) = u) (hgot : u.cache.got = s.cache.got ++ L.map fun e => (c, e.1, f e))
    (hask : u.cache.asked = s.cache.asked ++ L.map fun e => (c, e.1)) :
    gather c L s = (some (L.map f), { u with cache := { u.cache with asked := s.cache.asked, got := s.cache.got } }) := by
  have h1 : u.cache.asked.filter (fun e => !decide (e.1 = c)) = s.cache.asked := by
    rw [hask, List.filter_append, List.filter_eq_self.mpr fun a ha => by simp [hfree.1 a ha],
      List.filter_eq_nil_iff.mpr fun a ha => by obtain ⟨e, -, rfl⟩ := List.mem_map.mp ha; simp, List.append_nil]
  have h2 : u.cache.got.filter (fun e => !decide (e.1 = c)) = s.cache.got := by
    rw [hgot, List.filter_append, List.filter_eq_self.mpr fun a ha => by simp [hfree.2 a ha],
      List.filter_eq_nil_iff.mpr fun a ha => by obtain ⟨e, -, rfl⟩ := List.mem_map.mp ha; simp, List.append_nil]
  rw [gather, collect_done hn hfree hu hgot]
  dsimp only [forget, State.onCache]
  rw [h1, h2]

/-! ## Reads -/

/-- A request for a line of BUF space, whose home half runs, without damage. -/
structure BufLine (s : State) (r : LineReq) : Prop where
  buf : isBuf r.sa = true
  runs : domRuns s (r.home.pick 3 4) = true
  clean : rowClean s (bufKey r.sa) = true

/-- The answer of an unpoisoned read of a line of BUF space. -/
def bufRes (s : State) (e : Nat × LineReq) : LineRes :=
  { LineRes.st 0 with line := lineOf e.2.sa, data := lineData s (bufKey e.2.sa), lcrc := (metaAt s (bufKey e.2.sa)).lcrc }

/-- A unit has asked `ask` and got `got`: else only what lines record of their use, the waiting requests and counts have changed. -/
def reading (ask : List (Consumer × Nat)) (got : List (Consumer × Nat × LineRes)) (s t : State) : Prop :=
  ∃ l n b x bl ln te tw, t = { s with
    loops := l, cnt := n, bwr := b, tst := x, cache := { s.cache with blocked := bl, line := ln, toE := te, toW := tw, asked := ask, got := got } }

theorem reading.lineWork {ask : List (Consumer × Nat)} {got : List (Consumer × Nat × LineRes)} {s t u : State} (h : reading ask got s t)
    (hu : Machine.lineWork t u) : reading ask got s u := by
  obtain ⟨_, _, _, _, _, _, _, _, rfl⟩ := h
  obtain ⟨l, n, b, x, ln, te, tw, rfl⟩ := hu
  exact ⟨l, n, b, x, _, ln, te, tw, rfl⟩

theorem reading.onlyCounts {ask : List (Consumer × Nat)} {got : List (Consumer × Nat × LineRes)} {s t u : State} (h : reading ask got s t)
    (hu : Machine.onlyCounts t u) : reading ask got s u := h.lineWork (lineWork_of_onlyCounts hu)

theorem reading.blocked {ask : List (Consumer × Nat)} {got : List (Consumer × Nat × LineRes)} {s t : State} (h : reading ask got s t)
    (bl : List LineReq) : reading ask got s (t.onCache fun c => { c with blocked := bl }) := by
  obtain ⟨l, n, b, x, _, ln, te, tw, rfl⟩ := h
  exact ⟨l, n, b, x, bl, ln, te, tw, rfl⟩

theorem reading.gets {ask : List (Consumer × Nat)} {got : List (Consumer × Nat × LineRes)} {s t : State} (h : reading ask got s t)
    (a : Consumer × Nat × LineRes) : reading ask (got ++ [a]) s { t with cache := { t.cache with got := t.cache.got ++ [a] } } := by
  obtain ⟨l, n, b, x, bl, ln, te, tw, rfl⟩ := h
  exact ⟨l, n, b, x, bl, ln, te, tw, rfl⟩

theorem reading.facts {ask : List (Consumer × Nat)} {got : List (Consumer × Nat × LineRes)} {s t : State} (h : reading ask got s t) :
    t.tables = s.tables ∧ t.pwr = s.pwr ∧ t.cache.ecc = s.cache.ecc ∧ t.cache.data = s.cache.data ∧ t.cache.asked = ask := by
  obtain ⟨_, _, _, _, _, _, _, _, rfl⟩ := h
  exact ⟨rfl, rfl, rfl, rfl, rfl⟩

/-- The first k reads of L have been served: their answers stand. -/
structure Served (c : Consumer) (L : List (Nat × LineReq)) (s : State) (k : Nat) (t : State) : Prop where
  work : reading (s.cache.asked ++ L.map fun e => (c, e.1)) (s.cache.got ++ (L.take k).map fun e => (c, e.1, bufRes s e)) s t
  metas : ∀ i, (metaAt t i).sp = (metaAt s i).sp ∧ (metaAt t i).lcrc = (metaAt s i).lcrc ∧ (metaAt t i).sharers = (metaAt s i).sharers
  other : ∀ i, (∀ e ∈ L.take k, bufKey e.2.sa ≠ i) → metaAt t i = metaAt s i

theorem ReadMeta.same {key : Nat} {s u : State} (h : ReadMeta none key s u) (i : Nat) :
    (metaAt u i).sp = (metaAt s i).sp ∧ (metaAt u i).lcrc = (metaAt s i).lcrc ∧ (metaAt u i).sharers = (metaAt s i).sharers := by
  by_cases hi : i = key
  · subst hi
    exact ⟨h.sp, h.lcrc, h.sharers⟩
  · rw [h.other i hi]
    exact ⟨rfl, rfl, rfl⟩

/-- The answer that a unit gets. -/
theorem answerReq_read_buf {r : LineReq} {sp : Span} {ro : Option Nat} {melt : Bool} {c : Consumer} {k : Nat} {x : LineRes}
    (hop : r.op = .read sp ro melt) (hwho : r.who = .buf c k) (hst : x.status = 0) (hp : x.poison = 0) (key : Option Nat) {s : State}
    (ha : (c, k) ∈ s.cache.asked) :
    ∃ u, onlyCounts s u ∧ answerReq r x key s = { u with cache := { u.cache with got := u.cache.got ++ [(c, k, { x with line := lineOf r.sa })] } } := by
  have hu := onlyCounts_answerUnits r 0 s
  refine ⟨answerUnits r 0 s, hu, ?_⟩
  have hask : (answerUnits r 0 s).cache.asked.contains (c, k) = true := by
    obtain ⟨_, _, _, h⟩ := hu
    rw [h]
    simpa using ha
  have hx : { x with status := 0, line := lineOf r.sa, data := x.data, poison := (0 : BitVec 4) } = { x with line := lineOf r.sa } := by
    obtain ⟨_, _, _, _, _, _, _⟩ := x
    cases hst
    cases hp
    rfl
  rw [← hx]
  simp [answerReq, hop, hwho, hst, hp, poisonData_zero, stPoison, State.onCache]
  exact fun h => absurd (by simpa using hask) h

theorem bufRes_of_line {s t : State} (hd : t.cache.data = s.cache.data)
    (hm : ∀ i, (metaAt t i).sp = (metaAt s i).sp ∧ (metaAt t i).lcrc = (metaAt s i).lcrc ∧ (metaAt t i).sharers = (metaAt s i).sharers)
    (e : Nat × LineReq) : bufRes t e = bufRes s e := by
  simp only [bufRes, lineData, hd, (hm _).2.1]

/-- One read of a unit. -/
theorem served_step {c : Consumer} {L : List (Nat × LineReq)} {sp : Span} {melt : Bool} {s t : State} {k : Nat} {post : List LineReq}
    (hdam : s.tables.damage = []) (hL : ∀ e ∈ L, e.2.op = .read sp none melt ∧ BufLine s e.2 ∧ (metaAt s (bufKey e.2.sa)).sp = 0)
    (hk : k < L.length) (hs : Served c L s k t) (hb : t.cache.blocked = post) (hc : calm (unblocked t) = true) :
    ∃ u, tryReq (asReq c L[k]) t = (true, u) ∧ u.cache.blocked = post ∧ calm (unblocked u) = true ∧ Served c L s (k + 1) u := by
  obtain ⟨hop, hline, hsp⟩ := hL L[k] (List.getElem_mem hk)
  obtain ⟨-, hinvs, -, -, -⟩ := unblocked_facts hc
  obtain ⟨htab, hpwr, hecc, hdata, htask⟩ := hs.work.facts
  have htry := tryReq_buf (r := asReq c L[k]) (s := t) hline.buf (by rw [domRuns, domSt, hpwr]; exact hline.runs)
    (by rw [htab]; exact hdam) (rowClean_of_subset (by rw [hecc]; exact fun _ h => h) hline.clean) hinvs
  obtain ⟨u1, hu1, hserve, hmeta⟩ := serveRead_work (asReq c L[k]) none melt (bufKey L[k].2.sa) t
  have hop' : (asReq c L[k]).op = .read sp none melt := hop
  have hat : atLine (asReq c L[k]) (bufKey L[k].2.sa) t = (true, serveRead (asReq c L[k]) none melt (bufKey L[k].2.sa) t) := by
    simp only [atLine, hop']
  have h1 := hs.work.lineWork hu1
  have hask1 : (c, L[k].1) ∈ u1.cache.asked := by
    rw [h1.facts.2.2.2.2]
    exact List.mem_append_right _ (List.mem_map.mpr ⟨L[k], List.getElem_mem hk, rfl⟩)
  obtain ⟨u2, hu2, hans⟩ := answerReq_read_buf (x := readRes none (bufKey L[k].2.sa) t) (k := L[k].1) hop' rfl rfl ((hs.metas _).1.trans hsp)
    (some (bufKey L[k].2.sa)) hask1
  have hres : ({ readRes none (bufKey L[k].2.sa) t with line := lineOf (asReq c L[k]).sa } : LineRes) = bufRes s L[k] := by
    rw [← bufRes_of_line hdata hs.metas]
    simp only [readRes, (hs.metas _).1, hsp]
    rfl
  rw [hres] at hans
  rw [show bufKey (asReq c L[k]).sa = bufKey L[k].2.sa from rfl, hat, hserve, hans] at htry
  obtain ⟨u, hu, hdone⟩ := charged_done (asReq c L[k]).home (asReq c L[k]).master
    { u2 with cache := { u2.cache with got := u2.cache.got ++ [(c, L[k].1, bufRes s L[k])] } }
  have h3 := ((h1.onlyCounts hu2).gets (c, L[k].1, bufRes s L[k])).onlyCounts hu
  rw [List.append_assoc, show [(c, L[k].1, bufRes s L[k])] = [L[k]].map fun e => (c, e.1, bufRes s e) from rfl, ← List.map_append,
    List.take_append_getElem hk] at h3
  have hkeep : u.cache.blocked = t.cache.blocked ∧ calm (unblocked u) = calm (unblocked t) ∧ ∀ i, metaAt u i = metaAt u1 i := by
    obtain ⟨_, _, _, rfl⟩ := hu
    obtain ⟨_, _, _, rfl⟩ := hu2
    obtain ⟨_, _, _, _, _, _, _, rfl⟩ := hu1
    exact ⟨rfl, rfl, fun _ => rfl⟩
  obtain ⟨k1, k2, k3⟩ := hkeep
  refine ⟨u, htry.trans hdone, k1.trans hb, k2.trans hc, h3, fun i => ?_, fun i hi => ?_⟩
  · rw [k3]
    obtain ⟨m1, m2, m3⟩ := hmeta.same i
    obtain ⟨n1, n2, n3⟩ := hs.metas i
    exact ⟨m1.trans n1, m2.trans n2, m3.trans n3⟩
  · rw [← List.take_append_getElem hk] at hi
    rw [k3, hmeta.other i fun h => hi L[k] (List.mem_append_right _ (List.mem_singleton_self _)) h.symm]
    exact hs.other i fun e he => hi e (List.mem_append_left _ he)

/-- Reads of lines of BUF space: all are answered at once. -/
theorem settle_reads {c : Consumer} {L : List (Nat × LineReq)} {sp : Span} {melt : Bool} {s : State} (hcalm : calm s = true)
    (hdam : s.tables.damage = []) (hn : (L.map Prod.fst).Nodup) (hfree : unasked c s)
    (hL : ∀ e ∈ L, e.2.op = .read sp none melt ∧ BufLine s e.2 ∧ (metaAt s (bufKey e.2.sa)).sp = 0) :
    Served c L s L.length (settle (askAll c L s)) ∧ calm (settle (askAll c L s)) = true := by
  obtain ⟨n, b, x, hy⟩ := asked_askAll c L s hn fun e _ hmem => hfree.1 _ hmem rfl
  generalize askAll c L s = y at hy ⊢
  have hyb : y.cache.blocked = L.map (asReq c) := by
    rw [hy]
    exact congrArg (· ++ _) (calm_iff.mp hcalm).1
  have hycalm : calm (unblocked y) = true := by
    obtain ⟨-, h1, h2, h3, h4, h5⟩ := calm_iff.mp hcalm
    rw [hy]
    exact calm_iff.mpr ⟨rfl, h1, h2, h3, h4, h5⟩
  have hy0 : Served c L s 0 y := by
    refine ⟨⟨s.loops, n, b, x, y.cache.blocked, s.cache.line, s.cache.toE, s.cache.toW, ?_⟩, fun i => ?_, fun i _ => ?_⟩
    · rw [hy]
      simp
    · rw [hy]
      exact ⟨rfl, rfl, rfl⟩
    · rw [hy]
      rfl
  have hbunch : Bunch (L.map (asReq c)) fun pre t => Served c L s pre.length t := by
    refine ⟨fun pre t bl hs => ⟨hs.work.blocked bl, hs.metas, hs.other⟩, fun pre r post t hsplit hb hc hs => ?_⟩
    have hlen : pre.length < L.length := by
      have := congrArg List.length hsplit
      simp at this
      omega
    have hr : r = asReq c L[pre.length] := by
      have hget := congrArg (fun l => l[pre.length]?) hsplit
      simp [hlen] at hget
      exact hget.symm
    rw [hr, List.length_append]
    exact served_step hdam hL hlen hs hb hc
  obtain ⟨hcu, hQ⟩ := hbunch.settle hyb hycalm hy0
  rw [List.length_map] at hQ
  exact ⟨hQ, hcu⟩

/-- A unit gathers unpoisoned lines of BUF space: nothing changes but what lines record of their use. -/
theorem gather_reads {c : Consumer} {L : List (Nat × LineReq)} {sp : Span} {melt : Bool} {s : State} (hcalm : calm s = true)
    (hdam : s.tables.damage = []) (hn : (L.map Prod.fst).Nodup) (hfree : unasked c s)
    (hL : ∀ e ∈ L, e.2.op = .read sp none melt ∧ BufLine s e.2 ∧ (metaAt s (bufKey e.2.sa)).sp = 0) :
    ∃ u, gather c L s = (some (L.map (bufRes s)), u) ∧ lineWork s u ∧ calm u = true := by
  obtain ⟨⟨hwork, -⟩, hc⟩ := settle_reads hcalm hdam hn hfree hL
  rw [List.take_length] at hwork
  generalize hu : settle (askAll c L s) = u at hwork hc
  refine ⟨_, gather_done hn hfree hu ?_ hwork.facts.2.2.2.2, ?_, hc⟩
  · obtain ⟨_, _, _, _, _, _, _, _, rfl⟩ := hwork
    rfl
  · have hbl : u.cache.blocked = s.cache.blocked := by rw [(calm_iff.mp hcalm).1, (calm_iff.mp hc).1]
    clear hu hc
    obtain ⟨l, n, b, x, bl, ln, te, tw, rfl⟩ := hwork
    obtain rfl : bl = s.cache.blocked := hbl
    exact ⟨l, n, b, x, ln, te, tw, rfl⟩

end Sys2Proof.Machine
end

section
/-! PROOFS. Check tags of blocks (CKTAG, R275). -/

namespace Sys2Proof.Machine

open Sys2Proof.Safety

/-- Line k's request of a CKTAG. -/
def cktagReq (s : State) (t : ThreadId) (sa : Sa) (home : Half) (k : Nat) : LineReq :=
  mkReq s (.buf (.cktag t) k) (.read .line none false) (blockBase sa + BitVec.ofNat 52 (128 * k)) (thr s t.val).part (thrHalf t.val)
    (match decodeSa s (pipeView s (thrHalf t.val)) (blockBase sa + BitVec.ofNat 52 (128 * k)) with
     | .ok x => x.home t.val
     | .error _ => home)

theorem blockBase_aligned {sa : Sa} (h : sa.toNat % 4096 = 0) : blockBase sa = sa := by
  have hlow : sa &&& 4095#52 = 0#52 := by
    apply BitVec.eq_of_toNat_eq
    rw [BitVec.toNat_and, BitVec.toNat_ofNat, show 4095 % 2 ^ 52 = 2 ^ 12 - 1 by decide, Nat.and_two_pow_sub_one_eq_mod]
    simpa using h
  have hsplit : sa &&& 4095#52 ||| blockBase sa = sa := by
    rw [blockBase, ← BitVec.and_or_distrib_left, show (4095#52 ||| ~~~(4095 : BitVec 52)) = BitVec.allOnes 52 by decide, BitVec.and_allOnes]
  rwa [hlow, BitVec.zero_or] at hsplit

/-- The tag of lines is the XOR of their CRCs. -/
theorem tagOf_bufRes (s : State) (g : Nat → Nat × LineReq) (l : List Nat) :
    tagOf ((l.map g).map (bufRes s)) = l.foldl (fun v i => v ^^^ (metaAt s (bufKey (g i).2.sa)).lcrc) 0 := by
  rw [tagOf, List.map_map, List.foldl_map]
  rfl

/-- Settles O60. -/
theorem blockTags : Obligations.BlockTags := by
  intro t f s x sa hi hc hb hv hcc s1 th pva hr s2 hlen hbuf hal hx hcalm hdam hask hgot hline
  have he : exec (.cktag t f) s = execCktag t f s := rfl
  have hthr : ∀ k, thr s2 k = thr (fetched t s) k := thr_reached t pva Rights.rd 0 _ _
  have hfull : outsFull s2 t = false := outsFull_of_lt (by rw [hthr]; exact hlen)
  have hlegal : (f.b == 0 && noVC f) = true := by simp [hb, noVC, hv, hcc]
  rw [execCktag, hlegal, instr_issues 0 _ hi hc] at he
  dsimp only at he
  have hr : reachesAt t pva 4096 Rights.rd 0 noDev x sa (fetched t s) := hr
  have hs2 : reached t pva Rights.rd 0 noDev (fetched t s) = s2 := rfl
  have hpva : effAddr (thr (fetched t s) t.val) f = pva := rfl
  clear_value s2 pva
  rw [hpva, access_reaches hr, hs2, hfull] at he
  simp only [Bool.false_eq_true, if_false] at he
  have hreqs : blockReqs s2 t (.cktag t) sa (x.home t.val) = (List.range 32).map fun k => (k, cktagReq s2 t sa (x.home t.val) k) := rfl
  have hnodup : (((List.range 32).map fun k => (k, cktagReq s2 t sa (x.home t.val) k)).map Prod.fst).Nodup := by
    rw [List.map_map]
    exact List.nodup_range.map fun _ _ h => h
  have hfree : unasked (.cktag t) s2 := by
    refine ⟨?_, ?_⟩
    · rw [hask]
      simp
    · rw [hgot]
      simp
  have hsa : ∀ k, (cktagReq s2 t sa (x.home t.val) k).sa = sa + BitVec.ofNat 52 (128 * k) := fun k => by
    rw [cktagReq, blockBase_aligned hal]
    rfl
  have hread : ∀ e ∈ (List.range 32).map fun k => (k, cktagReq s2 t sa (x.home t.val) k),
      e.2.op = .read .line none false ∧ BufLine s2 e.2 ∧ (metaAt s2 (bufKey e.2.sa)).sp = 0 := by
    intro e he
    obtain ⟨k, hk, rfl⟩ := List.mem_map.mp he
    have hk := List.mem_range.mp hk
    obtain ⟨hkey, hkbuf⟩ := line_of_run 32 (.inr rfl) hal hk
    obtain ⟨⟨y, hy, hruns⟩, hclean, hsp⟩ := hline k hk
    have hhome : (cktagReq s2 t sa (x.home t.val) k).home = y.home t.val := by
      rw [← blockBase_aligned hal] at hy
      simp only [cktagReq, mkReq, hy]
    refine ⟨rfl, ⟨?_, ?_, ?_⟩, ?_⟩
    · rw [hsa]
      exact hkbuf.trans hbuf
    · rw [hhome]
      exact hruns
    · rw [hsa, hkey]
      exact hclean
    · rw [hsa, hkey]
      exact hsp
  obtain ⟨u, hu, hwork, -⟩ := gather_reads hcalm hdam hnodup hfree hread
  have htag : tagOf (((List.range 32).map fun k => (k, cktagReq s2 t sa (x.home t.val) k)).map (bufRes s2)) =
      (List.range 32).foldl (fun v i => v ^^^ (metaAt s2 (bufKey sa + i)).lcrc) 0 := by
    rw [tagOf_bufRes]
    refine List.foldl_ext _ _ _ fun v i hi => ?_
    rw [hsa, (line_of_run 32 (.inr rfl) hal (List.mem_range.mp hi)).1]
  rw [hreqs, hu] at he
  dsimp only at he
  have hok : ((((List.range 32).map fun k => (k, cktagReq s2 t sa (x.home t.val) k)).map (bufRes s2)).any fun y => y.status != 0) = false := by
    simp [bufRes, LineRes.st]
  rw [hok, htag, if_neg (by decide)] at he
  refine completesWith_answer he ⟨?_, fun k hk => ?_, ?_⟩
  · rw [thr_answered, thr_retire_self, thr_lineWork hwork, hthr]
    have hnext (y : Thread) (v : BitVec 64) :
        ({ (({ y with held := none, ahead := none } : Thread).setG f.d.toNat v).next with wait := none, waitLeft := none, hit := none, xl := none } : Thread) =
          ended (y.setG f.d.toNat v).next := by
      unfold Thread.setG
      split <;> rfl
    exact hnext _ _
  · rw [thr_answered, thr_retire_ne _ _ _ hk, thr_lineWork hwork, hthr]
  · rw [sameBytes_answered]
    exact sameBytes_of_data (((retire_frame t _ u).1 .cache (by decide)).symm ▸ data_lineWork hwork)

end Sys2Proof.Machine
end

section
/-! PROOFS. A unit that writes several lines of BUF space and collects their answers (R125). -/

namespace Sys2Proof.Machine

open Sys2Proof.Safety

/-! ## Answers with marks of later writes -/

/-- An answer without its mark. -/
def unmark (x : LineRes) : LineRes := { x with written := false }

theorem unmarked_append (a b : List (Consumer × Nat × LineRes)) : unmarked (a ++ b) = unmarked a ++ unmarked b := List.map_append

theorem gotOf_unmarked {s u : State} (h : unmarked u.cache.got = unmarked s.cache.got) (c : Consumer) (k : Nat) :
    (gotOf u c k).map unmark = (gotOf s c k).map unmark := by
  have hone (t : State) : (gotOf t c k).map unmark =
      ((unmarked t.cache.got).find? fun e => decide (e.1 = c ∧ e.2.1 = k)).map fun e => e.2.2 := by
    rw [unmarked, List.find?_map, gotOf, Option.map_map, Option.map_map]
    rfl
  rw [hone, hone, h]

/-- With every answer in, a unit has collected them, whatever their marks. -/
theorem collect_marked {c : Consumer} {L : List (Nat × LineReq)} {f : Nat × LineReq → LineRes} {s u : State} (hn : (L.map Prod.fst).Nodup)
    (hfree : unasked c s) (hu : settle (askAll c L s) = u)
    (hgot : unmarked u.cache.got = unmarked (s.cache.got ++ L.map fun e => (c, e.1, f e))) :
    ∃ g, collect c L s = (some (L.map g), u) ∧ ∀ e ∈ L, unmark (g e) = unmark (f e) := by
  have heach : ∀ e ∈ L, ∃ y, gotOf u c e.1 = some y ∧ unmark y = unmark (f e) := by
    intro e he
    have hone := gotOf_one (f := f) (s := s) (u := { s with cache := { s.cache with got := s.cache.got ++ L.map fun e => (c, e.1, f e) } }) hn
      hfree rfl e he
    have hm := gotOf_unmarked (s := { s with cache := { s.cache with got := s.cache.got ++ L.map fun e => (c, e.1, f e) } }) hgot c e.1
    rw [hone] at hm
    cases hy : gotOf u c e.1 with
    | none => rw [hy] at hm; cases hm
    | some y =>
      rw [hy] at hm
      exact ⟨y, rfl, by simpa using hm⟩
  refine ⟨fun e => (gotOf u c e.1).getD (f e), ?_, fun e he => ?_⟩
  · have hall : L.filterMap (fun r => gotOf u c r.1) = L.map fun e => (gotOf u c e.1).getD (f e) := by
      rw [← List.filterMap_eq_map]
      refine List.filterMap_congr fun e he => ?_
      obtain ⟨y, hy, -⟩ := heach e he
      simp [hy]
    simp only [collect, hu, hall, List.length_map, if_true]
  · obtain ⟨y, hy, hm⟩ := heach e he
    simpa [hy] using hm

/-! ## Writes -/

/-- A unit's write of a line. -/
structure BufWrite (s : State) (r : LineReq) (mask : BitVec 128) (d : BitVec 1024) : Prop where
  op : r.op = .write mask d
  line : BufLine s r
  alone : noCopies s (bufKey r.sa) = true

/-- The first k writes of L have been performed: the lines that they name hold their data, everything else in memory is as it was. -/
structure Stored (c : Consumer) (L : List (Nat × LineReq)) (mask : BitVec 128) (d : Nat × LineReq → BitVec 1024) (s : State) (k : Nat) (t : State) :
    Prop where
  frame : changesOnly [.loops, .cnt, .bwr, .tst, .integ, .seq, .atu, .cache] s t
  cache : ∃ bl da ln ec g, t.cache = { s.cache with blocked := bl, data := da, line := ln, ecc := ec, got := g,
                                                    asked := s.cache.asked ++ L.map fun e => (c, e.1) }
  ecc : ∀ e ∈ t.cache.ecc, e ∈ s.cache.ecc
  arm : t.integ.injArm = s.integ.injArm
  metas : ∀ i, (∀ e ∈ L.take k, bufKey e.2.sa ≠ i) → metaAt t i = metaAt s i
  lines : ∀ e ∈ L.take k, lineData t (bufKey e.2.sa) = mergeBytes mask (lineData s (bufKey e.2.sa)) (d e)
  out : ∀ a, (∀ e ∈ L.take k, a < 128 * bufKey e.2.sa ∨ 128 * bufKey e.2.sa + 128 ≤ a) → memByte t.cache.data a = memByte s.cache.data a
  woken : Woken { s with cache := { s.cache with got := s.cache.got ++ (L.take k).map fun e => (c, e.1, { LineRes.st 0 with line := lineOf e.2.sa }) } } t

/-- The answer that a unit's write gets. -/
theorem answerReq_write_buf {r : LineReq} {mask : BitVec 128} {d : BitVec 1024} {c : Consumer} {k : Nat} (hop : r.op = .write mask d)
    (hwho : r.who = .buf c k) (key : Option Nat) {s : State} (ha : (c, k) ∈ s.cache.asked) :
    ∃ u, onlyCounts s u ∧ answerReq r (LineRes.st 0) key s =
      { u with cache := { u.cache with got := u.cache.got ++ [(c, k, { LineRes.st 0 with line := lineOf r.sa })] } } := by
  have hu := onlyCounts_answerUnits r 0 s
  refine ⟨answerUnits r 0 s, hu, ?_⟩
  have hask : (c, k) ∈ (answerUnits r 0 s).cache.asked := by
    obtain ⟨_, _, _, h⟩ := hu
    rw [h]
    exact ha
  simp [answerReq, hop, hwho, stPoison, State.onCache, hask, LineRes.st]

/-- A line of which no byte has changed. -/
theorem lineData_same {s t : State} {key : Nat} (h : ∀ a, 128 * key ≤ a → a < 128 * key + 128 → memByte t.cache.data a = memByte s.cache.data a) :
    lineData t key = lineData s key :=
  congrArg (BitVec.ofNat 1024) (memRead_congr _ _ _ _ fun i hi => h _ (by omega) (by omega))

/-- The lines before the kth are others. -/
theorem keys_before {L : List (Nat × LineReq)} (hd : (L.map fun e => bufKey e.2.sa).Nodup) {k : Nat} (hk : k < L.length) :
    ∀ e ∈ L.take k, bufKey e.2.sa ≠ bufKey L[k].2.sa := by
  intro e he heq
  have hsplit := hd.sublist ((List.take_sublist (k + 1) L).map _)
  rw [← List.take_append_getElem hk, List.map_append, List.nodup_append] at hsplit
  exact hsplit.2.2 _ (List.mem_map.mpr ⟨e, he, rfl⟩) _ (by simp) heq

/-- One write of a unit. -/
theorem stored_step {c : Consumer} {L : List (Nat × LineReq)} {mask : BitVec 128} {d : Nat × LineReq → BitVec 1024} {s t : State} {k : Nat}
    {post : List LineReq} (hdam : s.tables.damage = []) (harm : s.integ.injArm = false) (hd : (L.map fun e => bufKey e.2.sa).Nodup)
    (hL : ∀ e ∈ L, BufWrite s e.2 mask (d e)) (hk : k < L.length) (hs : Stored c L mask d s k t) (hb : t.cache.blocked = post)
    (hc : calm (unblocked t) = true) :
    ∃ u, tryReq (asReq c L[k]) t = (true, u) ∧ u.cache.blocked = post ∧ calm (unblocked u) = true ∧ Stored c L mask d s (k + 1) u := by
  obtain ⟨hop, hline, hno⟩ := hL L[k] (List.getElem_mem hk)
  have hbefore := keys_before hd hk
  obtain ⟨-, hinvs, -, -, -⟩ := unblocked_facts hc
  obtain ⟨bl, da, ln, ec, g, htc⟩ := hs.cache
  have htry := tryReq_buf (r := asReq c L[k]) (s := t) hline.buf (by rw [domRuns, domSt, hs.frame .pwr (by decide)]; exact hline.runs)
    (by rw [hs.frame .tables (by decide)]; exact hdam) (rowClean_of_subset hs.ecc hline.clean) hinvs
  rw [show bufKey (asReq c L[k]).sa = bufKey L[k].2.sa from rfl] at htry
  have hmeta : metaAt t (bufKey L[k].2.sa) = metaAt s (bufKey L[k].2.sa) := hs.metas _ hbefore
  have hsame : lineData t (bufKey L[k].2.sa) = lineData s (bufKey L[k].2.sa) :=
    lineData_same fun a h1 h2 => hs.out a fun e he => by
      have := hbefore e he
      omega
  obtain ⟨u1, hu1, hdata, hserve⟩ := serveWrite_work (asReq c L[k]) mask (d L[k]) (bufKey L[k].2.sa) (s := t) (hs.arm.trans harm)
  have hop' : (asReq c L[k]).op = .write mask (d L[k]) := hop
  have hat : atLine (asReq c L[k]) (bufKey L[k].2.sa) t = (true, serveWrite (asReq c L[k]) mask (d L[k]) (bufKey L[k].2.sa) t) := by
    unfold atLine
    dsimp only
    rw [hop']
    dsimp only
    rw [hmeta, needInv_of_noCopies hno, if_neg (by simp)]
  obtain ⟨da1, ln1, ec1, g1, h1c⟩ := hu1.cache
  have hask1 : (c, L[k].1) ∈ u1.cache.asked := by
    rw [h1c, htc]
    exact List.mem_append_right _ (List.mem_map.mpr ⟨L[k], List.getElem_mem hk, rfl⟩)
  obtain ⟨u2, hu2, hans⟩ := answerReq_write_buf (k := L[k].1) hop' rfl (some (bufKey L[k].2.sa)) hask1
  rw [hat, hserve, hans] at htry
  obtain ⟨u, hu, hdone⟩ := charged_done (asReq c L[k]).home (asReq c L[k]).master
    { u2 with cache := { u2.cache with got := u2.cache.got ++ [(c, L[k].1, { LineRes.st 0 with line := lineOf (asReq c L[k]).sa })] } }
  have hlast : u.cache = { u1.cache with got := u1.cache.got ++ [(c, L[k].1, { LineRes.st 0 with line := lineOf L[k].2.sa })] } ∧
      changesOnly [.cnt, .bwr, .tst, .cache] u1 u ∧ u.seq = u1.seq := by
    obtain ⟨_, _, _, rfl⟩ := hu
    obtain ⟨_, _, _, rfl⟩ := hu2
    exact ⟨rfl, fun b hb => by cases b <;> first | rfl | simp at hb, rfl⟩
  obtain ⟨huc, huf, hus⟩ := hlast
  have htf : changesOnly [.loops, .cnt, .bwr, .tst, .integ, .seq, .atu, .cache] t u :=
    changesOnly_trans hu1.frame (changesOnly_mono huf (by decide))
  have hbytes : u.cache.data = (setData t (bufKey L[k].2.sa) (mergeBytes mask (lineData s (bufKey L[k].2.sa)) (d L[k]))).cache.data := by
    rw [huc, ← hsame]
    exact hdata
  refine ⟨u, htry.trans hdone, ?_, ?_, ?_⟩
  · rw [huc, h1c]
    exact hb
  · refine unblocked_calm (s := t) ⟨da1, ln1, ec1, g1 ++ [(c, L[k].1, { LineRes.st 0 with line := lineOf L[k].2.sa })], t.cache.toE,
      t.cache.toW, ?_⟩ ?_ (htf .buf (by decide)) hc
    · rw [huc, h1c]
    · rw [← hu1.idle, addlsIdle, addlsIdle, huf .atu (by decide)]
  have hmetas (i : Nat) : metaAt u i = metaAt u1 i := by
    rw [metaAt, metaAt, metaDefault, metaDefault, region, region, huc, huf .tables (by decide)]
  have hmem (e : Nat × LineReq) : e ∈ L.take (k + 1) ↔ e ∈ L.take k ∨ e = L[k] := by
    rw [← List.take_append_getElem hk, List.mem_append, List.mem_singleton]
  refine ⟨changesOnly_trans hs.frame htf, ⟨bl, da1, ln1, ec1,
      g1 ++ [(c, L[k].1, { LineRes.st 0 with line := lineOf L[k].2.sa })], ?_⟩, fun e he => hs.ecc e (hu1.ecc e (by rw [huc] at he; exact he)), ?_,
    fun i hi => ?_, fun e he => ?_, fun a ha => ?_, ?_⟩
  · rw [huc, h1c, htc]
  · rw [huf .integ (by decide), hu1.arm, hs.arm]
  · rw [hmetas, hu1.metas i fun h => hi L[k] ((hmem _).mpr (.inr rfl)) h.symm]
    exact hs.metas i fun e he => hi e ((hmem e).mpr (.inl he))
  · rcases (hmem e).mp he with he | rfl
    · rw [← hs.lines e he]
      refine lineData_same fun a h1 h2 => ?_
      have := hbefore e he
      rw [hbytes]
      exact memByte_setData_outside t _ _ (by omega)
    · exact lineData_stored hbytes
  · rw [hbytes, memByte_setData_outside t _ _ (ha L[k] ((hmem _).mpr (.inr rfl)))]
    exact hs.out a fun e he => ha e ((hmem e).mpr (.inl he))
  · have hwu := hu1.woken
    refine ⟨fun i => ?_, ?_, ?_⟩
    · obtain ⟨w, hw⟩ := (hs.woken.trans hwu).threads i
      exact ⟨w, (thr_congr hus i).trans hw⟩
    · obtain ⟨q, hq⟩ := (hs.woken.trans hwu).seq
      exact ⟨q, hus.trans hq⟩
    · show unmarked u.cache.got = unmarked (s.cache.got ++ (L.take (k + 1)).map fun e => (c, e.1, { LineRes.st 0 with line := lineOf e.2.sa }))
      have hgot : u.cache.got = u1.cache.got ++ [(c, L[k].1, { LineRes.st 0 with line := lineOf L[k].2.sa })] := by rw [huc]
      rw [hgot, unmarked_append, hwu.got, hs.woken.got, ← unmarked_append, ← List.take_append_getElem hk, List.map_append, ← List.append_assoc]
      rfl

/-- Writes of lines of BUF space: all are performed at once. -/
theorem settle_writes {c : Consumer} {L : List (Nat × LineReq)} {mask : BitVec 128} {d : Nat × LineReq → BitVec 1024} {s : State}
    (hcalm : calm s = true) (hdam : s.tables.damage = []) (harm : s.integ.injArm = false) (hn : (L.map Prod.fst).Nodup)
    (hd : (L.map fun e => bufKey e.2.sa).Nodup) (hfree : unasked c s) (hL : ∀ e ∈ L, BufWrite s e.2 mask (d e)) :
    Stored c L mask d s L.length (settle (askAll c L s)) ∧ calm (settle (askAll c L s)) = true := by
  obtain ⟨n, b, x, hy⟩ := asked_askAll c L s hn fun e _ hmem => hfree.1 _ hmem rfl
  generalize askAll c L s = y at hy ⊢
  have hyb : y.cache.blocked = L.map (asReq c) := by
    rw [hy]
    exact congrArg (· ++ _) (calm_iff.mp hcalm).1
  have hycalm : calm (unblocked y) = true := by
    obtain ⟨-, h1, h2, h3, h4, h5⟩ := calm_iff.mp hcalm
    rw [hy]
    exact calm_iff.mpr ⟨rfl, h1, h2, h3, h4, h5⟩
  have hy0 : Stored c L mask d s 0 y := by
    rw [hy]
    refine ⟨fun b hb => by cases b <;> first | rfl | simp at hb, ⟨_, _, _, _, _, rfl⟩, fun _ h => h, rfl, fun _ _ => rfl, fun e he => by simp at he,
      fun _ _ => rfl, woken_of_same rfl ?_⟩
    simp
  have hbunch : Bunch (L.map (asReq c)) fun pre t => Stored c L mask d s pre.length t := by
    refine ⟨fun pre t bl hs => ?_, fun pre r post t hsplit hb hc hs => ?_⟩
    · obtain ⟨h1, ⟨_, da, ln, ec, g, h2⟩, h3, h4, h5, h6, h7, h8⟩ := hs
      exact ⟨changesOnly_trans h1 (by simp), ⟨bl, da, ln, ec, g, by rw [State.onCache, h2]⟩, h3, h4, h5, h6, h7,
        ⟨h8.threads, h8.seq, h8.got⟩⟩
    · have hlen : pre.length < L.length := by
        have := congrArg List.length hsplit
        simp at this
        omega
      have hr : r = asReq c L[pre.length] := by
        have hget := congrArg (fun l => l[pre.length]?) hsplit
        simp [hlen] at hget
        exact hget.symm
      rw [hr, List.length_append]
      exact stored_step hdam harm hd hL hlen hs hb hc
  obtain ⟨hcu, hQ⟩ := hbunch.settle hyb hycalm hy0
  rw [List.length_map] at hQ
  exact ⟨hQ, hcu⟩

end Sys2Proof.Machine
end

section
/-! PROOFS. Saved and restored contexts (R228, R230, R231). -/

namespace Sys2Proof.Machine

open Sys2Proof.Safety

/-! ## The requests of a slot -/

/-- Line i's request of a context slot. -/
def slotReq (s : State) (t : ThreadId) (c : Consumer) (sa : Sa) (need : Rights) (op : Nat → LineOp) (i : Nat) : LineReq :=
  mkReq s (.buf c i) (op i) (sa + BitVec.ofNat 52 (128 * i)) 0 (thrHalf t.val)
    ((ownHome s (thrHalf t.val) (sa + BitVec.ofNat 52 (128 * i)) need).getD .e)

/-- The requests of a slot whose lines all pass the checks. -/
theorem slotReqs_all {s : State} {t : ThreadId} {sa : Sa} {need : Rights} (c : Consumer) (op : Nat → LineOp)
    (h : ∀ i, i < 4 → (ownHome s (thrHalf t.val) (sa + BitVec.ofNat 52 (128 * i)) need).isSome = true) :
    slotReqs s t c sa need op = some ((List.range 4).map fun i => (i, slotReq s t c sa need op i)) := by
  have hall (f : Nat → Option (Nat × LineReq)) (hf : ∀ i, i < 4 → f i = some (i, slotReq s t c sa need op i)) :
      (List.range 4).filterMap f = (List.range 4).map fun i => (i, slotReq s t c sa need op i) := by
    rw [← List.filterMap_eq_map]
    exact List.filterMap_congr fun i hi => hf i (List.mem_range.mp hi)
  unfold slotReqs
  dsimp only
  rw [hall _ fun i hi => by
    obtain ⟨x, hx⟩ := Option.isSome_iff_exists.mp (h i hi)
    simp only [hx, slotReq, Option.getD_some]]
  rfl

/-- The half to which the sequencer's own access goes runs. -/
theorem ownHome_runs {s : State} {a : Half} {sa : Sa} {need : Rights} {h : Half} (hh : ownHome s a sa need = some h) : domRuns s (h.pick 3 4) = true := by
  have hup {x : Half} (hx : ¬ unavailable s x a = true) : domRuns s (x.pick 3 4) = true := by
    simp only [unavailable, Bool.or_eq_true, Bool.not_eq_true', not_or, Bool.not_eq_false] at hx
    exact homeUp_runs hx.1
  unfold ownHome at hh
  split at hh
  · split at hh
    · cases hh
    · cases hh
      exact hup ‹_›
  · split at hh
    · cases hh
    · cases hh
      exact hup ‹_›
  · cases hh

/-- What the accesses to a slot meet. -/
theorem slotReq_line {s : State} {t : ThreadId} {c : Consumer} {sa : Sa} {need : Rights} {op : Nat → LineOp} {i : Nat} (hi : i < 4)
    (hbuf : isBuf sa = true) (hal : sa.toNat % 512 = 0)
    (h : (ownHome s (thrHalf t.val) (sa + BitVec.ofNat 52 (128 * i)) need).isSome = true) (hclean : rowClean s (bufKey sa + i) = true) :
    bufKey (slotReq s t c sa need op i).sa = bufKey sa + i ∧ BufLine s (slotReq s t c sa need op i) := by
  obtain ⟨hkey, hkbuf⟩ := line_of_run (sa := sa) 4 (.inl rfl) hal hi
  obtain ⟨x, hx⟩ := Option.isSome_iff_exists.mp h
  refine ⟨hkey, hkbuf.trans hbuf, ?_, ?_⟩
  · show domRuns s (((ownHome s (thrHalf t.val) (sa + BitVec.ofNat 52 (128 * i)) need).getD .e).pick 3 4) = true
    rw [hx]
    exact ownHome_runs hx
  · show rowClean s (bufKey (sa + BitVec.ofNat 52 (128 * i))) = true
    rw [hkey]
    exact hclean

theorem slotNumbers (g : Nat → LineReq) : (((List.range 4).map fun i => (i, g i)).map Prod.fst).Nodup := by
  rw [List.map_map]
  exact List.nodup_range.map fun _ _ h => h

/-! ## Restore (R231) -/

/-- Four equal parts of what is read. -/
theorem memRead_quarters (m : List Host.Cell) (a k : Nat) :
    ((List.range 4).map fun i => memRead m (a + k * i) k * 256 ^ (k * i)).sum = memRead m a (k + (k + (k + k))) := by
  rw [memRead_add, memRead_add, memRead_add]
  simp only [List.range_succ, List.range_zero, List.nil_append, List.cons_append, List.map_cons, List.map_nil, List.sum_cons, List.sum_nil,
    Nat.add_assoc, Nat.mul_zero, Nat.mul_one, Nat.add_zero, Nat.pow_zero]
  rw [show k * 2 = k + k by ring, show k * 3 = k + (k + k) by ring, Nat.pow_add, Nat.pow_add, Nat.pow_add]
  ring

/-- The four lines of a slot hold its record. -/
theorem record_of_lines (m : List Host.Cell) (a : Nat) :
    ((List.range 4).map fun i => memRead m (a + 128 * i) 128 * 2 ^ (1024 * i)).sum = memRead m a 512 := by
  rw [← show 128 + (128 + (128 + 128)) = 512 from rfl, ← memRead_quarters]
  refine congrArg List.sum (List.map_congr_left fun i _ => ?_)
  rw [show 1024 * i = 8 * (128 * i) by ring, two_pow_eight_mul]

theorem ofNat_mod {w n : Nat} (h : w ≤ n) (x : Nat) : BitVec.ofNat w (x % 2 ^ n) = BitVec.ofNat w x := by
  apply BitVec.eq_of_toNat_eq
  rw [BitVec.toNat_ofNat, BitVec.toNat_ofNat, Nat.mod_mod_of_dvd _ (pow_dvd_pow 2 h)]

theorem ofNat_field {w n : Nat} (h : w ≤ n) (r a : Nat) : BitVec.ofNat w (field r a n) = BitVec.ofNat w (r / 2 ^ a) := ofNat_mod h _

/-- A field of a field. -/
theorem field_field {b w n : Nat} (h : b + w ≤ n) (r a : Nat) : field (field r a n) b w = field r (a + b) w := by
  have hn : n = b + (n - b) := by omega
  rw [field, field, field, Nat.pow_add, ← Nat.div_div_eq_div_mul]
  generalize r / 2 ^ a = x
  rw [hn, Nat.pow_add, Nat.mod_mul_right_div_self, Nat.mod_mod_of_dvd _ (pow_dvd_pow 2 (by omega))]

/-- The registers that a restore fills, the first n of them. -/
theorem tget_registers (v : Nat → BitVec 64) (n i : Nat) :
    tget 0 ((List.range n).foldl (fun t i => tset 0 t (i + 1) (v i)) []) (i + 1) = if i < n then v i else 0 := by
  induction n with
  | zero => simp [tget]
  | succ n ih =>
    rw [List.range_succ, List.foldl_append, List.foldl_cons, List.foldl_nil]
    by_cases h : i = n
    · subst h
      rw [tget_tset_self, if_pos (by omega)]
    · rw [tget_tset_ne _ _ _ (by omega), ih]
      exact if_congr (by omega) rfl rfl

theorem gReg_record (r : Nat) {i : Nat} (h1 : 1 ≤ i) (h2 : i < 32) (slot : BitVec 6) (now : BitVec 64) :
    gReg (recThread r slot now) i = BitVec.ofNat 64 (r / 2 ^ (64 * i)) := by
  obtain ⟨j, rfl⟩ : ∃ j, i = j + 1 := ⟨i - 1, by omega⟩
  have hg : gReg (recThread r slot now) (j + 1) =
      tget 0 ((List.range 31).foldl (fun t i => tset 0 t (i + 1) (BitVec.ofNat 64 (field r (64 * (i + 1)) 64))) []) (j + 1) := by
    rw [gReg, if_neg (by omega)]
    rfl
  rw [hg, tget_registers, if_pos (by omega), ofNat_field (Nat.le_refl 64)]

/-- Only the LINEs of finished streams of thread t differ. -/
structure LinesFilled (t : ThreadId) (s u : State) : Prop where
  self : ∃ x, thr u t.val = { thr s t.val with tokLine := x }
  others : otherThreads t s u
  cache : u.cache = s.cache
  integ : u.integ = s.integ

theorem linesFilled_doneLines (t : ThreadId) (s : State) : LinesFilled t s (doneLines t s) := by
  have hfold : ∀ (l : List Nat) (f : State → Nat → State), (∀ u k, LinesFilled t u (f u k)) → ∀ s, LinesFilled t s (l.foldl f s) := by
    intro l f hf
    induction l with
    | nil => exact fun s => ⟨⟨_, rfl⟩, fun _ _ => rfl, rfl, rfl⟩
    | cons a l ih =>
      intro s
      obtain ⟨⟨x, h1⟩, h2, h3, h4⟩ := hf s a
      obtain ⟨⟨y, k1⟩, k2, k3, k4⟩ := ih (f s a)
      exact ⟨⟨y, by rw [List.foldl_cons, k1, h1]⟩, fun k hk => (k2 k hk).trans (h2 k hk), k3.trans h3, k4.trans h4⟩
  refine hfold _ _ (fun u k => ?_) s
  dsimp only
  split
  · exact ⟨⟨_, thr_modThr_self ..⟩, fun j hj => thr_modThr_ne _ _ hj, rfl, rfl⟩
  · exact ⟨⟨_, rfl⟩, fun _ _ => rfl, rfl, rfl⟩

/-- The record that a slot's lines hold, as they are gathered. -/
theorem record_of_answers {s : State} {t : ThreadId} {c : Consumer} {sa : Sa} {need : Rights} {op : Nat → LineOp}
    (hkey : ∀ i, i < 4 → bufKey (slotReq s t c sa need op i).sa = bufKey sa + i) :
    ((List.range 4).map fun i => ((((List.range 4).map fun i => (i, slotReq s t c sa need op i)).map (bufRes s)).getD i (LineRes.st 0)).data.toNat *
      2 ^ (1024 * i)).sum = memRead s.cache.data (128 * bufKey sa) 512 := by
  rw [← record_of_lines]
  refine congrArg List.sum (List.map_congr_left fun i hi => ?_)
  have hi := List.mem_range.mp hi
  have hget : ((((List.range 4).map fun i => (i, slotReq s t c sa need op i)).map (bufRes s)).getD i (LineRes.st 0)).data = lineData s (bufKey sa + i) := by
    rw [List.map_map, List.getD_eq_getElem?_getD, List.getElem?_map, List.getElem?_range hi]
    simp only [Option.map_some, Option.getD_some, Function.comp, bufRes, hkey i hi]
  rw [hget, lineData_toNat, Nat.mul_add]

/-- A restore whose record passes the checks. -/
theorem restore_runs {t : ThreadId} {s : State} {p : Part} {k : BitVec 6} {sa : Sa} {r : Nat} (hsa : slotSa s p.toNat k.toNat = sa)
    (hr : memRead s.cache.data (128 * bufKey sa) 512 = r) (hph : (thr s t.val).phase = .restoring p k) (hcalm : calm s = true)
    (hdam : s.tables.damage = []) (hask : s.cache.asked = []) (hgot : s.cache.got = []) (hbuf : isBuf sa = true) (hal : sa.toNat % 512 = 0)
    (hline : ∀ i, i < 4 → (ownHome s (thrHalf t.val) (sa + BitVec.ofNat 52 (128 * i)) Rights.rd).isSome = true ∧ rowClean s (bufKey sa + i) = true ∧
      (metaAt s (bufKey sa + i)).sp = 0)
    (hcrc : recordCrcOk r = true) (hres : recordReservedOk r = true) (hfen : fenced s (BitVec.ofNat 5 (r / 2 ^ (8 * 260 + 25))) = false) :
    completesWith (.restore t) s fun u => ∃ x now, thr u t.val = { recThread r k now with nextId := (thr s t.val).nextId, tokLine := x } ∧
      otherThreads t s u ∧ sameBytes s u := by
  have he : exec (.restore t) s = execRestore t s := rfl
  have hreq := fun i (hi : i < 4) => slotReq_line (c := .restore t) (need := Rights.rd) (op := fun _ => .read .line none false) hi hbuf hal
    (hline i hi).1 (hline i hi).2.1
  have hfree : unasked (.restore t) s := by
    refine ⟨?_, ?_⟩
    · rw [hask]
      simp
    · rw [hgot]
      simp
  obtain ⟨u, hu, hwork, -⟩ := gather_reads (c := .restore t) (sp := .line) (melt := false) hcalm hdam
    (slotNumbers (slotReq s t (.restore t) sa Rights.rd fun _ => .read .line none false)) hfree (fun e he => by
      obtain ⟨i, hi, rfl⟩ := List.mem_map.mp he
      have hi := List.mem_range.mp hi
      exact ⟨rfl, (hreq i hi).2, by rw [(hreq i hi).1]; exact (hline i hi).2.2⟩)
  rw [execRestore, hph] at he
  dsimp only at he
  rw [hsa, slotReqs_all (.restore t) _ fun i hi => (hline i hi).1] at he
  dsimp only at he
  rw [hu] at he
  dsimp only at he
  have hok : ((((List.range 4).map fun i => (i, slotReq s t (.restore t) sa Rights.rd (fun _ => .read .line none false) i)).map (bufRes s)).any
      fun x => x.status != 0) = false := by
    simp [bufRes, LineRes.st]
  rw [record_of_answers fun i hi => (hreq i hi).1, hr, hok, if_neg (by decide), if_neg (by simp [hcrc, hres])] at he
  obtain ⟨v, hv⟩ : ∃ v, v = cnt 0x043 (some (thrHalf t.val)) (some p) 1 u := ⟨_, rfl⟩
  have hvt : ∀ k, thr v k = thr s k := by
    rw [hv]
    exact fun k => (thr_cnt ..).trans (thr_lineWork hwork k)
  have hvd : v.cache.data = s.cache.data := by
    rw [hv, cnt_cache]
    exact data_lineWork hwork
  have hvi : v.integ = s.integ := by
    rw [hv, cnt_integ]
    obtain ⟨_, _, _, _, _, _, _, rfl⟩ := hwork
    rfl
  rw [← hv] at he
  have hz := linesFilled_doneLines t (setThr v t.val { recThread r k v.clk.time with nextId := (thr v t.val).nextId })
  obtain ⟨⟨x, hzt⟩, hzo, hzc, hzi⟩ := hz
  generalize doneLines t (setThr v t.val { recThread r k v.clk.time with nextId := (thr v t.val).nextId }) = z at he hzt hzo hzc hzi
  rw [thr_setThr_self] at hzt
  have hpart : (thr z t.val).part = BitVec.ofNat 5 (r / 2 ^ (8 * 260 + 25)) := by
    rw [hzt]
    exact (congrArg _ (field_field (by decide) r _)).trans (ofNat_field (Nat.le_refl 5) ..)
  have hfen' : fenced z (thr z t.val).part = false := by
    rw [hpart, fenced, hzi]
    exact (congrArg (fun i : Integ => i.prst.any fun q => q.running && q.part == BitVec.ofNat 5 (r / 2 ^ (8 * 260 + 25))) hvi).trans hfen
  rw [hfen', if_neg (by decide)] at he
  refine completesWith_answer he ⟨x, v.clk.time, ?_, fun i hi => ?_, ?_⟩
  · rw [thr_answered, hzt, hvt]
  · rw [thr_answered, hzo i hi, thr_setThr_ne _ _ hi, hvt]
  · rw [sameBytes_answered]
    exact sameBytes_of_data (by rw [hzc]; exact hvd)

/-! ## Save (R228, R230) -/

/-- A unit whose writes have all been performed has its answers, and forgets them. -/
theorem gather_writes {c : Consumer} {L : List (Nat × LineReq)} {mask : BitVec 128} {d : Nat × LineReq → BitVec 1024} {s : State}
    (hcalm : calm s = true) (hdam : s.tables.damage = []) (harm : s.integ.injArm = false) (hn : (L.map Prod.fst).Nodup)
    (hd : (L.map fun e => bufKey e.2.sa).Nodup) (hfree : unasked c s) (hL : ∀ e ∈ L, BufWrite s e.2 mask (d e)) :
    ∃ u xs v, gather c L s = (some xs, v) ∧ (∀ x ∈ xs, x.status = 0) ∧ Stored c L mask d s L.length u ∧ calm v = true ∧
      v = forget c u := by
  obtain ⟨hst, hc⟩ := settle_writes hcalm hdam harm hn hd hfree hL
  generalize hu : settle (askAll c L s) = u at hst hc
  obtain ⟨g, hg, hmark⟩ := collect_marked hn hfree hu (f := fun e => { LineRes.st 0 with line := lineOf e.2.sa }) (by
    rw [hst.woken.got, List.take_length])
  refine ⟨u, L.map g, forget c u, ?_, fun x hx => ?_, hst, (calm_forget c u).trans hc, rfl⟩
  · rw [gather, hg]
  · obtain ⟨e, he, rfl⟩ := List.mem_map.mp hx
    exact congrArg LineRes.status (hmark e he)

theorem freeThread_seq (t : ThreadId) (s : State) :
    (freeThread t s).seq = { s.seq with th := tset Thread.zero s.seq.th t.val (thr s t.val).bare } := by
  simp only [freeThread, forgetThread, State.onCache, State.onBuf, setThr, State.onSeq]

/-- What a thread that ends leaves to settle: nothing. -/
theorem calm_freeThread {t : ThreadId} {s : State} (h : calm s = true) : calm (freeThread t s) = true := by
  have hcache : ∃ a g, (freeThread t s).cache = { s.cache with asked := a, got := g } := ⟨_, _, rfl⟩
  have hatu : (freeThread t s).atu = s.atu := by
    simp only [freeThread, forgetThread, State.onCache, State.onBuf, setThr, State.onSeq]
  have hfrees : ∃ f, (freeThread t s).buf.frees = s.buf.frees.map f := ⟨_, rfl⟩
  obtain ⟨a, g, hcache⟩ := hcache
  obtain ⟨f, hfrees⟩ := hfrees
  obtain ⟨h1, h2, h3, h4, h5, h6⟩ := calm_iff.mp h
  refine calm_iff.mpr ⟨?_, ?_, ?_, ?_, ?_, ?_⟩
  · rw [hcache]
    exact h1
  · rw [hcache]
    exact h2
  · rw [hcache]
    exact h3
  · rw [hcache]
    exact h4
  · rw [addlsIdle, hatu]
    exact h5
  · rw [hfrees, h6]
    rfl

theorem pushResume_facts (h : Half) (p : Part) (k : Nat) (prio : BitVec 2) (s : State) :
    (pushResume h p k prio s).cache = s.cache ∧ (pushResume h p k prio s).atu = s.atu ∧ (pushResume h p k prio s).buf = s.buf ∧
      (pushResume h p k prio s).seq.th = s.seq.th ∧ (pushResume h p k prio s).seq.sp = s.seq.sp ∧
      h.pick (pushResume h p k prio s).seq.resumeE (pushResume h p k prio s).seq.resumeW =
        h.pick s.seq.resumeE s.seq.resumeW ++ [{ part := p, slot := BitVec.ofNat 6 k, prio := prio }] := by
  cases h <;> exact ⟨rfl, rfl, rfl, rfl, rfl, rfl⟩

/-- The state in which the record of a preempted task has been noted, before its thread is free. -/
def savedState (t : ThreadId) (k : Nat) (s : State) : State :=
  let th := thr s t.val
  let p := th.part.toNat
  let u := modSp s p fun x => { x with used := setBit x.used k true, slots := tset { half := .e, prio := 0 } x.slots k { half := thrHalf t.val, prio := th.prio } }
  pushResume (thrHalf t.val) th.part k th.prio (cnt 0x042 (some (thrHalf t.val)) (some th.part) 1 (modSp u p fun x => { x with preempts := satAdd x.preempts 1 }))

theorem saveDone_eq (t : ThreadId) (cause k : Nat) (s : State) : saveDone t 0 cause k s = freeThread t (savedState t k s) := rfl

theorem savedState_facts {t : ThreadId} {k : Nat} {s : State} (hk : k < 64) :
    calm (savedState t k s) = calm s ∧ (savedState t k s).cache = s.cache ∧ (∀ i, thr (savedState t k s) i = thr s i) ∧
      slotUsed (savedState t k s) (thr s t.val).part.toNat k = true ∧
      (thrHalf t.val).pick (savedState t k s).seq.resumeE (savedState t k s).seq.resumeW =
        (thrHalf t.val).pick s.seq.resumeE s.seq.resumeW ++ [{ part := (thr s t.val).part, slot := BitVec.ofNat 6 k, prio := (thr s t.val).prio }] ∧
      (spReg (savedState t k s) (thr s t.val).part.toNat).preempts = satAdd (spReg s (thr s t.val).part.toNat).preempts 1 := by
  unfold savedState
  dsimp only
  generalize thr s t.val = th
  obtain ⟨u, hu⟩ : ∃ u, u = modSp (modSp s th.part.toNat fun x =>
    { x with used := setBit x.used k true, slots := tset { half := .e, prio := 0 } x.slots k { half := thrHalf t.val, prio := th.prio } })
      th.part.toNat fun x => { x with preempts := satAdd x.preempts 1 } := ⟨_, rfl⟩
  have hus : spReg u th.part.toNat = { spReg s th.part.toNat with
      used := setBit (spReg s th.part.toNat).used k true,
      slots := tset { half := .e, prio := 0 } (spReg s th.part.toNat).slots k { half := thrHalf t.val, prio := th.prio },
      preempts := satAdd (spReg s th.part.toNat).preempts 1 } := by rw [hu, spReg_modSp_self, spReg_modSp_self]
  have huf : u.cache = s.cache ∧ u.atu = s.atu ∧ u.buf = s.buf ∧ u.seq.th = s.seq.th ∧ u.seq.resumeE = s.seq.resumeE ∧ u.seq.resumeW = s.seq.resumeW := by
    rw [hu]
    exact ⟨rfl, rfl, rfl, rfl, rfl, rfl⟩
  rw [← hu]
  obtain ⟨h1, h2, h3, h4, h5, h6⟩ := huf
  obtain ⟨v, hv⟩ : ∃ v, v = cnt 0x042 (some (thrHalf t.val)) (some th.part) 1 u := ⟨_, rfl⟩
  have hvs : v.seq = u.seq := by rw [hv, cnt_seq]
  have hvf : v.cache = s.cache ∧ v.atu = s.atu ∧ v.buf = s.buf := by
    rw [hv, cnt_cache, cnt_atu, cnt_buf]
    exact ⟨h1, h2, h3⟩
  rw [← hv]
  obtain ⟨p1, p2, p3, p4, p5, p6⟩ := pushResume_facts (thrHalf t.val) th.part k th.prio v
  generalize pushResume (thrHalf t.val) th.part k th.prio v = w at p1 p2 p3 p4 p5 p6 ⊢
  obtain ⟨f1, f2, f3⟩ := hvf
  have hsp : spReg w th.part.toNat = spReg u th.part.toNat := by rw [spReg, spReg, p5, hvs]
  refine ⟨calm_of_same (p1.trans f1) (p2.trans f2) (by rw [p3, f3]), p1.trans f1, fun i => ?_, ?_, ?_, ?_⟩
  · rw [thr, thr, p4, hvs, h4]
  · rw [slotUsed, hsp, hus]
    exact (getLsbD_setBit_true _ _ hk).trans (by simp)
  · rw [p6, hvs, h5, h6]
  · rw [hsp, hus]

/-- A preempted task's save is noted, and its thread is free. -/
theorem saveDone_preempted {t : ThreadId} {k : Nat} {s : State} (cause : Nat) (hk : k < 64) (hcalm : calm s = true) :
    calm (saveDone t 0 cause k s) = true ∧ (saveDone t 0 cause k s).cache.data = s.cache.data ∧
      thr (saveDone t 0 cause k s) t.val = { Thread.zero with nextId := (thr s t.val).nextId } ∧
      slotUsed (saveDone t 0 cause k s) (thr s t.val).part.toNat k = true ∧
      (thrHalf t.val).pick (saveDone t 0 cause k s).seq.resumeE (saveDone t 0 cause k s).seq.resumeW =
        (thrHalf t.val).pick s.seq.resumeE s.seq.resumeW ++ [{ part := (thr s t.val).part, slot := BitVec.ofNat 6 k, prio := (thr s t.val).prio }] ∧
      (spReg (saveDone t 0 cause k s) (thr s t.val).part.toNat).preempts = satAdd (spReg s (thr s t.val).part.toNat).preempts 1 := by
  obtain ⟨h1, h2, h3, h4, h5, h6⟩ := savedState_facts (t := t) (s := s) hk
  rw [saveDone_eq]
  generalize savedState t k s = w at h1 h2 h3 h4 h5 h6 ⊢
  have hsp (p : Nat) : spReg (freeThread t w) p = spReg w p := by rw [spReg, freeThread_seq, spReg]
  refine ⟨calm_freeThread (h1.trans hcalm), ?_, ?_, ?_, ?_, ?_⟩
  · rw [← h2]
    simp only [freeThread, forgetThread, State.onCache, State.onBuf, setThr, State.onSeq]
  · rw [thr, freeThread_seq, tget_tset_self, h3, Thread.bare]
  · rw [slotUsed, hsp]
    exact h4
  · rw [freeThread_seq]
    exact h5
  · rw [hsp, h6]

/-- The save of a preempted task that has drained. -/
theorem save_runs {t : ThreadId} {s : State} {k : BitVec 6} {cause : BitVec 8} {sa : Sa} {r : Nat}
    (hsa : slotSa s (thr s t.val).part.toNat k.toNat = sa)
    (hrec : saveRecord s (thr s t.val) 0 cause.toNat (parkedToks (thr s t.val)) ((thr s t.val).waitLeft.getD 0).toNat = r)
    (hph : (thr s t.val).phase = .draining 0 cause) (hready : saveReady s t 0 = true) (hheld : (thr s t.val).held = some k)
    (hcalm : calm s = true) (harm : s.integ.injArm = false) (hdam : s.tables.damage = []) (hask : s.cache.asked = []) (hgot : s.cache.got = [])
    (hbuf : isBuf sa = true) (hal : sa.toNat % 512 = 0)
    (hline : ∀ i, i < 4 → (ownHome s (thrHalf t.val) (sa + BitVec.ofNat 52 (128 * i)) Rights.wr).isSome = true ∧ rowClean s (bufKey sa + i) = true ∧
      noCopies s (bufKey sa + i) = true) :
    completesWith (.saveRecordDone t) s fun u =>
      (∀ i, i < 4 → memRead u.cache.data (128 * (bufKey sa + i)) 128 = r / 2 ^ (1024 * i) % 2 ^ 1024) ∧
      (∀ a, a < 128 * bufKey sa ∨ 128 * bufKey sa + 512 ≤ a → memByte u.cache.data a = memByte s.cache.data a) ∧
      thr u t.val = { Thread.zero with nextId := (thr s t.val).nextId } ∧ slotUsed u (thr s t.val).part.toNat k.toNat = true ∧
      (thrHalf t.val).pick u.seq.resumeE u.seq.resumeW =
        (thrHalf t.val).pick s.seq.resumeE s.seq.resumeW ++ [{ part := (thr s t.val).part, slot := k, prio := (thr s t.val).prio }] ∧
      (spReg u (thr s t.val).part.toNat).preempts = satAdd (spReg s (thr s t.val).part.toNat).preempts 1 := by
  have he : exec (.saveRecordDone t) s = execSaveRecordDone t s := rfl
  have hreq := fun i (hi : i < 4) => slotReq_line (c := .save t) (need := Rights.wr) (op := fun i => .write (BitVec.allOnes 128) (recLine r i)) hi hbuf hal
    (hline i hi).1 (hline i hi).2.1
  obtain ⟨x, hx⟩ : ∃ x, x = modThr s t.val fun y => { y with phase := .saving 0 cause k } := ⟨_, rfl⟩
  have hxc : x.cache = s.cache ∧ x.tables = s.tables ∧ x.pwr = s.pwr ∧ x.integ = s.integ ∧ calm x = calm s := by
    rw [hx]
    exact ⟨rfl, rfl, rfl, rfl, rfl⟩
  obtain ⟨c1, c2, c3, c4, c5⟩ := hxc
  have hxt : thr x t.val = { thr s t.val with phase := .saving 0 cause k } := by rw [hx, thr_modThr_self]
  have hxs : x.seq.resumeE = s.seq.resumeE ∧ x.seq.resumeW = s.seq.resumeW ∧ x.seq.sp = s.seq.sp := by
    rw [hx]
    exact ⟨rfl, rfl, rfl⟩
  have hbl : ∀ e ∈ (List.range 4).map (fun i => (i, slotReq s t (.save t) sa Rights.wr (fun i => .write (BitVec.allOnes 128) (recLine r i)) i)),
      BufWrite x e.2 (BitVec.allOnes 128) (recLine r e.1) := by
    intro e he
    obtain ⟨i, hi, rfl⟩ := List.mem_map.mp he
    have hi := List.mem_range.mp hi
    obtain ⟨hkey, hb, hruns, hclean⟩ := hreq i hi
    refine ⟨rfl, ⟨hb, ?_, ?_⟩, ?_⟩
    · rw [domRuns, domSt, c3]
      exact hruns
    · rw [rowClean, c1]
      exact hclean
    · rw [noCopies, metaAt_congr c1 c2, hkey]
      exact (hline i hi).2.2
  have hkeys : ((List.range 4).map (fun i => (i, slotReq s t (.save t) sa Rights.wr (fun i => .write (BitVec.allOnes 128) (recLine r i)) i))).map
      (fun e => bufKey e.2.sa) = (List.range 4).map fun i => bufKey sa + i := by
    rw [List.map_map]
    exact List.map_congr_left fun i hi => (hreq i (List.mem_range.mp hi)).1
  have hfree : unasked (.save t) x := by
    refine ⟨?_, ?_⟩
    · rw [c1, hask]
      simp
    · rw [c1, hgot]
      simp
  obtain ⟨u, xs, v, hg, hxs0, hst, hcv, hv⟩ := gather_writes (d := fun e => recLine r e.1) (c5.trans hcalm) (by rw [c2]; exact hdam)
    (by rw [c4]; exact harm) (slotNumbers _) (by rw [hkeys]; exact List.nodup_range.map fun _ _ h => Nat.add_left_cancel h) hfree hbl
  have hok : xs.any (fun x => x.status != 0) = false := by
    rw [List.any_eq_false]
    intro y hy
    simp [hxs0 y hy]
  have hwrite : saveWrite t 0 cause.toNat k.toNat s = saveDone t 0 cause.toNat k.toNat v := by
    unfold saveWrite
    dsimp only
    rw [if_neg (by decide), hrec, hsa, slotReqs_all (.save t) _ fun i hi => (hline i hi).1]
    dsimp only
    rw [BitVec.ofNat_toNat, BitVec.ofNat_toNat, BitVec.setWidth_eq, BitVec.setWidth_eq, show BitVec.ofNat 3 0 = 0 from rfl, ← hx, hg]
    dsimp only
    rw [hok, if_neg (by decide)]
  have hvs : v.seq = u.seq ∧ v.cache.data = u.cache.data := by
    rw [hv]
    exact ⟨rfl, rfl⟩
  obtain ⟨w, hw⟩ := hst.woken.threads t.val
  have hut : thr v t.val = { thr s t.val with phase := .saving 0 cause k, wait := w } :=
    (thr_congr hvs.1 t.val).trans (hw.trans (congrArg (fun y : Thread => { y with wait := w }) hxt))
  obtain ⟨q, hq⟩ := hst.woken.seq
  have hus : u.seq.resumeE = s.seq.resumeE ∧ u.seq.resumeW = s.seq.resumeW ∧ u.seq.sp = s.seq.sp := by
    rw [hq]
    exact hxs
  obtain ⟨q1, q2, q3⟩ := hus
  have hbytes (a : Nat) : memByte v.cache.data a = memByte u.cache.data a := by rw [hvs.2]
  have hsp : spReg v (thr s t.val).part.toNat = spReg s (thr s t.val).part.toNat := by rw [spReg, hvs.1, q3, spReg]
  have hlist : (thrHalf t.val).pick v.seq.resumeE v.seq.resumeW = (thrHalf t.val).pick s.seq.resumeE s.seq.resumeW := by rw [hvs.1, q1, q2]
  obtain ⟨f1, f2, f3, f4, f5, f6⟩ := saveDone_preempted (t := t) cause.toNat k.isLt hcv
  have hstep : saveStep t s = saveDone t 0 cause.toNat k.toNat v := by
    unfold saveStep
    dsimp only
    rw [hph]
    dsimp only
    rw [show (0 : BitVec 3).toNat = 0 from rfl, hready, hheld]
    exact hwrite
  rw [hut] at f3 f4 f5 f6
  rw [execSaveRecordDone, hstep, settle_calm f1] at he
  generalize saveDone t 0 cause.toNat k.toNat v = z at he f1 f2 f3 f4 f5 f6
  refine completesWith_answer he ⟨fun i hi => ?_, fun a ha => ?_, (thr_answered ..).trans f3, f4, ?_, ?_⟩
  · have hmem : (i, slotReq s t (.save t) sa Rights.wr (fun i => .write (BitVec.allOnes 128) (recLine r i)) i) ∈
        ((List.range 4).map fun i => (i, slotReq s t (.save t) sa Rights.wr (fun i => .write (BitVec.allOnes 128) (recLine r i)) i)).take
          ((List.range 4).map fun i => (i, slotReq s t (.save t) sa Rights.wr (fun i => .write (BitVec.allOnes 128) (recLine r i)) i)).length := by
      rw [List.take_length]
      exact List.mem_map.mpr ⟨i, List.mem_range.mpr hi, rfl⟩
    have hl := hst.lines _ hmem
    rw [mergeBytes_all, (hreq i hi).1] at hl
    show memRead z.cache.data (128 * (bufKey sa + i)) 128 = _
    rw [f2, hvs.2, ← lineData_toNat, hl, recLine, BitVec.toNat_ofNat]
  · show memByte z.cache.data a = _
    rw [f2, hbytes, ← c1]
    refine hst.out a fun e he => ?_
    rw [List.take_length] at he
    obtain ⟨i, hi, rfl⟩ := List.mem_map.mp he
    have hi := List.mem_range.mp hi
    have hkey := (hreq i hi).1
    dsimp only
    rw [hkey]
    omega
  · show (thrHalf t.val).pick z.seq.resumeE z.seq.resumeW = _
    rw [f5, hlist, BitVec.ofNat_toNat, BitVec.setWidth_eq]
  · show (spReg z (thr s t.val).part.toNat).preempts = _
    rw [← hsp]
    exact f6

theorem satAdd_one (v : BitVec 16) : (satAdd v 1).toNat = min (v.toNat + 1) 65535 := by
  have hlt := v.isLt
  rw [satAdd]
  split
  · rw [BitVec.toNat_allOnes]
    omega
  · rw [BitVec.toNat_ofNat]
    omega

/-- Settles O25. -/
theorem contextsKept : Obligations.ContextsKept := by
  unfold Obligations.ContextsKept
  refine ⟨?_, ?_⟩
  · intro t s k cause th p sa key hph hready hheld hcalm harm hdam hask hgot hbuf hal hline
    obtain ⟨u, hu, h1, h2, h3, h4, h5, h6⟩ := save_runs (t := t) (s := s) (k := k) (cause := cause) (sa := sa) rfl rfl hph hready hheld hcalm harm hdam
      hask hgot hbuf hal hline
    refine ⟨u, hu, h1, h2, h3, h4, h5, ?_⟩
    rw [h6]
    exact satAdd_one _
  · intro t s p k sa key r hph hcalm hdam hask hgot hbuf hal hline hcrc hres hfen
    obtain ⟨u, hu, x, now, h1, h2, h3⟩ := restore_runs (t := t) (s := s) (p := p) (k := k) (sa := sa) (r := r) rfl rfl hph hcalm hdam hask hgot hbuf hal
      hline hcrc hres hfen
    refine ⟨u, hu, ?_⟩
    clear_value r
    dsimp only
    rw [h1]
    have hfield {b w : Nat} (h : b + w ≤ 32) : BitVec.ofNat w (field (field r (8 * 260) 32) b w) = BitVec.ofNat w (r / 2 ^ (8 * 260 + b)) :=
      (congrArg _ (field_field h r _)).trans (ofNat_field (Nat.le_refl w) ..)
    refine ⟨rfl, rfl, fun i hi1 hi2 => gReg_record r hi1 hi2 k now, ?_, hfield (by decide), hfield (by decide), hfield (by decide),
      ofNat_field (Nat.le_refl 24) .., ofNat_field (Nat.le_refl 64) .., ofNat_field (Nat.le_refl 64) .., rfl, rfl, rfl, rfl, rfl, rfl, rfl, rfl, h2, h3⟩
    exact congrArg (fun n => decide (n = 1)) (field_field (b := 0) (w := 1) (by decide) r (8 * 260))

end Sys2Proof.Machine
end

section
/-! PROOFS. Fetch, dispatch and the start of tasks (R218, R223, R224, R226). -/

namespace Sys2Proof.Machine

open Sys2Proof.Safety

/-! ## The read-only caches of a core -/

/-- The sector's entry is the one at the first index that holds it. -/
theorem roFind_eq (s : State) (k : Nat) (c : RoKind) (sa : Sa) :
    roFind s k c sa = ((List.range 48).find? fun e => (roEnt s (roBase k c + e)).any fun x => x.sector == sa.extractLsb' 5 47).bind
      fun e => roEnt s (roBase k c + e) := List.find?_filterMap ..

theorem roEnt_setRo (s : State) (i j : Nat) (e : Option RoEnt) : roEnt (setRo s i e) j = if j = i then e else roEnt s j := by
  by_cases h : j = i
  · rw [if_pos h, h]
    exact tget_tset_self ..
  · rw [if_neg h]
    exact tget_tset_ne _ _ _ h

/-- A sector that is found is touched: its entry is referenced, and no other changes. -/
theorem roTouch_found {s : State} {k : Nat} {c : RoKind} {sa : Sa} {e : RoEnt} (h : roFind s k c sa = some e) :
    ∃ j, roTouch k c sa s = setRo s j (some { e with ref := true }) ∧ roFind (roTouch k c sa s) k c sa = some { e with ref := true } := by
  rw [roFind_eq, Option.bind_eq_some_iff] at h
  obtain ⟨j, hj, he⟩ := h
  have htouch : roTouch k c sa s = setRo s (roBase k c + j) (some { e with ref := true }) := by
    have hfind (f : Nat → Bool) (hf : ∀ i, f i = (roEnt s (roBase k c + i)).any fun x => x.sector == sa.extractLsb' 5 47) :
        (List.range 48).find? f = some j := by rw [funext hf, hj]
    unfold roTouch
    dsimp only
    rw [hfind _ fun i => by cases roEnt s (roBase k c + i) <;> rfl]
    dsimp only
    rw [he]
    rfl
  refine ⟨_, htouch, ?_⟩
  have hany : (fun i => (roEnt (roTouch k c sa s) (roBase k c + i)).any fun x => x.sector == sa.extractLsb' 5 47) =
      fun i => (roEnt s (roBase k c + i)).any fun x => x.sector == sa.extractLsb' 5 47 := by
    funext i
    rw [htouch, roEnt_setRo]
    split
    next hi =>
      obtain rfl : i = j := by omega
      rw [he]
      rfl
    · rfl
  rw [roFind_eq, hany, hj, htouch, Option.bind_some, roEnt_setRo, if_pos rfl]

theorem reach_tlb (t : Nat) (p : Part) (pva : BitVec 64) (page need : Rights) (kind : Nat) (dev : Space → Bool) (held : Option Tlb)
    (s : State) : ∃ x, (reach t p pva page need kind dev held s).2 = { s with xlt := { s.xlt with tlb := x } } := by
  have hcached (h : Half) : ∃ x, (cachedXl h p pva.toNat page s).2 = { s with xlt := { s.xlt with tlb := x } } := by
    unfold cachedXl
    split
    · exact ⟨_, rfl⟩
    · split <;> exact ⟨_, rfl⟩
  have hlook : ∃ x, (xlook (thrHalf t) p pva.toNat page held s).2 = { s with xlt := { s.xlt with tlb := x } } := by
    rw [xlook_eq]
    split
    · split
      · exact ⟨_, rfl⟩
      · exact hcached _
    · exact hcached _
  unfold reach
  split
  · exact ⟨_, rfl⟩
  · dsimp only
    split <;> exact hlook

/-! ## Fetch (R218, R219) -/

/-- The word that a store has overtaken is delivered as it was fetched. -/
theorem fetch_ahead {t : ThreadId} {s : State} {w : BitVec 64} (h : (thr s t.val).ahead = some ((thr s t.val).pc, w)) : fetch t s = (.ok w, s) := by
  have hf : (thr s t.val).ahead.filter (fun a => a.1 == (thr s t.val).pc) = some ((thr s t.val).pc, w) := by
    rw [h]
    simp
  unfold fetch
  dsimp only
  rw [hf]

/-- A fetch whose sector is in the core's instruction cache. -/
theorem fetch_cached {t : ThreadId} {s : State} {x : Space} {sa : Sa} {e : RoEnt} (ha : (thr s t.val).ahead = none)
    (hr : (reach t.val (thr s t.val).part ((thr s t.val).pc.setWidth 64) Rights.exec Rights.rd 3 noDev (thr s t.val).hit s).1 = .go x sa)
    (hro : roFind s (thrCore t.val) .instr sa = some e) :
    ∃ tl j, fetch t s = (.ok (wordIn sa e.data), setRo { s with xlt := { s.xlt with tlb := tl } } j (some { e with ref := true })) ∧
      roFind (fetched t s) (thrCore t.val) .instr sa = some { e with ref := true } := by
  obtain ⟨tl, htl⟩ := reach_tlb t.val (thr s t.val).part ((thr s t.val).pc.setWidth 64) Rights.exec Rights.rd 3 noDev (thr s t.val).hit s
  have hro' : roFind { s with xlt := { s.xlt with tlb := tl } } (thrCore t.val) .instr sa = some e := hro
  obtain ⟨j, hj, hfind⟩ := roTouch_found hro'
  have hf : fetch t s = (.ok (wordIn sa e.data), roTouch (thrCore t.val) .instr sa { s with xlt := { s.xlt with tlb := tl } }) := by
    have hn : (thr s t.val).ahead.filter (fun a => a.1 == (thr s t.val).pc) = none := by
      rw [ha]
      rfl
    unfold fetch
    dsimp only
    rw [hn]
    dsimp only
    rw [hr, htl]
    dsimp only
    rw [roWord]
    dsimp only
    rw [hro']
    rfl
  refine ⟨tl, j, hf.trans (by rw [hj]), ?_⟩
  rw [fetched, hf]
  exact hfind

/-! ## Dispatch (R226) -/

/-- Dispatch to a free thread, with no task waiting to move, starts the best candidate there. -/
theorem dispatch_starts {h : Half} {k : Fin 36} {s : State} {c : Nat × Cand} {cs : List (Nat × Cand)} (hup : seqUp s h = true)
    (hw : warmFenced s = false) (hf : isFree s (36 * h.idx + k.val) = true) (hm : movers s h = []) (hc : candidates s h = c :: cs) :
    exec (.dispatch h k) s = answer s (startCand (36 * h.idx + k.val) c.2 s) := by
  have hlt : 36 * h.idx + k.val < 72 := by
    have := k.isLt
    cases h <;> simp [Half.idx] <;> omega
  have hany : (threadsOf h).any (isFree s) = true :=
    List.any_eq_true.mpr ⟨_, List.mem_map.mpr ⟨k.val, List.mem_range.mpr k.isLt, rfl⟩, hf⟩
  have he : exec (.dispatch h k) s = execDispatch h k s := rfl
  rw [he, execDispatch]
  dsimp only
  rw [if_neg (by simp [hup, hw]), if_pos hany, dif_pos hlt, hf, if_neg (by simp), hm, hc]

theorem thrHalf_of_dispatch (h : Half) (k : Fin 36) : thrHalf (36 * h.idx + k.val) = h := by
  have := k.isLt
  cases h <;> simp [Half.idx, thrHalf]

/-- A queue's descriptor fetch begins. -/
theorem startCand_queue {i q : Nat} {h : Half} (hi : thrHalf i = h) (hq : q < 128) (s : State) :
    thr (startCand i (.queue q) s) i = { (thr s i).bare with phase := .fetching ⟨q, hq⟩, part := (tq s q).part, prio := (tq s q).prio, queue := BitVec.ofNat 7 q } ∧
      (∀ j, j ≠ i → thr (startCand i (.queue q) s) j = thr s j) ∧ tq (startCand i (.queue q) s) q = { tq s q with fetching := true } ∧
      h.pick (startCand i (.queue q) s).seq.rrE (startCand i (.queue q) s).seq.rrW = BitVec.ofNat 7 q ∧
      changesOnly [.seq] s (startCand i (.queue q) s) := by
  have htq (t : Tab TaskQ) (v : TaskQ) : tget TaskQ.zero (tset TaskQ.zero t q v) q = v := tget_tset_self ..
  rw [startCand, hi]
  dsimp only
  rw [dif_pos hq]
  cases h
  · refine ⟨thr_setThr_self .., fun j hj => thr_setThr_ne _ _ hj, htq _ _, rfl, ?_⟩
    simp [setThr, setTq]
  · refine ⟨thr_setThr_self .., fun j hj => thr_setThr_ne _ _ hj, htq _ _, rfl, ?_⟩
    simp [setThr, setTq]

/-- A resumed slot's restore begins. -/
theorem startCand_resume {i : Nat} {h : Half} (hi : thrHalf i = h) (e : Resume) (s : State) :
    thr (startCand i (.resume e) s) i = { (thr s i).bare with phase := .restoring e.part e.slot, part := e.part, prio := e.prio } ∧
      (∀ j, j ≠ i → thr (startCand i (.resume e) s) j = thr s j) ∧
      h.pick (startCand i (.resume e) s).seq.resumeE (startCand i (.resume e) s).seq.resumeW = (h.pick s.seq.resumeE s.seq.resumeW).erase e ∧
      changesOnly [.seq] s (startCand i (.resume e) s) := by
  rw [startCand, hi]
  cases h
  · refine ⟨thr_setThr_self .., fun j hj => thr_setThr_ne _ _ hj, rfl, ?_⟩
    simp [setThr]
  · refine ⟨thr_setThr_self .., fun j hj => thr_setThr_ne _ _ hj, rfl, ?_⟩
    simp [setThr]

/-! ## Descriptors that are cached (R219, R223) -/

/-- A gather of nothing only forgets. -/
theorem gather_nothing {c : Consumer} {s : State} (h : calm s = true) : gather c [] s = (some [], forget c s) := by
  have hc : collect c [] s = (some [], s) := by
    have hs : settle (askAll c [] s) = s := settle_calm h
    simp [collect, hs]
  rw [gather, hc]

/-- Two sectors that are both in a core's cache are read there. -/
theorem roGather_cached {c : Consumer} {t : ThreadId} {kind : RoKind} {p : Part} {a b : Sa × Half} {s : State} {lo hi : RoEnt} (hcalm : calm s = true)
    (hask : ∀ p ∈ s.cache.asked, p.1 ≠ c) (hlo : roFind s (thrCore t.val) kind a.1 = some lo) (hhi : roFind s (thrCore t.val) kind b.1 = some hi) :
    ∃ u, onlyCounts s u ∧ roGather c t kind p [a, b] s = (some [(lo.data, false), (hi.data, false)], forget c u) := by
  have hnone (i : Nat) : s.cache.asked.contains (c, i) = false := by
    rw [Bool.eq_false_iff]
    intro h
    exact hask _ (by simpa using h) rfl
  have hu := onlyCounts_cnt 0x04B (some (thrHalf t.val)) (some p) 0 s
  refine ⟨_, hu, ?_⟩
  have hmissing : (List.range 2).filter (fun i => (roFind s (thrCore t.val) kind ([a, b].getD i (0, .e)).1).isNone || s.cache.asked.contains (c, i)) = [] := by
    rw [List.filter_eq_nil_iff]
    intro i hi
    have hi : i = 0 ∨ i = 1 := by
      have := List.mem_range.mp hi
      omega
    rcases hi with rfl | rfl
    · rw [hnone]
      simp [hlo]
    · rw [hnone]
      simp [hhi]
  unfold roGather
  dsimp only [List.length_cons, List.length_nil]
  rw [hmissing]
  dsimp only [List.filter_nil, List.length_nil, List.map_nil]
  generalize cnt 0x04B (some (thrHalf t.val)) (some p) 0 s = u at hu ⊢
  rw [List.map_nil, gather_nothing (by rw [onlyCounts_calm hu]; exact hcalm)]
  have hfind (sa : Sa) : roFind (forget c u) (thrCore t.val) kind sa = roFind s (thrCore t.val) kind sa := by
    obtain ⟨_, _, _, rfl⟩ := hu
    rfl
  simp [hfind, hlo, hhi, List.range_succ]

/-! ## Starting a task (R223, R224) -/

/-- The thread of a task with descriptor d, before its registers. -/
def startedTask (d : Nat) (now : BitVec 64) (th : Thread) : Thread :=
  { th with phase := .running, pc := BitVec.ofNat 48 d, donePva := BitVec.ofNat 64 (d / 2 ^ (64 * 6)), tag := BitVec.ofNat 64 (d / 2 ^ (64 * 7)),
            thaw := BitVec.ofNat 24 (d / 2 ^ 320), precise := decide (d / 2 ^ 352 % 2 = 1), started := now }

/-- The thread of a task with descriptor d. -/
def taskThread (d : Nat) (now : BitVec 64) (th : Thread) : Thread :=
  let a (i : Nat) : BitVec 64 := BitVec.ofNat 64 (d / 2 ^ (64 * i))
  ((((startedTask d now th).setG 1 (a 1)).setG 2 (a 2)).setG 3 (a 3)).setG 4 (a 4)

theorem gReg_taskThread (d : Nat) (now : BitVec 64) (th : Thread) :
    (∀ i, 1 ≤ i → i ≤ 4 → gReg (taskThread d now th) i = BitVec.ofNat 64 (d / 2 ^ (64 * i))) ∧
      ∀ r, 4 < r → gReg (taskThread d now th) r = gReg th r := by
  have hstep (y : Thread) (k : Nat) (v : BitVec 64) (r : Nat) : gReg (y.setG k v) r = if r = k ∧ k ≠ 0 then v else gReg y r := gReg_setG ..
  refine ⟨fun i h1 h4 => ?_, fun r hr => ?_⟩
  · rw [taskThread, hstep, hstep, hstep, hstep]
    interval_cases i <;> rfl
  · rw [taskThread, hstep, hstep, hstep, hstep, if_neg (by omega), if_neg (by omega), if_neg (by omega), if_neg (by omega)]
    rfl

theorem startTask_spec (t : ThreadId) (d : Nat) (s : State) :
    ∃ u, onlyCounts s u ∧ startTask t d s = if taskDescOk d then setThr u t.val (taskThread d u.clk.time (thr s t.val))
      else endKilled t 1 (setThr u t.val (startedTask d u.clk.time (thr s t.val))) := by
  have hu := onlyCounts_cnt 0x041 (some (thrHalf t.val)) (some (thr s t.val).part) 1 s
  refine ⟨_, hu, ?_⟩
  have hword (i : Nat) : BitVec.ofNat 64 (field d (64 * i) 64) = BitVec.ofNat 64 (d / 2 ^ (64 * i)) := ofNat_field (Nat.le_refl 64) ..
  have hthaw : BitVec.ofNat 24 (field d (8 * 40) 32) = BitVec.ofNat 24 (d / 2 ^ 320) := ofNat_field (by decide) ..
  have hprec : decide (field d (8 * 44) 1 = 1) = decide (d / 2 ^ 352 % 2 = 1) := rfl
  simp only [startTask, hword, hthaw, hprec, taskThread, startedTask]

theorem thr_freeThread_self (t : ThreadId) (s : State) : thr (freeThread t s) t.val = (thr s t.val).bare := by
  rw [thr, freeThread_seq, tget_tset_self]

theorem thr_freeThread_ne {t : ThreadId} (s : State) {k : Nat} (h : k ≠ t.val) : thr (freeThread t s) k = thr s k := by
  rw [thr, freeThread_seq, tget_tset_ne _ _ _ h, thr]

theorem tq_freeThread (t : ThreadId) (s : State) (q : Nat) : tq (freeThread t s) q = tq s q := by
  rw [tq, freeThread_seq, tq]

/-- A task that is killed without a completion word frees its thread. -/
theorem endKilled_quiet (t : ThreadId) (reason : Nat) {s : State} (h : (thr s t.val).donePva = 0) : endKilled t reason s = freeThread t s := by
  rw [endKilled, endTask, if_pos h]

theorem descriptor_parts (lo hi : BitVec 256) : lo.toNat + hi.toNat * 2 ^ 256 = (hi ++ lo).toNat := by
  rw [BitVec.toNat_append, Nat.shiftLeft_eq, Nat.add_comm, ← Nat.shiftLeft_eq, Nat.shiftLeft_add_eq_or_of_lt lo.isLt]

/-- A descriptor fetch whose sectors are both in the core's descriptor cache starts the task. -/
theorem descriptorFetch_starts {t : ThreadId} {q : Fin 128} {s : State} {x : Space} {lo hi : RoEnt} (hph : (thr s t.val).phase = .fetching q)
    (hchk : checkSa s (pipeView s (thrHalf t.val)) (tq s q.val).part none Rights.rd (descSa (tq s q.val)) = .ok x) (hx : x.isDev = false)
    (hun : unavailable s (x.home t.val) (thrHalf t.val) = false) (hcalm : calm s = true) (hask : ∀ p ∈ s.cache.asked, p.1 ≠ Consumer.desc t)
    (hlo : roFind s (thrCore t.val) .desc (descSa (tq s q.val)) = some lo) (hhi : roFind s (thrCore t.val) .desc (descSa (tq s q.val) + 32) = some hi) :
    ∃ u, exec (.descriptorFetch t) s = answer s (startTask t (hi.data ++ lo.data).toNat u) ∧ (∀ k, thr u k = thr s k) ∧
      tq u q.val = { tq s q.val with head := (tq s q.val).head + 1, fetching := false } := by
  have he : exec (.descriptorFetch t) s = execDescriptorFetch t s := rfl
  obtain ⟨u, hu, hg⟩ := roGather_cached (c := .desc t) (kind := .desc) (p := (tq s q.val).part) (a := (descSa (tq s q.val), x.home t.val))
    (b := (descSa (tq s q.val) + 32, x.home t.val)) hcalm hask hlo hhi
  have huseq : (forget (.desc t) u).seq = s.seq := by
    obtain ⟨_, _, _, rfl⟩ := hu
    rfl
  generalize forget (.desc t) u = v at hg huseq
  refine ⟨setTq q.val { tq s q.val with head := (tq s q.val).head + 1, fetching := false } v, ?_, fun k => ?_, tq_setTq_self ..⟩
  · rw [he, execDescriptorFetch, hph]
    dsimp only
    rw [hchk]
    dsimp only
    rw [hun]
    simp only [Bool.false_eq_true, or_false]
    rw [if_neg (by cases x <;> first | exact Bool.false_ne_true | cases hx), hg]
    dsimp only
    rw [if_neg (by simp)]
    simp only [List.getD_cons_zero, List.getD_cons_succ, descriptor_parts, tq, huseq]
  · rw [thr, thr, ← huseq]
    rfl

/-- Settles O23. -/
theorem tasksStart : Obligations.TasksStart := by
  unfold Obligations.TasksStart
  refine ⟨?_, ?_, ?_⟩
  · intro t s x sa e th r
    refine ⟨fun w hw => fetch_ahead hw, fun ha hr hro => ?_⟩
    obtain ⟨tl, j, hf, hfind⟩ := fetch_cached ha hr hro
    have hs : fetched t s = setRo { s with xlt := { s.xlt with tlb := tl } } j (some { e with ref := true }) := congrArg Prod.snd hf
    refine ⟨congrArg Prod.fst hf, ?_, ?_, ?_, { e with ref := true }, hfind, rfl, rfl⟩
    · rw [hs]
      exact fun b hb => by cases b <;> first | rfl | simp at hb
    · rw [hs]
      rfl
    · rw [hs]
      rfl
  · intro h k s c cs i hup hw hf hm hc
    have he := dispatch_starts hup hw hf hm hc
    have hhalf := thrHalf_of_dispatch h k
    refine ⟨fun q hq hcq => ?_, fun e hce => ?_⟩
    · rw [hcq] at he
      obtain ⟨h1, h2, h3, h4, h5⟩ := startCand_queue hhalf hq s
      exact completesWith_answer he ⟨h1, h2, h3, h4, h5⟩
    · rw [hce] at he
      obtain ⟨h1, h2, h3, h4⟩ := startCand_resume hhalf e s
      exact completesWith_answer he ⟨h1, h2, h3, h4⟩
  · intro t q s x lo hi hph y sa d word hchk hx hun hcalm hask hlo hhi
    obtain ⟨u, he, hthr, htq⟩ := descriptorFetch_starts hph hchk hx hun hcalm hask hlo hhi
    obtain ⟨v, hv, hst⟩ := startTask_spec t d u
    have hvt : (∀ k, thr v k = thr s k) ∧ tq v q.val = { y with head := y.head + 1, fetching := false } := by
      obtain ⟨_, _, _, rfl⟩ := hv
      exact ⟨hthr, htq⟩
    obtain ⟨hvt, hvq⟩ := hvt
    rw [show (hi.data ++ lo.data).toNat = d from rfl, hst, hthr] at he
    clear_value d
    refine ⟨fun hok => ?_, fun hbad hword => ?_⟩
    · rw [hok, if_pos rfl] at he
      obtain ⟨g1, g2⟩ := gReg_taskThread d v.clk.time (thr s t.val)
      refine completesWith_answer he ?_
      dsimp only
      rw [thr_answered, thr_setThr_self]
      refine ⟨rfl, rfl, g1, g2, rfl, rfl, rfl, rfl, rfl, hvq, fun k hk => ?_⟩
      rw [thr_answered, thr_setThr_ne _ _ hk, hvt]
    · rw [hbad, if_neg (by decide), endKilled_quiet t 1 (by rw [thr_setThr_self]; exact hword)] at he
      refine completesWith_answer he ⟨?_, (tq_freeThread ..).trans hvq, fun k hk => ?_⟩
      · rw [thr_answered, thr_freeThread_self, thr_setThr_self, Thread.bare]
        rfl
      · rw [thr_answered, thr_freeThread_ne _ hk, thr_setThr_ne _ _ hk, hvt]

end Sys2Proof.Machine
end

section
/-! PROOFS. Walks and the invalidation of translations (R102, R107, R108, R110, R111). -/

namespace Sys2Proof.Machine

open Sys2Proof.Safety

@[simp] theorem walks_setWalks (h : Half) (ws : List Walk) (s : State) : walks (setWalks h ws s) h = ws := by cases h <;> rfl

theorem calm_of_cache {s u : State} (h : changesOnly [.xlt, .cnt] s u) (hb : u.buf = s.buf) : calm u = calm s :=
  calm_of_same (h .cache (by decide)) (h .atu (by decide)) (by rw [hb])

/-! ## Misses (R107) -/

/-- A miss that no walk serves begins one, joins one or waits. -/
theorem walkMiss_first {t : ThreadId} {src : XlSrc} {s : State} {q : XlReq} {qs : List XlReq} (hx : xlReqs s t src = q :: qs)
    (hw : walkWaitOf s (thrHalf t.val) = []) (hno : ∀ w ∈ walks s (thrHalf t.val), (⟨t, src, q.num⟩ : Miss) ∉ w.waiters) :
    walkMiss t src s = walkBegin ⟨t, src, q.num⟩ q s := by
  have hserved : ((walks s (thrHalf t.val)).any (fun w => w.waiters.contains ⟨t, src, q.num⟩) ||
      (walkWaitOf s (thrHalf t.val)).contains ⟨t, src, q.num⟩) = false := by
    rw [hw, Bool.or_eq_false_iff, List.any_eq_false]
    refine ⟨fun w hmem => ?_, rfl⟩
    simpa using hno w hmem
  unfold walkMiss
  dsimp only
  rw [hx, List.find?_cons_of_pos (by rw [hserved]; rfl)]

/-- The walk of a miss, at the root of its partition. -/
def newWalk (m : Miss) (q : XlReq) (s : State) : Walk :=
  { id := s.xlt.walkIds, part := (thr s m.t.val).part, vpage := q.pva.extractLsb' 12 36, level := 3,
    table := (partReg (walkView s (thrHalf m.t.val)) (thr s m.t.val).part.toNat).root,
    rights := { r := true, w := true, a := true, x := true }, waiters := [m], noFill := false }

/-- A walk starts at the root of the partition. -/
theorem walkBegin_starts {m : Miss} {q : XlReq} {s : State} (hw : walks s (thrHalf m.t.val) = [])
    (hroot : (partReg (walkView s (thrHalf m.t.val)) (thr s m.t.val).part.toNat).rootEn = true) :
    walks (walkBegin m q s) (thrHalf m.t.val) = [newWalk m q s] ∧ changesOnly [.xlt, .cnt] s (walkBegin m q s) ∧ calm (walkBegin m q s) = calm s := by
  have he : walkBegin m q s = cnt 0x04A (some (thrHalf m.t.val)) (some (thr s m.t.val).part) 1
      ((setWalks (thrHalf m.t.val) [newWalk m q s] s).onXlt fun x => { x with walkIds := x.walkIds + 1 }) := by
    unfold walkBegin
    dsimp only
    rw [hw, List.any_nil, if_neg (by decide), List.length_nil, if_neg (by decide), hroot, if_neg (by decide)]
    rfl
  have hz : walks ((setWalks (thrHalf m.t.val) [newWalk m q s] s).onXlt fun x => { x with walkIds := x.walkIds + 1 }) (thrHalf m.t.val) =
      [newWalk m q s] := walks_setWalks (thrHalf m.t.val) _ s
  have hzf : changesOnly [.xlt] s ((setWalks (thrHalf m.t.val) [newWalk m q s] s).onXlt fun x => { x with walkIds := x.walkIds + 1 }) := by
    simp [setWalks]
  rw [he]
  generalize (setWalks (thrHalf m.t.val) [newWalk m q s] s).onXlt _ = z at hz hzf ⊢
  have hf := changesOnly_trans (changesOnly_mono hzf (by decide : ∀ b ∈ [Block.xlt], b ∈ [Block.xlt, Block.cnt]))
    (u := z) (v := cnt 0x04A (some (thrHalf m.t.val)) (some (thr s m.t.val).part) 1 z) (by simp)
  refine ⟨?_, hf, calm_of_cache hf (hf .buf (by decide))⟩
  rw [walks, cnt_xlt]
  exact hz

/-- A miss joins the only walk, which is for its page. -/
theorem walkBegin_joins {m : Miss} {q : XlReq} {s : State} {w : Walk} (hw : walks s (thrHalf m.t.val) = [w])
    (hserves : w.serves (thr s m.t.val).part (q.pva.extractLsb' 12 36) = true) :
    walkBegin m q s = setWalks (thrHalf m.t.val) [{ w with waiters := w.waiters ++ [m] }] s := by
  unfold walkBegin
  dsimp only
  rw [hw, if_pos (by simp [hserves]), List.map_cons, List.map_nil, hserves, if_pos rfl]

/-! ## Table reads (R98, R99, R102, R108) -/

/-- A line of BUF space that is there. -/
theorem bufLine_of_here {s : State} {op : LineOp} {sa : Sa} {p : Part} {arrival home : Half} {key : Nat}
    (h : lineHere s op sa p arrival home key = true) (hbuf : isBuf sa = true) (w : Who) :
    calm s = true ∧ s.tables.damage = [] ∧ key = bufKey sa ∧ BufLine s (mkReq s w op sa p arrival home) := by
  have hm := meets_mkReq h w
  have hkey : key = bufKey sa := by
    rcases hm.place with ⟨-, hk⟩ | ⟨hno, -⟩
    · exact hk
    · exact absurd (hbuf.symm.trans hno) (by decide)
  refine ⟨hm.calm, hm.damage, hkey, hbuf, hm.runs, ?_⟩
  show rowClean s (bufKey sa) = true
  rw [← hkey]
  exact hm.clean

/-- An address that decodes to no CTL or doorbell space has not both high bits set. -/
theorem decoded_space {s : State} {v : Staged} {sa : Sa} {x : Space} (h : decodeSa s v sa = .ok x) (hx : x.isDev = false) :
    ¬ (bit sa 51 = true ∧ bit sa 50 = true) := by
  rintro ⟨h1, h2⟩
  unfold decodeSa at h
  dsimp only at h
  rw [h1, h2] at h
  simp only [Bool.not_true, Bool.false_eq_true, if_false] at h
  split at h
  · cases h
  · split at h
    · split at h
      · cases h
      · cases h
        cases hx
    · split at h
      · split at h
        · cases h
        · cases h
          cases hx
      · cases h

theorem decoded_of_checked {s : State} {v : Staged} {p : Part} {via : Option Nat} {need : Rights} {sa : Sa} {x : Space}
    (h : checkSa s v p via need sa = .ok x) : decodeSa s v sa = .ok x := by
  unfold checkSa at h
  split at h
  · cases h
  · dsimp only at h
    split_ifs at h
    cases h
    assumption

theorem testBit_field (e i : Nat) : decide (field e i 1 = 1) = e.testBit i := by
  rw [Nat.testBit_eq_decide_div_mod_eq, field, Nat.pow_one]

/-- The rights that an entry leaves a walk. -/
theorem meet_entryRights (r : Rights) (e : Nat) : r.meet (entryRights e) =
    { r := r.r && e.testBit 1, w := r.w && e.testBit 2, a := r.a && e.testBit 3, x := r.x && e.testBit 4 } := by
  simp only [Rights.meet, entryRights, testBit_field]

/-- A table read of a line of BUF space that is there leads on with the entry. -/
theorem walkRead_entry {h : Half} {w : Walk} {s : State} {x : Space} {key e : Nat} {ea : Sa} (hea : walkEa w = ea) (hask : s.cache.asked = [])
    (hgot : s.cache.got = []) (hchk : checkSa s (pipeView s h) 0 none Rights.rd ea = .ok x) (hx : x.isDev = false) (hbuf : isBuf ea = true)
    (hun : unavailable s (x.half h) h = false)
    (hline : lineHere s (.read (.bytes (ea.toNat % 128) 8 false) none false) ea 0 h (x.half h) key = true) (hsp : (metaAt s key).sp = 0)
    (he : lineField s key (ea.toNat % 128) 8 = e) (hv : e.testBit 0 = true) (hfmt : formatBad e w.level = false) :
    ∃ u, lineWork s u ∧ calm u = true ∧ walkRead h w s =
      if w.level = 0 ∨ field e 5 1 = 1 then walkLeaf h w e ea u
      else setWalks h ((walks u h).map fun y =>
        if y.id = w.id then { y with level := w.level - 1, table := BitVec.ofNat 40 (field e 12 40), rights := w.rights.meet (entryRights e) } else y) u := by
  obtain ⟨hcalm, hdam, hkey, hb⟩ := bufLine_of_here hline hbuf .own
  have hfree : unasked (.walk h w.id) s := by
    refine ⟨?_, ?_⟩
    · rw [hask]
      simp
    · rw [hgot]
      simp
  obtain ⟨u, hu, hwork, hcu⟩ := gather_reads (c := .walk h w.id) (sp := .bytes (ea.toNat % 128) 8 false) (melt := false)
    (L := [(w.level, mkReq s .own (.read (.bytes (ea.toNat % 128) 8 false) none false) ea 0 h (x.half h))]) hcalm hdam (by simp) hfree (by
      intro e he
      rw [List.mem_singleton] at he
      subst he
      exact ⟨rfl, hb, by rw [← hsp, hkey]; rfl⟩)
  have hoff : ea.toNat % 128 + 8 ≤ 128 := by
    rw [← hea, walkEa, BitVec.toNat_ofNat]
    omega
  have hdata : (bufRes s (w.level, mkReq s .own (.read (.bytes (ea.toNat % 128) 8 false) none false) ea 0 h (x.half h))).data.toNat /
      2 ^ (8 * (ea.toNat % 128)) % 2 ^ 64 = e := by
    have hl := lineData_part s key hoff
    rw [← he, ← hl, hkey]
    rfl
  have hbit : field e 0 1 = 1 := by simpa [hv] using testBit_field e 0
  refine ⟨u, hwork, hcu, ?_⟩
  unfold walkRead
  dsimp only
  rw [hea, if_neg (decoded_space (decoded_of_checked hchk) hx), hchk]
  dsimp only
  rw [hun, if_neg (by decide), show field ea.toNat 0 7 = ea.toNat % 128 from field_low _ 7, hu]
  simp only [List.map_cons, List.map_nil, List.headD_cons]
  rw [hdata, if_neg (by simp [bufRes, LineRes.st]), if_neg (by rw [hbit]; decide), hfmt, if_neg (by decide)]

/-- A filled translation stands in the cache. -/
theorem tlbFill_holds (h : Half) (e : Tlb) (s : State) :
    ∃ tl, tlbFill h e s = { s with xlt := { s.xlt with tlb := tl } } ∧ ∃ n, tget none tl n = some { e with ref := true } := by
  have hset (i : Nat) (t : State) (ht : ∃ tl, t = { s with xlt := { s.xlt with tlb := tl } }) :
      ∃ tl, setTlb i (some { e with ref := true }) t = { s with xlt := { s.xlt with tlb := tl } } ∧ ∃ n, tget none tl n = some { e with ref := true } := by
    obtain ⟨tl, rfl⟩ := ht
    exact ⟨_, rfl, i, tget_tset_self ..⟩
  have hfold (f : State → Nat → State) (hf : ∀ t i, ∃ tl, f t i = { t with xlt := { t.xlt with tlb := tl } }) (l : List Nat) :
      ∀ t, (∃ tl, t = { s with xlt := { s.xlt with tlb := tl } }) → ∃ tl, l.foldl f t = { s with xlt := { s.xlt with tlb := tl } } := by
    induction l with
    | nil => exact fun t ht => ht
    | cons a l ih =>
      intro t ht
      refine ih _ ?_
      obtain ⟨tl, rfl⟩ := ht
      obtain ⟨tl', h'⟩ := hf { s with xlt := { s.xlt with tlb := tl } } a
      exact ⟨tl', h'⟩
  unfold tlbFill
  dsimp only
  split
  · exact hset _ s ⟨_, rfl⟩
  · exact hset _ _ (hfold _ (fun t i => ⟨_, rfl⟩) _ s ⟨_, rfl⟩)

/-- The translation that a leaf gives. -/
def leafTlb (w : Walk) (e : Nat) : Tlb :=
  { part := w.part, vpage := BitVec.ofNat 36 (w.vpage.toNat / 2 ^ (9 * w.level)), size := BitVec.ofNat 2 w.level, sa := BitVec.ofNat 40 (field e 12 40),
    rights := w.rights.meet (entryRights e), ref := true }

/-- A leaf hands its translation to the only instruction that waits for it, and ends the only walk. -/
theorem walkLeaf_gives {h : Half} {w : Walk} {e : Nat} {ea : Sa} {s : State} {t : ThreadId} {q : XlReq} (hw : walks s h = [w])
    (hwait : walkWaitOf s h = []) (hm : w.waiters = [⟨t, .instr, q.num⟩]) (hq : (thr s t.val).xl = some q) (hword : (thr s t.val).word = none)
    (hgrant : (leafTlb w e).rights.pageGrants q.need = true) (hfill : w.noFill = false) (hcalm : calm s = true) :
    walks (walkLeaf h w e ea s) h = [] ∧ thr (walkLeaf h w e ea s) t.val = { thr s t.val with xl := none, hit := some (leafTlb w e) } ∧
      (walkLeaf h w e ea s).cache = s.cache ∧ ∃ n, tget none (walkLeaf h w e ea s).xlt.tlb n = some (leafTlb w e) := by
  have hxl (u : State) (hu : u.seq = s.seq) : xlOf u ⟨t, .instr, q.num⟩ = some q := by
    have : (thr u t.val).xl = some q := by rw [thr_congr hu, hq]
    simp [xlOf, xlReqs, this]
  obtain ⟨tl, hf, n, hn⟩ := tlbFill_holds h (leafTlb w e) s
  obtain ⟨v, hv⟩ : ∃ v : State, v = { s with xlt := { s.xlt with tlb := tl } } := ⟨_, rfl⟩
  have hvs : v.seq = s.seq := by rw [hv]
  have hgive : walkGive ⟨t, .instr, q.num⟩ (leafTlb w e) false v = modThr v t.val fun x => { x with xl := none, hit := some (leafTlb w e) } := by
    have hwd : (thr (modThr v t.val fun x => { x with xl := none, hit := some (leafTlb w e) }) t.val).word = none := by
      rw [thr_modThr_self]
      exact (congrArg Thread.word (thr_congr hvs t.val)).trans hword
    unfold walkGive
    dsimp only
    rw [hxl v hvs]
    dsimp only
    unfold wordAttempt
    dsimp only
    rw [hwd]
  obtain ⟨z, hz⟩ : ∃ z, z = modThr v t.val fun x => { x with xl := none, hit := some (leafTlb w e) } := ⟨_, rfl⟩
  have hzx : z.xlt = { s.xlt with tlb := tl } ∧ z.cache = s.cache ∧ calm z = calm s := by
    rw [hz, hv]
    exact ⟨rfl, rfl, rfl⟩
  obtain ⟨z1, z2, z3⟩ := hzx
  have hzw : walks z h = [w] := by rw [walks, z1]; exact hw
  have hleave : walkLeave h w.id z = setWalks h [] z := by
    have hz0 : walkWaitOf z h = [] := by rw [walkWaitOf, z1]; exact hwait
    unfold walkLeave
    rw [hz0, hzw]
    simp [walkNext]
  have hcz : calm (setWalks h [] z) = true := by
    refine Eq.trans ?_ (z3.trans hcalm)
    exact calm_of_cache (changesOnly_mono (show changesOnly [.xlt] z (setWalks h [] z) by simp [setWalks]) (by decide)) rfl
  have hleaf : walkLeaf h w e ea s = setWalks h [] z := by
    have hfilled : tlbFill h (leafTlb w e) s = v := hf.trans hv.symm
    rw [← hz] at hgive
    simp only [leafTlb] at hfilled hgive hgrant
    unfold walkLeaf
    dsimp only
    rw [hm, hfill]
    simp only [List.any_cons, List.any_nil, hxl s rfl, hgrant, Bool.or_false, Bool.not_false, and_self, if_true, hfilled, List.foldl_cons, List.foldl_nil, hxl v hvs, hgive, hleave]
    exact settle_calm hcz
  rw [hleaf]
  have hcf : (setWalks h [] z).cache = z.cache ∧ (setWalks h [] z).seq = z.seq ∧ (setWalks h [] z).xlt.tlb = z.xlt.tlb := by
    cases h <;> exact ⟨rfl, rfl, rfl⟩
  obtain ⟨f1, f2, f3⟩ := hcf
  refine ⟨walks_setWalks .., ?_, f1.trans z2, n, ?_⟩
  · rw [thr_congr f2, hz, thr_modThr_self, thr_congr hvs]
  · rw [f3, z1]
    exact hn

/-! ## XLT_INV (R110, R111) -/

/-- The cached translations that an invalidation leaves. -/
theorem keepTlb_tlb (h : Half) (keep : Tlb → Bool) (s : State) :
    (∀ n e, (n, some e) ∈ (keepTlb h keep s).xlt.tlb ↔ (n, some e) ∈ s.xlt.tlb ∧ (keep e = true ∨ n / 2048 ≠ h.idx)) ∧
      (∃ tl, (keepTlb h keep s).xlt = { s.xlt with tlb := tl }) ∧ changesOnly [.xlt, .seq] s (keepTlb h keep s) := by
  have hfold (f : State → Nat → State) (hf : ∀ t i, (f t i).xlt = t.xlt ∧ changesOnly [.seq] t (f t i)) (l : List Nat) :
      ∀ t, (l.foldl f t).xlt = t.xlt ∧ changesOnly [.seq] t (l.foldl f t) := by
    induction l with
    | nil => exact fun t => ⟨rfl, changesOnly_refl _ t⟩
    | cons a l ih =>
      intro t
      obtain ⟨h1, h2⟩ := hf t a
      obtain ⟨h3, h4⟩ := ih (f t a)
      exact ⟨h3.trans h1, changesOnly_trans h2 h4⟩
  obtain ⟨f, ok, hf, hok, hnone, he⟩ : ∃ (f : State → Nat → State) (ok : Option Tlb → Bool), (∀ t i, (f t i).xlt = t.xlt ∧ changesOnly [.seq] t (f t i)) ∧
      (∀ x, ok (some x) = keep x) ∧ ok none = false ∧
      keepTlb h keep s = (List.range 36).foldl f (s.onXlt fun x => { x with tlb := x.tlb.filter fun e => decide (¬ e.1 / 2048 = h.idx) || ok e.2 }) := by
    unfold keepTlb
    refine ⟨_, fun x => match x with
      | none => false
      | some t => keep t, ?_, fun _ => rfl, rfl, rfl⟩
    exact fun t i => ⟨rfl, by simp⟩
  rw [he]
  obtain ⟨hx, hfr⟩ := hfold f hf (List.range 36) (s.onXlt fun x => { x with tlb := x.tlb.filter fun e => decide (¬ e.1 / 2048 = h.idx) || ok e.2 })
  generalize (List.range 36).foldl f _ = u at hx hfr ⊢
  refine ⟨fun n e => ?_, ⟨_, hx⟩, changesOnly_trans (changesOnly_mono (show changesOnly [.xlt] s _ by simp) (by decide)) (changesOnly_mono hfr (by decide))⟩
  rw [hx]
  simp only [State.onXlt, List.mem_filter, hok, Bool.or_eq_true, decide_eq_true_eq]
  rw [or_comm]

/-- The walks that an invalidation may concern fill nothing. -/
theorem setWalks_frame (h : Half) (ws : List Walk) (s : State) :
    changesOnly [.xlt] s (setWalks h ws s) ∧ (setWalks h ws s).xlt.tlb = s.xlt.tlb ∧ (setWalks h ws s).xlt.ref = s.xlt.ref := by
  cases h <;> exact ⟨by simp [setWalks], rfl, rfl⟩

theorem setInv_facts (j : XInv) (z : State) :
    (z.onXlt fun x => { x with inv := some j }).xlt.ref = z.xlt.ref ∧ (z.onXlt fun x => { x with inv := some j }).xlt.tlb = z.xlt.tlb ∧
      (z.onXlt fun x => { x with inv := some j }).xlt.inv = some j ∧ changesOnly [.xlt] z (z.onXlt fun x => { x with inv := some j }) :=
  ⟨rfl, rfl, rfl, by simp⟩

theorem hits_congr {i j : XInv} (hs : j.scope = i.scope) (hp : j.part = i.part) (hg : j.page = i.page) : j.hits = i.hits := by
  funext e
  rw [XInv.hits, XInv.hits, hs, hp, hg]

theorem invStart_eq (i : XInv) (s : State) : ∃ (w1 w2 : List Walk) (j : XInv), (j.scope = i.scope ∧ j.part = i.part ∧ j.page = i.page) ∧
    invStart i s = (keepTlb .w (fun e => !i.hits e) (keepTlb .e (fun e => !i.hits e) (setWalks .w w2 (setWalks .e w1 s)))).onXlt
      fun x => { x with inv := some j } := by
  obtain ⟨w1, w2, j, hj, he⟩ : ∃ (w1 w2 : List Walk) (j : XInv), (j.scope = i.scope ∧ j.part = i.part ∧ j.page = i.page) ∧
      invStart i s = (keepTlb .w (fun e => !j.hits e) (keepTlb .e (fun e => !j.hits e) (setWalks .w w2 (setWalks .e w1 s)))).onXlt
        fun x => { x with inv := some j } := by
    unfold invStart
    refine ⟨_, _, _, ?_, rfl⟩
    exact ⟨rfl, rfl, rfl⟩
  rw [hits_congr hj.1 hj.2.1 hj.2.2] at he
  exact ⟨w1, w2, j, hj, he⟩

/-- An invalidation removes every translation that it covers, and keeps the others. -/
theorem invStart_spec (i : XInv) (s : State) :
    (∀ n e, (n, some e) ∈ (invStart i s).xlt.tlb ↔ (n, some e) ∈ s.xlt.tlb ∧ (i.hits e = false ∨ 4096 ≤ n)) ∧
      (invStart i s).xlt.ref = s.xlt.ref ∧
      (∃ j, (invStart i s).xlt.inv = some j ∧ j.scope = i.scope ∧ j.part = i.part ∧ j.page = i.page) ∧ changesOnly [.xlt, .seq] s (invStart i s) := by
  obtain ⟨w1, w2, j, hj, he⟩ := invStart_eq i s
  obtain ⟨v, hv⟩ : ∃ v, v = setWalks .w w2 (setWalks .e w1 s) := ⟨_, rfl⟩
  rw [← hv] at he
  have hvf : changesOnly [.xlt] s v ∧ v.xlt.tlb = s.xlt.tlb ∧ v.xlt.ref = s.xlt.ref := by
    obtain ⟨a1, a2, a3⟩ := setWalks_frame .e w1 s
    obtain ⟨b1, b2, b3⟩ := setWalks_frame .w w2 (setWalks .e w1 s)
    rw [hv]
    exact ⟨changesOnly_trans a1 b1, b2.trans a2, b3.trans a3⟩
  obtain ⟨v1, v2, v3⟩ := hvf
  obtain ⟨e1, ⟨tl1, e2⟩, e3⟩ := keepTlb_tlb .e (fun e => !i.hits e) v
  generalize keepTlb .e (fun e => !i.hits e) v = y at he e1 e2 e3
  obtain ⟨k1, ⟨tl2, k2⟩, k3⟩ := keepTlb_tlb .w (fun e => !i.hits e) y
  generalize keepTlb .w (fun e => !i.hits e) y = z at he k1 k2 k3
  obtain ⟨f1, f2, f3, f4⟩ := setInv_facts j z
  rw [← he] at f1 f2 f3 f4
  refine ⟨fun n e => ?_, f1.trans ((congrArg Xlt.ref k2).trans ((congrArg Xlt.ref e2).trans v3)), ⟨j, f3, hj⟩,
    changesOnly_trans (changesOnly_mono v1 (by decide)) (changesOnly_trans e3 (changesOnly_trans k3 (changesOnly_mono f4 (by decide))))⟩
  have hn : (i.hits e = false ∨ n / 2048 ≠ 0) ∧ (i.hits e = false ∨ n / 2048 ≠ 1) ↔ (i.hits e = false ∨ 4096 ≤ n) := by
    cases i.hits e with
    | false => simp
    | true =>
      simp
      omega
  rw [f2, k1, e1, v2]
  simp only [Half.idx, Bool.not_eq_true']
  rw [and_assoc, hn]

/-- What an invalidation covers (R110). -/
theorem hits_iff (i : XInv) (e : Tlb) :
    i.hits e = true ↔ (i.scope = 2 ∨ (e.part = i.part ∧ (i.scope = 0 → e.vpage.toNat = i.page.toNat / 2 ^ (9 * e.size.toNat)))) := by
  have hpage : i.page.toNat * 4096 / 2 ^ pageLog e.size = i.page.toNat / 2 ^ (9 * e.size.toNat) := by
    rw [pageLog, Nat.pow_add, Nat.mul_comm, Nat.mul_div_mul_left _ _ (by decide)]
  unfold XInv.hits
  by_cases h2 : i.scope = 2
  · simp [h2]
  · by_cases h0 : i.scope = 0
    · simp [h0, Tlb.maps, hpage]
    · have h2' : ¬ i.scope = 2#2 := h2
      have h0' : ¬ i.scope = 0#2 := h0
      simp [h2', h0']

/-- Nothing that was in flight is left. -/
theorem rest_finished {i : XInv} {s : State} (hw : ∀ a ∈ i.walks, ∀ w ∈ walks s a.1, w.id ≠ a.2) (hm : i.waits = [])
    (ho : ∀ a ∈ i.outs, ∀ o ∈ (thr s a.1.val).outs, o.id ≠ a.2) (hu : ∀ c ∈ i.units, workLeft s c = false) (hp : ∀ a ∈ i.posted, a ∉ s.cache.posted) :
    (i.rest s).finished = true := by
  have h1 : i.walks.filter (fun a => (walks s a.1).any fun w => w.id == a.2) = [] :=
    List.filter_eq_nil_iff.mpr fun a ha => by simpa using hw a ha
  have h2 : i.outs.filter (fun a => (thr s a.1.val).outs.any fun o => o.id == a.2) = [] :=
    List.filter_eq_nil_iff.mpr fun a ha => by simpa using ho a ha
  have h3 : i.units.filter (workLeft s) = [] := List.filter_eq_nil_iff.mpr fun c hc => by simp [hu c hc]
  have h4 : s.cache.posted.filter (fun a => i.posted.contains a) = [] :=
    List.filter_eq_nil_iff.mpr fun a ha => by simpa using fun h => hp a h ha
  have hrest : (i.rest s) = { i with walks := [], waits := [], outs := [], units := [], posted := [] } := by
    unfold XInv.rest
    dsimp only
    rw [hm, h1, h2, h3]
    simp only [List.filter_nil, List.flatMap_nil, List.append_nil, List.any_nil, Bool.or_false, h4]
  rw [hrest]
  rfl

/-- An access that was outstanding is left. -/
theorem rest_unfinished {i : XInv} {s : State} {a : ThreadId × Nat} {o : Outst} (ha : a ∈ i.outs) (ho : o ∈ (thr s a.1.val).outs) (hid : o.id = a.2) :
    (i.rest s).finished = false := by
  have hmem : a ∈ (i.rest s).outs := by
    refine List.mem_append_left _ (List.mem_filter.mpr ⟨ha, ?_⟩)
    exact List.any_eq_true.mpr ⟨o, ho, by simp [hid]⟩
  have hne : (i.rest s).outs.isEmpty = false := by
    cases h : (i.rest s).outs with
    | nil => rw [h] at hmem; cases hmem
    | cons b l => rfl
  simp [XInv.finished, hne]

/-- Settles O26. -/
theorem translation : Obligations.Translation := by
  unfold Obligations.Translation
  refine ⟨?_, ?_, ?_⟩
  · intro t src s q qs m h p page hrun hwarm hcalm hreqs hwait
    have he (hno : ∀ w ∈ walks s h, m ∉ w.waiters) : exec (.translationMiss t src) s = answer s (settle (walkBegin m q s)) := by
      have h0 : exec (.translationMiss t src) s = execTranslationMiss t src s := rfl
      rw [h0, execTranslationMiss, if_pos ⟨hrun, by simp [hwarm]⟩, walkMiss_first hreqs hwait hno]
    refine ⟨fun hnil hroot => ?_, fun w hone hpart hpage hfill hmem => ?_⟩
    · have he := he fun w hw => by rw [hnil] at hw; cases hw
      obtain ⟨h1, h2, h3⟩ := walkBegin_starts (m := m) (q := q) hnil hroot
      rw [settle_calm (h3.trans hcalm)] at he
      exact completesWith_answer he ⟨h1, h2⟩
    · have he := he fun w' hw => by
        rw [hone, List.mem_singleton] at hw
        rw [hw]
        exact hmem
      have hj := walkBegin_joins (m := m) (q := q) hone (by simp [Walk.serves, hpart, hpage, hfill]; exact ⟨rfl, rfl⟩)
      have hfr := (setWalks_frame h [{ w with waiters := w.waiters ++ [m] }] s).1
      have hcz : calm (walkBegin m q s) = true := by
        rw [hj]
        exact (calm_of_cache (changesOnly_mono hfr (by decide)) (hfr .buf (by decide))).trans hcalm
      rw [settle_calm hcz, hj] at he
      exact completesWith_answer he ⟨walks_setWalks .., hfr⟩
  · intro h w s x key ea hw hwait hrun hask hgot hchk hx hbuf hun hline hsp e rights hv hfmt
    obtain ⟨u, hwork, hcu, hread⟩ := walkRead_entry (e := e) rfl hask hgot hchk hx hbuf hun hline hsp rfl hv hfmt
    have he : exec (.walkTableRead h 0) s = answer s (walkRead h w s) := by
      have h0 : exec (.walkTableRead h 0) s = execWalkTableRead h 0 s := rfl
      rw [h0, execWalkTableRead, hw]
      dsimp only [List.getElem?_cons_zero]
      rw [hrun, if_pos rfl]
    have hleafRights : w.rights.meet (entryRights e) = rights := meet_entryRights ..
    have hwu : walks u h = [w] ∧ walkWaitOf u h = [] ∧ ∀ k, thr u k = thr s k := by
      refine ⟨?_, ?_, thr_lineWork hwork⟩
      · obtain ⟨_, _, _, _, _, _, _, rfl⟩ := hwork
        exact hw
      · obtain ⟨_, _, _, _, _, _, _, rfl⟩ := hwork
        exact hwait
    obtain ⟨u1, u2, u3⟩ := hwu
    refine ⟨fun hl h5 => ?_, fun t q hl hm hq hword hgrant hfill => ?_⟩
    · have h5' : field e 5 1 ≠ 1 := by
        have := testBit_field e 5
        rw [h5] at this
        exact of_decide_eq_false this
      rw [hread, if_neg (not_or.mpr ⟨hl, h5'⟩), u1] at he
      have hfr := setWalks_frame h ([w].map fun y =>
        if y.id = w.id then { y with level := w.level - 1, table := BitVec.ofNat 40 (field e 12 40), rights := w.rights.meet (entryRights e) } else y) u
      refine completesWith_answer he ⟨?_, ?_⟩
      · refine (walks_setWalks ..).trans ?_
        rw [List.map_cons, List.map_nil, if_pos rfl, hleafRights, ofNat_field (Nat.le_refl 40)]
        rfl
      · rw [sameBytes_answered]
        exact sameBytes_of_data ((congrArg Cache.data (hfr.1 .cache (by decide))).trans (data_lineWork hwork))
    · have hleaf : w.level = 0 ∨ field e 5 1 = 1 := hl.imp id fun h => by
        have := testBit_field e 5
        rw [h] at this
        exact of_decide_eq_true this
      rw [hread, if_pos hleaf] at he
      obtain ⟨l1, l2, l3, n, l4⟩ := walkLeaf_gives (e := e) (ea := walkEa w) u1 u2 hm (by rw [u3]; exact hq) (by rw [u3]; exact hword)
        (by rw [leafTlb, hleafRights]; exact hgrant) hfill hcu
      generalize walkLeaf h w e (walkEa w) u = z at he l1 l2 l3 l4
      refine completesWith_answer he ⟨l1, ?_, ?_, ?_, leafTlb w e, ?_, rfl, ?_, ?_, hleafRights, ?_, n, l4⟩
      · rw [thr_answered, l2]
      · rw [thr_answered, l2, u3]
      · rw [sameBytes_answered]
        exact sameBytes_of_data ((congrArg Cache.data l3).trans (data_lineWork hwork))
      · rw [thr_answered, l2]
      · exact BitVec.toNat_ofNat ..
      · exact ofNat_field (Nat.le_refl 40) ..
      · have hlt := w.vpage.isLt
        rw [leafTlb, BitVec.toNat_ofNat, Nat.mod_eq_of_lt ((Nat.div_le_self _ _).trans_lt hlt)]
  · intro part v s
    refine ⟨?_, fun i hi hw hm ho hu hp => ?_, fun i a o hi ha ho hid => ?_⟩
    · intro hup sc p page covers
      have he : exec (.xltInv part v) s = execXltInv part v s := rfl
      refine ⟨fun hnone => ?_, fun hsome => ?_⟩
      · obtain ⟨i, hsc, hp, hpg, hi⟩ : ∃ i : XInv, i.scope = sc ∧ i.part = p ∧ i.page = page ∧
            xltInv part v s = invStart i (s.onXlt fun x => { x with ref := setBit x.ref part.toNat false }) := by
          refine ⟨_, ?_, ?_, ?_, by unfold xltInv; rw [hnone, if_neg (by decide)]⟩
          · rfl
          · rfl
          · rfl
        obtain ⟨h1, h2, ⟨j, h3, j1, j2, j3⟩, h4⟩ := invStart_spec i (s.onXlt fun x => { x with ref := setBit x.ref part.toNat false })
        rw [execXltInv, ifUp, if_pos (by simpa using hup), hi] at he
        generalize invStart i (s.onXlt fun x => { x with ref := setBit x.ref part.toNat false }) = u at he h1 h2 h3 h4
        refine completesWith_answer he ⟨fun n e => ?_, h2, ⟨j, h3, j1.trans hsc, j2.trans hp, j3.trans hpg⟩, ?_⟩
        · have hcov : i.hits e = false ↔ ¬ covers e := by
            rw [← Bool.not_eq_true, hits_iff, hsc, hp, hpg]
          rw [← hcov]
          exact h1 n e
        · rw [changesOnly_answered]
          exact changesOnly_trans (changesOnly_mono (show changesOnly [.xlt] s _ by simp) (by decide)) h4
      · rw [execXltInv, ifUp, if_pos (by simpa using hup), xltInv, if_pos (Option.isSome_iff_ne_none.mpr hsome)] at he
        exact completesWith_answer he ⟨rfl, by rw [changesOnly_answered]; simp⟩
    · have he : exec .xltInvComplete s = execXltInvComplete s := rfl
      rw [execXltInvComplete, hi] at he
      dsimp only at he
      rw [rest_finished hw hm ho hu hp, if_pos rfl] at he
      exact completesWith_answer he ⟨rfl, by rw [changesOnly_answered]; simp⟩
    · have he : exec .xltInvComplete s = execXltInvComplete s := rfl
      rw [execXltInvComplete, hi] at he
      dsimp only at he
      rw [rest_unfinished ha ho hid, if_neg (by decide)] at he
      exact completesWith_answer he ⟨rfl, by rw [changesOnly_answered]; simp⟩

end Sys2Proof.Machine
end

section
/-! PROOFS. Cache hints, prefetch and melt (R264, R139, R104). -/

namespace Sys2Proof.Machine

open Sys2Proof.Safety

/-! ## A request that marks its line, or finds none -/

/-- What a hint, a prefetch or a melt makes of its line's entry. -/
def markedMeta (op : LineOp) (m : Meta) : Meta :=
  match op with
  | .hint keep => if m.pinned ∨ m.replica then m else { m with ref := keep, demoted := !keep }
  | .melt => if m.pinned ∨ m.replica then m else { m with melt := true }
  | .fill => usedMeta m
  | _ => m

/-- Line `key` has the entry m; only prefetch statistics, counts and metadata differ. -/
structure Touched (key : Nat) (m : Meta) (s u : State) : Prop where
  work : lineWork s u
  here : metaAt u key = m
  other : ∀ k, k ≠ key → metaAt u k = metaAt s k

theorem touched_refl (key : Nat) (s : State) : Touched key (metaAt s key) s s := ⟨lineWork_refl s, rfl, fun _ _ => rfl⟩

theorem touched_setMeta (key : Nat) (m : Meta) (s : State) : Touched key m s (setMeta s key m) :=
  ⟨lineWork_setMeta .., by rw [metaAt_setMeta, if_pos rfl], fun k hk => by rw [metaAt_setMeta, if_neg hk]⟩

theorem touched_markLine (key : Nat) (f : Meta → Meta) (s : State) :
    Touched key (if (metaAt s key).pinned ∨ (metaAt s key).replica then metaAt s key else f (metaAt s key)) s (markLine key f s) := by
  unfold markLine
  dsimp only
  split
  · exact touched_refl key s
  · exact touched_setMeta key _ s

theorem loops_markLine (key : Nat) (f : Meta → Meta) (s : State) : (markLine key f s).loops = s.loops := by
  unfold markLine
  dsimp only
  split <;> rfl

theorem metaAt_prefEnded_if (b : Bool) (h : Half) (p : Part) (useful : Bool) (s : State) (k : Nat) :
    metaAt (if b then prefEnded h p useful s else s) k = metaAt s k := by
  split
  · rw [prefEnded, cnt_only]
    rfl
  · rfl

theorem Touched.of_same {key : Nat} {m : Meta} {s t u : State} (h : Touched key m t u) (hw : lineWork s t)
    (hm : ∀ k, metaAt t k = metaAt s k) : Touched key m s u :=
  ⟨lineWork_trans hw h.work, h.here, fun k hk => (h.other k hk).trans (hm k)⟩

/-- The operation is a hint, a prefetch or a melt. -/
def marking (op : LineOp) : Prop := (∃ keep, op = .hint keep) ∨ op = .fill ∨ op = .melt

/-- A marking request marks the line it meets, and is answered. -/
theorem atLine_marks (r : LineReq) (key : Nat) (s : State) (hop : marking r.op) :
    ∃ v, Touched key (markedMeta r.op (metaAt s key)) s v ∧ (r.op ≠ .fill → v.loops = s.loops) ∧
      atLine r key s = (true, answerReq r (LineRes.st 0) (some key) v) := by
  obtain ⟨keep, h⟩ | h | h := hop
  · refine ⟨_, ?_, fun _ => loops_markLine _ _ _, by simp only [atLine, h]; rfl⟩
    rw [h]
    exact touched_markLine key (fun m => { m with ref := keep, demoted := !keep }) s
  · refine ⟨_, ?_, fun hne => absurd h hne, by simp only [atLine, h]; rfl⟩
    rw [h]
    exact (touched_setMeta ..).of_same (lineWork_prefEnded_if ..) (metaAt_prefEnded_if _ _ _ _ s)
  · refine ⟨_, ?_, fun _ => loops_markLine _ _ _, by simp only [atLine, h]; rfl⟩
    rw [h]
    exact touched_markLine key (fun m => { m with melt := true }) s

theorem onlyCounts_kept {s u : State} (h : onlyCounts s u) : (∀ k, metaAt u k = metaAt s k) ∧ u.loops = s.loops := by
  obtain ⟨_, _, _, rfl⟩ := h
  exact ⟨fun _ => rfl, rfl⟩

/-- The request r on s ends as its answer on v does, but for counts. -/
def endsAs (r : LineReq) (key : Option Nat) (s v : State) : Prop :=
  calm (answerReq r (LineRes.st 0) key v) = true → onlyCounts (answerReq r (LineRes.st 0) key v) (settle (enqueue r s))

theorem touched_counts {key : Nat} {m : Meta} {s t u : State} (ht : onlyCounts s t) (h : Touched key m t u) : Touched key m s u := by
  refine h.of_same (lineWork_of_onlyCounts ht) fun k => ?_
  obtain ⟨_, _, _, rfl⟩ := ht
  rfl

/-- A marking request that meets its line. -/
theorem settle_marks {s : State} {r : LineReq} {key : Nat} (h : Meets s r key) (hop : marking r.op) :
    ∃ v, Touched key (markedMeta r.op (metaAt s key)) s v ∧ (r.op ≠ .fill → v.loops = s.loops) ∧ endsAs r (some key) s v := by
  obtain ⟨t, ht, hdone, -⟩ := settle_enqueue h
  obtain ⟨v, hv, hl, he⟩ := atLine_marks r key t hop
  have hm : metaAt t key = metaAt s key ∧ t.loops = s.loops := by
    obtain ⟨_, _, _, rfl⟩ := ht
    exact ⟨rfl, rfl⟩
  rw [hm.1] at hv
  rw [hm.2] at hl
  rw [he] at hdone
  refine ⟨v, touched_counts ht hv, hl, fun hc => ?_⟩
  obtain ⟨w, hw, hset⟩ := hdone rfl hc
  rwa [hset]

/-- A request finds no way of its line, in a calm machine with nothing damaged: lineAway's conditions, of the request itself. -/
structure Misses (s : State) (r : LineReq) : Prop where
  calm : calm s = true
  runs : domRuns s (r.home.pick 3 4) = true
  damage : s.tables.damage = []
  far : isBuf r.sa = false
  idle : uncachedBusy s (lineOf r.sa) = false
  away : ∀ i, r.gi = some i → (gtLive s r.home i).valid = true →
    rowClean s (setKey r.home (gtLive s r.home i).group.toNat (farSet r.sa)) = true ∧
      findWay s (setKey r.home (gtLive s r.home i).group.toNat (farSet r.sa)) (farTag r.sa) = none

theorem misses_mkReq {s : State} {op : LineOp} {sa : Sa} {p : Part} {arrival home : Half} (h : lineAway s op sa p arrival home = true)
    (w : Who) : Misses s (mkReq s w op sa p arrival home) := by
  unfold lineAway at h
  simp only [Bool.and_eq_true, Bool.not_eq_true'] at h
  obtain ⟨⟨⟨⟨⟨⟨hcalm, hruns⟩, hdamage⟩, hbuf⟩, hbusy⟩, hres⟩, hrow⟩ := h
  refine ⟨hcalm, hruns, List.isEmpty_iff.mp hdamage, hbuf, hbusy, fun i hi hv => ?_⟩
  have hi' : (mkReq s .own op sa p arrival home).gi = some i := hi
  rw [hi'] at hrow
  refine ⟨hrow, ?_⟩
  have hres := beq_iff_eq.mp hres
  unfold residentOf at hres
  rw [hi'] at hres
  dsimp only at hres
  rwa [if_neg (not_or.mpr ⟨by rw [show isBuf (mkReq s .own op sa p arrival home).sa = isBuf sa from rfl, hbuf]; exact Bool.false_ne_true,
    by rw [show gtLive s (mkReq s .own op sa p arrival home).home i = gtLive s home i from rfl,
      show (gtLive s home i).valid = true from hv]; exact Bool.false_ne_true⟩)] at hres

theorem uncached_marks (r : LineReq) (s : State) (hop : marking r.op) : uncached r s = (true, answerReq r (LineRes.st 0) none s) := by
  obtain ⟨keep, h⟩ | h | h := hop <;> simp only [uncached, h]

/-- A hint or a melt of a line that is away is answered, and nothing else happens. -/
theorem tryReq_misses {s : State} {r : LineReq} (h : Misses s r) (hop : marking r.op) (hm : r.op.marks = true) :
    ∃ v, onlyCounts s v ∧ (tryReq r s).1 = true ∧ onlyCounts (answerReq r (LineRes.st 0) none v) (tryReq r s).2 := by
  have hrow : replicaRow s r = none := by
    unfold replicaRow
    obtain ⟨keep, he⟩ | he | he := hop <;> rw [he]
  obtain ⟨-, hq, -⟩ := calm_iff.mp h.calm
  have hmshr : mshrOf s r.home (lineOf r.sa) = none := by simp [mshrOf, hq]
  simp only [tryReq, hrow]
  simp only [tryHome, checkTables_clean r h.damage, h.runs, wasReset_self, h.far, h.idle, Bool.not_true, Bool.false_eq_true, if_false]
  cases hgi : r.gi with
  | none => exact ⟨s, onlyCounts_refl s, by simp only [uncached_marks r s hop], by simp only [uncached_marks r s hop, onlyCounts_refl]⟩
  | some i =>
    by_cases hv : (gtLive s r.home i).valid = true
    · obtain ⟨hclean, hway⟩ := h.away i hgi hv
      simp only [hv, Bool.not_true, Bool.false_eq_true, if_false, checkRow_clean 1 hclean rfl, wasReset_self, lookup, hmshr, hway, hm, if_true,
        charged]
      exact ⟨_, onlyCounts_trans (onlyCounts_cnt 0x004 (some r.home) (some r.part) 1 s) (onlyCounts_cnt ..), trivial, onlyCounts_charge ..⟩
    · simp only [Bool.not_eq_true] at hv
      simp only [hv, Bool.not_false, if_true]
      exact ⟨s, onlyCounts_refl s, by simp only [uncached_marks r s hop], by simp only [uncached_marks r s hop, onlyCounts_refl]⟩

theorem Misses.counts {s u : State} {r : LineReq} (h : Misses s r) (hu : onlyCounts s u) : Misses u r := by
  obtain ⟨_, _, _, rfl⟩ := hu
  exact ⟨h.calm, h.runs, h.damage, h.far, h.idle, h.away⟩

/-- A hint or a melt of a line that is away. -/
theorem settle_misses {s : State} {r : LineReq} (h : Misses s r) (hop : marking r.op) (hm : r.op.marks = true) :
    ∃ v, onlyCounts s v ∧ endsAs r none s v := by
  obtain ⟨t, ht, he⟩ := enqueue_counts r s
  obtain ⟨v, hv, h1, h2⟩ := tryReq_misses (h.counts ht) hop hm
  refine ⟨v, onlyCounts_trans ht hv, fun hc => ?_⟩
  rw [he, settle_done (h.counts ht).calm (Prod.ext h1 rfl) ((onlyCounts_calm h2).trans hc)]
  exact h2

/-! ## The answers -/

/-- The answer of a request that no access waits for ends its note. -/
theorem answerReq_posted {r : LineReq} {t : ThreadId} {n : Nat} (hwho : r.who = .posted t n) (key : Option Nat) (v : State) :
    ∃ w, onlyCounts v w ∧ answerReq r (LineRes.st 0) key v =
      w.onCache fun c => { c with posted := c.posted.filter fun e => !(e == (t, n)) } := by
  refine ⟨answerUnits r 0 v, onlyCounts_answerUnits .., ?_⟩
  simp [answerReq, hwho, LineRes.st, stPoison]

/-- The answer of a melt ends its access without a register. -/
theorem answerReq_melt {r : LineReq} {t : ThreadId} {id : Nat} (hwho : r.who = .thread t id) (hop : r.op = .melt) (key : Option Nat)
    (v : State) : ∃ w, onlyCounts v w ∧ answerReq r (LineRes.st 0) key v = threadResult t id [] w := by
  refine ⟨answerUnits r 0 v, onlyCounts_answerUnits .., ?_⟩
  simp [answerReq, hwho, hop, LineRes.st, stPoison, constFill]

/-- Once it is answered, a request that no access waits for has left its marks, and nothing else but counts. -/
structure Passed (s v u : State) : Prop where
  seq : u.seq = s.seq
  metas : ∀ k, metaAt u k = metaAt v k
  data : u.cache.data = s.cache.data
  frame : changesOnly [.cnt, .tst, .bwr, .cache, .loops] s u
  loops : u.loops = v.loops

theorem posted_ends {s v : State} {r : LineReq} {t : ThreadId} {n : Nat} {key : Option Nat} (hwho : r.who = .posted t n)
    (hc : calm s = true) (hv : lineWork s v) (h : endsAs r key s v) : Passed s v (settle (enqueue r s)) := by
  obtain ⟨w, hw, he⟩ := answerReq_posted hwho key v
  have hcalm := (onlyCounts_calm hw).trans ((lineWork_calm hv).trans hc)
  rw [endsAs, he] at h
  obtain ⟨_, _, _, hu⟩ := h hcalm
  rw [hu]
  obtain ⟨_, _, _, rfl⟩ := hw
  obtain ⟨_, _, _, _, _, _, _, rfl⟩ := hv
  exact ⟨rfl, fun _ => rfl, rfl, fun b hb => by cases b <;> first | rfl | simp at hb, rfl⟩

/-! ## Hint and prefetch -/

/-- The state with the note of a request that no access waits for. -/
def withNote (t : ThreadId) (s : State) : State :=
  (modThr s t.val fun x => { x with nextId := (thr s t.val).nextId + 1 }).onCache fun c =>
    { c with posted := c.posted ++ [(t, (thr s t.val).nextId)] }

theorem postLine_eq (t : ThreadId) (op : LineOp) (sa : Sa) (home : Half) (s : State) :
    postLine t op sa home s =
      enqueue (mkReq s (.posted t (thr s t.val).nextId) op sa (thr s t.val).part (thrHalf t.val) home) (withNote t s) := rfl

theorem Meets.withNote {s : State} {r : LineReq} {key : Nat} (t : ThreadId) (h : Meets s r key) : Meets (withNote t s) r key :=
  ⟨h.calm, h.clean, h.runs, h.damage, h.place⟩

theorem Misses.withNote {s : State} {r : LineReq} (t : ThreadId) (h : Misses s r) : Misses (withNote t s) r :=
  ⟨h.calm, h.runs, h.damage, h.far, h.idle, h.away⟩

theorem Misses.seqWork {s u : State} {r : LineReq} (h : Misses s r) (hu : seqWork s u) : Misses u r := by
  obtain ⟨_, _, _, _, rfl⟩ := hu
  exact ⟨h.calm, h.runs, h.damage, h.far, h.idle, h.away⟩

theorem metaAt_withNote (t : ThreadId) (s : State) (k : Nat) : metaAt (withNote t s) k = metaAt s k := rfl

theorem data_withNote (t : ThreadId) (s : State) : (withNote t s).cache.data = s.cache.data := rfl

theorem thr_withNote_self (t : ThreadId) (s : State) : thr (withNote t s) t.val = { thr s t.val with nextId := (thr s t.val).nextId + 1 } :=
  thr_modThr_self s t.val fun x => { x with nextId := (thr s t.val).nextId + 1 }

theorem thr_withNote_ne {t : ThreadId} {s : State} {k : Nat} (hk : k ≠ t.val) : thr (withNote t s) k = thr s k :=
  thr_modThr_ne s (fun x => { x with nextId := (thr s t.val).nextId + 1 }) hk

theorem loops_reached (t : ThreadId) (pva : BitVec 64) (need : Rights) (kind : Nat) (dev : Space → Bool) (s : State) :
    (reached t pva need kind dev s).loops = s.loops := by
  obtain ⟨x, hx⟩ := reached_only t pva need kind dev s
  rw [hx]

/-- The instruction has gone on with its request's note counted, and the request has passed. -/
structure WentOn (t : ThreadId) (s v u : State) : Prop where
  here : thr u t.val = ended { (thr s t.val).next with nextId := (thr s t.val).nextId + 1 }
  others : otherThreads t s u
  kept : seqKept t s u
  metas : ∀ k, metaAt u k = metaAt v k
  data : u.cache.data = s.cache.data
  frame : changesOnly [.seq, .cnt, .tst, .bwr, .cache, .loops] s u
  loops : u.loops = v.loops

/-- A request without an access that passes after its instruction has retired. -/
theorem wentOn_posted {t : ThreadId} {s v u : State} (h : Passed (withNote t (retire t Thread.next s)) v u) : WentOn t s v u := by
  have hself := thr_retire_self t Thread.next s
  have hother (k : Nat) (hk : k ≠ t.val) := thr_retire_ne t Thread.next s hk
  obtain ⟨hframe, k1, k2, k3, k4, k5⟩ := retire_frame t Thread.next s
  generalize retire t Thread.next s = y at h hself hother hframe k1 k2 k3 k4 k5
  have hseq := h.seq
  refine ⟨?_, fun k hk => ?_, ⟨?_, ?_, ?_, ?_, fun hh => ?_⟩, h.metas, ?_, ?_, h.loops⟩
  · rw [thr_congr hseq, thr_withNote_self, hself]
    rfl
  · rw [thr_congr hseq, thr_withNote_ne hk, hother k hk]
  · rw [hseq]; exact k1
  · rw [hseq]; exact k2
  · rw [hseq]; exact k3
  · rw [hseq]; exact k4
  · rw [hseq]; exact k5 hh
  · rw [h.data, data_withNote, show y.cache = s.cache from hframe .cache (by decide)]
  · have hn : changesOnly [.seq, .cache] y (withNote t y) := fun b hb => by cases b <;> first | rfl | simp at hb
    exact changesOnly_trans (changesOnly_mono hframe (by decide))
      (changesOnly_trans (changesOnly_mono hn (by decide)) (changesOnly_mono h.frame (by decide)))

theorem part_retire_next (t : ThreadId) (s : State) : (thr (retire t Thread.next s) t.val).part = (thr s t.val).part := by
  rw [thr_retire_self]
  rfl

/-- The request of an instruction that goes on without an access. -/
theorem postLine_retired (t : ThreadId) (op : LineOp) (sa : Sa) (home : Half) (s : State) :
    postLine t op sa home (retire t Thread.next s) =
      enqueue (mkReq s (.posted t (thr (retire t Thread.next s) t.val).nextId) op sa (thr s t.val).part (thrHalf t.val) home)
        (withNote t (retire t Thread.next s)) := by
  rw [postLine_eq, part_retire_next, mkReq_seqWork (seqWork_retire t Thread.next s)]

/-- A hint or a prefetch of a line that is there. -/
theorem post_meets {t : ThreadId} {op : LineOp} {sa : Sa} {home : Half} {s : State} {key : Nat} (hop : marking op)
    (h : lineHere s op sa (thr s t.val).part (thrHalf t.val) home key = true) :
    ∃ v, WentOn t s v (settle (postLine t op sa home (retire t Thread.next s))) ∧ metaAt v key = markedMeta op (metaAt s key) ∧
      (∀ k, k ≠ key → metaAt v k = metaAt s k) ∧ (op ≠ .fill → v.loops = s.loops) := by
  have hw := seqWork_retire t Thread.next s
  have hm := ((meets_mkReq h (.posted t (thr (retire t Thread.next s) t.val).nextId)).seqWork hw).withNote t
  rw [postLine_retired]
  obtain ⟨v, ⟨hwork, hkey, hother⟩, hl, he⟩ := settle_marks hm hop
  have hmeta (k : Nat) : metaAt (withNote t (retire t Thread.next s)) k = metaAt s k := by rw [metaAt_withNote, metaAt_seqWork hw]
  have hloops : (withNote t (retire t Thread.next s)).loops = s.loops := by
    obtain ⟨_, _, _, _, hr⟩ := hw
    rw [hr]
    rfl
  rw [hmeta] at hkey
  exact ⟨v, wentOn_posted (posted_ends rfl hm.calm hwork he), hkey, fun k hk => (hother k hk).trans (hmeta k), fun hne => (hl hne).trans hloops⟩

/-- A hint of a line that is away. -/
theorem post_misses {t : ThreadId} {op : LineOp} {sa : Sa} {home : Half} {s : State} (hop : marking op) (hmk : op.marks = true)
    (h : lineAway s op sa (thr s t.val).part (thrHalf t.val) home = true) :
    ∃ v, WentOn t s v (settle (postLine t op sa home (retire t Thread.next s))) ∧ (∀ k, metaAt v k = metaAt s k) ∧ v.loops = s.loops := by
  have hw := seqWork_retire t Thread.next s
  have hm := ((misses_mkReq h (.posted t (thr (retire t Thread.next s) t.val).nextId)).seqWork hw).withNote t
  rw [postLine_retired]
  obtain ⟨v, hv, he⟩ := settle_misses hm hop hmk
  have hmeta (k : Nat) : metaAt (withNote t (retire t Thread.next s)) k = metaAt s k := by rw [metaAt_withNote, metaAt_seqWork hw]
  have hloops : (withNote t (retire t Thread.next s)).loops = s.loops := by
    obtain ⟨_, _, _, _, hr⟩ := hw
    rw [hr]
    rfl
  refine ⟨v, wentOn_posted (posted_ends rfl hm.calm (lineWork_of_onlyCounts hv) he), 
    fun k => ((onlyCounts_kept hv).1 k).trans (hmeta k), (onlyCounts_kept hv).2.trans hloops⟩

/-- A block that is as before does not change. -/
theorem changesOnly_without {b : Block} {bs : List Block} {s u : State} (h : changesOnly (b :: bs) s u) (hb : b.same s u) :
    changesOnly bs s u := by
  intro c hc
  by_cases he : c = b
  · rwa [he]
  · exact h c (by simp only [List.mem_cons, not_or]; exact ⟨he, hc⟩)

theorem lineWork_frame {s u : State} (h : lineWork s u) : changesOnly [.loops, .cnt, .tst, .bwr, .cache] s u := by
  obtain ⟨_, _, _, _, _, _, _, rfl⟩ := h
  exact fun b hb => by cases b <;> first | rfl | simp at hb

/-- What an instruction that has gone on has become, since before its translation. -/
theorem WentOn.became {t : ThreadId} {pva : BitVec 64} {need : Rights} {kind : Nat} {dev : Space → Bool} {s v u : State}
    (h : WentOn t (reached t pva need kind dev s) v u) :
    becameWith [.xlt, .cache, .bwr, .loops] t { (thr s t.val).next with nextId := (thr s t.val).nextId + 1 } s u ∧
      (v.loops = s.loops → becameWith [.xlt, .cache, .bwr] t { (thr s t.val).next with nextId := (thr s t.val).nextId + 1 } s u) := by
  obtain ⟨h1, h2, h3, -, -, h6, h7⟩ := h
  have hthr (k : Nat) := thr_reached t pva need kind dev s k
  rw [hthr] at h1
  have h2' : otherThreads t s u := fun k hk => (h2 k hk).trans (hthr k)
  obtain ⟨x, hx⟩ := reached_only t pva need kind dev s
  rw [hx] at h3 h6
  have hx : changesOnly [.xlt] s { s with xlt := x } := fun b hb => by cases b <;> first | rfl | simp at hb
  have hf := changesOnly_trans (changesOnly_mono hx (by decide))
    (changesOnly_mono h6 (by decide) : changesOnly [.loops, .seq, .cnt, .tst, .xlt, .cache, .bwr] _ u)
  exact ⟨⟨h1, h2', h3, changesOnly_mono hf (by decide)⟩, fun hl => ⟨h1, h2', h3, changesOnly_without hf (h7.trans hl)⟩⟩

/-- A hint or a prefetch that reaches memory is made after its instruction has retired. -/
theorem quiet_reaches {t : ThreadId} {pva : BitVec 64} {x : Space} {sa : Sa} {s : State}
    (h : reachesAt t pva 1 Rights.rd 0 (fun _ => false) x sa s) (k : Space → Sa → State → State) :
    quiet_ t pva k s = settle (k x sa (retire t Thread.next (reached t pva Rights.rd 0 (fun _ => false) s))) := by
  obtain ⟨-, h2⟩ := h
  have hd : noDev = fun _ => false := rfl
  simp only [quiet_, hd, h2, reached]

/-- An address out of range has no effect (R101). -/
theorem quiet_far {t : ThreadId} {pva : BitVec 64} (k : Space → Sa → State → State) {s : State} (h : 2 ^ 48 ≤ pva.toNat) :
    quiet_ t pva k s = retire t Thread.next s := by
  have hr : inRange pva = false := by
    unfold inRange
    simpa using h
  simp only [quiet_, reach, hr, Bool.not_false, if_true]

theorem became_retire (t : ThreadId) (s : State) : became t (thr s t.val).next s (retire t Thread.next s) := by
  obtain ⟨h1, h2⟩ := retire_frame t Thread.next s
  refine ⟨?_, fun k hk => thr_retire_ne t Thread.next s hk, h2, h1⟩
  rw [thr_retire_self]
  rfl

/-! ## Melt -/

/-- A melt's answer completes the access; nothing else but counts follows its mark. -/
theorem melt_ends {s v : State} {r : LineReq} {t : ThreadId} {id : Nat} {key : Option Nat} (hwho : r.who = .thread t id) (hop : r.op = .melt)
    (hc : calm s = true) (hv : lineWork s v) (h : endsAs r key s v) :
    ∃ w, settle (enqueue r s) = threadResult t id [] w ∧ lineWork s w ∧ (∀ k, metaAt w k = metaAt v k) ∧ w.loops = v.loops := by
  obtain ⟨w, hw, he⟩ := answerReq_melt hwho hop key v
  have hcalm : calm (threadResult t id [] w) = true :=
    (seqWork_calm (seqWork_modThr ..)).trans ((onlyCounts_calm hw).trans ((lineWork_calm hv).trans hc))
  rw [endsAs, he] at h
  obtain ⟨c, b, x, hu⟩ := h hcalm
  refine ⟨{ w with cnt := c, bwr := b, tst := x }, hu, lineWork_trans hv (lineWork_of_onlyCounts (onlyCounts_trans hw ⟨c, b, x, rfl⟩)),
    (onlyCounts_kept hw).1, (onlyCounts_kept hw).2⟩

theorem seqWork_frame {s u : State} (h : seqWork s u) : changesOnly [.seq, .cnt, .tst, .bwr] s u := by
  obtain ⟨_, _, _, _, rfl⟩ := h
  exact fun b hb => by cases b <;> first | rfl | simp at hb

/-- A melt that has been issued and answered; v has its marks. -/
structure Melted (t : ThreadId) (sa : Sa) (s v u : State) : Prop where
  out : ∃ o, issued t sa o s u ∧ o.count = 0 ∧ o.store = false ∧ o.result = some []
  metas : ∀ k, metaAt u k = metaAt v k
  data : u.cache.data = s.cache.data
  frame : v.loops = s.loops → changesOnly [.seq, .cnt, .tst, .cache, .bwr] s u

theorem threadResult_cache (t : ThreadId) (id : Nat) (v : List (BitVec 64)) (s : State) : (threadResult t id v s).cache = s.cache := rfl

theorem metaAt_threadResult (t : ThreadId) (id : Nat) (v : List (BitVec 64)) (s : State) (k : Nat) :
    metaAt (threadResult t id v s) k = metaAt s k := rfl

/-- The state in which a melt is outstanding. -/
def melting (t : ThreadId) (sa : Sa) (pva : BitVec 64) (s : State) : State :=
  retire t (fun y => (id y).next) (issueOut t sa false 0 0 (pva.setWidth 48) false s).2

theorem issueLine_melt (t : ThreadId) (x : Space) (sa : Sa) (pva : BitVec 64) (s : State) :
    issueLine t x sa pva false 0 0 false .melt id s =
      settle (enqueue (mkReq (melting t sa pva s) (.thread t (thr s t.val).nextId) .melt sa (thr s t.val).part (thrHalf t.val) (x.home t.val))
        (melting t sa pva s)) := rfl

theorem melted_of {t : ThreadId} {sa : Sa} {pva : BitVec 64} {s v w u : State} (hw : lineWork (melting t sa pva s) w)
    (hm : ∀ k, metaAt w k = metaAt v k) (hl : w.loops = v.loops) (he : u = threadResult t (thr s t.val).nextId [] w) : Melted t sa s v u := by
  have hu := hasIssued_retire t sa false 0 0 (pva.setWidth 48) false (fun y => (id y).next) s fun th => ⟨rfl, rfl, rfl⟩
  have hs : seqWork s (melting t sa pva s) := seqWork_issue t sa false 0 0 (pva.setWidth 48) false (fun y => (id y).next) s
  rw [show retire t (fun y => (id y).next) _ = melting t sa pva s from rfl] at hu
  generalize melting t sa pva s = y at hw hu hs
  have hissued : issued t sa _ s u := issued_of_result (v := []) hu rfl rfl
    (by rw [he, thr_threadResult, thr_threadResult, thr_lineWork hw]; rfl)
    (fun k hk => by rw [he, threadResult, thr_modThr_ne _ _ hk, thr_lineWork hw])
  refine ⟨⟨_, hissued, rfl, rfl, rfl⟩, fun k => ?_, ?_, fun hlv => ?_⟩
  · rw [he, metaAt_threadResult, hm]
  · rw [he, threadResult_cache, data_lineWork hw]
    obtain ⟨_, _, _, _, rfl⟩ := hs
    rfl
  · rw [hlv] at hl
    have hr : changesOnly [.seq] w u := by
      rw [he, threadResult]
      exact (changesOnly_modThr (by decide)).mpr (changesOnly_refl _ _)
    have hys : y.loops = s.loops := (seqWork_frame hs) .loops (by decide)
    exact changesOnly_trans (changesOnly_mono (seqWork_frame hs) (by decide))
      (changesOnly_trans (changesOnly_mono (changesOnly_without (lineWork_frame hw) (hl.trans hys.symm)) (by decide)) (changesOnly_mono hr (by decide)))

/-- A melt of a line that is there. -/
theorem melt_meets {t : ThreadId} {x : Space} {sa : Sa} (pva : BitVec 64) {s : State} {key : Nat}
    (h : lineHere s .melt sa (thr s t.val).part (thrHalf t.val) (x.home t.val) key = true) :
    ∃ v, Melted t sa s v (issueLine t x sa pva false 0 0 false .melt id s) ∧ metaAt v key = markedMeta .melt (metaAt s key) ∧
      (∀ k, k ≠ key → metaAt v k = metaAt s k) ∧ v.loops = s.loops := by
  have hw : seqWork s (melting t sa pva s) := seqWork_issue ..
  have hm := (meets_mkReq h (.thread t (thr s t.val).nextId)).seqWork hw
  rw [issueLine_melt, mkReq_seqWork hw]
  obtain ⟨v, ⟨hwork, hkey, hother⟩, hl, he⟩ := settle_marks hm (.inr (.inr rfl))
  obtain ⟨w, hset, h1, h2, h3⟩ := melt_ends rfl rfl hm.calm hwork he
  have hmeta (k : Nat) : metaAt (melting t sa pva s) k = metaAt s k := metaAt_seqWork hw k
  have hloops : (melting t sa pva s).loops = s.loops := by
    obtain ⟨_, _, _, _, hr⟩ := hw
    rw [hr]
  rw [hmeta] at hkey
  exact ⟨v, melted_of h1 h2 h3 hset, hkey, fun k hk => (hother k hk).trans (hmeta k), (hl (fun hf => nomatch hf)).trans hloops⟩

/-- A melt of a line that is away. -/
theorem melt_misses {t : ThreadId} {x : Space} {sa : Sa} (pva : BitVec 64) {s : State}
    (h : lineAway s .melt sa (thr s t.val).part (thrHalf t.val) (x.home t.val) = true) :
    ∃ v, Melted t sa s v (issueLine t x sa pva false 0 0 false .melt id s) ∧ (∀ k, metaAt v k = metaAt s k) ∧ v.loops = s.loops := by
  have hw : seqWork s (melting t sa pva s) := seqWork_issue ..
  have hm := (misses_mkReq h (.thread t (thr s t.val).nextId)).seqWork hw
  rw [issueLine_melt, mkReq_seqWork hw]
  obtain ⟨v, hv, he⟩ := settle_misses hm (.inr (.inr rfl)) rfl
  obtain ⟨w, hset, h1, h2, h3⟩ := melt_ends rfl rfl hm.calm (lineWork_of_onlyCounts hv) he
  have hmeta (k : Nat) : metaAt (melting t sa pva s) k = metaAt s k := metaAt_seqWork hw k
  have hloops : (melting t sa pva s).loops = s.loops := by
    obtain ⟨_, _, _, _, hr⟩ := hw
    rw [hr]
  refine ⟨v, melted_of h1 h2 h3 hset, fun k => ((onlyCounts_kept hv).1 k).trans (hmeta k),
    (onlyCounts_kept hv).2.trans hloops⟩

/-- What a melt has become, since before its translation. -/
theorem Melted.became {t : ThreadId} {sa : Sa} {pva : BitVec 64} {s v u : State}
    (h : Melted t sa (reached t pva Rights.wr 1 (fun _ => false) s) v u) (hl : v.loops = s.loops) :
    ∃ o, issued t sa o (reached t pva Rights.wr 1 (fun _ => false) s) u ∧ o.count = 0 ∧ o.store = false ∧ o.result = some [] ∧
      changesOnly [.seq, .cnt, .tst, .xlt, .cache, .bwr] s u := by
  obtain ⟨⟨o, h1, h2, h3, h4⟩, -, -, hf⟩ := h
  obtain ⟨x, hx⟩ := reached_only t pva Rights.wr 1 (fun _ => false) s
  have hlr : v.loops = (reached t pva Rights.wr 1 (fun _ => false) s).loops := by
    rw [hl, hx]
  refine ⟨o, h1, h2, h3, h4, changesOnly_trans (s := s) (u := { s with xlt := x }) (fun b hb => ?_) ?_⟩
  · cases b <;> first | rfl | simp at hb
  · rw [← hx]
    exact changesOnly_mono (hf hlr) (by decide)

/-! ## The instructions -/

theorem hint_legal {f : TFields} (hd : f.d = 0) (hb : f.b = 0) (hc : f.c = 0) (hv : f.v.toNat < 2) :
    (f.d == 0 && f.b == 0 && decide (f.v.toNat < 2) && f.c == 0) = true := by simp [hd, hb, hc, hv]

theorem onlyAI_of {f : TFields} (hd : f.d = 0) (hb : f.b = 0) (hc : f.c = 0) (hv : f.v = 0) : onlyAI f = true := by
  simp [onlyAI, noVC, hd, hb, hv, hc]

/-- DEMOTE is the opposite of KEEP. -/
theorem not_keep {v : BitVec 4} (hv : v.toNat < 2) : (!(v == 1)) = (v == 0) := by
  rcases (by omega : v.toNat = 0 ∨ v.toNat = 1) with h | h
  · rw [show v = 0 from BitVec.eq_of_toNat_eq h]
    rfl
  · rw [show v = 1 from BitVec.eq_of_toNat_eq h]
    rfl

section
variable {t : ThreadId} {f : TFields} {s : State} (hi : issues t [f.a.toNat] s) (hd : f.d = 0) (hb : f.b = 0) (hc0 : f.c = 0)
include hi hd hb hc0

/-- HINT posts its request. -/
theorem hint_runs {x : Space} {sa : Sa} (hv : f.v.toNat < 2) (hc : standsAt t (.hint t f) s)
    (hr : reachesAt t (effAddr (thr (fetched t s) t.val) f) 1 Rights.rd 0 (fun _ => false) x sa (fetched t s)) {s2 : State}
    (hs2 : reached t (effAddr (thr (fetched t s) t.val) f) Rights.rd 0 (fun _ => false) (fetched t s) = s2) :
    exec (.hint t f) s = answer s (settle (postLine t (.hint (f.v == 1)) sa (x.home t.val) (retire t Thread.next s2))) := by
  have he : exec (.hint t f) s = execHint t f s := rfl
  rw [he, execHint, hint_legal hd hb hc0 hv, instr_issues 0 _ hi hc, quiet_reaches hr, hs2, hintLine]

/-- PREF posts its request while miss registers are free. -/
theorem pref_runs {x : Space} {sa : Sa} (hv : f.v = 0) (hc : standsAt t (.pref t f) s)
    (hr : reachesAt t (effAddr (thr (fetched t s) t.val) f) 1 Rights.rd 0 (fun _ => false) x sa (fetched t s)) {s2 : State}
    (hs2 : reached t (effAddr (thr (fetched t s) t.val) f) Rights.rd 0 (fun _ => false) (fetched t s) = s2) (hm : s2.cache.mshr = []) :
    exec (.pref t f) s = answer s (settle (postLine t .fill sa (x.home t.val) (retire t Thread.next s2))) := by
  have he : exec (.pref t f) s = execPref t f s := rfl
  rw [he, execPref, onlyAI_of hd hb hc0 hv, instr_issues 0 _ hi hc]
  have hcache : (retire t Thread.next s2).cache = s2.cache := (retire_frame t Thread.next s2).1 .cache (by decide)
  have hfree : ¬ 224 < mshrCount (retire t Thread.next s2) (x.home t.val) := by
    rw [mshrCount, hcache, hm, List.filter_nil, List.length_nil]
    omega
  rw [quiet_reaches hr, hs2, prefLine, if_neg hfree]

/-- MELT issues its access. -/
theorem melt_runs {x : Space} {sa : Sa} (hv : f.v = 0) (hc : standsAt t (.melt t f) s)
    (hr : reachesAt t (effAddr (thr (fetched t s) t.val) f) 1 Rights.wr 1 (fun _ => false) x sa (fetched t s))
    (hdev : meltDev t (effAddr (thr (fetched t s) t.val) f) (fetched t s) = false) (hlen : (thr (fetched t s) t.val).outs.length < 16)
    {s2 : State} (hs2 : reached t (effAddr (thr (fetched t s) t.val) f) Rights.wr 1 (fun _ => false) (fetched t s) = s2) :
    exec (.melt t f) s =
      answer s (issueLine t x sa (effAddr (thr (fetched t s) t.val) f) false 0 0 false .melt id s2) := by
  have he : exec (.melt t f) s = execMelt t f s := rfl
  rw [he, execMelt, onlyAI_of hd hb hc0 hv, instr_issues 0 _ hi hc]
  dsimp only
  have hfull : outsFull s2 t = false := outsFull_of_lt (by rw [← hs2, thr_reached]; exact hlen)
  rw [hdev, if_neg Bool.false_ne_true, show noDev = fun _ => false from rfl, access_reaches hr, hs2, hfull, if_neg Bool.false_ne_true]

/-- MELT of CTL or doorbell space only goes on (R104). -/
theorem melt_dev (hv : f.v = 0) (hc : standsAt t (.melt t f) s) (hdev : meltDev t (effAddr (thr (fetched t s) t.val) f) (fetched t s) = true)
    (hlen : (thr (fetched t s) t.val).outs.length < 16) : exec (.melt t f) s = answer s (retire t Thread.next (fetched t s)) := by
  have he : exec (.melt t f) s = execMelt t f s := rfl
  rw [he, execMelt, onlyAI_of hd hb hc0 hv, instr_issues 0 _ hi hc]
  dsimp only
  rw [hdev, if_pos rfl, outsFull_of_lt hlen, if_neg Bool.false_ne_true]

/-- HINT and PREF of an address out of range only go on. -/
theorem quiet_runs_far {c : Instr} (hcase : (c = .hint t f ∧ f.v.toNat < 2) ∨ (c = .pref t f ∧ f.v = 0)) (hc : standsAt t c s)
    (hfar : 2 ^ 48 ≤ (effAddr (thr (fetched t s) t.val) f).toNat) : exec c s = answer s (retire t Thread.next (fetched t s)) := by
  obtain ⟨rfl, hv⟩ | ⟨rfl, hv⟩ := hcase
  · have he : exec (.hint t f) s = execHint t f s := rfl
    rw [he, execHint, hint_legal hd hb hc0 hv, instr_issues 0 _ hi hc, quiet_far _ hfar]
  · have he : exec (.pref t f) s = execPref t f s := rfl
    rw [he, execPref, onlyAI_of hd hb hc0 hv, instr_issues 0 _ hi hc, quiet_far _ hfar]

end

/-- Settles O18: each instruction's request passes on the line it finds, or finds none. -/
theorem cacheInstructions : Obligations.CacheInstructions := by
  intro t f s hi hd hb hcf s1 th pva marked unmarked goesOn
  refine ⟨fun x sa hx => ⟨?_, ?_, ?_⟩, fun hv hc hdev hlen => ?_, fun c hcase hc hfar => ?_⟩
  · intro hr hv hc s2
    have hthr (k : Nat) : thr s2 k = thr s1 k := thr_reached ..
    have hmark : marking (.hint (f.v == 1)) := .inl ⟨_, rfl⟩
    have he := hint_runs hi hd hb hcf hv hc hr (s2 := s2) rfl
    refine ⟨fun key hh => ?_, fun hh => ?_⟩
    · obtain ⟨v, hw, hkey, hother, hl⟩ := post_meets hmark (by rw [hthr]; exact hh)
      generalize settle _ = u at he hw
      have hgo := hw.became.2 ((hl (fun hf => nomatch hf)).trans (loops_reached ..))
      refine completesWith_answer he ⟨becameWith_answered.mpr hgo, ?_, fun k hk => ?_, sameBytes_answered.mpr (sameBytes_of_data hw.data)⟩
      · rw [metaAt_answered, hw.metas, hkey, markedMeta, not_keep hv]
      · rw [metaAt_answered, hw.metas, hother k hk]
    · obtain ⟨v, hw, hm, hl⟩ := post_misses hmark rfl (by rw [hthr]; exact hh)
      generalize settle _ = u at he hw
      have hgo := hw.became.2 (hl.trans (loops_reached ..))
      exact completesWith_answer he ⟨becameWith_answered.mpr hgo, fun k => by rw [metaAt_answered, hw.metas, hm],
        sameBytes_answered.mpr (sameBytes_of_data hw.data)⟩
  · intro hr hv hc s2 key hh
    have hthr (k : Nat) : thr s2 k = thr s1 k := thr_reached ..
    have he := pref_runs hi hd hb hcf hv hc hr (s2 := s2) rfl (meets_of_lineHere hh).quiet.2.1
    obtain ⟨v, hw, hkey, hother, -⟩ := post_meets (.inr (.inl rfl)) (by rw [hthr]; exact hh)
    generalize settle _ = u at he hw
    refine completesWith_answer he ⟨becameWith_answered.mpr hw.became.1, ?_, fun k hk => ?_, sameBytes_answered.mpr (sameBytes_of_data hw.data)⟩
    · rw [metaAt_answered, hw.metas, hkey]
      rfl
    · rw [metaAt_answered, hw.metas, hother k hk]
  · intro hr hv hc hdev hlen s2 issues_
    have hthr (k : Nat) : thr s2 k = thr s1 k := thr_reached ..
    have he := melt_runs hi hd hb hcf hv hc hr hdev hlen (s2 := s2) rfl
    refine ⟨fun key hh => ?_, fun hh => ?_⟩
    · obtain ⟨v, hw, hkey, hother, hl⟩ := melt_meets (effAddr (thr s1 t.val) f) (by rw [hthr]; exact hh)
      generalize issueLine _ _ _ _ _ _ _ _ _ _ _ = u at he hw
      obtain ⟨o, h1, h2, h3, h4, h5⟩ := hw.became (hl.trans (loops_reached ..))
      refine completesWith_answer he ⟨⟨o, issued_answered.mpr h1, h2, h3, h4, changesOnly_answered.mpr h5⟩, ?_, fun k hk => ?_,
        sameBytes_answered.mpr (sameBytes_of_data hw.data)⟩
      · rw [metaAt_answered, hw.metas, hkey, markedMeta]
      · rw [metaAt_answered, hw.metas, hother k hk]
    · obtain ⟨v, hw, hm, hl⟩ := melt_misses (effAddr (thr s1 t.val) f) (by rw [hthr]; exact hh)
      generalize issueLine _ _ _ _ _ _ _ _ _ _ _ = u at he hw
      obtain ⟨o, h1, h2, h3, h4, h5⟩ := hw.became (hl.trans (loops_reached ..))
      exact completesWith_answer he ⟨⟨o, issued_answered.mpr h1, h2, h3, h4, changesOnly_answered.mpr h5⟩,
        fun k => by rw [metaAt_answered, hw.metas, hm], sameBytes_answered.mpr (sameBytes_of_data hw.data)⟩
  · exact completesWith_answer (melt_dev hi hd hb hcf hv hc hdev hlen) (becameWith_answered.mpr (became_retire t _))
  · exact completesWith_answer (quiet_runs_far hi hd hb hcf hcase hc hfar) (becameWith_answered.mpr (became_retire t _))

end Sys2Proof.Machine
end

section
/-! PROOFS. The states of a port (R295 to R298) and lane sparing (R299). -/

namespace Sys2Proof.Machine

open Sys2Proof.Safety

/-! ## A port that moves -/

theorem setPort_spec (s : State) (n : Nat) (p : Port) :
    portBecomes n p s (setPort s n p) ∧ link (setPort s n p) n = link s n ∧ changesOnly [.links] s (setPort s n p) :=
  ⟨⟨port_setPort_self .., fun _ hk => port_setPort_ne s p hk⟩, rfl, by simp⟩

theorem portTo_moves {s : State} {n st : Nat} (h : (port s n).state ≠ BitVec.ofNat 3 st) :
    portMoves n (BitVec.ofNat 3 st) s (portTo n st s) ∧ link (portTo n st s) n = link s n ∧ changesOnly [.links] s (portTo n st s) := by
  rw [portTo_eq h]
  exact setPort_spec ..

@[simp] theorem portBecomes_answered {n : Nat} {x : Port} {r s u : State} : portBecomes n x r (answered s u) ↔ portBecomes n x r u := Iff.rfl

@[simp] theorem portMoves_answered {n : Nat} {k : BitVec 3} {r s u : State} : portMoves n k r (answered s u) ↔ portMoves n k r u := Iff.rfl

@[simp] theorem portIsDown_answered {n : Nat} {r s u : State} : portIsDown n r (answered s u) ↔ portIsDown n r u := Iff.rfl

theorem portBecomes_congr {n : Nat} {x : Port} {s u v : State} (h : portBecomes n x s u) (hp : v.links.port = u.links.port) :
    portBecomes n x s v := by
  simpa only [portBecomes, port, hp] using h

/-- A command that sends the port to a state. -/
theorem completesWith_portTo {c : Instr} {s : State} {n st : Nat} (he : exec c s = answer s (portTo n st s))
    (h : (port s n).state ≠ BitVec.ofNat 3 st) :
    completesWith c s fun u => portMoves n (BitVec.ofNat 3 st) s u ∧ link u n = link s n ∧ changesOnly [.links] s u := by
  obtain ⟨h1, h2, h3⟩ := portTo_moves h
  generalize portTo n st s = u at he h1 h2 h3
  exact completesWith_answer he ⟨portMoves_answered.mpr h1, (link_answered ..).trans h2, changesOnly_answered.mpr h3⟩

theorem portActive_states {s : State} {n : Nat} (h : portActive s n = true) : portLive s n = true ∧ (port s n).state ≠ 6 := by
  have h4 := portActive_iff.mp h
  exact ⟨by rw [portLive, h4]; decide, by rw [h4]; decide⟩

/-! ## Training (R296, R299) -/

/-- A logical lane moves onto spare lane 16 or 17. -/
def sparedPort (p : Port) (lane : BitVec 5) (second : Bool) : Port :=
  { p with spares := p.spares - 1, sub16 := if second then (if p.sub16 = lane then 0x1F else p.sub16) else lane,
           sub17 := if second then lane else p.sub17, gen := p.gen + 1 }

theorem useSpare_eq {s : State} {n : Nat} (lane : BitVec 5) (second : Bool) (h : (port s n).spares ≠ 0) :
    ∃ c, useSpare n lane second s = (setPort s n (sparedPort (port s n) lane second)).onCnt fun _ => c := by
  have hne : (port s n).spares ≠ (port s n).spares - 1 := by
    intro he
    have h0 := h
    bv_omega
  unfold useSpare
  dsimp only
  rw [putPort_eq _ _ _ (.inr (.inr hne))]
  exact linkEvent_only ..

/-- A fold in which one element alone has an effect. -/
theorem foldl_once {α β : Type} [DecidableEq α] (f : β → α → β) {l : List α} {a : α} (hn : l.Nodup) (ha : a ∈ l)
    (hf : ∀ x b, b ≠ a → f x b = x) (x : β) : l.foldl f x = f x a := by
  have hskip : ∀ (l : List α) (x : β), a ∉ l → l.foldl f x = x := by
    intro l
    induction l with
    | nil => exact fun _ _ => rfl
    | cons b l ih =>
      intro x hb
      obtain ⟨hb1, hb2⟩ := not_or.mp fun h => hb (List.mem_cons.mpr h)
      rw [List.foldl_cons, hf x b (Ne.symm hb1), ih x hb2]
  induction l generalizing x with
  | nil => cases ha
  | cons b l ih =>
    obtain ⟨hb, hl⟩ := List.nodup_cons.mp hn
    rw [List.foldl_cons]
    rcases List.mem_cons.mp ha with rfl | ha
    · exact hskip l _ hb
    · rw [hf x b fun h => hb (h ▸ ha), ih hl ha]

/-- No lane failed. -/
theorem trainSpare_none (n : Nat) (s : State) : trainSpare n 0 s = (true, s) := by
  have hf (l : List Nat) (a : BitVec 16 × State) (f : BitVec 16 × State → Nat → BitVec 16 × State)
      (hf : ∀ a k, f a k = a) : l.foldl f a = a := by
    induction l with
    | nil => rfl
    | cons k l ih => rw [List.foldl_cons, hf, ih]
  unfold trainSpare
  dsimp only
  rw [hf _ _ _ fun a k => if_neg (by rw [show (0 : BitVec 16) = 0#16 from rfl, BitVec.getLsbD_zero]; exact Bool.false_ne_true)]
  rfl

/-- One lane failed, and a spare is free. -/
theorem trainSpare_one {n : Nat} {s : State} (k : Fin 16) (h : (port s n).spares ≠ 0) :
    trainSpare n (setBit 0 k.val true) s = (true, useSpare n (BitVec.ofNat 5 k.val) ((port s n).sub16 != 0x1F) s) := by
  have hbit (j : Nat) (hj : j < 16) : (setBit (0 : BitVec 16) k.val true).getLsbD j = decide (j = k.val) := by
    rw [getLsbD_setBit_true _ _ hj]
    simp
  have hout (j : Nat) (hj : 16 ≤ j) : (setBit (0 : BitVec 16) k.val true).getLsbD j = false := BitVec.getLsbD_of_ge _ _ hj
  unfold trainSpare
  dsimp only
  rw [foldl_once _ List.nodup_range (List.mem_range.mpr k.isLt) fun a b hb => if_neg (by
      by_cases hlt : b < 16
      · rw [hbit b hlt]
        simpa using hb
      · rw [hout b (by omega)]
        exact Bool.false_ne_true)]
  simp only [hbit _ k.isLt, decide_true, if_true, if_neg h]

/-- The lanes that have been adapted (R59). -/
def adapted (n : Nat) (eq : List LaneEq) (s : State) : State :=
  if s.loops.frz.getLsbD (eqLoop n) then s else (eq.take 16).zipIdx.foldl (fun t e => adaptLane n e.2 e.1 t) s

/-- A lane's equalizer within its loop's limits. -/
def clampedEq (l : Loop) (x : LaneEq) : LaneEq := { x with ctle := BitVec.ofNat 16 (max l.lo.toNat (min l.hi.toNat x.ctle.toNat)) }

theorem foldl_adaptLane (n : Nat) (l : List (LaneEq × Nat)) (s : State) :
    memOnly s (l.foldl (fun t e => adaptLane n e.2 e.1 t) s) ∧
      ∀ k, k ∉ l.map (·.2) → tget LaneEq.zero (l.foldl (fun t e => adaptLane n e.2 e.1 t) s).loops.laneEq (16 * n + k) =
        tget LaneEq.zero s.loops.laneEq (16 * n + k) := by
  induction l generalizing s with
  | nil => exact ⟨⟨fun _ => rfl, rfl, changesOnly_refl _ s⟩, fun _ _ => rfl⟩
  | cons e l ih =>
    obtain ⟨h1, h2⟩ := ih (adaptLane n e.2 e.1 s)
    refine ⟨memOnly_trans (memOnly_setLaneEq ..) h1, fun k hk => ?_⟩
    rw [List.map_cons, List.mem_cons, not_or] at hk
    rw [List.foldl_cons, h2 k hk.2]
    exact tget_tset_ne _ _ _ (by omega)

theorem foldl_adaptLane_mem (n : Nat) {l : List (LaneEq × Nat)} (hn : (l.map (·.2)).Nodup) {e : LaneEq × Nat} (he : e ∈ l) (s : State) :
    tget LaneEq.zero (l.foldl (fun t e => adaptLane n e.2 e.1 t) s).loops.laneEq (16 * n + e.2) = clampedEq (loopOf s (eqLoop n)) e.1 := by
  induction l generalizing s with
  | nil => cases he
  | cons d l ih =>
    rw [List.map_cons, List.nodup_cons] at hn
    rw [List.foldl_cons]
    rcases List.mem_cons.mp he with rfl | he
    · rw [(foldl_adaptLane n l _).2 _ hn.1]
      exact tget_tset_self ..
    · rw [ih hn.2 he]
      rfl

theorem adapted_spec (n : Nat) (eq : List LaneEq) (s : State) :
    memOnly s (adapted n eq s) ∧ (s.loops.frz.getLsbD (eqLoop n) = true → (adapted n eq s).loops.laneEq = s.loops.laneEq) ∧
      (s.loops.frz.getLsbD (eqLoop n) = false → ∀ (k : Fin 16) (x : LaneEq), eq[k.val]? = some x →
        tget LaneEq.zero (adapted n eq s).loops.laneEq (16 * n + k.val) = clampedEq (loopOf s (eqLoop n)) x) := by
  unfold adapted
  by_cases hf : s.loops.frz.getLsbD (eqLoop n) = true
  · rw [if_pos hf]
    exact ⟨⟨fun _ => rfl, rfl, changesOnly_refl _ s⟩, fun _ => rfl, fun h => absurd hf (by rw [h]; decide)⟩
  · rw [if_neg hf]
    refine ⟨(foldl_adaptLane ..).1, fun h => absurd h hf, fun _ k x hk => ?_⟩
    refine foldl_adaptLane_mem n (e := (x, k.val)) ?_ ?_ s
    · rw [List.zipIdx_map_snd]
      exact List.nodup_range'
    · rw [List.mem_zipIdx_iff_getElem?]
      rw [List.getElem?_take_of_lt k.isLt]
      exact hk

theorem clk_adapted (n : Nat) (eq : List LaneEq) (s : State) : (adapted n eq s).clk = s.clk := by
  have hfold : ∀ (l : List (LaneEq × Nat)) (t : State), (l.foldl (fun t e => adaptLane n e.2 e.1 t) t).clk = t.clk := by
    intro l
    induction l with
    | nil => exact fun _ => rfl
    | cons e l ih => exact fun t => ih (adaptLane n e.2 e.1 t)
  unfold adapted
  split
  · rfl
  · exact hfold _ s

/-- The link of a port whose LINKCFG is out (R295). -/
def configLink (n : Nat) (s : State) : LinkSt :=
  { LinkSt.zero with tx := [({ Frame.mk0 0xC0 0 0 0 0 with data := linkcfgData s n }, 0)], lastFrame := s.clk.time, lastBlock := s.clk.time,
                     progress := s.clk.time }

/-- Training that ends sends the port to CONFIG. -/
theorem trainDone_runs {n : PortId} {failed : BitVec 16} {eq : List LaneEq} {s t : State} (h2 : (port s n.val).state = 2)
    (ht : trainSpare n.val failed (adapted n.val eq s) = (true, t)) :
    exec (.trainDone { port := n, failed := failed, eq := eq }) s =
      answer s (setLink (portTo n.val 3 t) n.val (configLink n.val (portTo n.val 3 t))) := by
  have he : exec (.trainDone { port := n, failed := failed, eq := eq }) s = execTrainDone { port := n, failed := failed, eq := eq } s := rfl
  rw [he, execTrainDone]
  dsimp only
  rw [if_pos h2]
  rw [show (if s.loops.frz.getLsbD (eqLoop n.val) = true then s else _) = adapted n.val eq s from rfl, ht]
  rfl

theorem link_onCnt (s : State) (f : Cnt → Cnt) (k : Nat) : link (s.onCnt f) k = link s k := rfl

theorem port_memOnly {s t : State} (h : memOnly s t) (k : Nat) : port t k = port s k := by
  rw [port, show t.links = s.links from h.2.2 .links (by decide)]
  rfl

/-- Training without a failed lane. -/
theorem trainDone_completes {n : PortId} {s : State} (h2 : (port s n.val).state = 2) (eq : List LaneEq) :
    completesWith (.trainDone { port := n, failed := 0, eq := eq }) s fun u => portMoves n.val 3 s u ∧
      (s.loops.frz.getLsbD (eqLoop n.val) = true → u.loops.laneEq = s.loops.laneEq) ∧
      (s.loops.frz.getLsbD (eqLoop n.val) = false → ∀ (k : Fin 16) (x : LaneEq), eq[k.val]? = some x →
        tget LaneEq.zero u.loops.laneEq (16 * n.val + k.val) = clampedEq (loopOf s (eqLoop n.val)) x) ∧
      (link u n.val).tx = [({ Frame.mk0 0xC0 0 0 0 0 with data := linkcfgData s n.val }, 0)] ∧ (link u n.val).expect = 0 ∧
      (link u n.val).base = 0 := by
  have he := trainDone_runs (eq := eq) h2 (trainSpare_none n.val _)
  obtain ⟨hm, hfrz, hlive⟩ := adapted_spec n.val eq s
  have hp := port_memOnly hm
  have hclk := clk_adapted n.val eq s
  have hglb : (adapted n.val eq s).glb = s.glb := hm.2.2 .glb (by decide)
  generalize adapted n.val eq s = t at he hm hfrz hlive hp hclk hglb
  obtain ⟨⟨h1, h1'⟩, -, hf⟩ := portTo_moves (s := t) (n := n.val) (st := 3) (by rw [hp, h2]; decide)
  have hcfg : linkcfgData (portTo n.val 3 t) n.val = linkcfgData s n.val := by
    rw [linkcfgData, linkcfgData, h1, hp, show (portTo n.val 3 t).glb = t.glb from hf .glb (by decide), hglb]
  have hloops : (portTo n.val 3 t).loops = t.loops := hf .loops (by decide)
  rw [configLink, hcfg] at he
  generalize portTo n.val 3 t = v at he h1 h1' hloops
  rw [hp, hclk] at h1
  refine completesWith_answer he ⟨⟨?_, fun k hk => ?_⟩, fun h => ?_, fun h k x hx => ?_, ?_, ?_, ?_⟩
  · rw [port_answered, port_setLink, h1]
    rfl
  · rw [port_answered, port_setLink, h1' k hk, hp]
  · exact (congrArg Loops.laneEq hloops).trans (hfrz h)
  · refine Eq.trans ?_ (hlive h k x hx)
    exact congrArg (fun l : Loops => tget LaneEq.zero l.laneEq (16 * n.val + k.val)) hloops
  · rw [link_answered, link_setLink_self]
  · rw [link_answered, link_setLink_self]
    rfl
  · rw [link_answered, link_setLink_self]
    rfl

/-- Training with one failed lane, which moves onto spare 16. -/
theorem trainDone_spares {n : PortId} {s : State} (h2 : (port s n.val).state = 2) (k : Fin 16) (eq : List LaneEq)
    (hs : (port s n.val).spares ≠ 0) (h16 : (port s n.val).sub16 = 0x1F) :
    completesWith (.trainDone { port := n, failed := setBit 0 k.val true, eq := eq }) s fun u =>
      portBecomes n.val { port s n.val with state := 3, since := s.clk.time, spares := (port s n.val).spares - 1,
                                            sub16 := BitVec.ofNat 5 k.val, gen := (port s n.val).gen + 2 } s u := by
  obtain ⟨hm, -, -⟩ := adapted_spec n.val eq s
  have hp := port_memOnly hm
  have hclk := clk_adapted n.val eq s
  have he := trainDone_runs (eq := eq) h2 (trainSpare_one k (by rw [hp]; exact hs))
  rw [hp, h16, show ((0x1F : BitVec 5) != 0x1F) = false from rfl] at he
  generalize adapted n.val eq s = t at he hm hp hclk
  obtain ⟨c, hc⟩ := useSpare_eq (n := n.val) (BitVec.ofNat 5 k.val) false (s := t) (by rw [hp]; exact hs)
  rw [hc, hp] at he
  obtain ⟨⟨h1, h1'⟩, -, -⟩ := setPort_spec t n.val (sparedPort (port s n.val) (BitVec.ofNat 5 k.val) false)
  have h1 : port ((setPort t n.val (sparedPort (port s n.val) (BitVec.ofNat 5 k.val) false)).onCnt fun _ => c) n.val = _ := h1
  have h1' : ∀ j, j ≠ n.val → port ((setPort t n.val (sparedPort (port s n.val) (BitVec.ofNat 5 k.val) false)).onCnt fun _ => c) j = _ := h1'
  have hck : ((setPort t n.val (sparedPort (port s n.val) (BitVec.ofNat 5 k.val) false)).onCnt fun _ => c).clk = t.clk := rfl
  generalize (setPort t n.val (sparedPort (port s n.val) (BitVec.ofNat 5 k.val) false)).onCnt _ = v at he h1 h1' hck
  obtain ⟨⟨g1, g1'⟩, -, -⟩ := portTo_moves (s := v) (n := n.val) (st := 3) (by rw [h1]; exact fun h => absurd (h2.symm.trans h) (by decide))
  generalize portTo n.val 3 v = w at he g1 g1'
  refine completesWith_answer he ⟨?_, fun j hj => ?_⟩
  · rw [port_answered, port_setLink, g1, h1, hck, hclk]
    simp only [sparedPort, Bool.false_eq_true, if_false, Port.mk.injEq, and_true, true_and, BitVec.add_assoc]
    exact ⟨rfl, rfl⟩
  · rw [port_answered, port_setLink, g1' j hj, h1' j hj, hp]

/-! ## Configuration (R295) -/

theorem took_takeAny (n opc : Nat) (s : State) : Took s (takeAny n opc s) := by
  unfold takeAny
  split
  · exact Took.refl s
  · exact took_takeFrame ..

theorem Took.clk {s u : State} (h : Took s u) : u.clk = s.clk := by
  obtain ⟨l, rfl⟩ := h.only
  rfl

/-- A transmitter with nothing in its buffer sends nothing. -/
theorem linkPump_idle {n : Nat} {s : State} (hb : (link s n).buf = []) (hw : (link s n).wait = []) :
    linkPump n s = setLink s n (link s n) := by
  have hx : bufAdmit n (link s n) = link s n := by
    rw [bufAdmit, hw, List.foldl_nil, ← hw]
  unfold linkPump
  dsimp only
  rw [hx, hb, List.foldl_nil, flitsOut, ite_self, if_pos (Nat.sub_self _)]

theorem poolRelease_none {s : State} (h : s.cache.pool = []) : poolRelease s = s := by
  have hc : ({ s.cache with pool := s.cache.pool.filter fun q => q.port.isSome } : Cache) = s.cache := by
    rw [h, List.filter_nil, ← h]
  rw [poolRelease, h, List.filter_nil, List.foldl_nil]
  exact congrArg (fun c => { s with cache := c }) hc

/-- A port that comes up, with nothing waiting. -/
theorem portUp_spec {n : Nat} {c : Credits} {s : State} (hst : (port s n).state = 3) (hc : calm s = true) (hp : s.cache.pool = [])
    (hb : (link s n).buf = []) (hw : (link s n).wait = []) :
    portBecomes n { port s n with state := 4, upEvt := true, since := s.clk.time, gen := (port s n).gen + 1 } s (portUp n c s) ∧
      (link (portUp n c s) n).cred = c ∧ calm (portUp n c s) = true := by
  obtain ⟨hport, hlink, hf⟩ := setPort_spec s n { port s n with state := 4, upEvt := true, since := s.clk.time, gen := (port s n).gen + 1 }
  unfold portUp
  dsimp only
  rw [putPort_eq _ _ _ (.inl (by rw [hst]; exact (by decide : (3 : BitVec 3) ≠ 4)))]
  have hcache : (setPort s n { port s n with state := 4, upEvt := true, since := s.clk.time, gen := (port s n).gen + 1 }).cache = s.cache := rfl
  have hcalm := (calm_congr hcache (hf .atu (by decide)) (hf .buf (by decide))).trans hc
  generalize setPort s n _ = t at hport hlink hcache hcalm
  rw [← hlink] at hb hw
  rw [modLink, linkPump_idle (by rw [link_setLink_self]; exact hb) (by rw [link_setLink_self]; exact hw), link_setLink_self]
  split
  · exact ⟨portBecomes_congr hport rfl, by rw [link_setLink_self], hcalm⟩
  · rw [poolRelease_none (show (setLink _ n _).cache.pool = [] by rw [← hp, ← hcache]; rfl)]
    exact ⟨portBecomes_congr hport rfl, by rw [link_setLink_self], hcalm⟩

theorem Took.calm {s u : State} (h : Took s u) : calm u = calm s := by
  obtain ⟨l, rfl⟩ := h.only
  rfl

theorem Took.cache {s u : State} (h : Took s u) : u.cache = s.cache := by
  obtain ⟨l, rfl⟩ := h.only
  rfl

theorem Took.buffers {s u : State} (h : Took s u) (k : Nat) : (Machine.link u k).buf = (Machine.link s k).buf ∧
    (Machine.link u k).wait = (Machine.link s k).wait := by
  obtain ⟨_, _, hl⟩ := h.link k
  rw [hl]
  exact ⟨rfl, rfl⟩

/-- A good LINKCFG of the far end. -/
theorem linkcfg_good {n : PortId} {s : State} {cfg : LinkCfg} (h3 : (port s n.val).state = 3) (hrole : cfg.role = (if n.val < 6 then 0 else 2))
    (hproto : cfg.proto = 1) (hcr : creditsOk n.val cfg.credits = true) (hc : calm s = true) (hp : s.cache.pool = [])
    (hb : (link s n.val).buf = []) (hw : (link s n.val).wait = []) :
    completesWith (.linkcfg n cfg) s fun u =>
      portBecomes n.val { port s n.val with state := 4, upEvt := true, since := s.clk.time, gen := (port s n.val).gen + 1 } s u ∧
        (link u n.val).cred = cfg.credits := by
  have he : exec (.linkcfg n cfg) s = execLinkcfg n cfg s := rfl
  have ht := took_takeAny n.val 0xC0 s
  rw [execLinkcfg, if_neg (not_not.mpr h3)] at he
  dsimp only at he
  rw [if_pos ⟨by rw [hrole]; split <;> rfl, hproto, hcr⟩] at he
  generalize takeAny n.val 0xC0 s = t at he ht
  obtain ⟨⟨h1, h1'⟩, h2, hcalm⟩ := portUp_spec (c := cfg.credits) (by rw [ht.port]; exact h3) (ht.calm.trans hc) (by rw [ht.cache]; exact hp)
    ((ht.buffers n.val).1.trans hb) ((ht.buffers n.val).2.trans hw)
  rw [settle_calm hcalm] at he
  generalize portUp n.val cfg.credits t = u at he h1 h1' h2
  refine completesWith_answer he ⟨⟨?_, fun k hk => ?_⟩, ?_⟩
  · rw [port_answered, h1, ht.port, ht.clk]
  · rw [port_answered, h1' k hk, ht.port]
  · rw [link_answered, h2]

/-- A bad one (R295). -/
theorem linkcfg_bad {n : PortId} {s : State} {cfg : LinkCfg} (h3 : (port s n.val).state = 3)
    (hbad : cfg.role ≠ (if n.val < 6 then 0 else 2) ∨ cfg.proto ≠ 1 ∨ creditsOk n.val cfg.credits = false) :
    completesWith (.linkcfg n cfg) s fun u =>
      portBecomes n.val { port s n.val with state := 2, cfgErr := true, since := s.clk.time, gen := (port s n.val).gen + 1 } s u := by
  have he : exec (.linkcfg n cfg) s = execLinkcfg n cfg s := rfl
  have ht := took_takeAny n.val 0xC0 s
  have hno : ¬ (cfg.role.toNat = (if n.val < 6 then 0 else 2) ∧ cfg.proto = 1 ∧ creditsOk n.val cfg.credits = true) := by
    rintro ⟨hr, hp, hc⟩
    rcases hbad with h | h | h
    · refine h (BitVec.eq_of_toNat_eq (hr.trans ?_))
      split <;> rfl
    · exact h hp
    · rw [hc] at h
      exact absurd h (by decide)
  rw [execLinkcfg, if_neg (not_not.mpr h3)] at he
  dsimp only at he
  rw [if_neg hno] at he
  generalize takeAny n.val 0xC0 s = t at he ht
  obtain ⟨⟨g1, g1'⟩, -, -⟩ := setPort_spec t n.val { port t n.val with cfgErr := true }
  have hclk : (setPort t n.val { port t n.val with cfgErr := true }).clk = t.clk := rfl
  generalize setPort t n.val { port t n.val with cfgErr := true } = v at he g1 g1' hclk
  obtain ⟨⟨h1, h1'⟩, -, -⟩ := portTo_moves (s := v) (n := n.val) (st := 2)
    (by rw [g1, ht.port]; exact fun h => absurd (h3.symm.trans h) (by decide))
  generalize portTo n.val 2 v = u at he h1 h1'
  refine completesWith_answer he ⟨?_, fun k hk => ?_⟩
  · rw [port_answered, h1, g1, hclk, ht.port, ht.clk]
    rfl
  · rw [port_answered, h1' k hk, g1' k hk, ht.port]

/-! ## DOWN ends (R296) -/

theorem downQuietEnd_completes {n : PortId} {s : State} (h6 : (port s n.val).state = 6) (hdue : due s (port s n.val).since 100000 = true) :
    completesWith (.downQuietEnd n) s fun u =>
      portBecomes n.val { port s n.val with failed := 0, state := if (port s n.val).en && domOn s (portDom n.val) then 1 else 0,
                                            since := s.clk.time, gen := (port s n.val).gen + 1 } s u := by
  have he : exec (.downQuietEnd n) s = execDownQuietEnd n s := rfl
  rw [execDownQuietEnd, if_pos ⟨h6, hdue⟩] at he
  dsimp only at he
  obtain ⟨⟨g1, g1'⟩, -, -⟩ := setPort_spec s n.val { port s n.val with failed := 0 }
  have hclk : (setPort s n.val { port s n.val with failed := 0 }).clk = s.clk := rfl
  have hdom : domOn (setPort s n.val { port s n.val with failed := 0 }) (portDom n.val) = domOn s (portDom n.val) := rfl
  generalize setPort s n.val { port s n.val with failed := 0 } = v at he g1 g1' hclk hdom
  rw [hdom, g1] at he
  obtain ⟨k, hk, hkv⟩ : ∃ k : Nat, (if (port s n.val).en = true ∧ domOn s (portDom n.val) = true then 1 else 0) = k ∧
      BitVec.ofNat 3 k = (if ((port s n.val).en && domOn s (portDom n.val)) = true then 1 else 0) ∧ k < 2 := by
    refine ⟨_, rfl, ?_, ?_⟩
    · simp only [Bool.and_eq_true]
      split <;> rfl
    · split <;> decide
  rw [hk] at he
  obtain ⟨⟨h1, h1'⟩, -, -⟩ := portTo_moves (s := v) (n := n.val) (st := k) (by
    rw [g1]
    intro h
    have h : (6 : BitVec 3) = BitVec.ofNat 3 k := h6.symm.trans h
    have hk2 := hkv.2
    interval_cases k <;> exact absurd h (by decide))
  generalize portTo n.val k v = u at he h1 h1'
  refine completesWith_answer he ⟨?_, fun j hj => ?_⟩
  · rw [port_answered, h1, g1, hclk, hkv.1]
  · rw [port_answered, h1' j hj, g1' j hj]

/-! ## PING and PONG (R287, R298) -/

theorem Took.links {s u : State} (h : Took s u) : u = { s with links := u.links } := by
  obtain ⟨l, rfl⟩ := h.only
  rfl

theorem rx_takeFrame_head {n : Nat} {f : Frame} {rest : List Frame} {s : State} (hrx : (link s n).rx = f :: rest) :
    (link (takeFrame n f s) n).rx = rest := by
  unfold takeFrame freeCredit modLink
  rw [link_setLink_self, link_setLink_self]
  show (link s n).rx.erase f = rest
  rw [hrx, List.erase_cons_head]

/-- What the transmitter leaves of a link: all but its queues, its credits and its times. -/
def untransmitted (x : LinkSt) : LinkSt :=
  { x with tx := [], buf := [], wait := [], cred := Credits.zero, txResumed := false, lastFrame := 0, progress := 0 }

theorem untransmitted_bufAdmit (n : Nat) (x : LinkSt) : untransmitted (bufAdmit n x) = untransmitted x := by
  have hfold (l : List Frame) (y : LinkSt) :
      untransmitted (l.foldl (fun y f => if !(y.wait.any (sameClass f)) && bufRoom n y f then { y with buf := y.buf ++ [(f, 0)] }
        else { y with wait := y.wait ++ [f] }) y) = untransmitted y := by
    induction l generalizing y with
    | nil => rfl
    | cons f l ih =>
      rw [List.foldl_cons, ih]
      split <;> rfl
  exact hfold x.wait { x with wait := [] }

theorem untransmitted_flitsOut (k : Nat) (x : LinkSt) : untransmitted (flitsOut k x) = untransmitted x := by
  induction k generalizing x with
  | zero => rfl
  | succ k ih =>
    rw [flitsOut]
    split
    · rfl
    · rw [ih, flitOut]
      split <;> rfl

theorem untransmitted_linkPump (n : Nat) (s : State) : untransmitted (link (linkPump n s) n) = untransmitted (link s n) := by
  have hp : untransmitted (pumped n s) = untransmitted (link s n) := by
    unfold pumped
    split
    · rw [untransmitted_flitsOut, untransmitted_bufAdmit]
    · rw [untransmitted_bufAdmit]
  unfold linkPump
  dsimp only
  rw [show (if portActive s n = true then _ else _ : LinkSt) = pumped n s from rfl]
  split
  · rw [link_setLink_self, hp]
  · rw [link, cnt_links, ← link, link_foldl_invLeft, link_setLink_self]
    exact hp

theorem untransmitted_sendFrame (n : Nat) (f : Frame) (s : State) : untransmitted (link (sendFrame n f s) n) = untransmitted (link s n) := by
  unfold sendFrame
  split
  · dsimp only
    have h := untransmitted_linkPump n (modLink s n fun x => { x with wait := x.wait ++ [f] })
    rw [modLink, link_setLink_self] at h
    split
    · rw [link, cnt_links]
      exact h
    · exact h
  · rfl

theorem rx_sendFrame (n : Nat) (f : Frame) (s : State) : (link (sendFrame n f s) n).rx = (link s n).rx :=
  (congrArg LinkSt.rx (untransmitted_sendFrame n f s) :)

theorem pingAt_sendFrame (n : Nat) (f : Frame) (s : State) : (link (sendFrame n f s) n).pingAt = (link s n).pingAt :=
  (congrArg LinkSt.pingAt (untransmitted_sendFrame n f s) :)

theorem ping_completes {n : PortId} {s : State} {f : Frame} {rest : List Frame} (ha : portActive s n.val = true)
    (hrx : (link s n.val).rx = f :: rest) (hf : f.opc = 0xC1) :
    completesWith (.ping n) s fun u => sends n.val (Frame.mk0 0xC2 f.tag f.part f.sa 0) s u ∧ (link u n.val).rx = rest ∧
      changesOnly [.links, .cnt, .cache] s u := by
  have he : exec (.ping n) s = execPing n s := rfl
  have hfirst : rxFirst s n.val 0xC1 = some f := by
    rw [rxFirst, hrx, List.find?_cons_of_pos]
    rw [hf]
    rfl
  rw [execPing, if_pos ha, takeAny, hfirst, Option.getD_some] at he
  dsimp only at he
  have ht := took_takeFrame n.val f s
  have hr := rx_takeFrame_head hrx
  generalize takeFrame n.val f s = t at he ht hr
  have hlive : portLive t n.val = true := by
    rw [portLive, ht.port]
    exact (portActive_states ha).1
  have hs := ht.sends (sends_sendFrame (f := Frame.mk0 0xC2 f.tag f.part f.sa 0) hlive)
  have hh := (hands_sendFrame n.val (Frame.mk0 0xC2 f.tag f.part f.sa 0) t).frame
  have hx := (rx_sendFrame n.val (Frame.mk0 0xC2 f.tag f.part f.sa 0) t).trans hr
  generalize sendFrame n.val _ t = u at he hs hh hx
  refine completesWith_answer he ⟨sends_congr rfl rfl (link_answered ..) hs, (congrArg LinkSt.rx (link_answered ..)).trans hx, ?_⟩
  exact changesOnly_answered.mpr (changesOnly_trans (changesOnly_mono ht.frame (by decide)) (changesOnly_mono hh (by decide)))

theorem pong_completes {n : PortId} {s : State} (ha : portActive s n.val = true) :
    completesWith (.pong n) s fun u => (link u n.val).pingAt = none ∧ (link u n.val).tx = (link s n.val).tx ∧ changesOnly [.links] s u := by
  have he : exec (.pong n) s = execPong n s := rfl
  have ht := took_takeAny n.val 0xC2 s
  rw [execPong, if_pos ha] at he
  generalize takeAny n.val 0xC2 s = t at he ht
  refine completesWith_answer he ⟨?_, ?_, changesOnly_answered.mpr ?_⟩
  · rw [link_answered, modLink, link_setLink_self]
  · rw [link_answered, modLink, link_setLink_self]
    exact ht.tx n.val
  · exact changesOnly_trans ht.frame (by simp [modLink])

theorem pingSend_completes {n : PortId} {s : State} (ha : portActive s n.val = true) (hdue : due s (link s n.val).lastFrame 10000 = true)
    (hnone : (link s n.val).pingAt = none) :
    completesWith (.pingSend n) s fun u => sends n.val (Frame.mk0 0xC1 0 0 0 0) s u ∧ (link u n.val).pingAt = some s.clk.time ∧
      changesOnly [.links, .cnt, .cache] s u := by
  have he : exec (.pingSend n) s = execPingSend n s := rfl
  rw [execPingSend, if_pos ⟨ha, hdue⟩] at he
  have hs := sends_sendFrame (f := Frame.mk0 0xC1 0 0 0 0) (portActive_states ha).1
  have hh := (hands_sendFrame n.val (Frame.mk0 0xC1 0 0 0 0) s).frame
  have hp := (pingAt_sendFrame n.val (Frame.mk0 0xC1 0 0 0 0) s).trans hnone
  generalize sendFrame n.val _ s = u at he hs hh hp
  refine completesWith_answer he ⟨?_, ?_, changesOnly_answered.mpr ?_⟩
  · have hl : link (answered s (modLink u n.val fun x => { x with pingAt := some (x.pingAt.getD s.clk.time) })) n.val = _ :=
      (link_answered ..).trans (link_setLink_self ..)
    simpa only [sends, hl] using hs
  · rw [link_answered, modLink, link_setLink_self]
    show some ((link u n.val).pingAt.getD s.clk.time) = _
    rw [hp, Option.getD_none]
  · exact changesOnly_trans (changesOnly_mono hh (by decide)) (by simp [modLink])

/-! ## Ports that are declared DOWN (R298) -/

/-- A command that declares a port of a machine without work DOWN. -/
theorem completesWith_down {c : Instr} {n : Nat} {s : State} (he : exec c s = answer s (settle (portDown n s))) (hi : idleLinks s)
    (h6 : (port s n).state ≠ 6) : completesWith c s fun u => portIsDown n s u := by
  obtain ⟨h1, h2, -⟩ := portDown_idle hi h6
  rw [settle_calm h2.1] at he
  generalize portDown n s = u at he h1
  exact completesWith_answer he (portIsDown_answered.mpr h1)

/-- PINGs, PONGs and the limits that take a port DOWN. -/
theorem linkStates_pings (n : PortId) (s : State) :
    let active : Prop := portActive s n = true
    let calmLinks : Prop := calm s = true ∧ s.cache.pool = [] ∧ s.cache.offers = []
    (∀ t, active → (link s n).pingAt = some t → due s t 100000 = true → calmLinks →
      completesWith (.pingTimeout n) s fun u => portIsDown n s u) ∧
    ((port s n).state = 5 → due s (port s n).since 2000000 = true → calmLinks →
      completesWith (.recalTimeout n) s fun u => portIsDown n s u) ∧
    (domOn s (portDom n) = true → (port s n).state ≠ 0 → (port s n).state ≠ 6 → calmLinks →
      completesWith (.pptForceDown n) s fun u => portIsDown n s u) := by
  refine ⟨fun t ha ht hd hi => ?_, fun h5 hd hi => ?_, fun hd h0 h6 hi => ?_⟩
  · have he : exec (.pingTimeout n) s = execPingTimeout n s := rfl
    rw [execPingTimeout, ht] at he
    dsimp only at he
    rw [if_pos ⟨ha, hd⟩] at he
    exact completesWith_down he hi (portActive_states ha).2
  · have he : exec (.recalTimeout n) s = execRecalTimeout n s := rfl
    rw [execRecalTimeout, if_pos ⟨h5, hd⟩] at he
    exact completesWith_down he hi (by rw [h5]; decide)
  · have he : exec (.pptForceDown n) s = execPptForceDown n s := rfl
    rw [execPptForceDown, ifUp, if_pos (by rw [hd]; rfl), forceDown, if_neg (not_or.mpr ⟨h0, h6⟩)] at he
    exact completesWith_down he hi h6

/-! ## Recalibration (R297) -/

/-- A command that starts a port's recalibration. -/
theorem completesWith_recal {c : Instr} {n : Nat} {s : State} (he : exec c s = answer s (enterRecal n s)) (ha : portActive s n = true) :
    completesWith c s fun u => portMoves n 5 s u ∧ link u n = link s n ∧ changesOnly [.links, .cnt] s u := by
  have h1 := portMoves_enterRecal (portActive_iff.mp ha)
  have h3 := (enterRecal_frame n s).1
  have h2 : link (enterRecal n s) n = link s n := by
    obtain ⟨c, hc⟩ := enterRecal_active ha
    rw [hc]
    rfl
  generalize enterRecal n s = u at he h1 h2 h3
  exact completesWith_answer he ⟨portMoves_answered.mpr h1, (link_answered ..).trans h2, changesOnly_answered.mpr h3⟩

/-- The control flit that a port sends, its credits with it while none is withheld. -/
theorem sendCtrl_free {n ctype : Nat} {s : State} (hw : withholds s = false) (hn : (link s n).wait = []) :
    sendCtrl n ctype s = setLink s n { link s n with ctrl := (link s n).ctrl ++ [(BitVec.ofNat 8 ctype, (link s n).expect, (link s n).freed, 0)],
                                                     unacked := 0, freed := Credits.zero } := by
  have hk : noCredits s n = false := by
    rw [noCredits, hw, hn]
    rfl
  rw [sendCtrl]
  simp only [hk, Bool.false_eq_true, if_false]
  rfl

/-- What recalibration leaves of the times of invalidations and pool requests: nothing runs. -/
theorem recal_cache {s : State} {n : PortId} {skip : BitVec 64 → BitVec 64} (hc : calm s = true) (hp : s.cache.pool = []) :
    (s.onCache fun c =>
      if n.val < 6 then
        { c with invs := c.invs.map fun o => { o with sent := o.sent.map fun e => if e.1 = n.val then (e.1, skip e.2) else e } }
      else { c with pool := c.pool.map fun q => if q.port.map (·.val + 6) = some n.val then { q with since := skip q.since } else q }) = s := by
  have hi := (calm_iff.mp hc).2.2.1
  have hcache : (if n.val < 6 then
        { s.cache with invs := s.cache.invs.map fun o => { o with sent := o.sent.map fun e => if e.1 = n.val then (e.1, skip e.2) else e } }
      else { s.cache with pool := s.cache.pool.map fun q => if q.port.map (·.val + 6) = some n.val then { q with since := skip q.since } else q }) =
      s.cache := by
    rw [hi, hp, List.map_nil, List.map_nil]
    split
    · rw [← hi]
    · rw [← hp]
  exact congrArg (fun c => { s with cache := c }) hcache

/-- The end of a recalibration once its ACK is out. -/
def recalled (n m : Nat) (skip : BitVec 64 → BitVec 64) (v : State) : State :=
  let s := linkEvent 5 n m v
  let s := modLink s n fun x =>
    { x with replays := 0, progress := s.clk.time, lastBlock := s.clk.time, lastFrame := s.clk.time, pingAt := x.pingAt.map skip }
  let s := linkPump n s
  settle (if n < 6 then s else poolRelease s)

theorem recal_settles {n m : Nat} {v : State} (skip : BitVec 64 → BitVec 64) (hc : calm v = true) (hp : v.cache.pool = [])
    (hb : (link v n).buf = []) (hw : (link v n).wait = []) :
    (recalled n m skip v).links.port = v.links.port ∧
      link (recalled n m skip v) n = { link v n with replays := 0, progress := v.clk.time, lastBlock := v.clk.time, lastFrame := v.clk.time,
                                                     pingAt := (link v n).pingAt.map skip } := by
  obtain ⟨c, hcnt⟩ := linkEvent_only 5 n m v
  unfold recalled
  dsimp only
  rw [hcnt]
  have hl : link (v.onCnt fun _ => c) n = link v n := rfl
  have hcalm : calm (v.onCnt fun _ => c) = true := hc
  have hpool : (v.onCnt fun _ => c).cache.pool = [] := hp
  have hport : (v.onCnt fun _ => c).links.port = v.links.port := rfl
  have hclk : (v.onCnt fun _ => c).clk = v.clk := rfl
  generalize v.onCnt _ = y at hl hcalm hpool hport hclk
  rw [modLink, linkPump_idle (by rw [link_setLink_self, hl]; exact hb) (by rw [link_setLink_self, hl]; exact hw), link_setLink_self, hl, hclk]
  have hsame (z : LinkSt) : settle (if n < 6 then setLink (setLink y n z) n z else poolRelease (setLink (setLink y n z) n z)) =
      setLink (setLink y n z) n z := by
    rw [poolRelease_none (show (setLink (setLink y n z) n z).cache.pool = [] from hpool), ite_self]
    exact settle_calm (show calm (setLink (setLink y n z) n z) = true from hcalm)
  rw [hsame, link_setLink_self]
  exact ⟨hport, rfl⟩

theorem recalDone_completes {n : PortId} {s : State} (h5 : (port s n.val).state = 5) (hwh : withholds s = false)
    (hb : (link s n.val).buf = []) (hw : (link s n.val).wait = []) (hc : calm s = true) (hp : s.cache.pool = []) :
    completesWith (.recalDone n) s fun u => portMoves n.val 4 s u ∧ (link u n.val).tx = (link s n.val).tx ∧
      (link u n.val).ctrl = (link s n.val).ctrl ++ [(0, (link s n.val).expect, (link s n.val).freed, 0)] ∧ (link u n.val).unacked = 0 ∧
      (link u n.val).replays = 0 := by
  have he : exec (.recalDone n) s = execRecalDone n s := rfl
  rw [execRecalDone, if_pos h5] at he
  dsimp only at he
  rw [recal_cache hc hp] at he
  obtain ⟨h1, h2, hf⟩ := portTo_moves (s := s) (n := n.val) (st := 4) (by rw [h5]; decide)
  have hcache : (portTo n.val 4 s).cache = s.cache := hf .cache (by decide)
  have hcalm := (calm_congr hcache (hf .atu (by decide)) (hf .buf (by decide))).trans hc
  have hwh' : withholds (portTo n.val 4 s) = false := by
    rw [withholds, show (portTo n.val 4 s).pwr = s.pwr from hf .pwr (by decide)]
    exact hwh
  generalize portTo n.val 4 s = t at he h1 h2 hcache hcalm hwh'
  rw [sendCtrl_free hwh' (by rw [h2]; exact hw), h2] at he
  obtain ⟨h3, h4⟩ := recal_settles (n := n.val) (m := txFlits (link (setLink t n.val { link s n.val with
      ctrl := (link s n.val).ctrl ++ [(BitVec.ofNat 8 0, (link s n.val).expect, (link s n.val).freed, 0)], unacked := 0, freed := Credits.zero })
      n.val))
    (v := setLink t n.val { link s n.val with
      ctrl := (link s n.val).ctrl ++ [(BitVec.ofNat 8 0, (link s n.val).expect, (link s n.val).freed, 0)], unacked := 0, freed := Credits.zero })
    (skipRecal (port s n.val).since s.clk.time) hcalm (by rw [← hp, ← hcache]; rfl) (by rw [link_setLink_self]; exact hb)
    (by rw [link_setLink_self]; exact hw)
  rw [← recalled] at he
  generalize recalled n.val _ _ _ = u at he h3 h4
  rw [link_setLink_self] at h4
  refine completesWith_answer he ⟨portMoves_answered.mpr (portBecomes_congr h1 h3), ?_, ?_, ?_, ?_⟩
  · rw [link_answered, h4]
  · rw [link_answered, h4]
    rfl
  · rw [link_answered, h4]
  · rw [link_answered, h4]

/-- Settles O32: each transition by the update it makes of its port. -/
theorem linkStates : Obligations.LinkStates := by
  refine ⟨?_, ?_, ?_⟩
  · intro n s p st moves
    refine ⟨fun h1 => ?_, fun h2 => ⟨fun eq => trainDone_completes h2 eq, fun k eq hs h16 => trainDone_spares h2 k eq hs h16, fun hd => ?_⟩,
      fun h3 => ⟨fun hd => ?_, fun cfg hr hp hcr hc hpool hb hw => linkcfg_good h3 hr hp hcr hc hpool hb hw, fun cfg hbad => linkcfg_bad h3 hbad⟩,
      fun h6 hd => downQuietEnd_completes h6 hd⟩
    · have h1 : (port s n.val).state = 1 := h1
      have he : exec (.signalDetect n) s = execSignalDetect n s := rfl
      rw [execSignalDetect, if_pos h1] at he
      exact completesWith_portTo he (by rw [h1]; decide)
    · have h2 : (port s n.val).state = 2 := h2
      have he : exec (.trainTimeout n) s = execTrainTimeout n s := rfl
      rw [execTrainTimeout, if_pos ⟨h2, hd⟩] at he
      exact completesWith_portTo he (by rw [h2]; decide)
    · have h3 : (port s n.val).state = 3 := h3
      have he : exec (.configTimeout n) s = execConfigTimeout n s := rfl
      rw [execConfigTimeout, if_pos ⟨h3, hd⟩] at he
      exact completesWith_portTo he (by rw [h3]; decide)
  · intro n s active calmLinks
    exact ⟨fun f rest ha hrx hf => ping_completes ha hrx hf, fun ha => pong_completes ha, fun ha hd hn => pingSend_completes ha hd hn,
      linkStates_pings n s⟩
  · intro n s recals
    refine ⟨fun ha hd => ⟨?_, ?_⟩, fun ha hd => ?_, fun h5 hwh hb hw hc hp => recalDone_completes h5 hwh hb hw hc hp⟩
    · have he : exec (.recalReq n) s = execRecalReq n s := rfl
      rw [execRecalReq, ifUp, if_pos (by rw [hd]; rfl)] at he
      exact completesWith_recal he ha
    · have he : exec (.pptRecal n) s = execPptRecal n s := rfl
      rw [execPptRecal, ifUp, if_pos (by rw [hd]; rfl)] at he
      exact completesWith_recal he ha
    · have he : exec (.noValidBlockTimeout n) s = execNoValidBlockTimeout n s := rfl
      rw [execNoValidBlockTimeout, if_pos ⟨ha, hd⟩] at he
      exact completesWith_recal he ha

/-! ## Lane sparing (R299) -/

/-- A sparing that is carried out: the port takes the lane onto spare 16, and counts. -/
theorem spared_useSpare {n : Nat} {s : State} {lane : BitVec 5} {y : LinkSt} (hs : (port s n).spares ≠ 0) :
    link (useSpare n lane false (setLink s n y)) n = y ∧
      portBecomes n { port s n with spares := (port s n).spares - 1, sub16 := lane, gen := (port s n).gen + 1 } s
        (useSpare n lane false (setLink s n y)) ∧
      changesOnly [.links, .cnt] s (useSpare n lane false (setLink s n y)) := by
  obtain ⟨c, hc⟩ := useSpare_eq (s := setLink s n y) (n := n) lane false hs
  rw [hc]
  refine ⟨link_setLink_self s n y, ⟨port_setPort_self .., fun k hk => port_setPort_ne _ _ hk⟩, by simp⟩

theorem laneBits_eq (lane : BitVec 5) (second : Bool) : laneBits lane second = BitVec.ofNat 6 (lane.toNat + 32 * b2n second) := rfl

/-- Software's sparing request (R299). -/
theorem pptSpare_asks {n : PortId} {s : State} {lane : BitVec 5} (ha : portActive s n.val = true) (hd : domOn s (portDom n.val) = true)
    (hl : lane.toNat < 16) (hnone : (link s n.val).sparing = none) (hs : (port s n.val).spares ≠ 0) (hc : calm s = true) :
    completesWith (.pptSpare n lane) s fun u => ∃ b,
      link u n.val = { link s n.val with
        sparing := some { lane := lane, spare := (port s n.val).sub16 != 0x1F, since := s.clk.time, block := b },
        ctrl := (link s n.val).ctrl ++ [(2, b, Credits.zero, laneBits lane ((port s n.val).sub16 != 0x1F))] } ∧ changesOnly [.links, .freeCtr] s u := by
  have he : exec (.pptSpare n lane) s = execPptSpare n lane s := rfl
  have hgo : ¬ ((!portActive s n.val) = true ∨ 16 ≤ lane.toNat ∨ (link s n.val).sparing.isSome = true) := by
    rw [ha, hnone]
    simp
    omega
  have hsecond : (decide ((port s n.val).sub16 ≠ 0x1F)) = ((port s n.val).sub16 != 0x1F) := by
    rw [bne, decide_not, beq_eq_decide]
  rw [execPptSpare, ifUp, if_pos (by rw [hd]; rfl), requestSpare] at he
  dsimp only at he
  rw [if_neg hgo, if_neg hs, hsecond] at he
  generalize (freeVal s).1.setWidth 10 = b at he
  have hv : calm (freeVal s).2 = true := hc
  have hlink : link (freeVal s).2 n.val = link s n.val := rfl
  have hf : changesOnly [.freeCtr] s (freeVal s).2 := fun k hk => by cases k <;> first | rfl | simp at hk
  generalize (freeVal s).2 = v at he hv hlink hf
  rw [modLink, hlink, settle_calm (show calm (setLink v n.val _) = true from hv)] at he
  refine completesWith_answer he ⟨b, ?_, changesOnly_answered.mpr (changesOnly_trans (changesOnly_mono hf (by decide)) (by simp))⟩
  rw [link_answered, link_setLink_self]

section
variable {n : PortId} {s : State} {lane : BitVec 5} {block : BitVec 10} (ha : portActive s n.val = true) (hl : lane.toNat < 16)
  (h16 : (port s n.val).sub16 = 0x1F)
include ha hl h16

/-- SPARE_SWITCH for a lane onto free spare 16 depends on what the port has asked for itself. -/
theorem spareSwitch_runs :
    exec (.spareSwitch n lane false block) s = answer s (match (link s n.val).sparing with
      | some q => if q.lane = lane ∧ q.spare = false ∧ q.block = block then
          useSpare n.val lane false (modLink s n.val fun x => { x with sparing := none }) else s
      | none => useSpare n.val lane false (modLink s n.val fun x => { x with
          ctrl := x.ctrl ++ [(2, block, Credits.zero, laneBits lane false)] })) := by
  have he : exec (.spareSwitch n lane false block) s = execSpareSwitch n lane false block s := rfl
  have hgo : ¬ ((!portActive s n.val) = true ∨ 16 ≤ lane.toNat ∨
      (!(if false = true then (port s n.val).sub17 == 0x1F else (port s n.val).sub16 == 0x1F)) = true) := by
    rw [ha, h16]
    simp
    omega
  rw [he, execSpareSwitch]
  dsimp only
  refine (congrArg (answer s) (if_neg hgo)).trans ?_
  cases (link s n.val).sparing <;> rfl

theorem spareSwitch_asked (hs : (port s n.val).spares ≠ 0) (hnone : (link s n.val).sparing = none) :
    completesWith (.spareSwitch n lane false block) s fun u =>
      link u n.val = { link s n.val with ctrl := (link s n.val).ctrl ++ [(2, block, Credits.zero, laneBits lane false)] } ∧
      portBecomes n.val { port s n.val with spares := (port s n.val).spares - 1, sub16 := lane, gen := (port s n.val).gen + 1 } s u ∧
      changesOnly [.links, .cnt] s u := by
  have he := spareSwitch_runs (block := block) ha hl h16
  rw [hnone] at he
  dsimp only [modLink] at he
  obtain ⟨h1, h2, h3⟩ := spared_useSpare (lane := lane) (y := { link s n.val with
    ctrl := (link s n.val).ctrl ++ [(2, block, Credits.zero, laneBits lane false)] }) hs
  generalize useSpare n.val lane false _ = u at he h1 h2 h3
  exact completesWith_answer he ⟨(link_answered ..).trans h1, portBecomes_answered.mpr h2, changesOnly_answered.mpr h3⟩

theorem spareSwitch_answered (hs : (port s n.val).spares ≠ 0) {q : Sparing} (hq : (link s n.val).sparing = some q) (hql : q.lane = lane)
    (hqs : q.spare = false) (hqb : q.block = block) :
    completesWith (.spareSwitch n lane false block) s fun u =>
      link u n.val = { link s n.val with sparing := none } ∧
      portBecomes n.val { port s n.val with spares := (port s n.val).spares - 1, sub16 := lane, gen := (port s n.val).gen + 1 } s u ∧
      changesOnly [.links, .cnt] s u := by
  have he := spareSwitch_runs (block := block) ha hl h16
  rw [hq] at he
  dsimp only [modLink] at he
  rw [if_pos ⟨hql, hqs, hqb⟩] at he
  obtain ⟨h1, h2, h3⟩ := spared_useSpare (lane := lane) (y := { link s n.val with sparing := none }) hs
  generalize useSpare n.val lane false _ = u at he h1 h2 h3
  exact completesWith_answer he ⟨(link_answered ..).trans h1, portBecomes_answered.mpr h2, changesOnly_answered.mpr h3⟩

/-- Another answer than the one awaited is ignored. -/
theorem spareSwitch_ignored {q : Sparing} (hq : (link s n.val).sparing = some q) (hqb : q.block ≠ block) :
    completesWith (.spareSwitch n lane false block) s (changesOnly [] s) := by
  have he := spareSwitch_runs (block := block) ha hl h16
  rw [hq] at he
  dsimp only at he
  rw [if_neg fun h => hqb h.2.2] at he
  exact completesWith_answer he (changesOnly_answered.mpr (changesOnly_refl _ s))

end

/-- Settles O34: the request, the answers and the limit. -/
theorem laneSparing : Obligations.LaneSparing := by
  intro n s lane x p named spared
  refine ⟨fun ha hd hl hn hs hc => pptSpare_asks ha hd hl hn hs hc, fun block ha hl h16 hs => ⟨fun hn => ?_, fun q hq hql hqs => ⟨fun hb => ?_, fun hb => ?_⟩⟩,
    fun q hq hd => ?_⟩
  · exact spareSwitch_asked ha hl h16 hs hn
  · exact spareSwitch_answered ha hl h16 hs hq hql hqs hb
  · exact spareSwitch_ignored ha hl h16 hq hb
  · have hq : (link s n.val).sparing = some q := hq
    have he : exec (.spareMarginTimeout n) s = execSpareMarginTimeout n s := rfl
    rw [execSpareMarginTimeout, hq] at he
    dsimp only at he
    rw [if_pos hd] at he
    refine completesWith_answer he ⟨?_, ⟨?_, fun k hk => ?_⟩, changesOnly_answered.mpr (by simp [modLink])⟩
    · rw [link_answered, link_setPort, modLink, link_setLink_self]
    · rw [port_answered, port_setPort_self]
    · rw [port_answered, port_setPort_ne _ _ hk]
      rfl

end Sys2Proof.Machine
end

section
/-! PROOFS. Blocks, acknowledgements and replay (R280 to R287, R294, R297). -/

namespace Sys2Proof.Machine

open Sys2Proof.Safety

/-- Link n has become y; no other link is touched, and besides the links only counts are. -/
def linkBecomes (n : Nat) (y : LinkSt) (s u : State) : Prop :=
  link u n = y ∧ (∀ k, k ≠ n → link u k = link s k) ∧ changesOnly [.links, .cnt] s u

theorem linkBecomes_setLink (n : Nat) (y : LinkSt) (s : State) : linkBecomes n y s (setLink s n y) :=
  ⟨link_setLink_self .., fun _ hk => link_setLink_ne s y hk, by simp⟩

theorem linkBecomes_trans {n : Nat} {x y : LinkSt} {s u v : State} (h1 : linkBecomes n x s u) (h2 : linkBecomes n y u v) : linkBecomes n y s v :=
  ⟨h2.1, fun k hk => (h2.2.1 k hk).trans (h1.2.1 k hk), changesOnly_trans h1.2.2 h2.2.2⟩

theorem linkBecomes_event {n : Nat} {y : LinkSt} {s u : State} (h : linkBecomes n y s u) (e m k : Nat) :
    linkBecomes n y s (linkEvent e m k u) := by
  obtain ⟨c, hc⟩ := linkEvent_only e m k u
  rw [hc]
  exact ⟨h.1, h.2.1, changesOnly_trans h.2.2 (by simp)⟩

theorem completesWith_link {c : Instr} {n : Nat} {y : LinkSt} {s u : State} (he : exec c s = answer s u) (h : linkBecomes n y s u) :
    completesWith c s fun u => link u n = y ∧ (∀ k, k ≠ n → link u k = link s k) ∧ changesOnly [.links, .cnt] s u :=
  completesWith_answer he ⟨(link_answered ..).trans h.1, fun k hk => (link_answered ..).trans (h.2.1 k hk), changesOnly_answered.mpr h.2.2⟩

/-! ## ACK and NAK (R294) -/

/-- The credits of a link with those that an acknowledgement returns. -/
def credited (x : LinkSt) (c : Credits) : Credits :=
  { c0 := satAdd x.cred.c0 c.c0.toNat, c1 := satAdd x.cred.c1 c.c1.toNat, c2 := satAdd x.cred.c2 c.c2.toNat,
    c3 := satAdd x.cred.c3 c.c3.toNat, invsc := satAdd x.cred.invsc c.invsc.toNat }

/-- An acknowledgement of k sent flits, with nothing waiting to leave. -/
theorem takeAck_frees {n k : Nat} {c : Credits} {s : State} (hk : 0 < k) (hlt : k < 1024) (hle : k ≤ (link s n).tx.length)
    (hb : (link s n).buf = []) (hw : (link s n).wait = []) :
    linkBecomes n { link s n with cred := credited (link s n) c, tx := (link s n).tx.drop k, base := (link s n).base + BitVec.ofNat 10 k,
                                  replays := 0, progress := s.clk.time } s (takeAck n ((link s n).base + BitVec.ofNat 10 k) c s) := by
  have hdiff : ((link s n).base + BitVec.ofNat 10 k - (link s n).base).toNat = k := by
    rw [BitVec.add_comm, BitVec.add_sub_cancel, BitVec.toNat_ofNat, Nat.mod_eq_of_lt hlt]
  unfold takeAck
  dsimp only
  rw [hdiff, if_neg (by rw [txFlits]; omega)]
  rw [linkPump_idle (by rw [link_setLink_self]; exact hb) (by rw [link_setLink_self]; exact hw), link_setLink_self]
  exact linkBecomes_trans (linkBecomes_setLink ..) (linkBecomes_setLink ..)

/-- One that names the oldest flit frees nothing. -/
theorem takeAck_none {n : Nat} {c : Credits} {s : State} (hb : (link s n).buf = []) (hw : (link s n).wait = []) :
    linkBecomes n { link s n with cred := credited (link s n) c } s (takeAck n (link s n).base c s) ∧
      (takeAck n (link s n).base c s).clk = s.clk := by
  have hdiff : ((link s n).base - (link s n).base).toNat = 0 := by rw [BitVec.sub_self]; rfl
  unfold takeAck
  dsimp only
  rw [hdiff, if_pos (.inl rfl)]
  rw [linkPump_idle (by rw [link_setLink_self]; exact hb) (by rw [link_setLink_self]; exact hw), link_setLink_self]
  exact ⟨linkBecomes_trans (linkBecomes_setLink ..) (linkBecomes_setLink ..), rfl⟩

/-- A replay that is not the third counts (R294). -/
theorem replay_counts {n : Nat} {s : State} (ht : txFlits (link s n) ≠ 0) (hr : (link s n).replays < 2) :
    linkBecomes n { link s n with replays := (link s n).replays + 1, progress := s.clk.time } s (replay n s) := by
  unfold replay
  dsimp only
  rw [if_neg ht, if_neg (by omega)]
  exact linkBecomes_event (linkBecomes_setLink ..) ..

/-- The third replay without progress recalibrates. -/
theorem replay_recals {n : Nat} {s : State} (ht : txFlits (link s n) ≠ 0) (hr : 2 ≤ (link s n).replays) (ha : portActive s n = true) :
    portMoves n 5 s (replay n s) := by
  unfold replay
  dsimp only
  rw [if_neg ht, if_pos hr]
  obtain ⟨c, hc⟩ := linkEvent_only 5 n (txFlits (link s n)) (setLink s n { link s n with replays := (link s n).replays + 1, progress := s.clk.time })
  rw [hc]
  exact portMoves_enterRecal (portActive_iff.mp ha)

theorem ack_completes {n : PortId} {s : State} (ha : portActive s n.val = true) {c : Credits} {k : Nat} (hk : 0 < k) (hlt : k < 1024)
    (hle : k ≤ (link s n.val).tx.length) (hb : (link s n.val).buf = []) (hw : (link s n.val).wait = []) :
    ∃ u, exec (.ack n ((link s n.val).base + BitVec.ofNat 10 k) c) s = answer s u ∧
      linkBecomes n.val { link s n.val with
        cred := credited (link s n.val) c, tx := (link s n.val).tx.drop k,
        base := (link s n.val).base + BitVec.ofNat 10 k, replays := 0, progress := s.clk.time } s u := by
  have he : exec (.ack n ((link s n.val).base + BitVec.ofNat 10 k) c) s = execAck n ((link s n.val).base + BitVec.ofNat 10 k) c s := rfl
  rw [execAck, if_pos ha] at he
  exact ⟨_, he, takeAck_frees hk hlt hle hb hw⟩

theorem nak_completes {n : PortId} {s : State} (ha : portActive s n.val = true) {c : Credits} (hb : (link s n.val).buf = [])
    (hw : (link s n.val).wait = []) (ht : txFlits (link s n.val) ≠ 0) (hr : (link s n.val).replays < 2) :
    ∃ u, exec (.nak n (link s n.val).base c) s = answer s u ∧
      linkBecomes n.val { link s n.val with cred := credited (link s n.val) c, replays := (link s n.val).replays + 1, progress := s.clk.time }
        s u := by
  have he : exec (.nak n (link s n.val).base c) s = execNak n (link s n.val).base c s := rfl
  rw [execNak, if_pos ha] at he
  refine ⟨_, he, ?_⟩
  obtain ⟨h1, hclk⟩ := takeAck_none (c := c) hb hw
  have hl := h1.1
  generalize takeAck n.val (link s n.val).base c s = t at h1 hl hclk
  have h2 := replay_counts (n := n.val) (s := t) (by rw [hl]; exact ht) (by rw [hl]; exact hr)
  rw [hl, hclk] at h2
  exact linkBecomes_trans h1 h2

/-- Acknowledgements that are sent (R286, R294). -/
theorem sendCtrl_becomes {n ctype : Nat} {s : State} :
    linkBecomes n { link s n with
      ctrl := (link s n).ctrl ++ [(BitVec.ofNat 8 ctype, (link s n).expect, if noCredits s n then Credits.zero else (link s n).freed, 0)],
      unacked := 0, freed := if noCredits s n then (link s n).freed else Credits.zero } s (sendCtrl n ctype s) := by
  unfold sendCtrl modLink
  exact linkBecomes_setLink ..

theorem noCredits_iff {s : State} {n : Nat} : noCredits s n = true ↔ withholds s = true ∨ (link s n).wait ≠ [] := by
  simp [noCredits]

/-- Acknowledgements, replays and their limits. -/
theorem linkBlocks_acks (n : PortId) (s : State) :
    let x := link s n
    let sum (c d : BitVec 16) : BitVec 16 := satAdd c d.toNat
    let added (c : Credits) : Credits := { c0 := sum x.cred.c0 c.c0, c1 := sum x.cred.c1 c.c1, c2 := sum x.cred.c2 c.c2,
                                            c3 := sum x.cred.c3 c.c3, invsc := sum x.cred.invsc c.invsc }
    let keeps (y : LinkSt) (u : State) : Prop := link u n = y ∧ (∀ k, k ≠ n.val → link u k = link s k) ∧ changesOnly [.links, .cnt] s u
    portActive s n = true →
    (∀ (c : Credits) (k : Nat), 0 < k → k < 1024 → k ≤ x.tx.length → x.buf = [] → x.wait = [] →
      completesWith (.ack n (x.base + BitVec.ofNat 10 k) c) s
        (keeps { x with cred := added c, tx := x.tx.drop k, base := x.base + BitVec.ofNat 10 k, replays := 0, progress := s.clk.time })) ∧
    (∀ c : Credits, x.buf = [] → x.wait = [] → txFlits x ≠ 0 → x.replays < 2 →
      completesWith (.nak n x.base c) s (keeps { x with cred := added c, replays := x.replays + 1, progress := s.clk.time })) ∧
    (txFlits x ≠ 0 → x.replays < 2 → due s x.progress 10000 = true →
      completesWith (.replayTimeout n) s (keeps { x with replays := x.replays + 1, progress := s.clk.time })) ∧
    (txFlits x ≠ 0 → 2 ≤ x.replays → due s x.progress 10000 = true →
      completesWith (.replayTimeout n) s fun u => portMoves n 5 s u) ∧
    (x.unacked ≠ 0 ∨ x.freed ≠ Credits.zero →
      (withholds s = false → x.wait = [] → completesWith (.ackSendTimer n) s
        (keeps { x with ctrl := x.ctrl ++ [(0, x.expect, x.freed, 0)], unacked := 0, freed := Credits.zero })) ∧
      (withholds s = true ∨ x.wait ≠ [] → completesWith (.ackSendTimer n) s
        (keeps { x with ctrl := x.ctrl ++ [(0, x.expect, Credits.zero, 0)], unacked := 0 }))) := by
  intro x sum added keeps ha
  refine ⟨fun c k hk hlt hle hb hw => ?_, fun c hb hw ht hr => ?_, fun ht hr hd => ?_, fun ht hr hd => ?_, fun hany => ?_⟩
  · obtain ⟨u, he, hu⟩ := ack_completes ha (c := c) hk hlt hle hb hw
    exact completesWith_link he hu
  · obtain ⟨u, he, hu⟩ := nak_completes ha (c := c) hb hw ht hr
    exact completesWith_link he hu
  · have he : exec (.replayTimeout n) s = execReplayTimeout n s := rfl
    rw [execReplayTimeout, if_pos ⟨ha, ht, hd⟩] at he
    exact completesWith_link he (replay_counts ht hr)
  · have he : exec (.replayTimeout n) s = execReplayTimeout n s := rfl
    rw [execReplayTimeout, if_pos ⟨ha, ht, hd⟩] at he
    exact completesWith_answer he (portMoves_answered.mpr (replay_recals ht hr ha))
  · have he : exec (.ackSendTimer n) s = execAckSendTimer n s := rfl
    rw [execAckSendTimer, if_pos ⟨ha, hany⟩] at he
    have h := sendCtrl_becomes (n := n.val) (ctype := 0) (s := s)
    refine ⟨fun hwh hw => ?_, fun hno => ?_⟩
    · have hk : noCredits s n.val = false := by
        rw [← Bool.not_eq_true, noCredits_iff, not_or, hwh]
        exact ⟨Bool.false_ne_true, not_not.mpr hw⟩
      rw [hk] at h
      exact completesWith_link he h
    · rw [noCredits_iff.mpr hno] at h
      exact completesWith_link he h

/-! ## Blocks (R280, R294) -/

/-- The symbols that the FEC has corrected in the last millisecond, by lane. -/
def symbolsOf (s : State) (x : LinkSt) (corrected : List (Fin 16)) : List (BitVec 64 × Fin 16) :=
  (x.symErr.filter fun e => !due s e.1 1000000) ++ corrected.map fun l => (s.clk.time, l)

/-- What a block does besides: its symbols are counted. -/
theorem countSymbols_becomes (n : Nat) (corrected : List (Fin 16)) (s : State) :
    linkBecomes n { link s n with symErr := symbolsOf s (link s n) corrected } s (countSymbols n corrected s) := by
  unfold countSymbols
  exact linkBecomes_event (linkBecomes_setLink ..) ..

theorem countSymbols_kept (n : Nat) (corrected : List (Fin 16)) (s : State) :
    withholds (countSymbols n corrected s) = withholds s ∧ (countSymbols n corrected s).clk = s.clk ∧
      (countSymbols n corrected s).links.port = s.links.port := by
  unfold countSymbols
  obtain ⟨c, hc⟩ := linkEvent_only 2 n corrected.length (modLink s n fun x =>
    { x with symErr := (x.symErr.filter fun e => !due s e.1 1000000) ++ corrected.map fun l => (s.clk.time, l) })
  rw [hc]
  exact ⟨rfl, rfl, rfl⟩

/-- A NAK is sent. -/
theorem naks {n : Nat} {s : State} (hwh : withholds s = false) (hw : (link s n).wait = []) :
    linkBecomes n { link s n with nak := true, ctrl := (link s n).ctrl ++ [(1, (link s n).expect, (link s n).freed, 0)], unacked := 0,
                                  freed := Credits.zero } s (sendCtrl n 1 (setLink s n { link s n with nak := true })) := by
  have hl := link_setLink_self s n { link s n with nak := true }
  rw [sendCtrl_free (s := setLink s n { link s n with nak := true }) hwh (by rw [hl]; exact hw), hl]
  exact linkBecomes_trans (linkBecomes_setLink ..) (linkBecomes_setLink ..)

theorem blockIn_runs {n : PortId} {s : State} (h4 : (port s n.val).state = 4) (good : Bool) (corrected : List (Fin 16)) (bseq : BitVec 8)
    (flits : List Flit) :
    exec (.blockReceived n good corrected bseq flits) s = answer s (blockIn n.val good corrected bseq flits s) := by
  have he : exec (.blockReceived n good corrected bseq flits) s = execBlockReceived n good corrected bseq flits s := rfl
  rw [he, execBlockReceived, if_pos (.inr h4)]

/-- What a discarded block leaves (R280, R294). -/
theorem block_discarded {n : PortId} {s : State} {corrected : List (Fin 16)} {bseq : BitVec 8} {flits : List Flit} {good : Bool}
    (h4 : (port s n.val).state = 4) (hwh : withholds s = false) (hw : (link s n.val).wait = [])
    (hbad : good = false ∨ (good = true ∧ bseq ≠ (link s n.val).expect.setWidth 8 ∧ (link s n.val).nak = false)) :
    completesWith (.blockReceived n good corrected bseq flits) s fun u =>
      link u n.val = { link s n.val with
        nak := true, ctrl := (link s n.val).ctrl ++ [(1, (link s n.val).expect, (link s n.val).freed, 0)], unacked := 0,
        freed := Credits.zero, symErr := symbolsOf s (link s n.val) corrected } ∧ changesOnly [.links, .cnt] s u := by
  have he := blockIn_runs h4 good corrected bseq flits
  obtain ⟨k1, -, -⟩ := countSymbols_kept n.val corrected s
  have hsym := countSymbols_becomes n.val corrected s
  unfold blockIn at he
  dsimp only at he
  have hl := hsym.1
  generalize countSymbols n.val corrected s = t at he k1 hsym hl
  have hn := naks (n := n.val) (s := t) (k1.trans hwh) (by rw [hl]; exact hw)
  obtain rfl | ⟨rfl, hseq, hnak⟩ := hbad
  · rw [if_pos (by rfl)] at he
    have hu := linkBecomes_event (linkBecomes_event hn 4 n.val 1) 3 n.val 1
    rw [hl] at hu he
    generalize linkEvent 3 n.val 1 _ = u at he hu
    obtain ⟨h1, -, h3⟩ := linkBecomes_trans hsym hu
    exact completesWith_answer he ⟨(link_answered ..).trans h1, changesOnly_answered.mpr h3⟩
  · obtain ⟨c, hc⟩ := linkEvent_only 3 n.val 1 t
    rw [if_neg (by decide), if_pos (by rw [hl]; exact hseq), hc, if_neg (by rw [hl, hnak]; decide)] at he
    have hw' : linkBecomes n.val (link t n.val) t (t.onCnt fun _ => c) := ⟨rfl, fun _ _ => rfl, by simp⟩
    have hn := naks (n := n.val) (s := t.onCnt fun _ => c) (k1.trans hwh) (by rw [hw'.1, hl]; exact hw)
    rw [hw'.1] at hn
    have hu := linkBecomes_event hn 4 n.val 1
    rw [hl] at hu he
    generalize linkEvent 4 n.val 1 _ = u at he hu
    obtain ⟨h1, -, h3⟩ := linkBecomes_trans hsym (linkBecomes_trans hw' hu)
    exact completesWith_answer he ⟨(link_answered ..).trans h1, changesOnly_answered.mpr h3⟩

/-- Idle flits leave the link as it is. -/
theorem foldl_idle {n : Nat} {idle : List Flit} (hi : ∀ g ∈ idle, g.kind = 0) (b : Bool) (s : State) :
    idle.foldl (fun a f => if a.1 then takeFlit n f a.2 else a) (b, s) = (b, s) := by
  induction idle generalizing b s with
  | nil => rfl
  | cons f l ih =>
    have h0 := hi f (List.mem_cons_self ..)
    have hf : (if b = true then takeFlit n f s else (b, s)) = (b, s) := by
      cases b
      · rfl
      · rw [if_pos rfl, takeFlit, h0, if_neg (by decide), if_pos (by decide)]
    rw [List.foldl_cons]
    rw [hf]
    exact ih (fun g hg => hi g (List.mem_cons_of_mem _ hg)) b s

/-- The flit that begins and ends a frame of a known opcode delivers it (R282, R287). -/
theorem takeFlit_frame {n : Nat} {s : State} {f : Flit} (hk : f.kind = 1) (hs : f.sof = true) (hee : f.eof = true) (ho : (link s n).open_ = [])
    (hu : (link s n).unacked < 63) (hcr : rxHeld (link s n) f.cls f.invsc < creditOf (sliceCredits n) f.cls f.invsc)
    (hop : ∃ k, opcData n (parseFrame n f.cls f.invsc (toBytes 62 f.content.toNat)).opc.toNat
      (parseFrame n f.cls f.invsc (toBytes 62 f.content.toNat)).aux.toNat = some k ∧ k ≤ 46) :
    ∃ u, takeFlit n f s = (true, u) ∧ u.links.port = s.links.port ∧
      link u n = { link s n with
        expect := (link s n).expect + 1, unacked := (link s n).unacked + 1, nak := false, open_ := [], resumed := true,
        rx := (link s n).rx ++ [parseFrame n f.cls f.invsc (toBytes 62 f.content.toNat)] } := by
  obtain ⟨c, hc⟩ := linkEvent_only 1 n 1 (modLink s n fun x => { x with expect := x.expect + 1, unacked := x.unacked + 1, nak := false })
  have hl : link ((modLink s n fun x => { x with expect := x.expect + 1, unacked := x.unacked + 1, nak := false }).onCnt fun _ => c) n =
      { link s n with expect := (link s n).expect + 1, unacked := (link s n).unacked + 1, nak := false } := link_setLink_self ..
  have hp : ((modLink s n fun x => { x with expect := x.expect + 1, unacked := x.unacked + 1, nak := false }).onCnt fun _ => c).links.port =
      s.links.port := rfl
  unfold takeFlit
  rw [hk, if_neg (by decide), if_neg (by decide), hc]
  generalize State.onCnt _ _ = t at hl hp
  dsimp only
  have h64 : ¬ 64 ≤ (link t n).unacked := by
    rw [hl]
    exact Nat.not_le.mpr (Nat.succ_lt_succ hu)
  rw [if_neg h64, hl]
  have hheld : rxHeld { link s n with expect := (link s n).expect + 1, unacked := (link s n).unacked + 1, nak := false } f.cls f.invsc =
      rxHeld (link s n) f.cls f.invsc := rfl
  have hone : ¬ classMax f.cls < [f.content].length := Nat.not_lt.mpr (Nat.le_trans (Nat.le_succ 1) (two_le_classMax f.cls))
  rw [hheld, if_neg (Nat.not_le.mpr hcr), ho]
  simp only [hs, hee, Bool.not_true, Bool.false_eq_true, false_and, if_false, if_true, if_neg hone, List.isEmpty_nil]
  obtain ⟨k, hk1, hk2⟩ := hop
  refine ⟨_, rfl, ?_⟩
  unfold frameDone
  rw [show contentBytes [f.content] = toBytes 62 f.content.toNat from List.append_nil _]
  dsimp only
  rw [hk1]
  dsimp only
  rw [if_neg (by rw [List.length_singleton]; omega)]
  refine ⟨hp, ?_⟩
  rw [modLink, link_setLink_self, link_setLink_self]

/-- A good block in sequence with one frame flit, among idle ones, delivers its frame. -/
theorem block_delivers {n : PortId} {s : State} {corrected : List (Fin 16)} {bseq : BitVec 8} {f : Flit} {idle : List Flit}
    (h4 : (port s n.val).state = 4) (hseq : bseq = (link s n.val).expect.setWidth 8) (hk : f.kind = 1) (hs : f.sof = true) (hee : f.eof = true)
    (hi : ∀ g ∈ idle, g.kind = 0) (ho : (link s n.val).open_ = []) (hu : (link s n.val).unacked < 63)
    (hcr : rxHeld (link s n.val) f.cls f.invsc < creditOf (sliceCredits n.val) f.cls f.invsc)
    (hop : ∃ k, opcData n.val (parseFrame n.val f.cls f.invsc (toBytes 62 f.content.toNat)).opc.toNat
      (parseFrame n.val f.cls f.invsc (toBytes 62 f.content.toNat)).aux.toNat = some k ∧ k ≤ 46) :
    completesWith (.blockReceived n true corrected bseq (f :: idle)) s fun u =>
      (link u n.val).rx = (link s n.val).rx ++ [parseFrame n.val f.cls f.invsc (toBytes 62 f.content.toNat)] ∧
      (link u n.val).expect = (link s n.val).expect + 1 ∧ (link u n.val).unacked = (link s n.val).unacked + 1 ∧ (link u n.val).nak = false ∧
      (link u n.val).lastBlock = s.clk.time ∧ (link u n.val).open_ = [] ∧ port u n.val = port s n.val := by
  have he := blockIn_runs h4 true corrected bseq (f :: idle)
  obtain ⟨-, k2, k3⟩ := countSymbols_kept n.val corrected s
  have hl := (countSymbols_becomes n.val corrected s).1
  unfold blockIn at he
  dsimp only at he
  generalize countSymbols n.val corrected s = t at he k2 k3 hl
  rw [if_neg (by decide), if_neg (by rw [hl]; exact not_not.mpr hseq), List.foldl_cons, if_pos rfl, k2] at he
  have hy := link_setLink_self t n.val { link t n.val with lastBlock := s.clk.time }
  have hyp : (setLink t n.val { link t n.val with lastBlock := s.clk.time }).links.port = s.links.port := k3
  generalize setLink t n.val _ = y at he hy hyp
  rw [hl] at hy
  obtain ⟨u, hflit, hport, hlink⟩ := takeFlit_frame (n := n.val) (s := y) hk hs hee (by rw [hy]; exact ho) (by rw [hy]; exact hu)
    (by rw [hy]; exact hcr) hop
  rw [hflit, foldl_idle hi] at he
  rw [hy] at hlink
  refine completesWith_answer he ⟨?_, ?_, ?_, ?_, ?_, ?_, ?_⟩
  any_goals rw [link_answered, hlink]
  rw [port_answered, port, hport, hyp]
  rfl

/-- Settles O33: acknowledgements and replays, and what a block delivers. -/
theorem linkBlocks : Obligations.LinkBlocks := by
  refine ⟨linkBlocks_acks, ?_⟩
  intro n s corrected bseq x symbols h4 hwh hw
  refine ⟨fun flits => block_discarded h4 hwh hw (.inl rfl), fun flits hseq hnak => block_discarded h4 hwh hw (.inr ⟨rfl, hseq, hnak⟩),
    fun f idle hseq hk hs hee hi ho hu hcr => ?_⟩
  intro g hop
  exact block_delivers h4 hseq hk hs hee hi ho hu hcr hop

end Sys2Proof.Machine
end

section
/-! PROOFS. Replicas, drop notices, invalidations that wait, and sweeps (R144, R66, R200 to R203, R327). -/

namespace Sys2Proof.Machine

open Sys2Proof.Safety

/-! ## An invalidation that waits (R198 step 3) -/

theorem onlyInv_iff {o : InvOp} {s : State} : onlyInv o s ↔
    s.cache.invs = [o] ∧ s.cache.blocked = [] ∧ s.cache.mshr = [] ∧ (∀ q ∈ s.cache.pool, ¬ (q.kind = .fill ∧ q.port.isNone = true)) ∧
      addlsIdle s = true ∧ s.buf.frees = [] := by
  rw [onlyInv, calm_iff]
  constructor
  · rintro ⟨h1, h2, h3, -, h4, h5, h6⟩
    exact ⟨h1, h2, h3, h4, h5, h6⟩
  · rintro ⟨h1, h2, h3, h4, h5, h6⟩
    exact ⟨h1, h2, h3, rfl, h4, h5, h6⟩

theorem pumpPool_none {s : State} (h : ∀ q ∈ s.cache.pool, ¬ (q.kind = .fill ∧ q.port.isNone = true)) : pumpPool s = s := by
  have hnone : s.cache.pool.filter (fun q => q.kind = .fill ∧ q.port.isNone) = [] := by
    rw [List.filter_eq_nil_iff]
    intro q hq
    simpa using h q hq
  unfold pumpPool
  rw [hnone]
  rfl

theorem pumpMshrs_none {s : State} (h : s.cache.mshr = []) : pumpMshrs s = s := by rw [pumpMshrs, h]; rfl

theorem pumpBlocked_none {s : State} (h : s.cache.blocked = []) : pumpBlocked s = s := by rw [pumpBlocked, h]; rfl

/-- The end of the only invalidation, when it can end. -/
theorem finishInvs_one {s : State} {o : InvOp} (h : s.cache.invs = [o]) :
    finishInvs s = if o.ports = 0 ∧ (!o.replica) = true ∧ (!invWaits s o) = true then finishInv o (s.onCache fun c => { c with invs := [] }) else s := by
  have hfind : s.cache.invs.find? (fun x => x.tag == o.tag && x.key == o.key) = some o := by
    rw [h, List.find?_cons_of_pos]
    simp
  have hgone : (s.onCache fun c => { c with invs := c.invs.filter fun x => !(x.tag == o.tag && x.key == o.key) }) =
      s.onCache fun c => { c with invs := [] } := by
    simp only [State.onCache, h]
    congr 2
    simp
  unfold finishInvs
  rw [h, List.foldl_cons, List.foldl_nil, hfind]
  dsimp only
  rw [hgone]

/-- A machine whose only work is an invalidation without all its acknowledgements waits. -/
theorem settle_waiting {o : InvOp} {s : State} (h : onlyInv o s) (ho : o.ports ≠ 0 ∨ o.replica = true) :
    settleRound s = s ∧ settle s = s := by
  obtain ⟨hi, hb, hm, hp, ha, hf⟩ := onlyInv_iff.mp h
  have hround : settleRound s = s := by
    have hno : ¬ (o.ports = 0 ∧ (!o.replica) = true ∧ (!invWaits s o) = true) := by
      rintro ⟨h1, h2, -⟩
      rcases ho with h | h
      · exact h h1
      · rw [h] at h2
        exact absurd h2 (by decide)
    rw [settleRound, pumpPool_none hp, finishInvs_one hi, if_neg hno, pumpMshrs_none hm, pumpBlocked_none hb]
  refine ⟨hround, ?_⟩
  have hall : settleAll s = s := settleN_fixed hround _
  simp [settle, hall, ha, hf]

/-- A machine whose only work is an invalidation with all its acknowledgements ends it. -/
theorem settle_finishes {o : InvOp} {s u : State} (h : onlyInv o s) (hp0 : o.ports = 0) (hr : o.replica = false) (hw : invWaits s o = false)
    (hu : finishInv o (s.onCache fun c => { c with invs := [] }) = u) (hc : calm u = true) : settle s = u := by
  obtain ⟨hi, hb, hm, hp, ha, hf⟩ := onlyInv_iff.mp h
  obtain ⟨ub, um, ui, up, ua, uf⟩ := calm_iff.mp hc
  have hround : settleRound s = u := by
    rw [settleRound, pumpPool_none hp, finishInvs_one hi, if_pos ⟨hp0, by rw [hr]; rfl, by rw [hw]; rfl⟩, hu, pumpMshrs_none um,
      pumpBlocked_none ub]
  have hnot : quiet s = false := by simp [quiet, hi]
  have hall : settleAll s = u := by
    rw [settleAll, show ∀ n, 6 + 3 * n = (5 + 3 * n) + 1 from fun n => by omega, settleN, hnot, hround]
    refine settleN_quiet _ ?_
    simp only [calm, Bool.and_eq_true] at hc
    exact hc.1.1
  simp [settle, hall, ua, uf]

/-! ## Messages on the half link (R144) -/

/-- The half link towards half h after its first message. -/
def unlinked (h : Half) (rest : List HalfMsg) (s : State) : State :=
  s.onCache fun c => match h with
    | .e => { c with toE := rest }
    | .w => { c with toW := rest }

theorem takeHalf_first {h : Half} {kind : HalfMsg → Bool} {s : State} {x : HalfMsg} {rest : List HalfMsg} (h5 : domRuns s 5 = true)
    (h6 : domRuns s 6 = true) (hx : h.pick s.cache.toE s.cache.toW = x :: rest) (hk : kind x = true) :
    takeHalf h kind s = some (x, unlinked h rest s) := by
  rw [takeHalf, h5, h6, hx, firstOf, hk]
  rfl

theorem unlinked_popped (h : Half) (rest : List HalfMsg) (s : State) :
    h.pick (unlinked h rest s).cache.toE (unlinked h rest s).cache.toW = rest := by cases h <;> rfl

/-- What a message that is taken leaves: all but the half link. -/
theorem unlinked_kept (h : Half) (rest : List HalfMsg) (s : State) :
    (∀ k, metaAt (unlinked h rest s) k = metaAt s k) ∧ (unlinked h rest s).cache.data = s.cache.data ∧ calm (unlinked h rest s) = calm s ∧
      (unlinked h rest s).cache.invs = s.cache.invs ∧ (unlinked h rest s).cache.line = s.cache.line ∧
      changesOnly [.cache] s (unlinked h rest s) := by
  cases h <;> exact ⟨fun _ => rfl, rfl, rfl, rfl, rfl, by simp [unlinked]⟩

theorem drop_completes {h : Half} {s : State} {rest : List HalfMsg} {line : Sa} {key : Nat} (h5 : domRuns s 5 = true) (h6 : domRuns s 6 = true)
    (hx : h.pick s.cache.toE s.cache.toW = .drop line :: rest) (hc : calm s = true) (hf : findLine s h line false = some key) :
    completesWith (.replicaDropNotice h) s fun u => h.pick u.cache.toE u.cache.toW = rest ∧
      lineMarked key { metaAt s key with rheld := false } s u ∧ changesOnly [.cache] s u := by
  have he : exec (.replicaDropNotice h) s = execReplicaDropNotice h s := rfl
  rw [execReplicaDropNotice, takeHalf_first h5 h6 hx rfl] at he
  dsimp only at he
  obtain ⟨k1, k2, k3, k4, k5, k6⟩ := unlinked_kept h rest s
  have hpop := unlinked_popped h rest s
  generalize unlinked h rest s = t at he k1 k2 k3 k4 k5 k6 hpop
  have hfind : findLine t h line false = some key := by rw [findLine, k5]; exact hf
  have hbusy : invBusy t key = false := by rw [invBusy, k4, (calm_iff.mp hc).2.2.1]; rfl
  rw [hfind] at he
  dsimp only at he
  rw [hbusy, if_neg Bool.false_ne_true, k1] at he
  refine completesWith_answer he ⟨hpop, ⟨?_, fun k hk => ?_, sameBytes_answered.mpr (sameBytes_of_data k2)⟩, changesOnly_answered.mpr ?_⟩
  · rw [metaAt_answered, metaAt_setMeta, if_pos rfl]
  · rw [metaAt_answered, metaAt_setMeta, if_neg hk, k1]
  · exact changesOnly_trans k6 (by simp [setMeta])

theorem inv_completes {h : Half} {s : State} {rest : List HalfMsg} {line : Sa} {p : Part} {o : InvOp} (h5 : domRuns s 5 = true)
    (h6 : domRuns s 6 = true) (hx : h.pick s.cache.toE s.cache.toW = .inv line p :: rest) (hf : findLine s h line true = none)
    (ho : onlyInv o s) (hline : o.line = line) (hhome : o.home = h.other) (hports : o.ports ≠ 0) :
    completesWith (.replicaInvalidate h) s fun u => h.pick u.cache.toE u.cache.toW = rest ∧ u.cache.invs = [{ o with replica := false }] ∧
      sameBytes s u := by
  have he : exec (.replicaInvalidate h) s = execReplicaInvalidate h s := rfl
  rw [execReplicaInvalidate, takeHalf_first h5 h6 hx rfl] at he
  dsimp only at he
  obtain ⟨-, k2, -, k4, k5, -⟩ := unlinked_kept h rest s
  have hpop := unlinked_popped h rest s
  obtain ⟨hi, hrest⟩ := ho
  have hcalm : calm ((unlinked h rest s).onCache fun c => { c with invs := [] }) = true := by cases h <;> exact hrest
  generalize unlinked h rest s = t at he k2 k4 k5 hpop hcalm
  have hfind : findLine t h line true = none := by rw [findLine, k5]; exact hf
  rw [hfind] at he
  dsimp only at he
  have hne : ¬ o.home = h := by rw [hhome]; cases h <;> decide
  have hcancel : cancelInstall h line t = t := by
    have hmap : t.cache.invs.map (fun o => match o.act with
        | .install l _ _ _ _ _ => if o.home = h ∧ l = line then { o with act := .evict } else o
        | _ => o) = t.cache.invs := by
      rw [k4, hi, List.map_cons, List.map_nil]
      split
      · rw [if_neg fun hh => hne hh.1]
      · rfl
    exact congrArg (fun l => { t with cache := { t.cache with invs := l } }) hmap
  rw [hcancel] at he
  have hinv : (replicaAck h line t).cache.invs = [{ o with replica := false }] := by
    have hmap : t.cache.invs.map (fun x => if x.line = line ∧ x.home = h.other then { x with replica := false } else x) =
        [{ o with replica := false }] := by
      rw [k4, hi, List.map_cons, List.map_nil, if_pos ⟨hline, hhome⟩]
    exact hmap
  have hpop' : h.pick (replicaAck h line t).cache.toE (replicaAck h line t).cache.toW = rest := by
    rw [← hpop]
    cases h <;> rfl
  have hdata : (replicaAck h line t).cache.data = s.cache.data := k2
  have honly : onlyInv { o with replica := false } (replicaAck h line t) := ⟨hinv, hcalm⟩
  rw [(settle_waiting honly (.inl hports)).2] at he
  generalize replicaAck h line t = u at he hinv hpop' hdata
  exact completesWith_answer he ⟨hpop', hinv, sameBytes_answered.mpr (sameBytes_of_data hdata)⟩

/-! ## A replica that is stored (R66, R144) -/

theorem victim_mem {s t : State} {k0 key : Nat} (hv : victim s k0 = some (key, t)) : key ∈ (waysOf k0).filter fun k => !held s k := by
  unfold victim at hv
  dsimp only at hv
  generalize (waysOf k0).filter (fun k => !held s k) = ws at hv ⊢
  split at hv
  next k hk => cases hv; exact List.mem_of_find?_eq_some hk
  split at hv
  next k hk => cases hv; exact List.mem_of_find?_eq_some hk
  split at hv
  next k hk => cases hv; exact List.mem_of_find?_eq_some hk
  split at hv
  next k hk => cases hv; exact List.mem_of_find?_eq_some hk
  split at hv
  next k hk => cases hv; exact List.mem_of_find?_eq_some hk
  split at hv
  next => cases hv
  next k l => cases hv; exact List.mem_cons_self ..

/-- An empty way is the first choice. -/
theorem victim_empty {s t : State} {k0 key : Nat} (hv : victim s k0 = some (key, t)) (h0 : (metaAt s key).sv = 0) :
    ((waysOf k0).filter fun k => !held s k).find? (fun k => (metaAt s k).sv == 0) = some key := by
  have hmem := victim_mem hv
  unfold victim at hv
  dsimp only at hv
  split at hv
  next k hk =>
    cases hv
    exact hk
  next hnone =>
    rw [List.find?_eq_none] at hnone
    exact absurd (by rw [h0]; rfl) (hnone key hmem)

/-- The choice of an empty way does not look at the half link. -/
theorem victim_unlinked {h : Half} {rest : List HalfMsg} {s t : State} {k0 key : Nat} (hv : victim s k0 = some (key, t))
    (h0 : (metaAt s key).sv = 0) : victim (unlinked h rest s) k0 = some (key, unlinked h rest s) := by
  have hfind := victim_empty hv h0
  have hheld (k : Nat) : held (unlinked h rest s) k = held s k := by cases h <;> rfl
  have hmeta := (unlinked_kept h rest s).1
  generalize unlinked h rest s = u at hheld hmeta
  unfold victim
  simp only [hheld, hmeta, hfind]

/-- A replica stored in an empty way. -/
theorem replicaPut_spec (h : Half) (key : Nat) (line : Sa) (p : Part) (d : BitVec 1024) (crcV : Bool) (crc : BitVec 32) (sp : BitVec 4) (s : State) :
    lineData (replicaPut h key line p d crcV crc sp s) key = d ∧ sameBytesBut key s (replicaPut h key line p d crcV crc sp s) ∧
      metaAt (replicaPut h key line p d crcV crc sp s) key =
        { Meta.zero with tag := BitVec.ofNat 26 (farTag line), part := p, sv := 15, sp := sp, replica := true, lcrcV := crcV, lcrc := crc } ∧
      (replicaPut h key line p d crcV crc sp s).cache.toE = s.cache.toE ∧ (replicaPut h key line p d crcV crc sp s).cache.toW = s.cache.toW ∧
      calm (replicaPut h key line p d crcV crc sp s) = calm s := by
  unfold replicaPut
  dsimp only
  generalize ({ Meta.zero with
    tag := BitVec.ofNat 26 (farTag line), part := p, sv := 15, sp := sp, replica := true, lcrcV := crcV, lcrc := crc } : Meta) = m
  have hset : (setMeta (setData (clearEcc key s) key d) key m).cache.data = (setData s key d).cache.data := rfl
  have hm := metaAt_setMeta (setData (clearEcc key s) key d) key m key
  rw [if_pos rfl] at hm
  have he : (setMeta (setData (clearEcc key s) key d) key m).cache.toE = s.cache.toE ∧
    (setMeta (setData (clearEcc key s) key d) key m).cache.toW = s.cache.toW := ⟨rfl, rfl⟩
  have hc : calm (setMeta (setData (clearEcc key s) key d) key m) = calm s := rfl
  generalize setMeta (setData (clearEcc key s) key d) key m = t at hset hm he hc
  obtain ⟨_, _, _, hu⟩ := onlyCounts_trans (onlyCounts_cnt 0x008 (some h) (some p) 1 t) (onlyCounts_charge h none _)
  rw [chargeOwn, hu]
  refine ⟨?_, fun a ha => ?_, hm, he.1, he.2, hc⟩
  · exact lineData_stored (s := s) hset
  · exact (congrArg (fun x => memByte x a) hset).trans (memByte_setData_outside s key d ha)

theorem install_completes {h : Half} {s : State} {rest : List HalfMsg} {line : Sa} {p : Part} {d : BitVec 1024} {crcV : Bool}
    {crc : BitVec 32} {sp : BitVec 4} {i key : Nat} (h5 : domRuns s 5 = true) (h6 : domRuns s 6 = true)
    (hx : h.pick s.cache.toE s.cache.toW = .install line p d crcV crc sp (some i) :: rest) (hc : calm s = true)
    (hv : (gtLive s h i).valid = true) (hclean : rowClean s (setKey h (gtLive s h i).group.toNat (farSet line)) = true)
    (hfew : ((waysOf (setKey h (gtLive s h i).group.toNat (farSet line))).filter fun k => (metaAt s k).replica).length < 2)
    (hvic : victim s (setKey h (gtLive s h i).group.toNat (farSet line)) = some (key, s)) (h0 : (metaAt s key).sv = 0) :
    completesWith (.replicaInstall h) s fun u => h.pick u.cache.toE u.cache.toW = rest ∧ lineData u key = d ∧ sameBytesBut key s u ∧
      metaAt u key = { Meta.zero with tag := BitVec.ofNat 26 (farTag line), part := p, sv := 15, sp := sp, replica := true, lcrcV := crcV,
                                      lcrc := crc } := by
  have he : exec (.replicaInstall h) s = execReplicaInstall h s := rfl
  rw [execReplicaInstall, takeHalf_first h5 h6 hx rfl] at he
  dsimp only at he
  obtain ⟨k1, k2, k3, k4, -, -⟩ := unlinked_kept h rest s
  have hpop := unlinked_popped h rest s
  have hgt : gtLive (unlinked h rest s) h i = gtLive s h i := by cases h <;> rfl
  have hcl : rowClean (unlinked h rest s) (setKey h (gtLive s h i).group.toNat (farSet line)) = true := by cases h <;> exact hclean
  have hvi := victim_unlinked (h := h) (rest := rest) hvic h0
  generalize unlinked h rest s = t at he k1 k2 k3 k4 hpop hgt hcl hvi
  have hbusy : invBusy t key = false := by rw [invBusy, k4, (calm_iff.mp hc).2.2.1]; rfl
  have hcoming (k : Nat) : comingIn t k = 0 := by rw [comingIn, k4, (calm_iff.mp hc).2.2.1]; rfl
  have hin : install h line p d crcV crc sp (some i) t = replicaPut h key line p d crcV crc sp t := by
    unfold install
    dsimp only
    rw [hgt, hv, checkRow_clean 1 hcl rfl, wasReset_self, hcoming, hvi]
    simp only [k1, hbusy, h0, Bool.not_true, Bool.false_eq_true, if_false, if_true, Nat.add_zero, if_neg (Nat.not_le.mpr hfew)]
  rw [hin] at he
  obtain ⟨r1, r2, r3, r4, r5, r6⟩ := replicaPut_spec h key line p d crcV crc sp t
  generalize replicaPut h key line p d crcV crc sp t = u at he r1 r2 r3 r4 r5 r6
  rw [settle_calm (r6.trans (k3.trans hc))] at he
  refine completesWith_answer he ⟨?_, r1, fun a ha => (r2 a ha).trans (congrArg (fun x => memByte x a) k2), r3⟩
  rw [← hpop, ← r4, ← r5]
  rfl

/-! ## The clearing of a sharer (R202, R203) -/

/-- An entry without sharer k. -/
def unshared (k : Nat) (m : Meta) : Meta := { m with sharers := setBit m.sharers k false }

theorem getLsbD_setBit_ne {n : Nat} (v : BitVec n) {i k : Nat} (hi : i < n) (h : i ≠ k) : (setBit v k false).getLsbD i = v.getLsbD i := by
  simp only [setBit, Bool.false_eq_true, if_false, BitVec.getLsbD_and, BitVec.getLsbD_not, BitVec.getLsbD_shiftLeft, BitVec.getLsbD_ofNat, hi,
    decide_true, Bool.true_and]
  by_cases hlt : i < k
  · simp [hlt]
  · obtain ⟨m, hm⟩ := Nat.exists_eq_succ_of_ne_zero (show i - k ≠ 0 by omega)
    simp [hm, Nat.testBit_succ]

theorem setBit_false_of_clear {n : Nat} {v : BitVec n} {k : Nat} (h : v.getLsbD k = false) : setBit v k false = v := by
  refine BitVec.eq_of_getLsbD_eq fun i hi => ?_
  by_cases hk : i = k
  · rw [hk, h, getLsbD_setBit_false]
  · rw [getLsbD_setBit_ne v hi hk]

theorem unshared_of_clear {k : Nat} {m : Meta} (h : m.sharers.getLsbD k = false) : unshared k m = m := by
  rw [unshared, setBit_false_of_clear h]

/-- One pass over a table's entries clears the sharer in each. -/
theorem foldl_unshare (k : Nat) {s : State} (l : List (Nat × Meta)) (hl : ∀ e ∈ l, e.2 = metaAt s e.1) (t : State)
    (ht : ∀ key, metaAt t key = metaAt s key ∨ metaAt t key = unshared k (metaAt s key)) :
    let u := l.foldl (fun t e => if e.2.sharers.getLsbD k then setMeta t e.1 (unshared k e.2) else t) t
    (∀ key, metaAt u key = if key ∈ l.map (·.1) then unshared k (metaAt s key) else metaAt t key) ∧ changesOnly [.cache] t u ∧
      u.cache.data = t.cache.data := by
  induction l generalizing t with
  | nil => exact ⟨fun key => by simp, changesOnly_refl _ t, rfl⟩
  | cons e l ih =>
    have he := hl e (List.mem_cons_self ..)
    by_cases hb : e.2.sharers.getLsbD k = true
    · have hstep (key : Nat) : metaAt (setMeta t e.1 (unshared k e.2)) key = if key = e.1 then unshared k (metaAt s key) else metaAt t key := by
        rw [metaAt_setMeta]
        split
        next h => rw [h, he]
        next => rfl
      obtain ⟨h1, h2, h3⟩ := ih (fun x hx => hl x (List.mem_cons_of_mem _ hx)) (setMeta t e.1 (unshared k e.2)) fun key => by
        rw [hstep]
        split
        · exact .inr rfl
        · exact ht key
      simp only [List.foldl_cons, if_pos hb]
      refine ⟨fun key => ?_, changesOnly_trans (by simp [setMeta]) h2, h3⟩
      rw [h1, hstep]
      by_cases hm : key ∈ l.map (·.1)
      · rw [if_pos hm, if_pos (by rw [List.map_cons]; exact List.mem_cons_of_mem _ hm)]
      · by_cases hk : key = e.1
        · rw [if_neg hm, if_pos hk, if_pos (by rw [List.map_cons, hk]; exact List.mem_cons_self ..)]
        · rw [if_neg hm, if_neg hk, if_neg (by rw [List.map_cons, List.mem_cons, not_or]; exact ⟨hk, hm⟩)]
    · obtain ⟨h1, h2, h3⟩ := ih (fun x hx => hl x (List.mem_cons_of_mem _ hx)) t ht
      simp only [List.foldl_cons, if_neg hb]
      refine ⟨fun key => ?_, h2, h3⟩
      rw [h1]
      by_cases hm : key ∈ l.map (·.1)
      · rw [if_pos hm, if_pos (by rw [List.map_cons]; exact List.mem_cons_of_mem _ hm)]
      · by_cases hk : key = e.1
        · have hclear : unshared k (metaAt s key) = metaAt s key := by
            refine unshared_of_clear ?_
            rw [hk, ← he]
            simpa using hb
          rw [if_neg hm, if_pos (by rw [List.map_cons, hk]; exact List.mem_cons_self ..), hclear]
          rcases ht key with h | h
          · exact h
          · rw [h, hclear]
        · rw [if_neg hm, if_neg (by rw [List.map_cons, List.mem_cons, not_or]; exact ⟨hk, hm⟩)]

/-- An index without an entry has no sharer. -/
theorem sharers_of_no_entry {s : State} {key : Nat} (h : key ∉ s.cache.line.map (·.1)) : (metaAt s key).sharers = 0 := by
  have hget : ∀ (t : Tab Meta) (d : Meta), key ∉ t.map (·.1) → tget d t key = d := by
    intro t d
    induction t with
    | nil => exact fun _ => rfl
    | cons e t ih =>
      intro hn
      rw [List.map_cons, List.mem_cons, not_or] at hn
      rw [tget, if_neg (Ne.symm hn.1), ih hn.2]
  rw [metaAt, hget _ _ h, metaDefault]
  split <;> rfl

theorem sharerClear_completes {k : Fin 24} {s : State} (hb : s.cch.clrBusy.getLsbD k.val = true) (hl : ∀ e ∈ s.cache.line, e.2 = metaAt s e.1) :
    completesWith (.sharerClearDone k) s fun u => u.cch.clrBusy.getLsbD k.val = false ∧
      (∀ key, (metaAt u key).sharers = setBit (metaAt s key).sharers k.val false) ∧ sameBytes s u ∧ changesOnly [.cache, .cch] s u := by
  have he : exec (.sharerClearDone k) s = execSharerClearDone k s := rfl
  rw [execSharerClearDone, if_pos hb, clearSharer] at he
  dsimp only at he
  obtain ⟨h1, h2, h3⟩ := foldl_unshare k.val s.cache.line hl s fun key => .inl rfl
  have he : exec (.sharerClearDone k) s = answer s ((s.cache.line.foldl
    (fun t e => if e.2.sharers.getLsbD k.val then setMeta t e.1 (unshared k.val e.2) else t) s).onCch fun c =>
      { c with clrBusy := setBit c.clrBusy k.val false }) := he
  generalize s.cache.line.foldl _ s = t at he h1 h2 h3
  refine completesWith_answer he ⟨getLsbD_setBit_false _ _, fun key => ?_, sameBytes_answered.mpr (sameBytes_of_data h3),
    changesOnly_answered.mpr (changesOnly_trans (changesOnly_mono h2 (by decide)) (by simp))⟩
  have hm : metaAt (answered s (t.onCch fun c => { c with clrBusy := setBit c.clrBusy k.val false })) key = metaAt t key := rfl
  rw [hm, h1]
  split
  · rfl
  next hn =>
    have h0 := sharers_of_no_entry hn
    exact (setBit_false_of_clear (by rw [h0, show (0 : BitVec 24) = 0#24 from rfl, BitVec.getLsbD_zero])).symm

/-! ## The sweep after a metadata loss (R327) -/

theorem sweep_completes {h : Half} {s : State} (hst : h.pick s.cache.stopE s.cache.stopW = true) (hc : calm s = true) (hr : replicasIn s h = []) :
    completesWith (.replicaSweepDone h) s fun u => h.pick u.cache.stopE u.cache.stopW = false ∧ sameBytes s u ∧ changesOnly [.cache] s u := by
  have he : exec (.replicaSweepDone h) s = execReplicaSweepDone h s := rfl
  rw [execReplicaSweepDone, if_pos hst] at he
  dsimp only at he
  rw [hr, List.foldl_nil, settle_calm hc, hr, if_pos (by rfl)] at he
  exact completesWith_answer he ⟨by cases h <;> rfl, sameBytes_answered.mpr (sameBytes_of_data (by cases h <;> rfl)),
    changesOnly_answered.mpr (by simp)⟩

/-! ## The limit of an invalidation (R201) -/

/-- The only invalidation of a machine once port n has gone. -/
def invWithout (n : Nat) (o : InvOp) : InvOp :=
  { (match o.act with
    | .perform r => { o with act := .perform (r.lose n) }
    | _ => o) with ports := setBit o.ports n false }

theorem invWithout_kept (n : Nat) (o : InvOp) : (invWithout n o).ports = setBit o.ports n false ∧ (invWithout n o).tag = o.tag ∧
    (invWithout n o).key = o.key ∧ (invWithout n o).line = o.line := by
  unfold invWithout
  split <;> exact ⟨rfl, rfl, rfl, rfl⟩

/-- A port that goes DOWN in a machine whose only work is an invalidation: the invalidation does not wait for it any more. -/
theorem portDown_inv {n : Nat} {s : State} {o : InvOp} (ho : onlyInv o s) (h6 : (port s n).state ≠ 6) (hn : n < 6) :
    (port (portDown n s) n).state = 6 ∧ (port (portDown n s) n).downEvt = true ∧ (portDown n s).cch = { s.cch with clrBusy := setBit s.cch.clrBusy n true } ∧
      (portDown n s).cache.data = s.cache.data ∧ onlyInv (invWithout n o) (portDown n s) := by
  have hlost : portDown n s = startClear n (ackPort n (loseAnswers n (portLost n s))) := by
    unfold portDown
    dsimp only
    rw [putPort_eq _ _ _ (.inl h6), if_pos hn]
    rfl
  have hframe : changesOnly [.links, .cnt] s (portLost n s) := by simp [portLost]
  obtain ⟨hport, -, -⟩ := portLost_spec n s
  have hcache : (portLost n s).cache = s.cache := hframe .cache (by decide)
  have hbuf : (portLost n s).buf = s.buf := hframe .buf (by decide)
  have hatu : (portLost n s).atu = s.atu := hframe .atu (by decide)
  have hcch : (portLost n s).cch = s.cch := hframe .cch (by decide)
  rw [hlost]
  generalize portLost n s = t at hport hcache hbuf hatu hcch
  obtain ⟨hi, hb, hm, hp, ha, hf⟩ := onlyInv_iff.mp ho
  refine ⟨congrArg Port.state hport, congrArg Port.downEvt hport, ?_, ?_, onlyInv_iff.mpr ⟨?_, ?_, ?_, ?_, ?_, ?_⟩⟩
  · exact congrArg (fun c : Cch => { c with clrBusy := setBit c.clrBusy n true }) hcch
  · rw [← hcache]
    rfl
  · have hmap : (startClear n (ackPort n (loseAnswers n t))).cache.invs = (t.cache.invs.map fun o => match o.act with
        | .perform r => { o with act := .perform (r.lose n) }
        | _ => o).map fun o => { o with ports := setBit o.ports n false } := rfl
    rw [hmap, hcache, hi, List.map_cons, List.map_nil, List.map_cons, List.map_nil, invWithout]
    split <;> rfl
  · simp [startClear, ackPort, loseAnswers, hcache, hb]
  · simp [startClear, ackPort, loseAnswers, hcache, hm]
  · have hmap : (startClear n (ackPort n (loseAnswers n t))).cache.pool = t.cache.pool.map fun q => match q.who with
        | .uncached r => { q with who := .uncached (r.lose n) }
        | _ => q := rfl
    rw [hmap, hcache]
    intro q hq
    obtain ⟨x, hx, rfl⟩ := List.mem_map.mp hq
    have hxp := hp x hx
    split <;> exact hxp
  · rw [addlsIdle] at ha ⊢
    simp only [Bool.and_eq_true, List.isEmpty_iff] at ha
    obtain ⟨⟨⟨a1, a2⟩, a3⟩, a4⟩ := ha
    simp [startClear, ackPort, loseAnswers, AtuHalf.lose, hatu, a1, a2, a3, a4]
  · simp [startClear, ackPort, loseAnswers, hbuf, hf]

theorem invTimeout_completes {n : PartnerPort} {s : State} {o : InvOp} {t : BitVec 64} (ha : portActive s n.val = true) (ho : onlyInv o s)
    (hport : o.ports.getLsbD n.val = true) (hsent : (n.val, t) ∈ o.sent) (hdue : due s t (1000 * max 10 s.cch.invTmo.toNat) = true)
    (hother : ∃ k, k < 6 ∧ k ≠ n.val ∧ o.ports.getLsbD k = true) :
    completesWith (.invTimeout n) s fun u =>
      (port u n.val).state = 6 ∧ (port u n.val).downEvt = true ∧ u.cch.dirErr.getLsbD n.val = true ∧
      u.cch.clrBusy.getLsbD n.val = true ∧ sameBytes s u ∧
      ∃ o2, u.cache.invs = [o2] ∧ o2.ports = setBit o.ports n.val false ∧ o2.tag = o.tag ∧ o2.key = o.key ∧ o2.line = o.line := by
  have he : exec (.invTimeout n) s = execInvTimeout n s := rfl
  have hany : s.cache.invs.any (fun o => o.ports.getLsbD n.val && o.sent.any fun e => e.1 == n.val && due s e.2 (1000 * invTmo s)) = true := by
    rw [ho.1, List.any_cons, Bool.or_eq_true, hport, Bool.true_and, List.any_eq_true]
    exact .inl ⟨_, hsent, by rw [invTmo]; simpa using hdue⟩
  rw [execInvTimeout, if_pos ⟨ha, hany⟩] at he
  have hv : onlyInv o (s.onCch fun c => { c with dirErr := setBit c.dirErr n.val true }) := ho
  have hvp : port (s.onCch fun c => { c with dirErr := setBit c.dirErr n.val true }) n.val = port s n.val := rfl
  have hvc : (s.onCch fun c => { c with dirErr := setBit c.dirErr n.val true }).cch = { s.cch with dirErr := setBit s.cch.dirErr n.val true } := rfl
  have hvd : (s.onCch fun c => { c with dirErr := setBit c.dirErr n.val true }).cache.data = s.cache.data := rfl
  generalize s.onCch _ = v at he hv hvp hvc hvd
  obtain ⟨h1, h2, h3, h4, h5⟩ := portDown_inv hv (by rw [hvp, portActive_iff.mp ha]; decide) n.isLt
  obtain ⟨k1, k2, k3, k4⟩ := invWithout_kept n.val o
  have hwaits : (invWithout n.val o).ports ≠ 0 := by
    obtain ⟨k, hk, hne, hb⟩ := hother
    intro h0
    have := congrArg (fun b : BitVec 6 => b.getLsbD k) (k1.symm.trans h0)
    simp only [getLsbD_setBit_ne o.ports hk hne, hb] at this
    exact absurd this (by simp)
  rw [(settle_waiting h5 (.inl hwaits)).2] at he
  generalize portDown n.val v = u at he h1 h2 h3 h4 h5
  refine completesWith_answer he ⟨h1, h2, ?_, ?_, sameBytes_answered.mpr (sameBytes_of_data (h4.trans hvd)), _, h5.1, k1, k2, k3, k4⟩
  · show u.cch.dirErr.getLsbD n.val = true
    rw [h3, hvc]
    exact (getLsbD_setBit_true _ _ n.isLt).trans (by simp)
  · show u.cch.clrBusy.getLsbD n.val = true
    rw [h3]
    exact (getLsbD_setBit_true _ _ (Nat.lt_trans n.isLt (by decide))).trans (by simp)

/-- Settles O31: messages on the half link, limits and sweeps. -/
theorem sharersKept : Obligations.SharersKept := by
  refine ⟨?_, ?_⟩
  · intro h s rest h5 h6 first popped
    refine ⟨?_, fun line key hx hc hf => drop_completes h5 h6 hx hc hf,
      fun line p o hx hf ho hline hhome hports => inv_completes h5 h6 hx hf ho hline hhome hports⟩
    intro line p d crcV crc sp i key e k0 hx hc hv hclean hfew hvic h0
    exact install_completes h5 h6 hx hc hv hclean hfew hvic h0
  · exact fun s => ⟨fun port o t ha ho hp hs hd hk => invTimeout_completes ha ho hp hs hd hk, fun k hb hl => sharerClear_completes hb hl,
      fun h hst hc hr => sweep_completes hst hc hr⟩

end Sys2Proof.Machine
end

section
/-! PROOFS. Writes invalidate the sharers first (R198). -/

namespace Sys2Proof.Machine

open Sys2Proof.Safety

/-! ## INVs that are sent (R198 steps 1 to 3) -/

/-- Only links, counts and the times at which INVs have left differ. -/
structure InvSent (s u : State) : Prop where
  frame : changesOnly [.links, .cache, .cnt] s u
  cache : ∃ g : InvOp → InvOp, (∀ o, ∃ l, g o = { o with sent := l }) ∧ u.cache = { s.cache with invs := s.cache.invs.map g }
  ports : u.links.port = s.links.port

theorem invSent_of_cache {s u : State} (hf : changesOnly [.links, .cache, .cnt] s u) (hc : u.cache = s.cache) (hp : u.links.port = s.links.port) :
    InvSent s u := ⟨hf, ⟨id, fun o => ⟨o.sent, rfl⟩, by rw [List.map_id, hc]⟩, hp⟩

theorem InvSent.refl (s : State) : InvSent s s := invSent_of_cache (changesOnly_refl _ s) rfl rfl

theorem InvSent.trans {s u v : State} (h1 : InvSent s u) (h2 : InvSent u v) : InvSent s v := by
  refine ⟨changesOnly_trans h1.frame h2.frame, ?_, h2.ports.trans h1.ports⟩
  obtain ⟨g, hg, hgc⟩ := h1.cache
  obtain ⟨k, hk, hkc⟩ := h2.cache
  refine ⟨k ∘ g, fun o => ?_, by rw [hkc, hgc, ← List.map_map]⟩
  obtain ⟨l1, h1⟩ := hg o
  obtain ⟨l2, h2⟩ := hk (g o)
  exact ⟨l2, by rw [Function.comp, h2, h1]⟩

theorem invSent_foldl {α : Type} {f : State → α → State} (hf : ∀ t a, InvSent t (f t a)) (l : List α) (s : State) : InvSent s (l.foldl f s) := by
  induction l generalizing s with
  | nil => exact InvSent.refl s
  | cons a l ih => exact (hf s a).trans (ih _)

theorem invSent_setLink (n : Nat) (x : LinkSt) (s : State) : InvSent s (setLink s n x) := invSent_of_cache (by simp) rfl rfl

theorem invSent_cnt (ev k : Nat) (h : Option Half) (p : Option Part) (s : State) : InvSent s (cnt ev h p k s) :=
  invSent_of_cache (by simp) (by simp) (by simp)

theorem invSent_invLeft (n : Nat) (f : Frame) (s : State) : InvSent s (invLeft n f s) := by
  unfold invLeft
  split
  · refine ⟨by simp, ⟨_, fun o => ?_, rfl⟩, rfl⟩
    split
    · exact ⟨_, rfl⟩
    · exact ⟨o.sent, rfl⟩
  · exact InvSent.refl s

theorem invSent_linkPump (n : Nat) (s : State) : InvSent s (linkPump n s) := by
  unfold linkPump
  dsimp only
  rw [show (if portActive s n = true then _ else _ : LinkSt) = pumped n s from rfl]
  generalize pumped n s = z
  split
  · exact invSent_setLink ..
  · exact ((invSent_setLink ..).trans (invSent_foldl (fun t (e : Frame × Nat) => invSent_invLeft n e.1 t) _ _)).trans (invSent_cnt ..)

theorem invSent_sendFrame (n : Nat) (f : Frame) (s : State) : InvSent s (sendFrame n f s) := by
  unfold sendFrame
  split
  · have hp := (invSent_setLink n _ s).trans (invSent_linkPump n (modLink s n fun x => { x with wait := x.wait ++ [f] }))
    dsimp only
    split
    · exact hp.trans (invSent_cnt ..)
    · exact hp
  · exact InvSent.refl s

theorem invSent_sendInvs (ports : BitVec 6) (line : Sa) (tag : BitVec 12) (p : Part) (s : State) : InvSent s (sendInvs ports line tag p s) := by
  unfold sendInvs
  refine invSent_foldl (fun t n => ?_) _ _
  split
  · exact (invSent_sendFrame ..).trans (invSent_cnt ..)
  · exact InvSent.refl t

theorem InvSent.metas {s u : State} (h : InvSent s u) (k : Nat) : metaAt u k = metaAt s k := by
  obtain ⟨g, -, hc⟩ := h.cache
  rw [metaAt, metaAt, metaDefault, metaDefault, region, region, hc, h.frame .tables (by decide)]

theorem InvSent.data {s u : State} (h : InvSent s u) : u.cache.data = s.cache.data := by
  obtain ⟨g, -, hc⟩ := h.cache
  rw [hc]

theorem getLsbD_invPorts (s : State) (sh : BitVec 24) {k : Nat} (hk : k < 6) : (invPorts s sh).getLsbD k = (sh.getLsbD k && portLive s k) := by
  have h := getLsbD_foldl_setBit (n := 6) (fun n => sh.getLsbD n && portLive s n) (List.range 6) 0 hk
  rw [show (0 : BitVec 6) = 0#6 from rfl, BitVec.getLsbD_zero, Bool.false_or, decide_eq_true (List.mem_range.mpr hk), Bool.true_and] at h
  exact h

/-- No constant cache of a core shares the line. -/
theorem invCores_none {sh : BitVec 24} (h : sh.toNat < 64) (line : Sa) (s : State) : invCores sh line s = s := by
  have hbit (k : Nat) : sh.getLsbD (6 + k) = false := by
    rw [BitVec.getLsbD]
    exact Nat.testBit_lt_two_pow (Nat.lt_of_lt_of_le h (Nat.pow_le_pow_right Nat.two_pos (Nat.le_add_right 6 k) : 2 ^ 6 ≤ 2 ^ (6 + k)))
  unfold invCores
  generalize List.range 18 = l
  induction l with
  | nil => rfl
  | cons k l ih => rw [List.foldl_cons, hbit, if_neg Bool.false_ne_true, ih]

/-- An invalidation of a line without a replica that has just started. -/
def newInv (h : Half) (key : Nat) (line : Sa) (tag : BitVec 12) (ports : BitVec 6) (act : InvAct) : InvOp :=
  { home := h, key := key, line := line, tag := tag, ports := ports, sent := [], replica := false, ackHome := false, act := act }

/-- The invalidation that starts for a line with the sharers sh, none of them a core or the other half. -/
theorem startInv_spec {h : Half} {key : Nat} {line : Sa} {act : InvAct} {s : State} (hc : calm s = true) (hr : (metaAt s key).rheld = false)
    (hb : s.cch.clrBusy = 0) (hs : (metaAt s key).sharers.toNat < 64) :
    (∃ o, onlyInv o (startInv h key line act s) ∧ o.key = key ∧ o.line = line ∧ o.act = act ∧
      o.ports = invPorts s (metaAt s key).sharers) ∧
    (∀ k, metaAt (startInv h key line act s) k = metaAt s k) ∧ (startInv h key line act s).cache.data = s.cache.data := by
  have hsh : effSharers s (metaAt s key) = (metaAt s key).sharers := by
    rw [effSharers, hb, show (~~~(0 : BitVec 24)) = BitVec.allOnes 24 from rfl, BitVec.and_allOnes]
  unfold startInv
  dsimp only
  rw [hsh, hr, Bool.false_and, if_neg Bool.false_ne_true, invCores_none hs]
  generalize freshTag s.cache.invTag _ = tag
  generalize hx : (State.onCache s _) = x
  have hxi : x.cache.invs = [newInv h key line tag (invPorts s (metaAt s key).sharers) act] := by
    rw [← hx]
    show s.cache.invs ++ _ = _
    rw [(calm_iff.mp hc).2.2.1, List.nil_append]
    rfl
  have hxm (k : Nat) : metaAt x k = metaAt s k := by rw [← hx]; rfl
  have hxd : x.cache.data = s.cache.data := by rw [← hx]; rfl
  have hxr : x.cache.blocked = s.cache.blocked ∧ x.cache.mshr = s.cache.mshr ∧ x.cache.pool = s.cache.pool ∧ x.atu = s.atu ∧ x.buf = s.buf := by
    rw [← hx]
    exact ⟨rfl, rfl, rfl, rfl, rfl⟩
  have hsent := (invSent_sendInvs (invPorts s (metaAt s key).sharers) line tag (metaAt s key).part x).trans
    (invSent_cnt 0x017 (popcount (metaAt s key).sharers + b2n false) (some h) none _)
  generalize cnt 0x017 _ _ _ _ = u at hsent
  obtain ⟨g, hg, hgc⟩ := hsent.cache
  obtain ⟨l, hl⟩ := hg (newInv h key line tag (invPorts s (metaAt s key).sharers) act)
  obtain ⟨hb1, hm1, -, hp1, ha1, hf1⟩ := calm_iff.mp hc
  obtain ⟨r1, r2, r3, r4, r5⟩ := hxr
  have hinvs : u.cache.invs = [g (newInv h key line tag (invPorts s (metaAt s key).sharers) act)] := by
    rw [hgc]
    show x.cache.invs.map g = _
    rw [hxi, List.map_cons, List.map_nil]
  rw [hl] at hinvs
  refine ⟨⟨_, onlyInv_iff.mpr ⟨hinvs, ?_, ?_, ?_, ?_, ?_⟩, rfl, rfl, rfl, rfl⟩, fun k => (hsent.metas k).trans (hxm k), hsent.data.trans hxd⟩
  · rw [hgc]; exact r1.trans hb1
  · rw [hgc]; exact r2.trans hm1
  · rw [hgc, show ({ x.cache with invs := x.cache.invs.map g } : Cache).pool = s.cache.pool from r3]; exact hp1
  · rw [addlsIdle, show u.atu = x.atu from hsent.frame .atu (by decide), r4]; exact ha1
  · rw [show u.buf = x.buf from hsent.frame .buf (by decide), r5]; exact hf1

/-- A single request that starts an invalidation, for which the machine then waits. -/
theorem settle_starts {s u : State} {o : InvOp} (hc : calm s = true) {r : LineReq} (h : tryReq r s = (true, u)) (ho : onlyInv o u)
    (hp : o.ports ≠ 0) : settle (requeue r s) = u := by
  obtain ⟨hround, -⟩ := settle_waiting ho (.inl hp)
  obtain ⟨hi, -, -, -, ha, hf⟩ := onlyInv_iff.mp ho
  have hb := (calm_iff.mp hc).1
  have hnot : quiet (requeue r s) = false := by simp [quiet, requeue, hb]
  have hall : settleAll (requeue r s) = u := by
    rw [settleAll, show ∀ n, 6 + 3 * n = (5 + 3 * n) + 1 from fun n => by omega, settleN, hnot, settleRound_done hc h]
    exact settleN_fixed hround _
  simp [settle, hall, ha, hf]

theorem onlyInv_counts {s u : State} {o : InvOp} (h : onlyInv o s) (hu : onlyCounts s u) : onlyInv o u := by
  obtain ⟨_, _, _, rfl⟩ := hu
  exact h

/-- A write that meets a line with sharers that are up starts an invalidation. -/
theorem settle_invalidates {s : State} {r : LineReq} {key : Nat} {mask : BitVec 128} {d : BitVec 1024} (h : Meets s r key)
    (hop : r.op = .write mask d) (hr : (metaAt s key).rheld = false) (hb : s.cch.clrBusy = 0) (hs : (metaAt s key).sharers.toNat < 64)
    (hlive : ∃ k, k < 6 ∧ (metaAt s key).sharers.getLsbD k = true ∧ portLive s k = true) :
    ∃ o u, settle (enqueue r s) = u ∧ onlyInv o u ∧ o.key = key ∧ o.line = lineOf r.sa ∧ o.act = .perform r ∧
      o.ports = invPorts s (metaAt s key).sharers ∧ (∀ k, metaAt u k = metaAt s k) ∧ u.cache.data = s.cache.data := by
  obtain ⟨t, ht, he⟩ := enqueue_counts r s
  have hm := h.seqWork (seqWork_of_onlyCounts ht)
  have hsame : (∀ k, metaAt t k = metaAt s k) ∧ t.cch = s.cch ∧ t.cache = s.cache ∧ (∀ sh, invPorts t sh = invPorts s sh) := by
    obtain ⟨_, _, _, rfl⟩ := ht
    exact ⟨fun _ => rfl, rfl, rfl, fun _ => rfl⟩
  obtain ⟨k1, k2, k3, k4⟩ := hsame
  obtain ⟨⟨o, o1, o2, o3, o4, o5⟩, m1, m2⟩ := startInv_spec (h := r.home) (line := lineOf r.sa) (act := .perform r) hm.calm
    (by rw [k1]; exact hr) (by rw [k2]; exact hb) (by rw [k1]; exact hs)
  have hneed : needInv t (metaAt t key) = true := by
    obtain ⟨k, -, hk, -⟩ := hlive
    have hne : (metaAt t key).sharers ≠ 0 := by
      rw [k1]
      intro h0
      rw [h0, show (0 : BitVec 24) = 0#24 from rfl, BitVec.getLsbD_zero] at hk
      exact Bool.false_ne_true hk
    rw [needInv, decide_eq_true hne, Bool.true_or]
  have hline : atLine r key t = (true, startInv r.home key (lineOf r.sa) (.perform r) t) := by
    simp only [atLine, hop, hneed, if_true]
  obtain ⟨p1, p2, -⟩ := tryReq_meets hm
  rw [hline] at p1 p2
  have hw := p2 rfl
  generalize startInv r.home key (lineOf r.sa) (.perform r) t = v at o1 m1 m2 hw
  have how := onlyInv_counts o1 hw
  rw [k1, k4] at o5
  have hports : o.ports ≠ 0 := by
    obtain ⟨k, hk6, hk, hl⟩ := hlive
    intro h0
    have := congrArg (fun b : BitVec 6 => b.getLsbD k) (o5.symm.trans h0)
    simp only [getLsbD_invPorts s _ hk6, hk, hl] at this
    exact absurd this (by simp)
  refine ⟨o, (tryReq r t).2, ?_, how, o2, o3, o4, o5, fun k => ?_, ?_⟩
  · rw [he]
    exact settle_starts hm.calm (Prod.ext p1 rfl) how hports
  · exact ((onlyCounts_kept hw).1 k).trans ((m1 k).trans (k1 k))
  · refine Eq.trans ?_ (m2.trans (congrArg Cache.data k3))
    obtain ⟨_, _, _, hw⟩ := hw
    rw [hw]

/-- A partner's line write to a line that partner ports share (R198 steps 1 to 3). -/
theorem wrl_invalidates {m : PHdr} {data : BitVec 1024} {s : State} {h : Half} {key : Nat} (hopen : portOpen s m.port.val = true) (hcls : m.cls ≠ 0)
    (hm : memHome m Rights.wr m.sa s = .ok h)
    (hl : lineHere s (.write (BitVec.allOnes 128) data) m.sa m.part (portHalf m.port.val) h key = true) (hr : (metaAt s key).rheld = false)
    (hb : s.cch.clrBusy = 0) (hs : (metaAt s key).sharers.toNat < 64)
    (hlive : ∃ k, k < 6 ∧ (metaAt s key).sharers.getLsbD k = true ∧ portLive s k = true) :
    completesWith (.wrl m data) s fun u => sameBytes s u ∧ (metaAt u key).sharers = (metaAt s key).sharers ∧
      ∃ o r, u.cache.invs = [o] ∧ o.key = key ∧ o.line = lineOf m.sa ∧ o.act = .perform r ∧ r.who = Who.port m.port m.cls m.tag ∧
        r.op = .write (BitVec.allOnes 128) data ∧ (∀ k, k < 6 → o.ports.getLsbD k = ((metaAt s key).sharers.getLsbD k && portLive s k)) := by
  have he : exec (.wrl m data) s = execWrl m data s := rfl
  have hfit : (16 + 128 + 61) / 62 ≤ classMax m.cls := by
    unfold classMax
    rw [if_neg hcls]
    split <;> decide
  obtain ⟨x, ht, hp⟩ := partner_open (opc := 0x0A) hopen hfit (memReq m Rights.wr (.write (BitVec.allOnes 128) data))
  rw [execWrl, hp, memReq_enters ht hm] at he
  have hmx := ht.meets (meets_mkReq hl (hdrWho m))
  have hsame : (∀ k, metaAt x k = metaAt s k) ∧ x.cch = s.cch ∧ x.cache = s.cache := by
    obtain ⟨_, rfl⟩ := ht.only
    exact ⟨fun _ => rfl, rfl, rfl⟩
  obtain ⟨k1, k2, k3⟩ := hsame
  have hlx (k : Nat) : portLive x k = portLive s k := by rw [portLive, portLive, ht.port]
  obtain ⟨k, hk6, hk, hkl⟩ := hlive
  obtain ⟨o, u, hset, ho, o2, o3, o4, o5, m1, m2⟩ := settle_invalidates hmx rfl (by rw [k1]; exact hr) (by rw [k2]; exact hb)
    (by rw [k1]; exact hs) ⟨k, hk6, by rw [k1]; exact hk, by rw [hlx]; exact hkl⟩
  rw [hset] at he
  refine completesWith_answer he ⟨sameBytes_answered.mpr (sameBytes_of_data (m2.trans (congrArg Cache.data k3))), ?_, o, _, ho.1, o2, o3, o4, rfl,
    rfl, fun k hk => ?_⟩
  · rw [metaAt_answered, m1, k1]
  · rw [o5, getLsbD_invPorts x _ hk, k1, hlx]

/-! ## The last acknowledgement (R198 steps 4 and 5) -/

theorem wakeWork_metas {s u : State} (h : wakeWork s u) (k : Nat) : metaAt u k = metaAt s k := by
  obtain ⟨⟨_, _, rfl⟩, -, -⟩ := h
  rfl

/-- A stored line has the entry that its write gives it. -/
theorem metaAt_storeLine {key : Nat} {line : Sa} {d : BitVec 1024} {m : Meta} {s : State} (h : s.integ.injArm = false) :
    metaAt (storeLine key line d m s) key = withCrc m d line := by
  have hm := metaAt_setMeta (setData s key d) key (withCrc m d line) key
  rw [if_pos rfl] at hm
  have hi : (setMeta (setData s key d) key (withCrc m d line)).integ = s.integ := rfl
  unfold storeLine
  generalize setMeta (setData s key d) key (withCrc m d line) = x at hm hi
  rw [countOps_only]
  have hno : ¬ (({ x.integ with injected := x.integ.injected.filter (· ≠ key) } : Integ).injArm = true ∧ x.integ.injAddr = line.extractLsb' 7 45) := by
    simp [hi, h]
  have hstore : afterStore key line x = { x with
      integ := { x.integ with injected := x.integ.injected.filter (· ≠ key) },
      cache := { x.cache with ecc := (List.range 4).foldl (fun e j => tset 0 e (4 * key + j) 0) x.cache.ecc } } := by
    unfold afterStore
    exact if_neg hno
  rw [hstore]
  exact hm

theorem noCopies_withCrc {m : Meta} (d : BitVec 1024) (line : Sa) (h1 : m.sharers = 0) (h2 : m.rheld = false) :
    (withCrc m d line).sharers = 0 ∧ (withCrc m d line).rheld = false := by
  unfold withCrc
  split <;> exact ⟨h1, h2⟩

/-- A write that is performed leaves no copy of its line elsewhere. -/
theorem serveWrite_noCopies (r : LineReq) (mask : BitVec 128) (d : BitVec 1024) (key : Nat) {s : State} (harm : s.integ.injArm = false) :
    ∃ u, Wrote key s u ∧ u.cache.data = (setData s key (mergeBytes mask (lineData s key) d)).cache.data ∧ noCopies u key = true ∧
      serveWrite r mask d key s = answerReq r (LineRes.st 0) (some key) u := by
  have hp := wrote_prefEnded_if key (metaAt s key).pf (regionHalf (keyRegion key)) (metaAt s key).part true s
  have hpd : (if (metaAt s key).pf = true then prefEnded (regionHalf (keyRegion key)) (metaAt s key).part true s else s).cache = s.cache := by
    split
    · simp [prefEnded, modLoopMem]
    · rfl
  unfold serveWrite
  dsimp only
  generalize (if (metaAt s key).pf = true then prefEnded (regionHalf (keyRegion key)) (metaAt s key).part true s else s) = x at hp hpd ⊢
  have hline : lineData x key = lineData s key := by rw [lineData, hpd]; rfl
  rw [hline]
  refine ⟨_, hp.trans (wrote_store (hp.arm.trans harm)).1, ?_, ?_, rfl⟩
  · rw [(wrote_store (hp.arm.trans harm)).2.1, setData, setData]
    simp only [State.onCache, hpd]
  · have hm := (wakeWork_metas (wakeWork_wakeWaits (lineOf r.sa) _) key).trans (metaAt_storeLine (key := key) (line := lineOf r.sa)
      (d := mergeBytes mask (lineData s key) d) (m := { metaAt s key with
        sv := (metaAt s key).sv ||| sectors fun j => decide (sectorMask mask j = BitVec.allOnes 32),
        sd := (metaAt s key).sd ||| sectors fun j => decide (sectorMask mask j ≠ 0),
        sp := (metaAt s key).sp &&& ~~~sectors fun j => decide (sectorMask mask j = BitVec.allOnes 32),
        sharers := 0, rheld := false, melt := false, xcnt := 0, ref := true, demoted := false, pf := false }) (s := x) (hp.arm.trans harm))
    obtain ⟨h1, h2⟩ := noCopies_withCrc (m := { metaAt s key with
        sv := (metaAt s key).sv ||| sectors fun j => decide (sectorMask mask j = BitVec.allOnes 32),
        sd := (metaAt s key).sd ||| sectors fun j => decide (sectorMask mask j ≠ 0),
        sp := (metaAt s key).sp &&& ~~~sectors fun j => decide (sectorMask mask j = BitVec.allOnes 32),
        sharers := 0, rheld := false, melt := false, xcnt := 0, ref := true, demoted := false, pf := false })
      (mergeBytes mask (lineData s key) d) (lineOf r.sa) rfl rfl
    rw [← hm] at h1 h2
    rw [noCopies, h1, h2]
    rfl

theorem took_onCache (s u : State) (f : Cache → Cache) (h : Took s u) :
    (u.onCache f).links = u.links ∧ (u.onCache f).integ = s.integ := by
  obtain ⟨_, rfl⟩ := h.only
  exact ⟨rfl, rfl⟩

theorem invAck_performs {n p : PartnerPort} {c : Fin 4} {tag tg : BitVec 12} {sa : Sa} {s : State} {o : InvOp} {r : LineReq} {mask : BitVec 128}
    {d : BitVec 1024} (ha : portActive s n.val = true) (hpa : portActive s p.val = true) (ho : onlyInv o s) (htag : o.tag = tag)
    (hline : o.line = lineOf sa) (hrep : o.replica = false) (hports : ∀ k, k < 6 → o.ports.getLsbD k = decide (k = n.val))
    (hact : o.act = .perform r) (hop : r.op = .write mask d) (hwho : r.who = Who.port p c tg) (harm : s.integ.injArm = false) :
    completesWith (.invAck n tag sa) s fun u => u.cache.invs = [] ∧ lineData u o.key = mergeBytes mask (lineData s o.key) d ∧
      sameBytesBut o.key s u ∧ noCopies u o.key = true ∧
      sends p.val (rsp { port := p, cls := c, tag := tg, part := r.part, sa := r.sa } 0 false []) s u := by
  have he : exec (.invAck n tag sa) s = execInvAck n tag sa s := rfl
  rw [execInvAck, if_neg (by rw [ha]; decide)] at he
  dsimp only at he
  have ht := took_takeRx n.val 0x30 tag s
  generalize takeRx n.val 0x30 tag s = t at he ht
  have hclear : setBit o.ports n.val false = 0 := by
    refine BitVec.eq_of_getLsbD_eq fun i hi => ?_
    by_cases hin : i = n.val
    · rw [hin, getLsbD_setBit_false]
      simp
    · rw [getLsbD_setBit_ne _ hi hin, hports i hi]
      simp [hin]
  have hmap : (t.onCache fun c => { c with
      invs := c.invs.map fun o =>
        if o.tag = tag ∧ o.line = lineOf sa then { o with ports := setBit o.ports n.val false } else o }) =
      t.onCache fun c => { c with invs := [{ o with ports := 0 }] } := by
    have hi : t.cache.invs.map (fun o => if o.tag = tag ∧ o.line = lineOf sa then { o with ports := setBit o.ports n.val false } else o) =
        [{ o with ports := 0 }] := by
      rw [ht.cache, ho.1, List.map_cons, List.map_nil, if_pos ⟨htag, hline⟩, hclear]
    exact congrArg (fun l => { t with cache := { t.cache with invs := l } }) hi
  rw [hmap] at he
  have honly : onlyInv { o with ports := 0 } (t.onCache fun c => { c with invs := [{ o with ports := 0 }] }) := by
    obtain ⟨hi, hrest⟩ := ho
    obtain ⟨_, rfl⟩ := ht.only
    exact ⟨rfl, hrest⟩
  have hxi : ((t.onCache fun c => { c with invs := [{ o with ports := 0 }] }).onCache fun c => { c with invs := [] }) =
      t.onCache fun c => { c with invs := [] } := rfl
  have hbase : calm (t.onCache fun c => { c with invs := [] }) = true := honly.2
  have hkept : (∀ k, metaAt (t.onCache fun c => { c with invs := [] }) k = metaAt s k) ∧
      (t.onCache fun c => { c with invs := [] }).cache.data = s.cache.data ∧ (t.onCache fun c => { c with invs := [] }).integ = s.integ ∧
      (t.onCache fun c => { c with invs := [] }).links = t.links := by
    obtain ⟨_, hu⟩ := ht.only
    refine ⟨fun k => ?_, ?_, ?_, rfl⟩
    all_goals
      rw [hu]
      rfl
  have hfin : finishInv { o with ports := 0 } (t.onCache fun c => { c with invs := [] }) =
      serveWrite r mask d o.key (charge o.home r.master (setMeta (t.onCache fun c => { c with invs := [] }) o.key
        { metaAt (t.onCache fun c => { c with invs := [] }) o.key with sharers := 0, rheld := false })) := by
    simp only [finishInv, hact, hop]
  generalize (t.onCache fun c => { c with invs := [{ o with ports := 0 }] }) = w at he honly hxi
  generalize (t.onCache fun c => { c with invs := [] }) = x at hxi hbase hkept hfin
  obtain ⟨x1, x2, x3, x4⟩ := hkept
  have hcnt := onlyCounts_charge o.home r.master (setMeta x o.key { metaAt x o.key with sharers := 0, rheld := false })
  have hy : (setMeta x o.key { metaAt x o.key with sharers := 0, rheld := false }).cache.data = s.cache.data ∧
      (setMeta x o.key { metaAt x o.key with sharers := 0, rheld := false }).integ = s.integ ∧
      (setMeta x o.key { metaAt x o.key with sharers := 0, rheld := false }).links = t.links ∧
      calm (setMeta x o.key { metaAt x o.key with sharers := 0, rheld := false }) = true := ⟨x2, x3, x4, hbase⟩
  generalize setMeta x o.key { metaAt x o.key with sharers := 0, rheld := false } = y0 at hcnt hfin hy
  generalize charge o.home r.master y0 = y at hcnt hfin
  have hy' : y.cache.data = s.cache.data ∧ y.integ = s.integ ∧ y.links = t.links ∧ calm y = true := by
    obtain ⟨_, _, _, rfl⟩ := hcnt
    exact hy
  obtain ⟨y1, y2, y3, y4⟩ := hy'
  obtain ⟨z, hz, hzd, hzn, hserve⟩ := serveWrite_noCopies r mask d o.key (s := y) (by rw [y2]; exact harm)
  obtain ⟨v, hv, hans⟩ := answerReq_write_port (m := { port := p, cls := c, tag := tg, part := r.part, sa := r.sa }) hop hwho rfl rfl (some o.key) z
  rw [hserve, hans] at hfin
  have hvz : v.cache = z.cache ∧ v.links = z.links ∧ (∀ k, metaAt v k = metaAt z k) := by
    obtain ⟨_, _, _, rfl⟩ := hv
    exact ⟨rfl, rfl, fun _ => rfl⟩
  obtain ⟨v1, v2, v3⟩ := hvz
  have hvc : calm v = true := by rw [onlyCounts_calm hv, wrote_calm hz, y4]
  have hvl : v.links = t.links := v2.trans (Eq.trans (hz.frame .links (by decide)) y3)
  have hsend : sends p.val (rsp { port := p, cls := c, tag := tg, part := r.part, sa := r.sa } 0 false []) s
      (sendFrame p.val (rsp { port := p, cls := c, tag := tg, part := r.part, sa := r.sa } 0 false []) v) := by
    have hlive : portLive v p.val = true := by
      rw [portLive, port, hvl, ← port, ht.port]
      exact (portActive_states hpa).1
    exact ht.sends (sends_congr (s := v) (by simp only [link, hvl]) (by simp only [port, hvl]) rfl (sends_sendFrame hlive))
  dsimp only at hfin hans
  generalize rsp _ 0 false [] = g at hfin hsend ⊢
  have hh := hands_sendFrame p.val g v
  have hsc : (sendFrame p.val g v).cache = v.cache := hh.cache_eq (calm_iff.mp hvc).2.2.1
  have hst : (sendFrame p.val g v).tables = v.tables := hh.frame .tables (by decide)
  have hscalm := calm_hands hh hvc
  have hset := settle_finishes honly rfl hrep (by simp only [invWaits, hact, hop]) (hxi ▸ hfin) hscalm
  rw [hset] at he
  generalize sendFrame p.val g v = u at he hsend hsc hst hscalm
  have hline : lineData y o.key = lineData s o.key := by rw [lineData, lineData, y1]
  have hdata : u.cache.data = (setData y o.key (mergeBytes mask (lineData s o.key) d)).cache.data := by rw [hsc, v1, hzd, hline]
  refine completesWith_answer he ⟨?_, lineData_stored hdata, fun a hk => ?_, ?_, ?_⟩
  · exact (calm_iff.mp hscalm).2.2.1
  · show memByte u.cache.data a = _
    rw [hdata, memByte_setData_outside y o.key _ hk, y1]
  · have hm : metaAt (answered s u) o.key = metaAt z o.key := (metaAt_answered ..).trans ((metaAt_congr hsc hst o.key).trans (v3 o.key))
    rw [noCopies, hm]
    exact hzn
  · exact sends_congr rfl rfl (link_answered ..) hsend

/-- Settles O30: the invalidation starts before the write, and its last acknowledgement performs it. -/
theorem writeInvalidation : Obligations.WriteInvalidation := by
  refine ⟨?_, fun port p c tag tg sa s o r mask d ha hpa ho htag hline hrep hports hact hop hwho harm =>
    invAck_performs ha hpa ho htag hline hrep hports hact hop hwho harm⟩
  intro m data s h key n sh hopen hcls hm _ hl hr hb hs hlive
  exact wrl_invalidates hopen hcls hm hl hr hb hs hlive

end Sys2Proof.Machine
end

section
/-! PROOFS. Acknowledgements, offers, error reports and limits of the shelf (R132, R137, R292, R318, R329). -/

namespace Sys2Proof.Machine

open Sys2Proof.Safety

/-! ## Frames of the pool ports -/

theorem link_takeRx_ne {n opc k : Nat} (tag : BitVec 12) (s : State) (hk : k ≠ n) : link (takeRx n opc tag s) k = link s k := by
  unfold takeRx
  split
  · rfl
  · rw [takeFrame, freeCredit, modLink, link_setLink_ne _ _ hk, modLink, link_setLink_ne _ _ hk]

theorem link_sendFrame_ne {n k : Nat} (f : Frame) (s : State) (hk : k ≠ n) : link (sendFrame n f s) k = link s k :=
  (hands_sendFrame n f s).links k hk

theorem poolPort_congr {s u : State} (h1 : u.links.port = s.links.port) (h2 : u.links.split = s.links.split) (line : Sa) :
    poolPort u line = poolPort s line := by
  have hp (k : Nat) : port u k = port s k := by rw [port, h1]; rfl
  have ha : portActive u = portActive s := funext fun k => by rw [portActive, portActive, hp]
  have hl : portLive u = portLive s := funext fun k => by rw [portLive, portLive, hp]
  rw [poolPort, poolPort, ha, hl, h2]

theorem Took.poolPort {s u : State} (h : Took s u) (line : Sa) : Machine.poolPort u line = Machine.poolPort s line := by
  have h1 : u.links.port = s.links.port := (congrArg Links.port h.rest :)
  have h2 : u.links.split = s.links.split := (congrArg Links.split h.rest :)
  exact poolPort_congr h1 h2 line

/-- A port that carries pool requests is up. -/
theorem poolPort_live {s : State} {line : Sa} {g : Fin 2} (h : poolPort s line = some g) : portLive s (6 + g.val) = true := by
  have hl {n : Nat} (ha : portActive s n = true) : portLive s n = true := (portActive_states ha).1
  unfold poolPort at h
  dsimp only at h
  split at h
  next h1 =>
    simp only [Bool.and_eq_true] at h1
    split at h <;> cases h
    · exact hl h1.1.2
    · exact hl h1.1.1
  split at h
  next h1 => cases h; exact hl h1
  split at h
  next h1 => cases h; exact hl h1
  split at h
  next h1 => cases h; exact h1
  split at h
  next h1 => cases h; exact h1
  next => cases h

/-- With an ACTIVE pool port there is one for every line. -/
theorem poolPort_of_active {s : State} {f : Fin 2} (h : portActive s (6 + f.val) = true) (line : Sa) : ∃ g, poolPort s line = some g := by
  unfold poolPort
  dsimp only
  split
  · exact ⟨_, rfl⟩
  · have hf : f = 0 ∨ f = 1 := by omega
    rcases hf with rfl | rfl
    · rw [if_pos (show portActive s 6 = true from h)]
      exact ⟨_, rfl⟩
    · split
      · exact ⟨_, rfl⟩
      · rw [if_pos (show portActive s 7 = true from h)]
        exact ⟨_, rfl⟩

/-- The request that port f carries. -/
def onPort (q : PoolReq) (f : Fin 2) (s : State) : PoolReq := { q with port := some f, since := s.clk.time }

/-- A request that is sent in a calm machine: it is outstanding, and its frame is with its port. -/
theorem poolSend_spec {s : State} {q : PoolReq} {g : Fin 2} (hg : poolPort s q.line = some g) (hc : calm s = true) :
    (poolSend q s).cache.pool = s.cache.pool ++ [onPort q g s] ∧ (poolSend q s).cache.data = s.cache.data ∧
      (poolSend q s).cache.offers = s.cache.offers ∧ calm (poolSend q s) = true ∧ sends (6 + g.val) (poolFrame q) s (poolSend q s) ∧
      (∀ k, k ≠ 6 + g.val → link (poolSend q s) k = link s k) := by
  have hlive := poolPort_live hg
  unfold poolSend
  rw [hg]
  dsimp only
  rw [poolIssue]
  have hy : calm (s.onCache fun c => { c with pool := c.pool ++ [{ q with port := some g, since := s.clk.time }] }) = true := by
    obtain ⟨h1, h2, h3, h4, h5, h6⟩ := calm_iff.mp hc
    refine calm_iff.mpr ⟨h1, h2, h3, fun x hx => ?_, h5, h6⟩
    rcases List.mem_append.mp hx with hx | hx
    · exact h4 x hx
    · rw [List.mem_singleton.mp hx]
      exact fun h => Bool.false_ne_true h.2
  have hpool : (s.onCache fun c => { c with pool := c.pool ++ [{ q with port := some g, since := s.clk.time }] }).cache.pool =
      s.cache.pool ++ [onPort q g s] := rfl
  have hdata : (s.onCache fun c => { c with pool := c.pool ++ [{ q with port := some g, since := s.clk.time }] }).cache.data = s.cache.data := rfl
  have hoff : (s.onCache fun c => { c with pool := c.pool ++ [{ q with port := some g, since := s.clk.time }] }).cache.offers =
      s.cache.offers := rfl
  have hlinks : (s.onCache fun c => { c with pool := c.pool ++ [{ q with port := some g, since := s.clk.time }] }).links = s.links := rfl
  generalize s.onCache _ = y at hy hpool hdata hoff hlinks
  have hh := hands_sendFrame (6 + g.val) (poolFrame q) y
  have hcache := hh.cache_eq (calm_iff.mp hy).2.2.1
  have hlink (k : Nat) : link y k = link s k := by rw [link, hlinks]; rfl
  have hports (k : Nat) : port y k = port s k := by rw [port, hlinks]; rfl
  have hsend := sends_congr (s' := s) (hlink (6 + g.val)).symm (hports (6 + g.val)).symm rfl
    (sends_sendFrame (f := poolFrame q) (s := y) (n := 6 + g.val) (by rw [portLive, hports]; exact hlive))
  exact ⟨by rw [hcache, hpool], by rw [hcache, hdata], by rw [hcache, hoff], calm_hands hh hy, hsend, fun k hk => (hh.links k hk).trans (hlink k)⟩

/-! ## Acknowledgements of writes (R132, R292) -/

/-- The shelf's answer to a request that is outstanding on port f. -/
theorem findPool_one {s : State} {f : Fin 2} {tag : BitVec 12} {kinds : List PoolKind} {q : PoolReq} (hp : s.cache.pool = [q])
    (hk : kinds.contains q.kind = true) (ht : q.tag = tag) (hf : q.port = some f) : findPool s f tag kinds = some q := by
  rw [findPool, hp, List.find?_cons_of_pos]
  rw [hk, ht, hf]
  simp

theorem dropPool_one {s : State} {q : PoolReq} (hp : s.cache.pool = [q]) : dropPool q s = s.onCache fun c => { c with pool := [] } := by
  have h : s.cache.pool.erase q = [] := by rw [hp, List.erase_cons_head]
  exact congrArg (fun l => { s with cache := { s.cache with pool := l } }) h

theorem calm_dropPool {s : State} (hc : calm s = true) : calm (s.onCache fun c => { c with pool := [] }) = true := by
  obtain ⟨h1, h2, h3, h4, h5, h6⟩ := calm_iff.mp hc
  exact calm_iff.mpr ⟨h1, h2, h3, fun x hx => (List.not_mem_nil hx).elim, h5, h6⟩

/-- The lowest sector that a mask touches is not left. -/
theorem withoutSector_ne_all (mask : BitVec 128) : withoutSector mask (firstSector mask) ≠ BitVec.allOnes 128 := by
  have hlt : firstSector mask < 4 := by
    unfold firstSector
    split_ifs <;> decide
  intro h
  have hbit := congrArg (fun b : BitVec 128 => b.getLsbD (32 * firstSector mask)) h
  generalize firstSector mask = j at hlt hbit
  have hone : (BitVec.ofNat 128 ((2 ^ 32 - 1) * 2 ^ (32 * j))).getLsbD (32 * j) = true := by
    interval_cases j <;> decide
  have hall : (BitVec.allOnes 128).getLsbD (32 * j) = true := by
    rw [BitVec.getLsbD_allOnes]
    exact decide_eq_true (by omega)
  simp only [withoutSector, BitVec.getLsbD_and, BitVec.getLsbD_not, hone, Bool.not_true, Bool.and_false, hall] at hbit
  exact Bool.false_ne_true hbit

/-- Taking a tag leaves all but the counter of tags. -/
theorem poolTag_kept (s : State) : (poolTag s).2.links = s.links ∧ (poolTag s).2.cache.pool = s.cache.pool ∧
    (poolTag s).2.cache.data = s.cache.data ∧ calm (poolTag s).2 = calm s := by
  unfold poolTag
  dsimp only
  generalize freshTag s.cache.poolTag _ = t
  exact ⟨rfl, rfl, rfl, rfl⟩

/-- What an acknowledgement does: the writer's waits wake, and the next sector is sent or the writer answered. -/
theorem wack_runs {f : Fin 2} {tag : BitVec 12} {sa : Sa} {s : State} {q : PoolReq} {r : LineReq} {mask : BitVec 128} {d : BitVec 1024}
    (ha : portActive s (6 + f.val) = true) (hp : s.cache.pool = [q]) (hk : q.kind = .wt) (ht : q.tag = tag) (hf : q.port = some f)
    (hw : q.who = .uncached r) (hop : r.op = .write mask d) (hl : lineOf q.line = lineOf sa) : ∃ t y, Took s t ∧ (∀ k, k ≠ 6 + f.val → link t k = link s k) ∧ wakeWork (t.onCache fun x => { x with pool := [] }) y ∧
    exec (.wack f tag sa 0) s = answer s (settle (
      if (if q.var = 0 then 0 else withoutSector mask (firstSector mask)) ≠ 0 then
        sendWt r.home (lineOf r.sa) r.part (withoutSector mask (firstSector mask)) d
          (.uncached { r with op := .write (withoutSector mask (firstSector mask)) d }) y
      else answerReq r (LineRes.st 0) none y)) := by
  have he : exec (.wack f tag sa 0) s = execWack f tag sa 0 s := rfl
  have htook := took_takeRx (6 + f.val) 0x49 tag s
  have hne (k : Nat) (hk : k ≠ 6 + f.val) := link_takeRx_ne (opc := 0x49) tag s hk
  refine ⟨takeRx (6 + f.val) 0x49 tag s, _, htook, hne, wakeWork_wakeWaits (lineOf q.line) _, ?_⟩
  rw [he, execWack, if_neg (by rw [ha]; decide)]
  dsimp only
  generalize takeRx (6 + f.val) 0x49 tag s = t at htook
  have hpt : t.cache.pool = [q] := by rw [htook.cache]; exact hp
  rw [findPool_one hpt (by rw [hk]; decide) ht hf]
  dsimp only
  rw [if_pos hl, wackArrive, dropPool_one hpt]
  simp only [hw, hop, show ¬ (0 : BitVec 8).toNat = stCheck by decide, if_false]
  generalize wakeWaits (lineOf q.line) _ = y
  by_cases hv : q.var = 0
  · simp [hv]
  · rw [if_neg hv]
    simp

section
variable {f : Fin 2} {tag tg : BitVec 12} {sa : Sa} {s : State} {q : PoolReq} {r : LineReq} {p : PartnerPort} {c : Fin 4} {mask : BitVec 128}
  {d : BitVec 1024} (ha : portActive s (6 + f.val) = true) (hc : calm s = true) (hp : s.cache.pool = [q]) (hk : q.kind = .wt) (ht : q.tag = tag)
  (hf : q.port = some f) (hw : q.who = .uncached r) (hop : r.op = .write mask d) (hwho : r.who = .port p c tg) (hl : lineOf q.line = lineOf sa)
include ha hc hp hk ht hf hw hop hwho hl

/-- The acknowledgement of the last sector answers the writer. -/
theorem wack_answers (hpa : portActive s p.val = true) (hdone : q.var = 0 ∨ withoutSector mask (firstSector mask) = 0) :
    completesWith (.wack f tag sa 0) s fun u =>
      u.cache.pool = [] ∧ sends p.val (rsp { port := p, cls := c, tag := tg, part := r.part, sa := r.sa } 0 false []) s u ∧ sameBytes s u := by
  obtain ⟨t, y, htook, -, hwake, he⟩ := wack_runs ha hp hk ht hf hw hop hl
  have hno : (if q.var = 0 then 0 else withoutSector mask (firstSector mask)) = 0 := by
    rcases hdone with h | h
    · rw [if_pos h]
    · rw [h, ite_self]
  rw [if_neg (not_not.mpr hno)] at he
  obtain ⟨v, hv, hans⟩ := answerReq_write_port (m := { port := p, cls := c, tag := tg, part := r.part, sa := r.sa }) hop hwho rfl rfl none y
  rw [hans] at he
  have hfacts : v.links = t.links ∧ v.cache.pool = [] ∧ v.cache.data = s.cache.data ∧ calm v = true := by
    have hcalm := calm_dropPool (htook.calm.trans hc)
    have htd : t.cache.data = s.cache.data := by rw [htook.cache]
    have hdata : (t.onCache fun x => { x with pool := [] }).cache.data = s.cache.data := htd
    obtain ⟨⟨_, _, rfl⟩, -, -⟩ := hwake
    obtain ⟨_, _, _, rfl⟩ := hv
    exact ⟨rfl, rfl, hdata, hcalm⟩
  obtain ⟨v1, v2, v3, v4⟩ := hfacts
  dsimp only at he
  have hsend : sends p.val (rsp { port := p, cls := c, tag := tg, part := r.part, sa := r.sa } 0 false []) s
      (sendFrame p.val (rsp { port := p, cls := c, tag := tg, part := r.part, sa := r.sa } 0 false []) v) := by
    have hlive : portLive v p.val = true := by
      rw [portLive, port, v1, ← port, htook.port]
      exact (portActive_states hpa).1
    exact htook.sends (sends_congr (s := v) (by simp only [link, v1]) (by simp only [port, v1]) rfl (sends_sendFrame hlive))
  generalize rsp _ 0 false [] = g at he hsend ⊢
  have hh := hands_sendFrame p.val g v
  have hcache := hh.cache_eq (calm_iff.mp v4).2.2.1
  rw [settle_calm (calm_hands hh v4)] at he
  generalize sendFrame p.val g v = u at he hsend hcache
  exact completesWith_answer he ⟨by rw [← v2, ← hcache]; rfl, sends_congr rfl rfl (link_answered ..) hsend,
    sameBytes_answered.mpr (sameBytes_of_data (by rw [hcache, v3]))⟩

omit tg c hwho in
/-- The next sector of a write-through is sent (R132). -/
theorem wack_sends (hv : q.var ≠ 0) (hrest : withoutSector mask (firstSector mask) ≠ 0) :
    completesWith (.wack f tag sa 0) s fun u => sameBytes s u ∧ link u p.val = link s p.val ∧
      ∃ y z, u.cache.pool = [y] ∧ y.kind = .wt ∧ y.var = 1 ∧ y.who = .uncached z ∧
        z.op = .write (withoutSector mask (firstSector mask)) d ∧ z.who = r.who := by
  obtain ⟨t, y, htook, hne, hwake, he⟩ := wack_runs ha hp hk ht hf hw hop hl
  rw [if_neg hv, if_pos hrest] at he
  have hfacts : y.links = t.links ∧ y.cache.pool = [] ∧ y.cache.data = s.cache.data ∧ calm y = true := by
    have hcalm := calm_dropPool (htook.calm.trans hc)
    have htd : t.cache.data = s.cache.data := by rw [htook.cache]
    have hdata : (t.onCache fun x => { x with pool := [] }).cache.data = s.cache.data := htd
    obtain ⟨⟨_, _, rfl⟩, -, -⟩ := hwake
    exact ⟨rfl, rfl, hdata, hcalm⟩
  obtain ⟨y1, y2, y3, y4⟩ := hfacts
  have hpart : withoutSector mask (firstSector mask) ≠ BitVec.allOnes 128 := withoutSector_ne_all mask
  unfold sendWt at he
  dsimp only at he
  rw [if_neg hpart] at he
  have hz := poolTag_kept y
  generalize poolTag y = z at he hz
  obtain ⟨z1, z2, z3, z4⟩ := hz
  have hlinks : z.2.links = t.links := z1.trans y1
  generalize hq : ({ PoolReq.mk0 .wt r.home z.1 _ _ _ with var := 1, aux := _, mask := _, data := d } : PoolReq) = x at he
  obtain ⟨g, hg⟩ := poolPort_of_active (s := z.2) (f := f) (by rw [portActive, port, hlinks, ← port, htook.port]; exact ha) x.line
  obtain ⟨h1, h2, -, h4, -, h6⟩ := poolSend_spec hg (z4.trans y4)
  rw [settle_calm h4] at he
  generalize poolSend x z.2 = u at he h1 h2 h6
  refine completesWith_answer he ⟨sameBytes_answered.mpr (sameBytes_of_data (h2.trans (z3.trans y3))), ?_, onPort x g z.2,
    { r with op := .write (withoutSector mask (firstSector mask)) d }, ?_, ?_, ?_, ?_, rfl, rfl⟩
  · rw [link_answered, h6 p.val (by omega), link, hlinks, ← link, hne p.val (by omega)]
  · show u.cache.pool = _
    rw [h1, z2, y2, List.nil_append]
  · rw [onPort, ← hq]
    rfl
  · rw [onPort, ← hq]
  · rw [onPort, ← hq]
    rfl

end

/-! ## Offers (R137) -/

theorem dropOffer_one {s : State} {o : Offer} (h : s.cache.offers = [o]) : dropOffer o s = s.onCache fun c => { c with offers := [] } := by
  have he : s.cache.offers.erase o = [] := by rw [h, List.erase_cons_head]
  exact congrArg (fun l => { s with cache := { s.cache with offers := l } }) he

theorem findOffer_one {s : State} {o : Offer} {tag : BitVec 12} {sa : Sa} (h : s.cache.offers = [o]) (ht : o.tag = tag)
    (hl : o.line = lineOf sa) : findOffer s tag sa = some o := by
  rw [findOffer, h, List.find?_cons_of_pos]
  rw [ht, hl]
  simp

/-- The frame of an accepted offer without poison and without a line CRC. -/
theorem poolFrame_offd (h : Half) (line : Sa) (p : Part) (valid : BitVec 4) (d : BitVec 1024) (tag : BitVec 12) :
    poolFrame { PoolReq.mk0 .offd h tag line p .none with
      aux := pack 32 [(0, valid.toNat), (8, b2n (none : Option (BitVec 32)).isSome)], mask := valid, data := d, lcrc := none } =
      { Frame.mk0 0x44 tag p line 2 with aux := valid.setWidth 32, data := sectorBytes valid d } := by
  have haux : (pack 32 [(0, valid.toNat), (8, b2n (none : Option (BitVec 32)).isSome)] : BitVec 32) = valid.setWidth 32 := by
    revert valid
    decide
  rw [haux]
  exact congrArg (fun l => { Frame.mk0 0x44 tag p line 2 with aux := valid.setWidth 32, data := l }) (List.append_nil _)

theorem accept_completes {f g : Fin 2} {tag : BitVec 12} {sa : Sa} {s : State} {o : Offer} (ha : portActive s (6 + f.val) = true)
    (hc : calm s = true) (ho : s.cache.offers = [o]) (ht : o.tag = tag) (hl : o.line = lineOf sa) (hp : o.poison = 0) (hcrc : o.lcrc = none)
    (hg : poolPort s o.line = some g) :
    completesWith (.accept f tag sa) s fun u => u.cache.offers = [] ∧ sameBytes s u ∧
      sends (6 + g.val) { Frame.mk0 0x44 tag o.part o.line 2 with aux := o.valid.setWidth 32, data := sectorBytes o.valid o.data } s u := by
  have he : exec (.accept f tag sa) s = execAccept f tag sa s := rfl
  have htook := took_takeRx (6 + f.val) 0x4A tag s
  rw [execAccept, if_neg (by rw [ha]; decide)] at he
  dsimp only at he
  generalize takeRx (6 + f.val) 0x4A tag s = t at he htook
  have hot : t.cache.offers = [o] := by rw [htook.cache]; exact ho
  rw [findOffer_one hot ht hl] at he
  dsimp only at he
  have hvalid : o.valid &&& ~~~o.poison = o.valid := by
    rw [hp, show (~~~(0 : BitVec 4)) = BitVec.allOnes 4 from rfl, BitVec.and_allOnes]
  rw [dropOffer_one hot, if_pos hp, hvalid, hcrc, ht, sendOffd] at he
  have hframe := poolFrame_offd o.home o.line o.part o.valid o.data tag
  have hline : (({ PoolReq.mk0 .offd o.home tag o.line o.part .none with
      aux := pack 32 [(0, o.valid.toNat), (8, b2n (none : Option (BitVec 32)).isSome)], mask := o.valid, data := o.data, lcrc := none }) : PoolReq).line =
      o.line := rfl
  generalize ({ PoolReq.mk0 .offd o.home tag o.line o.part .none with
      aux := pack 32 [(0, o.valid.toNat), (8, b2n (none : Option (BitVec 32)).isSome)], mask := o.valid, data := o.data, lcrc := none } : PoolReq) = q
    at he hframe hline
  have hy : calm (t.onCache fun c => { c with offers := [] }) = true := htook.calm.trans hc
  have hyo : (t.onCache fun c => { c with offers := [] }).cache.offers = [] := rfl
  have htd : t.cache.data = s.cache.data := by rw [htook.cache]
  have hyd : (t.onCache fun c => { c with offers := [] }).cache.data = s.cache.data := htd
  have hyl : (t.onCache fun c => { c with offers := [] }).links = t.links := rfl
  generalize t.onCache _ = y at he hy hyo hyd hyl
  have hgy : poolPort y q.line = some g := by
    rw [hline, poolPort_congr (congrArg Links.port hyl) (congrArg Links.split hyl), htook.poolPort]
    exact hg
  obtain ⟨-, h2, h3, h4, h5, -⟩ := poolSend_spec hgy hy
  rw [hframe] at h5
  have hs : sends (6 + g.val) { Frame.mk0 0x44 tag o.part o.line 2 with aux := o.valid.setWidth 32, data := sectorBytes o.valid o.data } t
      (poolSend q y) := sends_congr (by simp only [link, hyl]) (by simp only [port, hyl]) rfl h5
  generalize poolSend q y = w at he h2 h3 h4 hs
  have hcount := onlyCounts_cnt 0x013 (some o.home) none 1 w
  rw [settle_calm ((onlyCounts_calm hcount).trans h4)] at he
  generalize cnt 0x013 (some o.home) none 1 w = u at he hcount
  have hcache : u.cache = w.cache := by
    obtain ⟨_, _, _, rfl⟩ := hcount
    rfl
  exact completesWith_answer he ⟨(congrArg Cache.offers hcache).trans (h3.trans hyo),
    sameBytes_answered.mpr (sameBytes_of_data ((congrArg Cache.data hcache).trans (h2.trans hyd))),
    sends_congr rfl rfl (link_answered ..) (sends_counts (htook.sends hs) hcount)⟩

theorem declineOffer_spec {s : State} {o : Offer} (h : s.cache.offers = [o]) :
    (declineOffer o s).cache.offers = [] ∧ changesOnly [.cache, .cnt] s (declineOffer o s) := by
  rw [declineOffer, dropOffer_one h, cnt_cache]
  exact ⟨rfl, by simp⟩

theorem decline_completes {f : Fin 2} {tag : BitVec 12} {sa : Sa} {s : State} {o : Offer} (ha : portActive s (6 + f.val) = true)
    (ho : s.cache.offers = [o]) (ht : o.tag = tag) (hl : o.line = lineOf sa) :
    completesWith (.decline f tag sa) s fun u => u.cache.offers = [] ∧ changesOnly [.cache, .links, .cnt] s u := by
  have he : exec (.decline f tag sa) s = execDecline f tag sa s := rfl
  have htook := took_takeRx (6 + f.val) 0x4B tag s
  rw [execDecline, if_neg (by rw [ha]; decide)] at he
  dsimp only at he
  generalize takeRx (6 + f.val) 0x4B tag s = t at he htook
  have hot : t.cache.offers = [o] := by rw [htook.cache]; exact ho
  rw [findOffer_one hot ht hl] at he
  dsimp only at he
  obtain ⟨h1, h2⟩ := declineOffer_spec hot
  generalize declineOffer o t = u at he h1 h2
  exact completesWith_answer he ⟨h1, changesOnly_answered.mpr
    (changesOnly_trans (changesOnly_mono htook.frame (by decide)) (changesOnly_mono h2 (by decide)))⟩

theorem offerTimeout_completes {tag : BitVec 12} {s : State} {o : Offer} (ho : s.cache.offers = [o]) (ht : o.tag = tag)
    (hd : due s o.since 10000 = true) :
    completesWith (.offerTimeout o.home tag) s fun u => u.cache.offers = [] ∧ changesOnly [.cache, .cnt] s u := by
  have he : exec (.offerTimeout o.home tag) s = execOfferTimeout o.home tag s := rfl
  have hfind : s.cache.offers.find? (fun x => x.home == o.home && x.tag == tag) = some o := by
    rw [ho, List.find?_cons_of_pos]
    rw [ht]
    simp
  rw [execOfferTimeout, hfind] at he
  dsimp only at he
  rw [if_pos hd] at he
  obtain ⟨h1, h2⟩ := declineOffer_spec ho
  generalize declineOffer o s = u at he h1 h2
  exact completesWith_answer he ⟨h1, changesOnly_answered.mpr h2⟩

/-! ## Error reports (R329) -/

/-- What an error report makes of a line: its valid, unpoisoned sectors are dirty. -/
def dirtied (m : Meta) : Meta := { m with sd := m.sd ||| (m.sv &&& ~~~m.sp) }

theorem dirtied_twice (m : Meta) : dirtied (dirtied m) = dirtied m := by
  unfold dirtied
  congr 1
  rw [BitVec.or_assoc, BitVec.or_self]

theorem metaAt_serrLine (key k : Nat) (s : State) : metaAt (serrLine key s) k = if k = key then dirtied (metaAt s k) else metaAt s k := by
  rw [serrLine, metaAt_setMeta]
  split
  next h => rw [h]; rfl
  next => rfl

/-- The lines of a report, each once or more. -/
theorem metaAt_serrLines (k : Nat) (ks : List Nat) (s : State) :
    metaAt (ks.foldl (fun t key => serrLine key t) s) k = if k ∈ ks then dirtied (metaAt s k) else metaAt s k := by
  induction ks generalizing s with
  | nil => rfl
  | cons key ks ih =>
    rw [List.foldl_cons, ih, metaAt_serrLine]
    by_cases hk : k = key
    · simp [hk, dirtied_twice]
    · simp [hk]

/-- A report changes only what the array notes of its lines. -/
theorem serrLines_only (ks : List Nat) (s : State) :
    ∃ l, ks.foldl (fun t key => serrLine key t) s = { s with cache := { s.cache with line := l } } := by
  induction ks generalizing s with
  | nil => exact ⟨s.cache.line, rfl⟩
  | cons key ks ih =>
    obtain ⟨l, hl⟩ := ih (serrLine key s)
    exact ⟨l, hl⟩

theorem serr_completes {f : Fin 2} {tag : BitVec 12} {s : State} {sa : Sa} {lines : BitVec 16} {etype : BitVec 8} {h : Half}
    (ha : portActive s (6 + f.val) = true) (hd : decodeSa s s.cur sa = .ok (.far h)) (hup : homeUp s h = true) (ht : etype.toNat ≤ 1) :
    completesWith (.serr f tag sa lines etype) s fun u =>
      sends (6 + f.val) (Frame.mk0 0x45 tag 0 sa 0) s u ∧ u.integ.shelf = true ∧
      u.log.tail = (if (s.log.tail - s.log.head).toNat < 64 then s.log.tail + 1 else s.log.tail) ∧ sameBytes s u ∧
      ∀ key ∈ residentIn s (lineOf sa).toNat (lines.toNat + 1),
        homeOf s s.cur (farSaOf (metaAt s key).tag key) = .ok (regionHalf (keyRegion key)) →
        (metaAt u key).sd = (metaAt s key).sd ||| ((metaAt s key).sv &&& ~~~(metaAt s key).sp) := by
  have he : exec (.serr f tag sa lines etype) s = execSerr f tag sa lines etype s := rfl
  have htook := took_takeRx (6 + f.val) 0x4C tag s
  rw [execSerr, if_neg (by rw [ha]; decide)] at he
  dsimp only at he
  have hst : serrStatus (takeRx (6 + f.val) 0x4C tag s) sa etype.toNat = stOk := by
    obtain ⟨l, hl⟩ := htook.only
    have hs : serrStatus (takeRx (6 + f.val) 0x4C tag s) sa etype.toNat = serrStatus s sa etype.toNat := by
      rw [hl]
      rfl
    rw [hs, serrStatus, hd]
    simp [hup, ht]
  rw [if_pos hst, hst] at he
  generalize takeRx (6 + f.val) 0x4C tag s = t at he htook
  have hres : residentIn t (lineOf sa).toNat (lines.toNat + 1) = residentIn s (lineOf sa).toNat (lines.toNat + 1) := by
    rw [residentIn, htook.cache]
    rfl
  have hmeta (k : Nat) : metaAt t k = metaAt s k := by
    obtain ⟨l, hl⟩ := htook.only
    rw [hl]
    rfl
  have hhome (v : Sa) : homeOf t t.cur v = homeOf s s.cur v := by
    obtain ⟨l, hl⟩ := htook.only
    rw [hl]
    rfl
  have hlog : t.log = s.log := htook.frame .log (by decide)
  have hdata : t.cache.data = s.cache.data := by rw [htook.cache]
  simp only [hmeta, hhome, hres] at he
  generalize hks : (residentIn s (lineOf sa).toNat (lines.toNat + 1)).filter _ = ks at he
  obtain ⟨l, hl⟩ := serrLines_only ks t
  have hy (k : Nat) := metaAt_serrLines k ks t
  generalize ks.foldl (fun t k => serrLine k t) t = y at he hl hy
  rw [shelfRecord] at he
  have htail := writeRec_tail (r := { Rec.mk0 8 6 (serrHalf t sa) with sa := some (lineOf sa), detail := BitVec.ofNat 128 (etype.toNat + lines.toNat * 256) })
    rfl (y.onInteg fun i => { i with shelf := true })
  have hframe := writeRec_frame { Rec.mk0 8 6 (serrHalf t sa) with sa := some (lineOf sa), detail := BitVec.ofNat 128 (etype.toNat + lines.toNat * 256) }
    (y.onInteg fun i => { i with shelf := true })
  generalize writeRec _ _ = w at he htail hframe
  have hwl : w.links = t.links := (hframe .links (by decide)).trans (by rw [hl]; rfl)
  have hlive : portLive w (6 + f.val) = true := by
    rw [portLive, port, hwl, ← port, htook.port]
    exact (portActive_states ha).1
  have hsend : sends (6 + f.val) (Frame.mk0 0x45 tag 0 sa 0) t (sendFrame (6 + f.val) (Frame.mk0 0x45 tag 0 sa 0) w) :=
    sends_congr (by simp only [link, hwl]) (by simp only [port, hwl]) rfl (sends_sendFrame hlive)
  have haux : ({ Frame.mk0 0x45 tag 0 sa 0 with aux := respAux stOk 0 false } : Frame) = Frame.mk0 0x45 tag 0 sa 0 :=
    congrArg (fun a => ({ Frame.mk0 0x45 tag 0 sa 0 with aux := a } : Frame)) (by decide : respAux stOk 0 false = 0)
  rw [haux] at he
  generalize Frame.mk0 0x45 tag 0 sa 0 = g at he hsend ⊢
  have hh := hands_sendFrame (6 + f.val) g w
  generalize sendFrame (6 + f.val) g w = u at he hsend hh
  obtain ⟨i, hi⟩ := hh.cache
  have hwc : w.cache = y.cache := hframe .cache (by decide)
  refine completesWith_answer he ⟨sends_congr rfl rfl (link_answered ..) (htook.sends hsend), ?_, ?_, ?_, ?_⟩
  · exact congrArg Integ.shelf ((hh.frame .integ (by decide)).trans (hframe .integ (by decide)))
  · have hylog : y.log = s.log := (congrArg State.log hl).trans hlog
    calc u.log.tail = w.log.tail := congrArg ErrLog.tail (hh.frame .log (by decide))
      _ = _ := htail
      _ = _ := by rw [show (y.onInteg fun i => { i with shelf := true }).log = s.log from hylog]
  · refine sameBytes_answered.mpr (sameBytes_of_data ?_)
    rw [hi, hwc, hl, ← hdata]
  · intro key hkey hhm
    have hin : key ∈ ks := by
      rw [← hks, List.mem_filter]
      exact ⟨hkey, by rw [hhm]; simp⟩
    have hm : metaAt u key = metaAt y key := by
      have hline : u.cache.line = y.cache.line := by rw [hi, hwc]
      have htab : u.tables = y.tables := (hh.frame .tables (by decide)).trans (hframe .tables (by decide))
      rw [metaAt, metaAt, metaDefault, metaDefault, region, region, hline, htab]
    rw [metaAt_answered, hm, hy, if_pos hin, hmeta, dirtied]

/-! ## A request without an answer (R318) -/

/-- The requests of a pool port that goes DOWN wait for a port, when the other one is not up. -/
theorem poolResend_one {f : Fin 2} {s : State} {q : PoolReq} (hp : s.cache.pool = [q]) (hf : q.port = some f)
    (ho : portActive s (6 + (1 - f.val)) = false) :
    poolResend f s = s.onCache fun c => { c with pool := [{ q with port := none }] } := by
  have hmine : s.cache.pool.filter (fun q => q.port = some f) = [q] := by
    rw [hp, List.filter_cons_of_pos (by simp [hf]), List.filter_nil]
  have hrest : s.cache.pool.filter (fun q => ¬ q.port = some f) = [] := by
    rw [hp, List.filter_cons_of_neg (by simp [hf]), List.filter_nil]
  have hother : (if f = 0 then (1 : Fin 2) else 0).val = 1 - f.val := by
    exact (by decide : ∀ f : Fin 2, (if f = 0 then (1 : Fin 2) else 0).val = 1 - f.val) f
  unfold poolResend
  simp only [hmine, hrest, List.foldl_cons, List.foldl_nil]
  have hact : portActive (s.onCache fun c => { c with pool := [] }) (6 + (if f = 0 then (1 : Fin 2) else 0).val) = false := by
    rw [hother]
    exact ho
  rw [hact]
  rfl

/-- A machine whose only request of the pool is no fill is calm. -/
theorem calm_setPool {s : State} {x : PoolReq} (hc : calm s = true) (hx : x.kind ≠ .fill) :
    calm (s.onCache fun c => { c with pool := [x] }) = true := by
  obtain ⟨h1, h2, h3, -, h5, h6⟩ := calm_iff.mp hc
  refine calm_iff.mpr ⟨h1, h2, h3, fun y hy => ?_, h5, h6⟩
  rw [List.mem_singleton.mp hy]
  exact fun h => hx h.1

theorem offersEnd_none {f : Fin 2} {s : State} (h : s.cache.offers = []) :
    ∃ k, offersEnd f s = { s with cnt := k } := by
  have hs : (s.onCache fun c => { c with offers := c.offers.filter fun o => ¬ o.port = f }) = s := by
    have he : s.cache.offers.filter (fun o => ¬ o.port = f) = s.cache.offers := by rw [h]; rfl
    exact congrArg (fun l => { s with cache := { s.cache with offers := l } }) he
  unfold offersEnd
  dsimp only
  rw [hs, cnt_only, cnt_only]
  exact ⟨_, rfl⟩

theorem shelfTimeout_completes {f : Fin 2} {tag : BitVec 12} {s : State} {q : PoolReq} (ha : portActive s (6 + f.val) = true)
    (hc : calm s = true) (hp : s.cache.pool = [q]) (ho : s.cache.offers = []) (hk : q.kind = .wb) (ht : q.tag = tag) (hf : q.port = some f)
    (hother : portActive s (6 + (1 - f.val)) = false) (hd : due s q.since 1000000 = true) :
    completesWith (.shelfResponseTimeout f tag) s fun u =>
      portIsDown (6 + f.val) s u ∧ u.cache.pool = [{ q with port := none }] ∧ sameBytes s u := by
  have he : exec (.shelfResponseTimeout f tag) s = execShelfResponseTimeout f tag s := rfl
  rw [execShelfResponseTimeout, findPool_one hp (by rw [hk]; decide) ht hf] at he
  dsimp only at he
  rw [if_pos ⟨ha, hd⟩] at he
  have hst : (port s (6 + f.val)).state ≠ 6 := (portActive_states ha).2
  have hdown : portDown (6 + f.val) s = poolResend f (offersEnd f (portLost (6 + f.val) s)) := by
    have hfin : (if 6 + f.val = 6 then (0 : Fin 2) else 1) = f := by
      exact (by decide : ∀ f : Fin 2, (if 6 + f.val = 6 then (0 : Fin 2) else 1) = f) f
    unfold portDown
    dsimp only
    rw [putPort_eq _ _ _ (.inl hst), if_neg (by omega), hfin]
    rfl
  have hframe : changesOnly [.links, .cnt] s (portLost (6 + f.val) s) := by simp [portLost]
  obtain ⟨hport, hports, hlink⟩ := portLost_spec (6 + f.val) s
  rw [hdown] at he
  generalize portLost (6 + f.val) s = t at he hframe hport hports hlink
  have htc : t.cache = s.cache := hframe .cache (by decide)
  obtain ⟨k, hoff⟩ := offersEnd_none (f := f) (s := t) (by rw [htc]; exact ho)
  have hact : portActive { t with cnt := k } (6 + (1 - f.val)) = false := by
    have hne : 6 + (1 - f.val) ≠ 6 + f.val := by omega
    have hpe : port { t with cnt := k } (6 + (1 - f.val)) = port s (6 + (1 - f.val)) := hports _ hne
    rw [portActive, hpe]
    exact hother
  rw [hoff, poolResend_one (s := { t with cnt := k }) (by rw [← hp, ← htc]) hf hact] at he
  have hcalm : calm (({ t with cnt := k } : State).onCache fun c => { c with pool := [{ q with port := none }] }) = true := by
    have htcalm : calm { t with cnt := k } = true := (calm_congr (s := s) htc (hframe .atu (by decide)) (hframe .buf (by decide))).trans hc
    exact calm_setPool htcalm (by rw [hk]; decide)
  have hdata : t.cache.data = s.cache.data := by rw [htc]
  rw [settle_calm hcalm] at he
  refine completesWith_answer he ⟨⟨⟨hport, hports⟩, hlink, ?_⟩, rfl, ?_⟩
  · rw [if_neg (by omega)]
    exact congrArg Cch.clrBusy (hframe .cch (by decide))
  · exact sameBytes_answered.mpr (sameBytes_of_data hdata)

/-! ## A fill (R121, R129, R292) -/

theorem metaAt_onlyCounts {s u : State} (h : onlyCounts s u) (k : Nat) : metaAt u k = metaAt s k := by
  obtain ⟨_, _, _, rfl⟩ := h
  rfl

/-- Handing frames to a port writes no line's entry. -/
theorem metaAt_handed {n : Nat} {s u : State} (h : Hands n s u) (k : Nat) : metaAt u k = metaAt s k := by
  obtain ⟨g, hg⟩ := h.cache
  have hline : u.cache.line = s.cache.line := by rw [hg]
  have htab : u.tables = s.tables := h.frame .tables (by decide)
  rw [metaAt, metaAt, metaDefault, metaDefault, region, region, hline, htab]

theorem finishInvs_none {s : State} (h : s.cache.invs = []) : finishInvs s = s := by rw [finishInvs, h]; rfl

/-- A register whose last sector has come serves its only read, and is free. -/
theorem serveWaiters_read {w : State} {x : Mshr} {r : LineReq} (hf : x.fetch = 0) (hx : x.waiters = [r]) (hop : r.op = .read .line none false)
    (hi : w.cache.invs = []) (hsv : (metaAt w x.key).sv = 15) (hclean : rowClean w x.key = true)
    (hm : (serveRead r none false x.key w).cache.mshr = [x]) :
    serveWaiters 18 x w = (serveRead r none false x.key w).onCache fun c => { c with mshr := [] } := by
  have hrow : checkRow 1 x.key w = w := checkRow_clean 1 hclean rfl
  have hline : atLine r x.key w = (true, serveRead r none false x.key w) := by simp only [atLine, hop]
  have hgo : ¬ (invBusy w x.key = true ∨ touchedSectors r.op r.sa &&& x.fetch ≠ 0 ∨ reqSectors r.op r.sa &&& ~~~(metaAt w x.key).sv ≠ 0) := by
    rw [hf, hsv, invBusy, hi]
    simp
  rw [show (18 : Nat) = 17 + 1 from rfl, serveWaiters, hx]
  dsimp only
  rw [if_neg hgo, hrow, wasReset_self, if_neg (by decide), hline, if_pos rfl, hop]
  dsimp only
  rw [if_neg (by decide)]
  generalize serveRead r none false x.key w = a at hm
  have hput : putMshr { x with waiters := [] } a = a.onCache fun c => { c with mshr := [{ x with waiters := [] }] } := by
    have hl : a.cache.mshr.map (fun y => if y.home = x.home ∧ y.line = x.line then { x with waiters := [] } else y) = [{ x with waiters := [] }] := by
      rw [hm, List.map_cons, if_pos ⟨rfl, rfl⟩, List.map_nil]
    exact congrArg (fun l => { a with cache := { a.cache with mshr := l } }) hl
  rw [hput, show (17 : Nat) = 16 + 1 from rfl, serveWaiters]
  dsimp only
  rw [if_pos hf]
  have hgone : [{ x with waiters := [] }].filter (fun y => !(y.home == x.home && y.line == x.line)) = [] := by simp
  exact congrArg (fun l => { a with cache := { a.cache with mshr := l } }) hgone

/-- A machine whose only work is one miss register settles with what its waiters get. -/
theorem settle_serves {w u : State} {x : Mshr} (hm : w.cache.mshr = [x]) (hev : x.evicting = false)
    (hp : ∀ q ∈ w.cache.pool, ¬ (q.kind = .fill ∧ q.port.isNone = true)) (hi : w.cache.invs = []) (hs : serveWaiters 18 x w = u)
    (hc : calm u = true) : settle w = u := by
  obtain ⟨ub, um, ui, up, ua, uf⟩ := calm_iff.mp hc
  have hfind : mshrOf w x.home x.line = some x := by
    rw [mshrOf, hm, List.find?_cons_of_pos]
    simp
  have hpump : pumpMshrs w = u := by
    rw [pumpMshrs, hm, List.foldl_cons, List.foldl_nil, hfind]
    dsimp only
    rw [hev, if_neg (by decide), hs]
  have hround : settleRound w = u := by rw [settleRound, pumpPool_none hp, finishInvs_none hi, hpump, pumpBlocked_none ub]
  have hnot : quiet w = false := by simp [quiet, hm]
  have hall : settleAll w = u := by
    rw [settleAll, show ∀ n, 6 + 3 * n = (5 + 3 * n) + 1 from fun n => by omega, settleN, hnot, hround]
    refine settleN_quiet _ ?_
    simp only [calm, Bool.and_eq_true] at hc
    exact hc.1.1
  simp [settle, hall, ua, uf]

/-- A whole line comes in: every bit of the data is replaced. -/
theorem sectorBits_all : sectorBits 15 = BitVec.allOnes 1024 := by decide +kernel

/-- What a whole, unspoiled fill makes of its line and of its register. -/
structure Filled (x : Mshr) (data : BitVec 1024) (s w : State) : Prop where
  data : w.cache.data = (setData s x.key data).cache.data
  sv : (metaAt w x.key).sv = 15
  sp : (metaAt w x.key).sp = 0
  mshr : w.cache.mshr = [{ x with fetch := 0 }]
  clean : rowClean w x.key = true
  links : w.links = s.links
  pool : w.cache.pool = s.cache.pool
  calm : calm (w.onCache fun c => { c with mshr := [] }) = calm (s.onCache fun c => { c with mshr := [] })

theorem withCrc_valid (m : Meta) (d : BitVec 1024) (line : Sa) : (withCrc m d line).sv = m.sv ∧ (withCrc m d line).sp = m.sp := by
  unfold withCrc
  split <;> exact ⟨rfl, rfl⟩

theorem calm_served {s u : State} (h1 : u.cache.blocked = s.cache.blocked) (h2 : u.cache.invs = s.cache.invs)
    (h3 : u.cache.pool = s.cache.pool) (h4 : addlsIdle u = addlsIdle s) (h5 : u.buf.frees = s.buf.frees) :
    calm (u.onCache fun c => { c with mshr := [] }) = calm (s.onCache fun c => { c with mshr := [] }) := by
  have ha (t : State) : addlsIdle (t.onCache fun c => { c with mshr := [] }) = addlsIdle t := rfl
  simp only [calm, ha, h4]
  simp only [quiet, State.onCache, h1, h2, h3, h5]

theorem storeFill_filled {s : State} {x : Mshr} {data : BitVec 1024} (hm : s.cache.mshr = [x]) (hf : x.fetch = 15)
    (hclean : rowClean s x.key = true) (harm : s.integ.injArm = false) : Filled x data s (storeFill x 15 0 data s) := by
  have hd : (lineData s x.key &&& ~~~sectorBits 15) ||| (data &&& sectorBits 15) = data := by
    rw [sectorBits_all, BitVec.not_allOnes, BitVec.and_zero, BitVec.zero_or, BitVec.and_allOnes]
  have hx : ({ x with fetch := x.fetch &&& ~~~(15 : BitVec 4) } : Mshr) = { x with fetch := 0 } := by rw [hf]; rfl
  have hsv : (metaAt s x.key).sv ||| 15 = 15 := by
    generalize (metaAt s x.key).sv = b
    revert b
    decide
  have hsp : ((metaAt s x.key).sp &&& ~~~(15 : BitVec 4)) ||| ((0 : BitVec 4) &&& 15) = 0 := by
    generalize (metaAt s x.key).sp = b
    revert b
    decide
  unfold storeFill
  dsimp only
  rw [hd, hx, hsv, hsp]
  have hmeta := metaAt_storeLine (key := x.key) (line := x.line) (d := data) (m := { metaAt s x.key with sv := 15, sp := 0 }) harm
  obtain ⟨hw, hdata, hatu⟩ := wrote_storeLine x.key x.line data { metaAt s x.key with sv := 15, sp := 0 } harm
  obtain ⟨hv, hp⟩ := withCrc_valid { metaAt s x.key with sv := 15, sp := 0 } data x.line
  generalize storeLine x.key x.line data { metaAt s x.key with sv := 15, sp := 0 } s = y at hmeta hw hdata hatu
  obtain ⟨_, _, ec, _, hyc⟩ := hw.cache
  have hput : putMshr { x with fetch := 0 } y = y.onCache fun c => { c with mshr := [{ x with fetch := 0 }] } := by
    have hl : y.cache.mshr.map (fun z => if z.home = x.home ∧ z.line = x.line then { x with fetch := 0 } else z) = [{ x with fetch := 0 }] := by
      rw [hyc]
      dsimp only
      rw [hm, List.map_cons, if_pos ⟨rfl, rfl⟩, List.map_nil]
    exact congrArg (fun l => { y with cache := { y.cache with mshr := l } }) hl
  rw [hput, chargeOwn]
  have hc := onlyCounts_charge x.home none (y.onCache fun c => { c with mshr := [{ x with fetch := 0 }] })
  generalize charge x.home none (y.onCache fun c => { c with mshr := [{ x with fetch := 0 }] }) = w at hc
  obtain ⟨_, _, _, rfl⟩ := hc
  refine ⟨hdata, (congrArg Meta.sv hmeta).trans hv, (congrArg Meta.sp hmeta).trans hp, rfl, ?_, hw.frame .links (by decide), ?_, ?_⟩
  · exact List.all_eq_true.mpr fun e he => List.all_eq_true.mp hclean e (hw.ecc e he)
  · show y.cache.pool = s.cache.pool
    rw [hyc]
  · have h1 : y.cache.blocked = s.cache.blocked := by rw [hyc]
    have h2 : y.cache.invs = s.cache.invs := by rw [hyc]
    have h3 : y.cache.pool = s.cache.pool := by rw [hyc]
    exact calm_served h1 h2 h3 hw.idle (congrArg Buf.frees (hw.frame .buf (by decide)))

/-- A whole fill serves the read that waits for it, and frees the register. -/
theorem fill_completes {f : Fin 2} {tag tg : BitVec 12} {sa : Sa} {s : State} {q : PoolReq} {x : Mshr} {r : LineReq} {p : PartnerPort}
    {c : Fin 4} {data : BitVec 1024} (ha : portActive s (6 + f.val) = true) (hpa : portActive s p.val = true) (hp : s.cache.pool = [q])
    (hk : q.kind = .fill) (ht : q.tag = tag) (hf : q.port = some f) (hw : q.who = .mshr) (hmask : q.mask = 15)
    (hl : lineOf q.line = lineOf sa) (hm : s.cache.mshr = [x]) (hxh : x.home = q.home) (hxl : x.line = q.line) (hev : x.evicting = false)
    (hfetch : x.fetch = 15) (hwait : x.waiters = [r]) (hop : r.op = .read .line none false) (hwho : r.who = .port p c tg)
    (hc : calm (s.onCache fun k => { k with mshr := [], pool := [] }) = true) (hclean : rowClean s x.key = true)
    (harm : s.integ.injArm = false) :
    completesWith (.filld f tag sa 0 0 15 none data) s fun u =>
      lineData u x.key = data ∧ sameBytesBut x.key s u ∧ (metaAt u x.key).sv = 15 ∧ (metaAt u x.key).sp = 0 ∧
      u.cache.mshr = [] ∧ u.cache.pool = [] ∧
      sends p.val (rsp { port := p, cls := c, tag := tg, part := r.part, sa := r.sa } 0 false (toBytes 128 data.toNat)) s u := by
  have he : exec (.filld f tag sa 0 0 15 none data) s = execFilld f tag sa 0 0 15 none data s := rfl
  have htook := took_takeRx (6 + f.val) 0x48 tag s
  rw [execFilld, if_neg (by rw [ha]; decide)] at he
  dsimp only at he
  generalize takeRx (6 + f.val) 0x48 tag s = t at he htook
  have hpt : t.cache.pool = [q] := by rw [htook.cache]; exact hp
  rw [findPool_one hpt (by rw [hk]; decide) ht hf] at he
  dsimp only at he
  rw [if_pos hl, fillArrive, dropPool_one hpt] at he
  have htm : t.cache.mshr = [x] := by rw [htook.cache]; exact hm
  have htclean : rowClean t x.key = true := by
    rw [rowClean, htook.cache]
    exact hclean
  have htarm : t.integ.injArm = false := by rw [htook.frame .integ (by decide)]; exact harm
  have htd : t.cache.data = s.cache.data := by rw [htook.cache]
  have htc : calm ((t.onCache fun c => { c with pool := [] }).onCache fun c => { c with mshr := [] }) = true := by
    obtain ⟨_, rfl⟩ := htook.only
    exact hc
  have hfill := storeFill_filled (s := t.onCache fun c => { c with pool := [] }) (data := data) htm hfetch htclean htarm
  have hdel : deliverFill q 15 0 data (t.onCache fun c => { c with pool := [] }) = storeFill x 15 0 data (t.onCache fun c => { c with pool := [] }) := by
    have hfind : mshrOf (t.onCache fun c => { c with pool := [] }) q.home q.line = some x := by
      rw [mshrOf, show (t.onCache fun c => { c with pool := [] }).cache.mshr = [x] from htm, List.find?_cons_of_pos]
      rw [hxh, hxl]
      simp
    rw [deliverFill, hw]
    dsimp only
    rw [hfind]
  have hwhole : (15 : BitVec 4) &&& q.mask = q.mask := by rw [hmask]; rfl
  simp only [show ¬ (0 : BitVec 8).toNat ≠ 0 by decide, if_false, Option.isSome_none, Bool.false_eq_true, false_and, hwhole, if_true] at he
  rw [hmask, hdel] at he
  have hlinks : (t.onCache fun c => { c with pool := [] }).links = t.links := rfl
  have hdata : (t.onCache fun c => { c with pool := [] }).cache.data = s.cache.data := htd
  have hpool : (t.onCache fun c => { c with pool := [] }).cache.pool = [] := rfl
  generalize (t.onCache fun c => { c with pool := [] }) = y at he hfill htc hlinks hdata hpool
  generalize storeFill x 15 0 data y = w at he hfill
  have hcw : calm (w.onCache fun c => { c with mshr := [] }) = true := hfill.calm.trans htc
  have hi : w.cache.invs = [] := (calm_iff.mp hcw).2.2.1
  obtain ⟨v0, hv0, hread, hmeta⟩ := serveRead_work r none false x.key w
  obtain ⟨v, hv, hans⟩ := answerReq_read_port (m := { port := p, cls := c, tag := tg, part := r.part, sa := r.sa }) hop hwho rfl rfl
    (x := readRes none x.key w) rfl hfill.sp (some x.key) v0
  have hline : lineData w x.key = data := lineData_stored hfill.data
  have hbytes : spanBytes .line r.sa (readRes none x.key w).data = toBytes 128 data.toNat := by
    rw [readRes, hline]
    rfl
  have huntrk : (readRes none x.key w).untrk = false := rfl
  dsimp only at hans
  rw [hans, hbytes, huntrk] at hread
  have hvw : v.cache.mshr = w.cache.mshr ∧ v.cache.invs = w.cache.invs ∧ v.cache.blocked = w.cache.blocked ∧ v.cache.pool = w.cache.pool ∧
      v.cache.data = w.cache.data ∧ v.links = w.links ∧ addlsIdle v = addlsIdle w ∧ v.buf = w.buf ∧ (∀ k, metaAt v k = metaAt v0 k) := by
    have hm := metaAt_onlyCounts hv
    obtain ⟨_, _, _, rfl⟩ := hv
    obtain ⟨_, _, _, _, _, _, _, rfl⟩ := hv0
    exact ⟨rfl, rfl, rfl, rfl, rfl, rfl, rfl, rfl, hm⟩
  obtain ⟨v1, v2, v3, v4, v5, v6, v7, v8, v9⟩ := hvw
  have hsend : sends p.val (rsp { port := p, cls := c, tag := tg, part := r.part, sa := r.sa } 0 false (toBytes 128 data.toNat)) s
      (sendFrame p.val (rsp { port := p, cls := c, tag := tg, part := r.part, sa := r.sa } 0 false (toBytes 128 data.toNat)) v) := by
    have hvt : v.links = t.links := v6.trans (hfill.links.trans hlinks)
    have hlive : portLive v p.val = true := by
      rw [portLive, port, hvt, ← port, htook.port]
      exact (portActive_states hpa).1
    exact htook.sends (sends_congr (s := v) (by simp only [link, hvt]) (by simp only [port, hvt]) rfl (sends_sendFrame hlive))
  generalize rsp _ 0 false (toBytes 128 data.toNat) = g at hread hsend ⊢
  have hh := hands_sendFrame p.val g v
  have hcache := hh.cache_eq (v2.trans hi)
  have hbuf : (sendFrame p.val g v).buf = v.buf := hh.frame .buf (by decide)
  have hatu : (sendFrame p.val g v).atu = v.atu := hh.frame .atu (by decide)
  have ham (k : Nat) := metaAt_handed hh k
  have hserve := serveWaiters_read (w := w) (x := { x with fetch := 0 }) rfl hwait hop hi hfill.sv hfill.clean
    (by rw [hread, hcache, v1]; exact hfill.mshr)
  dsimp only at hserve
  rw [hread] at hserve
  generalize sendFrame p.val g v = a at hread hsend hcache hbuf hatu ham hserve
  have hidle : addlsIdle a = addlsIdle w := by rw [← v7, addlsIdle, addlsIdle, hatu]
  have hcalm : calm (a.onCache fun c => { c with mshr := [] }) = true :=
    (calm_served (s := w) (by rw [hcache, v3]) (by rw [hcache, v2]) (by rw [hcache, v4]) hidle (by rw [hbuf, v8])).trans hcw
  rw [settle_serves hfill.mshr hev (calm_iff.mp hcw).2.2.2.1 hi hserve hcalm] at he
  have had : a.cache.data = w.cache.data := by rw [hcache, v5]
  have ha' (k : Nat) : metaAt (a.onCache fun c => { c with mshr := [] }) k = metaAt v0 k := (ham k).trans (v9 k)
  refine completesWith_answer he ⟨?_, fun b hb => ?_, ?_, ?_, rfl, ?_, sends_congr rfl rfl (link_answered ..) hsend⟩
  · exact lineData_stored (s := y) (had.trans hfill.data)
  · show memByte a.cache.data b = _
    rw [had, hfill.data, memByte_setData_outside _ _ _ hb, hdata]
  · rw [metaAt_answered, ha', hmeta.sv, hfill.sv]
  · rw [metaAt_answered, ha', hmeta.sp, hfill.sp]
  · show a.cache.pool = []
    rw [hcache, v4, hfill.pool, hpool]

/-- Settles O35: each response, acknowledgement and limit of the shelf, by the request that it answers. -/
theorem shelfResponses : Obligations.ShelfResponses := by
  refine ⟨?_, ?_, ?_⟩
  · intro f tag tg sa s q x r p c data ha hpa hp hk ht hf hw hmask _ hl hm hxh hxl hev hfetch hwait hop hwho hc hclean harm
    exact fill_completes ha hpa hp hk ht hf hw hmask hl hm hxh hxl hev hfetch hwait hop hwho hc hclean harm
  · intro f tag tg sa s ha
    refine ⟨fun q r p c mask d hc hp hk ht hf hw hop hwho hl hpa => ⟨fun hdone => ?_, fun hv hrest => ?_⟩,
      fun o g hc ho ht hl hp hcrc hg => accept_completes ha hc ho ht hl hp hcrc hg,
      fun o ho ht => ⟨fun hl => decline_completes ha ho ht hl, fun hd => offerTimeout_completes ho ht hd⟩⟩
    · exact wack_answers ha hc hp hk ht hf hw hop hwho hl hpa hdone
    · exact wack_sends ha hc hp hk ht hf hw hop hl hv hrest
  · intro f tag s ha
    exact ⟨fun sa lines etype h hd hup ht => serr_completes ha hd hup ht,
      fun q hc hp ho hk ht hf hother hd => shelfTimeout_completes ha hc hp ho hk ht hf hother hd⟩

end Sys2Proof.Machine
end


section
/-! PROOFS. Line operations of the plow, and the end of its commands (R150 to R154, R170). -/

namespace Sys2Proof.Machine

open Sys2Proof.Safety

/-! ## A line's entry -/

/-- The entry of line `key` is m, and no other entry and no byte has changed. -/
theorem lineMarked_setMeta {s t : State} {key : Nat} {m : Meta} (hm : ∀ k, metaAt t k = metaAt s k) (hd : t.cache.data = s.cache.data) :
    lineMarked key m s (setMeta t key m) := by
  refine ⟨?_, fun k hk => ?_, sameBytes_of_data hd⟩
  · rw [metaAt_setMeta, if_pos rfl]
  · rw [metaAt_setMeta, if_neg hk, hm]

theorem lineMarked_answered {key : Nat} {m : Meta} {s u t : State} : lineMarked key m s (answered t u) ↔ lineMarked key m s u := by
  simp only [lineMarked, metaAt_answered, sameBytes_answered]

/-! ## A line operation (R150) -/

/-- The head of the queue without a line that it has processed. -/
def without (key : Nat) (c : PlowCmd) : PlowCmd :=
  { c with workE := c.workE.filter (fun k => !(k == key)), workW := c.workW.filter (fun k => !(k == key)) }

theorem without_spec (key : Nat) (c : PlowCmd) : key ∉ (without key c).workE ∧ key ∉ (without key c).workW ∧ (without key c).op = c.op := by
  refine ⟨?_, ?_, rfl⟩ <;> simp [without]

/-- The line step of a running command: the line leaves the lists, and its operation is done. -/
theorem plowLineStep_runs {h : Half} {key : Nat} {s : State} {c : PlowCmd} {cs : List PlowCmd} (hplow : s.cch.plow = c :: cs)
    (hst : c.started = true) (hin : key ∈ h.pick c.workE c.workW) (hd1 : domRuns s (h.pick 3 4) = true) (hd2 : domRuns s (h.pick 5 6) = true)
    (hw : warmFenced s = false) (hc : calm s = true) (hclean : rowClean s key = true) (hscope : c.scope = 2) (hsv : (metaAt s key).sv ≠ 0)
    (hpin : (metaAt s key).pinned = false) (hrep : (metaAt s key).replica = false) (hport : (poolPort s (saOf s key)).isSome = true)
    (hop : 1 ≤ c.op.toNat ∧ c.op.toNat ≤ 5) :
    exec (.plowLineStep h key) s = answer s (settle (plowLine c h key (setHead (without key c) s))) := by
  have he : exec (.plowLineStep h key) s = execPlowLineStep h key s := rfl
  have hstart : plowStart s = s := by
    rw [plowStart, hplow]
    dsimp only
    rw [if_pos hst]
  have hfence : plowFenced s = false := by rw [plowFenced, hw]; rfl
  obtain ⟨hb, hm, hi, -, -, -⟩ := calm_iff.mp hc
  have hheld : held s key = false := by simp [held, hb, hm, hi]
  have hbusy : invBusy s key = false := by simp [invBusy, hi]
  have hwb : wbWaits s key = false := by
    rw [wbWaits]
    have hnone : (poolPort s (saOf s key)).isNone = false := by
      rw [← Option.not_isSome, hport]
      rfl
    rw [hnone, Bool.and_false]
  have hgo : c.started = true ∧ (h.pick c.workE c.workW).contains key = true ∧ domRuns s (h.pick 3 4) = true ∧ domRuns s (h.pick 5 6) = true ∧
      (!held s key) = true ∧ (!invBusy s key) = true ∧ (!(c.op.toNat == opClean && wbWaits s key)) = true := by
    refine ⟨hst, List.contains_iff_mem.mpr hin, hd1, hd2, ?_, ?_, ?_⟩
    · rw [hheld]; rfl
    · rw [hbusy]; rfl
    · rw [hwb, Bool.and_false]; rfl
  have hrow : rowClean (setHead (without key c) s) key = true := hclean
  have htodo : plowTodo (setHead (without key c) s) c key = true := by
    have hmeta : metaAt (setHead (without key c) s) key = metaAt s key := rfl
    rw [plowTodo, if_neg (show ¬ c.op.toNat = opEntry by rw [opEntry]; omega), if_neg (show ¬ c.op.toNat = opRegion by rw [opRegion]; omega), plowInScope,
      hmeta, hscope, hpin, hrep, if_neg (by decide), if_neg (by decide)]
    simpa using hsv
  rw [he, execPlowLineStep, hfence, if_neg (by decide), hstart, settle_calm hc]
  dsimp only
  rw [hplow]
  dsimp only
  rw [if_pos hgo]
  change answer s (if plowTodo (setHead (without key c) s) c key = true then
    if wasReset (setHead (without key c) s) (checkRow 8 key (setHead (without key c) s)) = true then _
    else if plowTodo (checkRow 8 key (setHead (without key c) s)) c key = true then
      settle (plowLine c h key (checkRow 8 key (setHead (without key c) s)))
    else _ else _) = _
  rw [if_pos htodo, checkRow_clean 8 hrow rfl, wasReset_self, if_neg (by decide), if_pos htodo]

/-! ## A writeback -/

theorem metaAt_poolSend (q : PoolReq) (s : State) (k : Nat) : metaAt (poolSend q s) k = metaAt s k := by
  unfold poolSend
  split
  · exact metaAt_handed (hands_sendFrame ..) k
  · rfl

theorem poolSend_frame (q : PoolReq) (s : State) : changesOnly [.links, .cache, .cnt] s (poolSend q s) := by
  unfold poolSend
  split
  · rw [poolIssue]
    exact changesOnly_trans (by simp) (hands_sendFrame ..).frame
  · simp

/-- A tag is free when nothing is outstanding. -/
theorem freshTag_free (n : BitVec 12) : freshTag n (fun _ => false) = n := by
  have h0 : (List.range 4096).find? (fun _ => !false) = some 0 := List.find?_range_eq_some.mpr ⟨rfl, by simp, fun j hj => absurd hj (by omega)⟩
  rw [freshTag, h0]
  exact BitVec.add_zero n

theorem poolTag_free {s : State} (hp : s.cache.pool = []) (ho : s.cache.offers = []) :
    poolTag s = (s.cache.poolTag, s.onCache fun c => { c with poolTag := s.cache.poolTag + 1 }) := by
  have hbusy : (fun x => s.cache.pool.any (fun q => q.tag == x) || s.cache.offers.any fun o => o.tag == x) = fun _ => false := by
    rw [hp, ho]
    rfl
  rw [poolTag, hbusy, freshTag_free]

/-- The frame that writes the dirty sectors of a line back. -/
def wbFrame (tag : BitVec 12) (m : Meta) (line : Sa) (d : BitVec 1024) : Frame :=
  { Frame.mk0 0x41 tag m.part line 2 with
    aux := pack 32 [(0, m.sd.toNat), (4, (m.sp &&& m.sd).toNat), (8, b2n (crcIf m).isSome)], chk := (crcIf m).isSome,
    data := sectorBytes m.sd d ++ crcBytes (crcIf m) }

/-- What a writeback does in a calm machine with nothing outstanding: its frame is with its port. -/
structure WrittenBack (g : Nat) (f : Frame) (s u : State) : Prop where
  calm : calm u = true
  data : u.cache.data = s.cache.data
  metas : ∀ k, metaAt u k = metaAt s k
  sent : sends g f s u
  one : u.cache.pool.length = 1
  cch : u.cch = s.cch

theorem writeBack_written {h : Half} {key : Nat} {line : Sa} {g : Fin 2} {s : State} (hc : calm s = true) (hp : s.cache.pool = [])
    (ho : s.cache.offers = []) (hg : poolPort s line = some g) :
    WrittenBack (6 + g.val) (wbFrame s.cache.poolTag (metaAt s key) line (lineData s key)) s (writeBack h key line s) := by
  have hcount := onlyCounts_charge h none s
  unfold writeBack
  dsimp only
  rw [chargeOwn]
  have hfacts : calm (charge h none s) = true ∧ (charge h none s).cache = s.cache ∧ (charge h none s).links = s.links ∧
      (charge h none s).cch = s.cch := by
    refine ⟨(onlyCounts_calm hcount).trans hc, ?_⟩
    obtain ⟨_, _, _, hu⟩ := hcount
    rw [hu]
    exact ⟨rfl, rfl, rfl⟩
  have hmeta := metaAt_onlyCounts hcount
  generalize charge h none s = t at hfacts hmeta ⊢
  obtain ⟨hct, htc, htl, htcch⟩ := hfacts
  rw [sendWb, poolTag_free (by rw [htc, hp]) (by rw [htc, ho]), htc]
  dsimp only
  have hy : calm (t.onCache fun c => { c with poolTag := s.cache.poolTag + 1 }) = true := hct
  have hyg : poolPort (t.onCache fun c => { c with poolTag := s.cache.poolTag + 1 }) line = some g := by
    exact (poolPort_congr (s := s) (congrArg Links.port htl) (congrArg Links.split htl) line).trans hg
  have hyp : (t.onCache fun c => { c with poolTag := s.cache.poolTag + 1 }).cache.pool = [] := by
    show t.cache.pool = []
    rw [htc, hp]
  have hyd : (t.onCache fun c => { c with poolTag := s.cache.poolTag + 1 }).cache.data = s.cache.data := by
    show t.cache.data = _
    rw [htc]
  have hym (k : Nat) : metaAt (t.onCache fun c => { c with poolTag := s.cache.poolTag + 1 }) k = metaAt s k := hmeta k
  have hyl : (t.onCache fun c => { c with poolTag := s.cache.poolTag + 1 }).links = s.links := htl
  have hycch : (t.onCache fun c => { c with poolTag := s.cache.poolTag + 1 }).cch = s.cch := htcch
  generalize (t.onCache fun c => { c with poolTag := s.cache.poolTag + 1 }) = y at hy hyg hyp hyd hym hyl hycch ⊢
  have hframe : poolFrame { PoolReq.mk0 .wb h s.cache.poolTag line (metaAt s key).part .none with
      aux := pack 32 [(0, (metaAt s key).sd.toNat), (4, ((metaAt s key).sp &&& (metaAt s key).sd).toNat), (8, b2n (crcIf (metaAt s key)).isSome)],
      mask := (metaAt s key).sd, data := lineData s key, lcrc := crcIf (metaAt s key) } =
      wbFrame s.cache.poolTag (metaAt s key) line (lineData s key) := rfl
  generalize hq : ({ PoolReq.mk0 .wb h s.cache.poolTag line (metaAt s key).part .none with aux := _, mask := _, data := _, lcrc := _ } : PoolReq) = q
    at hframe ⊢
  have hql : q.line = line := by rw [← hq]; rfl
  obtain ⟨h1, h2, -, h4, h5, -⟩ := poolSend_spec (q := q) (by rw [hql]; exact hyg) hy
  have h6 := metaAt_poolSend q y
  have h7 : (poolSend q y).cch = y.cch := poolSend_frame q y .cch (by decide)
  rw [hframe] at h5
  generalize poolSend q y = z at h1 h2 h4 h5 h6 h7 ⊢
  have hz := onlyCounts_cnt 0x00F (some h) (some (metaAt s key).part) (popcount (metaAt s key).sd) z
  generalize cnt 0x00F (some h) (some (metaAt s key).part) (popcount (metaAt s key).sd) z = u at hz ⊢
  have hzm := metaAt_onlyCounts hz
  have hs := sends_counts (sends_congr (s' := s) (by simp only [link, hyl]) (by simp only [port, hyl]) rfl h5) hz
  refine ⟨(onlyCounts_calm hz).trans h4, ?_, fun k => ?_, hs, ?_, ?_⟩
  · obtain ⟨_, _, _, rfl⟩ := hz
    exact h2.trans hyd
  · rw [hzm, h6, hym]
  · obtain ⟨_, _, _, rfl⟩ := hz
    show z.cache.pool.length = 1
    rw [h1, hyp]
    rfl
  · obtain ⟨_, _, _, rfl⟩ := hz
    exact h7.trans hycch

/-! ## The five operations on a line -/

theorem prefEnded_if_only (b : Bool) (h : Half) (p : Part) (useful : Bool) (s : State) :
    ∃ l c, (if b then prefEnded h p useful s else s) = { s with loops := l, cnt := c } := by
  split
  · rw [prefEnded, cnt_only]
    exact ⟨_, _, rfl⟩
  · exact ⟨_, _, rfl⟩

/-- The state in which the operation of a line step is done. -/
structure Stepping (key : Nat) (c : PlowCmd) (cs : List PlowCmd) (s t : State) : Prop where
  cache : t.cache = s.cache
  links : t.links = s.links
  tables : t.tables = s.tables
  calm : calm t = true
  plow : t.cch.plow = without key c :: cs
  sa : saOf t key = saOf s key

theorem stepping {h : Half} {key : Nat} {s : State} {c : PlowCmd} {cs : List PlowCmd} (hplow : s.cch.plow = c :: cs) (hc : calm s = true) :
    Stepping key c cs s (chargePlow h (cnt 0x018 (some h) none 1 (setHead (without key c) s))) := by
  have hx : (setHead (without key c) s).cch.plow = without key c :: cs := by
    show without key c :: s.cch.plow.tail = _
    rw [hplow]
    rfl
  have hxc : calm (setHead (without key c) s) = true := hc
  have hcount : onlyCounts (setHead (without key c) s) (chargePlow h (cnt 0x018 (some h) none 1 (setHead (without key c) s))) :=
    onlyCounts_trans (onlyCounts_cnt ..) (onlyCounts_arbitrate ..)
  generalize chargePlow h _ = t at hcount
  have htc := (onlyCounts_calm hcount).trans hxc
  obtain ⟨_, _, _, rfl⟩ := hcount
  exact ⟨rfl, rfl, rfl, htc, hx, rfl⟩

theorem Stepping.metas {key : Nat} {c : PlowCmd} {cs : List PlowCmd} {s t : State} (h : Stepping key c cs s t) (k : Nat) :
    metaAt t k = metaAt s k := metaAt_congr h.cache h.tables k

theorem Stepping.loops {key : Nat} {c : PlowCmd} {cs : List PlowCmd} {s t : State} (h : Stepping key c cs s t) (l : Loops) (k : Cnt) :
    Stepping key c cs s { t with loops := l, cnt := k } := ⟨h.cache, h.links, h.tables, h.calm, h.plow, h.sa⟩

/-- The writeback of the line of a step. -/
theorem writeBack_of_stepping {h : Half} {key : Nat} {c : PlowCmd} {cs : List PlowCmd} {s t : State} {g : Fin 2} (ht : Stepping key c cs s t)
    (hp : s.cache.pool = []) (ho : s.cache.offers = []) (hg : poolPort s (saOf s key) = some g) :
    let f := wbFrame s.cache.poolTag (metaAt s key) (saOf s key) (lineData s key)
    WrittenBack (6 + g.val) f t (writeBack h key (saOf s key) t) ∧ sends (6 + g.val) f s (writeBack h key (saOf s key) t) := by
  have hw := writeBack_written (h := h) (key := key) (line := saOf s key) (g := g) ht.calm (by rw [ht.cache, hp]) (by rw [ht.cache, ho])
    ((poolPort_congr (congrArg Links.port ht.links) (congrArg Links.split ht.links) _).trans hg)
  rw [ht.metas, ht.cache, show lineData t key = lineData s key by rw [lineData, lineData, ht.cache]] at hw
  exact ⟨hw, sends_congr (by simp only [link, ht.links]) (by simp only [port, ht.links]) rfl hw.sent⟩

/-- The queue and the bytes that a line step leaves. -/
def stepped (key : Nat) (c : PlowCmd) (cs : List PlowCmd) (s u : State) : Prop :=
  sameBytes s u ∧ ∃ d, u.cch.plow = d :: cs ∧ key ∉ d.workE ∧ key ∉ d.workW ∧ d.op = c.op

theorem stepped_answered {key : Nat} {c : PlowCmd} {cs : List PlowCmd} {s u t : State} (hp : u.cch.plow = without key c :: cs)
    (hb : sameBytes s u) : stepped key c cs s (answered t u) := by
  obtain ⟨h1, h2, h3⟩ := without_spec key c
  exact ⟨sameBytes_answered.mpr hb, without key c, hp, h1, h2, h3⟩

theorem clearLine_spec (key : Nat) (s : State) :
    (metaAt (clearLine key s) key).sv = 0 ∧ (metaAt (clearLine key s) key).sd = 0 ∧ (clearLine key s).cache.data = s.cache.data ∧
      (clearLine key s).cache.pool = s.cache.pool ∧ (clearLine key s).links = s.links ∧ (clearLine key s).cch = s.cch ∧
      calm (clearLine key s) = calm s := by
  unfold clearLine
  rw [metaAt_setMeta, if_pos rfl]
  exact ⟨rfl, rfl, rfl, rfl, rfl, rfl, rfl⟩

section
variable {h : Half} {key : Nat} {s : State} {c : PlowCmd} {cs : List PlowCmd} (hplow : s.cch.plow = c :: cs) (hc : calm s = true)
  (he : exec (.plowLineStep h key) s = answer s (settle (plowLine c h key (setHead (without key c) s))))
include hplow hc he

/-- DEMOTE and MELT-RANGE only write the line's entry. -/
theorem plowStep_marks {m : Meta}
    (hl : plowLine c h key (setHead (without key c) s) =
      setMeta (chargePlow h (cnt 0x018 (some h) none 1 (setHead (without key c) s))) key m) :
    completesWith (.plowLineStep h key) s fun u => stepped key c cs s u ∧ lineMarked key m s u := by
  have ht := stepping (h := h) (key := key) hplow hc
  rw [hl] at he
  generalize chargePlow h _ = t at he ht
  have hcalm : calm (setMeta t key m) = true := ht.calm
  rw [settle_calm hcalm] at he
  have hd : t.cache.data = s.cache.data := by rw [ht.cache]
  exact completesWith_answer he ⟨stepped_answered ht.plow (sameBytes_of_data hd), lineMarked_answered.mpr (lineMarked_setMeta ht.metas hd)⟩

theorem plowStep_demote (hop : c.op = 4) : completesWith (.plowLineStep h key) s fun u =>
    stepped key c cs s u ∧ lineMarked key { metaAt s key with ref := false, demoted := true } s u :=
  plowStep_marks hplow hc he (by simp only [plowLine, hop]; rfl)

theorem plowStep_melt (hop : c.op = 5) : completesWith (.plowLineStep h key) s fun u =>
    stepped key c cs s u ∧ lineMarked key { metaAt s key with melt := true } s u :=
  plowStep_marks hplow hc he (by simp only [plowLine, hop]; rfl)

theorem plowStep_invalidate (hop : c.op = 2) (hcopy : noCopies s key = true) (hrep : (metaAt s key).replica = false) (hp : s.cache.pool = []) :
    completesWith (.plowLineStep h key) s fun u =>
      stepped key c cs s u ∧ (metaAt u key).sv = 0 ∧ (metaAt u key).sd = 0 ∧ u.cache.pool = [] := by
  have ht := stepping (h := h) (key := key) hplow hc
  have hl : plowLine c h key (setHead (without key c) s) =
      discardNow h key (chargePlow h (cnt 0x018 (some h) none 1 (setHead (without key c) s))) := by
    have hno (x : State) : needInv x (metaAt (setHead (without key c) s) key) = false := needInv_of_noCopies (s := s) hcopy x
    simp only [plowLine, hop, hno]
    rfl
  rw [hl] at he
  generalize chargePlow h _ = t at he ht
  unfold discardNow at he
  dsimp only at he
  rw [ht.metas, hrep, if_neg (show ¬ false = true by decide)] at he
  obtain ⟨l, k, hy⟩ := prefEnded_if_only (metaAt s key).pf h (metaAt s key).part false t
  rw [hy, cnt_only] at he
  have hx := ht.loops l (cnt 0x011 (some h) (some (metaAt s key).part) (popcount (metaAt s key).sd) { t with loops := l, cnt := k }).cnt
  generalize { t with loops := l, cnt := (cnt 0x011 (some h) _ _ _).cnt } = x at he hx
  obtain ⟨h1, h2, h3, h4, -, h6, h7⟩ := clearLine_spec key x
  generalize clearLine key x = u at he h1 h2 h3 h4 h6 h7
  rw [settle_calm (h7.trans hx.calm)] at he
  refine completesWith_answer he ⟨stepped_answered (by rw [h6]; exact hx.plow) (sameBytes_of_data (by rw [h3, hx.cache])), ?_, ?_, ?_⟩
  · rw [metaAt_answered, h1]
  · rw [metaAt_answered, h2]
  · show u.cache.pool = []
    rw [h4, hx.cache, hp]

theorem plowStep_clean {g : Fin 2} (hop : c.op = 1) (hsd : (metaAt s key).sd ≠ 0) (hp : s.cache.pool = []) (ho : s.cache.offers = [])
    (hg : poolPort s (saOf s key) = some g) :
    completesWith (.plowLineStep h key) s fun u =>
      stepped key c cs s u ∧ lineMarked key { metaAt s key with sd := 0 } s u ∧
      sends (6 + g.val) (wbFrame s.cache.poolTag (metaAt s key) (saOf s key) (lineData s key)) s u ∧ u.cache.pool.length = 1 := by
  have ht := stepping (h := h) (key := key) hplow hc
  have hl : plowLine c h key (setHead (without key c) s) =
      setMeta (writeBack h key (saOf s key) (chargePlow h (cnt 0x018 (some h) none 1 (setHead (without key c) s)))) key
        { metaAt (writeBack h key (saOf s key) (chargePlow h (cnt 0x018 (some h) none 1 (setHead (without key c) s)))) key with sd := 0 } := by
    have hno : ¬ (metaAt (setHead (without key c) s) key).sd = 0 := hsd
    simp only [plowLine, hop]
    rw [if_pos (by decide), if_neg hno]
    rfl
  rw [hl] at he
  generalize chargePlow h _ = t at he ht
  have hw := writeBack_of_stepping (h := h) ht hp ho hg
  generalize writeBack h key (saOf s key) t = w at he hw
  obtain ⟨hw, hsent⟩ := hw
  have hcalm : calm (setMeta w key { metaAt w key with sd := 0 }) = true := hw.calm
  rw [settle_calm hcalm, hw.metas, ht.metas] at he
  have hd : w.cache.data = s.cache.data := by rw [hw.data, ht.cache]
  exact completesWith_answer he ⟨stepped_answered (by rw [← ht.plow, ← hw.cch]; rfl) (sameBytes_of_data hd),
    lineMarked_answered.mpr (lineMarked_setMeta (fun k => (hw.metas k).trans (ht.metas k)) hd),
    sends_congr rfl rfl (link_answered ..) hsent, hw.one⟩

theorem plowStep_flush {g : Fin 2} (hop : c.op = 3) (hsd : (metaAt s key).sd ≠ 0) (hcopy : noCopies s key = true)
    (hrep : (metaAt s key).replica = false) (hp : s.cache.pool = []) (ho : s.cache.offers = []) (hg : poolPort s (saOf s key) = some g) :
    completesWith (.plowLineStep h key) s fun u =>
      stepped key c cs s u ∧ (metaAt u key).sv = 0 ∧ (metaAt u key).sd = 0 ∧
      sends (6 + g.val) (wbFrame s.cache.poolTag (metaAt s key) (saOf s key) (lineData s key)) s u ∧ u.cache.pool.length = 1 := by
  have ht := stepping (h := h) (key := key) hplow hc
  have hl : plowLine c h key (setHead (without key c) s) =
      flushNow h key (chargePlow h (cnt 0x018 (some h) none 1 (setHead (without key c) s))) := by
    have hno (x : State) : needInv x (metaAt (setHead (without key c) s) key) = false := needInv_of_noCopies (s := s) hcopy x
    have hnw : wbWaits (chargePlow h (cnt 0x018 (some h) none 1 (setHead (without key c) s))) key = false := by
      have hpp := (poolPort_congr (congrArg Links.port ht.links) (congrArg Links.split ht.links) (saOf s key)).trans hg
      rw [wbWaits, ht.sa, hpp, Option.isNone_some, Bool.and_false]
    simp only [plowLine, hop, hno, hnw]
    rfl
  rw [hl] at he
  generalize chargePlow h _ = t at he ht
  unfold flushNow at he
  dsimp only at he
  rw [ht.metas, hrep, if_neg (show ¬ false = true by decide), if_pos hsd, ht.sa] at he
  obtain ⟨l, k, hy⟩ := prefEnded_if_only (metaAt s key).pf h (metaAt s key).part false t
  rw [hy] at he
  have hx := ht.loops l k
  generalize { t with loops := l, cnt := k } = x at he hx
  have hw := writeBack_of_stepping (h := h) hx hp ho hg
  generalize writeBack h key (saOf s key) x = w at he hw
  obtain ⟨hw, hsent⟩ := hw
  obtain ⟨h1, h2, h3, h4, h5, h6, h7⟩ := clearLine_spec key w
  generalize clearLine key w = u at he h1 h2 h3 h4 h5 h6 h7
  rw [settle_calm (h7.trans hw.calm)] at he
  refine completesWith_answer he ⟨stepped_answered (by rw [h6, hw.cch]; exact hx.plow) (sameBytes_of_data (by rw [h3, hw.data, hx.cache])),
    ?_, ?_, sends_congr rfl rfl (by rw [link_answered, link, h5]; rfl) hsent, ?_⟩
  · rw [metaAt_answered, h1]
  · rw [metaAt_answered, h2]
  · show u.cache.pool.length = 1
    rw [h4, hw.one]

end

/-! ## The end of a command (R152, R154) -/

/-- A completion changes the tables and the plow's registers only. -/
theorem plowComplete_frame (c : PlowCmd) (s : State) : changesOnly [.cch, .tables] s (plowComplete c s) := by
  unfold plowComplete setGt
  dsimp only
  split <;> split <;> simp

theorem plowComplete_cch (c : PlowCmd) (s : State) : (plowComplete c s).cch = { s.cch with
    plow := s.cch.plow.tail, done := s.cch.done + 1, cmderr := s.cch.cmderr || c.code != 0,
    errCode := if c.code = 0 then s.cch.errCode else c.code, errSeq := if c.code = 0 then s.cch.errSeq else c.seq.setWidth 28 } := by
  unfold plowComplete setGt
  dsimp only
  split <;> split <;> rfl

theorem plowDone_counts {s : State} {c : PlowCmd} (hplow : s.cch.plow = [c]) :
    (plowComplete c s).cch.plow = [] ∧ (plowComplete c s).cch.done = s.cch.done + 1 := by
  rw [plowComplete_cch, hplow]
  exact ⟨rfl, rfl⟩

section
variable {s : State} {c : PlowCmd} (hplow : s.cch.plow = [c]) (hst : c.started = true) (hE : c.workE = []) (hW : c.workW = []) (hc : calm s = true)
include hplow hst hE hW hc

omit hplow in
theorem plowFinished_empty (hs : (c.code == 0 && ((c.op.toNat == opEntry && s.tables.retiring.isSome) ||
    (c.op.toNat == opRegion && (region s c.arg0.toNat).busy))) = false) : plowFinished s c = true := by
  have hq : plowQuiet s = true := by
    rw [plowQuiet, (calm_iff.mp hc).2.2.1]
    rfl
  rw [plowFinished, hs, hst, hE, hW, hq]
  simp

/-- A command that sweeps nothing ends when its lists are empty. -/
theorem plowCommandDone_runs (hs : (c.code == 0 && ((c.op.toNat == opEntry && s.tables.retiring.isSome) ||
    (c.op.toNat == opRegion && (region s c.arg0.toNat).busy))) = false) :
    exec .plowCommandDone s = answer s (plowComplete c s) := by
  have he : exec .plowCommandDone s = execPlowCommandDone s := rfl
  have hfin := plowFinished_empty hst hE hW hc hs
  have hstart : plowStart s = s := by
    rw [plowStart, hplow]
    dsimp only
    rw [if_pos hst]
  have hconv : (c.op.toNat == opRegion && c.code == 0 && (region s c.arg0.toNat).busy) = false := by
    cases h0 : (c.code == 0) with
    | false => rw [Bool.and_false, Bool.false_and]
    | true =>
      rw [h0, Bool.true_and, Bool.or_eq_false_iff] at hs
      rw [Bool.and_true, hs.2]
  have hframe := plowComplete_frame c s
  have hcch := plowComplete_cch c s
  rw [he, execPlowCommandDone, hstart, settle_calm hc]
  dsimp only
  rw [hplow]
  dsimp only
  rw [if_pos ⟨hfin, by rw [hconv]; rfl⟩]
  generalize plowComplete c s = u at hframe hcch
  have hnext : plowStart u = u := by
    rw [plowStart, hcch]
    dsimp only
    rw [hplow]
    rfl
  rw [hnext, settle_calm ((calm_congr (s := s) (hframe .cache (by decide)) (hframe .atu (by decide)) (hframe .buf (by decide))).trans hc)]

theorem plowDone_line (h0 : c.code = 0) (hop : 1 ≤ c.op.toNat ∧ c.op.toNat ≤ 5) :
    completesWith .plowCommandDone s fun u =>
      (u.cch.plow = [] ∧ u.cch.done = s.cch.done + 1) ∧ u.cch.cmderr = s.cch.cmderr ∧ sameBytes s u := by
  have hno6 : (c.op.toNat == opEntry) = false := beq_false_of_ne (by rw [opEntry]; omega)
  have hno8 : (c.op.toNat == opRegion) = false := beq_false_of_ne (by rw [opRegion]; omega)
  have he := plowCommandDone_runs hplow hst hE hW hc (by rw [hno6, hno8]; simp)
  have hcache : (plowComplete c s).cache = s.cache := plowComplete_frame c s .cache (by decide)
  refine completesWith_answer he ⟨plowDone_counts hplow, ?_, sameBytes_answered.mpr (sameBytes_of_data (by rw [hcache]))⟩
  show (plowComplete c s).cch.cmderr = _
  rw [plowComplete_cch, h0]
  simp

theorem plowDone_failed (h0 : c.code ≠ 0) :
    completesWith .plowCommandDone s fun u =>
      (u.cch.plow = [] ∧ u.cch.done = s.cch.done + 1) ∧ u.cch.cmderr = true ∧ u.cch.errCode = c.code ∧ u.cch.errSeq = c.seq.setWidth 28 ∧
        changesOnly [.cch] s u := by
  have hcode : (c.code == 0) = false := beq_false_of_ne h0
  have he := plowCommandDone_runs hplow hst hE hW hc (by rw [hcode, Bool.false_and])
  have hcch := plowComplete_cch c s
  refine completesWith_answer he ⟨plowDone_counts hplow, ?_, ?_, ?_, changesOnly_answered.mpr ?_⟩
  · show (plowComplete c s).cch.cmderr = true
    rw [hcch]
    simpa using Or.inr h0
  · show (plowComplete c s).cch.errCode = c.code
    rw [hcch]
    exact if_neg h0
  · show (plowComplete c s).cch.errSeq = _
    rw [hcch]
    exact if_neg h0
  · unfold plowComplete
    dsimp only
    rw [hcode, Bool.false_and, Bool.false_and, if_neg (show ¬ false = true by decide),
      if_neg (show ¬ (c.code = 0 ∧ c.op.toNat = opEntry) from fun h => h0 h.1)]
    simp

theorem plowDone_entry (h0 : c.code = 0) (hop : c.op = 6) (hret : s.tables.retiring = none) :
    completesWith .plowCommandDone s fun u =>
      (u.cch.plow = [] ∧ u.cch.done = s.cch.done + 1) ∧
      gtEnt u c.half c.arg0.toNat = { group := c.arg1.extractLsb' 0 13, valid := c.arg1.getLsbD 15 } ∧ changesOnly [.cch, .tables] s u := by
  have he := plowCommandDone_runs hplow hst hE hW hc (by rw [hret, hop]; simp [opRegion])
  refine completesWith_answer he ⟨plowDone_counts hplow, ?_, changesOnly_answered.mpr (plowComplete_frame c s)⟩
  have hgt : (plowComplete c s).tables.gt = (setGt c.half c.arg0.toNat { group := c.arg1.extractLsb' 0 13, valid := bit c.arg1 15 } s).tables.gt := by
    unfold plowComplete
    dsimp only
    rw [if_pos (show c.code = 0 ∧ c.op.toNat = opEntry from ⟨h0, by rw [hop]; rfl⟩)]
    split <;> rfl
  show tget GtEnt.zero (plowComplete c s).tables.gt (8192 * c.half.idx + c.arg0.toNat) = _
  rw [hgt]
  exact tget_tset_self ..

end

/-! ## The end of a conversion (R153, R170) -/

theorem serveRegion_none {r : Nat} {t : State} (n : Nat) (hq : waitQ t (regionHalf r) = []) : serveRegion n r t = t := by
  cases n with
  | zero => rfl
  | succ n => rw [serveRegion, hq, if_pos (.inl rfl)]

/-- The state of region r once its rows are written, with its new state. -/
def converted (r : Nat) (new : BitVec 2) (s : State) : State :=
  setRegion (wipeRegion r s) r { region s r with state := new, busy := false }

/-- A region without a line left to drop has nothing more to sweep. -/
theorem plowWork_none {s : State} {c : PlowCmd} {r : Nat} (hop : c.op = 8) (hr : c.arg0.toNat = r)
    (h : ∀ e ∈ s.cache.line, keyRegion e.1 = r → (metaAt s e.1).sv = 0 ∨ (metaAt s e.1).pinned = true) :
    (plowWork s c).workE = [] ∧ (plowWork s c).workW = [] := by
  have hnone : (s.cache.line.map (·.1)).filter (plowTodo s c) = [] := by
    rw [List.filter_eq_nil_iff]
    intro k hk
    obtain ⟨e, he, rfl⟩ := List.mem_map.mp hk
    have htodo : plowTodo s c e.1 = (keyRegion e.1 == r && decide ((metaAt s e.1).sv ≠ 0) && !(metaAt s e.1).pinned) := by
      rw [plowTodo, hop, ← hr]
      rfl
    rw [htodo]
    by_cases hreg : keyRegion e.1 = r
    · rcases h e he hreg with h0 | h0 <;> simp [h0]
    · simp [hreg]
  unfold plowWork
  dsimp only
  rw [hnone]
  constructor <;> split <;> rfl

theorem plowFinished_conversion {s : State} {c : PlowCmd} {r : Nat} (hst : c.started = true) (hE : c.workE = []) (hW : c.workW = [])
    (hc : calm s = true) (hop : c.op = 8) (hr : c.arg0.toNat = r)
    (h : ∀ e ∈ s.cache.line, keyRegion e.1 = r → (metaAt s e.1).sv = 0 ∨ (metaAt s e.1).pinned = true) : plowFinished s c = true := by
  obtain ⟨-, hm, hi, -, -, -⟩ := calm_iff.mp hc
  obtain ⟨h1, h2⟩ := plowWork_none hop hr h
  have hq : plowQuiet s = true := by
    rw [plowQuiet, hi]
    rfl
  have hfill : plowFills s c = false := by
    rw [plowFills, hm]
    rfl
  rw [plowFinished, hst, hE, hW, hq, h1, h2, hfill]
  simp

/-- What the end of a conversion leaves, whatever becomes of the blocks. -/
theorem converted_spec {r : Nat} {new : BitVec 2} {s : State} :
    region (converted r new s) r = { region s r with state := new, busy := false } ∧
      (∀ k, k ≠ r → region (converted r new s) k = region s k) ∧
      (∀ a, a / 2 ^ 26 = r → memByte (converted r new s).cache.data a = 0) ∧
      (∀ a, a / 2 ^ 26 ≠ r → memByte (converted r new s).cache.data a = memByte s.cache.data a) := by
  have hdata : (converted r new s).cache.data = s.cache.data.filter (fun e => !decide (e.1 / 2 ^ 26 = r)) := rfl
  refine ⟨tget_tset_self .., fun k hk => tget_tset_other _ _ _ _ hk, fun a ha => ?_, fun a ha => ?_⟩
  · rw [hdata, memByte_filter, if_pos ha]
  · rw [hdata, memByte_filter, if_neg ha]

theorem blk_dropped {r b : Nat} (s : State) (hb : b / 1024 = r) :
    blk (s.onBuf fun u => { u with blk := u.blk.filter fun e => !decide (e.1 / 1024 = r) }) b = Blk.zero := by
  show tget Blk.zero (s.buf.blk.filter fun e => !decide (e.1 / 1024 = r)) b = _
  rw [tget_filter Blk.zero (fun k => !decide (k / 1024 = r)), if_neg (by simp [hb])]

theorem conversionDone_completes {s : State} {c : PlowCmd} {r : Fin 384} (hplow : s.cch.plow = [c]) (hst : c.started = true) (hE : c.workE = [])
    (hW : c.workW = []) (hc : calm s = true) (h0 : c.code = 0) (hop : c.op = 8) (hr : c.arg0.toNat = r.val) (hbusy : (region s r.val).busy = true)
    (hlines : ∀ e ∈ s.cache.line, keyRegion e.1 = r.val → (metaAt s e.1).sv = 0 ∨ (metaAt s e.1).pinned = true)
    (hdrain : tget false s.buf.drain r.val = false) (hq : waitQ s (regionHalf r.val) = []) :
    completesWith (.regionConversionDone r) s fun u =>
      region u r.val = { region s r.val with state := c.arg1.setWidth 2, busy := false } ∧
      (∀ a, a / 2 ^ 26 = r.val → memByte u.cache.data a = 0) ∧ (∀ a, a / 2 ^ 26 ≠ r.val → memByte u.cache.data a = memByte s.cache.data a) ∧
      (∀ b, b / 1024 = r.val → blk u b = Blk.zero) ∧ (∀ k, k ≠ r.val → region u k = region s k) := by
  have he : exec (.regionConversionDone r) s = execRegionConversionDone r s := rfl
  have hfin := plowFinished_conversion hst hE hW hc hop hr hlines
  rw [execRegionConversionDone, hplow] at he
  dsimp only at he
  rw [if_pos ⟨by rw [hop]; rfl, h0, hr, hbusy, hfin⟩] at he
  change _ = answer s (if c.arg1 = 2 then openRegion r.val (converted r.val (c.arg1.setWidth 2) s) else
    (converted r.val (c.arg1.setWidth 2) s).onBuf fun u => { u with blk := u.blk.filter fun e => !decide (e.1 / 1024 = r.val) }) at he
  have hopen : openRegion r.val (converted r.val (c.arg1.setWidth 2) s) =
      (converted r.val (c.arg1.setWidth 2) s).onBuf fun u => { u with blk := u.blk.filter fun e => !decide (e.1 / 1024 = r.val) } := by
    have hd : ¬ tget false (((converted r.val (c.arg1.setWidth 2) s).onBuf fun u =>
        { u with blk := u.blk.filter fun e => !decide (e.1 / 1024 = r.val) }).buf.drain) r.val = true := by
      show ¬ tget false s.buf.drain r.val = true
      rw [hdrain]
      decide
    rw [openRegion, if_neg hd]
    exact serveRegion_none 64 hq
  rw [hopen, ite_self] at he
  obtain ⟨h1, h2, h3, h4⟩ := converted_spec (r := r.val) (new := c.arg1.setWidth 2) (s := s)
  have hblk (b : Nat) (hb : b / 1024 = r.val) := blk_dropped (converted r.val (c.arg1.setWidth 2) s) hb
  generalize converted r.val (c.arg1.setWidth 2) s = u at he h1 h2 h3 h4 hblk
  exact completesWith_answer he ⟨h1, h3, h4, hblk, h2⟩

/-- Settles O41: each operation on a line that has no copy elsewhere, and the end of each kind of command. -/
theorem plowSteps : Obligations.PlowSteps := by
  refine ⟨?_, ?_⟩
  · intro h key s c cs g m step hplow hst hin hd1 hd2 hw hc hclean hscope hsv hpin hrep hcopy hp ho hg wb done
    have he (hop : 1 ≤ c.op.toNat ∧ c.op.toNat ≤ 5) :=
      plowLineStep_runs hplow hst hin hd1 hd2 hw hc hclean hscope hsv hpin hrep (by rw [hg]; rfl) hop
    refine ⟨fun hop => plowStep_demote hplow hc (he (by rw [hop]; decide)) hop, fun hop => plowStep_melt hplow hc (he (by rw [hop]; decide)) hop,
      fun hop hsd => plowStep_clean hplow hc (he (by rw [hop]; decide)) hop hsd hp ho hg,
      fun hop => plowStep_invalidate hplow hc (he (by rw [hop]; decide)) hop hcopy hrep hp,
      fun hop hsd => plowStep_flush hplow hc (he (by rw [hop]; decide)) hop hsd hcopy hrep hp ho hg⟩
  · intro s c hplow hst hE hW hc counts
    exact ⟨fun h0 h1 h5 => plowDone_line hplow hst hE hW hc h0 ⟨h1, h5⟩, plowDone_failed hplow hst hE hW hc, plowDone_entry hplow hst hE hW hc,
      fun r h0 hop hr hbusy hlines _ hdrain hq => conversionDone_completes hplow hst hE hW hc h0 hop hr hbusy hlines hdrain hq⟩

end Sys2Proof.Machine
end


section
/-! PROOFS. Counters, register writes and the boundary-scan port (R14, R427, R431, R432, R438, R32, R452). -/

namespace Sys2Proof.Machine

open Sys2Proof.Safety

/-! ## Register writes (R431, R432, R438) -/

/-- D0 is on while the always-on supply is. -/
theorem domOn_zero {s : State} (h : s.pwr.vaon = true) : domOn s 0 = true := by
  rw [domOn, domSt, if_pos rfl, h]
  rfl

/-- A write by partition 0 of a 32-bit register whose block is up. -/
theorem ctlWrite_one {off : Nat} {v : BitVec 64} {s : State} {r : Reg} (hw : ctlWords off 4 = some [⟨off, r, 0⟩]) (hx : (r == .xltInv) = false)
    (hwide : r.wide = false) (hhalf : r.half = none) (hup : blockUp s off = true) :
    ctlWrite 0 off 4 v s = (stOk, settle (write32 r (v.extractLsb' 0 32) s)) := by
  have hno : ¬ ((4 : Nat) = 4 ∧ [(⟨off, r, 0⟩ : CtlWord)].any (fun x => x.reg == .xltInv) = true) := by simp [hx]
  have hup' : (!ctlUp s [⟨off, r, 0⟩]) = false := by simp [ctlUp, hup]
  have hon : halfOn s off r = true := by rw [halfOn, hhalf]
  have hword : writeWord r 0 0 (v.extractLsb' 0 32) s = write32 r (v.extractLsb' 0 32) s := by
    rw [writeWord, hwide]
    rfl
  rw [ctlWrite, hw]
  dsimp only
  rw [if_neg hno, if_neg (show ¬ (!ctlRights s 0 [⟨off, r, 0⟩]) = true by simp [ctlRights]), hup', if_neg (by decide)]
  have hstore : ctlStore 0 ⟨off, r, 0⟩ (v.extractLsb' 0 32) (stOk, s) = (stOk, write32 r (v.extractLsb' 0 32) s) := by
    rw [ctlStore]
    dsimp only
    rw [if_pos hon, hword]
  show ((ctlStore 0 ⟨off, r, 0⟩ (v.extractLsb' 0 32) (stOk, s)).1, settle (ctlStore 0 ⟨off, r, 0⟩ (v.extractLsb' 0 32) (stOk, s)).2) = _
  rw [hstore]

/-- What a register write that changes one block, none of the memory's, leaves. -/
theorem registerWrite_writes {who : Requester} {off : BitVec 24} {v : BitVec 64} {s u : State} {r : Reg} {b : Block} {P : State → Prop}
    (hw : ctlWords off.toNat 4 = some [⟨off.toNat, r, 0⟩]) (hx : (r == .xltInv) = false) (hwide : r.wide = false) (hhalf : r.half = none)
    (hup : blockUp s off.toNat = true) (hc : calm s = true) (hu : write32 r (v.extractLsb' 0 32) s = u) (hP : P (answered s u))
    (hf : changesOnly [b] s u) (hb : b ≠ .cache ∧ b ≠ .atu ∧ b ≠ .buf) :
    completesWith (.registerWrite who 0 off false v) s fun u => P u ∧ changesOnly [b] s u := by
  have he : exec (.registerWrite who 0 off false v) s = execRegisterWrite who 0 off false v s := rfl
  obtain ⟨h1, h2, h3⟩ := hb
  have hcalm : calm u = true := (calm_congr (s := s) (hf .cache (by simpa using h1.symm)) (hf .atu (by simpa using h2.symm))
    (hf .buf (by simpa using h3.symm))).trans hc
  rw [execRegisterWrite, if_neg (by decide), ctlWrite_one hw hx hwide hhalf hup, hu, settle_calm hcalm] at he
  exact completesWith_answer he ⟨hP, changesOnly_answered.mpr hf⟩

/-- A register write that comes to nothing. -/
theorem registerWrite_nothing {who : Requester} {p : Part} {off : BitVec 24} {wide : Bool} {v : BitVec 64} {s : State}
    (h : (ctlWrite p off.toNat (if wide then 8 else 4) v s).2 = s) : completesWith (.registerWrite who p off wide v) s (changesOnly [] s) := by
  have he : exec (.registerWrite who p off wide v) s = execRegisterWrite who p off wide v s := rfl
  rw [execRegisterWrite, h] at he
  exact completesWith_nothing he

/-- An offset that is no multiple of the access's size names nothing. -/
theorem ctlWrite_unaligned {p : Part} {off n : Nat} (v : BitVec 64) (s : State) (h : off % n ≠ 0) : (ctlWrite p off n v s).2 = s := by
  rw [ctlWrite, ctlWords, if_pos (.inr h)]

/-- A register that partition p does not see, or whose block is off, is not written. -/
theorem ctlWrite_kept {p : Part} {off : Nat} {v : BitVec 64} {s : State} {r : Reg} (hw : ctlWords off 4 = some [⟨off, r, 0⟩])
    (h : (p ≠ 0 ∧ r.visible s p.toNat = false) ∨ blockUp s off = false) : (ctlWrite p off 4 v s).2 = s := by
  rw [ctlWrite, hw]
  dsimp only
  split
  · rfl
  split
  · rfl
  next hr =>
    rcases h with ⟨hp, hv⟩ | hup
    · exact absurd (by simpa [ctlRights, hv] using hr) hp
    · rw [if_pos (by simp [ctlUp, hup])]

theorem blockUp_d0 {s : State} {off : Nat} (hs : serving2 off = (0, 0)) (h : s.pwr.vaon = true) : blockUp s off = true := by
  rw [blockUp, hs, domOn_zero h]
  rfl

/-- The word of CNT_SEL[n]. -/
theorem ctlWords_cntSel (n : Fin 256) :
    ctlWords (BitVec.ofNat 24 (0x381000 + 4 * n.val)).toNat 4 = some [⟨(BitVec.ofNat 24 (0x381000 + 4 * n.val)).toNat, .cntSel n.val, 0⟩] := by
  revert n
  decide +kernel

theorem serving_cntSel (n : Fin 256) : serving2 (BitVec.ofNat 24 (0x381000 + 4 * n.val)).toNat = (0, 0) := by
  revert n
  decide +kernel

section
variable {who : Requester} {s : State} (v : BitVec 64) (hv : s.pwr.vaon = true) (hc : calm s = true)
include hv hc

theorem write_twarn : completesWith (.registerWrite who 0 0x10360 false v) s fun u =>
    u.sense = { s.sense with warn := (v.extractLsb' 0 32).extractLsb' 0 12, warnStat := s.sense.warnStat && !(v.extractLsb' 0 32).getLsbD 16 } ∧
      changesOnly [.sense] s u :=
  registerWrite_writes (r := .pwrTwarn) (u := s.onSense fun x => { x with warn := (v.extractLsb' 0 32).extractLsb' 0 12, warnStat := w1c x.warnStat (v.extractLsb' 0 32) 16 })
    rfl rfl rfl rfl (blockUp_d0 rfl hv) hc rfl rfl (by simp) (by decide)

theorem write_loopFrz : completesWith (.registerWrite who 0 0x30000 false v) s fun u =>
    u.loops = { s.loops with frz := (v.extractLsb' 0 32).extractLsb' 0 14 } ∧ changesOnly [.loops] s u :=
  registerWrite_writes (r := .loopFrz) (u := s.onLoops fun x => { x with frz := (v.extractLsb' 0 32).extractLsb' 0 14 })
    rfl rfl rfl rfl (blockUp_d0 rfl hv) hc rfl rfl (by simp) (by decide)

theorem write_ageThr : completesWith (.registerWrite who 0 0x300220 false v) s fun u =>
    u.tst = { s.tst with ageThr := (v.extractLsb' 0 32).extractLsb' 0 16 } ∧ changesOnly [.tst] s u :=
  registerWrite_writes (r := .tstAgeThr) (u := s.onTst fun x => { x with ageThr := (v.extractLsb' 0 32).extractLsb' 0 16 })
    rfl rfl rfl rfl (blockUp_d0 rfl hv) hc rfl rfl (by simp) (by decide)

theorem write_svetCtl : completesWith (.registerWrite who 0 0x340020 false v) s fun u =>
    u.mgt = { s.mgt with lock := s.mgt.lock || (v.extractLsb' 0 32).getLsbD 0, echo := (v.extractLsb' 0 32).getLsbD 1 } ∧ changesOnly [.mgt] s u :=
  registerWrite_writes (r := .mgtSvetCtl) (u := s.onMgt fun x => { x with lock := x.lock || bit (v.extractLsb' 0 32) 0, echo := bit (v.extractLsb' 0 32) 1 })
    rfl rfl rfl rfl (blockUp_d0 rfl hv) hc rfl rfl (by simp) (by decide)

/-- The selection that a word of CNT_SEL writes. -/
def selOf (w : BitVec 32) : CntSel :=
  { event := w.extractLsb' 0 10, half := w.extractLsb' 10 2, part := w.extractLsb' 12 5, partEn := w.getLsbD 17, chain := w.getLsbD 18 }

theorem write_cntSel (n : Fin 256) (h : eventOk ((v.extractLsb' 0 32).extractLsb' 0 10).toNat = true) :
    completesWith (.registerWrite who 0 (BitVec.ofNat 24 (0x381000 + 4 * n.val)) false v) s fun u =>
      u.cnt = { s.cnt with sel := tset CntSel.zero s.cnt.sel n.val (selOf (v.extractLsb' 0 32)) } ∧ changesOnly [.cnt] s u := by
  have hu : write32 (.cntSel n.val) (v.extractLsb' 0 32) s =
      s.onCnt fun c => { c with sel := tset CntSel.zero c.sel n.val (selOf (v.extractLsb' 0 32)) } := if_pos h
  exact registerWrite_writes (ctlWords_cntSel n) rfl rfl rfl (blockUp_d0 (serving_cntSel n) hv) hc hu rfl (by simp) (by decide)

theorem write_cntSel_unlisted (n : Fin 256) (h : eventOk ((v.extractLsb' 0 32).extractLsb' 0 10).toNat = false) :
    completesWith (.registerWrite who 0 (BitVec.ofNat 24 (0x381000 + 4 * n.val)) false v) s fun u =>
      u.cnt = { s.cnt with errSel := true } ∧ changesOnly [.cnt] s u := by
  have hu : write32 (.cntSel n.val) (v.extractLsb' 0 32) s = s.onCnt fun c => { c with errSel := true } :=
    if_neg (by rw [h]; decide)
  exact registerWrite_writes (ctlWords_cntSel n) rfl rfl rfl (blockUp_d0 (serving_cntSel n) hv) hc hu rfl (by simp) (by decide)

/-- A write of the whole of GLB_EPOCH_NOTE. -/
theorem write_note : completesWith (.registerWrite who 0 0x58 true v) s fun u =>
    u.glb = { s.glb with note := v.extractLsb' 3 49 } ∧ changesOnly [.glb] s u := by
  have he : exec (.registerWrite who 0 0x58 true v) s = execRegisterWrite who 0 0x58 true v s := rfl
  have hws : ctlWords 0x58 8 = some [⟨0x58, .glbEpochNote, 0⟩, ⟨0x5C, .glbEpochNote, 1⟩] := rfl
  have hup : (!ctlUp s [⟨0x58, .glbEpochNote, 0⟩, ⟨0x5C, .glbEpochNote, 1⟩]) = false := by
    simp [ctlUp, blockUp_d0 (s := s) (off := 0x58) rfl hv, blockUp_d0 (s := s) (off := 0x5C) rfl hv]
  have hright : (!ctlRights s 0 [⟨0x58, .glbEpochNote, 0⟩, ⟨0x5C, .glbEpochNote, 1⟩]) = false := by simp [ctlRights]
  have hwrite : (ctlWrite 0 0x58 8 v s).2 = settle (s.onGlb fun g => { g with note := v.extractLsb' 3 49 }) := by
    rw [ctlWrite, hws]
    dsimp only
    rw [if_neg (by decide), hright, if_neg (by decide), hup, if_neg (by decide)]
    rfl
  have hcalm : calm (s.onGlb fun g => { g with note := v.extractLsb' 3 49 }) = true := hc
  rw [settle_calm hcalm] at hwrite
  rw [execRegisterWrite, if_pos rfl] at he
  change _ = answer s (ctlWrite 0 0x58 8 v s).2 at he
  rw [hwrite] at he
  exact completesWith_answer he ⟨rfl, changesOnly_answered.mpr (by simp)⟩

omit hv in
theorem write_ceThr (hd : domOn s 5 = true ∨ domOn s 6 = true) : completesWith (.registerWrite who 0 0x2C000C false v) s fun u =>
    u.integ = { s.integ with ceThr := (v.extractLsb' 0 32).extractLsb' 0 8 } ∧ changesOnly [.integ] s u :=
  registerWrite_writes (r := .intCeThr) (u := s.onInteg fun x => { x with ceThr := (v.extractLsb' 0 32).extractLsb' 0 8 })
    rfl rfl rfl rfl (Bool.or_eq_true_iff.mpr hd) hc rfl rfl (by simp) (by decide)

end

theorem write_ceThr_off {who : Requester} {s : State} (v : BitVec 64) (h5 : domOn s 5 = false) (h6 : domOn s 6 = false) (p : Part) :
    completesWith (.registerWrite who p 0x2C000C false v) s (changesOnly [] s) :=
  registerWrite_nothing (ctlWrite_kept (r := .intCeThr) rfl (.inr (Bool.or_eq_false_iff.mpr ⟨h5, h6⟩)))

/-- Registers of partition 0 that no other partition sees. -/
theorem write_unseen {who : Requester} {s : State} (v : BitVec 64) {p : Part} (hp : p ≠ 0) {off : BitVec 24}
    (ho : off ∈ [(0x10360 : BitVec 24), 0x30000, 0x300220, 0x340020, 0x2C000C]) :
    completesWith (.registerWrite who p off false v) s (changesOnly [] s) := by
  refine registerWrite_nothing ?_
  simp only [List.mem_cons, List.not_mem_nil, or_false] at ho
  rcases ho with rfl | rfl | rfl | rfl | rfl
  · exact ctlWrite_kept (r := .pwrTwarn) rfl (.inl ⟨hp, rfl⟩)
  · exact ctlWrite_kept (r := .loopFrz) rfl (.inl ⟨hp, rfl⟩)
  · exact ctlWrite_kept (r := .tstAgeThr) rfl (.inl ⟨hp, rfl⟩)
  · exact ctlWrite_kept (r := .mgtSvetCtl) rfl (.inl ⟨hp, rfl⟩)
  · exact ctlWrite_kept (r := .intCeThr) rfl (.inl ⟨hp, rfl⟩)

/-! ## The counters (R427) -/

theorem cntSnap_completes (s : State) :
    completesWith .cntSnap s fun u => u.cnt = { s.cnt with snap := s.cnt.val, snapTime := s.clk.time } ∧ changesOnly [.cnt] s u := by
  have he : exec .cntSnap s = answer s (snapAll s) := rfl
  exact completesWith_answer he ⟨rfl, changesOnly_answered.mpr (by simp [snapAll])⟩

theorem cntReset_completes (s : State) :
    completesWith .cntReset s fun u => (∀ n, cntVal u n = 0) ∧ u.cnt = { s.cnt with val := [] } ∧ changesOnly [.cnt] s u := by
  have he : exec .cntReset s = answer s (zeroAll s) := rfl
  exact completesWith_answer he ⟨fun _ => rfl, rfl, changesOnly_answered.mpr (by simp [zeroAll])⟩

/-! ## Boundary scan (R32, R452) -/

/-- What an edge of TCK makes of the controller. -/
theorem jtagEdge_completes {rising trst tms tdi : Bool} {pins : BitVec 39} {s : State} {k : Jtag} {P : Jtag → Prop} (hv : s.pwr.vaon = true)
    (hk : k = if (!trst) = true then { s.jtag with tap := .reset, ir := 3, tdo := none }
      else if rising = true then jtagRise tms tdi pins s.jtag else jtagFall s.jtag) (hP : P k) :
    completesWith (.jtagTckEdge rising trst tms tdi pins) s fun u => P u.jtag ∧ changesOnly [.jtag] s u := by
  have he : exec (.jtagTckEdge rising trst tms tdi pins) s = execJtagTckEdge rising trst tms tdi pins s := rfl
  have hset : execJtagTckEdge rising trst tms tdi pins s = answer s { s with jtag := k } := by
    rw [execJtagTckEdge, hv, if_neg (by decide), hk]
    cases trst <;> cases rising <;> rfl
  rw [hset] at he
  exact completesWith_answer he ⟨hP, changesOnly_answered.mpr fun b hb => by cases b <;> first | rfl | simp at hb⟩

/-- What a rising edge does: it moves the controller, and captures or shifts in the states for it. -/
def risen (tms tdi : Bool) (pins : BitVec 39) (j k : Jtag) : Prop :=
  k.tap = j.tap.next tms ∧ k.ir = j.ir ∧ k.latch = j.latch ∧
    k.shift = (if j.ir.toNat < 2 ∧ j.tap = .capDr then pins else if j.ir.toNat < 2 ∧ j.tap = .shiftDr then setBit (j.shift >>> 1) 38 tdi else j.shift) ∧
    k.bypass = (if 2 ≤ j.ir.toNat ∧ j.tap = .capDr then false else if 2 ≤ j.ir.toNat ∧ j.tap = .shiftDr then tdi else j.bypass) ∧
    k.irShift = (if j.tap = .capIr then 1 else if j.tap = .shiftIr then setBit (j.irShift >>> 1) 1 tdi else j.irShift)

theorem risen_jtagRise (tms tdi : Bool) (pins : BitVec 39) (j : Jtag) : risen tms tdi pins j (jtagRise tms tdi pins j) := by
  obtain ⟨tap, irShift, ir, shift, latch, bypass, tdo⟩ := j
  by_cases hb : ir.toNat < 2
  · cases tap <;> simp [risen, jtagRise, Jtag.boundary, hb]
  · cases tap <;> simp [risen, jtagRise, Jtag.boundary, hb, Nat.le_of_not_lt hb]

/-- What a falling edge does: it updates in the states for it, and drives TDO while a register shifts. -/
def fallen (j k : Jtag) : Prop :=
  k.tap = j.tap ∧ k.shift = j.shift ∧ k.bypass = j.bypass ∧ k.irShift = j.irShift ∧
    k.ir = (if j.tap = .reset then 3 else if j.tap = .updIr then j.irShift else j.ir) ∧
    k.latch = (if j.tap = .updDr ∧ j.ir.toNat < 2 then j.shift else j.latch) ∧
    k.tdo = (if j.tap = .shiftDr then some (if j.ir.toNat < 2 then j.shift.getLsbD 0 else j.bypass)
      else if j.tap = .shiftIr then some (j.irShift.getLsbD 0) else none)

theorem fallen_jtagFall (j : Jtag) : fallen j (jtagFall j) := by
  obtain ⟨tap, irShift, ir, shift, latch, bypass, tdo⟩ := j
  by_cases hb : ir.toNat < 2
  · cases tap <;> simp [fallen, jtagFall, Jtag.boundary, bit, hb]
  · cases tap <;> simp [fallen, jtagFall, Jtag.boundary, bit, hb]

/-- Settles O59: the counters, one write of each kind, and each edge of the boundary-scan port. -/
theorem registersAndScan : Obligations.RegistersAndScan := by
  refine ⟨fun s => ⟨cntSnap_completes s, cntReset_completes s, ?_⟩, ?_⟩
  · intro who v hv hc w writes
    refine ⟨write_twarn v hv hc, write_loopFrz v hv hc, write_ageThr v hv hc, write_svetCtl v hv hc, ?_, write_note v hv hc, write_ceThr v hc,
      write_ceThr_off v, fun p off wide h => registerWrite_nothing (ctlWrite_unaligned v s h), fun p hp off ho => write_unseen v hp ho⟩
    intro n x
    exact ⟨write_cntSel v hv hc n, write_cntSel_unlisted v hv hc n⟩
  · intro s tms tdi pins hv j edge
    refine ⟨fun rising => jtagEdge_completes (P := fun k => k = { j with tap := .reset, ir := 3, tdo := none }) hv rfl rfl, ?_, ?_⟩
    · exact jtagEdge_completes (P := risen tms tdi pins j) hv rfl (risen_jtagRise tms tdi pins j)
    · exact jtagEdge_completes (P := fallen j) hv rfl (fallen_jtagFall j)

end Sys2Proof.Machine
end


section
/-! PROOFS. Svet's acting commands and the mailbox (R411 to R415). -/

namespace Sys2Proof.Machine

open Sys2Proof.Safety

/-! ## What an answer says -/

/-- A command of Svet that does its work and answers. -/
theorem completesWith_acts {c : Instr} {cmd st : Nat} {data : List Byte} {s t : State} {P : State → Prop}
    (he : exec c s = answer s (svetAnswer cmd st data t)) (ht : t.mgt = s.mgt) (hP : P (answered s (svetAnswer cmd st data t))) :
    completesWith c s fun u => svetSays (BitVec.ofNat 8 cmd) (BitVec.ofNat 8 st) data s u ∧ P u :=
  completesWith_answer he ⟨svetSays_svetAnswer ht, hP⟩

/-! ## Registers (R412, R413) -/

theorem svetWr_locked {s : State} (hon : svetOn s = true) (arg : BitVec 32) (v : BitVec 64) (hl : s.mgt.lock = true) :
    completesWith (.svetWr arg v) s fun u => svetSays 3 11 [] s u ∧ changesOnly [.mgt] s u := by
  have he : exec (.svetWr arg v) s = execSvetWr arg v s := rfl
  rw [execSvetWr, svet_locked hon (.inl rfl) hl] at he
  exact completesWith_svetAnswer he

theorem vaon_of_svetOn {s : State} (hon : svetOn s = true) : s.pwr.vaon = true := by
  simp only [svetOn, Bool.and_eq_true] at hon
  exact hon.1.1

/-- PWR_TWARN after a write. -/
def twarnWritten (v : BitVec 64) (s : State) : State :=
  s.onSense fun x => { x with warn := v.extractLsb' 0 12, warnStat := x.warnStat && !v.getLsbD 16 }

theorem write32_twarn (v : BitVec 64) (s : State) : write32 .pwrTwarn (v.extractLsb' 0 32) s = twarnWritten v s := by
  have hwarn : (v.extractLsb' 0 32).extractLsb' 0 12 = v.extractLsb' 0 12 := by
    apply BitVec.eq_of_getLsbD_eq
    intro i hi
    simp only [BitVec.getLsbD_extractLsb', hi, Nat.zero_add, decide_true, Bool.true_and, show i < 32 by omega]
  have hbit : (v.extractLsb' 0 32).getLsbD 16 = v.getLsbD 16 := by simp
  have hset : write32 .pwrTwarn (v.extractLsb' 0 32) s = s.onSense fun x =>
      { x with
        warn := (v.extractLsb' 0 32).extractLsb' 0 12, warnStat := x.warnStat && !(v.extractLsb' 0 32).getLsbD 16 } := rfl
  rw [hset, hwarn, hbit]
  rfl

/-- A write of the warning limit. -/
theorem svetWr_twarn {s : State} (hon : svetOn s = true) (v : BitVec 64) (hl : s.mgt.lock = false) (hc : calm s = true) :
    completesWith (.svetWr 0x010360 v) s fun u => svetSays 3 0 [] s u ∧
      u.sense = { s.sense with warn := v.extractLsb' 0 12, warnStat := s.sense.warnStat && !v.getLsbD 16 } ∧ changesOnly [.mgt, .sense] s u := by
  have he : exec (.svetWr 0x010360 v) s = execSvetWr 0x010360 v s := rfl
  have hcalm : calm (twarnWritten v s) = true := hc
  have hwrite : ctlWrite 0 0x10360 4 v s = (stOk, twarnWritten v s) := by
    rw [ctlWrite_one (r := .pwrTwarn) rfl rfl rfl rfl (blockUp_d0 rfl (vaon_of_svetOn hon)), write32_twarn, settle_calm hcalm]
  rw [execSvetWr, svet_runs hon (.inl rfl) (.inr hl), if_neg (by decide)] at he
  change _ = answer s (svetAnswer 3 (svetStatus (ctlWrite 0 0x10360 4 v s).1) [] (ctlWrite 0 0x10360 4 v s).2) at he
  rw [hwrite] at he
  exact completesWith_acts he rfl ⟨rfl, changesOnly_answered.mpr (by simp [twarnWritten])⟩

/-! ## Units and domains (R383, R420) -/

section
variable {s : State} (hon : svetOn s = true) (hph : s.boot.phase ≠ .recovery) (hl : s.mgt.lock = false)
include hon hph hl

theorem svetUnit_stale {n op : BitVec 8} {gen : BitVec 16} (hn : n.toNat ≤ 47) (ho : op.toNat ≤ 3)
    (hg : (unitWord s n.toNat).extractLsb' 16 16 ≠ gen) :
    completesWith (.svetUnit n op gen) s fun u => svetSays 5 3 (toBytes 4 (unitWord s n.toNat).toNat) s u ∧ changesOnly [.mgt, .pwr] s u := by
  have he : exec (.svetUnit n op gen) s = execSvetUnit n op gen s := rfl
  have hcmd : unitCmd n.toNat op.toNat gen s =
      s.onPwr fun p => { p with unitCode := 2, unitUnit := BitVec.ofNat 6 n.toNat, unitDone := true } := by
    rw [unitCmd]
    dsimp only
    rw [if_neg (by omega), if_pos hg]
    rfl
  have hword : unitWord (s.onPwr fun p => { p with unitCode := 2, unitUnit := BitVec.ofNat 6 n.toNat, unitDone := true }) n.toNat =
      unitWord s n.toNat := rfl
  rw [execSvetUnit, svet_runs hon (.inr (.inl ⟨rfl, hph⟩)) (.inr hl), if_neg (by omega), hcmd] at he
  dsimp only at he
  rw [hword] at he
  exact completesWith_acts he rfl (changesOnly_answered.mpr (by simp))

theorem svetUnit_recal {n op : BitVec 8} {gen : BitVec 16} (hn : n.toNat ≤ 47) (hg : (unitWord s n.toNat).extractLsb' 16 16 = gen) (ho : op = 2)
    (h16 : 16 ≤ n.toNat) (h24 : n.toNat < 24) (ha : portActive s (n.toNat - 16) = true) :
    completesWith (.svetUnit n op gen) s fun u =>
      svetSays 5 0 (toBytes 4 (unitWord u n.toNat).toNat) s u ∧ portMoves (n.toNat - 16) 5 s u := by
  have he : exec (.svetUnit n op gen) s = execSvetUnit n op gen s := rfl
  have hcmd : unitCmd n.toNat op.toNat gen s =
      (enterRecal (n.toNat - 16) s).onPwr fun p => { p with unitCode := 0, unitUnit := BitVec.ofNat 6 n.toNat, unitDone := true } := by
    have hport : decide (16 ≤ n.toNat ∧ n.toNat < 24) = true := decide_eq_true ⟨h16, h24⟩
    rw [unitCmd, ho]
    dsimp only
    rw [if_neg (by omega), if_neg (not_not.mpr hg), hport]
    rfl
  rw [execSvetUnit, svet_runs hon (.inr (.inl ⟨rfl, hph⟩)) (.inr hl), if_neg (by rw [ho]; simp; omega), hcmd] at he
  dsimp only at he
  have hmoves := portMoves_enterRecal (portActive_iff.mp ha)
  have hmgt : (enterRecal (n.toNat - 16) s).mgt = s.mgt := (enterRecal_frame (n.toNat - 16) s).1 .mgt (by decide)
  generalize enterRecal (n.toNat - 16) s = t at he hmoves hmgt
  change _ = answer s (svetAnswer 5 0 (toBytes 4 (unitWord (t.onPwr fun p =>
    { p with unitCode := 0, unitUnit := BitVec.ofNat 6 n.toNat, unitDone := true }) n.toNat).toNat)
    (t.onPwr fun p => { p with unitCode := 0, unitUnit := BitVec.ofNat 6 n.toNat, unitDone := true })) at he
  exact completesWith_answer he ⟨svetSays_svetAnswer hmgt, hmoves⟩

end

/-- DOM answers with the code of its command, or 0 for one that goes on. -/
theorem svetDom_runs {s t : State} (hon : svetOn s = true) (hph : s.boot.phase ≠ .recovery) (hl : s.mgt.lock = false) {d : BitVec 8}
    (hd : d.toNat < 16) (force : Bool) {gen : BitVec 16} {code : Nat} (ht : domCmd d.toNat true force gen s = t)
    (hcode : (if s.pwr.cmd.isNone ∧ t.pwr.cmd.isSome then 0 else t.pwr.resCode.toNat) = code) :
    exec (.svetDom d (if force then 3 else 1) gen) s =
      answer s (svetAnswer 6 (domStatus code) (toBytes 1 code ++ toBytes 4 (unitWord t d.toNat).toNat) t) := by
  have he : exec (.svetDom d (if force then 3 else 1) gen) s = execSvetDom d (if force then 3 else 1) gen s := rfl
  have hon' : bit (if force then (3 : BitVec 8) else 1) 0 = true := by cases force <;> rfl
  have hforce : bit (if force then (3 : BitVec 8) else 1) 1 = force := by cases force <;> rfl
  have hok : ¬ (15 < d.toNat ∨ 3 < (if force then (3 : BitVec 8) else 1).toNat) := by cases force <;> simp <;> omega
  rw [he, execSvetDom, svet_runs hon (.inr (.inl ⟨rfl, hph⟩)) (.inr hl), if_neg hok, hon', hforce, ht]
  dsimp only
  rw [hcode]

/-- Nothing of a domain command, of a reset or of a trip is under way. -/
def domIdle (s : State) : Prop := s.pwr.cmd = none ∧ s.pwr.resetSt = .none ∧ s.pwr.trip = false ∧ s.boot.phase = .started

section
variable {s : State} (hon : svetOn s = true) (hl : s.mgt.lock = false) {d : BitVec 8} (h10 : 10 ≤ d.toNat) (h16 : d.toNat < 16)
  (hi : domIdle s) (force : Bool) {gen : BitVec 16}
include hon hl h10 h16 hi

theorem svetDom_stale (hg : gen ≠ (tget Dom.zero s.pwr.dom d.toNat).gen) :
    completesWith (.svetDom d (if force then 3 else 1) gen) s fun u =>
      svetSays 6 3 (2 :: toBytes 4 (unitWord s d.toNat).toNat) s u ∧ changesOnly [.mgt, .pwr] s u := by
  obtain ⟨hcmd, -, -, hst⟩ := hi
  have hrun : domCmd d.toNat true force gen s = domResult d.toNat 2 s := by
    have hcheck : domCheck s d.toNat true gen = 2 := by rw [domCheck, if_neg (by omega), if_pos (Ne.symm hg)]
    rw [domCmd, hcheck]
    rfl
  have hnone : ¬ (s.pwr.cmd.isNone = true ∧ (domResult d.toNat 2 s).pwr.cmd.isSome = true) := by
    rintro ⟨-, h⟩
    have h' : s.pwr.cmd.isSome = true := h
    rw [hcmd] at h'
    exact absurd h' (by decide)
  have he := svetDom_runs hon (by rw [hst]; decide) hl h16 force hrun (if_neg hnone)
  have hword : unitWord (domResult d.toNat 2 s) d.toNat = unitWord s d.toNat := rfl
  rw [hword] at he
  generalize unitWord s d.toNat = w at he ⊢
  rw [show domStatus (domResult d.toNat 2 s).pwr.resCode.toNat = 3 from rfl, show toBytes 1 (domResult d.toNat 2 s).pwr.resCode.toNat = [2] from rfl,
    List.singleton_append] at he
  exact completesWith_acts he rfl (changesOnly_answered.mpr (by simp [domResult]))

theorem svetDom_on (hg : gen = (tget Dom.zero s.pwr.dom d.toNat).gen) (hoff : (tget Dom.zero s.pwr.dom d.toNat).st = 0) :
    completesWith (.svetDom d (if force then 3 else 1) gen) s fun u =>
      svetSays 6 0 (0 :: toBytes 4 (unitWord u d.toNat).toNat) s u ∧ domSt u d.toNat = 2 ∧ u.pwr.cmd.isSome = true := by
  obtain ⟨hcmd, hrst, htrip, hst⟩ := hi
  have hdom : domOn s d.toNat = false := by
    rw [domOn, domSt, if_neg (by omega), hoff]
    rfl
  have hrun : domCmd d.toNat true force gen s = setCmd d.toNat true force [] (setDom d.toNat 2 s) := by
    have hbusy : pwrBusy s = false := by rw [pwrBusy, hcmd, hrst, htrip, hst]; rfl
    have hreq : requiredOn s d.toNat = true := by
      rw [requiredOn, if_neg (by omega), if_neg (by omega), if_neg (by omega), if_neg (by omega), if_neg (by omega)]
    have hcheck : domCheck s d.toNat true gen = 0 := by
      rw [domCheck, if_neg (by omega), if_neg (not_not.mpr hg.symm), hbusy, if_neg (by decide), hdom, if_neg (by decide), if_pos rfl, hreq,
        if_neg (by decide), if_neg (by omega)]
    have hrail : railUp d.toNat s = s := by
      rw [railUp]
      exact if_neg fun h => by omega
    rw [domCmd, hcheck]
    dsimp only
    rw [if_neg (by rw [hdom]; simp), if_pos rfl, hrail]
  have hset : setDom d.toNat 2 s = s.onPwr fun p =>
      { p with dom := tset Dom.zero p.dom d.toNat { st := 2, gen := (tget Dom.zero s.pwr.dom d.toNat).gen + 1 } } := by
    have hne : ¬ (tget Dom.zero s.pwr.dom d.toNat).st.toNat = 2 := by rw [hoff]; decide
    rw [setDom]
    dsimp only
    rw [if_neg (by decide), State.onPwr, if_neg hne]
    rfl
  have hfacts : (setCmd d.toNat true force [] (setDom d.toNat 2 s)).mgt = s.mgt ∧
      domSt (setCmd d.toNat true force [] (setDom d.toNat 2 s)) d.toNat = 2 ∧
      (setCmd d.toNat true force [] (setDom d.toNat 2 s)).pwr.cmd.isSome = true := by
    refine ⟨by rw [hset]; rfl, ?_, rfl⟩
    rw [hset, domSt_of_pos _ (by omega)]
    show (tget Dom.zero (tset Dom.zero s.pwr.dom d.toNat { st := 2, gen := (tget Dom.zero s.pwr.dom d.toNat).gen + 1 }) d.toNat).st.toNat = 2
    rw [tget_tset_self]
    rfl
  generalize setCmd d.toNat true force [] (setDom d.toNat 2 s) = t at hrun hfacts
  obtain ⟨h1, h2, h3⟩ := hfacts
  have he := svetDom_runs hon (by rw [hst]; decide) hl h16 force hrun (if_pos ⟨by rw [hcmd]; rfl, h3⟩)
  rw [show domStatus 0 = 0 from rfl, show toBytes 1 0 = [0] from rfl, List.singleton_append] at he
  exact completesWith_answer he ⟨svetSays_svetAnswer h1, h2, h3⟩

end

/-! ## The epoch and the reset (R310, R378) -/

section
variable {s : State} (hon : svetOn s = true) (hph : s.boot.phase ≠ .recovery) (hl : s.mgt.lock = false)
include hon hph hl

theorem svetEpoch_taken (hr : epochReason s = 0) (hu : epochUnits s ≠ 0) :
    completesWith .svetEpoch s fun u => svetSays 7 0 (toBytes 4 (s.glb.epoch + 1).toNat) s u ∧ u.cur = s.shadow ∧ u.prev = s.cur ∧
      u.glb.epoch = s.glb.epoch + 1 := by
  have he : exec .svetEpoch s = execSvetEpoch s := rfl
  obtain ⟨u, ht, hcur, hprev, hglb, hf⟩ := epochAdvance_taken hr hu
  have hepoch : u.glb.epoch = s.glb.epoch + 1 := by
    rw [hglb]
    rfl
  rw [execSvetEpoch, svet_runs hon (.inr (.inl ⟨rfl, hph⟩)) (.inr hl), ht] at he
  dsimp only at he
  rw [if_pos rfl, hepoch] at he
  exact completesWith_acts he (hf .mgt (by decide)) ⟨hcur, hprev, hepoch⟩

theorem svetEpoch_refused (hr : epochReason s ≠ 0) :
    completesWith .svetEpoch s fun u => svetSays 7 8 (toBytes 1 (epochReason s)) s u ∧ changesOnly [.mgt, .glb] s u := by
  have he : exec .svetEpoch s = execSvetEpoch s := rfl
  rw [execSvetEpoch, svet_runs hon (.inr (.inl ⟨rfl, hph⟩)) (.inr hl), epochAdvance_refused hr] at he
  dsimp only at he
  rw [if_neg hr] at he
  exact completesWith_acts he rfl (changesOnly_answered.mpr (by simp))

theorem svetReset_badKey {key : BitVec 8} (hk : key ≠ 0x5A) :
    completesWith (.svetReset key) s fun u => svetSays 8 2 [] s u ∧ changesOnly [.mgt] s u := by
  have he : exec (.svetReset key) s = execSvetReset key s := rfl
  rw [execSvetReset, svet_runs hon (.inr (.inl ⟨rfl, hph⟩)) (.inr hl), if_pos hk] at he
  exact completesWith_svetAnswer he

theorem svetReset_asks (h1 : s.pwr.resetSt = .none) (h2 : s.pwr.pwrgood = true) (h3 : s.pwr.trip = false) :
    completesWith (.svetReset 0x5A) s fun u => svetSays 8 0 [] s u ∧ u.pwr = { s.pwr with resetSt := .warmReq false } ∧
      changesOnly [.mgt, .pwr] s u := by
  have he : exec (.svetReset 0x5A) s = execSvetReset 0x5A s := rfl
  have hask : rstCmd 0x15A (svetAnswer 8 0 [] s) = (svetAnswer 8 0 [] s).onPwr fun p => { p with resetSt := .warmReq false } := by
    rw [rstCmd, if_pos (by decide)]
    exact warmRequest_asks (s := svetAnswer 8 0 [] s) h1 h2 h3 (vaon_of_svetOn hon)
  rw [execSvetReset, svet_runs hon (.inr (.inl ⟨rfl, hph⟩)) (.inr hl), if_neg (by decide), hask] at he
  exact completesWith_answer he ⟨svetSays_svetAnswer (t := s) rfl, rfl, changesOnly_answered.mpr (by simp)⟩

end

/-! ## The flash (R414) -/

theorem flashKnown_of {s : State} (h : s.boot.eraseLog2 ≠ 0) : (!flashKnown s) = false := by simpa [flashKnown] using h

theorem flashByte_erase (a n : Nat) (s : State) (k : Nat) :
    flashByte (flashErase a n s) k = if a ≤ k ∧ k < a + n then 0xFF else flashByte s k := by
  show tget 0xFF (s.boot.flash.filter fun e => !decide (a ≤ e.1 ∧ e.1 < a + n)) k = _
  rw [tget_filter 0xFF (fun k => !decide (a ≤ k ∧ k < a + n))]
  by_cases h : a ≤ k ∧ k < a + n <;> simp [h, flashByte]

/-- Bytes programmed where the flash is erased read back. -/
theorem flashByte_programmed {a : Nat} {bs : List Byte} {s : State} (h : ∀ i, i < bs.length → flashByte s (a + i) = 0xFF) (k : Nat) :
    flashByte (flashProgram a bs s) k = if a ≤ k ∧ k < a + bs.length then bs.getD (k - a) 0 else flashByte s k := by
  rw [flashByte_program]
  split
  next hk =>
    obtain ⟨i, rfl⟩ := Nat.exists_eq_add_of_le hk.1
    have hi : i < bs.length := by omega
    rw [h i hi, Nat.add_sub_cancel_left, List.getD_eq_getElem?_getD, List.getD_eq_getElem?_getD, List.getElem?_eq_getElem hi]
    exact BitVec.allOnes_and
  next => rfl

theorem flashBytes_programmed {a : Nat} {bs : List Byte} {s : State} (h : ∀ i, i < bs.length → flashByte s (a + i) = 0xFF) :
    flashBytes (flashProgram a bs s) a bs.length = bs := by
  apply List.ext_getElem
  · simp [flashBytes]
  · intro i h1 h2
    simp only [flashBytes, List.getElem_map, List.getElem_range]
    rw [flashByte_programmed h, if_pos (by omega), Nat.add_sub_cancel_left, List.getD_eq_getElem?_getD, List.getElem?_eq_getElem h2]
    rfl

section
variable {s : State} (hon : svetOn s = true) (hflash : s.boot.eraseLog2 ≠ 0)
include hon hflash

theorem flrd_reads {off : BitVec 32} {len : BitVec 16} (h0 : len ≠ 0) (h1 : len.toNat ≤ 1024)
    (hr : flashRange s off.toNat len.toNat = false) :
    completesWith (.flrd off len) s fun u =>
      svetSays 16 0 ((List.range len.toNat).map fun i => tget 0xFF s.boot.flash (off.toNat + i)) s u ∧ changesOnly [.mgt] s u := by
  have he : exec (.flrd off len) s = execFlrd off len s := rfl
  rw [execFlrd, svet_any hon, if_neg (not_or.mpr ⟨h0, by omega⟩), flashKnown_of hflash, if_neg (by decide), hr, if_neg (by decide)] at he
  exact completesWith_svetAnswer he

section
variable {off : BitVec 32} {count : BitVec 16} (hl : s.mgt.lock = false) (h0 : count ≠ 0) (ha : off.toNat % 2 ^ s.boot.eraseLog2.toNat = 0)
  (hr : flashRange s off.toNat (count.toNat * 2 ^ s.boot.eraseLog2.toNat) = false)
  (hd : flashDenied s off.toNat (count.toNat * 2 ^ s.boot.eraseLog2.toNat) = false)
include hl h0 ha hr hd

theorem fler_erases : completesWith (.fler off count true) s fun u => svetSays 17 0 [] s u ∧ changesOnly [.mgt, .boot] s u ∧
    ∀ a, flashByte u a = if off.toNat ≤ a ∧ a < off.toNat + count.toNat * 2 ^ s.boot.eraseLog2.toNat then 0xFF else flashByte s a := by
  have he : exec (.fler off count true) s = execFler off count true s := rfl
  rw [execFler, svet_runs hon (.inl rfl) (.inr hl)] at he
  dsimp only at he
  rw [if_neg h0, flashKnown_of hflash, if_neg (by decide), if_neg (not_not.mpr ha), hr, if_neg (by decide), hd, if_neg (by decide),
    if_neg (by decide)] at he
  exact completesWith_acts he rfl ⟨changesOnly_answered.mpr (by simp [flashErase]), flashByte_erase _ _ s⟩

theorem fler_fails : completesWith (.fler off count false) s fun u => svetSays 17 9 [] s u ∧ changesOnly [.mgt] s u := by
  have he : exec (.fler off count false) s = execFler off count false s := rfl
  rw [execFler, svet_runs hon (.inl rfl) (.inr hl)] at he
  dsimp only at he
  rw [if_neg h0, flashKnown_of hflash, if_neg (by decide), if_neg (not_not.mpr ha), hr, if_neg (by decide), hd, if_neg (by decide),
    if_pos (by decide)] at he
  exact completesWith_svetAnswer he

end

section
variable {off : BitVec 32} {data : List Byte} (hl : s.mgt.lock = false) (h1 : 1 ≤ data.length) (h256 : data.length ≤ 256)
  (hp : off.toNat % 2 ^ s.boot.pageLog2.toNat + data.length ≤ 2 ^ s.boot.pageLog2.toNat) (hr : flashRange s off.toNat data.length = false)
  (hd : flashDenied s off.toNat data.length = false)
include hl h1 h256 hp hr hd

theorem flpr_programs (hff : ∀ i, i < data.length → flashByte s (off.toNat + i) = 0xFF) :
    completesWith (.flpr off data true) s fun u => svetSays 18 0 [] s u ∧ changesOnly [.mgt, .boot] s u ∧
      ∀ a, flashByte u a = if off.toNat ≤ a ∧ a < off.toNat + data.length then data.getD (a - off.toNat) 0 else flashByte s a := by
  have he : exec (.flpr off data true) s = execFlpr off data true s := rfl
  rw [execFlpr, svet_runs hon (.inl rfl) (.inr hl)] at he
  dsimp only at he
  rw [if_neg (by omega), flashKnown_of hflash, if_neg (by decide), if_neg (by omega), hr, if_neg (by decide), hd, if_neg (by decide),
    if_neg (by decide), if_pos (flashBytes_programmed hff)] at he
  exact completesWith_acts he rfl ⟨changesOnly_answered.mpr (by simp [flashProgram]), flashByte_programmed hff⟩

theorem flpr_fails : completesWith (.flpr off data false) s fun u => svetSays 18 9 [] s u ∧ changesOnly [.mgt] s u := by
  have he : exec (.flpr off data false) s = execFlpr off data false s := rfl
  rw [execFlpr, svet_runs hon (.inl rfl) (.inr hl)] at he
  dsimp only at he
  rw [if_neg (by omega), flashKnown_of hflash, if_neg (by decide), if_neg (by omega), hr, if_neg (by decide), hd, if_neg (by decide),
    if_pos (by decide)] at he
  exact completesWith_svetAnswer he

end

end

/-! ## Console recovery (R397, R414) -/

/-- A command of console recovery is DENIED outside it. -/
theorem svet_denied {cmd : Nat} {lockable : Bool} {body : State → State} {s : State} (hon : svetOn s = true) (h : s.boot.phase ≠ .recovery) :
    svet cmd .recovery lockable body s = svetAnswer cmd 5 [] s := by
  rw [svet, hon, if_neg (by decide), if_pos (.inr ⟨rfl, h⟩)]

theorem svetBoot_denied {s : State} (hon : svetOn s = true) (h : s.boot.phase ≠ .recovery) :
    completesWith .svetBoot s fun u => svetSays 19 5 [] s u ∧ changesOnly [.mgt] s u := by
  have he : exec .svetBoot s = execSvetBoot s := rfl
  rw [execSvetBoot, svet_denied hon h] at he
  exact completesWith_svetAnswer he

theorem reperase_denied {s : State} (hon : svetOn s = true) (h : s.boot.phase ≠ .recovery) (key : BitVec 8) (ok : Bool) :
    completesWith (.reperase key ok) s fun u => svetSays 20 5 [] s u ∧ changesOnly [.mgt] s u := by
  have he : exec (.reperase key ok) s = execReperase key ok s := rfl
  rw [execReperase, svet_denied hon h] at he
  exact completesWith_svetAnswer he

/-- What is left when the content of the slice goes: Svet, the flash, and no domain but D0. -/
theorem contentFail_spec (s : State) : (contentFail s).mgt = s.mgt ∧ (contentFail s).boot.flash = s.boot.flash ∧
    (contentFail s).cache.data = [] ∧ ∀ d, 1 ≤ d → d < 16 → domSt (contentFail s) d = 0 := by
  have hpwr : (contentFail s).pwr = (allOff s).pwr := by rw [contentFail]
  have hmgt : (contentFail s).mgt = (allOff s).mgt := by rw [contentFail]
  have hboot : (contentFail s).boot.flash = (allOff s).boot.flash := by rw [contentFail]
  refine ⟨?_, ?_, rfl, fun d h1 h2 => ?_⟩
  · rw [hmgt, allOff_eq]
    simp
  · rw [hboot, allOff_eq]
    simp
  · have hoff := domSt_allOff s h1 h2
    rw [domSt_of_pos _ h1] at hoff ⊢
    rw [hpwr]
    exact hoff

theorem svetBoot_restarts {s : State} (hon : svetOn s = true) (h : s.boot.phase = .recovery) :
    completesWith .svetBoot s fun u => svetSays 19 0 [] s u ∧ u.boot.phase = .discover ∧ u.boot.slot = 3 ∧ u.boot.recovery = false ∧
      u.boot.flash = s.boot.flash ∧ u.cache.data = [] ∧ ∀ d, 1 ≤ d → d < 16 → domSt u d = 0 := by
  have he : exec .svetBoot s = execSvetBoot s := rfl
  rw [execSvetBoot, svet_runs hon (.inr (.inr ⟨rfl, h⟩)) (.inl rfl)] at he
  have hsays : svetSays 19 0 [] s (svetAnswer 19 0 [] s) := svetSays_svetAnswer rfl
  have hflash : (svetAnswer 19 0 [] s).boot.flash = s.boot.flash := rfl
  generalize svetAnswer 19 0 [] s = t at he hsays hflash
  obtain ⟨c1, c2, c3, c4⟩ := contentFail_spec t
  generalize contentFail t = w at he c1 c2 c3 c4
  refine completesWith_answer he ⟨c1.trans hsays, rfl, rfl, rfl, c2.trans hflash, c3, fun d h1 h2 => ?_⟩
  exact c4 d h1 h2

theorem reperase_erases {s : State} (hon : svetOn s = true) (h : s.boot.phase = .recovery) {a n : Nat} (hl : s.mgt.lock = false)
    (hflash : s.boot.eraseLog2 ≠ 0) (hareas : repairAreas s = [(a, n)]) :
    completesWith (.reperase 0x5A true) s fun u => svetSays 20 0 [] s u ∧ changesOnly [.mgt, .boot] s u ∧
      ∀ b, flashByte u b = if a ≤ b ∧ b < a + n then 0xFF else flashByte s b := by
  have he : exec (.reperase 0x5A true) s = execReperase 0x5A true s := rfl
  rw [execReperase, svet_runs hon (.inr (.inr ⟨rfl, h⟩)) (.inr hl), if_neg (by decide), flashKnown_of hflash, if_neg (by decide), hareas,
    if_neg (by simp), if_neg (by decide)] at he
  exact completesWith_acts he rfl ⟨changesOnly_answered.mpr (by simp [flashErase]), flashByte_erase a n s⟩

/-! ## The mailbox (R415) -/

section
variable {s : State} (hon : svetOn s = true)
include hon

theorem mbput_puts {data : List Byte} (h1 : 1 ≤ data.length) (h256 : data.length ≤ 256) (hin : s.mgt.inFull = false) (hn : s.mgt.note = 0) :
    completesWith (.mbput data) s fun u =>
      svetSays 12 0 [] { s with mgt := { s.mgt with inLen := BitVec.ofNat 9 data.length, inFull := true, puts := s.mgt.puts + 1 } } u ∧
      tbytes 0 u.mbox.inb 0 data.length = data ∧ u.mbox.outb = s.mbox.outb ∧ changesOnly [.mgt, .mbox, .freeCtr] s u := by
  have he : exec (.mbput data) s = execMbput data s := rfl
  have hne : ¬ (data.isEmpty = true ∨ 256 < data.length) := by
    rintro (h | h)
    · rw [List.isEmpty_iff.mp h] at h1
      exact absurd h1 (by decide)
    · omega
  obtain ⟨more, hput⟩ := mbPut_noNote (bs := data) hn
  rw [execMbput, svet_any hon, if_neg hne, hin, if_neg (by decide), hput] at he
  exact completesWith_answer he ⟨rfl, tbytes_tputBytes 0 data more s.mbox.inb 0, rfl,
    changesOnly_answered.mpr (by simp [changesOnly_freeVal])⟩

theorem mbput_full {data : List Byte} (h1 : 1 ≤ data.length) (h256 : data.length ≤ 256) (hin : s.mgt.inFull = true) :
    completesWith (.mbput data) s fun u => svetSays 12 4 [] s u ∧ changesOnly [.mgt] s u := by
  have he : exec (.mbput data) s = execMbput data s := rfl
  have hne : ¬ (data.isEmpty = true ∨ 256 < data.length) := by
    rintro (h | h)
    · rw [List.isEmpty_iff.mp h] at h1
      exact absurd h1 (by decide)
    · omega
  rw [execMbput, svet_any hon, if_neg hne, if_pos hin] at he
  exact completesWith_svetAnswer he

theorem mbget_gets (h : s.mgt.outFull = true) :
    completesWith .mbget s fun u =>
      svetSays 13 0 (tbytes 0 s.mbox.outb 0 s.mgt.outLen.toNat) { s with mgt := { s.mgt with outFull := false } } u ∧ changesOnly [.mgt] s u := by
  have he : exec .mbget s = execMbget s := rfl
  rw [execMbget, svet_any hon, if_pos h] at he
  exact completesWith_answer he ⟨rfl, changesOnly_answered.mpr (by simp [outClear])⟩

theorem mbget_empty (h : s.mgt.outFull = false) :
    completesWith .mbget s fun u => svetSays 13 10 [] s u ∧ changesOnly [.mgt] s u := by
  have he : exec .mbget s = execMbget s := rfl
  rw [execMbget, svet_any hon, h, if_neg (by decide)] at he
  exact completesWith_svetAnswer he

end

theorem mbOutlen_hands {s : State} {v : BitVec 32} (h1 : s.mgt.outFull = false) (h2 : v.extractLsb' 0 9 ≠ 0)
    (h3 : (v.extractLsb' 0 9).toNat ≤ 256) :
    completesWith (.mbOutlenWrite v) s fun u => u.mgt = { s.mgt with outLen := v.extractLsb' 0 9, outFull := true } ∧ changesOnly [.mgt] s u := by
  have he : exec (.mbOutlenWrite v) s = answer s (mbOutLen (v.extractLsb' 0 9) s) := rfl
  have hset : mbOutLen (v.extractLsb' 0 9) s = s.onMgt fun m => { m with outLen := v.extractLsb' 0 9, outFull := true } := by
    rw [mbOutLen, State.onMgt, if_neg (by rw [h1]; rintro (h | h | h); exacts [absurd h (by decide), h2 h, absurd h (by omega)])]
    rfl
  rw [hset] at he
  exact completesWith_answer he ⟨rfl, changesOnly_answered.mpr (by simp)⟩

theorem mbOutlen_refused {s : State} {v : BitVec 32} (h : s.mgt.outFull = true ∨ v.extractLsb' 0 9 = 0 ∨ 256 < (v.extractLsb' 0 9).toNat) :
    completesWith (.mbOutlenWrite v) s fun u => u.mgt = { s.mgt with outRef := true } ∧ changesOnly [.mgt] s u := by
  have he : exec (.mbOutlenWrite v) s = answer s (mbOutLen (v.extractLsb' 0 9) s) := rfl
  have hset : mbOutLen (v.extractLsb' 0 9) s = s.onMgt fun m => { m with outRef := true } := by
    rw [mbOutLen, State.onMgt, if_pos h]
    rfl
  rw [hset] at he
  exact completesWith_answer he ⟨rfl, changesOnly_answered.mpr (by simp)⟩

/-- Settles O56: each command by its body, which its boot state, the lock and its arguments let through or refuse. -/
theorem svetActs : Obligations.SvetActs := by
  refine ⟨?_, ?_⟩
  · intro s hon tells word idle
    refine ⟨svetWr_locked hon, svetWr_twarn hon, ?_, ?_, ?_, ?_, ?_, ?_⟩
    · intro n op gen hph hl hn ho
      exact ⟨svetUnit_stale hon hph hl hn ho, svetUnit_recal hon hph hl hn⟩
    · intro d force gen hl h10 h16 x flags
      exact ⟨fun hi hg => svetDom_stale hon hl h10 h16 hi force hg, fun hi hg h0 => svetDom_on hon hl h10 h16 hi force hg h0⟩
    · intro hph hl
      exact ⟨svetEpoch_taken hon hph hl, svetEpoch_refused hon hph hl, fun key hk => svetReset_badKey hon hph hl hk, svetReset_asks hon hph hl⟩
    · intro hflash
      refine ⟨fun off len h0 h1 hr => flrd_reads hon hflash h0 h1 hr, ?_, ?_⟩
      · intro off count n hl h0 ha hr hd
        exact ⟨fler_erases hon hflash hl h0 ha hr hd, fler_fails hon hflash hl h0 ha hr hd⟩
      · intro off data hl h1 h256 hp hr hd hff
        exact ⟨flpr_programs hon hflash hl h1 h256 hp hr hd hff, flpr_fails hon hflash hl h1 h256 hp hr hd⟩
    · intro hph
      exact ⟨svetBoot_denied hon hph, reperase_denied hon hph⟩
    · intro hph
      exact ⟨svetBoot_restarts hon hph, fun a n hl hflash hareas => reperase_erases hon hph hl hflash hareas⟩
  · intro s
    refine ⟨fun hon => ⟨fun data h1 h256 => ⟨mbput_puts hon h1 h256, mbput_full hon h1 h256⟩, mbget_gets hon, mbget_empty hon⟩, ?_⟩
    intro v n
    exact ⟨mbOutlen_hands, mbOutlen_refused⟩

end Sys2Proof.Machine
end

section
/-! PROOFS. What settling keeps: a predicate on states that every elementary effect of the line pipeline keeps holds after the pipeline has
come to rest. One lemma per operation, in the order of the model's definitions; the obligations about the array, about the threads and
about the boot block instantiate it. -/

namespace Sys2Proof.Machine

open Sys2Proof.Safety

/-- The parts of a state that the predicates below speak of are the same in `u` as in `s`. -/
structure Alike (s u : State) : Prop where
  data : u.cache.data = s.cache.data
  asked : u.cache.asked = s.cache.asked
  got : u.cache.got = s.cache.got
  th : u.seq.th = s.seq.th
  boot : u.boot = s.boot
  region : u.tables.region = s.tables.region
  free (t : ThreadId) : freePending u t = freePending s t
  tgt (i : Nat) : (tget Target.zero u.tst.tgt i).state = (tget Target.zero s.tst.tgt i).state

/-- A change of a thread that leaves its task and the place where it stands as they are. -/
structure Gentle (x y : Thread) : Prop where
  phase : y.phase = x.phase
  pc : y.pc = x.pc
  part : y.part = x.part
  wait : x.wait = none → y.wait = none

/-- The predicates that every elementary effect of the line pipeline keeps. -/
structure Stable (K : State → Prop) : Prop where
  alike : ∀ {s u}, K s → Alike s u → K u
  fatal : ∀ {s} (cause : Nat), K s → K (fatalNow s cause)
  data : ∀ {s} (key : Nat) (d : BitVec 1024), K s → K (setData s key d)
  got : ∀ {s} (l : List (Consumer × Nat × LineRes)), (s.cache.asked = [] → s.cache.got = [] → l = []) → K s →
    K (s.onCache fun c => { c with got := l })
  thread : ∀ {s} (t : Nat) {f : Thread → Thread}, Gentle (thr s t) (f (thr s t)) → K s → K (modThr s t f)
  freed : ∀ {s} (t : ThreadId) (f : Thread → Thread), freePending s t = true → K s → K (modThr s t.val f)
  fewer : ∀ {s} (l : List (Nat × Option (Who × Part × Sa) × Part)), l ⊆ s.buf.frees → K s → K (s.onBuf fun u => { u with frees := l })

theorem freePending_congr {s u : State} (h : u.buf.frees = s.buf.frees) (t : ThreadId) : freePending u t = freePending s t := by
  unfold freePending
  rw [h]

theorem onlyIf {K : State → Prop} {c : Prop} [Decidable c] {a b : State} (hab : K b → K a) (hb : K b) : K (if c then a else b) := by
  split
  · exact hab hb
  · exact hb

theorem either {K : State → Prop} {c : Prop} [Decidable c] {a b : State} (ha : K a) (hb : K b) : K (if c then a else b) := by
  split
  · exact ha
  · exact hb

theorem eitherSnd {β : Type} {K : State → Prop} {c : Prop} [Decidable c] {a b : β × State} (ha : K a.2) (hb : K b.2) :
    K (if c then a else b).2 := by
  split
  · exact ha
  · exact hb

theorem kept_foldl {α : Type} {K : State → Prop} {f : State → α → State} (hf : ∀ t a, K t → K (f t a)) {s : State} (h : K s) (l : List α) :
    K (l.foldl f s) :=
  List.foldlRecOn l f h fun t ht a _ => hf t a ht

section
-- Many short lemmas that cite one another: elaborating them side by side only makes threads wait on threads.
set_option Elab.async false

variable {K : State → Prop} (hK : Stable K) {s : State}
include hK

/-! Blocks that no such predicate speaks of. -/

theorem kept_outside {u : State} (h : K s) (hcache : u.cache = s.cache) (hseq : u.seq = s.seq) (htst : u.tst = s.tst)
    (hboot : u.boot = s.boot) (htables : u.tables = s.tables) (hbuf : u.buf = s.buf) : K u :=
  hK.alike h
    { data := by rw [hcache]
      asked := by rw [hcache]
      got := by rw [hcache]
      th := by rw [hseq]
      boot := hboot
      region := by rw [htables]
      free := freePending_congr (by rw [hbuf])
      tgt := fun _ => by rw [htst] }

theorem kept_onCnt {f : Cnt → Cnt} (h : K s) : K (s.onCnt f) := kept_outside hK h rfl rfl rfl rfl rfl rfl
theorem kept_onLoops {f : Loops → Loops} (h : K s) : K (s.onLoops f) := kept_outside hK h rfl rfl rfl rfl rfl rfl
theorem kept_onLog {f : ErrLog → ErrLog} (h : K s) : K (s.onLog f) := kept_outside hK h rfl rfl rfl rfl rfl rfl
theorem kept_onInteg {f : Integ → Integ} (h : K s) : K (s.onInteg f) := kept_outside hK h rfl rfl rfl rfl rfl rfl
theorem kept_onLinks {f : Links → Links} (h : K s) : K (s.onLinks f) := kept_outside hK h rfl rfl rfl rfl rfl rfl
theorem kept_onCch {f : Cch → Cch} (h : K s) : K (s.onCch f) := kept_outside hK h rfl rfl rfl rfl rfl rfl
theorem kept_onBwr {f : Bwr → Bwr} (h : K s) : K (s.onBwr f) := kept_outside hK h rfl rfl rfl rfl rfl rfl
theorem kept_onXlt {f : Xlt → Xlt} (h : K s) : K (s.onXlt f) := kept_outside hK h rfl rfl rfl rfl rfl rfl
theorem kept_onAtu {f : Atu → Atu} (h : K s) : K (s.onAtu f) := kept_outside hK h rfl rfl rfl rfl rfl rfl
theorem kept_freeCtr {n : Nat} (h : K s) : K { s with freeCtr := n } := kept_outside hK h rfl rfl rfl rfl rfl rfl

theorem kept_onCache {f : Cache → Cache} (h : K s)
    (hf : ∀ c, (f c).data = c.data ∧ (f c).asked = c.asked ∧ (f c).got = c.got := by exact fun _ => ⟨rfl, rfl, rfl⟩) :
    K (s.onCache f) :=
  hK.alike h
    { data := (hf s.cache).1
      asked := (hf s.cache).2.1
      got := (hf s.cache).2.2
      th := rfl
      boot := rfl
      region := rfl
      free := fun _ => rfl
      tgt := fun _ => rfl }

theorem kept_onTst {f : Tst → Tst} (h : K s)
    (hf : ∀ x i, (tget Target.zero (f x).tgt i).state = (tget Target.zero x.tgt i).state := by exact fun _ _ => rfl) :
    K (s.onTst f) :=
  hK.alike h { data := rfl, asked := rfl, got := rfl, th := rfl, boot := rfl, region := rfl, free := fun _ => rfl, tgt := hf s.tst }

theorem kept_onSeq {f : Seq → Seq} (h : K s) (hf : ∀ q, (f q).th = q.th := by exact fun _ => rfl) : K (s.onSeq f) :=
  hK.alike h { data := rfl, asked := rfl, got := rfl, th := hf s.seq, boot := rfl, region := rfl, free := fun _ => rfl, tgt := fun _ => rfl }

theorem kept_onTables {f : Tables → Tables} (h : K s) (hf : ∀ x, (f x).region = x.region := by exact fun _ => rfl) : K (s.onTables f) :=
  hK.alike h
    { data := rfl, asked := rfl, got := rfl, th := rfl, boot := rfl, region := hf s.tables, free := fun _ => rfl, tgt := fun _ => rfl }

theorem kept_onBuf {f : Buf → Buf} (h : K s) (hf : ∀ x, (f x).frees = x.frees := by exact fun _ => rfl) : K (s.onBuf f) :=
  hK.alike h
    { data := rfl, asked := rfl, got := rfl, th := rfl, boot := rfl, region := rfl, free := freePending_congr (hf s.buf)
      tgt := fun _ => rfl }

/-! Counters, records and the fatal reset. -/

theorem kept_cnt {ev : Nat} {hh : Option Half} {p : Option Part} {k : Nat} (h : K s) : K (cnt ev hh p k s) := by
  rw [cnt_only]
  exact kept_outside hK h rfl rfl rfl rfl rfl rfl

theorem kept_writeRec {r : Rec} (h : K s) : K (writeRec r s) := kept_outside hK h rfl rfl rfl rfl rfl rfl

theorem kept_fatalWith {r : Rec} (h : K s) : K (fatalWith r s) := hK.fatal 5 (kept_writeRec hK h)

theorem kept_checkShared {a b : Nat} {hh : Half} (h : K s) : K (checkShared a b hh s) :=
  either h (either (kept_cnt hK (kept_onTables hK h)) (kept_fatalWith hK (kept_onTables hK h)))

theorem kept_checkTables {r : LineReq} (h : K s) : K (checkTables r s) :=
  kept_foldl (fun _ _ ht => either ht (kept_checkShared hK ht)) h _

/-! The corrected and the uncorrectable codewords. -/

theorem kept_setTstStat {i : Nat} (h : K s) : K (setTstStat i s) := kept_onTst hK h

theorem kept_setCalve {k : Nat} {c : Calve} (h : K s) : K (setCalve k c s) := kept_onTst hK h

theorem kept_calveScan {k : Nat} (h : K s) : K (calveScan k s) := by
  unfold calveScan
  refine either h ?_
  split
  · exact h
  · split
    · exact either (kept_setCalve hK h) h
    · exact either (kept_onTst hK h) h

theorem kept_afterCorrected {r : Nat} (h : K s) : K (afterCorrected r s) :=
  kept_calveScan hK (either (kept_writeRec hK (kept_setTstStat hK h)) h)

theorem kept_countCorrected {key source : Nat} (h : K s) : K (countCorrected s key source) :=
  either (kept_onLog hK (kept_onLoops hK (kept_onTst hK (kept_cnt hK h))))
    (kept_writeRec hK (kept_onLog hK (kept_onLoops hK (kept_onTst hK (kept_cnt hK h)))))

theorem kept_setMeta {key : Nat} {m : Meta} (h : K s) : K (setMeta s key m) := by
  unfold setMeta
  exact kept_onCache hK h

theorem kept_setMetaLoss (h : K s) : K (setMetaLoss s) := kept_onInteg hK h

/-! Frames, invalidations and the ports. -/

theorem kept_linkEvent {e n k : Nat} (h : K s) : K (linkEvent e n k s) := kept_cnt hK h

theorem kept_setLink {n : Nat} {x : LinkSt} (h : K s) : K (setLink s n x) := kept_onLinks hK h

theorem kept_modLink {n : Nat} {f : LinkSt → LinkSt} (h : K s) : K (modLink s n f) := kept_setLink hK h

theorem kept_invLeft {n : Nat} {f : Frame} (h : K s) : K (invLeft n f s) := either (kept_onCache hK h) h

theorem kept_linkPump {n : Nat} (h : K s) : K (linkPump n s) :=
  either (kept_setLink hK h) (kept_cnt hK (kept_foldl (fun _ _ ht => kept_invLeft hK ht) (kept_setLink hK h) _))

theorem kept_sendFrame {n : Nat} {f : Frame} (h : K s) : K (sendFrame n f s) :=
  either (onlyIf (kept_cnt hK) (kept_linkPump hK (kept_modLink hK h))) h

theorem kept_sendInvs {ports : BitVec 6} {line : Sa} {tag : BitVec 12} {p : Part} (h : K s) : K (sendInvs ports line tag p s) :=
  kept_foldl (fun _ _ ht => either (kept_linkEvent hK (kept_sendFrame hK ht)) ht) h _

theorem kept_roForget {k : Nat} {f : LineRes → Bool} (h : K s) : K (roForget k f s) :=
  hK.got (s.cache.got.map _) (fun _ hgot => by rw [hgot]; rfl) h

theorem kept_roDropLine {k : Nat} {line : Sa} (h : K s) : K (roDropLine k line s) := kept_roForget hK (kept_onSeq hK h)

theorem kept_roDropCore {k : Nat} (h : K s) : K (roDropCore k s) := kept_roForget hK (kept_onSeq hK h)

theorem kept_invCores {sh : BitVec 24} {line : Sa} (h : K s) : K (invCores sh line s) :=
  kept_foldl (fun _ _ ht => either (kept_roDropLine hK ht) ht) h _

theorem kept_counted {hh : Half} {t : Nat} {x : Target} (hx : x.state = (tgt s hh t).state) (h : K s) : K (setTgt hh t x s) :=
  hK.alike h
    { data := rfl
      asked := rfl
      got := rfl
      th := rfl
      boot := rfl
      region := rfl
      free := fun _ => rfl
      tgt := fun i => by
        by_cases hi : i = 22 * hh.idx + t
        · subst hi
          exact (congrArg Target.state (tget_tset_self ..)).trans hx
        · exact congrArg Target.state (tget_tset_ne _ _ _ hi) }

theorem kept_countOps {hh : Half} {lo n k : Nat} (h : K s) : K (countOps hh lo n k s) := by
  unfold countOps
  refine kept_foldl (fun t i ht => ?_) h _
  exact either (kept_counted hK rfl ht) ht

theorem kept_pushHalf {dst : Half} {m : HalfMsg} (h : K s) : K (pushHalf dst m s) := by
  unfold pushHalf
  refine kept_onCache hK (kept_countOps hK (kept_countOps hK h)) fun c => ?_
  cases dst <;> exact ⟨rfl, rfl, rfl⟩

theorem kept_startInv {hh : Half} {key : Nat} {line : Sa} {act : InvAct} (h : K s) : K (startInv hh key line act s) :=
  kept_cnt hK (onlyIf (kept_pushHalf hK) (kept_sendInvs hK (kept_invCores hK (kept_onCache hK h))))

theorem kept_modLoopMem {n : Nat} {f : LoopMem → LoopMem} (h : K s) : K (modLoopMem s n f) := kept_onLoops hK h

theorem kept_prefEnded {hh : Half} {p : Part} {useful : Bool} (h : K s) : K (prefEnded hh p useful s) :=
  kept_cnt hK (kept_modLoopMem hK h)

theorem kept_tally {n size : Nat} {f : LoopMem → LoopMem} (h : K s) : K (tally n size f s) := kept_modLoopMem hK h

theorem kept_replicaLeft {hh : Half} {m : Meta} (h : K s) : K (replicaLeft hh m s) := kept_tally hK h

theorem kept_putPort {n : Nat} {p : Port} (h : K s) : K (putPort s n p) := by
  unfold putPort
  exact kept_onLinks hK h

theorem kept_startClear {k : Nat} (h : K s) : K (startClear k s) := kept_onCch hK h

theorem kept_ackPort {n : Nat} (h : K s) : K (ackPort n s) := kept_onCache hK h

omit hK in
/-- A `free` that a thread waits for stays that thread's when a port's answers are lost. -/
theorem freePending_loseAnswers (n : Nat) (s : State) (t : ThreadId) : freePending (loseAnswers n s) t = freePending s t := by
  unfold freePending loseAnswers
  rw [List.any_map]
  refine congrArg _ (funext fun e => ?_)
  obtain ⟨b, who, p⟩ := e
  obtain _ | ⟨w, q⟩ := who
  · rfl
  · cases w
    case port p _ _ =>
      simp only [Function.comp, Option.map_some, Who.lose]
      by_cases h : p.val = n
      · rw [if_pos h]
      · rw [if_neg h]
    case block p _ _ =>
      simp only [Function.comp, Option.map_some, Who.lose]
      by_cases h : p.val = n
      · rw [if_pos h]
      · rw [if_neg h]
    all_goals rfl

theorem kept_loseAnswers {n : Nat} (h : K s) : K (loseAnswers n s) :=
  hK.alike h
    { data := rfl, asked := rfl, got := rfl, th := rfl, boot := rfl, region := rfl, free := freePending_loseAnswers n s, tgt := fun _ => rfl }

theorem kept_poolIssue {q : PoolReq} {f : Fin 2} (h : K s) : K (poolIssue q f s) := kept_sendFrame hK (kept_onCache hK h)

theorem kept_poolResend {f : Fin 2} (h : K s) : K (poolResend f s) :=
  kept_foldl (fun _ _ ht => either (kept_poolIssue hK ht) (kept_onCache hK ht)) (kept_onCache hK h) _

theorem kept_offersEnd {f : Fin 2} (h : K s) : K (offersEnd f s) := kept_cnt hK (kept_cnt hK (kept_onCache hK h))

theorem kept_portDown {n : Nat} (h : K s) : K (portDown n s) :=
  have hdown : K _ := kept_cnt hK (kept_setLink hK (kept_putPort hK h))
  either (kept_startClear hK (kept_ackPort hK (kept_loseAnswers hK hdown))) (kept_poolResend hK (kept_offersEnd hK hdown))

theorem kept_prstTrigger {p : Part} {cause : Nat} (h : K s) : K (prstTrigger p cause s) := either h (kept_onInteg hK h)

/-! Lost lines and the checks of a row. -/

theorem kept_clearEcc {key : Nat} (h : K s) : K (clearEcc key s) := kept_onCache hK h

theorem kept_clearLine {key : Nat} (h : K s) : K (clearLine key s) := kept_setMeta hK (kept_clearEcc hK h)

theorem kept_loseLine {source key : Nat} (h : K s) : K (loseLine source key s) := by
  unfold loseLine
  refine kept_clearLine hK (kept_setMetaLoss hK (kept_writeRec hK (onlyIf (kept_prstTrigger hK) (onlyIf (fun ht => ?_) ?_))))
  · exact kept_onCache hK ht (by intro c; cases regionHalf (keyRegion key) <;> exact ⟨rfl, rfl, rfl⟩)
  · refine kept_foldl (fun _ _ ht => onlyIf (kept_roDropCore hK) ht) (kept_foldl (fun _ _ ht => onlyIf (kept_portDown hK) ht) ?_ _) _
    exact onlyIf (kept_replicaLeft hK) (onlyIf (kept_prefEnded hK) h)

theorem kept_setData {key : Nat} {d : BitVec 1024} (h : K s) : K (setData s key d) := hK.data key d h

theorem kept_wildSector {key j : Nat} (h : K s) : K (wildSector key j s) := kept_setData hK (kept_freeCtr hK h)

theorem kept_poisoning {r : Rec} {hh : Half} {k : Nat} {f : Integ → Integ} (h : K s) :
    K (cnt 0x051 (some hh) none k (setMetaLoss (writeRec r (s.onInteg f)))) :=
  kept_cnt hK (kept_setMetaLoss hK (kept_writeRec hK (kept_onInteg hK h)))

theorem kept_uncorrectable {source key j : Nat} (h : K s) : K (uncorrectable source key j s) := by
  have hc : K (s.onCache fun c => { c with ecc := tset 0 c.ecc (4 * key + j) 0 }) := kept_onCache hK h
  have hput {r : Rec} {hh : Half} {k : Nat} {f : Integ → Integ} {m : Meta} :=
    kept_poisoning hK (r := r) (hh := hh) (k := k) (f := f) (kept_setMeta hK (key := key) (m := m) hc)
  unfold uncorrectable
  refine either hput (either (either (kept_fatalWith hK hc) hput) (either (either hput (either (kept_fatalWith hK hc) ?_)) ?_))
  · generalize (match homeOf (s.onCache fun c => { c with ecc := tset 0 c.ecc (4 * key + j) 0 }) _ _ with
      | .ok x => x != regionHalf (keyRegion key)
      | .error _ => false) = away
    exact either (kept_startInv hK (kept_setMetaLoss hK (kept_writeRec hK (kept_setMeta hK hc)))) hput
  · exact either hput (either (kept_fatalWith hK hc) (kept_loseLine hK hc))

theorem kept_uncorrected {source key j : Nat} (h : K s) : K (uncorrected source key j s) :=
  kept_calveScan hK (kept_uncorrectable hK (kept_onTst hK h))

theorem kept_checkCodeword {source key j : Nat} (h : K s) : K (checkCodeword source key j s) :=
  either h (either (kept_afterCorrected hK (kept_countCorrected hK (kept_onCache hK h))) (either (kept_uncorrected hK h)
    (either (kept_uncorrected hK (kept_freeCtr hK h)) (kept_wildSector hK (kept_onCache hK (kept_freeCtr hK h))))))

theorem kept_checkRow {source key : Nat} (h : K s) : K (checkRow source key s) :=
  kept_foldl (fun _ _ ht => kept_checkCodeword hK ht) h _

/-! The arbiters' grants. -/

theorem kept_setMstat {hh : Half} {m : Nat} {x : MStat} (h : K s) : K (setMstat hh m x s) := kept_onBwr hK h

theorem kept_closeWindow {hh : Half} (h : K s) : K (closeWindow hh s) := by
  unfold closeWindow
  refine kept_onBwr hK (onlyIf (kept_cnt hK) (kept_foldl (fun t m ht => ?_) h _))
  exact kept_setMstat hK (onlyIf (kept_onBwr hK) ht)

theorem kept_windowRoll (h : K s) : K (windowRoll s) :=
  either (kept_onBwr hK (kept_closeWindow hK (kept_closeWindow hK h))) h

theorem kept_wrrCharge {hh : Half} {w : Nat} {set : BitVec 22} (h : K s) : K (wrrCharge hh w set s) := by
  unfold wrrCharge
  refine kept_onBwr hK (kept_foldl (fun t m ht => ?_) h _)
  exact kept_setMstat hK ht

theorem kept_giveGrant {hh : Half} {g : Grantee} {ready : BitVec 22} (h : K s) : K (giveGrant hh g ready s) := by
  cases g with
  | nobody => exact h
  | unregulated => exact kept_cnt hK h
  | plow => exact kept_cnt hK (kept_onBwr hK h)
  | master m step => exact kept_setMstat hK (kept_cnt hK (kept_onBwr hK (onlyIf (kept_wrrCharge hK) h)))

theorem kept_noteReady {hh : Half} {ready : BitVec 22} (h : K s) : K (noteReady hh ready s) :=
  kept_foldl (fun _ _ ht => kept_setMstat hK ht) h _

theorem kept_arbitrate {hh : Half} {ready : BitVec 22} {unreg plow : Bool} (h : K s) : K (arbitrate hh ready unreg plow s) := by
  unfold arbitrate
  have hroll := kept_windowRoll hK h
  generalize windowRoll s = w at hroll ⊢
  dsimp only
  split
  · exact hroll
  · exact kept_giveGrant hK (kept_onBwr hK (kept_noteReady hK hroll))

theorem kept_charge {hh : Half} {m : Option Nat} (h : K s) : K (charge hh m s) := by
  cases m <;> exact kept_arbitrate hK h

theorem kept_charged {hh : Half} {m : Option Nat} {x : Bool × State} (h : K x.2) : K (charged hh m x).2 :=
  eitherSnd (kept_charge hK h) h

theorem kept_chargeOwn {hh : Half} (h : K s) : K (chargeOwn hh s) := kept_charge hK h

/-! Answers. -/

theorem kept_driftRead {r : LineReq} {key : Nat} (h : K s) : K (driftRead r key s) :=
  either h (either (kept_pushHalf hK (kept_setMeta hK h)) (kept_setMeta hK h))

theorem kept_poisonDelivered {key : Option Nat} {sa : Sa} {hh : Half} {p : Part} {m : Option Nat} (h : K s) :
    K (poisonDelivered key sa hh p m s) :=
  kept_cnt hK (kept_writeRec hK h)

theorem kept_answerUnits {r : LineReq} {st : Nat} (h : K s) : K (answerUnits r st s) :=
  either h (kept_countOps hK (kept_countOps hK h))

theorem kept_respond {p : PartnerPort} {cls : Fin 4} {tag : BitVec 12} {part : Part} {sa : Sa} {status : Nat} {poison : BitVec 4}
    {untrk : Bool} {data : List Byte} (h : K s) : K (respond p cls tag part sa status poison untrk data s) :=
  kept_sendFrame hK h

theorem kept_setFaultQ {p : Nat} {q : FaultQ} (h : K s) : K (setFaultQ s p q) := kept_onXlt hK h

theorem kept_faultLost {p : Part} (h : K s) : K (faultLost p s) := kept_cnt hK (kept_setFaultQ hK h)

theorem kept_requeue {r : LineReq} (h : K s) : K (requeue r s) := kept_onCache hK h

theorem kept_enqueue {r : LineReq} (h : K s) : K (enqueue r s) :=
  kept_requeue hK (either h (kept_countOps hK (kept_countOps hK h)))

theorem kept_ownStore {a : Half} {w : Who} {sa : Sa} {n v : Nat} (h : K s) : K (ownStore a w sa n v s).2 := by
  unfold ownStore
  split
  · exact h
  · exact kept_enqueue hK h

theorem kept_writeFault {i : FaultInfo} {p : Part} (h : K s) : K (writeFault i p s) :=
  either (kept_faultLost hK h)
    (either (kept_cnt hK (kept_setFaultQ hK (kept_ownStore hK h))) (kept_faultLost hK (kept_setFaultQ hK h)))

theorem kept_poisonRecord {t : ThreadId} {id kind : Nat} {sa : Sa} {p : Part} (h : K s) : K (poisonRecord t id kind sa p s) :=
  kept_writeFault hK h

theorem kept_consume {p : Part} (h : K s) : K (consume p s).2 := eitherSnd (kept_prstTrigger hK h) h

theorem kept_voidOut {t : ThreadId} {id : Nat} (h : K s) : K (voidOut t id s) :=
  hK.thread t.val ⟨rfl, rfl, rfl, fun hx => hx⟩ h

theorem kept_threadResult {t : ThreadId} {id : Nat} {v : List (BitVec 64)} (h : K s) : K (threadResult t id v s) :=
  hK.thread t.val ⟨rfl, rfl, rfl, fun hx => hx⟩ h

theorem kept_poisonResult {t : ThreadId} {id : Nat} {v : List (BitVec 64)} (h : K s) : K (poisonResult t id v s) :=
  kept_threadResult hK h

theorem kept_lostResult {t : ThreadId} {id n : Nat} (h : K s) : K (lostResult t id n s) :=
  kept_poisonResult hK (kept_freeCtr hK h)

theorem kept_setRo {i : Nat} {e : Option RoEnt} (h : K s) : K (setRo s i e) := kept_onSeq hK h

theorem kept_roInsert {k : Nat} {c : RoKind} {sa : Sa} {d : BitVec 256} (h : K s) : K (roInsert k c sa d s) := by
  unfold roInsert
  extract_lets b e
  split
  · exact kept_setRo hK h
  · exact kept_setRo hK (kept_foldl (fun _ _ ht => kept_setRo hK ht) h _)

theorem kept_constFill {r : LineReq} {x : LineRes} (h : K s) : K (constFill r x s) := by
  unfold constFill
  split
  · exact either (kept_roInsert hK h) h
  · exact h

theorem kept_blockLine {p : PartnerPort} {tag : BitVec 12} {st : Nat} (h : K s) : K (blockLine p tag st s) := by
  unfold blockLine
  split
  · exact h
  · exact either (kept_respond hK (kept_onLinks hK h)) (kept_onLinks hK h)

theorem kept_recordDone {p : Part} {slot : BitVec 32} (h : K s) : K (recordDone p slot s) := kept_setFaultQ hK h

theorem kept_answerReq {r : LineReq} {x : LineRes} {key : Option Nat} (h : K s) : K (answerReq r x key s) := by
  unfold answerReq
  extract_lets sp hit isRead st data s1 s2
  have hs2 : K s2 := kept_answerUnits hK (onlyIf (kept_poisonDelivered hK) h)
  clear_value s2
  split
  · exact kept_respond hK hs2
  · refine either (either (kept_voidOut hK ?_) (kept_poisonResult hK ?_))
      (either (kept_lostResult hK hs2) (kept_threadResult hK (kept_constFill hK hs2)))
    all_goals exact kept_consume hK (kept_poisonRecord hK hs2)
  · exact kept_blockLine hK hs2
  · exact kept_recordDone hK hs2
  · split
    next hasked =>
      refine hK.got _ (fun hnone _ => ?_) hs2
      rw [hnone] at hasked
      cases hasked
    · exact hs2
  · exact kept_onCache hK hs2
  · exact hs2

end

end Sys2Proof.Machine
end

section
/-! PROOFS. What settling keeps, continued: the line pipeline over the elementary operations, and settling itself. -/

namespace Sys2Proof.Machine

open Sys2Proof.Safety

section
-- Many short lemmas that cite one another: elaborating them side by side only makes threads wait on threads.
set_option Elab.async false

variable {K : State → Prop} (hK : Stable K) {s : State}
include hK

/-! Operations on one line. -/

theorem kept_serveRead {r : LineReq} {ro : Option Nat} {melt : Bool} {key : Nat} (h : K s) : K (serveRead r ro melt key s) :=
  kept_answerReq hK (kept_driftRead hK (kept_setMeta hK (onlyIf (kept_prefEnded hK) h)))

theorem kept_afterStore {key : Nat} {line : Sa} (h : K s) : K (afterStore key line s) :=
  have hclean : K _ := kept_onInteg hK (kept_onCache hK h)
  either (either (kept_onCache hK (kept_onInteg hK hclean)) (either (kept_setMeta hK (kept_onInteg hK hclean)) (kept_onInteg hK hclean))) hclean

theorem kept_storeLine {key : Nat} {line : Sa} {d : BitVec 1024} {m : Meta} (h : K s) : K (storeLine key line d m s) :=
  kept_countOps hK (kept_afterStore hK (kept_setMeta hK (kept_setData hK h)))

theorem kept_wakeWaits {line : Sa} (h : K s) : K (wakeWaits line s) := by
  unfold wakeWaits
  refine kept_foldl (fun t i ht => ?_) (hK.got (s.cache.got.map _) (fun _ hgot => by rw [hgot]; rfl) h) _
  split
  next w hw =>
    exact either (hK.thread i ⟨rfl, rfl, rfl, fun hx => by rw [hw] at hx; cases hx⟩ ht) ht
  · exact ht

theorem kept_serveWrite {r : LineReq} {mask : BitVec 128} {data : BitVec 1024} {key : Nat} (h : K s) : K (serveWrite r mask data key s) :=
  kept_answerReq hK (kept_wakeWaits hK (kept_storeLine hK (onlyIf (kept_prefEnded hK) h)))

theorem kept_markLine {key : Nat} {f : Meta → Meta} (h : K s) : K (markLine key f s) := either h (kept_setMeta hK h)

theorem kept_answerAtom {a : Atom} {hh : Half} {poisoned : Bool} {old : Nat} (h : K s) : K (answerAtom a hh poisoned old s) := by
  unfold answerAtom
  extract_lets s1
  have hs1 : K s1 := either (kept_poisonDelivered hK h) (kept_countOps hK (kept_cnt hK h))
  clear_value s1
  split
  · exact kept_respond hK hs1
  · refine either (either (kept_voidOut hK ?_) (kept_poisonResult hK ?_)) (kept_threadResult hK hs1)
    all_goals exact kept_consume hK (kept_poisonRecord hK hs1)
  · exact hs1

theorem kept_setAtuHalf {hh : Half} {x : AtuHalf} (h : K s) : K (setAtuHalf s hh x) := kept_onAtu hK h
theorem kept_dropAtom {hh : Half} {id : Nat} (h : K s) : K (dropAtom hh id s) := kept_setAtuHalf hK h
theorem kept_dropAddl {hh : Half} {id : Nat} (h : K s) : K (dropAddl hh id s) := kept_setAtuHalf hK h
theorem kept_putAtom {hh : Half} {a : Atom} (h : K s) : K (putAtom hh a s) := kept_setAtuHalf hK h
theorem kept_putAddl {hh : Half} {a : Addl} (h : K s) : K (putAddl hh a s) := kept_setAtuHalf hK h
theorem kept_setFp {hh : Half} {f : FpFlags} (h : K s) : K (setFp hh f s) := kept_setAtuHalf hK h

theorem kept_discardAddl {hh : Half} {a : Addl} (h : K s) : K (discardAddl hh a s) :=
  kept_cnt hK (kept_dropAddl hK (kept_setAtuHalf hK h))

theorem kept_atuOnLine {hh : Half} {id key : Nat} (h : K s) : K (atuOnLine hh id key s) := by
  unfold atuOnLine
  extract_lets m d s1
  have hs1 : K s1 := onlyIf (kept_prefEnded hK) h
  clear_value s1
  split
  · refine either (kept_answerAtom hK ?_) (either (kept_answerAtom hK ?_) (kept_answerAtom hK ?_))
    · exact kept_dropAtom hK (kept_setMeta hK hs1)
    · exact kept_dropAtom hK (kept_setMeta hK hs1)
    · exact kept_dropAtom hK (kept_wakeWaits hK (kept_storeLine hK hs1))
  · split
    · exact hs1
    · refine either (kept_discardAddl hK (kept_setMeta hK hs1)) (kept_countOps hK (kept_cnt hK (kept_setFp hK ?_)))
      exact kept_dropAddl hK (kept_wakeWaits hK (kept_storeLine hK hs1))

theorem kept_atLine {r : LineReq} {key : Nat} (h : K s) : K (atLine r key s).2 := by
  unfold atLine
  extract_lets m
  split
  · exact kept_serveRead hK h
  · exact eitherSnd (kept_startInv hK h) (kept_serveWrite hK h)
  · exact kept_answerReq hK (kept_setMeta hK (onlyIf (kept_prefEnded hK) h))
  · exact kept_answerReq hK (kept_markLine hK h)
  · exact kept_answerReq hK (kept_markLine hK h)
  · split
    · exact h
    · exact eitherSnd (kept_startInv hK h) (eitherSnd (kept_atuOnLine hK h) h)

/-! Requests to the shelf. -/

theorem kept_poolTag (h : K s) : K (poolTag s).2 := by
  have hset : (poolTag s).2 = s.onCache fun c => { c with poolTag := (poolTag s).1 + 1 } := rfl
  rw [hset]
  exact kept_onCache hK h

theorem kept_poolSend {q : PoolReq} (h : K s) : K (poolSend q s) := by
  unfold poolSend
  split
  · exact kept_poolIssue hK h
  · exact kept_onCache hK h

theorem kept_sendFill {hh : Half} {line : Sa} {p : Part} {mask : BitVec 4} {w : PoolWho} (h : K s) : K (sendFill hh line p mask w s) :=
  kept_poolSend hK (kept_poolTag hK h)

theorem kept_sendWt {hh : Half} {line : Sa} {p : Part} {mask : BitVec 128} {d : BitVec 1024} {w : PoolWho} (h : K s) :
    K (sendWt hh line p mask d w s) :=
  either (kept_poolSend hK (kept_poolTag hK h)) (kept_poolSend hK (kept_poolTag hK h))

theorem kept_sendWb {hh : Half} {line : Sa} {p : Part} {dirty poison : BitVec 4} {d : BitVec 1024} {crc : Option (BitVec 32)} {w : PoolWho}
    (h : K s) : K (sendWb hh line p dirty poison d crc w s) :=
  kept_poolSend hK (kept_poolTag hK h)

theorem kept_onCopy {r : LineReq} {id : Nat} (h : K s) : K (onCopy r id s).2 := by
  unfold onCopy
  extract_lets line ask put
  have hask {u : State} (hu : K u) : K (ask u) := kept_sendFill hK (kept_cnt hK hu)
  have hput {sp : BitVec 4} {d : BitVec 1024} {u : State} (hu : K u) : K (put sp d u) := kept_sendWb hK (kept_countOps hK hu)
  clear_value ask put
  split
  · split
    · exact hask (kept_putAtom hK h)
    · refine eitherSnd h (eitherSnd (kept_answerAtom hK (kept_dropAtom hK h)) (eitherSnd (kept_answerAtom hK (kept_dropAtom hK h)) ?_))
      exact hput (kept_putAtom hK h)
    · exact h
  · split
    · exact h
    · split
      · exact hask (kept_putAddl hK h)
      · refine eitherSnd h (eitherSnd (kept_discardAddl hK h) (hput ?_))
        exact kept_countOps hK (kept_cnt hK (kept_setFp hK (kept_dropAddl hK h)))
      · exact h

theorem kept_uncached {r : LineReq} (h : K s) : K (uncached r s).2 := by
  unfold uncached
  extract_lets line c
  have hc : K c := kept_cnt hK h
  split
  · exact kept_sendFill hK hc
  · exact kept_answerReq hK h
  · exact kept_answerReq hK h
  · exact kept_answerReq hK h
  · exact eitherSnd (kept_answerReq hK h) (kept_sendWt hK hc)
  · exact kept_onCopy hK h

/-! Misses. -/

theorem kept_putMshr {q : Mshr} (h : K s) : K (putMshr q s) := kept_onCache hK h

theorem kept_takeOffer {hh : Half} {line : Sa} (h : K s) : K (takeOffer hh line s).2 := by
  unfold takeOffer
  dsimp only
  exact kept_onCache hK h

theorem kept_victim {key0 k : Nat} {u : State} (h : K s) (hu : victim s key0 = some (k, u)) : K u := by
  unfold victim at hu
  dsimp only at hu
  have hfold : K _ := kept_foldl (f := fun t k => setMeta t k { metaAt t k with ref := false }) (fun _ _ ht => kept_setMeta hK ht) h (waysOf key0)
  repeat' split at hu
  all_goals cases hu
  iterate 5 exact h
  exact hfold

theorem kept_mshrStart {q : Mshr} (h : K s) : K (mshrStart q s) := by
  unfold mshrStart
  extract_lets o s1 sv sp d zero m s2 need s3
  have hs1 : K s1 := kept_takeOffer hK h
  have hs2 : K s2 := either (kept_setMeta hK hs1) (kept_setMeta hK (kept_setData hK hs1))
  have hs3 : K s3 := kept_putMshr hK hs2
  exact either hs3 (kept_sendFill hK hs3)

theorem kept_lineMiss {r : LineReq} {key0 : Nat} {pf : Bool} {u : State} (h : K s) (hu : lineMiss r key0 pf s = some u) : K u := by
  unfold lineMiss at hu
  split at hu
  · cases hu
  · split at hu
    · cases hu
    next k v hv =>
      extract_lets q s1 m at hu
      have hs1 : K s1 := kept_onCache hK (kept_victim hK h hv)
      clear_value s1
      split at hu
      · cases hu
        exact kept_mshrStart hK hs1
      · split at hu
        · cases hu
          exact hs1
        · cases hu
          exact kept_startInv hK hs1

theorem kept_prefetchNext {r : LineReq} (h : K s) : K (prefetchNext r s) := by
  unfold prefetchNext
  extract_lets readType next hh d s1 drop
  have hs1 : K s1 := kept_freeCtr hK h
  refine either h ?_
  split
  · exact h
  next i _ =>
    extract_lets e k0 t
    have ht : K t := kept_checkRow hK hs1
    refine either h (either hs1 (either (kept_cnt hK hs1) (either ht ?_)))
    split
    · exact kept_cnt hK ht
    next v hv => exact kept_cnt hK (kept_tally hK (kept_lineMiss hK ht hv))

theorem kept_lookup {r : LineReq} {i : Nat} {e : GtEnt} (h : K s) : K (lookup r i e s).2 := by
  unfold lookup
  extract_lets line k0 retired ev
  have hev {c : Nat} {u : State} (hu : K u) : K (ev c u) := kept_cnt hK (kept_cnt hK hu)
  clear_value ev
  split
  · exact eitherSnd (kept_putMshr hK h)
      (either (kept_putMshr hK (hev h)) (kept_sendFill hK (kept_putMshr hK (hev h))))
  · split
    next k _ =>
      refine eitherSnd h (eitherSnd (eitherSnd (hev (kept_atLine hK h)) (kept_atLine hK h)) (eitherSnd h ?_))
      exact kept_sendFill hK (kept_onCache hK (hev h))
    · refine eitherSnd (kept_answerReq hK (hev h)) (eitherSnd (kept_uncached hK h) ?_)
      split
      · exact h
      next t ht => exact kept_prefetchNext hK (hev (kept_lineMiss hK h ht))

theorem kept_tryHome {r : LineReq} (h : K s) : K (tryHome r s).2 := by
  unfold tryHome
  extract_lets c k t
  have hc : K c := kept_checkTables hK h
  have ht : K t := kept_checkRow hK hc
  refine eitherSnd h (eitherSnd hc (eitherSnd (eitherSnd ht (eitherSnd ht (kept_charged hK (kept_atLine hK ht)))) (eitherSnd hc ?_)))
  split
  · exact kept_uncached hK hc
  · exact eitherSnd (kept_uncached hK hc) (eitherSnd (kept_checkRow hK hc) (kept_charged hK (kept_lookup hK (kept_checkRow hK hc))))

theorem kept_tryReq {r : LineReq} (h : K s) : K (tryReq r s).2 := by
  unfold tryReq
  split
  · exact kept_tryHome hK h
  · refine eitherSnd (kept_checkRow hK h) ?_
    split
    · exact kept_charge hK (kept_cnt hK (kept_serveRead hK (kept_checkRow hK h)))
    · exact kept_charged hK (kept_tryHome hK (kept_checkRow hK h))

theorem kept_pumpFrom {fuel i : Nat} (h : K s) : K (pumpFrom fuel i s) := by
  induction fuel generalizing i s with
  | zero => exact h
  | succ fuel ih =>
    rw [pumpFrom]
    split
    · exact h
    · have htry {r : LineReq} : K (tryReq r (s.onCache fun c => { c with blocked := c.blocked.eraseIdx i })).2 :=
        kept_tryReq hK (kept_onCache hK h)
      exact either (ih h) (either (ih htry) (ih (kept_onCache hK (onlyIf (kept_cnt hK) htry))))

theorem kept_pumpBlocked (h : K s) : K (pumpBlocked s) := kept_pumpFrom hK h

theorem kept_startEvict {q : Mshr} (h : K s) : K (startEvict q s) := either h (either (kept_mshrStart hK h) (kept_startInv hK h))

theorem kept_serveWaiters {n : Nat} {q : Mshr} (h : K s) : K (serveWaiters n q s) := by
  induction n generalizing q s with
  | zero => exact h
  | succ n ih =>
    rw [serveWaiters]
    split
    · exact either (kept_onCache hK h) h
    next r rest _ =>
      extract_lets m t x q2 isAtu
      have ht : K t := kept_checkRow hK h
      have hx : K x.2 := kept_atLine hK ht
      exact either h (either ht (either (ih (kept_putMshr hK (onlyIf (fun hu => kept_charge hK hu) hx))) hx))

theorem kept_pumpMshrs (h : K s) : K (pumpMshrs s) := by
  unfold pumpMshrs
  refine kept_foldl (fun t q ht => ?_) h _
  split
  · exact either (kept_startEvict hK ht) (kept_serveWaiters hK ht)
  · exact ht

/-! The ends of invalidations and failed fills. -/

theorem kept_replicaAck {hh : Half} {line : Sa} (h : K s) : K (replicaAck hh line s) := by
  unfold replicaAck
  exact kept_onCache hK h

theorem kept_writeBack {hh : Half} {key : Nat} {line : Sa} (h : K s) : K (writeBack hh key line s) :=
  kept_cnt hK (kept_sendWb hK (kept_chargeOwn hK h))

theorem kept_sendOffer {hh : Half} {key : Nat} {line : Sa} (h : K s) : K (sendOffer hh key line s) := by
  unfold sendOffer
  split
  · exact h
  · exact kept_chargeOwn hK (kept_cnt hK (kept_sendFrame hK (kept_onCache hK (kept_poolTag hK h))))

theorem kept_replicaOut {hh : Half} {m : Meta} {line : Sa} (h : K s) : K (replicaLeft hh m (pushHalf hh.other (.drop line) s)) :=
  kept_replicaLeft hK (kept_pushHalf hK h)

theorem kept_evictNow {hh : Half} {key : Nat} (h : K s) : K (evictNow hh key s) := by
  unfold evictNow
  extract_lets m line s1 s2 s3
  have hs2 : K s2 := onlyIf (kept_prefEnded hK) (kept_cnt hK h)
  exact kept_clearLine hK (either (kept_replicaOut hK hs2) (either (kept_cnt hK hs2) (either (kept_writeBack hK hs2)
    (either (kept_sendOffer hK hs2) hs2))))

theorem kept_flushNow {hh : Half} {key : Nat} (h : K s) : K (flushNow hh key s) := by
  unfold flushNow
  extract_lets m line s1 s2
  have hs1 : K s1 := onlyIf (kept_prefEnded hK) h
  exact kept_clearLine hK (either (kept_replicaOut hK hs1) (either (kept_writeBack hK hs1) hs1))

theorem kept_discardNow {hh : Half} {key : Nat} (h : K s) : K (discardNow hh key s) := by
  unfold discardNow
  extract_lets m line s1 s2
  have hs1 : K s1 := onlyIf (kept_prefEnded hK) h
  exact kept_clearLine hK (either (kept_replicaOut hK hs1) (kept_cnt hK hs1))

theorem kept_replicaPut {hh : Half} {key : Nat} {line : Sa} {p : Part} {d : BitVec 1024} {v : Bool} {c : BitVec 32} {sp : BitVec 4}
    (h : K s) : K (replicaPut hh key line p d v c sp s) :=
  kept_chargeOwn hK (kept_cnt hK (kept_setMeta hK (kept_setData hK (kept_clearEcc hK h))))

theorem kept_replicaGone {o : InvOp} (h : K s) : K (replicaGone o s) := either (kept_replicaAck hK h) (kept_pushHalf hK h)

theorem kept_finishInv {o : InvOp} (h : K s) : K (finishInv o s) := by
  unfold finishInv
  extract_lets m m0 ack s1
  have hack {u : State} (hu : K u) : K (ack u) := either (kept_replicaAck hK hu) hu
  have hm0 : K (setMeta s o.key m0) := kept_setMeta hK h
  clear_value ack
  split
  · extract_lets s2
    have hs2 : K s2 := kept_charge hK hm0
    split
    · exact kept_serveWrite hK hs2
    · exact kept_atuOnLine hK hs2
    · exact hs2
  · have hs1 : K s1 := hack (kept_evictNow hK hm0)
    split
    · exact kept_mshrStart hK hs1
    · exact hs1
  · exact kept_replicaPut hK (hack (kept_evictNow hK hm0))
  · exact hack (kept_flushNow hK hm0)
  · exact hack (kept_discardNow hK hm0)
  · exact hack (kept_flushNow hK (kept_setMeta hK h))
  · exact kept_replicaGone hK (kept_clearLine hK (kept_replicaLeft hK hm0))
  · exact hm0

theorem kept_finishInvs (h : K s) : K (finishInvs s) := by
  unfold finishInvs
  refine kept_foldl (fun t o ht => ?_) h _
  split
  · exact ht
  · exact either (kept_finishInv hK (kept_onCache hK ht)) ht

theorem kept_failReq {hh : Half} {r : LineReq} (h : K s) : K (failReq hh r s) := by
  unfold failReq
  split
  · split
    · exact kept_answerAtom hK (kept_dropAtom hK h)
    · split
      · exact kept_discardAddl hK h
      · exact h
  · exact kept_answerReq hK h

theorem kept_failFill {q : PoolReq} (h : K s) : K (failFill q s) := by
  unfold failFill
  split
  · split
    · exact h
    · exact kept_foldl (fun _ _ ht => kept_failReq hK ht) (kept_putMshr hK h) _
  · exact kept_failReq hK h
  · split
    · exact kept_putAtom hK h
    · split
      · exact kept_putAddl hK h
      · exact h
  · exact h

theorem kept_pumpPool (h : K s) : K (pumpPool s) := by
  unfold pumpPool
  refine kept_foldl (fun t q ht => ?_) h _
  exact kept_failFill hK (kept_onCache hK ht)

theorem kept_settleRound (h : K s) : K (settleRound s) :=
  kept_pumpBlocked hK (kept_pumpMshrs hK (kept_finishInvs hK (kept_pumpPool hK h)))

theorem kept_settleN {n : Nat} (h : K s) : K (settleN n s) := by
  induction n generalizing s with
  | zero => exact h
  | succ n ih => exact either h (ih (kept_settleRound hK h))

theorem kept_settleAll (h : K s) : K (settleAll s) := kept_settleN hK h

/-! Waiting `ADDL`s. -/

theorem kept_setOrd {n : Nat} {o : Ord} (h : K s) : K (setOrd s n o) := kept_onAtu hK h

theorem kept_setNext {n l : Nat} {v : BitVec 8} (h : K s) : K (setNext s n l v) := kept_onAtu hK h

theorem kept_atuId (h : K s) : K (atuId s).2 := by
  unfold atuId
  dsimp only
  exact kept_onAtu hK h

theorem kept_pushAddl {hh a : Half} {fmt : BitVec 4} {line : Sa} {d : BitVec 1024} {p : Part} {m : Nat} {c : Option (Fin 32)} (h : K s) :
    K (pushAddl hh fmt line d p a m c s) :=
  kept_enqueue hK (kept_setAtuHalf hK (kept_atuId hK h))

theorem kept_release {fuel : Nat} {hh : Half} {n : Fin 32} {line : Sa} {l : Nat} (h : K s) : K (release fuel hh n line l s) := by
  induction fuel generalizing s with
  | zero => exact h
  | succ fuel ih =>
    rw [release]
    split
    · exact either (kept_setOrd hK (kept_setNext hK h)) h
    · exact either (either (kept_setOrd hK (kept_setNext hK h)) h)
        (ih (kept_setNext hK (kept_pushAddl hK (kept_setAtuHalf hK (either (kept_setOrd hK (kept_setNext hK h)) h)))))

theorem kept_releaseAllHeld {hh : Half} (h : K s) : K (releaseAllHeld hh s) := by
  unfold releaseAllHeld
  refine kept_foldl (fun t e ht => ?_) h _
  split
  · exact kept_release hK ht
  · exact ht

theorem kept_decideAddl {fmt : BitVec 4} {tag : BitVec 32} {line : Sa} {d : BitVec 1024} {p : Part} {a hh : Half} {m : Nat} (h : K s) :
    K (decideAddl fmt tag line d p a hh m s).2 := by
  unfold decideAddl
  extract_lets full s1 n q o
  have hs1 : K s1 := either h (kept_charge hK h)
  refine eitherSnd hs1 (eitherSnd (kept_cnt hK (kept_pushAddl hK hs1)) ?_)
  split
  · exact hs1
  · refine eitherSnd hs1 (eitherSnd ?_ (eitherSnd (kept_cnt hK hs1) (kept_cnt hK (kept_setAtuHalf hK hs1))))
    exact kept_cnt hK (kept_release hK (kept_setNext hK (kept_pushAddl hK hs1)))

theorem kept_takeFrame {n : Nat} {f : Frame} (h : K s) : K (takeFrame n f s) := by
  unfold takeFrame freeCredit
  exact kept_modLink hK (kept_modLink hK h)

theorem kept_takeRx {n opc : Nat} {tag : BitVec 12} (h : K s) : K (takeRx n opc tag s) := by
  unfold takeRx
  split
  · exact h
  · exact kept_takeFrame hK h

theorem kept_answerAddl {w : Who} {p : Part} {line : Sa} {st : Nat} (h : K s) : K (answerAddl w p line st s) := by
  unfold answerAddl
  split
  · exact kept_respond hK (kept_takeRx hK h)
  · exact h

theorem kept_takeWaiting {fuel : Nat} {hh : Half} (h : K s) : K (takeWaiting fuel hh s) := by
  induction fuel generalizing s with
  | zero => exact h
  | succ fuel ih =>
    rw [takeWaiting]
    split
    · exact h
    · extract_lets fenced r
      have hr : K r.2 := eitherSnd h (kept_decideAddl hK h)
      split
      · exact h
      · exact ih (kept_answerAddl hK (kept_setAtuHalf hK hr))

theorem kept_atuRoom {hh : Half} (h : K s) : K (atuRoom hh s) := kept_takeWaiting hK (kept_releaseAllHeld hK h)

/-! Frees of blocks. -/

theorem kept_scanFrees (h : K s) : K (scanFrees s) := by
  unfold scanFrees
  refine kept_foldl (fun t e ht => ?_) h _
  exact either ht (kept_foldl (fun _ _ hu => either hu (kept_startInv hK hu)) ht _)

/-- The end of one free takes its entry away; a thread that waits for it goes on. -/
theorem kept_finishFree {e : Nat × Option (Who × Part × Sa) × Part} (he : e ∈ s.buf.frees) (h : K s) : K (finishFree e s) := by
  unfold finishFree
  extract_lets hh s1
  have hs1 : K s1 := kept_cnt hK (kept_onBuf hK (hK.fewer _ List.erase_subset h))
  split
  next t d q hwho =>
    have hpending : freePending s t = true := by
      unfold freePending
      rw [List.any_eq_true]
      exact ⟨e, he, by rw [hwho]; exact beq_self_eq_true t⟩
    have hthr : thr s1 t.val = thr s t.val := by simp [s1, thr, subUsed]
    have hmoved := hK.freed t (fun x => { (x.setG d 0).next with wait := none, waitLeft := none }) hpending h
    have hfewer := hK.fewer (s := modThr s t.val _) (s.buf.frees.erase e) List.erase_subset hmoved
    have hused := kept_onBuf hK hfewer (f := fun u => { u with used := tmod 0 u.used (32 * hh.idx + e.2.2.toNat) (· - 1) })
    have hbuf : s1.buf = { s.buf with
        frees := s.buf.frees.erase e, used := tmod 0 s.buf.used (32 * hh.idx + e.2.2.toNat) (· - 1) } := cnt_buf ..
    refine hK.alike hused
      { data := by simp [s1, subUsed]
        asked := by simp [s1, subUsed]
        got := by simp [s1, subUsed]
        th := ?_
        boot := by simp [s1, subUsed]
        region := by simp [s1, subUsed]
        free := freePending_congr (by exact congrArg Buf.frees hbuf)
        tgt := fun i => by simp [s1, subUsed] }
    have hseq : s1.seq = s.seq := by simp [s1, subUsed]
    simp [modThr, setThr, hthr, hseq]
  next w p sa hnot _ =>
    unfold blockAnswer
    split
    · exact kept_respond hK hs1
    next t d _ => exact absurd rfl (hnot t d)
    · exact hs1
  · exact hs1

end

/-- Every other free stays when one ends. -/
theorem frees_finishFree (e : Nat × Option (Who × Part × Sa) × Part) (s : State) : (finishFree e s).buf.frees = s.buf.frees.erase e := by
  unfold finishFree
  dsimp only
  split
  · exact congrArg Buf.frees (cnt_buf ..)
  · unfold blockAnswer
    split
    · exact (congrArg Buf.frees ((hands_sendFrame _ _ _).frame .buf (by decide))).trans (congrArg Buf.frees (cnt_buf ..))
    · exact congrArg Buf.frees (cnt_buf ..)
    · exact congrArg Buf.frees (cnt_buf ..)
  · exact congrArg Buf.frees (cnt_buf ..)

theorem kept_finishFrees {K : State → Prop} (hK : Stable K) {s : State} (h : K s) : K (finishFrees s) := by
  unfold finishFrees
  have hall (l : List (Nat × Option (Who × Part × Sa) × Part)) (t : State) (hl : l.Subperm t.buf.frees) (ht : K t) :
      K (l.foldl (fun t e =>
        if roWaits t e.1 ∨ t.cache.invs.any (fun o => inBlock e.1 o.key) ∨ !(sharedIn t e.1).isEmpty then t else finishFree e t) t) := by
    induction l generalizing t with
    | nil => exact ht
    | cons e l ih =>
      rw [List.foldl_cons]
      split
      · exact ih t ((List.sublist_cons_self e l).subperm.trans hl) ht
      · refine ih _ ?_ (kept_finishFree hK (hl.subset (List.mem_cons_self ..)) ht)
        rw [frees_finishFree]
        have herase := hl.erase e
        rwa [List.erase_cons_head] at herase
  exact hall _ s (List.Subperm.refl _) h

/-- What every elementary effect of the line pipeline keeps, settling keeps. -/
theorem kept_settle {K : State → Prop} (hK : Stable K) {s : State} (h : K s) : K (settle s) := by
  unfold settle
  extract_lets t t2
  have ht : K t := kept_settleAll hK h
  have ht2 : K t2 := either ht (kept_settleAll hK (kept_atuRoom hK (kept_atuRoom hK ht)))
  exact either ht2 (kept_finishFrees hK (kept_settleAll hK (kept_scanFrees hK ht2)))

end Sys2Proof.Machine
end

section
/-! PROOFS. A thread while lines are served for it: a fetch that delivers a word has met no fatal reset, and has left the thread's task, its
pc and the fact that it does not wait as they were. -/

namespace Sys2Proof.Machine

open Sys2Proof.Safety

/-- Thread `t` stands in `u` where it stood in `s`: the same task at the same pc, no wait begun, no `free` of its own pending and no core
newly under test. -/
structure Standing (t : ThreadId) (s u : State) : Prop where
  task : Gentle (thr s t.val) (thr u t.val)
  free : freePending s t = false → freePending u t = false
  tgt (i : Nat) : (tget Target.zero u.tst.tgt i).state = (tget Target.zero s.tst.tgt i).state

theorem Gentle.refl (x : Thread) : Gentle x x := ⟨rfl, rfl, rfl, id⟩

theorem Gentle.trans {x y z : Thread} (h1 : Gentle x y) (h2 : Gentle y z) : Gentle x z :=
  ⟨h2.phase.trans h1.phase, h2.pc.trans h1.pc, h2.part.trans h1.part, fun h => h2.wait (h1.wait h)⟩

theorem Standing.refl (t : ThreadId) (s : State) : Standing t s s := ⟨Gentle.refl _, id, fun _ => rfl⟩

theorem Standing.trans {t : ThreadId} {s u v : State} (h1 : Standing t s u) (h2 : Standing t u v) : Standing t s v :=
  ⟨h1.task.trans h2.task, fun h => h2.free (h1.free h), fun i => (h2.tgt i).trans (h1.tgt i)⟩

theorem Standing.of_eq {t : ThreadId} {s u : State} (hth : thr u t.val = thr s t.val) (hbuf : u.buf.frees = s.buf.frees)
    (htst : u.tst = s.tst) : Standing t s u :=
  ⟨by rw [hth]; exact Gentle.refl _, fun h => by rwa [freePending_congr hbuf], fun _ => by rw [htst]⟩

/-- A fatal reset has taken every request and every answer away. -/
def resetSince (u : State) : Prop := u.cache.asked = [] ∧ u.cache.got = []

/-- While lines are served the thread stands, or a fatal reset has come. -/
def Followed (t : ThreadId) (s u : State) : Prop := resetSince u ∨ (freePending u t = false ∧ Standing t s u)

theorem fatalNow_cache (s : State) (cause : Nat) : (fatalNow s cause).cache = Cache.reset := by
  unfold fatalNow
  exact (bootWork_bootStart _).frame .cache (by decide)

theorem stable_followed (t : ThreadId) (s0 : State) : Stable (Followed t s0) where
  alike h ha := by
    obtain ⟨hasked, hgot⟩ | ⟨hfree, hstand⟩ := h
    · exact .inl ⟨ha.asked.trans hasked, ha.got.trans hgot⟩
    · refine .inr ⟨(ha.free t).trans hfree, hstand.trans ⟨?_, fun h => (ha.free t).trans h, ha.tgt⟩⟩
      rename_i s u
      rw [show thr u t.val = thr s t.val by rw [thr, thr, ha.th]]
      exact Gentle.refl _
  fatal cause _ := .inl ⟨by rw [fatalNow_cache]; rfl, by rw [fatalNow_cache]; rfl⟩
  data key d h := h.imp id fun ⟨hfree, hstand⟩ => ⟨hfree, hstand.trans ⟨Gentle.refl _, id, fun _ => rfl⟩⟩
  got l hl h := by
    obtain ⟨hasked, hgot⟩ | ⟨hfree, hstand⟩ := h
    · exact .inl ⟨hasked, hl hasked hgot⟩
    · exact .inr ⟨hfree, hstand.trans ⟨Gentle.refl _, id, fun _ => rfl⟩⟩
  thread k f hf h := by
    refine h.imp id fun ⟨hfree, hstand⟩ => ⟨hfree, hstand.trans ⟨?_, id, fun _ => rfl⟩⟩
    by_cases hk : t.val = k
    · subst hk
      rwa [thr_modThr_self]
    · rw [thr_modThr_ne _ _ hk]
      exact Gentle.refl _
  freed k f hk h := by
    refine h.imp id fun ⟨hfree, hstand⟩ => ⟨hfree, hstand.trans ⟨?_, id, fun _ => rfl⟩⟩
    have hne : t.val ≠ k.val := fun he => by
      rw [Fin.ext he, hk] at hfree
      cases hfree
    rw [thr_modThr_ne _ _ hne]
    exact Gentle.refl _
  fewer {s} l hl h := by
    refine h.imp id fun ⟨hfree, hstand⟩ => ?_
    have hfree' : freePending (s.onBuf fun u => { u with frees := l }) t = false := by
      unfold freePending at hfree ⊢
      rw [List.any_eq_false] at hfree ⊢
      exact fun e he => hfree e (hl he)
    exact ⟨hfree', hstand.trans ⟨Gentle.refl _, fun _ => hfree', fun _ => rfl⟩⟩

/-- Lines that are all there have been read without a fatal reset. -/
theorem followed_settle {t : ThreadId} {s : State} (hfree : freePending s t = false) : Followed t s (settle s) :=
  kept_settle (stable_followed t s) (.inr ⟨hfree, Standing.refl t s⟩)

/-- Counted operations start and end no test (R348). -/
theorem countOps_state (h : Half) (lo n k i : Nat) (s : State) :
    (tget Target.zero (countOps h lo n k s).tst.tgt i).state = (tget Target.zero s.tst.tgt i).state := by
  refine fold_keeps (fun u => (tget Target.zero u.tst.tgt i).state) _ (fun u j => ?_) _ s
  dsimp only
  split
  · by_cases hi : i = 22 * h.idx + (lo + j)
    · subst hi
      exact (congrArg Target.state (tget_tset_self ..)).trans rfl
    · exact congrArg Target.state (tget_tset_ne _ _ _ hi)
  · rfl

theorem standing_enqueue (t : ThreadId) (r : LineReq) (s : State) : Standing t s (enqueue r s) := by
  have hframe : changesOnly [.cache, .tst] s (enqueue r s) := by
    unfold enqueue requeue
    split <;> simp
  refine ⟨?_, fun h => ?_, fun i => ?_⟩
  · rw [thr_congr (hframe .seq (by decide))]
    exact Gentle.refl _
  · rwa [freePending_congr (congrArg Buf.frees (hframe .buf (by decide)))]
  · unfold enqueue requeue
    split
    · rfl
    · rw [State.onCache_tst, countOps_state, countOps_state]

/-- To ask for lines changes no thread. -/
theorem standing_askAll (t : ThreadId) (c : Consumer) (rs : List (Nat × LineReq)) (s : State) : Standing t s (askAll c rs s) := by
  unfold askAll
  induction rs generalizing s with
  | nil => exact Standing.refl t s
  | cons r rs ih =>
    rw [List.foldl_cons]
    refine Standing.trans ?_ (ih _)
    split
    · exact Standing.refl t s
    · have hmark : Standing t s (s.onCache fun q => { q with asked := q.asked ++ [(c, r.1)] }) := .of_eq rfl rfl rfl
      exact hmark.trans (standing_enqueue ..)

/-- A gathering of lines that has them all has left the thread standing. -/
theorem gather_standing {t : ThreadId} {c : Consumer} {rs : List (Nat × LineReq)} {s : State} (hrs : rs ≠ [])
    (hfree : freePending s t = false) (h : (gather c rs s).1 ≠ none) : Standing t s (gather c rs s).2 := by
  have hask := standing_askAll t c rs s
  have hsettled := followed_settle (hask.free hfree)
  have hforget : Standing t (settle (askAll c rs s)) (gather c rs s).2 := by
    unfold gather collect
    dsimp only
    split <;> exact .of_eq rfl rfl rfl
  obtain ⟨-, hgot⟩ | ⟨-, hstand⟩ := hsettled
  · refine absurd ?_ h
    have hnone (k : Nat) : gotOf (settle (askAll c rs s)) c k = none := by
      unfold gotOf
      rw [hgot]
      rfl
    have hlen : (rs.filterMap fun r => gotOf (settle (askAll c rs s)) c r.1).length ≠ rs.length := by
      obtain ⟨r, rs, rfl⟩ := List.exists_cons_of_ne_nil hrs
      simp [hnone]
    unfold gather collect
    dsimp only
    rw [if_neg hlen]
  · exact hask.trans (hstand.trans hforget)

/-! ## Fetches (R218) -/

theorem standing_reach (t : ThreadId) (p : Part) (pva : BitVec 64) (page need : Rights) (kind : Nat) (dev : Space → Bool) (held : Option Tlb)
    (s : State) : Standing t s (reach t.val p pva page need kind dev held s).2 := by
  obtain ⟨x, hx⟩ := reach_only t.val p pva page need kind dev held s
  rw [hx]
  exact .of_eq rfl rfl rfl

theorem setRo_only (i : Nat) (e : Option RoEnt) (s : State) : ∃ q, setRo s i e = { s with seq := { s.seq with ro := q } } := ⟨_, rfl⟩

theorem roTouch_only (k : Nat) (c : RoKind) (sa : Sa) (s : State) : ∃ q, roTouch k c sa s = { s with seq := { s.seq with ro := q } } := by
  unfold roTouch
  dsimp only
  split
  · exact setRo_only ..
  · exact ⟨_, rfl⟩

theorem Standing.of_ro {t : ThreadId} {s u : State} (h : ∃ q, u = { s with seq := { s.seq with ro := q } }) : Standing t s u := by
  obtain ⟨q, rfl⟩ := h
  exact .of_eq rfl rfl rfl

theorem standing_roInsert (t : ThreadId) (k : Nat) (c : RoKind) (sa : Sa) (d : BitVec 256) (s : State) : Standing t s (roInsert k c sa d s) := by
  have hset {u : State} {i : Nat} {e : Option RoEnt} (hu : Standing t s u) : Standing t s (setRo u i e) := hu.trans (.of_ro (setRo_only ..))
  unfold roInsert
  extract_lets b e s1
  split
  · exact hset (.refl t s)
  · exact hset (kept_foldl (fun _ _ hu => hset hu) (.refl t s) _)

theorem Standing.of_count {t : ThreadId} {s : State} {c : Bool} {ev : Nat} {h : Option Half} {p : Option Part} :
    Standing t s (if c then s else cnt ev h p 1 s) := by
  split
  · exact .refl t s
  · refine .of_eq ?_ ?_ ?_ <;> simp [thr]

theorem roWord_standing {c : Consumer} {t : ThreadId} {p : Part} {sa : Sa} {home : Half} {s : State} (hfree : freePending s t = false)
    (h : (roWord c t p sa home s).1 ≠ none) : Standing t s (roWord c t p sa home s).2 := by
  unfold roWord at h ⊢
  extract_lets k s1 g at h
  extract_lets
  split
  · exact .of_ro (roTouch_only ..)
  next hmiss =>
    rw [hmiss] at h
    dsimp only at h
    have hs1 : Standing t s s1 := .of_count
    have hg (hsome : g.1 ≠ none) : Standing t s1 g.2 := gather_standing (List.cons_ne_nil _ _) (hs1.free hfree) hsome
    clear_value g
    split
    next hnone => rw [hnone] at h; exact absurd rfl h
    next xs hxs =>
      have hgot := hs1.trans (hg (by rw [hxs]; exact Option.some_ne_none _))
      dsimp only
      split
      · exact hgot
      · exact hgot.trans (standing_roInsert ..)

/-- A fetch that delivers a word has left the thread standing. -/
theorem fetch_standing {t : ThreadId} {s : State} {w : BitVec 64} (hfree : freePending s t = false) (h : (fetch t s).1 = .ok w) :
    Standing t s (fetched t s) := by
  unfold fetched
  unfold fetch at h ⊢
  extract_lets th pva r at h
  extract_lets
  have hr : Standing t s r.2 := standing_reach ..
  clear_value r
  split
  · exact .refl t s
  next hahead =>
    rw [hahead] at h
    dsimp only at h
    split
    · exact hr
    next hwait => rw [hwait] at h; cases h
    next x sa hgo =>
      rw [hgo] at h
      dsimp only at h ⊢
      have hg := roWord_standing (c := .fetch t) (p := th.part) (sa := sa) (home := x.home t.val) (hr.free hfree)
      generalize roWord (.fetch t) t th.part sa (x.home t.val) r.2 = g at h hg ⊢
      split
      next hnone => rw [hnone] at h; cases h
      next w bad hw => exact hr.trans (hg (by rw [hw]; exact Option.some_ne_none _))

end Sys2Proof.Machine
end

section
/-! PROOFS. The thread registers and the end of tasks (R225, R232, R233, R253, R254, R274). -/

namespace Sys2Proof.Machine

open Sys2Proof.Safety

/-- A retired instruction leaves what its register write makes of the thread. -/
theorem became_retired {t : ThreadId} {f : Thread → Thread} {y : Thread} {s : State}
    (hf : { f { thr s t.val with held := none, ahead := none } with wait := none, waitLeft := none, hit := none, xl := none } = ended y) :
    became t y s (retire t f s) := by
  obtain ⟨hframe, hseq⟩ := retire_frame t f s
  exact ⟨(thr_retire_self t f s).trans hf, fun k hk => thr_retire_ne t f s hk, hseq, hframe⟩

/-! ## CSRs -/

section
variable {t : ThreadId} {f : TFields} {s : State} (hi : issues t [f.d.toNat, f.a.toNat] s) (hb : f.b = 0) (hv : f.v = 0) (hc : f.c = 0)
include hi hb hv hc

theorem csrr_runs (ha : f.a = 0) (himm : f.imm.toNat < 4096) (hat : standsAt t (.csrr t f) s) :
    exec (.csrr t f) s = answer s (if !csrListed f.imm.toNat then raise t 0x05 none (fetched t s)
      else retire t (fun y => (y.setG f.d.toNat (csrValue (fetched t s) t (thr (fetched t s) t.val) f.imm.toNat)).next) (fetched t s)) := by
  have hlegal : (f.a == 0 && f.b == 0 && noVC f && csrImmOk f) = true := by simp [ha, hb, noVC_of_zero hv hc, csrImmOk, himm]
  have he : exec (.csrr t f) s = execCsrr t f s := rfl
  rw [he, execCsrr, hlegal, instr_issues 0 _ (issues_of_subset hi (by simp)) hat]

theorem csrw_runs (hd : f.d = 0) (himm : f.imm.toNat < 4096) (hat : standsAt t (.csrw t f) s) :
    exec (.csrw t f) s = answer s (if !csrListed f.imm.toNat then raise t 0x05 none (fetched t s)
      else retire t (fun y => (csrApply f.imm.toNat (gReg (thr (fetched t s) t.val) f.a.toNat) y).next) (fetched t s)) := by
  have hlegal : (onlyAI f && csrImmOk f) = true := by simp [onlyAI, hd, hb, noVC_of_zero hv hc, csrImmOk, himm]
  have he : exec (.csrw t f) s = execCsrw t f s := rfl
  rw [he, execCsrw, hlegal, instr_issues 0 _ (issues_of_subset hi (by simp)) hat]

theorem csrr_completes (ha : f.a = 0) (himm : csrListed f.imm.toNat = true) (hat : standsAt t (.csrr t f) s) {v : BitVec 64}
    (hval : csrValue (fetched t s) t (thr (fetched t s) t.val) f.imm.toNat = v) :
    completesWith (.csrr t f) s (became t ((thr (fetched t s) t.val).setG f.d.toNat v).next (fetched t s)) := by
  have hsmall : f.imm.toNat < 4096 := by
    simp [csrListed] at himm
    omega
  have he := csrr_runs hi hb hv hc ha hsmall hat
  rw [himm, hval, if_neg (by decide)] at he
  refine completesWith_answer he (becameWith_answered.mpr (became_retired ?_))
  unfold Thread.next Thread.setG
  split <;> rfl

theorem csrw_completes (hd : f.d = 0) (himm : csrListed f.imm.toNat = true) (hat : standsAt t (.csrw t f) s) {y : Thread}
    (hval : csrApply f.imm.toNat (gReg (thr (fetched t s) t.val) f.a.toNat) (thr (fetched t s) t.val) = y) :
    completesWith (.csrw t f) s (became t y.next (fetched t s)) := by
  have hsmall : f.imm.toNat < 4096 := by
    simp [csrListed] at himm
    omega
  have he := csrw_runs hi hb hv hc hd hsmall hat
  rw [himm, if_neg (by decide)] at he
  refine completesWith_answer he (becameWith_answered.mpr (became_retired ?_))
  subst hval
  unfold csrApply
  split_ifs <;> rfl

/-- A CSR that R253 does not list raises CSR, whether read or written. -/
theorem csr_unlisted (hlist : csrListed f.imm.toNat = false) (himm : f.imm.toNat < 4096) (hcalm : calm (fetched t s) = true) :
    (standsAt t (.csrr t f) s → f.a = 0 → completesWith (.csrr t f) s (stoppedAt t 5 (fetched t s))) ∧
      (standsAt t (.csrw t f) s → f.d = 0 → completesWith (.csrw t f) s (stoppedAt t 5 (fetched t s))) := by
  refine ⟨fun hat ha => ?_, fun hat hd => ?_⟩
  · have he := csrr_runs hi hb hv hc ha himm hat
    rw [hlist, if_pos (by decide)] at he
    exact completesWith_raise hcalm he
  · have he := csrw_runs hi hb hv hc hd himm hat
    rw [hlist, if_pos (by decide)] at he
    exact completesWith_raise hcalm he

end

/-! ## TRAP and HALT -/

theorem calm_retire (t : ThreadId) (f : Thread → Thread) (s : State) : calm (retire t f s) = calm s := seqWork_calm (seqWork_retire t f s)

theorem trap_completes {t : ThreadId} {f : TFields} {s : State} (hi : issues t [f.d.toNat] s) (hf : noField f = true)
    (hcalm : calm (fetched t s) = true) (hat : standsAt t (.trap t f) s) :
    completesWith (.trap t f) s fun u => (thr u t.val).phase = .draining 2 4 ∧ (thr u t.val).pc = (thr (fetched t s) t.val).pc + 8 ∧
      (thr u t.val).g = (thr (fetched t s) t.val).g ∧ otherThreads t (fetched t s) u := by
  have he : exec (.trap t f) s = execTrap t f s := rfl
  rw [execTrap, hf, instr_issues 0 _ (issues_of_subset hi (by simp)) hat,
    settle_calm ((stopThread_frame t 2 0x04 _).2.2.trans ((calm_retire ..).trans hcalm))] at he
  have hself := thr_stopThread_self t 2 0x04 (retire t Thread.next (fetched t s))
  rw [thr_retire_self] at hself
  refine completesWith_answer he ⟨?_, ?_, ?_, fun k hk => ?_⟩
  iterate 3 rw [thr_answered, hself]; rfl
  rw [thr_answered, thr_stopThread_ne t 2 0x04 _ k hk, thr_retire_ne t _ _ hk]

theorem coreStepping_congr {s u : State} (h : ∀ i, (tget Target.zero u.tst.tgt i).state = (tget Target.zero s.tst.tgt i).state) (k : Nat) :
    coreStepping u k = coreStepping s k := by
  unfold coreStepping tgt
  rw [h]

/-- An instruction that is counted begins no test of its core (R348). -/
theorem retire_state (t : ThreadId) (f : Thread → Thread) (s : State) (k : Nat) : coreStepping (retire t f s) k = coreStepping s k := by
  refine coreStepping_congr (fun i => ?_) k
  obtain ⟨q, hq⟩ : ∃ q, firstIssue t s = { s with seq := q } := by
    obtain ⟨-, e⟩ | ⟨k, -, e⟩ := firstIssue_cases t s <;> exact ⟨_, e⟩
  have htst : (retire t f s).tst = (countIssue t s).tst := rfl
  rw [htst, countIssue, countOps_state, cnt_tst, hq]

/-- A task with nothing left to wait for and no completion word frees its thread. -/
theorem haltCheck_frees {t : ThreadId} {s : State} (hphase : (thr s t.val).phase = .halting) (hword : (thr s t.val).word = none)
    (hdrained : drained s t = true) (hstep : coreStepping s (thrCore t.val) = false) (hdone : (thr s t.val).donePva = 0) :
    haltCheck t s = freeThread t s := by
  unfold haltCheck
  rw [if_pos ⟨hphase, hword, hdrained, by rw [hstep]; rfl⟩, endTask, if_pos hdone]

theorem halt_completes {t : ThreadId} {f : TFields} {s : State} (hi : issues t [f.d.toNat] s) (hf : noField f = true)
    (hcalm : calm (fetched t s) = true) (hat : standsAt t (.halt t f) s) :
    let s1 := fetched t s
    let th := thr s1 t.val
    th.outs = [] → slotRuns th 0 = false → slotRuns th 1 = false → inFlight s1 t 0 = false → inFlight s1 t 1 = false → th.donePva = 0 →
      th.word = none →
      completesWith (.halt t f) s fun u => thr u t.val = { Thread.zero with nextId := th.nextId } ∧ otherThreads t s1 u := by
  intro s1 th houts hr0 hr1 hf0 hf1 hdone hword
  have he : exec (.halt t f) s = execHalt t f s := rfl
  rw [execHalt, hf, instr_issues 0 _ (issues_of_subset hi (by simp)) hat] at he
  obtain ⟨-, -, -, hpaused, hfree, -⟩ := hi
  obtain ⟨w, hw, -⟩ := standsAt_word hat
  have hstep : coreStepping s1 (thrCore t.val) = false := by
    rw [coreStepping_congr (fetch_standing hfree hw).tgt]
    exact (Bool.or_eq_false_iff.mp hpaused).1
  have hself := thr_retire_self t id s1
  have hother (k : Nat) (hk : k ≠ t.val) := thr_retire_ne t id s1 hk
  have hcalm' := (calm_retire t id s1).trans hcalm
  have hstep' := (retire_state t id s1 (thrCore t.val)).trans hstep
  have hcache : (retire t id s1).cache = s1.cache := (retire_frame t id s1).1 .cache (by decide)
  generalize retire t id s1 = r at hself hother hcalm' hstep' hcache he
  have hasked : r.cache.asked = s1.cache.asked := by rw [hcache]
  set v := modThr r t.val fun y => { y with phase := .halting, wait := some (hardWait r) } with hv
  have hvself : thr v t.val = { thr r t.val with phase := .halting, wait := some (hardWait r) } := thr_modThr_self ..
  have hflight (i : Fin 2) (h : inFlight s1 t i = false) : inFlight v t i = false := by
    unfold inFlight at h ⊢
    rw [hvself, hself, show v.cache.asked = s1.cache.asked from hasked]
    exact h
  have hdrained : drained v t = true := by
    unfold drained
    rw [hflight 0 hf0, hflight 1 hf1, hvself, hself]
    show (th.outs.isEmpty && !slotRuns th 0 && !slotRuns th 1 && !false && !false) = true
    rw [houts, hr0, hr1]
    rfl
  rw [haltCheck_frees (by rw [hvself]) (by rw [hvself, hself]; exact hword) hdrained hstep' (by rw [hvself, hself]; exact hdone),
    settle_calm (calm_freeThread (s := v) hcalm')] at he
  have hseq (k : Nat) : thr (freeThread t v) k = if k = t.val then (thr v t.val).bare else thr v k := by
    rw [thr, freeThread_seq, tget_tset]
    rfl
  refine completesWith_answer he ⟨?_, fun k hk => ?_⟩
  · rw [thr_answered, hseq, if_pos rfl, hvself, hself]
    rfl
  · rw [thr_answered, hseq, if_neg hk, hv, thr_modThr_ne _ _ hk, hother k hk]

/-! ## YIELD -/

/-- A counted instruction of a task that holds no slot changes counts only. -/
theorem countIssue_counts {t : ThreadId} {s : State} (h : (thr s t.val).held = none) :
    ∃ c x, countIssue t s = { s with cnt := c, tst := x } := by
  have hfirst : firstIssue t s = s := by
    obtain ⟨-, e⟩ | ⟨k, hk, -⟩ := firstIssue_cases t s
    · exact e
    · rw [h] at hk
      cases hk
  have hcount : countIssue t s = countOps (coreHalf (thrCore t.val)) (coreInHalf (thrCore t.val)) 1 1
      (cnt 0x040 (some (thrHalf t.val)) (some (thr s t.val).part) 1 (firstIssue t s)) := rfl
  obtain ⟨c, hc⟩ : ∃ c, cnt 0x040 (some (thrHalf t.val)) (some (thr s t.val).part) 1 s = { s with cnt := c } := ⟨_, cnt_only ..⟩
  rw [hcount, hfirst, hc]
  exact ⟨c, _, countOps_only ..⟩

/-- What YIELD does once it is counted. -/
theorem yield_runs {t : ThreadId} {f : TFields} {s : State} (hi : issues t [f.d.toNat] s) (hf : onlyD f = true)
    (hheld : (thr (fetched t s) t.val).held = none) (hat : standsAt t (.yield t f) s) :
    let s1 := fetched t s
    let th := thr s1 t.val
    let go (st : Nat) (u : State) : State :=
      modThr u t.val fun y => { (y.setG f.d.toNat (BitVec.ofNat 64 st)).next with wait := none, waitLeft := none, hit := none, xl := none, ahead := none }
    ∃ c x, exec (.yield t f) s = answer s (match freeSlot s1 th.part.toNat with
      | some k => if (candidates s1 (thrHalf t.val)).any (fun c => decide (th.prio.toNat ≤ c.1)) then
          stopThread t 3 0 (modThr (takeSlot th.part.toNat k (go 0 { s1 with cnt := c, tst := x })) t.val fun y => { y with held := some (BitVec.ofNat 6 k) })
        else go 13 { s1 with cnt := c, tst := x }
      | none => go 13 { s1 with cnt := c, tst := x }) := by
  intro s1 th go
  have he : exec (.yield t f) s = execYield t f s := rfl
  rw [execYield, hf, instr_issues 0 _ (issues_of_subset hi (by simp)) hat] at he
  obtain ⟨c, x, hc⟩ := countIssue_counts hheld
  rw [hc] at he
  exact ⟨c, x, he⟩


theorem yield_busy {t : ThreadId} {f : TFields} {s : State} (hi : issues t [f.d.toNat] s) (hf : onlyD f = true)
    (hheld : (thr (fetched t s) t.val).held = none) (hat : standsAt t (.yield t f) s) :
    let s1 := fetched t s
    let th := thr s1 t.val
    (candidates s1 (thrHalf t.val)).any (fun c => decide (th.prio.toNat ≤ c.1)) = false ∨ freeSlot s1 th.part.toNat = none →
      completesWith (.yield t f) s (became t (th.setG f.d.toNat 13).next s1) := by
  intro s1 th hbusy
  obtain ⟨c, x, he⟩ := yield_runs hi hf hheld hat
  have hgo : exec (.yield t f) s = answer s (modThr { s1 with cnt := c, tst := x } t.val fun y =>
      { (y.setG f.d.toNat 13).next with wait := none, waitLeft := none, hit := none, xl := none, ahead := none }) := by
    obtain hnone | hnone := hbusy
    · rw [he]
      split
      · rw [if_neg (by rw [hnone]; decide)]
        rfl
      · rfl
    · rw [he, hnone]
      rfl
  have hself : thr (modThr { s1 with cnt := c, tst := x } t.val fun y =>
      { (y.setG f.d.toNat 13).next with wait := none, waitLeft := none, hit := none, xl := none, ahead := none }) t.val =
      ended (th.setG f.d.toNat 13).next := by
    rw [thr_modThr_self]
    have hh : ((th.setG f.d.toNat 13).next).held = none := by
      unfold Thread.next Thread.setG
      split <;> exact hheld
    rw [ended, ← hh]
    rfl
  refine completesWith_answer hgo (becameWith_answered.mpr ⟨hself, fun k hk => thr_modThr_ne _ _ hk, ⟨rfl, rfl, rfl, rfl, fun _ => rfl⟩, ?_⟩)
  intro b hb
  cases b <;> first | rfl | simp at hb

theorem yield_saves {t : ThreadId} {f : TFields} {s : State} (hi : issues t [f.d.toNat] s) (hf : onlyD f = true)
    (hheld : (thr (fetched t s) t.val).held = none) (hat : standsAt t (.yield t f) s) :
    let s1 := fetched t s
    let th := thr s1 t.val
    ∀ k, (candidates s1 (thrHalf t.val)).any (fun c => decide (th.prio.toNat ≤ c.1)) = true → freeSlot s1 th.part.toNat = some k →
      completesWith (.yield t f) s fun u =>
        (thr u t.val).phase = .draining 3 0 ∧ (thr u t.val).pc = th.pc + 8 ∧ (thr u t.val).g = (th.setG f.d.toNat 0).g ∧
        (thr u t.val).held = some (BitVec.ofNat 6 k) ∧ slotUsed u th.part.toNat k = true ∧ otherThreads t s1 u := by
  intro s1 th k hwaits hslot
  obtain ⟨c, x, he⟩ := yield_runs hi hf hheld hat
  rw [hslot] at he
  dsimp only at he
  rw [if_pos hwaits] at he
  generalize hv : modThr (takeSlot th.part.toNat k (modThr { s1 with cnt := c, tst := x } t.val fun y =>
    { (y.setG f.d.toNat (BitVec.ofNat 64 0)).next with wait := none, waitLeft := none, hit := none, xl := none, ahead := none })) t.val
      (fun y => { y with held := some (BitVec.ofNat 6 k) }) = v at he
  have hsp (u : State) (j : Nat) : thr (takeSlot th.part.toNat k u) j = thr u j := rfl
  have hvself : thr v t.val = { (th.setG f.d.toNat 0).next with
      wait := none, waitLeft := none, hit := none, xl := none, ahead := none, held := some (BitVec.ofNat 6 k) } := by
    rw [← hv, thr_modThr_self, hsp, thr_modThr_self]
    rfl
  have hvother (j : Nat) (hj : j ≠ t.val) : thr v j = thr s1 j := by
    rw [← hv, thr_modThr_ne _ _ hj, hsp, thr_modThr_ne _ _ hj]
    rfl
  have hvslot : slotUsed v th.part.toNat k = true := by
    have hk : k < 64 := by
      have hmem := List.mem_range.mp (List.mem_of_find?_eq_some hslot)
      have hle : 2 ^ min 6 (spReg s1 th.part.toNat).ctxLog2n.toNat ≤ 2 ^ 6 := Nat.pow_le_pow_right (by decide) (min_le_left ..)
      omega
    have hused : (spReg v th.part.toNat).used = setBit (spReg s1 th.part.toNat).used k true := by
      rw [← hv]
      exact congrArg SeqPart.used (tget_tset_self ..)
    rw [slotUsed, hused, getLsbD_setBit_true _ _ hk]
    simp
  have hstop := thr_stopThread_self t 3 0 v
  rw [hvself] at hstop
  have hpc : (th.setG f.d.toNat 0).pc = th.pc := by
    unfold Thread.setG
    split <;> rfl
  refine completesWith_answer he ⟨?_, ?_, ?_, ?_, ?_, fun j hj => ?_⟩
  · rw [thr_answered, hstop]; rfl
  · rw [thr_answered, hstop]
    exact congrArg (· + 8) hpc
  · rw [thr_answered, hstop]; rfl
  · rw [thr_answered, hstop]; rfl
  · obtain ⟨a, g, heq⟩ := stopThread_eq t 3 0 v
    rw [heq]
    exact hvslot
  · rw [thr_answered, thr_stopThread_ne t 3 0 v j hj, hvother j hj]

/-- Settles O21: each instruction is one retirement, one exception, or one stop of the task. -/
theorem taskInstructions : Obligations.TaskInstructions := by
  refine ⟨?_, ?_⟩
  · intro t f s hi hb hv hc s1 th n ga reads writes
    have hboth {v : BitVec 64} {y : Thread} (hlist : csrListed n = true) (hval : csrValue s1 t th n = v)
        (happly : csrApply n ga th = y) : reads v ∧ writes y :=
      ⟨fun hat ha => csrr_completes hi hb hv hc ha hlist hat hval, fun hat hd => csrw_completes hi hb hv hc hd hlist hat happly⟩
    refine ⟨fun hn => ?_, fun hn => ?_, fun hn => ?_, fun hn => ?_, fun hn => ?_, fun hn => ?_, fun hn => ?_, fun hn hsmall hcalm => ?_⟩
    · exact hboth (by rw [hn]; rfl) (by rw [hn]; rfl) (by rw [hn]; rfl)
    · exact hboth (by rw [hn]; rfl) (by rw [hn]; cases h : th.precise <;> simp [csrValue, h, b2n]) (by rw [hn]; rfl)
    iterate 5 exact hboth (by rw [hn]; rfl) (by rw [hn]; rfl) (by rw [hn]; rfl)
    have hlist : csrListed n = false := by
      simp [csrListed]
      omega
    obtain ⟨hr, hw⟩ := csr_unlisted hi hb hv hc hlist hsmall hcalm
    refine ⟨fun hat ha => ?_, fun hat hd => ?_⟩
    · obtain ⟨u, hu, hphase, hpc, hg, -⟩ := hr hat ha
      exact ⟨u, hu, hphase, hpc, hg⟩
    · obtain ⟨u, hu, hphase, hpc, hg, -⟩ := hw hat hd
      exact ⟨u, hu, hphase, hpc, hg⟩
  · intro t f s hi ha hb hv hc himm s1 th waits
    have honly : onlyD f = true := by simp [onlyD, onlyDI, ha, hb, noVC_of_zero hv hc, himm]
    refine ⟨fun hd hcalm => ?_, fun hheld hat => ⟨yield_busy hi honly hheld hat, yield_saves hi honly hheld hat⟩⟩
    have hno : noField f = true := by simp [noField, hd, honly]
    exact ⟨trap_completes hi hno hcalm, fun h1 h2 h3 h4 h5 h6 h7 hat => halt_completes hi hno hcalm hat h1 h2 h3 h4 h5 h6 h7⟩

end Sys2Proof.Machine
end

section
/-! PROOFS. Fences and waits on memory (R208, R220, R269, R271). -/

namespace Sys2Proof.Machine

open Sys2Proof.Safety

/-! ## FENCE and IFENCE -/

/-- A fence with nothing outstanding only goes on; with an access outstanding its thread, which did not wait, waits in hardware. -/
theorem fence_completes {t : ThreadId} {c : Instr} {s : State} (he : exec c s = answer s (fence t (fetched t s)))
    (hwait : (thr (fetched t s) t.val).wait = none) :
    let s1 := fetched t s
    let th := thr s1 t.val
    (th.outs = [] → completesWith c s (became t th.next s1)) ∧
      (th.outs ≠ [] → completesWith c s fun u => (thr u t.val).pc = th.pc ∧ (thr u t.val).outs = th.outs ∧ (thr u t.val).g = th.g ∧
        ∃ w, (thr u t.val).wait = some w ∧ w.kind = 6) := by
  intro s1 th
  refine ⟨fun houts => ?_, fun houts => ?_⟩
  · rw [fence, if_pos (by exact List.isEmpty_iff.mpr houts)] at he
    exact completesWith_answer he (becameWith_answered.mpr (became_retire t s1))
  · rw [fence, if_neg (by exact fun h => houts (List.isEmpty_iff.mp h))] at he
    have hself : thr (stall t.val s1) t.val = { th with wait := some (hardWait s1) } := by
      unfold stall
      rw [thr_modThr_self, if_neg (by rw [hwait]; decide)]
    refine completesWith_answer he ⟨?_, ?_, ?_, hardWait s1, ?_, rfl⟩ <;> rw [thr_answered, hself]

/-- A thread that stands at an instruction that it can issue does not wait once the instruction is fetched. -/
theorem fetched_unwaiting {t : ThreadId} {c : Instr} {regs : List Nat} {s : State} (hi : issues t regs s) (hat : standsAt t c s) :
    (thr (fetched t s) t.val).wait = none := by
  obtain ⟨-, -, -, -, hfree, -, hwait, -⟩ := hi
  obtain ⟨w, hw, -⟩ := standsAt_word hat
  exact (fetch_standing hfree hw).task.wait hwait

/-! ## SEMW and WAITT -/

/-- The wait that SEMW and WAITT begin (R271). -/
def memWaits (f : TFields) (kind : Nat) (pva : BitVec 64) (c : BitVec 4) (cmp : BitVec 64) (sa : Sa) (s : State) (th : Thread) : Wait :=
  { thawWait s th kind 0 f.d with sa := sa, pva := pva.setWidth 48, cond := c, cmp := cmp }

theorem memWait_issues {t : ThreadId} {f : TFields} {kind : Nat} {pva : BitVec 64} {c : BitVec 4} {cmp : BitVec 64} {x : Space} {sa : Sa}
    {s : State} (hlen : (thr s t.val).outs.length < 16) :
    memWait t f kind pva c cmp x sa s = settle (issueEval t x (memWaits f kind pva c cmp sa s (thr s t.val))
      (modThr s t.val fun y => { y with hit := none, xl := none })) := by
  unfold memWait
  dsimp only
  rw [outsFull_of_lt hlen]
  rfl

/-- The state in which a wait begins: whatever walk its instruction had is done with. -/
theorem unwalked_spec (t : ThreadId) (s : State) :
    ∃ z, z = (modThr s t.val fun y => { y with hit := none, xl := none }) ∧ seqWork s z ∧
      thr z t.val = { thr s t.val with hit := none, xl := none } ∧ z.cache = s.cache ∧ z.atu = s.atu :=
  ⟨_, rfl, seqWork_modThr .., thr_modThr_self .., rfl, rfl⟩

/-- What the two instructions leave: the access of the first evaluation, and the wait. -/
theorem completesWith_memWait {c : Instr} {t : ThreadId} {f : TFields} {kind : Nat} {pva : BitVec 64} {c1 : BitVec 4} {cmp : BitVec 64} {sa : Sa}
    {s s2 z v : State} {th : Thread} {o : Outst} {P : State → Outst → Prop} (he : exec c s = answer s v)
    (hz : thr z t.val = { th with hit := none, xl := none }) (hc : z.cache = s2.cache) (hkind : kind < 8)
    (ho : evaluates t (memWaits f kind pva c1 cmp sa s2 th) sa z v o) (hP : P (answered s v) o) :
    completesWith c s fun u => ∃ o w, (thr u t.val).outs = outsWith th.outs o ∧ o.id = th.nextId ∧ o.line = lineOf sa ∧
      o.count = 0 ∧ o.store = false ∧ (thr u t.val).wait = some w ∧ w.kind.toNat = kind ∧ w.sa = sa ∧ w.dest = f.d ∧ w.cond = c1 ∧ w.cmp = cmp ∧
      w.eval = some o.id ∧ w.start = s2.clk.time ∧ w.limit = thawLimit s2 th ∧ (thr u t.val).pc = th.pc ∧ (thr u t.val).g = th.g ∧
      sameBytes s2 u ∧ P u o := by
  obtain ⟨houts, hid, hwait, hpc, hg, hbytes, hline, hcount, hstore⟩ := ho
  rw [hz] at houts hid hpc hg
  refine completesWith_answer he ⟨o, _, houts, hid, hline, hcount, hstore, hwait, ?_, rfl, rfl, rfl, rfl, rfl, rfl, rfl, hpc, hg, ?_, hP⟩
  · exact Nat.mod_eq_of_lt hkind
  · refine sameBytes_answered.mpr fun a => (hbytes a).trans ?_
    rw [hc]

/-- Settles O16: a fence by the list of outstanding accesses, a wait by its first evaluation. -/
theorem fencesAndWaits : Obligations.FencesAndWaits := by
  refine ⟨?_, ?_⟩
  · intro t f s hi hd ha hb hv hc himm s1 th c hcase hat
    have hno : noField f = true := by simp [noField, onlyD, onlyDI, hd, ha, hb, noVC_of_zero hv hc, himm]
    have he : exec c s = answer s (fence t (fetched t s)) := by
      obtain rfl | rfl := hcase
      · have he : exec (.fence t f) s = execFence t f s := rfl
        rw [he, execFence, hno, instr_issues 0 _ hi hat]
      · have he : exec (.ifence t f) s = execIfence t f s := rfl
        rw [he, execIfence, hno, instr_issues 0 _ hi hat]
    exact fence_completes he (fetched_unwaiting hi hat)
  · intro t f s x sa key hi hc s1 th pva waits hdev hlen
    refine ⟨fun hb hv hreach => ?_, fun hv hreach => ?_⟩
    · intro s2 h hth hhere hn hf hat
      have he : exec (.semw t f) s = execSemw t f s := rfl
      have hlegal : (f.b == 0 && noVC f) = true := by simp [hb, noVC_of_zero hv hc]
      rw [execSemw, hlegal, instr_issues 0 _ (issues_of_subset hi (by simp)) hat] at he
      have hbody : access t (effAddr th f) 8 Rights.atom 2 noDev (memWait t f 2 (effAddr th f) 1 0) s1 = memWait t f 2 pva 1 0 x sa s2 :=
        access_reaches hreach _
      rw [hbody, memWait_issues (by rw [hth]; exact hlen), hth] at he
      obtain ⟨z, hz, hs, hself, hcache, hatu⟩ := unwalked_spec t s2
      rw [← hz] at he
      rw [hth] at hself
      have hhere' : lineHere z (.atu 0) sa (thr z t.val).part (thrHalf t.val) (x.home t.val) key = true := by
        rw [lineHere_seqWork hs, hself]
        exact hhere
      have hnc : noCopies z key = noCopies s2 key := by rw [noCopies, metaAt_seqWork hs]; rfl
      have hfa : findAtom z (x.home t.val) z.atu.ids = findAtom s2 (x.home t.val) s2.atu.ids := by rw [findAtom, atuHalf, hatu]; rfl
      obtain ⟨o, ho, a, hatoms, hrest⟩ := issueEval_accepted (x := x) (w := memWaits f 2 pva 1 0 sa s2 th) rfl hhere' (by rw [hnc]; exact hn)
        (by rw [hfa]; exact hf)
      refine completesWith_memWait he hself hcache (by decide) ho ⟨a, hatoms.trans ?_, hrest⟩
      rw [atuHalf, hatu]
      rfl
    · intro s2 off hth hhere hp hat
      have he : exec (.waitt t f) s = execWaitt t f s := rfl
      have hlegal : (condOk f.v && f.c == 0) = true := by simp [condOk, hv, hc]
      rw [execWaitt, hlegal, instr_issues 0 _ (issues_of_subset hi (by simp)) hat] at he
      have hbody : access t (effAddr th f) 8 Rights.rd 0 noDev (memWait t f 3 (effAddr th f) f.v (opB f th)) s1 =
          memWait t f 3 pva f.v (gReg th f.b.toNat) x sa s2 := access_reaches hreach _
      rw [hbody, memWait_issues (by rw [hth]; exact hlen), hth] at he
      obtain ⟨z, hz, hs, hself, hcache, -⟩ := unwalked_spec t s2
      rw [← hz] at he
      rw [hth] at hself
      have hal : sa.toNat % 8 = 0 := by
        obtain ⟨e, rfl⟩ := reach_go hreach.2
        exact (target_mod e pva.toNat (k := 3) (by decide)).trans hreach.1
      have hhere' : lineHere z (.read (.bytes (sa.toNat % 128) 8 false) none false) sa (thr z t.val).part (thrHalf t.val) (x.home t.val) key =
          true := by
        rw [lineHere_seqWork hs, hself]
        exact hhere
      obtain ⟨o, ho, hres⟩ := issueEval_reads (x := x) (w := memWaits f 3 pva f.v (gReg th f.b.toNat) sa s2 th) rfl hal hhere'
        (by rw [metaAt_seqWork hs]; exact hp)
      refine completesWith_memWait he hself hcache (by decide) ho (hres.trans ?_)
      rw [lineField, hcache]
      rfl

end Sys2Proof.Machine
end

section
/-! PROOFS. Stream instructions (R240, R249, R263): what they answer in each state of their token. -/

namespace Sys2Proof.Machine

open Sys2Proof.Safety

/-! ## A status and LINE -/

/-- A stream instruction leaves its register and what it makes of its token. -/
theorem became_status {t : ThreadId} {f : TFields} {st : Nat} {hi : BitVec 32} {g : Thread → Thread} {s : State}
    (hg : g { thr s t.val with held := none, ahead := none } = { g (thr s t.val) with held := none, ahead := none }) :
    became t ((g (thr s t.val)).setG f.d.toNat (BitVec.ofNat 64 (st + hi.toNat * 2 ^ 32))).next s (streamStatus t f st hi g s) := by
  refine became_retired ?_
  dsimp only
  rw [hg, statusWord]
  unfold Thread.setG Thread.next
  split <;> rfl

/-- The state in which SWAIT looks at its token. -/
def swaiting (t : ThreadId) (f : TFields) (s : State) : State :=
  modThr (firstIssue t s) t.val fun y => { y with wait := some (thawWait s (thr s t.val) 1 f.c.toNat f.d) }

theorem swaiting_spec (t : ThreadId) (f : TFields) (s : State) :
    thr (swaiting t f s) t.val = { thr s t.val with held := none, wait := some (thawWait s (thr s t.val) 1 f.c.toNat f.d) } ∧
      otherThreads t s (swaiting t f s) ∧ changesOnly [.seq] s (swaiting t f s) ∧ seqKept t s (swaiting t f s) := by
  obtain ⟨hframe, htq, hro, hre, hrw, hsp⟩ := firstIssue_frame t s
  refine ⟨?_, fun k hk => ?_, ?_, htq, hro, hre, hrw, hsp⟩
  · rw [swaiting, thr_modThr_self, thr_firstIssue_self]
  · rw [swaiting, thr_modThr_ne _ _ hk, thr_firstIssue_ne _ _ hk]
  · exact (changesOnly_modThr (by decide)).mpr hframe

section
variable {t : ThreadId} {f : TFields} {s : State} (hi : issues t [f.d.toNat] s) (hk : f.c.toNat < 8) (ha : f.a = 0) (hb : f.b = 0)
  (hv : f.v = 0) (himm : f.imm = 0)

include hk ha hb hv himm in
theorem tokenOnly_of_zero : tokenOnly f = true := by simp [tokenOnly, tokenOk, hk, ha, hb, hv, himm]

include hk in
theorem tokenNo_eq : tokenNo f = f.c.toNat := Nat.mod_eq_of_lt hk

include hi hk ha hb hv himm

theorem spoll_runs (hat : standsAt t (.spoll t f) s) :
    let s1 := fetched t s
    let th := thr s1 t.val
    let k := f.c.toNat
    exec (.spoll t f) s = answer s (
      if tokOf th k = tokRun then streamStatus t f 11 (tokLine th k) id s1
      else if tokOf th k = tokDone then streamStatus t f 0 (tokLine th k) (fun y => y.setTok k tokIdle) s1
      else if tokOf th k = tokFaulted then streamStatus t f 9 (tokLine th k) id s1
      else streamStatus t f 10 0 id s1) := by
  intro s1 th k
  have he : exec (.spoll t f) s = execSpoll t f s := rfl
  rw [he, execSpoll, tokenOnly_of_zero hk ha hb hv himm, instr_issues 0 _ hi hat, tokenNo_eq hk]

theorem sresume_runs (hat : standsAt t (.sresume t f) s) :
    let s1 := fetched t s
    let th := thr s1 t.val
    let k := f.c.toNat
    exec (.sresume t f) s = answer s (if tokOf th k = tokFaulted then streamStatus t f 0 0 (fun y => y.setTok k tokRun) s1
      else streamStatus t f 5 0 id s1) := by
  intro s1 th k
  have he : exec (.sresume t f) s = execSresume t f s := rfl
  rw [he, execSresume, tokenOnly_of_zero hk ha hb hv himm, instr_issues 0 _ hi hat, tokenNo_eq hk]

theorem scancel_runs (hat : standsAt t (.scancel t f) s) :
    let s1 := fetched t s
    let th := thr s1 t.val
    let k := f.c.toNat
    exec (.scancel t f) s = answer s (match slotOfTok th k with
      | some i =>
        if inFlight s1 t i ∨ (th.slotOf i).stop.isSome then stall t (modThr s1 t.val fun y => y.setSlot i { y.slotOf i with cancel := true })
        else streamStatus t f 0 (tokLine th k) (fun y => (y.setSlot i Stream.zero).setTok k tokIdle) s1
      | none =>
        if tokOf th k = tokDone then streamStatus t f 0 (tokLine th k) (fun y => y.setTok k tokIdle) s1
        else streamStatus t f 10 0 id s1) := by
  intro s1 th k
  have he : exec (.scancel t f) s = execScancel t f s := rfl
  rw [he, execScancel, tokenOnly_of_zero hk ha hb hv himm, instr_issues 0 _ hi hat, tokenNo_eq hk] <;> rfl

/-- SWAIT first waits on its token. -/
theorem swait_runs (hat : standsAt t (.swait t f) s) :
    exec (.swait t f) s = answer s (swaitCheck t (swaiting t f (fetched t s))) := by
  have he : exec (.swait t f) s = execSwait t f s := rfl
  rw [he, execSwait, tokenOnly_of_zero hk ha hb hv himm, instr_issues 0 _ hi hat, tokenNo_eq hk]
  rfl

/-- SWAIT on a token in RUN waits. -/
theorem swait_waits (hrun : tokOf (thr (fetched t s) t.val) f.c.toNat = tokRun) (hat : standsAt t (.swait t f) s) :
    let s1 := fetched t s
    let th := thr s1 t.val
    completesWith (.swait t f) s fun u => ∃ w, (thr u t.val).wait = some w ∧ w.kind = 1 ∧ w.tok.toNat = f.c.toNat ∧ w.dest = f.d ∧
      w.start = s1.clk.time ∧ w.limit = thawLimit s1 th ∧ (thr u t.val).pc = th.pc := by
  intro s1 th
  have he := swait_runs hi hk ha hb hv himm hat
  obtain ⟨hself, -⟩ := swaiting_spec t f s1
  generalize swaiting t f s1 = v at he hself
  have htok : ((thawWait s1 th 1 f.c.toNat f.d).tok).toNat = f.c.toNat := Nat.mod_eq_of_lt hk
  have hcheck : swaitCheck t v = v := by
    unfold swaitCheck
    dsimp only
    rw [hself]
    dsimp only
    rw [htok]
    exact if_pos (.inr (.inr hrun))
  rw [hcheck] at he
  refine completesWith_answer he ⟨thawWait s1 th 1 f.c.toNat f.d, ?_, rfl, htok, rfl, rfl, rfl, ?_⟩ <;> rw [thr_answered, hself]

/-- SWAIT on a token that has left RUN answers at once. -/
theorem swait_answers {st : Nat} {hi' : BitVec 32} {g : Thread → Thread} (hst : tokOf (thr (fetched t s) t.val) f.c.toNat ≠ tokRun)
    (hcode : (if tokOf (thr (fetched t s) t.val) f.c.toNat = tokDone then 0
      else if tokOf (thr (fetched t s) t.val) f.c.toNat = tokFaulted then 9 else 10) = st)
    (hline : (if tokOf (thr (fetched t s) t.val) f.c.toNat = tokIdle then 0 else tokLine (thr (fetched t s) t.val) f.c.toNat) = hi')
    (hg : (fun y : Thread => if tokOf (thr (fetched t s) t.val) f.c.toNat = tokDone then y.setTok f.c.toNat tokIdle else y) = g)
    (hat : standsAt t (.swait t f) s) :
    completesWith (.swait t f) s (became t ((g (thr (fetched t s) t.val)).setG f.d.toNat (BitVec.ofNat 64 (st + hi'.toNat * 2 ^ 32))).next
      (fetched t s)) := by
  have he := swait_runs hi hk ha hb hv himm hat
  have hrun : (thr (fetched t s) t.val).phase = .running := by
    obtain ⟨hphase, -, -, -, hfree, -⟩ := hi
    obtain ⟨w, hw, -⟩ := standsAt_word hat
    exact (fetch_standing hfree hw).task.phase.trans hphase
  obtain ⟨hself, hother, hframe, hseq⟩ := swaiting_spec t f (fetched t s)
  generalize swaiting t f (fetched t s) = v at he hself hother hframe hseq
  have htok : ((thawWait (fetched t s) (thr (fetched t s) t.val) 1 f.c.toNat f.d).tok).toNat = f.c.toNat := Nat.mod_eq_of_lt hk
  generalize hth : thr (fetched t s) t.val = th at *
  have hcheck : swaitCheck t v = retire t (fun y => ((g y).setG f.d.toNat (statusWord st hi')).next) v := by
    subst hcode hline hg
    unfold swaitCheck
    dsimp only
    rw [hself]
    dsimp only
    rw [htok]
    exact if_neg (by rintro (h | h | h) <;> [exact h hrun; exact h rfl; exact hst h])
  rw [hcheck] at he
  obtain ⟨hrf, htq, hro, hre, hrw, hsp⟩ := retire_frame t (fun y => ((g y).setG f.d.toNat (statusWord st hi')).next) v
  refine completesWith_answer he (becameWith_answered.mpr ⟨?_, fun j hj => (thr_retire_ne _ _ _ hj).trans (hother j hj), ?_, ?_⟩)
  · rw [thr_retire_self, hself]
    subst hg
    unfold Thread.setG Thread.next Thread.setTok
    dsimp only
    split_ifs <;> rfl
  · obtain ⟨itq, iro, ire, irw, isp⟩ := hseq
    exact ⟨htq.trans itq, hro.trans iro, hre.trans ire, hrw.trans irw, fun h => (hsp (by rw [hself])).trans (isp h)⟩
  · exact changesOnly_trans (changesOnly_mono hframe (by decide)) hrf

end

/-! ## SMOV -/

theorem descOk_counts {s u : State} (h : onlyCounts s u) (c : Consumer) (v : BitVec 512) : descOk (forget c u) v = descOk s v := by
  obtain ⟨_, _, _, rfl⟩ := h
  rfl

/-- A SMOV whose descriptor is cached starts its stream. -/
theorem smov_starts {t : ThreadId} {f : TFields} {s : State} (hi : issues t [f.d.toNat, f.a.toNat] s) (hat : standsAt t (.smov t f) s)
    (hk : f.c.toNat < 8) (hb : f.b = 0) (hv : f.v = 0) {x : Space} {sa : Sa} {lo hi' : RoEnt} {i : Fin 2} :
    let s1 := fetched t s
    let th := thr s1 t.val
    let pva := gReg th f.a.toNat + f.imm.signExtend 64
    let s2 := reached t pva Rights.rd 6 (fun _ => false) s1
    tokOf th f.c.toNat ≠ tokRun → tokOf th f.c.toNat ≠ tokFaulted → reachesAt t pva 64 Rights.rd 6 (fun _ => false) x sa s1 →
    calm s2 = true → (∀ p ∈ s2.cache.asked, p.1 ≠ Consumer.smov t) →
    roFind s2 (thrCore t.val) .desc sa = some lo → roFind s2 (thrCore t.val) .desc (sa + 32) = some hi' →
    descOk s2 (hi'.data ++ lo.data) = true → freeStream th = some i →
    completesWith (.smov t f) s fun u =>
      thr u t.val = ended ((((th.setSlot i { Stream.zero with used := true, tok := BitVec.ofNat 3 f.c.toNat, desc := hi'.data ++ lo.data }).setTok
        f.c.toNat tokRun).setG f.d.toNat 0).next) ∧ sameBytes s1 u := by
  intro s1 th pva s2 hrun hfault hreach hcalm hask hlo hhi hok hfree
  have he : exec (.smov t f) s = execSmov t f s := rfl
  have hlegal : (tokenOk f.c && f.b == 0 && f.v == 0) = true := by simp [tokenOk, hk, hb, hv]
  rw [execSmov, hlegal, instr_issues 5 _ hi hat] at he
  rw [fetched_unwaiting hi hat] at he
  dsimp only at he
  have hbody : access t (effAddr th f) 64 Rights.rd 6 noDev (smovRead t f (effAddr th f)) s1 = smovRead t f pva x sa s2 :=
    access_reaches hreach _
  rw [hbody] at he
  have hth2 : thr s2 t.val = th := thr_reached ..
  have hbytes : sameBytes s1 s2 := by
    obtain ⟨y, hy⟩ := reached_only t pva Rights.rd 6 (fun _ => false) s1
    exact sameBytes_of_data (by show s2.cache.data = _; rw [show s2 = _ from hy])
  obtain ⟨u, hu, hg⟩ := roGather_cached (c := .smov t) (kind := .desc) (p := th.part) (a := (sa, x.home t.val)) (b := (sa + 32, x.home t.val))
    hcalm hask hlo hhi
  have hread : smovRead t f pva x sa s2 = smovStart t f.c.toNat f.d (hi'.data ++ lo.data) (forget (.smov t) u) := by
    unfold smovRead
    dsimp only
    rw [hth2, hg, Nat.mod_eq_of_lt hk]
    rfl
  have hd := descOk_counts hu (.smov t) (hi'.data ++ lo.data)
  have hfu : thr (forget (.smov t) u) t.val = th ∧ sameBytes s2 (forget (.smov t) u) := by
    obtain ⟨_, _, _, rfl⟩ := hu
    exact ⟨hth2, fun _ => rfl⟩
  rw [hread] at he
  generalize forget (.smov t) u = v at he hd hfu
  obtain ⟨hvt, hvb⟩ := hfu
  rw [hok] at hd
  have hstart : smovStart t f.c.toNat f.d (hi'.data ++ lo.data) v = retire t (fun y =>
      (((y.setSlot i { Stream.zero with used := true, tok := BitVec.ofNat 3 f.c.toNat, desc := hi'.data ++ lo.data }).setTok f.c.toNat
        tokRun).setG f.d.toNat 0).next) v := by
    unfold smovStart
    dsimp only
    rw [hvt, if_neg (by rintro (h | h) <;> [exact hrun h; exact hfault h]), hd, if_neg (by decide), hfree]
  rw [hstart] at he
  refine completesWith_answer he ⟨?_, ?_⟩
  · rw [thr_answered, thr_retire_self, hvt]
    unfold Thread.setG Thread.next Thread.setTok Thread.setSlot
    split_ifs <;> rfl
  · refine sameBytes_answered.mpr fun a => Eq.trans ?_ ((hvb a).trans (hbytes a))
    have hcache := (retire_frame t (fun y =>
      (((y.setSlot i { Stream.zero with used := true, tok := BitVec.ofNat 3 f.c.toNat, desc := hi'.data ++ lo.data }).setTok f.c.toNat
        tokRun).setG f.d.toNat 0).next) v).1 .cache (by decide)
    rw [show (retire t _ v).cache = v.cache from hcache]

end Sys2Proof.Machine
end

section
/-! PROOFS. A unit of a running stream (R235, R236, R238, R239): its two ends are reached, its line is read and written, and LINE moves on. -/

namespace Sys2Proof.Machine

open Sys2Proof.Safety

/-! ## Slots and flights -/

theorem slotOf_setSlot (th : Thread) (i : Fin 2) (x : Stream) : (th.setSlot i x).slotOf i = x := by
  unfold Thread.setSlot Thread.slotOf
  split <;> rfl

theorem setSlot_setSlot (th : Thread) (i : Fin 2) (x y : Stream) : (th.setSlot i x).setSlot i y = th.setSlot i y := by
  unfold Thread.setSlot
  split <;> rfl

theorem setSlot_slotOf (th : Thread) (i : Fin 2) : th.setSlot i (th.slotOf i) = th := by
  unfold Thread.setSlot Thread.slotOf
  split <;> rfl

theorem setSlot_fields (th : Thread) (i : Fin 2) (x : Stream) : (th.setSlot i x).phase = th.phase ∧ (th.setSlot i x).toks = th.toks ∧
    (th.setSlot i x).pc = th.pc ∧ (th.setSlot i x).g = th.g ∧ (th.setSlot i x).part = th.part := by
  unfold Thread.setSlot
  split <;> exact ⟨rfl, rfl, rfl, rfl, rfl⟩

/-- Only the sequencer and the translation caches differ, and of the sequencer's threads only slot i of thread t, which is `x`. -/
structure Unit_ (t : ThreadId) (i : Fin 2) (s : State) (x : Stream) (u : State) : Prop where
  frame : ∃ q y, u = { s with seq := q, xlt := y }
  slot : thr u t.val = (thr s t.val).setSlot i x

theorem Unit_.mod {t : ThreadId} {i : Fin 2} {s u v : State} {x y : Stream} (h : Unit_ t i s x u) (hv : ∃ z, v = { u with xlt := z })
    (f : Stream → Stream) (hf : f x = y) : Unit_ t i s y (modThr v t.val fun th => th.setSlot i (f (th.slotOf i))) := by
  obtain ⟨⟨q, w, rfl⟩, hslot⟩ := h
  obtain ⟨z, rfl⟩ := hv
  refine ⟨⟨_, z, rfl⟩, ?_⟩
  have hthr : thr ({ s with seq := q, xlt := z } : State) t.val = (thr s t.val).setSlot i x := hslot
  rw [thr_modThr_self, show thr _ t.val = _ from hthr, slotOf_setSlot, setSlot_setSlot, hf]

/-! ## The two ends -/

/-- What is reached does not depend on the sequencer. -/
theorem xlook_seq (h : Half) (p : Part) (pva : Nat) (need : Rights) (held : Option Tlb) (s : State) (q : Seq) :
    (xlook h p pva need held { s with seq := q }).1 = (xlook h p pva need held s).1 ∧
      (xlook h p pva need held { s with seq := q }).2 = { (xlook h p pva need held s).2 with seq := q } := by
  have hcached : cachedXl h p pva need { s with seq := q } = ((cachedXl h p pva need s).1, { (cachedXl h p pva need s).2 with seq := q }) := by
    have hfind : tlbFind { s with seq := q } h p pva = tlbFind s h p pva := rfl
    unfold cachedXl
    rw [hfind]
    split
    · rfl
    · split <;> rfl
  rw [xlook_eq, xlook_eq, hcached]
  split
  · split <;> exact ⟨rfl, rfl⟩
  · exact ⟨rfl, rfl⟩

theorem reach_seq (t : Nat) (p : Part) (pva : BitVec 64) (page need : Rights) (kind : Nat) (dev : Space → Bool) (held : Option Tlb) (s : State)
    (q : Seq) : (reach t p pva page need kind dev held { s with seq := q }).1 = (reach t p pva page need kind dev held s).1 := by
  obtain ⟨h1, h2⟩ := xlook_seq (thrHalf t) p pva.toNat page held s q
  unfold reach
  split
  · rfl
  · dsimp only
    rw [h1, h2]
    split <;> rfl

theorem reachSa_unit {t : ThreadId} {i : Fin 2} {s u : State} {x : Stream} (h : Unit_ t i s x u) (p : Part) (pva : BitVec 64) (sa : Sa)
    (need : Rights) (kind : Nat) (dev : Space → Bool) : reachSa u t.val p pva sa need kind dev = reachSa s t.val p pva sa need kind dev := by
  obtain ⟨⟨q, w, rfl⟩, -⟩ := h
  rfl

/-- The translation of a unit's source is kept for the units that follow, and the walk's result used up. -/
def keepSrc (mine : XlReq → Bool) (keep : Option Tlb → Option Tlb) (z : Stream) : Stream :=
  { z with hit := z.hit.filter fun e => !mine e.1, src := keep z.src }

/-- The source of a unit is reached (R235, R241). -/
theorem streamReach_goes {t : ThreadId} {i : Fin 2} {a u : Nat} {s v : State} {x : Stream} {sp : Space} {sa : Sa}
    (hv : Unit_ t i s x v) (hxlt : v.xlt = s.xlt) (hhit : x.hit = [])
    (hgo : (reach t.val (thr s t.val).part (BitVec.ofNat 64 a) Rights.rd Rights.rd 4 (fun _ => false) x.src s).1 = .go sp sa) :
    ∃ e z, streamReach t i a Rights.rd 4 u v = (some (sp, sa), z) ∧ Unit_ t i s { x with src := e } z := by
  obtain ⟨-, -, -, -, hpart⟩ := setSlot_fields (thr s t.val) i x
  have hgo' : (reach t.val (thr v t.val).part (BitVec.ofNat 64 a) Rights.rd Rights.rd 4 noDev x.src v).1 = .go sp sa := by
    obtain ⟨⟨q, y, hq⟩, hslot⟩ := hv
    rw [hslot, hpart]
    have hv' : v = { s with seq := q } := by
      rw [hq] at hxlt ⊢
      cases hxlt
      rfl
    rw [hv', reach_seq]
    exact hgo
  obtain ⟨y, hy⟩ := reach_only t.val (thr v t.val).part (BitVec.ofNat 64 a) Rights.rd Rights.rd 4 noDev x.src v
  have hone : ∃ m k, streamReach t i a Rights.rd 4 u v =
      (some (sp, sa), modThr (reach t.val (thr v t.val).part (BitVec.ofNat 64 a) Rights.rd Rights.rd 4 noDev x.src v).2 t.val fun y =>
        y.setSlot i (keepSrc m k (y.slotOf i))) := by
    unfold streamReach
    dsimp only
    rw [hv.slot, slotOf_setSlot, hhit]
    rw [hv.slot] at hgo'
    simp only [List.find?_nil, if_true]
    rw [hgo']
    exact ⟨fun q => q.line == u && q.kind.toNat == 4 && q.pva == BitVec.ofNat 64 a, fun e => ((tlbFind (reach t.val
      ((thr s t.val).setSlot i x).part (BitVec.ofNat 64 a) Rights.rd Rights.rd 4 noDev x.src v).2 (thrHalf t.val)
      ((thr s t.val).setSlot i x).part a).map (·.2)).orElse fun _ => e, rfl⟩
  obtain ⟨m, k, hone⟩ := hone
  refine ⟨k x.src, _, hone, hv.mod ⟨y, hy⟩ (keepSrc m k) ?_⟩
  have hnone : x.hit.filter (fun e => !m e.1) = x.hit := by rw [hhit]; rfl
  rw [keepSrc, hnone]

/-- The pinned destination of a unit is reached. -/
theorem streamDst_goes {t : ThreadId} {i : Fin 2} {d : SDesc} {e u : Nat} {s v : State} {x : Stream} {sp : Space} {sa : Sa}
    (hv : Unit_ t i s x v) (hpin : d.pin = true)
    (hgo : reachSa s t.val (thr s t.val).part 0 (BitVec.ofNat 52 (d.dstAt e)) Rights.wr 5 (fun _ => false) = .go sp sa) :
    streamDst t i d e 5 u v = (some (sp, sa), v) := by
  obtain ⟨-, -, -, -, hpart⟩ := setSlot_fields (thr s t.val) i x
  unfold streamDst
  dsimp only
  rw [hpin, if_pos rfl, reachSa_unit hv, hv.slot, hpart]
  rw [show reachSa s t.val (thr s t.val).part 0 (BitVec.ofNat 52 (d.dstAt e)) Rights.wr 5 noDev = _ from hgo]

/-- A unit in flight both of whose ends are reached. -/
theorem unitEnds_goes {t : ThreadId} {i : Fin 2} {d : SDesc} {u : Nat} {s v : State} {x : Stream} {sp dp : Space} {sa da : Sa}
    (hv : Unit_ t i s { x with flights := [{ unit := u, src := none, dst := none }] } v) (hxlt : v.xlt = s.xlt) (hhit : x.hit = [])
    (hpin : d.pin = true)
    (hsrc : (reach t.val (thr s t.val).part (BitVec.ofNat 64 (d.srcAt (d.unitStart u))) Rights.rd Rights.rd 4 (fun _ => false) x.src s).1 =
      .go sp sa)
    (hdst : reachSa s t.val (thr s t.val).part 0 (BitVec.ofNat 52 (d.dstAt (d.unitStart u))) Rights.wr 5 (fun _ => false) = .go dp da) :
    ∃ e, Unit_ t i s { x with src := e, flights := [{ unit := u, src := some (sa, sp.home t.val), dst := some (da, dp.home t.val) }] }
      (unitEnds t i d u v) := by
  obtain ⟨e, z, hz, hzu⟩ := streamReach_goes (u := u) hv hxlt hhit hsrc
  have hflight {w : State} {y : Stream} {f : Flight} (hw : Unit_ t i s { y with flights := [f] } w) (hf : f.unit = u) :
      flightOf w t i u = some f := by
    unfold flightOf
    rw [hw.slot, slotOf_setSlot]
    simp [hf]
  have hput {w : State} {y : Stream} {f : Flight} (g : Flight) (hw : Unit_ t i s { y with flights := [f] } w) (hfg : f.unit = g.unit) :
      Unit_ t i s { y with flights := [g] } (putFlight t i g w) :=
    hw.mod ⟨w.xlt, rfl⟩ (fun x => { x with flights := x.flights.map fun h => if h.unit = g.unit then g else h }) (by simp [hfg])
  have h1 := hput { unit := u, src := some (sa, sp.home t.val), dst := none } (y := { x with src := e }) hzu rfl
  have h2 := hput { unit := u, src := some (sa, sp.home t.val), dst := some (da, dp.home t.val) } h1 rfl
  have hends : unitEnds t i d u v = putFlight t i { unit := u, src := some (sa, sp.home t.val), dst := some (da, dp.home t.val) }
      (putFlight t i { unit := u, src := some (sa, sp.home t.val), dst := none } z) := by
    unfold unitEnds
    dsimp only
    rw [hflight hv rfl]
    simp only [Option.isSome_none, Bool.false_eq_true, if_false]
    rw [hz]
    dsimp only
    rw [hflight h1 rfl, streamDst_goes h1 hpin hdst]
    rfl
  rw [hends]
  exact ⟨e, h2⟩

/-! ## The move -/

/-- A line of BUF space stays there while power and the marks of its row do. -/
theorem bufLine_congr {s u : State} {r r' : LineReq} (h : BufLine s r) (hsa : r'.sa = r.sa) (hhome : r'.home = r.home) (hpwr : u.pwr = s.pwr)
    (hecc : u.cache.ecc = s.cache.ecc) : BufLine u r' := by
  refine ⟨hsa ▸ h.buf, ?_, ?_⟩
  · rw [domRuns, domSt, hpwr, hhome]
    exact h.runs
  · rw [rowClean, hecc, hsa]
    exact h.clean

/-- The parts of a state that a unit's reads leave. -/
theorem reading_rest {ask : List (Consumer × Nat)} {got : List (Consumer × Nat × LineRes)} {s t : State} (h : reading ask got s t) :
    t.seq = s.seq ∧ t.integ = s.integ ∧ t.cache.got = got ∧ t.buf = s.buf := by
  obtain ⟨_, _, _, _, _, _, _, _, rfl⟩ := h
  exact ⟨rfl, rfl, rfl, rfl⟩

/-- A unit without check tags has nothing to verify. -/
theorem verifyBlock_unchecked {d : SDesc} (hchk : d.chk = 0) (t : ThreadId) (i : Fin 2) (u : Nat) (sa : Sa) (home : Half) (s : State) :
    verifyBlock t i d u sa home s = (true, s) := by
  unfold verifyBlock
  dsimp only
  rw [if_pos (.inl (by rw [hchk]; decide))]

/-- The source of a unit has been read: the line is as it was, and only the unit's own answer waits. -/
structure SourceRead (t : ThreadId) (i : Fin 2) (n : Nat) (key : Nat) (w u : State) : Prop where
  pwr : u.pwr = w.pwr
  tables : u.tables = w.tables
  ecc : u.cache.ecc = w.cache.ecc
  data : u.cache.data = w.cache.data
  seq : u.seq = w.seq
  arm : u.integ.injArm = w.integ.injArm
  asked : ∀ p ∈ u.cache.asked, p.1 = .source t i n
  got : ∀ p ∈ u.cache.got, p.1 = .source t i n
  other : ∀ k, k ≠ key → metaAt u k = metaAt w k
  calm : Sys2Proof.Safety.calm u = true

/-- A unit reads its source line, which is there. -/
theorem source_read {t : ThreadId} {i : Fin 2} {n : Nat} {r : LineReq} {sp : Span} {w : State} (hcalm : calm w = true)
    (hdam : w.tables.damage = []) (hask : w.cache.asked = []) (hgot : w.cache.got = []) (hop : r.op = .read sp none false) (hline : BufLine w r)
    (hp : (metaAt w (bufKey r.sa)).sp = 0) :
    ∃ u x, collect (.source t i n) [(0, r)] w = (some [x], u) ∧ ¬ x.status ≠ 0 ∧ x.data = lineData w (bufKey r.sa) ∧
      SourceRead t i n (bufKey r.sa) w u := by
  have hun : unasked (.source t i n) w := by
    rw [unasked, hask, hgot]
    exact ⟨by simp, by simp⟩
  obtain ⟨hserved, hc⟩ := settle_reads (c := .source t i n) (L := [(0, r)]) hcalm hdam (by simp) hun (by
    intro a ha
    obtain rfl := List.mem_singleton.mp ha
    exact ⟨hop, hline, hp⟩)
  generalize hu : settle (askAll (.source t i n) [(0, r)] w) = u at hserved hc
  obtain ⟨hwork, -, hother⟩ := hserved
  obtain ⟨htab, hpwr, hecc, hdata, hasked⟩ := hwork.facts
  obtain ⟨hseq, hinteg, hgots, -⟩ := reading_rest hwork
  refine ⟨u, bufRes w (0, r), collect_done (f := bufRes w) (by simp) hun hu hgots, not_not.mpr rfl, rfl,
    hpwr, htab, hecc, hdata, hseq, by rw [hinteg], ?_, ?_, fun k hk => hother k fun e he => ?_, hc⟩
  · rw [hasked, hask]
    simp
  · rw [hgots, hgot]
    simp
  · obtain rfl := List.mem_singleton.mp (List.mem_of_mem_take he)
    exact hk.symm

/-- What a unit's write leaves: its line holds the merged data, every other is as it was. -/
structure DestWritten (t : ThreadId) (key : Nat) (mask : BitVec 128) (data : BitVec 1024) (s u : State) : Prop where
  line : lineData u key = mergeBytes mask (lineData s key) data
  other : sameBytesBut key s u
  thread : ∃ w, thr u t.val = { thr s t.val with wait := w }
  calm : Sys2Proof.Safety.calm u = true

/-- A unit writes its destination line, which is there, with no copy elsewhere. -/
theorem dest_written {t : ThreadId} {i : Fin 2} {n : Nat} {r : LineReq} {m : BitVec 128} {data : BitVec 1024} {v : State} (hcalm : calm v = true)
    (hdam : v.tables.damage = []) (harm : v.integ.injArm = false) (hfree : unasked (.dest t i n) v) (hw : BufWrite v r m data) :
    ∃ u y, collect (.dest t i n) [(0, r)] v = (some [y], u) ∧ ¬ y.status ≠ 0 ∧ DestWritten t (bufKey r.sa) m data v u := by
  obtain ⟨hstored, hc⟩ := settle_writes (c := .dest t i n) (L := [(0, r)]) (d := fun _ => data) hcalm hdam harm (by simp) (by simp) hfree (by
    intro e he
    obtain rfl := List.mem_singleton.mp he
    exact hw)
  generalize hu : settle (askAll (.dest t i n) [(0, r)] v) = u at hstored hc
  have hgot : unmarked u.cache.got =
      unmarked (v.cache.got ++ [((0, r) : Nat × LineReq)].map fun e => (Consumer.dest t i n, e.1, { LineRes.st 0 with line := lineOf e.2.sa })) :=
    hstored.woken.got
  obtain ⟨g, hcollect, hg⟩ := collect_marked (f := fun e => { LineRes.st 0 with line := lineOf e.2.sa }) (by simp) hfree hu hgot
  refine ⟨u, g (0, r), hcollect, ?_, hstored.lines (0, r) (by simp), fun a ha => hstored.out a fun e he => ?_, hstored.woken.threads t.val, hc⟩
  · have hst := congrArg LineRes.status (hg (0, r) (by simp))
    exact not_not.mpr hst
  · obtain rfl := List.mem_singleton.mp (List.mem_of_mem_take he)
    exact ha

/-- A unit without check tags, both of whose lines are there: what it reads is written, and it is done. -/
theorem unitMove_moves {t : ThreadId} {i : Fin 2} {d : SDesc} {n : Nat} {w : State} {sa da : Sa} {home1 home2 : Half} {key1 key2 : Nat}
    (hchk : d.chk = 0) (hask : w.cache.asked = []) (hgot : w.cache.got = []) (harm : w.integ.injArm = false) (hsa : isBuf sa = true)
    (hda : isBuf da = true) (hne : key1 ≠ key2)
    (h1 : lineHere w (.read (.some_ (d.srcSectors (d.unitStart n) (d.unitEnd d.total (d.unitStart n) - d.unitStart n))) none false) sa
      (thr w t.val).part (thrHalf t.val) home1 key1 = true) (hp1 : (metaAt w key1).sp = 0) {m : BitVec 128 × BitVec 1024}
    (hm : d.move (lineData w key1) (d.unitStart n) (d.unitEnd d.total (d.unitStart n) - d.unitStart n) = m)
    (h2 : lineHere w (.write m.1 m.2) da (thr w t.val).part (thrHalf t.val) home2 key2 = true) (hn2 : noCopies w key2 = true) :
    ∃ v, unitMove t i d n (sa, home1) (da, home2) w = unitDone t i d n sa home1 v ∧ DestWritten t key2 m.1 m.2 w v := by
  obtain ⟨hcalm, hdam, hk1, hl1⟩ := bufLine_of_here h1 hsa (.buf (.source t i n) 0)
  obtain ⟨-, -, hk2, hl2⟩ := bufLine_of_here h2 hda .own
  subst hk1 hk2
  obtain ⟨u, x, hcollect, hst, hx, hread⟩ := source_read (t := t) (i := i) (n := n) hcalm hdam hask hgot rfl hl1 hp1
  have hmeta : metaAt u (bufKey da) = metaAt w (bufKey da) := hread.other _ (Ne.symm hne)
  have hdata (k : Nat) : lineData u k = lineData w k := by rw [lineData, lineData, hread.data]
  have hthr : thr u t.val = thr w t.val := thr_congr hread.seq t.val
  have hno : noCopies u (bufKey da) = true := by
    rw [noCopies, hmeta]
    exact hn2
  have hfree : unasked (.dest t i n) u := by
    refine ⟨fun p hp => ?_, fun p hp => ?_⟩
    · rw [hread.asked p hp]
      exact Consumer.noConfusion
    · rw [hread.got p hp]
      exact Consumer.noConfusion
  obtain ⟨v, y, hcollect2, hst2, hwritten⟩ := dest_written (t := t) (i := i) (n := n)
    (r := mkReq u (.buf (.dest t i n) 0) (.write m.1 m.2) da (thr w t.val).part (thrHalf t.val) home2) (m := m.1) (data := m.2) hread.calm
    (hread.tables ▸ hdam) (hread.arm.trans harm) hfree
    ⟨rfl, bufLine_congr hl2 rfl rfl hread.pwr hread.ecc, hno⟩
  refine ⟨v, ?_, ?_⟩
  · unfold unitMove
    dsimp only
    rw [hcollect]
    dsimp only
    rw [if_neg (show ¬ ([x].headD (LineRes.st stPoison)).status ≠ 0 from hst), verifyBlock_unchecked hchk]
    dsimp only
    rw [if_neg (by decide), show d.move ([x].headD (LineRes.st stPoison)).data _ _ = m from (congrArg (d.move · _ _) hx).trans hm, hcollect2]
    exact if_neg hst2
  · obtain ⟨hline, hother, ⟨wt, hwt⟩, hc⟩ := hwritten
    refine ⟨?_, fun a ha => ?_, ⟨wt, by rw [hwt, hthr]⟩, hc⟩
    · rw [← hdata (bufKey da)]
      exact hline
    · exact (hother a ha).trans (by rw [hread.data])

/-! ## Progress -/

/-- With no later unit complete, LINE moves on by one. -/
theorem complete_next {x : Stream} {n : Nat} (hn : n = x.line.toNat) (hdone : x.donemap = 0) :
    x.complete n = { x with line := x.line + 1, donemap := 0 } := by
  unfold Stream.complete
  rw [if_pos hn]
  unfold Stream.advance
  dsimp only
  rw [hdone, if_neg (by decide)]
  rfl

/-- A unit of a stream that goes on is done: LINE moves on by one, no byte changes. -/
theorem unitDone_goes {t : ThreadId} {i : Fin 2} {d : SDesc} {n : Nat} {sa : Sa} {home : Half} {v : State}
    (hmelt : d.melt = false) (hn : n = ((thr v t.val).slotOf i).line.toNat) (hdone : ((thr v t.val).slotOf i).donemap = 0)
    (hstop : ((thr v t.val).slotOf i).stop = none) (hlast : n + 1 < d.units) :
    ∃ z, thr (unitDone t i d n sa home v) t.val = (thr v t.val).setSlot i z ∧ z.line = ((thr v t.val).slotOf i).line + 1 ∧
      z.used = ((thr v t.val).slotOf i).used ∧ (unitDone t i d n sa home v).cache.data = v.cache.data ∧
      calm (unitDone t i d n sa home v) = calm v := by
  obtain ⟨c, b, k, hcnt⟩ := onlyCounts_cnt 0x045 (some (thrHalf t.val)) (some (thr v t.val).part) 1 (dropFlight t i n (forgetUnit t i n v))
  have hdrop : (thr (dropFlight t i n (forgetUnit t i n v)) t.val) = (thr v t.val).setSlot i
      { (thr v t.val).slotOf i with
        flights := ((thr v t.val).slotOf i).flights.filter fun f => f.unit != n
        xl := ((thr v t.val).slotOf i).xl.filter fun q => q.kind == 7 || q.line != n
        hit := ((thr v t.val).slotOf i).hit.filter fun e => e.1.kind == 7 || e.1.line != n } := thr_modThr_self ..
  unfold unitDone
  dsimp only
  rw [hmelt, if_neg (by decide), hcnt]
  generalize hw : ({ dropFlight t i n (forgetUnit t i n v) with cnt := c, bwr := b, tst := k } : State) = w
  have hthr : thr w t.val = thr (dropFlight t i n (forgetUnit t i n v)) t.val := by rw [← hw]; rfl
  have hdata : w.cache.data = v.cache.data := by rw [← hw]; rfl
  have hcalm : calm w = calm v := by rw [← hw]; rfl
  have hz : thr (modThr w t.val fun y => y.setSlot i ((y.slotOf i).complete n)) t.val = (thr v t.val).setSlot i
      { (thr v t.val).slotOf i with
        line := ((thr v t.val).slotOf i).line + 1
        donemap := 0
        flights := ((thr v t.val).slotOf i).flights.filter fun f => f.unit != n
        xl := ((thr v t.val).slotOf i).xl.filter fun q => q.kind == 7 || q.line != n
        hit := ((thr v t.val).slotOf i).hit.filter fun e => e.1.kind == 7 || e.1.line != n } := by
    rw [thr_modThr_self, hthr, hdrop, slotOf_setSlot, setSlot_setSlot, complete_next]
    · exact hn
    · exact hdone
  generalize hu : modThr w t.val (fun y => y.setSlot i ((y.slotOf i).complete n)) = u at hz
  have hdu : u.cache.data = v.cache.data := by rw [← hu]; exact hdata
  have hcu : calm u = calm v := by rw [← hu]; exact hcalm
  have hend : endCheck t i d u = u := by
    unfold endCheck
    dsimp only
    rw [hz, slotOf_setSlot, if_neg]
    rintro ⟨-, hline, -⟩
    dsimp only at hline
    rw [BitVec.toNat_add] at hline
    have hlt := ((thr v t.val).slotOf i).line.isLt
    have hmod : (((thr v t.val).slotOf i).line.toNat + (1 : BitVec 32).toNat) % 2 ^ 32 ≤ n + 1 := by
      rw [hn]
      exact Nat.mod_le _ _
    omega
  rw [hend]
  have hcheck : stopCheck t i u = u := by
    unfold stopCheck
    dsimp only
    rw [hz, slotOf_setSlot]
    dsimp only
    rw [hstop]
  rw [hcheck]
  exact ⟨_, hz, rfl, rfl, hdu, hcu⟩

/-! ## One unit -/

/-- The next unit of a stream with no unit in flight is unit LINE. -/
theorem nextUnit_line {x : Stream} {n units : Nat} (hn : n = x.line.toNat) (hfl : x.flights = []) (hlt : n < units) :
    x.nextUnit units = some n := by
  unfold Stream.nextUnit
  rw [hfl, if_neg (by decide), show List.range 33 = 0 :: (List.range 32).map Nat.succ from List.range_succ_eq_map, List.map_cons, List.find?_cons,
    Nat.add_zero, ← hn]
  have hone : (decide (n < units) && !x.unitComplete n && !([] : List Flight).any fun f => f.unit == n) = true := by
    subst hn
    simp [Stream.unitComplete, hlt]
  rw [hone]

/-- What a unit of a stream that goes on leaves. -/
structure UnitMoved (t : ThreadId) (i : Fin 2) (key : Nat) (m : BitVec 128 × BitVec 1024) (s u : State) : Prop where
  line : lineData u key = mergeBytes m.1 (lineData s key) m.2
  other : sameBytesBut key s u
  slot : ∃ w z, thr u t.val = { (thr s t.val).setSlot i z with wait := w } ∧ z.line = ((thr s t.val).slotOf i).line + 1 ∧
    z.used = ((thr s t.val).slotOf i).used
  calm : Sys2Proof.Safety.calm u = true

/-- A unit in flight, taken as far as it goes. -/
theorem unitRun_moves {t : ThreadId} {i : Fin 2} {d : SDesc} {n : Nat} {s w : State} {x : Stream} {sp dp : Space} {sa da : Sa} {key1 key2 : Nat}
    (hx : (thr s t.val).slotOf i = x) (hn : n = x.line.toNat) (hdone : x.donemap = 0) (hstop : x.stop = none)
    (hw : Unit_ t i s { x with flights := [{ unit := n, src := none, dst := none }] } w) (hxlt : w.xlt = s.xlt) (hhit : x.hit = [])
    (hpin : d.pin = true) (hchk : d.chk = 0) (hmelt : d.melt = false) (hlast : n + 1 < d.units)
    (hask : s.cache.asked = []) (hgot : s.cache.got = []) (harm : s.integ.injArm = false)
    (hsrc : (reach t.val (thr s t.val).part (BitVec.ofNat 64 (d.srcAt (d.unitStart n))) Rights.rd Rights.rd 4 (fun _ => false) x.src s).1 =
      .go sp sa)
    (hdst : reachSa s t.val (thr s t.val).part 0 (BitVec.ofNat 52 (d.dstAt (d.unitStart n))) Rights.wr 5 (fun _ => false) = .go dp da)
    (hsa : isBuf sa = true) (hda : isBuf da = true) (hne : key1 ≠ key2) {m : BitVec 128 × BitVec 1024}
    (hm : d.move (lineData s key1) (d.unitStart n) (d.unitEnd d.total (d.unitStart n) - d.unitStart n) = m)
    (h1 : lineHere s (.read (.some_ (d.srcSectors (d.unitStart n) (d.unitEnd d.total (d.unitStart n) - d.unitStart n))) none false) sa
      (thr s t.val).part (thrHalf t.val) (sp.home t.val) key1 = true) (hp1 : (metaAt s key1).sp = 0)
    (h2 : lineHere s (.write m.1 m.2) da (thr s t.val).part (thrHalf t.val) (dp.home t.val) key2 = true) (hn2 : noCopies s key2 = true) :
    UnitMoved t i key2 m s (unitRun t i d n w) := by
  obtain ⟨e, hends⟩ := unitEnds_goes hw hxlt hhit hpin hsrc hdst
  have hflight : flightOf (unitEnds t i d n w) t i n =
      some { unit := n, src := some (sa, sp.home t.val), dst := some (da, dp.home t.val) } := by
    unfold flightOf
    rw [hends.slot, slotOf_setSlot]
    simp
  have hrun : unitRun t i d n w = unitMove t i d n (sa, sp.home t.val) (da, dp.home t.val) (unitEnds t i d n w) := by
    unfold unitRun
    dsimp only
    rw [hflight]
  rw [hrun]
  generalize unitEnds t i d n w = v at hends
  obtain ⟨⟨q, y, hv⟩, hslot⟩ := hends
  have hpart : (thr v t.val).part = (thr s t.val).part := by
    rw [hslot]
    exact (setSlot_fields ..).2.2.2.2
  have hcache : v.cache = s.cache ∧ v.integ = s.integ ∧ v.tables = s.tables := by
    rw [hv]
    exact ⟨rfl, rfl, rfl⟩
  obtain ⟨hcache, hinteg, htab⟩ := hcache
  have hhere (op : LineOp) (a : Sa) (h : Half) (k : Nat) :
      lineHere v op a (thr v t.val).part (thrHalf t.val) h k = lineHere s op a (thr s t.val).part (thrHalf t.val) h k := by
    rw [hpart, hv]
    rfl
  have hdata (k : Nat) : lineData v k = lineData s k := by rw [lineData, lineData, hcache]
  have hmeta (k : Nat) : metaAt v k = metaAt s k := metaAt_congr hcache htab k
  obtain ⟨u, hu, hwritten⟩ := unitMove_moves (t := t) (i := i) (d := d) (n := n) (w := v) hchk (hcache ▸ hask) (hcache ▸ hgot) (hinteg ▸ harm) hsa hda
    hne ((hhere ..).trans h1) ((congrArg Meta.sp (hmeta key1)).trans hp1) ((congrArg (d.move · _ _) (hdata key1)).trans hm) ((hhere ..).trans h2)
    (by rw [noCopies, hmeta]; exact hn2)
  rw [hu]
  obtain ⟨hline, hother, ⟨wt, hthr⟩, hcalm⟩ := hwritten
  have hslotu : (thr u t.val).slotOf i =
      { x with src := e, flights := [{ unit := n, src := some (sa, sp.home t.val), dst := some (da, dp.home t.val) }] } := by
    rw [hthr, hslot]
    exact slotOf_setSlot ..
  obtain ⟨z, hz, hzline, hzused, hzdata, hzcalm⟩ := unitDone_goes (t := t) (i := i) (d := d) (n := n) (sa := sa) (home := sp.home t.val) (v := u)
    hmelt (by rw [hslotu]; exact hn) (by rw [hslotu]; exact hdone) (by rw [hslotu]; exact hstop) hlast
  refine ⟨?_, fun a ha => ?_, ⟨wt, z, ?_, ?_, ?_⟩, hzcalm.trans hcalm⟩
  · rw [lineData, hzdata, ← hdata key2]
    exact hline
  · rw [hzdata]
    exact (hother a ha).trans (by rw [hcache])
  · rw [hz, hthr, hslot]
    unfold Thread.setSlot
    split <;> rfl
  · rw [hzline, hslotu, hx]
  · rw [hzused, hslotu, hx]

/-- Nothing holds back a stream of a running thread. -/
theorem streamHeld_false {s : State} {t : ThreadId} {x : Stream} (hphase : (thr s t.val).phase = .running) (hstop : x.stop = none)
    (hcancel : x.cancel = false) (hwarm : warmFenced s = false) (hup : coreUp s (thrCore t.val) = true)
    (hmoving : coreMoving s (thrCore t.val) = false) : streamHeld s t x = false := by
  unfold streamHeld
  rw [hphase, hstop, hcancel, hwarm, hup, hmoving]
  rfl

/-- A unit of a stream that may start one: its elements are moved, and LINE moves on. -/
theorem streamUnit_moves {t : ThreadId} {i : Fin 2} {s : State} {sp dp : Space} {sa da : Sa} {key1 key2 : Nat} :
    let th := thr s t.val
    let x := th.slotOf i
    let d := parseDesc x.desc
    let unit := x.line.toNat
    let e := d.unitStart unit
    let n := d.unitEnd d.total e - e
    th.phase = .running → slotRuns th i = true → x.stop = none → x.cancel = false → x.flights = [] → x.hit = [] → x.donemap = 0 →
    seqRuns s (thrHalf t.val) = true → warmFenced s = false → coreUp s (thrCore t.val) = true → coreMoving s (thrCore t.val) = false →
    d.pin = true → d.chk = 0 → d.melt = false → unit + 1 < d.units → s.cache.asked = [] → s.cache.got = [] → s.integ.injArm = false →
    (reach t.val th.part (BitVec.ofNat 64 (d.srcAt e)) Rights.rd Rights.rd 4 (fun _ => false) x.src s).1 = .go sp sa →
    reachSa s t.val th.part 0 (BitVec.ofNat 52 (d.dstAt e)) Rights.wr 5 (fun _ => false) = .go dp da →
    isBuf sa = true → isBuf da = true → key1 ≠ key2 →
    let m := d.move (lineData s key1) e n
    lineHere s (.read (.some_ (d.srcSectors e n)) none false) sa th.part (thrHalf t.val) (sp.home t.val) key1 = true → (metaAt s key1).sp = 0 →
    lineHere s (.write m.1 m.2) da th.part (thrHalf t.val) (dp.home t.val) key2 = true → noCopies s key2 = true →
    completesWith (.streamUnitComplete t i unit) s fun u =>
      lineData u key2 = mergeBytes m.1 (lineData s key2) m.2 ∧ sameBytesBut key2 s u ∧
      ((thr u t.val).slotOf i).line = x.line + 1 ∧ ((thr u t.val).slotOf i).used = true ∧ (thr u t.val).toks = th.toks ∧
      (thr u t.val).pc = th.pc ∧ (thr u t.val).g = th.g := by
  intro th x d unit e n hphase hruns hstop hcancel hfl hhit hdone hseq hwarm hup hmoving hpin hchk hmelt hlast hask hgot harm hsrc hdst hsa hda
    hne m h1 hp1 h2 hn2
  have he : exec (.streamUnitComplete t i unit) s = execStreamUnitComplete t i unit s := rfl
  have hunit : Unit_ t i s { x with flights := [{ unit := unit, src := none, dst := none }] }
      (setThr s t.val (th.setSlot i { x with flights := [{ unit := unit, src := none, dst := none }] })) :=
    ⟨⟨_, s.xlt, rfl⟩, thr_setThr_self ..⟩
  obtain ⟨hline, hother, ⟨w, z, hthr, hzline, hzused⟩, hcalm⟩ := unitRun_moves rfl rfl hdone hstop hunit rfl hhit hpin hchk hmelt hlast hask hgot harm
    hsrc hdst hsa hda hne (m := m) rfl h1 hp1 h2 hn2
  have hstart : execStreamUnitComplete t i unit s = answer s (settle (unitRun t i d unit
      (setThr s t.val (th.setSlot i { x with flights := [{ unit := unit, src := none, dst := none }] })))) := by
    unfold execStreamUnitComplete
    dsimp only
    rw [if_neg (by rw [show slotRuns (thr s t.val) i = true from hruns, hseq]; decide),
      show ((thr s t.val).slotOf i).flights = [] from hfl, if_neg (by simp), hask, if_neg (by simp),
      streamHeld_false hphase hstop hcancel hwarm hup hmoving, if_neg (by decide),
      if_neg (Nat.not_le.mpr (Nat.lt_of_succ_lt hlast)),
      nextUnit_line (x := (thr s t.val).slotOf i) (n := unit) rfl hfl (Nat.lt_of_succ_lt hlast), if_pos rfl]
    rfl
  generalize unitRun t i d unit (setThr s t.val (th.setSlot i { x with flights := [{ unit := unit, src := none, dst := none }] })) = v at *
  rw [settle_calm hcalm] at hstart
  obtain ⟨-, htoks, hpc, hg, -⟩ := setSlot_fields th i z
  have hslot : (thr v t.val).slotOf i = z := by
    rw [hthr]
    exact slotOf_setSlot th i z
  refine completesWith_answer (he.trans hstart) ⟨hline, hother, ?_, ?_, ?_, ?_, ?_⟩
  · rw [thr_answered, hslot]
    exact hzline
  · rw [thr_answered, hslot, hzused]
    exact (Bool.and_eq_true_iff.mp hruns).1
  · rw [thr_answered, hthr]
    exact htoks
  · rw [thr_answered, hthr]
    exact hpc
  · rw [thr_answered, hthr]
    exact hg

/-! ## The statement -/

/-- SCANCEL of a token that no stream holds. -/
theorem scancel_unheld {t : ThreadId} {f : TFields} {s : State} (hi : issues t [f.d.toNat] s) (hk : f.c.toNat < 8) (ha : f.a = 0) (hb : f.b = 0)
    (hv : f.v = 0) (himm : f.imm = 0) (hat : standsAt t (.scancel t f) s) (hno : slotOfTok (thr (fetched t s) t.val) f.c.toNat = none) :
    exec (.scancel t f) s = answer s (if tokOf (thr (fetched t s) t.val) f.c.toNat = tokDone then
        streamStatus t f 0 (tokLine (thr (fetched t s) t.val) f.c.toNat) (fun y => y.setTok f.c.toNat tokIdle) (fetched t s)
      else streamStatus t f 10 0 id (fetched t s)) := by
  refine (scancel_runs hi hk ha hb hv himm hat).trans ?_
  rw [hno]

/-- SCANCEL of a stream with nothing in flight that has not stopped. -/
theorem scancel_held {t : ThreadId} {f : TFields} {s : State} (hi : issues t [f.d.toNat] s) (hk : f.c.toNat < 8) (ha : f.a = 0) (hb : f.b = 0)
    (hv : f.v = 0) (himm : f.imm = 0) (hat : standsAt t (.scancel t f) s) {i : Fin 2}
    (hslot : slotOfTok (thr (fetched t s) t.val) f.c.toNat = some i) (hfl : inFlight (fetched t s) t i = false)
    (hstop : ((thr (fetched t s) t.val).slotOf i).stop = none) :
    exec (.scancel t f) s = answer s (streamStatus t f 0 (tokLine (thr (fetched t s) t.val) f.c.toNat)
      (fun y => (y.setSlot i Stream.zero).setTok f.c.toNat tokIdle) (fetched t s)) := by
  refine (scancel_runs hi hk ha hb hv himm hat).trans (congrArg (answer s) ?_)
  rw [hslot]
  exact if_neg (by rw [hfl, hstop]; rintro (h | h) <;> cases h)

/-- Settles O17: each stream instruction by the state of its token; a unit, by the read of its source and the write of its destination. -/
theorem streams : Obligations.Streams := by
  unfold Obligations.Streams
  refine ⟨fun t f s => ?_, fun t i s sp dp sa da key1 key2 => ?_⟩
  · intro s1 th k line gives
    refine ⟨fun hi hk ha hb hv himm => ?_, fun hi hat hk hb hv hrun hfault x sa lo hi' i hreach =>
      smov_starts hi hat hk hb hv hrun hfault hreach⟩
    have hgives {c : Instr} (st : Nat) (hi' : BitVec 32) (g : Thread → Thread)
        (hg : g { th with held := none, ahead := none } = { g th with held := none, ahead := none })
        (hc : standsAt t c s → exec c s = answer s (streamStatus t f st hi' g s1)) : gives c st hi' g :=
      fun hat => completesWith_answer (hc hat) (becameWith_answered.mpr (became_status hg))
    have hpoll {u : State} (h : _ = u) (hat : standsAt t (.spoll t f) s) := (spoll_runs hi hk ha hb hv himm hat).trans (congrArg (answer s) h)
    have hresume {u : State} (h : _ = u) (hat : standsAt t (.sresume t f) s) :=
      (sresume_runs hi hk ha hb hv himm hat).trans (congrArg (answer s) h)
    have hcancel {u : State} (hno : slotOfTok th k = none) (h : _ = u) (hat : standsAt t (.scancel t f) s) :=
      (scancel_unheld hi hk ha hb hv himm hat hno).trans (congrArg (answer s) h)
    have hcodes : tokDone ≠ tokRun ∧ tokFaulted ≠ tokRun ∧ tokFaulted ≠ tokDone ∧ tokIdle ≠ tokRun ∧ tokIdle ≠ tokDone ∧
        tokIdle ≠ tokFaulted ∧ tokRun ≠ tokFaulted ∧ tokDone ≠ tokFaulted ∧ tokDone ≠ tokIdle ∧ tokFaulted ≠ tokIdle := by decide
    obtain ⟨hdr, hfr, hfd, hir, hid, hif, hrf, hdf, hdi, hfi⟩ := hcodes
    refine ⟨fun htok => ⟨?_, ?_, swait_waits hi hk ha hb hv himm htok⟩, fun htok => ⟨?_, ?_, ?_, fun hno => ?_⟩, fun htok => ⟨?_, ?_, ?_⟩,
      fun htok => ⟨?_, ?_, ?_, fun hno => ?_⟩, fun i hslot hfl hstop => ?_⟩
    · exact hgives 11 line id rfl (hpoll (if_pos htok))
    · exact hgives 5 0 id rfl (hresume (if_neg (htok.trans_ne hrf)))
    · exact hgives 0 line _ rfl (hpoll ((if_neg (htok.trans_ne hdr)).trans (if_pos htok)))
    · exact swait_answers hi hk ha hb hv himm (htok.trans_ne hdr) (if_pos htok) (if_neg (htok.trans_ne hdi)) (funext fun _ => if_pos htok)
    · exact hgives 5 0 id rfl (hresume (if_neg (htok.trans_ne hdf)))
    · exact hgives 0 line _ rfl (hcancel hno (if_pos htok))
    · exact hgives 9 line id rfl (hpoll ((if_neg (htok.trans_ne hfr)).trans ((if_neg (htok.trans_ne hfd)).trans (if_pos htok))))
    · exact swait_answers hi hk ha hb hv himm (htok.trans_ne hfr) ((if_neg (htok.trans_ne hfd)).trans (if_pos htok))
        (if_neg (htok.trans_ne hfi)) (funext fun _ => if_neg (htok.trans_ne hfd))
    · exact hgives 0 0 _ rfl (hresume (if_pos htok))
    · exact hgives 10 0 id rfl (hpoll ((if_neg (htok.trans_ne hir)).trans ((if_neg (htok.trans_ne hid)).trans (if_neg (htok.trans_ne hif)))))
    · exact swait_answers hi hk ha hb hv himm (htok.trans_ne hir) ((if_neg (htok.trans_ne hid)).trans (if_neg (htok.trans_ne hif)))
        (if_pos htok) (funext fun _ => if_neg (htok.trans_ne hid))
    · exact hgives 5 0 id rfl (hresume (if_neg (htok.trans_ne hif)))
    · exact hgives 10 0 id rfl (hcancel hno (if_neg (htok.trans_ne hid)))
    · exact hgives 0 line _ (by unfold Thread.setSlot; split <;> rfl) fun hat => scancel_held hi hk ha hb hv himm hat hslot hfl hstop
  · intro th x d unit e n hphase hruns hstop hcancel hfl hhit hdone hseq hwarm hup hmoving hpin hchk hmelt hlast hask hgot harm hsrc hdst _ _ hsa hda
      hne _ m h1 hp1 h2 hn2
    exact streamUnit_moves hphase hruns hstop hcancel hfl hhit hdone hseq hwarm hup hmoving hpin hchk hmelt hlast hask hgot harm hsrc hdst hsa hda
      hne h1 hp1 h2 hn2

end Sys2Proof.Machine
end

section
/-! PROOFS. Stores (R258, R219): the next instruction is fetched first where the store overwrites its line; then the line's bytes change. -/

namespace Sys2Proof.Machine

open Sys2Proof.Safety

/-- The fetch that a store overtakes leaves its thread standing. -/
theorem fetchAhead_standing {t : ThreadId} {sa : Sa} {s : State} {w : Option (BitVec 64)} (hfree : freePending s t = false)
    (h : (fetchAhead t sa s).1 = some w) : Standing t s (fetchAhead t sa s).2 := by
  unfold fetchAhead at h ⊢
  extract_lets th r at h
  extract_lets
  split
  next x a hgo =>
    rw [hgo] at h
    dsimp only at h
    split
    · exact .refl t s
    next hline =>
      rw [if_neg hline] at h
      have hr : Standing t s r.2 := standing_reach ..
      have hword (hsome : (roWord (.next t) t th.part a (x.home t.val) r.2).1 ≠ none) := roWord_standing (hr.free hfree) hsome
      dsimp only
      generalize roWord (.next t) t th.part a (x.home t.val) r.2 = g at h hword ⊢
      split
      next hnone => rw [hnone] at h; cases h
      next hsome => exact hr.trans (hword (by rw [hsome]; exact Option.some_ne_none _))
  · exact .refl t s

/-- The answer of a thread's store. -/
theorem answerReq_write_thread {r : LineReq} {mask : BitVec 128} {d : BitVec 1024} {t : ThreadId} {id : Nat} (hop : r.op = .write mask d)
    (hwho : r.who = .thread t id) (key : Option Nat) (s : State) :
    ∃ u, onlyCounts s u ∧ answerReq r (LineRes.st 0) key s = threadResult t id [] u := by
  refine ⟨answerUnits r 0 s, onlyCounts_answerUnits .., ?_⟩
  simp [answerReq, hop, hwho, LineRes.st, stPoison, constFill]

/-- A thread's store to a line that is there, with no copy elsewhere. -/
theorem settle_write_thread {s : State} {r : LineReq} {key : Nat} {mask : BitVec 128} {d : BitVec 1024} {t : ThreadId} {id : Nat}
    (h : Meets s r key) (hop : r.op = .write mask d) (hwho : r.who = .thread t id) (hn : noCopies s key = true) (harm : s.integ.injArm = false) :
    ∃ u, Wrote key s u ∧ u.cache.data = (setData s key (mergeBytes mask (lineData s key) d)).cache.data ∧
      settle (enqueue r s) = threadResult t id [] u := by
  obtain ⟨u, hu, hdata, hset⟩ := settle_write h hop hn harm
  obtain ⟨v, hv, he⟩ := answerReq_write_thread hop hwho (some key) u
  rw [he] at hset
  have hcalm : calm (threadResult t id [] v) = true :=
    (seqWork_calm (seqWork_modThr ..)).trans ((onlyCounts_calm hv).trans ((wrote_calm hu).trans h.calm))
  obtain ⟨c, b, x, hw⟩ := hset hcalm
  have hcache : v.cache = u.cache := by
    obtain ⟨_, _, _, rfl⟩ := hv
    rfl
  exact ⟨{ v with cnt := c, bwr := b, tst := x }, hu.trans (wrote_of_onlyCounts (onlyCounts_trans hv ⟨c, b, x, rfl⟩)),
    (congrArg Cache.data hcache).trans hdata, hw⟩

/-- A store to a line that is there, with no copy elsewhere, is outstanding with its result, and the line holds its bytes. -/
theorem issueLine_store {t : ThreadId} {x : Space} {sa : Sa} (pva : BitVec 64) {mask : BitVec 128} {d : BitVec 1024} {key : Nat}
    (w : Option (BitVec 64)) {s : State} (harm : s.integ.injArm = false)
    (h : lineHere s (.write mask d) sa (thr s t.val).part (thrHalf t.val) (x.home t.val) key = true) (hno : noCopies s key = true) :
    let u := issueLine t x sa pva true 0 0 false (.write mask d) (fun y => { y with ahead := w.map fun i => (y.pc + 8, i) }) s
    ∃ o : Outst, issued t sa o s u ∧ o.store = true ∧ o.result = some [] ∧
      (thr u t.val).ahead = w.map (fun i => ((thr s t.val).pc + 8, i)) ∧
      u.cache.data = (setData s key (mergeBytes mask (lineData s key) d)).cache.data := by
  intro u
  let o := newOut t sa true 0 0 (pva.setWidth 48) false s
  let f : Thread → Thread := fun y => ({ y with ahead := w.map fun i => (y.pc + 8, i) } : Thread).next
  have hu := hasIssued_retire t sa true 0 0 (pva.setWidth 48) false f s fun th => ⟨rfl, rfl, rfl⟩
  have hs := seqWork_issue t sa true 0 0 (pva.setWidth 48) false f s
  have he : u = settle (enqueue (mkReq (retire t f (issueOut t sa true 0 0 (pva.setWidth 48) false s).2) (.thread t o.id)
      (.write mask d) sa (thr s t.val).part (thrHalf t.val) (x.home t.val)) (retire t f (issueOut t sa true 0 0 (pva.setWidth 48) false s).2)) := rfl
  have hself : (thr (retire t f (issueOut t sa true 0 0 (pva.setWidth 48) false s).2) t.val).wait = none ∧
      (thr (retire t f (issueOut t sa true 0 0 (pva.setWidth 48) false s).2) t.val).ahead = w.map (fun i => ((thr s t.val).pc + 8, i)) := by
    rw [thr_retire_self, show thr (issueOut t sa true 0 0 (pva.setWidth 48) false s).2 t.val = _ from thr_setThr_self ..]
    exact ⟨rfl, rfl⟩
  obtain ⟨hwait, hahead⟩ := hself
  rw [he]
  generalize retire t f (issueOut t sa true 0 0 (pva.setWidth 48) false s).2 = s3 at hu hs hwait hahead ⊢
  have hsame : lineData s3 key = lineData s key ∧ metaAt s3 key = metaAt s key ∧ s3.cache = s.cache ∧ s3.integ = s.integ := by
    obtain ⟨_, _, _, _, rfl⟩ := hs
    exact ⟨rfl, rfl, rfl, rfl⟩
  obtain ⟨hline, hmeta, hcache, hinteg⟩ := hsame
  rw [mkReq_seqWork hs]
  obtain ⟨v, hv, hdata, hset⟩ := settle_write_thread (t := t) (id := o.id) ((meets_mkReq h (.thread t o.id)).seqWork hs) rfl rfl
    (by rw [noCopies, hmeta]; exact hno) (by rw [hinteg]; exact harm)
  rw [hset]
  have hthr : thr v t.val = thr s3 t.val := hv.waits t.val hwait
  refine ⟨{ o with result := some [] }, issued_of_result hu rfl rfl ?_ fun k hk => ?_, rfl, rfl, ?_, ?_⟩
  · rw [thr_threadResult, thr_threadResult, hthr]
  · obtain ⟨y, hy⟩ := hv.woken.threads k
    rw [threadResult, thr_modThr_ne _ _ hk, hy]
  · rw [thr_threadResult, hthr]
    exact hahead
  · rw [hline] at hdata
    refine hdata.trans ?_
    rw [setData, setData]
    simp only [State.onCache, hcache]

/-- What the checks of a store leave of its thread. -/
theorem storing_thread {t : ThreadId} {c : Instr} {regs : List Nat} {s s3 : State} (hi : issues t regs s) (hat : standsAt t c s) {pva : BitVec 64}
    {need : Rights} {kind : Nat} {dev : Space → Bool} {sa : Sa} {w : Option (BitVec 64)}
    (h : fetchAhead t sa (reached t pva need kind dev (fetched t s)) = (some w, s3)) :
    (thr s3 t.val).pc = (thr (fetched t s) t.val).pc ∧ (thr s3 t.val).part = (thr (fetched t s) t.val).part := by
  obtain ⟨-, -, -, -, hfree, -⟩ := hi
  obtain ⟨v, hv, -⟩ := standsAt_word hat
  have hfetched := (fetch_standing hfree hv).free hfree
  have hreach : Standing t (fetched t s) (reached t pva need kind dev (fetched t s)) := standing_reach ..
  have htask := (fetchAhead_standing (hreach.free hfetched) (congrArg Prod.fst h)).task
  rw [h] at htask
  exact ⟨htask.pc.trans hreach.task.pc, htask.part.trans hreach.task.part⟩

/-- A store whose address is reached. -/
theorem issueStore_stores {t : ThreadId} {x : Space} {sa : Sa} {pva : BitVec 64} {mask : BitVec 128} {d : BitVec 1024} {key : Nat}
    {w : Option (BitVec 64)} {s s3 : State} (hahead : fetchAhead t sa s = (some w, s3)) (harm : s3.integ.injArm = false)
    (h : lineHere s3 (.write mask 0) sa (thr s3 t.val).part (thrHalf t.val) (x.home t.val) key = true) (hno : noCopies s3 key = true) :
    ∃ o : Outst, issued t sa o s3 (issueStore t x sa pva mask d s) ∧ o.store = true ∧ o.result = some [] ∧
      (thr (issueStore t x sa pva mask d s) t.val).ahead = w.map (fun i => ((thr s3 t.val).pc + 8, i)) ∧
      (issueStore t x sa pva mask d s).cache.data = (setData s3 key (mergeBytes mask (lineData s3 key) d)).cache.data := by
  unfold issueStore
  dsimp only
  rw [hahead]
  exact issueLine_store pva w harm h hno

/-- Of a value only its low n bytes are stored. -/
theorem bytesStored_low {s u : State} {key off n v : Nat} (h : bytesStored key off n (v % 2 ^ (8 * n)) s u) : bytesStored key off n v s u := by
  refine ⟨fun i hi => (h.1 i hi).trans ?_, h.2⟩
  have hsplit : (2 : Nat) ^ (8 * n) = 256 ^ i * 256 ^ (n - i) := by
    rw [two_pow_eight_mul, ← Nat.pow_add, show i + (n - i) = n by omega]
  have hdvd : (2 : Nat) ^ 8 ∣ 256 ^ (n - i) := dvd_pow_self 256 (by omega)
  apply BitVec.eq_of_toNat_eq
  rw [BitVec.toNat_ofNat, BitVec.toNat_ofNat, hsplit, Nat.mod_mul_right_div_self, Nat.mod_mod_of_dvd _ hdvd]

/-- A line stored whole: its groups of 8 bytes are the registers, and no other line changes. -/
theorem groupStored {th : Thread} {b : BitVec 5} {s u : State} {key : Nat}
    (h : u.cache.data = (setData s key (mergeBytes (BitVec.allOnes 128) (lineData s key) (groupLine th b))).cache.data) :
    (∀ i, i < 16 → lineField u key (8 * i) 8 = (gReg th (b.toNat + i)).toNat) ∧ sameBytesBut key s u := by
  refine ⟨fun i hi => ?_, fun a ha => ?_⟩
  · have hline : lineData u key = groupLine th b := (lineData_stored h).trans (mergeBytes_all ..)
    rw [← groupLine_part th b hi, ← hline, BitVec.extractLsb'_toNat, Nat.shiftRight_eq_div_pow, ← lineData_part u key (by omega),
      show 8 * (8 * i) = 64 * i by omega]
  · rw [h]
    exact memByte_setData_outside s key _ ha

/-- ST to a line that is there. -/
theorem st_completes {t : ThreadId} {f : TFields} {s s3 : State} {x : Space} {sa : Sa} {key : Nat} {w : Option (BitVec 64)}
    (hi : issues t [f.a.toNat, f.b.toNat] s) (hat : standsAt t (.st t f) s) (hlegal : (f.d == 0 && decide (f.v.toNat < 4) && f.c == 0) = true)
    (hreach : reachesAt t (effAddr (thr (fetched t s) t.val) f) (sizeOf f) Rights.wr 1 (devOk (sizeOf f) true) x sa (fetched t s))
    (hw : fetchAhead t sa (reached t (effAddr (thr (fetched t s) t.val) f) Rights.wr 1 (devOk (sizeOf f) true) (fetched t s)) = (some w, s3))
    (hx : x.isDev = false) (hlen : (thr (fetched t s) t.val).outs.length < 16) (harm : s3.integ.injArm = false)
    (hline : lineHere s3 (.write (byteMask (sa.toNat % 128) (sizeOf f)) 0) sa (thr (fetched t s) t.val).part (thrHalf t.val) (x.home t.val) key =
      true) (hno : noCopies s3 key = true) :
    completesWith (.st t f) s fun u => ∃ o : Outst, issued t sa o s3 u ∧ o.store = true ∧ o.result = some [] ∧
      (thr u t.val).ahead = w.map (fun i => ((thr (fetched t s) t.val).pc + 8, i)) ∧
      bytesStored key (sa.toNat % 128) (sizeOf f) (gReg (thr (fetched t s) t.val) f.b.toNat).toNat s3 u := by
  have he : exec (.st t f) s = execSt t f s := rfl
  obtain ⟨hpc, hpart⟩ := storing_thread hi hat hw
  have hfull : outsFull (reached t (effAddr (thr (fetched t s) t.val) f) Rights.wr 1 (devOk (sizeOf f) true) (fetched t s)) t = false :=
    outsFull_of_lt (by rw [thr_reached]; exact hlen)
  rw [execSt, hlegal, instr_issues 0 _ hi hat] at he
  dsimp only at he
  rw [access_reaches hreach, hfull, hx, field_low, show (2 : Nat) ^ 7 = 128 by decide] at he
  simp only [Bool.false_eq_true, if_false] at he
  rw [← hpart] at hline
  obtain ⟨o, ho, hst, hres, hah, hdata⟩ := issueStore_stores (pva := effAddr (thr (fetched t s) t.val) f)
    (d := BitVec.ofNat 1024 ((gReg (thr (fetched t s) t.val) f.b.toNat).toNat % 2 ^ (8 * sizeOf f) * 2 ^ (8 * (sa.toNat % 128)))) hw harm hline hno
  generalize issueStore t x sa _ _ _ _ = u at he ho hah hdata
  rw [hpc] at hah
  have halign : sa.toNat % 128 + sizeOf f ≤ 128 := reachesAt_aligned hreach (by omega)
  exact completesWith_answer he ⟨o, issued_answered.mpr ho, hst, hres, hah, bytesStored_low (bytesStored_merge halign hdata)⟩

/-- STL to a line that is there. -/
theorem stl_completes {t : ThreadId} {f : TFields} {s s3 : State} {x : Space} {sa : Sa} {key : Nat} {w : Option (BitVec 64)}
    (hi : issues t (f.a.toNat :: groupRegs f.b) s) (hat : standsAt t (.stl t f) s) (hlegal : (f.d == 0 && groupOk f.b && noVC f) = true)
    (hreach : reachesAt t (effAddr (thr (fetched t s) t.val) f) 128 Rights.wr 1 noDev x sa (fetched t s))
    (hw : fetchAhead t sa (reached t (effAddr (thr (fetched t s) t.val) f) Rights.wr 1 noDev (fetched t s)) = (some w, s3))
    (hlen : (thr (fetched t s) t.val).outs.length < 16) (harm : s3.integ.injArm = false)
    (hline : lineHere s3 (.write (BitVec.allOnes 128) 0) sa (thr (fetched t s) t.val).part (thrHalf t.val) (x.home t.val) key = true)
    (hno : noCopies s3 key = true) :
    completesWith (.stl t f) s fun u => ∃ o : Outst, issued t sa o s3 u ∧ o.store = true ∧ o.result = some [] ∧
      (thr u t.val).ahead = w.map (fun i => ((thr (fetched t s) t.val).pc + 8, i)) ∧
      (∀ i, i < 16 → lineField u key (8 * i) 8 = (gReg (thr (fetched t s) t.val) (f.b.toNat + i)).toNat) ∧ sameBytesBut key s3 u := by
  have he : exec (.stl t f) s = execStl t f s := rfl
  obtain ⟨hpc, hpart⟩ := storing_thread hi hat hw
  have hfull : outsFull (reached t (effAddr (thr (fetched t s) t.val) f) Rights.wr 1 noDev (fetched t s)) t = false :=
    outsFull_of_lt (by rw [thr_reached]; exact hlen)
  rw [execStl, hlegal, instr_issues 0 _ hi hat] at he
  dsimp only at he
  rw [access_reaches hreach, hfull] at he
  simp only [Bool.false_eq_true, if_false] at he
  rw [← hpart] at hline
  obtain ⟨o, ho, hst, hres, hah, hdata⟩ := issueStore_stores (pva := effAddr (thr (fetched t s) t.val) f)
    (d := groupLine (thr (fetched t s) t.val) f.b) hw harm hline hno
  generalize issueStore t x sa _ _ _ _ = u at he ho hah hdata
  rw [hpc] at hah
  obtain ⟨hregs, hbut⟩ := groupStored hdata
  exact completesWith_answer he ⟨o, issued_answered.mpr ho, hst, hres, hah, hregs, hbut⟩

/-- Settles O11: both stores are issued to the line that is there, whose bytes they change. -/
theorem storeResults : Obligations.StoreResults := by
  intro t f s x sa key s1 th pva n off here stores
  refine ⟨fun hi hat hd hv hc hreach w hw hhere => ?_, fun hi hat hd hb1 hb16 hv hc hreach w hw hhere => ?_⟩
  · obtain ⟨hx, hlen, -, harm, hline, hno⟩ := hhere
    exact st_completes hi hat (by simp [hd, hv, hc]) hreach (Prod.ext hw rfl) hx hlen harm hline hno
  · obtain ⟨-, hlen, -, harm, hline, hno⟩ := hhere
    exact stl_completes hi hat (by simp [hd, groupOk, hb1, hb16, noVC, hv, hc]) hreach (Prod.ext hw rfl) hlen harm hline hno

end Sys2Proof.Machine
end

section
/-! PROOFS. The slot that the boot loader took first, through the application of an image (R393, R394). A fatal reset while the advance
settles is the one step that starts the boot over; it leaves no region, so that no block is there for the program. -/

namespace Sys2Proof.Machine

open Sys2Proof.Safety

/-- A predicate that speaks of the first slot, of the regions and of the array's bytes alone. -/
def Aside (K : State → Prop) : Prop := ∀ {s u : State}, K s → u.boot.first = s.boot.first → u.tables.region = s.tables.region → u.cache.data = s.cache.data → K u

/-- The slot taken first is f, or the boot has started over. -/
def Loading (f : Slot) (u : State) : Prop := u.boot.first = f ∨ u.tables.region = []

theorem aside_loading (f : Slot) : Aside (Loading f) := by
  intro s u h hfirst hregion _
  unfold Loading
  rw [hfirst, hregion]
  exact h

theorem aside_first (f : Slot) : Aside fun u => u.boot.first = f := fun h hfirst _ _ => hfirst.trans h

theorem fatalNow_region (s : State) (cause : Nat) : (fatalNow s cause).tables.region = [] := by
  unfold fatalNow
  exact congrArg Tables.region ((bootWork_bootStart _).frame .tables (by decide))

theorem stable_loading (f : Slot) : Stable (Loading f) where
  alike h ha := aside_loading f h (by rw [ha.boot]) ha.region ha.data
  fatal cause _ := .inr (fatalNow_region _ cause)
  data _ _ h := h
  got _ _ h := h
  thread _ _ _ h := h
  freed _ _ _ h := h
  fewer _ _ h := h

section
-- Many short lemmas that cite one another: elaborating them side by side only makes threads wait on threads.
set_option Elab.async false

/-! ## Steps that touch neither -/

variable {K : State → Prop} (hK : Aside K) {s : State}
include hK

theorem aside_hands {n : Nat} {u : State} (hu : Hands n s u) (h : K s) : K u :=
  hK h (by rw [hu.frame .boot (by decide)]) (by rw [hu.frame .tables (by decide)]) (by
    obtain ⟨g, hg⟩ := hu.cache
    rw [hg])

theorem aside_cnt {ev : Nat} {hh : Option Half} {p : Option Part} {k : Nat} (h : K s) : K (cnt ev hh p k s) := by
  rw [cnt_only]
  exact hK h rfl rfl rfl

theorem aside_setTgt {hh : Half} {t : Nat} {x : Target} (h : K s) : K (setTgt hh t x s) := hK h rfl rfl rfl

theorem aside_setBlk {b : Nat} {x : Blk} (h : K s) : K (setBlk s b x) := hK h rfl rfl rfl

theorem aside_setWaitQ {hh : Half} {q : List Waiter} (h : K s) : K (setWaitQ hh q s) := hK h rfl rfl rfl

theorem aside_setMeta {k : Nat} {m : Meta} (h : K s) : K (setMeta s k m) := hK h rfl rfl rfl

theorem aside_modThr {t : Nat} {f : Thread → Thread} (h : K s) : K (modThr s t f) := hK h rfl rfl rfl

theorem aside_putPort {n : Nat} {p : Port} (h : K s) : K (putPort s n p) := hK h rfl rfl rfl

theorem aside_portTo {n st : Nat} (h : K s) : K (portTo n st s) := aside_putPort hK h

theorem aside_allocEvent {hh : Half} {p : Part} {st : Nat} (h : K s) : K (allocEvent hh p st s) :=
  either (aside_cnt hK h) (either (aside_cnt hK h) (either (aside_cnt hK h) (either (aside_cnt hK h) h)))

theorem aside_blockAnswer {w : Who} {p : Part} {sa : Sa} {st : Nat} (h : K s) : K (blockAnswer w p sa st s) := by
  cases w with
  | port n c tag => exact aside_hands hK (hands_sendFrame n.val _ s) h
  | thread t d =>
    unfold blockAnswer
    exact aside_modThr hK h
  | block | record | buf | posted | own => exact h

theorem aside_endWaiter {hh : Half} {w : Waiter} {st : Nat} (h : K s) : K (endWaiter hh w st s) := by
  unfold endWaiter
  exact aside_blockAnswer hK (aside_allocEvent hK (aside_setWaitQ hK (hK h rfl rfl rfl)))

theorem aside_placeBlock {b : Nat} (h : K s) : K (placeBlock b s) := by
  unfold placeBlock
  refine either (aside_setBlk hK h) ?_
  split
  · exact aside_setBlk hK h
  · exact aside_blockAnswer hK (aside_allocEvent hK (aside_setWaitQ hK (aside_setBlk hK h)))

theorem aside_serveRegion {n r : Nat} (h : K s) : K (serveRegion n r s) := by
  induction n generalizing s with
  | zero => exact h
  | succ n ih =>
    rw [serveRegion]
    refine either h ?_
    split
    · exact h
    · exact ih (aside_placeBlock hK (hK h rfl rfl rfl))

theorem aside_openRegion {r : Nat} (h : K s) : K (openRegion r s) := by
  have hb : K (s.onBuf fun u => { u with blk := u.blk.filter fun e => !decide (e.1 / 1024 = r) }) := hK h rfl rfl rfl
  exact either (kept_foldl (fun _ _ ht => aside_setBlk hK ht) hb _) (aside_serveRegion hK hb)

theorem aside_avsWrite {hh : Half} {mv : BitVec 16} (h : K s) : K (avsWrite hh mv s) := either h (hK h rfl rfl rfl)

theorem aside_tgtRestart {d : Nat} (h : K s) : K (tgtRestart d s) := kept_foldl (fun _ _ ht => aside_setTgt hK ht) h _

theorem aside_setDom {d st : Nat} (h : K s) : K (setDom d st s) := either (hK h rfl rfl rfl) (hK h rfl rfl rfl)

theorem aside_bootDom {d : Nat} (h : K s) : K (bootDom s d) := by
  unfold bootDom
  refine either h (kept_foldl (fun t n ht => either (aside_portTo hK ht) ht) ?_ _)
  exact aside_tgtRestart hK (aside_setDom hK (aside_setDom hK h))

/-! ## Writes of registers -/

theorem aside_setLoop {n : Nat} {l : Loop} (h : K s) : K (setLoop n l s) := hK h rfl rfl rfl

theorem aside_loopStatWrite {n : Nat} {v : BitVec 32} (h : K s) : K (loopStatWrite n v s) :=
  either (aside_avsWrite hK (aside_setLoop hK h)) (aside_setLoop hK h)

theorem aside_loopWrite {n reg : Nat} {v : BitVec 32} (h : K s) : K (loopWrite n reg v s) := by
  have hset {l : Loop} := aside_setLoop hK (n := n) (l := l) h
  exact either hset (either (either hset hset) (either (either hset hset) (either h (either hset hset))))

theorem aside_writeWin {w : Win} {v : Staged} (h : K s) : K (writeWin w v s) := either (hK h rfl rfl rfl) (hK h rfl rfl rfl)

theorem aside_writePartCtl {p : Nat} {v : BitVec 32} (h : K s) : K (writePartCtl p v s) := by
  have hwin : K (setErrWin s) := hK h rfl rfl rfl
  unfold writePartCtl
  refine either ?_ (hK h rfl rfl rfl)
  exact either (hK (either hwin h) rfl rfl rfl) (either hwin h)

theorem aside_writeFar {p k : Nat} {f : FarWin} (h : K s) : K (writeFar p k f s) := either (hK h rfl rfl rfl) (hK h rfl rfl rfl)

theorem aside_writeFq {p : Nat} {en : Bool} {b : BitVec 40} {l : BitVec 4} (h : K s) : K (writeFq p en b l s) := either (hK h rfl rfl rfl) (hK h rfl rfl rfl)

theorem aside_writeFqHead {p : Nat} {v : BitVec 32} (h : K s) : K (writeFqHead p v s) := either (hK h rfl rfl rfl) (hK h rfl rfl rfl)

theorem aside_writeRoot {p : Nat} {v : BitVec 64} (h : K s) : K (writeRoot p v s) := either (hK h rfl rfl rfl) (hK h rfl rfl rfl)

theorem aside_setDrain {r : Nat} {on : Bool} (h : K s) : K (setDrain r on s) := by
  have hd : K (s.onBuf fun u => { u with drain := tset false u.drain r on }) := hK h rfl rfl rfl
  exact either hd (either (kept_foldl (fun _ _ ht => aside_setBlk hK ht) hd _) (kept_foldl (fun _ _ ht => aside_placeBlock hK ht) hd _))

theorem aside_discardHeld {n : Fin 32} (h : K s) : K (discardHeld n s) := by
  unfold discardHeld
  refine kept_foldl (fun t hh ht => ?_) h _
  exact aside_cnt hK (hK ht rfl rfl rfl)

theorem aside_writeOrdCtl {n : Fin 32} {v : BitVec 32} (h : K s) : K (writeOrdCtl n v s) := by
  have hd := aside_discardHeld hK (n := n) h
  exact either (hK h rfl rfl rfl) (either (hK hd rfl rfl rfl) (hK hd rfl rfl rfl))

theorem aside_writeOrdBase {n : Fin 32} {v : BitVec 64} (h : K s) : K (writeOrdBase n v s) := either (hK h rfl rfl rfl) (hK h rfl rfl rfl)

theorem aside_writeMcfg {hh : Half} {m : Nat} {v : BitVec 32} (h : K s) : K (writeMcfg hh m v s) := by
  unfold writeMcfg
  extract_lets c w fsum cfg
  clear_value fsum cfg
  exact either (hK h rfl rfl rfl) (hK h rfl rfl rfl)

theorem aside_writeTqCtl {q : Nat} {v : BitVec 32} (h : K s) : K (writeTqCtl q v s) :=
  either (hK h rfl rfl rfl) (either (hK h rfl rfl rfl) (hK h rfl rfl rfl))

theorem aside_writeTqBase {q : Nat} {v : BitVec 64} (h : K s) : K (writeTqBase q v s) := either (hK h rfl rfl rfl) (hK h rfl rfl rfl)

theorem aside_writeCtx {p : Nat} {b : BitVec 40} {l : BitVec 3} (h : K s) : K (writeCtx p b l s) := either (hK h rfl rfl rfl) (hK h rfl rfl rfl)

theorem aside_logHead {v : BitVec 32} (h : K s) : K (logHead v s).2 := eitherSnd (hK h rfl rfl rfl) (hK h rfl rfl rfl)

theorem aside_uartPush {c : BitVec 9} (h : K s) : K (uartPush c s) := either (hK h rfl rfl rfl) h

theorem aside_mbOutWrite {k : Nat} {x : BitVec 32} (h : K s) : K (mbOutWrite k x s) := either (hK h rfl rfl rfl) (hK h rfl rfl rfl)

theorem aside_writeCntSel {n : Nat} {v : BitVec 32} (h : K s) : K (writeCntSel n v s) := either (hK h rfl rfl rfl) (hK h rfl rfl rfl)

theorem aside_enterRecal {n : Nat} (h : K s) : K (enterRecal n s) := either (aside_cnt hK (aside_portTo hK h)) h

variable (hS : Stable K)

section
include hS

theorem aside_setPortEn {n : Nat} {en : Bool} (h : K s) : K (setPortEn n en s) := by
  have hs : K (setPort s n { port s n with en := en }) := hK h rfl rfl rfl
  exact either (either (aside_portTo hK hs) hs) (either (aside_portTo hK hs) (either (kept_portDown hS hs) hs))

theorem aside_degrade {n : Nat} {l : BitVec 5} (h : K s) : K (degrade n l s) := by
  have hs : K (setPort s n { port s n with failed := setBit (port s n).failed l.toNat true }) := hK h rfl rfl rfl
  exact either (kept_portDown hS hs) (aside_enterRecal hK (aside_putPort hK hs))

theorem aside_requestSpare {n : Nat} {l : BitVec 5} (h : K s) : K (requestSpare n l s) :=
  either h (either (aside_degrade hK hS h) (hK h rfl rfl rfl))

theorem aside_writePpt {n : Nat} {v : BitVec 32} (h : K s) : K (writePpt n v s) := by
  unfold writePpt
  extract_lets s1 s2 s3
  have h1 : K s1 := either (aside_setPortEn hK hS h) h
  have h2 : K s2 := either (aside_enterRecal hK h1) h1
  have h3 : K s3 := either (either h2 (kept_portDown hS h2)) h2
  exact either (aside_requestSpare hK hS h3) h3

/-- A write of a register that holds a value, and asks for no action. -/
theorem aside_write32 {r : Reg} {v : BitVec 32} (hr : r.writeOnly = false) (h : K s) : K (write32 r v s) := by
  cases r
  case glbEpochCmd | pwrRstCmd | pwrDomCmd | pwrUnitCmd | cchPlowCmd | bufRelease | intPrst | tstSwap | tstCalveCmd | tstPackCmd | mgtMbOutlen | cntCmd =>
    cases hr
  case loopReg n off => exact either (aside_loopStatWrite hK h) (aside_loopWrite hK h)
  case partShw => exact aside_writeWin hK h
  case partCtl => exact aside_writePartCtl hK h
  case partGtw => exact aside_writeWin hK h
  case partFwctl => exact aside_writeFar hK h
  case xltFqCtl => exact aside_writeFq hK h
  case xltFqHead => exact aside_writeFqHead hK h
  case bufRgnCtl => exact aside_setDrain hK h
  case atuOrdCtl => exact aside_writeOrdCtl hK h
  case bwrMcfg =>
    unfold write32
    exact aside_writeMcfg hK h
  case seqTqCtl => exact aside_writeTqCtl hK h
  case seqCtxCtl => exact aside_writeCtx hK h
  case pptCtl => exact aside_writePpt hK hS h
  case intLogHead => exact aside_logHead hK h
  case mgtUartData => exact aside_uartPush hK h
  case mgtMbOut => exact aside_mbOutWrite hK h
  case cntSel => exact aside_writeCntSel hK h
  all_goals exact hK h rfl rfl rfl

end

theorem aside_write64 {r : Reg} {p : Part} {v : BitVec 64} (hr : r.writeOnly = false) (h : K s) : K (write64 r p v s) := by
  cases r
  case xltInv => cases hr
  case partFwbase => exact aside_writeFar hK h
  case xltRoot => exact aside_writeRoot hK h
  case xltFqBase => exact aside_writeFq hK h
  case atuOrdBase => exact aside_writeOrdBase hK h
  case seqTqBase => exact aside_writeTqBase hK h
  case seqCtxBase => exact aside_writeCtx hK h
  all_goals exact hK h rfl rfl rfl

include hS in
theorem aside_writeWord {r : Reg} {w : Nat} {p : Part} {v : BitVec 32} (hr : r.writeOnly = false) (h : K s) : K (writeWord r w p v s) :=
  either (aside_write64 hK hr h) (aside_write32 hK hS hr h)

end

end Sys2Proof.Machine
end

section
/-! PROOFS. An image that is applied keeps the slot that the loader took first (R394): up to the registers nothing touches it, and from the
advance on a fatal reset, which starts the boot over, would leave no block for the program. -/

namespace Sys2Proof.Machine

open Sys2Proof.Safety

section
variable {K : State → Prop} (hK : Aside K) (hS : Stable K) {s : State}

/-! ## Step 9: registers and the advance -/

theorem kept_applyAll {α : Type} {f : State → α → Option State} (hf : ∀ t a u, K t → f t a = some u → K u) {l : List α} {u : State} (h : K s)
    (hu : applyAll f l s = some u) : K u := by
  induction l generalizing s with
  | nil => exact Option.some.inj hu ▸ h
  | cons a l ih =>
    rw [applyAll] at hu
    split at hu
    · cases hu
    next t ht => exact ih (hf s a t h ht) hu

section
include hK

theorem aside_rootSwitch {hh : Half} (h : K s) : K (rootSwitch hh s) := by
  unfold rootSwitch keepTlb
  refine kept_foldl (fun t i ht => aside_modThr hK ht) ?_ _
  exact hK h rfl rfl rfl

theorem aside_allocSwitch {hh : Half} (h : K s) : K (allocSwitch hh s) := by
  unfold allocSwitch
  refine kept_foldl (fun t w ht => ?_) h _
  exact either (aside_endWaiter hK ht) ht

theorem aside_staleEpoch (h : K s) : K (staleEpoch s) := by
  unfold staleEpoch
  refine kept_foldl (fun t p ht => ?_) h _
  exact either (hK ht rfl rfl rfl) (either (aside_cnt hK ht) ht)

end

include hK hS

theorem aside_loadReg {b : List Byte} {u : State} (h : K s) (hu : loadReg s b = some u) : K u := by
  unfold loadReg at hu
  extract_lets off wide v at hu
  split at hu
  · cases hu
  split at hu
  · exact Option.some.inj hu ▸ h
  split at hu
  · cases hu
  split at hu
  · cases hu
  next ws _ =>
    split at hu
    · cases hu
    next hrefused =>
      have hregs : ∀ x ∈ ws, x.reg.writeOnly = false := fun x hx => by simpa using fun hw => hrefused (List.any_eq_true.mpr ⟨x, hx, hw⟩)
      have hwritten : K (match wholeWide ws with
          | some x => write64 x.reg 0 v s
          | none => (ws.foldl (fun (a : Nat × State) x => (a.1 + 1, writeWord x.reg x.word 0 (v.extractLsb' (32 * a.1) 32) a.2)) (0, s)).2) := by
        split
        next x hx =>
          refine aside_write64 hK (hregs x ?_) h
          unfold wholeWide at hx
          split at hx
          · split at hx
            · cases hx
              exact List.mem_cons_self ..
            · cases hx
          · cases hx
        · refine List.foldlRecOn (motive := fun a : Nat × State => K a.2) ws _ h fun a ha x hx => ?_
          exact aside_writeWord hK hS (hregs x hx) ha
      extract_lets t at hu
      split at hu
      · cases hu
      · exact Option.some.inj hu ▸ hwritten

theorem aside_bootRegs {k : Slot} {root : Nat} {u : State} (h : K s) (hu : bootRegs k root s = some u) : K u := by
  unfold bootRegs at hu
  dsimp only at hu
  split at hu
  · cases hu
  · obtain ⟨t, ht, rfl⟩ := Option.map_eq_some_iff.mp hu
    exact aside_writeRoot hK (kept_applyAll (fun t a u h hu => aside_loadReg hK hS h hu) h ht)

omit hK in
theorem aside_noteStore {sa : Sa} {n v : Nat} (h : K s) : K (noteStore sa n v s).2 :=
  eitherSnd (kept_ownStore hS h) (kept_ownStore hS h)

theorem aside_epochFinish (h : K s) : K (epochFinish s) := by
  unfold epochFinish
  extract_lets s1 r
  have h1 : K s1 := hK h rfl rfl rfl
  have hr : K r.2 := aside_noteStore hS h1
  exact either h (either h1 (either (kept_settle hS hr) (hK h1 rfl rfl rfl)))

theorem aside_epochAdvance (h : K s) : K (epochAdvance s).2 := by
  unfold epochAdvance
  extract_lets r s1 s2
  refine eitherSnd (hK h rfl rfl rfl) (aside_epochFinish hK hS ?_)
  have h1 : K s1 := aside_staleEpoch hK h
  have h2 : K s2 := hK h1 rfl rfl rfl
  exact hK (aside_cnt hK h2) rfl rfl rfl

theorem aside_unitSwitch {n : Nat} (h : K s) : K (unitSwitch n s) := by
  unfold unitSwitch
  extract_lets s1
  have hroot {hh : Half} := aside_rootSwitch hK (hh := hh) h
  have halloc {hh : Half} := aside_allocSwitch hK (hh := hh) h
  have h1 : K s1 := either hroot (either hroot (either halloc (either halloc h)))
  exact either (aside_epochFinish hK hS (hK h1 rfl rfl rfl)) h

theorem aside_bootEpoch {u : State} (h : K s) (hu : bootEpoch s = some u) : K u := by
  unfold bootEpoch at hu
  extract_lets r at hu
  split at hu
  · cases hu
  · exact Option.some.inj hu ▸ kept_foldl (fun _ _ ht => aside_unitSwitch hK hS ht) (aside_epochAdvance hK hS h) _

end

/-! ## Steps 5 to 8 -/

section
variable {f : Slot} {s : State} (h : s.boot.first = f)
include h

theorem first_spareRepair {hh : Half} {t i : Nat} : (spareRepair hh t i s).boot.first = f :=
  either (K := fun u => u.boot.first = f) h (either (K := fun u => u.boot.first = f) h h)

theorem first_applyRepair {r : Repair} : (applyRepair s r).boot.first = f := by
  have onlyOne {c : Prop} [Decidable c] {a b : State} (ha : a.boot.first = f) (hb : b.boot.first = f) : (if c then a else b).boot.first = f :=
    either (K := fun u => u.boot.first = f) ha hb
  unfold applyRepair
  extract_lets t i k
  split
  · exact onlyOne (first_spareRepair h) h
  · exact onlyOne (first_spareRepair h) h
  · exact onlyOne (first_spareRepair h) h
  · exact onlyOne h h
  · exact onlyOne h h
  · exact onlyOne h h
  · exact onlyOne (onlyOne h (onlyOne h h)) h
  · exact onlyOne (onlyOne h h) (onlyOne h h)
  · exact h

theorem first_bootRepairs {k : Slot} : (bootRepairs k s).boot.first = f := by
  have hfold {α : Type} {g : State → α → State} (hg : ∀ t a, t.boot.first = f → (g t a).boot.first = f) {u : State} (hu : u.boot.first = f)
      (l : List α) : (l.foldl g u).boot.first = f := kept_foldl (K := fun u => u.boot.first = f) hg hu l
  unfold bootRepairs
  extract_lets s1 s2 s3 rs n
  have h1 : s1.boot.first = f := h
  have h2 : s2.boot.first = f := hfold (fun _ _ ht => first_applyRepair ht) h1 _
  clear_value s2
  have h3 : s3.boot.first = f := either (K := fun u => u.boot.first = f) h2 h2
  refine hfold (fun _ _ ht => first_applyRepair ht) ?_ _
  exact h3

theorem first_bootIdentity {k : Slot} : (bootIdentity k s).boot.first = f := by
  unfold bootIdentity
  extract_lets hd ovr s1 s2 s3
  have h3 : s3.boot.first = f := h
  exact either (K := fun u => u.boot.first = f) h3 (first_bootRepairs h3)

theorem first_restoreRegion {e : Nat × BitVec 2} : (restoreRegion s e).boot.first = f := by
  unfold restoreRegion
  extract_lets s1 old s2
  have h2 : s2.boot.first = f := h
  exact either (K := fun u => u.boot.first = f) (aside_openRegion (aside_first f) h2) h2

theorem first_warmSweep : (warmSweep s).boot.first = f := by
  have hfold {α : Type} {g : State → α → State} (hg : ∀ t a, t.boot.first = f → (g t a).boot.first = f) {u : State} (hu : u.boot.first = f)
      (l : List α) : (l.foldl g u).boot.first = f := kept_foldl (K := fun u => u.boot.first = f) hg hu l
  unfold warmSweep
  extract_lets s1
  have h1 : s1.boot.first = f := by
    refine hfold (fun t k ht => ?_) h _
    split
    · exact ht
    next rs _ =>
      refine hfold (fun t e ht => first_restoreRegion ht) ?_ _
      exact ht
  refine hfold (fun t e ht => ?_) h1 _
  exact either (K := fun u => u.boot.first = f) ht ht

theorem first_loadGroups {g : List Byte} : (loadGroups g s).boot.first = f := by
  have hfold {g : State → Nat → State} (hg : ∀ t a, t.boot.first = f → (g t a).boot.first = f) {u : State} (hu : u.boot.first = f)
      (l : List Nat) : (l.foldl g u).boot.first = f := kept_foldl (K := fun u => u.boot.first = f) hg hu l
  unfold loadGroups
  generalize List.range 16384 = l
  generalize List.range 12288 = m
  refine hfold (fun t i ht => ?_) (hfold (fun t i ht => ?_) h l) m
  · exact ht
  · exact ht

theorem first_bootRegions {k : Slot} {u : State} (hu : bootRegions k s = some u) : u.boot.first = f := by
  have hfold {α : Type} {g : State → α → State} (hg : ∀ t a, t.boot.first = f → (g t a).boot.first = f) {u : State} (hu : u.boot.first = f)
      (l : List α) : (l.foldl g u).boot.first = f := kept_foldl (K := fun u => u.boot.first = f) hg hu l
  unfold bootRegions at hu
  extract_lets rs g live s1 s2 at hu
  have h1 : s1.boot.first = f := by
    refine hfold (fun t e ht => ?_) h _
    exact ht
  have hs2 : s2 = loadGroups g s1 := rfl
  have h2 : s2.boot.first = f := by
    rw [hs2]
    exact first_loadGroups h1
  clear_value s2
  split at hu
  · cases hu
  split at hu
  · exact Option.some.inj hu ▸ hfold (fun _ _ ht => first_restoreRegion ht) h2 _
  · cases hu

theorem first_bootLoops {k : Slot} {u : State} (hu : bootLoops k s = some u) : u.boot.first = f := by
  unfold bootLoops at hu
  extract_lets b at hu
  split at hu
  · exact Option.some.inj hu ▸ h
  split at hu
  · cases hu
  refine kept_applyAll (K := fun u => u.boot.first = f) (fun t e u ht hu => ?_) h hu
  unfold loadLoop at hu
  extract_lets n lo hi v hold old l s1 at hu
  have h1 : s1.boot.first = f := ht
  clear_value s1
  split at hu
  · cases hu
  split at hu
  · exact Option.some.inj hu ▸ aside_avsWrite (aside_first f) h1
  · exact Option.some.inj hu ▸ h1

end

/-! ## Step 11 -/

/-- Without a region no block is there for the program. -/
theorem claimBlock_none {s : State} (h : s.tables.region = []) (b : Nat) : claimBlock s b = none := by
  have hzero : region s (b / 1024) = Region.zero := by rw [region, h]; rfl
  unfold claimBlock
  rw [hzero]
  exact if_pos (by decide)

theorem first_claimBlock {f : Slot} {s u : State} {b : Nat} (h : s.boot.first = f) (hu : claimBlock s b = some u) : u.boot.first = f := by
  unfold claimBlock at hu
  extract_lets x at hu
  split at hu
  · cases hu
  split at hu
  · exact Option.some.inj hu ▸ h
  split at hu
  · exact Option.some.inj hu ▸ h
  · cases hu

theorem first_storeLine {f : Slot} {s : State} (h : s.boot.first = f) {key : Nat} {line : Sa} {d : BitVec 1024} {m : Meta} :
    (storeLine key line d m s).boot.first = f := by
  have onlyOne {c : Prop} [Decidable c] {a b : State} (ha : a.boot.first = f) (hb : b.boot.first = f) : (if c then a else b).boot.first = f :=
    either (K := fun u => u.boot.first = f) ha hb
  have hafter {u : State} (hu : u.boot.first = f) : (afterStore key line u).boot.first = f := onlyOne (onlyOne hu (onlyOne hu hu)) hu
  have hput : (setMeta (setData s key d) key (withCrc m d line)).boot.first = f := h
  unfold storeLine
  rw [countOps_only]
  exact hafter hput

theorem first_copyProgram {f : Slot} {s : State} (h : s.boot.first = f) {dest : Nat} {bs : List Byte} :
    (copyProgram dest bs s).boot.first = f := by
  unfold copyProgram
  generalize (bs.length + 127) / 128 = n
  refine kept_foldl (K := fun u => u.boot.first = f) (fun t i ht => ?_) h _
  dsimp only
  generalize bufKey (BitVec.ofNat 52 (dest + 128 * i)) = key
  exact first_storeLine ht

theorem programHead_size {s : State} {k : Slot} {dest entry root size : Nat} (h : programHead s k = some (dest, entry, root, size)) : 0 < size := by
  unfold programHead at h
  extract_lets b d e r z at h
  split at h
  next hc =>
    obtain ⟨-, -, -, -, -, -, -, -, -, -, -, -, hle, hlt⟩ := hc
    obtain ⟨rfl, rfl, rfl, rfl⟩ : d = dest ∧ e = entry ∧ r = root ∧ z = size := by simpa using h
    omega
  · cases h

/-- The program's bytes are copied into blocks that are partition 0's, so that the slot taken first is known. -/
theorem applyImage_first {k : Slot} {s u : State} (h : applyImage k s = some u) : u.boot.first = s.boot.first := by
  unfold applyImage at h
  split at h
  · cases h
  extract_lets s1 s2 s3 at h
  have hdoms {K : State → Prop} (hK : Aside K) {v : State} (hv : K v) (l : List Nat) : K (l.foldl bootDom v) :=
    kept_foldl (fun _ _ ht => aside_bootDom hK ht) hv l
  have haside : Aside fun u => u.boot.first = s.boot.first := aside_first _
  have h1 : s1.boot.first = s.boot.first := first_bootIdentity (s := s) (k := k) rfl
  clear_value s1
  have h2 : s2.boot.first = s.boot.first := aside_avsWrite haside (aside_avsWrite haside h1)
  clear_value s2
  have hs3 : s3 = [10, 11, 12, 13, 14, 15, 5, 6, 3, 4].foldl bootDom s2 := rfl
  have h3 : s3.boot.first = s.boot.first := by
    rw [hs3]
    exact hdoms haside h2 _
  clear_value s3
  have h4 {v : State} (hv : (if s3.boot.warmBoot then some (warmSweep s3) else bootRegions k s3) = some v) : v.boot.first = s.boot.first := by
    split at hv
    · exact Option.some.inj hv ▸ first_warmSweep h3
    · exact first_bootRegions h3 hv
  split at h
  · cases h
  next s4 hs4 =>
  split at h
  next s5 dest entry root size hs5 hhead =>
    have h5 : Loading s.boot.first s5 := .inl (first_bootLoops (h4 hs4) hs5)
    split at h
    · cases h
    next s6 hs6 =>
    split at h
    · cases h
    next s7 hs7 =>
    extract_lets s8 at h
    have hL : Aside (Loading s.boot.first) := aside_loading _
    have hS := stable_loading s.boot.first
    have h8 : Loading s.boot.first s8 := hdoms hL (aside_bootEpoch hL hS (aside_bootRegs hL hS h5 hs6) hs7) _
    clear_value s8
    split at h
    · cases h
    next s9 hs9 =>
      have h9 : s9.boot.first = s.boot.first := by
        obtain hfirst | hregion := h8
        · exact kept_applyAll (K := fun u => u.boot.first = s.boot.first) (fun _ _ _ ht hu => first_claimBlock ht hu) hfirst hs9
        · have hsize := programHead_size hhead
          obtain ⟨n, hn⟩ : ∃ n, (size + 65535) / 65536 = n + 1 := ⟨(size - 1) / 65536, by omega⟩
          rw [hn, List.range_succ_eq_map, List.map_cons, applyAll, claimBlock_none hregion] at hs9
          cases hs9
      rw [← Option.some.inj h]
      have hcopied := first_copyProgram h9 (dest := dest) (bs := (sectBytes s9 k 7).drop 32)
      generalize copyProgram dest ((sectBytes s9 k 7).drop 32) s9 = v at hcopied
      exact hcopied
  · cases h

end Sys2Proof.Machine
end

section
/-! PROOFS. The boot loader and the supervisor (R387 to R397). -/

namespace Sys2Proof.Machine

open Sys2Proof.Safety

/-! ## What is read of the flash -/

theorem flashBytes_congr {s u : State} (h : u.boot.flash = s.boot.flash) (a n : Nat) : flashBytes u a n = flashBytes s a n := by
  simp only [flashBytes, flashByte, h]

theorem headCode_congr {s u : State} (h : u.boot.flash = s.boot.flash) (k : Slot) : headCode u k = headCode s k := by
  have htable : sectTable u k = sectTable s k := by
    unfold sectTable sectAt
    simp only [flashBytes_congr h, flashByte, h]
  unfold headCode
  rw [flashBytes_congr h, htable]

theorem slotSeq_congr {s u : State} (h : u.boot.flash = s.boot.flash) (k : Slot) : slotSeq u k = slotSeq s k := by
  unfold slotSeq
  rw [flashBytes_congr h]

/-- The codes of a header that fails (R392). -/
theorem headCode_le (s : State) (k : Slot) : headCode s k ≤ 4 := by
  unfold headCode
  dsimp only
  split_ifs <;> decide

/-- The codes of a body that fails (R392). -/
theorem bodyCode_le (s : State) (k : Slot) : bodyCode s k ≤ 7 := by
  unfold bodyCode
  dsimp only
  split_ifs <;> decide

/-! ## Steps 2 and 3 -/

/-- Where the loader goes after the wait for the PLL, as the straps and the resets in a row say (R387, R397). -/
theorem bootGo_cases {s : State} (hphase : s.boot.phase = .waitPll) :
    (bootGo s).boot.slowclk = s.boot.slowclk ∧
      (bootGo s).boot.phase = (if s.glb.bootSel = 3 then .strapError else if s.glb.bootSel = 2 ∨ s.pwr.fcnt = 3 then .recovery else .discover) ∧
      (s.glb.bootSel = 3 → ∃ line, (bootGo s).mgt.bootLines = line :: s.mgt.bootLines) := by
  unfold bootGo
  rw [if_pos hphase]
  split
  · exact ⟨rfl, rfl, fun _ => ⟨_, rfl⟩⟩
  next h3 =>
    split
    · exact ⟨rfl, rfl, fun h => absurd h h3⟩
    · exact ⟨rfl, rfl, fun h => absurd h h3⟩

/-- A boot without a lock goes on from the crystal (R387). -/
theorem pllWait_goes {s : State} (hphase : s.boot.phase = .waitPll) (hdue : due s s.boot.since 1000000 = true) :
    completesWith .pllWaitTimeout s fun u => u.boot.slowclk = true ∧
      u.boot.phase = (if s.glb.bootSel = 3 then .strapError else if s.glb.bootSel = 2 ∨ s.pwr.fcnt = 3 then .recovery else .discover) ∧
      (s.glb.bootSel = 3 → ∃ line, u.mgt.bootLines = line :: s.mgt.bootLines) := by
  have he : exec .pllWaitTimeout s = execPllWaitTimeout s := rfl
  rw [execPllWaitTimeout, if_pos ⟨hphase, hdue⟩] at he
  exact completesWith_answer he (bootGo_cases (s := s.onBoot fun b => { b with slowclk := true }) hphase)

/-- A flash that does not answer, or is too small, ends in console recovery (R388). -/
theorem discovery_fails {s : State} {f : Sfdp} (hphase : s.boot.phase = .discover)
    (h : f.present = false ∨ (f.valid = true ∧ f.tooSmall = true)) :
    completesWith (.flashDiscovery f) s fun u =>
      u.boot.phase = .recovery ∧ u.boot.recovery = true ∧ u.boot.errA = 9 ∧ u.boot.errB = 9 ∧ u.boot.sfdp = false := by
  have he : exec (.flashDiscovery f) s = execFlashDiscovery f s := rfl
  have hfails : (!f.present) = true ∨ (f.valid = true ∧ f.tooSmall = true) := h.imp_left fun hp => by rw [hp]; rfl
  rw [execFlashDiscovery, if_pos hphase] at he
  dsimp only at he
  rw [discoverFlash, if_pos hfails] at he
  exact completesWith_answer he ⟨rfl, rfl, rfl, rfl, rfl⟩

/-- The state in which the loader orders the slots. -/
def discovered (f : Sfdp) (s : State) : State :=
  s.onBoot fun b =>
    { b with leftA := false, leftB := false, errA := 0, errB := 0, sfdp := f.valid,
             spimode := if s.boot.slowclk || !f.valid then 0 else if f.has144 && (f.qer0 || f.qeSet) then 2 else 1,
             eraseLog2 := if f.valid then f.eraseLog2 else 12, pageLog2 := if f.valid then f.pageLog2.getD 8 else 8 }

/-- A flash that answers sets the read mode, and the slots are ordered (R388, R393). -/
theorem discovery_orders {s : State} {f : Sfdp} (hphase : s.boot.phase = .discover) (hp : f.present = true)
    (h : ¬ (f.valid = true ∧ f.tooSmall = true)) : exec (.flashDiscovery f) s = answer s (slotOrder (discovered f s)) := by
  have he : exec (.flashDiscovery f) s = execFlashDiscovery f s := rfl
  have hfound : ¬ ((!f.present) = true ∨ (f.valid = true ∧ f.tooSmall = true)) := by
    rw [hp]
    exact not_or.mpr ⟨by decide, h⟩
  rw [he, execFlashDiscovery, if_pos hphase]
  dsimp only
  rw [discoverFlash, if_neg hfound]
  rfl

/-- The read mode that a flash allows (R388). -/
theorem discovered_mode (f : Sfdp) (s : State) : (discovered f s).boot.spimode =
    (if s.boot.slowclk ∨ f.valid = false then 0 else if f.has144 ∧ (f.qer0 ∨ f.qeSet) then 2 else 1) := by
  show (if s.boot.slowclk || !f.valid then (0 : BitVec 2) else if f.has144 && (f.qer0 || f.qeSet) then 2 else 1) = _
  cases s.boot.slowclk <;> cases f.valid <;> cases f.has144 <;> cases f.qer0 <;> cases f.qeSet <;> rfl

theorem slotOrder_strap {s : State} (h : s.glb.bootSel = 1) : slotOrder s = s.onBoot fun b => { b with first := .b, phase := .reading .b } := by
  unfold slotOrder
  rw [if_pos h]

theorem slotOrder_seq {s : State} (h : s.glb.bootSel ≠ 1) (ha : headCode s .a = 0) (hb : headCode s .b = 0) :
    slotOrder s = if slotSeq s .a < slotSeq s .b then s.onBoot fun b => { b with first := .b, phase := .reading .b }
      else s.onBoot fun b => { b with first := .a, phase := .reading .a } := by
  unfold slotOrder
  rw [if_neg h]
  extract_lets ca cb s1 s2
  have h1 : s1 = s := if_pos ha
  have h2 : s2 = s := (if_pos hb).trans h1
  clear_value s2
  have hca : ca = 0 := ha
  have hcb : cb = 0 := hb
  clear_value ca cb
  subst h2
  rw [if_neg fun hno => hno.1 hca, if_neg (not_not.mpr hca), if_neg (not_not.mpr hcb)]

/-! ## Step 4 -/

/-- A slot is left for the other one. -/
theorem nextSlot_other {k : Slot} {c : Nat} {s : State} (h : slotLeft s (otherSlot k) = false) :
    nextSlot k (leaveSlot k c s) = (leaveSlot k c s).onBoot fun b => { b with phase := .reading (otherSlot k) } := by
  unfold nextSlot
  have hleft : slotLeft (leaveSlot k c s) (otherSlot k) = slotLeft s (otherSlot k) := by cases k <;> rfl
  rw [hleft, h, if_neg (by decide)]

/-- The last slot is left for console recovery. -/
theorem nextSlot_last {k : Slot} {c : Nat} {s : State} (h : slotLeft s (otherSlot k) = true) :
    nextSlot k (leaveSlot k c s) = enterRecovery (leaveSlot k c s) := by
  unfold nextSlot
  have hleft : slotLeft (leaveSlot k c s) (otherSlot k) = slotLeft s (otherSlot k) := by cases k <;> rfl
  rw [hleft, h, if_pos rfl]

/-- The code with which a slot has been left. -/
def slotErr (k : Slot) (b : Boot) : BitVec 4 :=
  match k with
  | .a => b.errA
  | .b => b.errB

theorem slotErr_leaveSlot (k : Slot) (c : Nat) (s : State) : slotErr k (leaveSlot k c s).boot = BitVec.ofNat 4 c := by cases k <;> rfl

theorem domSt_enterRecovery (s : State) {d : Nat} (h1 : 1 ≤ d) (h2 : d < 16) : domSt (enterRecovery s) d = 0 := by
  have hpwr : (enterRecovery s).pwr = (allOff s).pwr := rfl
  have h := domSt_allOff s h1 h2
  rw [domSt, hpwr]
  exact h

/-- The code of a slot that has been read and checked (R392); 0 when it passes. -/
def readCode (s : State) (k : Slot) : Nat := if headCode s k ≠ 0 then headCode s k else bodyCode s k

/-- A slot that passes is applied. -/
theorem imageRead_passes {s : State} {k : Slot} (hphase : s.boot.phase = .reading k) (h : readCode s k = 0) :
    exec (.imageReadDone k) s = answer s (s.onBoot fun b => { b with phase := .apply k }) := by
  have he : exec (.imageReadDone k) s = execImageReadDone k s := rfl
  rw [he, execImageReadDone, if_pos hphase]
  exact congrArg (answer s) (if_pos h)

/-- A slot that fails is left with its code (R393). -/
theorem imageRead_fails {s : State} {k : Slot} (hphase : s.boot.phase = .reading k) (h : readCode s k ≠ 0) :
    exec (.imageReadDone k) s = answer s (nextSlot k (leaveSlot k (readCode s k) s)) := by
  have he : exec (.imageReadDone k) s = execImageReadDone k s := rfl
  rw [he, execImageReadDone, if_pos hphase]
  exact congrArg (answer s) (if_neg h)

theorem readCode_lt (s : State) (k : Slot) : readCode s k < 2 ^ 4 := by
  unfold readCode
  have h1 := headCode_le s k
  have h2 := bodyCode_le s k
  generalize headCode s k = a at h1 ⊢
  generalize bodyCode s k = b at h2 ⊢
  split <;> omega

/-! ## Steps 5 to 11 -/

theorem ofBytes_lt (bs : List Byte) : ofBytes bs < 256 ^ bs.length := by
  induction bs with
  | nil => exact Nat.one_pos
  | cons b bs ih =>
    have hb := b.isLt
    rw [ofBytes, List.length_cons, Nat.pow_succ]
    omega

theorem leAt_lt (bs : List Byte) (o n : Nat) : leAt bs o n < 256 ^ n :=
  (ofBytes_lt _).trans_le (Nat.pow_le_pow_right (by decide) (List.length_take_le ..))

/-- An image that passes is applied (R394). -/
theorem bootApply_ready {s t : State} {k : Slot} (hphase : s.boot.phase = .apply k) (ht : applyImage k s = some t) (hcalm : calm t = true) :
    completesWith .bootApply s fun u => u.boot.phase = .ready ∧ u.boot.slot = (if k = .a then 0 else 1) ∧
      u.boot.fallback = decide (k ≠ s.boot.first) ∧ u.boot.signed = (flashByte s (slotBase k + 9)).getLsbD 0 ∧
      u.boot.seq.toNat = slotSeq s k ∧ sameBytes t u ∧ changesOnly [.boot] t u := by
  have he : exec .bootApply s = execBootApply s := rfl
  have hseq : slotSeq s k < 2 ^ 32 := leAt_lt _ 0 4
  rw [execBootApply, hphase] at he
  dsimp only at he
  rw [ht] at he
  dsimp only at he
  rw [settle_calm (s := t.onBoot _) hcalm] at he
  refine completesWith_answer he ⟨rfl, ?_, ?_, rfl, ?_, ?_, ?_⟩
  · cases k <;> rfl
  · rw [← applyImage_first ht]
    rfl
  · exact (BitVec.toNat_ofNat ..).trans (Nat.mod_eq_of_lt hseq)
  · exact sameBytes_answered.mpr fun _ => rfl
  · exact changesOnly_answered.mpr (by simp)

/-- An image that fails with CONTENT leaves the slice as a reset does, and its slot with code 8 (R394). -/
theorem bootApply_fails {s : State} {k : Slot} (hphase : s.boot.phase = .apply k) (ht : applyImage k s = none) :
    completesWith .bootApply s fun u => (u.boot.errA = 8 ∨ u.boot.errB = 8) ∧ u.boot.phase ≠ .ready ∧
      u.cache.data = [] ∧ u.boot.flash = s.boot.flash ∧ ∀ d, 1 ≤ d → d < 16 → domSt u d = 0 := by
  have he : exec .bootApply s = execBootApply s := rfl
  rw [execBootApply, hphase] at he
  dsimp only at he
  rw [ht] at he
  dsimp only at he
  obtain ⟨-, hflash, hdata, hdom⟩ := contentFail_spec s
  generalize contentFail s = v at he hflash hdata hdom
  have herr : (leaveSlot k 8 v).boot.errA = 8 ∨ (leaveSlot k 8 v).boot.errB = 8 := by
    cases k
    · exact .inl rfl
    · exact .inr rfl
  have hleft : (leaveSlot k 8 v).cache = v.cache ∧ (leaveSlot k 8 v).pwr = v.pwr ∧ (leaveSlot k 8 v).boot.flash = v.boot.flash := by
    cases k <;> exact ⟨rfl, rfl, rfl⟩
  obtain ⟨hcache, hpwr, hfl⟩ := hleft
  cases hother : slotLeft v (otherSlot k) with
  | false =>
    rw [nextSlot_other hother] at he
    generalize leaveSlot k 8 v = w at he herr hcache hpwr hfl
    refine completesWith_answer he ⟨herr, BootPhase.noConfusion, ?_, hfl.trans hflash, fun d h1 h2 => ?_⟩
    · rw [← hdata, ← hcache]
      rfl
    · rw [← hdom d h1 h2, domSt, domSt, ← hpwr]
      rfl
  | true =>
    rw [nextSlot_last hother] at he
    generalize leaveSlot k 8 v = w at he herr hcache hpwr hfl
    refine completesWith_answer he ⟨herr, BootPhase.noConfusion, ?_, hfl.trans hflash, fun d h1 h2 => ?_⟩
    · rw [← hdata, ← hcache]
      rfl
    · exact domSt_enterRecovery w h1 h2

/-! ## The supervisor -/

theorem findSome_range_first {α : Type} {g : Nat → Option α} {n l : Nat} {b : α} (hl : l < n) (hg : g l = some b) (hmin : ∀ j < l, g j = none) :
    (List.range n).findSome? g = some b := by
  refine List.findSome?_eq_some_iff.mpr ⟨List.range l, l, (List.range (n - l - 1)).map (l + 1 + ·), ?_, hg, fun j hj => hmin j (List.mem_range.mp hj)⟩
  have hn : n = l + 1 + (n - l - 1) := by omega
  conv_lhs => rw [hn, List.range_add, List.range_succ]
  rw [List.append_assoc]
  rfl

/-- The core in service with the lowest logical number of a half, none with a lower number having a lower place. -/
theorem lowest_core {s : State} {h : Half} {k l : Nat} (hk : k < 9) (hl : l < 8) (hat : logicalCore s (9 * h.idx + k) = some l)
    (hmin : ∀ c, c < 9 → ∀ m ∈ logicalCore s (9 * h.idx + c), l ≤ m ∧ (m = l → k ≤ c)) :
    ((List.range 8).findSome? fun l => (List.range 9).find? fun c => logicalCore s (9 * h.idx + c) == some l) = some k := by
  refine findSome_range_first hl ?_ fun j hj => ?_
  · refine List.find?_range_eq_some.mpr ⟨by rw [hat]; exact beq_self_eq_true _, List.mem_range.mpr hk, fun c hc => ?_⟩
    rw [Bool.not_eq_true']
    exact beq_false_of_ne fun he => absurd ((hmin c (by omega) l he).2 rfl) (by omega)
  · refine List.find?_eq_none.mpr fun c hc he => ?_
    have := (hmin c (List.mem_range.mp hc) j (eq_of_beq he)).1
    omega

/-- No core of a half is in service. -/
theorem no_core {s : State} {h : Half} (hno : ∀ c, c < 9 → logicalCore s (9 * h.idx + c) = none) :
    ((List.range 8).findSome? fun l => (List.range 9).find? fun c => logicalCore s (9 * h.idx + c) == some l) = none := by
  refine List.findSome?_eq_none_iff.mpr fun l _ => List.find?_eq_none.mpr fun c hc he => ?_
  rw [hno c (List.mem_range.mp hc)] at he
  cases he

/-- The thread that the supervisor starts on (R396). -/
theorem supervisorThread_eq {s : State} {h : Half} {k l : Nat} (hk : k < 9) (hl : l < 8) (hat : logicalCore s (9 * h.idx + k) = some l)
    (hmin : ∀ c, c < 9 → ∀ m ∈ logicalCore s (9 * h.idx + c), l ≤ m ∧ (m = l → k ≤ c))
    (hw : h = .w → ∀ c, c < 9 → logicalCore s c = none) : supervisorThread s = some (4 * (9 * h.idx + k)) := by
  have hthis := lowest_core hk hl hat hmin
  unfold supervisorThread
  dsimp only
  cases h with
  | e =>
    rw [hthis]
    exact congrArg some (show 36 * Half.e.idx + 4 * k = 4 * (9 * Half.e.idx + k) by omega)
  | w =>
    rw [no_core (h := .e) fun c hc => by rw [show 9 * Half.e.idx + c = c from Nat.zero_add c]; exact hw rfl c hc, hthis]
    exact congrArg some (show 36 * Half.w.idx + 4 * k = 4 * (9 * Half.w.idx + k) by omega)

theorem gReg_supervisorTask (s : State) (r : Nat) : gReg (supervisorTask s) r =
    if r = 1 then (bootStat s).setWidth 64 else if r = 2 then s.boot.dest.setWidth 64 else if r = 3 then s.glb.sid.setWidth 64 else 0 := by
  have hother {r : Nat} (h1 : r ≠ 1) (h2 : r ≠ 2) (h3 : r ≠ 3) : tget 0 (supervisorTask s).g r = 0 := by
    show tget 0 (tset 0 (tset 0 (tset 0 [] 1 _) 2 _) 3 _) r = 0
    rw [tget_tset_ne _ _ _ h3, tget_tset_ne _ _ _ h2, tget_tset_ne _ _ _ h1]
    rfl
  unfold gReg
  by_cases h0 : r = 0
  · subst h0
    rfl
  rw [if_neg h0]
  by_cases h1 : r = 1
  · subst h1
    show tget 0 (tset 0 (tset 0 (tset 0 [] 1 _) 2 _) 3 _) 1 = _
    rw [tget_tset_ne _ _ _ (by decide), tget_tset_ne _ _ _ (by decide), tget_tset_self, if_pos rfl]
  by_cases h2 : r = 2
  · subst h2
    show tget 0 (tset 0 (tset 0 (tset 0 [] 1 _) 2 _) 3 _) 2 = _
    rw [tget_tset_ne _ _ _ (by decide), tget_tset_self, if_neg (by decide), if_pos rfl]
  by_cases h3 : r = 3
  · subst h3
    show tget 0 (tset 0 (tset 0 (tset 0 [] 1 _) 2 _) 3 _) 3 = _
    rw [tget_tset_self, if_neg (by decide), if_neg (by decide), if_pos rfl]
  rw [hother h1 h2 h3, if_neg h1, if_neg h2, if_neg h3]

/-- What BOOT_STAT reports does not depend on the loader's phase and on the start of the supervisor. -/
theorem bootStat_congr {s u : State} {p : BootPhase} {x : BitVec 64} (h : u.boot = { s.boot with phase := p, start := x }) :
    bootStat u = bootStat s := by
  unfold bootStat
  rw [h]

/-- The supervisor starts in partition 0 with its arguments (R396, R408). -/
theorem supervisor_starts {s : State} {t : Nat} (hphase : s.boot.phase = .ready) (hthread : supervisorThread s = some t)
    (hpath : datapathLeft s = true) :
    completesWith .supervisorStart s fun u =>
      (thr u t).phase = .running ∧ (thr u t).pc = s.boot.entry.setWidth 48 ∧ (thr u t).prio = 3 ∧ (thr u t).part = 0 ∧
      (∀ r, gReg (thr u t) r = if r = 1 then (bootStat s).setWidth 64 else if r = 2 then s.boot.dest.setWidth 64
        else if r = 3 then s.glb.sid.setWidth 64 else 0) ∧
      (∀ j, j ≠ t → thr u j = thr s j) ∧ u.boot.phase = .started ∧ u.boot.start = s.clk.time ∧
      u.mgt.bootLines = (false, bootStat s, s.boot.seq) :: s.mgt.bootLines ∧ changesOnly [.seq, .boot, .mgt, .pwr] s u := by
  have he : exec .supervisorStart s = execSupervisorStart s := rfl
  let v := s.onBoot fun b => { b with phase := .started }
  have hv : (if datapathLeft v then supervisorThread v else none) = some t := (if_pos hpath).trans hthread
  have hstart : exec .supervisorStart s =
      answer s (genBump s (bootLine false ((setThr v t (supervisorTask v)).onBoot fun b => { b with start := v.clk.time }))) := by
    rw [he, execSupervisorStart, if_pos hphase]
    dsimp only
    rw [show (if datapathLeft (s.onBoot fun b => { b with phase := .started }) = true then
      supervisorThread (s.onBoot fun b => { b with phase := .started }) else none) = some t from hv]
  have htask : (supervisorTask v).phase = .running ∧ (supervisorTask v).pc = s.boot.entry.setWidth 48 ∧ (supervisorTask v).prio = 3 ∧
      (supervisorTask v).part = 0 := ⟨rfl, rfl, rfl, rfl⟩
  have hregs (r : Nat) : gReg (supervisorTask v) r = if r = 1 then (bootStat s).setWidth 64 else if r = 2 then s.boot.dest.setWidth 64
      else if r = 3 then s.glb.sid.setWidth 64 else 0 := by
    rw [← show bootStat v = bootStat s from bootStat_congr (x := s.boot.start) rfl]
    exact gReg_supervisorTask v r
  generalize supervisorTask v = task at hstart htask hregs
  obtain ⟨hph, hpc, hprio, hpart⟩ := htask
  obtain ⟨g, hg⟩ := genBump_eq s (bootLine false ((setThr v t task).onBoot fun b => { b with start := v.clk.time }))
  rw [hg] at hstart
  have hself : thr (setThr v t task) t = task := thr_setThr_self ..
  have hother (j : Nat) (hj : j ≠ t) : thr (setThr v t task) j = thr s j := thr_setThr_ne v _ hj
  generalize hu : (bootLine false ((setThr v t task).onBoot fun b => { b with start := v.clk.time })).onPwr (fun p => { p with unitGen := g }) = u
    at hstart
  have hthr (j : Nat) : thr u j = thr (setThr v t task) j := thr_congr (by rw [← hu]; rfl) j
  have hrest : u.boot.phase = .started ∧ u.boot.start = s.clk.time ∧ u.mgt.bootLines = (false, bootStat s, s.boot.seq) :: s.mgt.bootLines ∧
      changesOnly [.seq, .boot, .mgt, .pwr] s u := by
    rw [← hu]
    refine ⟨rfl, rfl, ?_, ?_⟩
    · have hstat : bootStat ((setThr v t task).onBoot fun b => { b with start := v.clk.time }) = bootStat s := bootStat_congr rfl
      show (false, bootStat ((setThr v t task).onBoot fun b => { b with start := v.clk.time }), s.boot.seq) :: s.mgt.bootLines = _
      rw [hstat]
    · simp [bootLine, v, setThr]
  obtain ⟨hstarted, hsince, hlines, hframe⟩ := hrest
  refine completesWith_answer hstart ⟨?_, ?_, ?_, ?_, fun r => ?_, fun j hj => ?_, hstarted, hsince, hlines, changesOnly_answered.mpr hframe⟩
  · rw [thr_answered, hthr, hself, hph]
  · rw [thr_answered, hthr, hself, hpc]
  · rw [thr_answered, hthr, hself, hprio]
  · rw [thr_answered, hthr, hself, hpart]
  · rw [thr_answered, hthr, hself, hregs]
  · rw [thr_answered, hthr, hother j hj]

/-- Settles O53: each step of the loader by the branch it takes; of an applied image, the slot that was taken first. -/
theorem bootSteps : Obligations.BootSteps := by
  unfold Obligations.BootSteps
  refine ⟨fun s => ⟨fun hphase hdue => pllWait_goes hphase hdue, fun f hphase => ⟨discovery_fails hphase, fun hp hno => ?_⟩,
    fun k hphase => ?_, fun k hphase => ⟨fun t ht hcalm => bootApply_ready hphase ht hcalm, bootApply_fails hphase⟩⟩,
    fun s h k l hphase hk hl hat hmin hw hpath => ?_⟩
  · have he := discovery_orders hphase hp hno
    have hmode := discovered_mode f s
    intro read
    refine ⟨fun hboot => ?_, fun hboot ha hb => ?_⟩
    · rw [slotOrder_strap (s := discovered f s) hboot] at he
      exact completesWith_answer he ⟨⟨rfl, rfl, rfl, hmode⟩, rfl, changesOnly_answered.mpr (by simp [discovered])⟩
    · have hflash : (discovered f s).boot.flash = s.boot.flash := rfl
      rw [slotOrder_seq (s := discovered f s) hboot ((headCode_congr hflash _).trans ha) ((headCode_congr hflash _).trans hb),
        slotSeq_congr hflash, slotSeq_congr hflash] at he
      split at he
      next hlt =>
        rw [if_pos hlt]
        exact completesWith_answer he ⟨⟨rfl, rfl, rfl, hmode⟩, rfl, changesOnly_answered.mpr (by simp [discovered])⟩
      next hge =>
        rw [if_neg hge]
        exact completesWith_answer he ⟨⟨rfl, rfl, rfl, hmode⟩, rfl, changesOnly_answered.mpr (by simp [discovered])⟩
  · intro code other err otherLeft
    have hcode : code = readCode s k := rfl
    have hlt := readCode_lt s k
    clear_value code
    subst hcode
    have herr (b : Boot) : err b = slotErr k b := by cases k <;> rfl
    have hother : other = otherSlot k ∧ otherLeft = slotLeft s (otherSlot k) := by cases k <;> exact ⟨rfl, rfl⟩
    obtain ⟨hslot, hleft⟩ := hother
    have hone : slotErr k (leaveSlot k (readCode s k) s).boot = BitVec.ofNat 4 (readCode s k) := slotErr_leaveSlot ..
    have hframe : changesOnly [.boot] s (leaveSlot k (readCode s k) s) := by cases k <;> simp [leaveSlot]
    refine ⟨fun h0 => ?_, fun hne hno => ?_, fun hne hyes => ?_⟩
    · exact completesWith_answer (imageRead_passes hphase h0) ⟨rfl, changesOnly_answered.mpr (by simp)⟩
    · have he := imageRead_fails hphase hne
      rw [nextSlot_other (hleft ▸ hno)] at he
      generalize leaveSlot k (readCode s k) s = v at he hone hframe
      refine completesWith_answer he ⟨congrArg BootPhase.reading hslot.symm, ?_, changesOnly_answered.mpr (by simpa using hframe)⟩
      rw [herr, show (answered s (v.onBoot fun b => { b with phase := .reading (otherSlot k) })).boot = { v.boot with phase := .reading (otherSlot k) }
          from rfl,
        show slotErr k { v.boot with phase := .reading (otherSlot k) } = slotErr k v.boot by cases k <;> rfl, hone, BitVec.toNat_ofNat,
        Nat.mod_eq_of_lt hlt]
    · have he := imageRead_fails hphase hne
      rw [nextSlot_last (hleft ▸ hyes)] at he
      generalize leaveSlot k (readCode s k) s = v at he hone hframe
      refine completesWith_answer he ⟨rfl, ?_, fun d h1 h2 => domSt_enterRecovery v h1 h2⟩
      rw [herr, show (answered s (enterRecovery v)).boot = { v.boot with phase := .recovery, recovery := true } from rfl,
        show slotErr k { v.boot with phase := .recovery, recovery := true } = slotErr k v.boot by cases k <;> rfl, hone, BitVec.toNat_ofNat,
        Nat.mod_eq_of_lt hlt]
  · exact supervisor_starts hphase (supervisorThread_eq hk hl hat hmin hw) (by
      obtain ⟨g, hg, i, hi, hne⟩ := hpath
      exact List.any_eq_true.mpr ⟨g, hg, List.any_eq_true.mpr ⟨i, hi, by simpa using hne⟩⟩)

end Sys2Proof.Machine
end

section
/-! PROOFS. The canonical form of the array's bytes (O5). Three operations write bytes: a line's write (memWrite), the removal of a region's or
a block's bytes, and a reset, which leaves none or all. Every other operation leaves the bytes alone; one lemma per operation says so, in the
order of the model's definitions, citing the lemmas of the line pipeline (kept_…) and of the register blocks (aside_…). -/

namespace Sys2Proof.Machine

open Sys2Proof.Safety

/-- The state that a command goes on to has its bytes in canonical form. -/
def KeepsArray (o : Host.Outcome State Fault Refusal) : Prop := ∀ u, o = .next u → arrayOk u

theorem keepsArray_next {u : State} (h : arrayOk u) : KeepsArray (.next u) := by
  intro v hv
  injection hv with hv
  exact hv ▸ h

theorem keepsArray_answer {s t : State} (h : arrayOk t) : KeepsArray (answer s t) := keepsArray_next h

/-! ## The operations that write bytes -/

theorem twfFrom_filter {α : Type} [DecidableEq α] (d : α) (p : Nat × α → Bool) (t : Tab α) (lo : Nat) (h : twfFrom d lo t = true) :
    twfFrom d lo (t.filter p) = true := by
  induction t generalizing lo with
  | nil => rfl
  | cons e t ih =>
    obtain ⟨k, v⟩ := e
    simp only [twfFrom, Bool.and_eq_true, decide_eq_true_eq] at h
    obtain ⟨hhead, htail⟩ := h
    rw [List.filter_cons]
    split
    · simp only [twfFrom, Bool.and_eq_true, decide_eq_true_eq]
      exact ⟨hhead, ih (k + 1) htail⟩
    · exact twfFrom_mono d _ (Nat.le_succ_of_le hhead.1) (ih (k + 1) htail)

theorem wf_filter {m : List Host.Cell} {p : Host.Cell → Bool} (h : Memory.wf m = true) : Memory.wf (m.filter p) = true :=
  twfFrom_filter 0 p m 0 h

theorem arrayOk_setData {s : State} {key : Nat} {d : BitVec 1024} (h : arrayOk s) : arrayOk (setData s key d) := memWrite_wf 128 _ _ _ h

/-- Starting the boot loader leaves the array alone. -/
theorem bootStart_data (s : State) : (bootStart s).cache = s.cache := (bootWork_bootStart s).frame .cache (by decide)

theorem arrayOk_fatalNow {s : State} {cause : Nat} : arrayOk (fatalNow s cause) := by
  unfold fatalNow arrayOk
  extract_lets k f
  rw [bootStart_data]
  rfl

theorem arrayStable : Stable arrayOk where
  alike h ha := by
    unfold arrayOk
    rw [ha.data]
    exact h
  fatal _ _ := arrayOk_fatalNow
  data _ _ h := arrayOk_setData h
  got _ _ h := h
  thread _ _ _ h := h
  freed _ _ _ h := h
  fewer _ _ h := h

theorem arrayAside : Aside arrayOk := by
  intro s u h _ _ hdata
  unfold arrayOk
  rw [hdata]
  exact h

section
-- Many short lemmas that cite one another: elaborating them side by side only makes threads wait on threads.
set_option Elab.async false

variable {s : State}

theorem array_onClk {f : Clk → Clk} (hs : arrayOk s) : arrayOk (s.onClk f) := hs
theorem array_onGlb {f : Glb → Glb} (hs : arrayOk s) : arrayOk (s.onGlb f) := hs
theorem array_onLoops {f : Loops → Loops} (hs : arrayOk s) : arrayOk (s.onLoops f) := hs
theorem array_onTables {f : Tables → Tables} (hs : arrayOk s) : arrayOk (s.onTables f) := hs
theorem array_onXlt {f : Xlt → Xlt} (hs : arrayOk s) : arrayOk (s.onXlt f) := hs
theorem array_onCch {f : Cch → Cch} (hs : arrayOk s) : arrayOk (s.onCch f) := hs
theorem array_onBuf {f : Buf → Buf} (hs : arrayOk s) : arrayOk (s.onBuf f) := hs
theorem array_onAtu {f : Atu → Atu} (hs : arrayOk s) : arrayOk (s.onAtu f) := hs
theorem array_onSeq {f : Seq → Seq} (hs : arrayOk s) : arrayOk (s.onSeq f) := hs
theorem array_onLinks {f : Links → Links} (hs : arrayOk s) : arrayOk (s.onLinks f) := hs
theorem array_onInteg {f : Integ → Integ} (hs : arrayOk s) : arrayOk (s.onInteg f) := hs
theorem array_onTst {f : Tst → Tst} (hs : arrayOk s) : arrayOk (s.onTst f) := hs
theorem array_onRep {f : Repairs → Repairs} (hs : arrayOk s) : arrayOk (s.onRep f) := hs
theorem array_onPwr {f : Pwr → Pwr} (hs : arrayOk s) : arrayOk (s.onPwr f) := hs
theorem array_onSense {f : Sense → Sense} (hs : arrayOk s) : arrayOk (s.onSense f) := hs
theorem array_onBoot {f : Boot → Boot} (hs : arrayOk s) : arrayOk (s.onBoot f) := hs
theorem array_onUart {f : Uart → Uart} (hs : arrayOk s) : arrayOk (s.onUart f) := hs
theorem array_onMgt {f : Mgt → Mgt} (hs : arrayOk s) : arrayOk (s.onMgt f) := hs
theorem array_onMbox {f : Mbox → Mbox} (hs : arrayOk s) : arrayOk (s.onMbox f) := hs
theorem array_onCnt {f : Cnt → Cnt} (hs : arrayOk s) : arrayOk (s.onCnt f) := hs
theorem array_onLog {f : ErrLog → ErrLog} (hs : arrayOk s) : arrayOk (s.onLog f) := hs

/-- A change of the pipeline's queues, the lines' state or the error map leaves the bytes. -/
theorem array_onCache {f : Cache → Cache} (hs : arrayOk s) (hf : ∀ c, (f c).data = c.data := by exact fun _ => rfl) : arrayOk (s.onCache f) := by
  unfold arrayOk
  rw [State.onCache_cache, hf]
  exact hs

theorem array_zeroBlock {b : Nat} (hs : arrayOk s) : arrayOk (zeroBlock b s) := wf_filter hs

theorem array_wipeRegion {r : Nat} (hs : arrayOk s) : arrayOk (wipeRegion r s) := wf_filter hs

theorem array_coldNow : arrayOk (coldNow s) := rfl

theorem array_powerOnNow : arrayOk (powerOnNow s) := rfl

theorem array_contentFail : arrayOk (contentFail s) := rfl

theorem array_warmNow {cause : Nat} (hs : arrayOk s) : arrayOk (warmNow s cause) := by
  unfold warmNow arrayOk
  extract_lets k wait boot settled restore
  rw [bootStart_data]
  exact hs

/-! ## Threads, ports and the boot loader -/

theorem array_ifUp {a b : Nat} {f : State → State} (hf : ∀ u, arrayOk u → arrayOk (f u)) (hs : arrayOk s) : arrayOk (ifUp a b f s) :=
  either (hf s hs) hs

theorem array_setThr {t : Nat} {x : Thread} (hs : arrayOk s) : arrayOk (setThr s t x) := hs

theorem array_modSp {p : Nat} {f : SeqPart → SeqPart} (hs : arrayOk s) : arrayOk (modSp s p f) := hs

theorem array_countThaw {h : Half} {p : Part} (hs : arrayOk s) : arrayOk (countThaw s h p) := aside_cnt arrayAside (array_modSp hs)

theorem array_setRegion {r : Nat} {x : Region} (hs : arrayOk s) : arrayOk (setRegion s r x) := hs

theorem array_setPort {n : Nat} {p : Port} (hs : arrayOk s) : arrayOk (setPort s n p) := hs

theorem array_freeCredit {n : Nat} {cls : Fin 4} {invsc : Bool} {k : Nat} (hs : arrayOk s) : arrayOk (freeCredit n cls invsc k s) :=
  kept_modLink arrayStable hs

theorem array_reply {m : PHdr} {status : Nat} (hs : arrayOk s) : arrayOk (reply m status s) := kept_respond arrayStable hs

theorem array_allOff (hs : arrayOk s) : arrayOk (allOff s) := array_onSense (array_onPwr hs)

theorem array_bootLine {recovery : Bool} (hs : arrayOk s) : arrayOk (bootLine recovery s) := hs

theorem array_enterRecovery (hs : arrayOk s) : arrayOk (enterRecovery s) := array_bootLine (array_onBoot (array_allOff hs))

theorem array_bootGo (hs : arrayOk s) : arrayOk (bootGo s) := by
  unfold bootGo
  split_ifs
  · exact array_bootLine hs
  · exact array_enterRecovery hs
  · exact hs
  · exact hs

theorem array_bootStart (hs : arrayOk s) : arrayOk (bootStart s) := either (array_bootGo hs) hs

theorem array_persistFail (hs : arrayOk s) : arrayOk (persistFail s) := kept_writeRec arrayStable (kept_setTstStat arrayStable hs)

theorem array_queueRepair {r : Repair} (hs : arrayOk s) : arrayOk (queueRepair r s) := either hs (either (array_persistFail hs) hs)

theorem array_calveStart {k b spare source : Nat} (hs : arrayOk s) : arrayOk (calveStart k b spare source s) := kept_setCalve arrayStable hs

theorem array_sendOffd {h : Half} {line : Sa} {p : Part} {valid : BitVec 4} {d : BitVec 1024} {crc : Option (BitVec 32)} {tag : BitVec 12}
    (hs : arrayOk s) : arrayOk (sendOffd h line p valid d crc tag s) :=
  kept_poolSend arrayStable hs

theorem array_poolRelease (hs : arrayOk s) : arrayOk (poolRelease s) := kept_foldl (fun _ _ h => kept_poolSend arrayStable h) (array_onCache hs) _

/-! ## Blocks of BUF space -/

theorem array_addUsed {h : Half} {p : Part} (hs : arrayOk s) : arrayOk (addUsed h p s) := hs

theorem array_subUsed {h : Half} {p : Part} (hs : arrayOk s) : arrayOk (subUsed h p s) := hs

theorem array_grant {b : Nat} {p : Part} (hs : arrayOk s) : arrayOk (grant b p s) := aside_setBlk arrayAside hs

theorem array_allocGrant {w : Who} {h : Half} {p : Part} {b : Nat} (hs : arrayOk s) : arrayOk (allocGrant w h p b s) :=
  aside_blockAnswer arrayAside (aside_allocEvent arrayAside (array_addUsed (array_grant hs)))

theorem array_allocFail {w : Who} {h : Half} {p : Part} {n : Nat} {sa : Sa} (hs : arrayOk s) : arrayOk (allocFail w h p n sa s) :=
  aside_blockAnswer arrayAside (aside_allocEvent arrayAside hs)

theorem array_allocJoin {w : Who} {h : Half} {p : Part} {sa : Sa} {limit : Nat} (hs : arrayOk s) : arrayOk (allocJoin w h p sa limit s) := by
  unfold allocJoin
  refine either (array_allocFail hs) (aside_setWaitQ arrayAside (array_addUsed ?_))
  cases w <;> exact hs

theorem array_allocate {w : Who} {p : Part} {sel : Nat} {wait : Bool} {arrival : Half} {sa : Sa} {limit : Nat} (hs : arrayOk s) :
    arrayOk (allocate w p sel wait arrival sa limit s) := by
  unfold allocate
  refine either (aside_blockAnswer arrayAside hs) (either (either (aside_blockAnswer arrayAside hs) ?_) (either (aside_blockAnswer arrayAside hs) ?_))
  · split
    · exact array_allocGrant hs
    · exact array_allocFail hs
    · exact array_allocJoin hs
  · split
    · exact array_allocGrant hs
    · exact hs
    · split
      · exact array_allocGrant hs
      · refine either (array_allocFail hs) ?_
        split
        · exact array_allocGrant hs
        · exact array_allocFail hs
        · exact array_allocJoin hs

theorem array_freeBlock {w : Option (Who × Part × Sa)} {p : Part} {b : Nat} (hs : arrayOk s) : arrayOk (freeBlock w p b s) := by
  unfold freeBlock
  extract_lets x fail
  have hfail (n : Nat) : arrayOk (fail n) := by
    cases w
    · exact hs
    · exact aside_blockAnswer arrayAside hs
  exact either (hfail _) (either (hfail _) (array_onBuf (aside_setBlk arrayAside hs)))

theorem array_releaseAll {p : Part} (hs : arrayOk s) : arrayOk (releaseAll p s) := either hs (kept_foldl (fun _ _ h => array_freeBlock h) hs _)

theorem array_chargePlow {h : Half} (hs : arrayOk s) : arrayOk (chargePlow h s) := kept_arbitrate arrayStable hs

theorem array_chargeMany {h : Half} {n : Nat} (hs : arrayOk s) : arrayOk (chargeMany h n s) := by
  induction n generalizing s with
  | zero => exact hs
  | succ n ih => exact ih (kept_chargeOwn arrayStable hs)

theorem array_poisonCreated {r : Rec} {mask : BitVec 4} {h : Half} (hs : arrayOk s) : arrayOk (poisonCreated r mask h s) :=
  either hs (aside_cnt arrayAside (kept_writeRec arrayStable hs))

theorem array_roTouch {k : Nat} {c : RoKind} {sa : Sa} (hs : arrayOk s) : arrayOk (roTouch k c sa s) := by
  unfold roTouch
  extract_lets b
  split
  · exact kept_setRo arrayStable hs
  · exact hs

theorem array_ackWanted {key : Nat} (hs : arrayOk s) : arrayOk (ackWanted key s) := hs

theorem array_enqueueAtu {h : Half} {id : Nat} {sa : Sa} {p : Part} {arrival : Half} {master : Nat} (hs : arrayOk s) :
    arrayOk (enqueueAtu h id sa p arrival master s) :=
  kept_enqueue arrayStable hs

theorem array_acceptAtom {w : Who} {k : AtomKind} {wide : Bool} {v cmp : BitVec 64} {sa : Sa} {p : Part} {arrival home : Half} {master : Nat}
    (hs : arrayOk s) : arrayOk (acceptAtom w k wide v cmp sa p arrival home master s) :=
  array_enqueueAtu (kept_setAtuHalf arrayStable (kept_atuId arrayStable hs))

theorem array_forget {c : Consumer} (hs : arrayOk s) : arrayOk (forget c s) := hs

theorem array_askAll {c : Consumer} {rs : List (Nat × LineReq)} (hs : arrayOk s) : arrayOk (askAll c rs s) :=
  kept_foldl (fun _ _ h => either h (kept_enqueue arrayStable (array_onCache h))) hs _

theorem array_collect {c : Consumer} {rs : List (Nat × LineReq)} (hs : arrayOk s) : arrayOk (collect c rs s).2 :=
  kept_settle arrayStable (array_askAll hs)

theorem array_gather {c : Consumer} {rs : List (Nat × LineReq)} (hs : arrayOk s) : arrayOk (gather c rs s).2 := by
  unfold gather
  extract_lets g
  have hg : arrayOk g.2 := array_collect hs
  split
  · exact hg
  · exact array_forget hg

/-! ## The plow -/

theorem array_plowAccept {c : PlowCmd} (hs : arrayOk s) : arrayOk (plowAccept c s).2 := eitherSnd hs hs

theorem array_setHead {c : PlowCmd} (hs : arrayOk s) : arrayOk (setHead c s) := hs

theorem array_plowFail {c : PlowCmd} {code : Nat} (hs : arrayOk s) : arrayOk (plowFail c code s) := hs

theorem array_setGown {h : Half} {g : Nat} {o : BitVec 6} (hs : arrayOk s) : arrayOk (setGown h g o s) := hs

theorem array_setGt {h : Half} {i : Nat} {e : GtEnt} (hs : arrayOk s) : arrayOk (setGt h i e s) := hs

theorem array_plowStart (hs : arrayOk s) : arrayOk (plowStart s) := by
  unfold plowStart
  split
  · exact hs
  · exact either hs <| either (array_plowFail hs) <| either (either (array_plowFail hs) (array_setHead hs)) <|
      either (either (array_plowFail hs) (array_setHead (array_onTables hs))) <|
      either (either (array_setHead (array_setGown hs)) (array_plowFail hs)) <|
      either hs <| either (array_plowFail hs) (array_setHead (array_setRegion hs))

theorem array_plowReg {op : Nat} {scope : BitVec 2} {part : Part} {h : Half} (hs : arrayOk s) : arrayOk (plowReg op scope part h s) :=
  either (kept_settle arrayStable (array_plowStart (array_plowAccept hs))) (array_onCch hs)

theorem array_plowLine {c : PlowCmd} {h : Half} {key : Nat} (hs : arrayOk s) : arrayOk (plowLine c h key s) :=
  have h1 : arrayOk (chargePlow h (cnt 0x018 (some h) none 1 s)) := array_chargePlow (aside_cnt arrayAside hs)
  either (either h1 (aside_setMeta arrayAside (kept_writeBack arrayStable h1))) <|
    either (aside_setMeta arrayAside h1) <| either (aside_setMeta arrayAside h1) <|
    either (either (kept_startInv arrayStable h1) (kept_discardNow arrayStable h1))
      (either (kept_startInv arrayStable h1) (kept_flushNow arrayStable h1))

theorem array_plowComplete {c : PlowCmd} (hs : arrayOk s) : arrayOk (plowComplete c s) :=
  have h1 := either (c := c.code = 0 ∧ c.op.toNat = opEntry) (array_onTables (array_setGt hs)) hs
  array_onCch (either (array_onTables h1) h1)


end

end Sys2Proof.Machine
end


section
/-! PROOFS. The canonical form of the array's bytes (O5), continued: translations, ports, replicas, loops and shelves. -/

namespace Sys2Proof.Machine

open Sys2Proof.Safety

theorem array_foldlSnd {α β : Type} {f : β × State → α → β × State} (hf : ∀ x a, arrayOk x.2 → arrayOk (f x a).2) {b : β} {s : State}
    (h : arrayOk s) (l : List α) : arrayOk (l.foldl f (b, s)).2 :=
  List.foldlRecOn (motive := fun x => arrayOk x.2) l f h fun x hx a _ => hf x a hx

section
-- Many short lemmas that cite one another: elaborating them side by side only makes threads wait on threads.
set_option Elab.async false

variable {s : State}

theorem array_keepTlb {h : Half} {keep : Tlb → Bool} (hs : arrayOk s) : arrayOk (keepTlb h keep s) :=
  kept_foldl (fun _ _ h => aside_modThr arrayAside h) (array_onXlt hs) _

theorem array_setWalks {h : Half} {ws : List Walk} (hs : arrayOk s) : arrayOk (setWalks h ws s) := array_onXlt hs

theorem array_windowEnd (hs : arrayOk s) : arrayOk (windowEnd s) :=
  have h1 := kept_windowRoll arrayStable hs
  either (aside_unitSwitch arrayAside arrayStable (aside_unitSwitch arrayAside arrayStable h1)) h1

/-! ## Ports -/

theorem array_portUp {n : Nat} {c : Credits} (hs : arrayOk s) : arrayOk (portUp n c s) :=
  have h1 := kept_linkPump arrayStable (kept_modLink arrayStable (aside_putPort arrayAside hs))
  either h1 (array_poolRelease h1)

theorem array_takeAny {n : Nat} {opc : Nat} (hs : arrayOk s) : arrayOk (takeAny n opc s) := by
  unfold takeAny
  split
  · exact hs
  · exact kept_takeFrame arrayStable hs

theorem array_useSpare {n : Nat} {lane : BitVec 5} {second : Bool} (hs : arrayOk s) : arrayOk (useSpare n lane second s) :=
  kept_linkEvent arrayStable (aside_putPort arrayAside hs)

theorem array_trainSpare {n : Nat} {failed : BitVec 16} (hs : arrayOk s) : arrayOk (trainSpare n failed s).2 := by
  unfold trainSpare
  generalize List.range 16 = lanes
  extract_lets r p
  have h1 : arrayOk r.2 := by
    refine array_foldlSnd (fun x k h => ?_) hs lanes
    exact eitherSnd (eitherSnd h (array_useSpare h)) h
  clear_value r
  exact eitherSnd h1 (eitherSnd (array_setPort h1) (aside_putPort arrayAside h1))

theorem array_setLaneEq {i : Nat} {x : LaneEq} (hs : arrayOk s) : arrayOk (setLaneEq i x s) := array_onLoops hs

theorem array_adaptLane {n lane : Nat} {x : LaneEq} (hs : arrayOk s) : arrayOk (adaptLane n lane x s) := array_setLaneEq hs

theorem array_takeAck {n : Nat} {seq : BitVec 10} {c : Credits} (hs : arrayOk s) : arrayOk (takeAck n seq c s) :=
  kept_linkPump arrayStable (either (kept_setLink arrayStable hs) (kept_setLink arrayStable hs))

theorem array_replay {n : Nat} (hs : arrayOk s) : arrayOk (replay n s) :=
  have h1 := kept_linkEvent arrayStable (kept_setLink arrayStable hs)
  either hs (either (aside_enterRecal arrayAside h1) h1)

theorem array_sendCtrl {n : Nat} {ctype : Nat} (hs : arrayOk s) : arrayOk (sendCtrl n ctype s) := kept_modLink arrayStable hs

theorem array_badFrame {n : Nat} (hs : arrayOk s) : arrayOk (badFrame n s) :=
  aside_enterRecal arrayAside (array_setPort (kept_modLink arrayStable (kept_foldl (fun _ _ h => array_freeCredit h) hs _)))

theorem array_frameDone {n : Nat} {cls : Fin 4} {invsc : Bool} {cs : List (BitVec 496)} (hs : arrayOk s) : arrayOk (frameDone n cls invsc cs s) := by
  unfold frameDone
  extract_lets f
  split
  · exact kept_sendFrame arrayStable (array_freeCredit hs)
  · exact either (array_badFrame (array_freeCredit hs)) (kept_modLink arrayStable hs)

theorem array_takeFlit {n : Nat} {f : Flit} (hs : arrayOk s) : arrayOk (takeFlit n f s).2 := by
  unfold takeFlit
  split
  · exact array_badFrame hs
  split
  · exact hs
  extract_lets s1 s2 x bad start goOn o below
  have h1 : arrayOk s1 := kept_linkEvent arrayStable (kept_modLink arrayStable hs)
  have h2 : arrayOk s2 := either (array_sendCtrl h1) h1
  have hbad (u : State) (hu : arrayOk u) : arrayOk (bad u).2 := by
    simp only [bad]
    exact array_badFrame (array_freeCredit hu)
  clear_value s2 bad start goOn o below
  exact eitherSnd (array_badFrame h2) <| eitherSnd (hbad s2 h2) <| eitherSnd (hbad s2 h2) <|
    eitherSnd (array_frameDone (kept_setLink arrayStable h2)) (kept_setLink arrayStable h2)

theorem array_countSymbols {n : Nat} {lanes : List (Fin 16)} (hs : arrayOk s) : arrayOk (countSymbols n lanes s) :=
  kept_linkEvent arrayStable (kept_modLink arrayStable hs)

theorem array_blockIn {n : Nat} {good : Bool} {corrected : List (Fin 16)} {bseq : BitVec 8} {flits : List Flit} (hs : arrayOk s) :
    arrayOk (blockIn n good corrected bseq flits s) :=
  have h1 := array_countSymbols hs
  have h2 := kept_linkEvent arrayStable h1
  either (kept_linkEvent arrayStable (kept_linkEvent arrayStable (array_sendCtrl (kept_setLink arrayStable h1)))) <|
    either (either h2 (kept_linkEvent arrayStable (array_sendCtrl (kept_setLink arrayStable h2))))
      (array_foldlSnd (fun _ _ h => eitherSnd (array_takeFlit h) h) (kept_setLink arrayStable h1) _)

theorem array_forceDown {n : Nat} (hs : arrayOk s) : arrayOk (forceDown n s) := either hs (kept_portDown arrayStable hs)

/-! ## Replicas -/

theorem array_takeHalf {h : Half} {kind : HalfMsg → Bool} {r : HalfMsg × State} (hs : arrayOk s) (hr : takeHalf h kind s = some r) : arrayOk r.2 := by
  unfold takeHalf at hr
  split at hr
  · obtain ⟨x, -, rfl⟩ := Option.map_eq_some_iff.mp hr
    exact array_onCache hs fun c => by cases h <;> rfl
  · cases hr

theorem array_installDrop {h : Half} {line : Sa} {p : Part} (hs : arrayOk s) : arrayOk (installDrop h line p s) :=
  aside_cnt arrayAside (kept_pushHalf arrayStable hs)

theorem array_install {h : Half} {line : Sa} {p : Part} {d : BitVec 1024} {crcV : Bool} {crc : BitVec 32} {sp : BitVec 4} {gi : Option Nat}
    (hs : arrayOk s) : arrayOk (install h line p d crcV crc sp gi s) := by
  unfold install
  split
  · exact array_installDrop hs
  · refine either (array_installDrop hs) ?_
    extract_lets k0 s0 s1
    have h1 : arrayOk s1 := kept_checkRow arrayStable hs
    clear_value s1
    refine either h1 (either (array_installDrop h1) ?_)
    split
    · exact array_installDrop h1
    · next k u hv =>
      have h2 := kept_victim arrayStable h1 hv
      exact either (array_installDrop h2) (either (kept_replicaPut arrayStable h2) (kept_startInv arrayStable h2))

theorem array_cancelInstall {h : Half} {line : Sa} (hs : arrayOk s) : arrayOk (cancelInstall h line s) := array_onCache hs

theorem array_clearSharer {k : Nat} (hs : arrayOk s) : arrayOk (clearSharer k s) :=
  array_onCch (kept_foldl (fun _ _ h => either (aside_setMeta arrayAside h) h) hs _)

/-! ## The timebase and the loops -/

theorem array_timeLow {r : Requester} (hs : arrayOk s) : arrayOk (timeLow r s).2 := array_onClk hs

theorem array_timeHigh {r : Requester} (hs : arrayOk s) : arrayOk (timeHigh r s).2 := by
  unfold timeHigh
  split
  · exact hs
  · exact array_onClk hs

theorem array_showRead {x : BitVec 32 × State} (hx : arrayOk x.2) : arrayOk (showRead x) := array_onClk hx

theorem array_loopStep {n : Nat} {meas : BitVec 16} {want : Int} {wrong up : Bool} (hs : arrayOk s) : arrayOk (loopStep n meas want wrong up s) :=
  aside_setLoop arrayAside hs

theorem array_setAvs {h : Half} {a : Avs} (hs : arrayOk s) : arrayOk (setAvs h a s) := array_onLoops hs

theorem array_avsFault {h : Half} (hs : arrayOk s) : arrayOk (avsFault h s) := array_setAvs (aside_setLoop arrayAside hs)

theorem array_avsFailed {h : Half} {a : Avs} (hs : arrayOk s) : arrayOk (avsFailed h a s) := either (array_avsFault hs) (array_setAvs hs)

theorem array_eqSpare {k : Nat} {x : Nat × BitVec 64} (hs : arrayOk s) : arrayOk (eqSpare k x s) :=
  either (aside_requestSpare arrayAside arrayStable (kept_modLoopMem arrayStable hs)) hs

theorem array_eqLanes {k : Nat} {lanes : List Nat} {i : Nat} {taps : BitVec 16} {written live : Bool} (hs : arrayOk s) :
    arrayOk (eqLanes k lanes i taps written live s) :=
  have h1 := either (kept_foldl (fun _ _ h => array_setLaneEq h) hs lanes) hs
  either (array_setLaneEq h1) h1

theorem array_takeReady {n : Nat} {r : (Nat × Nat) × State} (hs : arrayOk s) (hr : takeReady n s = some r) : arrayOk r.2 := by
  unfold takeReady at hr
  split at hr
  · cases hr
  · cases hr
    exact kept_modLoopMem arrayStable hs

/-! ## Shelves -/

theorem array_crcRecord {r : Rec} (hs : arrayOk s) : arrayOk (crcRecord r s) := kept_writeRec arrayStable (array_onInteg hs)

theorem array_storeFill {q : Mshr} {mask poison : BitVec 4} {d : BitVec 1024} (hs : arrayOk s) : arrayOk (storeFill q mask poison d s) :=
  kept_chargeOwn arrayStable (kept_putMshr arrayStable (kept_storeLine arrayStable hs))

theorem array_deliverFill {q : PoolReq} {mask poison : BitVec 4} {d : BitVec 1024} (hs : arrayOk s) : arrayOk (deliverFill q mask poison d s) := by
  unfold deliverFill
  split
  · split
    · exact hs
    · exact array_storeFill hs
  · exact kept_answerReq arrayStable hs
  · split
    · exact kept_putAtom arrayStable hs
    · split
      · exact kept_putAddl arrayStable hs
      · exact hs
  · exact hs

theorem array_dropPool {q : PoolReq} (hs : arrayOk s) : arrayOk (dropPool q s) := array_onCache hs

theorem array_fillArrive {q : PoolReq} {status : Nat} {poison mask : BitVec 4} {crc : Option (BitVec 32)} {d : BitVec 1024} (hs : arrayOk s) :
    arrayOk (fillArrive q status poison mask crc d s) := by
  have h1 : arrayOk (dropPool q s) := array_dropPool hs
  unfold fillArrive
  refine either (kept_failFill arrayStable h1) ?_
  extract_lets m bad r0 r s2 t r3 s3 s4
  have h2 : arrayOk s2 := either (kept_countOps arrayStable h1) h1
  have h4 : arrayOk s4 := array_deliverFill h2
  exact either (kept_poolSend arrayStable (array_crcRecord (kept_poolTag arrayStable h2))) <|
    either (array_deliverFill (array_poisonCreated (array_crcRecord h2))) (either h4 (array_onCache h4))

theorem array_shelfRecord {r : Rec} {type lines : Nat} (hs : arrayOk s) : arrayOk (shelfRecord r type lines s) :=
  kept_writeRec arrayStable (array_onInteg hs)

theorem array_wackArrive {q : PoolReq} {status : Nat} (hs : arrayOk s) : arrayOk (wackArrive q status s) := by
  unfold wackArrive
  extract_lets s1 r s2
  have h2 : arrayOk s2 := either (array_shelfRecord (array_dropPool hs)) (array_dropPool hs)
  clear_value s2
  split
  · have h3 : arrayOk (wakeWaits (lineOf q.line) s2) := kept_wakeWaits arrayStable h2
    split
    · exact either (kept_sendWt arrayStable h3) (kept_answerReq arrayStable h3)
    · exact kept_answerReq arrayStable h3
  · split
    · exact kept_answerAtom arrayStable (kept_dropAtom arrayStable (kept_wakeWaits arrayStable h2))
    · exact kept_wakeWaits arrayStable h2
  · exact h2

theorem array_dropOffer {o : Offer} (hs : arrayOk s) : arrayOk (dropOffer o s) := array_onCache hs

theorem array_declineOffer {o : Offer} (hs : arrayOk s) : arrayOk (declineOffer o s) := aside_cnt arrayAside (array_dropOffer hs)

theorem array_serrLine {key : Nat} (hs : arrayOk s) : arrayOk (serrLine key s) := aside_setMeta arrayAside hs


end

end Sys2Proof.Machine
end


section
/-! PROOFS. The canonical form of the array's bytes (O5), continued: threads, their tasks, and the walks of translations. -/

namespace Sys2Proof.Machine

open Sys2Proof.Safety

section
-- Many short lemmas that cite one another: elaborating them side by side only makes threads wait on threads.
set_option Elab.async false

variable {s : State}

/-! ## Translation and fetch -/

theorem array_freeVal (hs : arrayOk s) : arrayOk (freeVal s).2 := kept_freeCtr arrayStable hs

theorem array_stall {t : Nat} (hs : arrayOk s) : arrayOk (stall t s) := aside_modThr arrayAside hs

theorem array_missInstr {t : ThreadId} {pva : BitVec 64} {need : Rights} {kind : Nat} {silent : Bool} (hs : arrayOk s) :
    arrayOk (missInstr t pva need kind silent s) :=
  aside_modThr arrayAside hs

theorem array_setTlb {i : Nat} {e : Option Tlb} (hs : arrayOk s) : arrayOk (setTlb i e s) := array_onXlt hs

theorem array_tlbFill {h : Half} {e : Tlb} (hs : arrayOk s) : arrayOk (tlbFill h e s) := by
  unfold tlbFill
  extract_lets base at_
  split
  · exact array_setTlb hs
  · exact array_setTlb (kept_foldl (fun _ _ h => array_setTlb h) hs _)

theorem array_xlook {h : Half} {p : Part} {pva : Nat} {need : Rights} {held : Option Tlb} (hs : arrayOk s) :
    arrayOk (xlook h p pva need held s).2 := by
  unfold xlook
  extract_lets fromCache
  have h1 : arrayOk fromCache.2 := by
    simp only [fromCache]
    split
    · exact hs
    · exact eitherSnd (array_setTlb hs) (array_setTlb hs)
  clear_value fromCache
  split
  · exact eitherSnd hs h1
  · exact h1

theorem array_reach {t : Nat} {p : Part} {pva : BitVec 64} {page need : Rights} {kind : Nat} {devOk : Space → Bool} {held : Option Tlb}
    (hs : arrayOk s) : arrayOk (reach t p pva page need kind devOk held s).2 := by
  unfold reach
  refine eitherSnd hs ?_
  extract_lets r
  have h1 : arrayOk r.2 := array_xlook hs
  split <;> exact h1

theorem array_roWord {c : Consumer} {t : ThreadId} {p : Part} {sa : Sa} {home : Half} (hs : arrayOk s) : arrayOk (roWord c t p sa home s).2 := by
  unfold roWord
  extract_lets k
  split
  · exact array_roTouch hs
  · next s1 g _ _ =>
    have h1 : arrayOk s1 := either hs (aside_cnt arrayAside hs)
    have hg : arrayOk g.2 := array_gather h1
    split
    · exact hg
    · exact either hg (kept_roInsert arrayStable hg)

theorem array_fetch {t : ThreadId} (hs : arrayOk s) : arrayOk (fetch t s).2 := by
  unfold fetch
  extract_lets th pva
  split
  · exact hs
  · next r _ _ =>
    have h1 : arrayOk r.2 := array_reach hs
    split
    · exact h1
    · exact array_stall (array_missInstr h1)
    · extract_lets g
      have hg : arrayOk g.2 := array_roWord h1
      split
      · exact array_stall hg
      · exact hg

theorem array_fetchAhead {t : ThreadId} {store : Sa} (hs : arrayOk s) : arrayOk (fetchAhead t store s).2 := by
  unfold fetchAhead
  extract_lets th r
  have h1 : arrayOk r.2 := array_reach hs
  split
  · refine eitherSnd hs ?_
    extract_lets g
    have hg : arrayOk g.2 := array_roWord h1
    split
    · exact array_stall hg
    · exact hg
  · exact hs

/-! ## Tasks -/

theorem array_forgetThread {t : ThreadId} (hs : arrayOk s) : arrayOk (forgetThread t s) := array_onCache (array_onBuf hs)

theorem array_forgetInstr {t : ThreadId} (hs : arrayOk s) : arrayOk (forgetInstr t s) := array_forget (array_forget (array_forget (array_forget hs)))

theorem array_setTq {q : Nat} {x : TaskQ} (hs : arrayOk s) : arrayOk (setTq q x s) := array_onSeq hs

theorem array_doneLost {q : Nat} (hs : arrayOk s) : arrayOk (doneLost q s) := array_setTq hs

theorem array_takeSlot {p k : Nat} (hs : arrayOk s) : arrayOk (takeSlot p k s) := array_modSp hs

theorem array_dropSlot {p k : Nat} (hs : arrayOk s) : arrayOk (dropSlot p k s) := array_modSp hs

theorem array_pushResume {h : Half} {p : Part} {k : Nat} {prio : BitVec 2} (hs : arrayOk s) : arrayOk (pushResume h p k prio s) := array_onSeq hs

theorem array_freeThread {t : ThreadId} (hs : arrayOk s) : arrayOk (freeThread t s) := array_forgetThread (array_setThr hs)

theorem array_postLine {t : ThreadId} {op : LineOp} {sa : Sa} {home : Half} (hs : arrayOk s) : arrayOk (postLine t op sa home s) :=
  kept_enqueue arrayStable (array_onCache (aside_modThr arrayAside hs))

theorem array_wordAttempt {t : ThreadId} (hs : arrayOk s) : arrayOk (wordAttempt t s) := by
  unfold wordAttempt
  extract_lets th
  split
  · exact hs
  · next r prst s1 _ _ _ =>
    refine either hs (either (array_freeThread (array_doneLost hs)) ?_)
    have h1 : arrayOk s1 := array_onInteg (array_reach (array_onInteg hs))
    split
    · exact array_missInstr h1
    · exact array_freeThread (array_doneLost h1)
    · exact kept_settle arrayStable (array_freeThread (array_postLine h1))

theorem array_endTask {t : ThreadId} {w : BitVec 64} (hs : arrayOk s) : arrayOk (endTask t w s) :=
  either (array_freeThread hs) (array_wordAttempt (array_forgetThread (array_setThr hs)))

theorem array_endLost {t : ThreadId} {cause : Nat} (hs : arrayOk s) : arrayOk (endLost t cause s) := array_endTask (aside_cnt arrayAside hs)

theorem array_endKilled {t : ThreadId} {reason : Nat} (hs : arrayOk s) : arrayOk (endKilled t reason s) := array_endTask hs

theorem array_firstIssue {t : ThreadId} (hs : arrayOk s) : arrayOk (firstIssue t s) := by
  unfold firstIssue
  extract_lets th
  split
  · exact hs
  · exact array_dropSlot (aside_modThr arrayAside hs)

theorem array_countIssue {t : ThreadId} (hs : arrayOk s) : arrayOk (countIssue t s) :=
  kept_countOps arrayStable (aside_cnt arrayAside (array_firstIssue hs))

theorem array_retire {t : ThreadId} {f : Thread → Thread} (hs : arrayOk s) : arrayOk (retire t f s) := aside_modThr arrayAside (array_countIssue hs)

theorem array_stopThread {t : ThreadId} {kind cause : Nat} (hs : arrayOk s) : arrayOk (stopThread t kind cause s) :=
  array_forgetInstr (aside_modThr arrayAside hs)

theorem array_recordFault {i : FaultInfo} {p : Part} (hs : arrayOk s) : arrayOk (recordFault i p s).2 := kept_writeFault arrayStable hs

theorem array_raise {t : ThreadId} {cause : Nat} {rec_ : Option FaultInfo} (hs : arrayOk s) : arrayOk (raise t cause rec_ s) := by
  unfold raise
  extract_lets th
  split
  · exact kept_settle arrayStable (array_stopThread hs)
  · exact kept_settle arrayStable (aside_modThr arrayAside (array_stopThread (array_recordFault hs)))

theorem array_raisePoison {t : ThreadId} {i : FaultInfo} (hs : arrayOk s) : arrayOk (raisePoison t i s) :=
  have h1 := kept_consume arrayStable hs
  either (kept_settle arrayStable (kept_writeFault arrayStable h1)) (array_raise h1)

theorem array_raiseAny {t : ThreadId} {cause : Nat} {rec_ : Option FaultInfo} (hs : arrayOk s) : arrayOk (raiseAny t cause rec_ s) := by
  unfold raiseAny
  split
  · exact either (array_raisePoison hs) (array_raise hs)
  · exact array_raise hs

theorem array_haltCheck {t : ThreadId} (hs : arrayOk s) : arrayOk (haltCheck t s) := either (array_endTask hs) hs

theorem array_instr {t : ThreadId} {c : Instr} {legal priv : Bool} {regs : List Nat} {own : Nat} {body : Thread → State → State} (hs : arrayOk s)
    (hbody : ∀ th u, arrayOk u → arrayOk (body th u)) : arrayOk (instr t c legal priv regs own body s) := by
  unfold instr
  extract_lets th kind
  refine either hs ?_
  split
  · exact array_raise (aside_modThr arrayAside hs)
  · next f _ _ =>
    refine either (hbody _ _ hs) ?_
    have h1 : arrayOk f.2 := array_fetch hs
    split
    · exact h1
    · exact array_raiseAny h1
    · split
      · exact array_raise h1
      · exact either hs <| either (array_raise h1) <| either (array_raise h1) <| either (array_stall h1) (hbody _ _ h1)

theorem array_saveFailed {t : ThreadId} {kind cause k : Nat} (hs : arrayOk s) : arrayOk (saveFailed t kind cause k s) :=
  have h1 := array_modSp (array_dropSlot hs)
  either (aside_modThr arrayAside h1) (array_endLost h1)

theorem array_saveDone {t : ThreadId} {kind cause k : Nat} (hs : arrayOk s) : arrayOk (saveDone t kind cause k s) :=
  have h1 := array_modSp hs
  either (array_freeThread (array_pushResume (aside_cnt arrayAside (array_modSp h1)))) <|
    either (array_freeThread (array_pushResume h1)) (array_endTask (aside_cnt arrayAside (array_modSp h1)))

theorem array_saveWrite {t : ThreadId} {kind cause k : Nat} (hs : arrayOk s) : arrayOk (saveWrite t kind cause k s) := by
  unfold saveWrite
  extract_lets th c r
  split
  · exact array_saveFailed hs
  · extract_lets g
    have hg : arrayOk g.2 := array_gather (aside_modThr arrayAside hs)
    split
    · exact hg
    · exact either (array_saveFailed hg) (array_saveDone hg)

theorem array_saveStep {t : ThreadId} (hs : arrayOk s) : arrayOk (saveStep t s) := by
  unfold saveStep
  extract_lets th
  split
  · refine either hs ?_
    split
    · exact array_saveWrite hs
    · split
      · exact array_endLost hs
      · exact array_saveWrite (array_takeSlot hs)
  · exact array_saveWrite hs
  · exact hs

theorem array_bellTail {part : Part} {q : Nat} {v : BitVec 32} (hs : arrayOk s) : arrayOk (bellTail part q v s).2 :=
  eitherSnd hs (eitherSnd (array_setTq hs) (array_setTq hs))

theorem array_badCmd {p : Nat} (hs : arrayOk s) : arrayOk (badCmd p s) := array_modSp hs

theorem array_bellResume {part p : Part} {slot : Nat} (hs : arrayOk s) : arrayOk (bellResume part p slot s).2 :=
  eitherSnd hs (eitherSnd (array_badCmd hs) (array_pushResume (array_modSp hs)))

theorem array_bellDiscard {part p : Part} {slot : Nat} (hs : arrayOk s) : arrayOk (bellDiscard part p slot s).2 :=
  eitherSnd hs (eitherSnd (array_badCmd hs) (array_dropSlot hs))

theorem array_startCand {t : Nat} {c : Cand} (hs : arrayOk s) : arrayOk (startCand t c s) := by
  unfold startCand
  extract_lets h
  split
  · exact array_setThr (array_onSeq hs)
  · split
    · exact array_setThr (array_onSeq (array_setTq hs))
    · exact hs

theorem array_withdrawAlloc {t : ThreadId} (hs : arrayOk s) : arrayOk (withdrawAlloc t s) := by
  refine kept_foldl (fun u h hu => kept_foldl (fun v w hv => ?_) hu _) hs _
  split
  · exact either (aside_setWaitQ arrayAside (array_subUsed hv)) hv
  · exact hv

theorem array_preempt {t : ThreadId} {k : Nat} (hs : arrayOk s) : arrayOk (preempt t k s) := by
  unfold preempt
  extract_lets th
  split
  · exact array_raise (aside_modThr arrayAside hs)
  · next left s1 w s2 _ _ =>
    have h1 : arrayOk s1 := by
      simp only [s1]
      split
      · exact hs
      · exact array_takeSlot hs
    exact aside_modThr arrayAside (array_withdrawAlloc (array_stopThread h1))

theorem array_moveThread {t u : ThreadId} (hs : arrayOk s) : arrayOk (moveThread t u s) :=
  array_setThr (array_setThr (array_forgetThread (array_withdrawAlloc hs)))

theorem array_roGather {c : Consumer} {t : ThreadId} {kind : RoKind} {part : Part} {sas : List (Sa × Half)} (hs : arrayOk s) :
    arrayOk (roGather c t kind part sas s).2 := by
  unfold roGather
  extract_lets k idx at_ missing fresh s1 rs g
  have hg : arrayOk g.2 := array_gather (aside_cnt arrayAside hs)
  split
  · exact hg
  · exact kept_foldl (fun _ _ h => either (kept_roInsert arrayStable h) h) hg _

theorem array_fetchErr {t : ThreadId} {q : Nat} (hs : arrayOk s) : arrayOk (fetchErr t q s) := array_freeThread (array_setTq hs)

theorem array_startTask {t : ThreadId} {d : Nat} (hs : arrayOk s) : arrayOk (startTask t d s) :=
  have h1 := aside_cnt arrayAside hs
  either (array_setThr h1) (array_endKilled (array_setThr h1))

theorem array_doneLines {t : ThreadId} (hs : arrayOk s) : arrayOk (doneLines t s) :=
  kept_foldl (fun _ _ h => either (aside_modThr arrayAside (array_freeVal h)) h) hs _

theorem array_restoreFailed {t : ThreadId} {p : Part} {k : Nat} {done : BitVec 64} (hs : arrayOk s) : arrayOk (restoreFailed t p k done s) :=
  array_endKilled (aside_modThr arrayAside (array_dropSlot hs))

theorem array_issueOut {t : ThreadId} {line : Sa} {store : Bool} {dest : BitVec 5} {count : Nat} {pva : BitVec 48} {viaRo : Bool} (hs : arrayOk s) :
    arrayOk (issueOut t line store dest count pva viaRo s).2 :=
  array_setThr hs

theorem array_issueEval {t : ThreadId} {x : Space} {w : Wait} (hs : arrayOk s) : arrayOk (issueEval t x w s) :=
  have h1 := aside_modThr arrayAside (array_issueOut (array_firstIssue hs))
  either (array_acceptAtom h1) (kept_enqueue arrayStable h1)

theorem array_endEval {t : ThreadId} {w : Wait} {v : List (BitVec 64)} (hs : arrayOk s) : arrayOk (endEval t w v s) :=
  either (aside_modThr arrayAside (array_retire hs)) (aside_modThr arrayAside hs)

theorem array_thaw {t : ThreadId} (hs : arrayOk s) : arrayOk (thaw t s) := by
  unfold thaw
  extract_lets th
  split
  · exact hs
  · refine either hs (either ?_ (array_retire (array_forgetInstr (array_countThaw hs))))
    split
    · exact hs
    · exact aside_endWaiter arrayAside (array_countThaw hs)

theorem array_swaitCheck {t : ThreadId} (hs : arrayOk s) : arrayOk (swaitCheck t s) := by
  unfold swaitCheck
  extract_lets th
  split
  · exact hs
  · exact either hs (array_retire hs)

/-! ## Stopped streams -/

theorem array_streamRecord {t : ThreadId} {i : Fin 2} {f : FaultInfo} (hs : arrayOk s) : arrayOk (streamRecord t i f s) := by
  unfold streamRecord
  extract_lets th x line r s1 s2
  have hr : arrayOk r.2 := by
    simp only [r]
    exact eitherSnd hs (array_recordFault hs)
  have h1 : arrayOk s1 := aside_cnt arrayAside hr
  have h2 : arrayOk s2 := either (kept_consume arrayStable h1) h1
  exact kept_settle arrayStable (aside_modThr arrayAside h2)

theorem array_streamFaulted {t : ThreadId} {i : Fin 2} {f : FaultInfo} (hs : arrayOk s) : arrayOk (streamFaulted t i f s) :=
  array_haltCheck (array_swaitCheck (aside_modThr arrayAside hs))

theorem array_stopCheck {t : ThreadId} {i : Fin 2} (hs : arrayOk s) : arrayOk (stopCheck t i s) := by
  unfold stopCheck
  extract_lets x
  split
  · exact hs
  · refine either hs ?_
    extract_lets s1 th y
    have h1 : arrayOk s1 := either hs (array_streamRecord hs)
    exact either h1 (array_streamFaulted h1)

theorem array_streamFault {t : ThreadId} {i : Fin 2} {f : FaultInfo} (hs : arrayOk s) : arrayOk (streamFault t i f s) :=
  array_stopCheck (array_setThr hs)

theorem array_blockFault {t : ThreadId} {i : Fin 2} {f : FaultInfo} (hs : arrayOk s) : arrayOk (blockFault t i f s) :=
  array_streamFault (aside_modThr arrayAside hs)

theorem array_dropFlight {t : ThreadId} {i : Fin 2} {u : Nat} (hs : arrayOk s) : arrayOk (dropFlight t i u s) := aside_modThr arrayAside hs

/-! ## Walks -/

theorem array_walkFail {m : Miss} {code level sub : Nat} {sa : Option Sa} (hs : arrayOk s) : arrayOk (walkFail m code level sub sa s) := by
  unfold walkFail
  extract_lets t
  split
  · exact hs
  · split
    · exact either (array_blockFault (aside_modThr arrayAside hs)) (array_streamFault (array_dropFlight hs))
    · have h1 : arrayOk (modThr s t.val fun x => { x with xl := none, hit := none }) := aside_modThr arrayAside hs
      exact either (array_freeThread (array_doneLost h1)) <| either (array_retire h1) <| either (array_raise h1) (array_raise h1)

theorem array_walkGive {m : Miss} {e : Tlb} {noFill : Bool} (hs : arrayOk s) : arrayOk (walkGive m e noFill s) := by
  unfold walkGive
  extract_lets t
  split
  · exact hs
  · split
    · exact array_wordAttempt (aside_modThr arrayAside hs)
    · exact aside_modThr arrayAside hs

theorem array_setWalkWait {h : Half} {ws : List Miss} (hs : arrayOk s) : arrayOk (setWalkWait h ws s) := array_onXlt hs

theorem array_walkBegin {m : Miss} {q : XlReq} (hs : arrayOk s) : arrayOk (walkBegin m q s) :=
  either (array_setWalks hs) <| either (array_setWalkWait hs) <| either (array_walkFail hs) (aside_cnt arrayAside (array_onXlt (array_setWalks hs)))

theorem array_walkMiss {t : ThreadId} {src : XlSrc} (hs : arrayOk s) : arrayOk (walkMiss t src s) := by
  unfold walkMiss
  extract_lets h served
  split
  · exact hs
  · exact array_walkBegin hs

theorem array_walkNext {n : Nat} {h : Half} (hs : arrayOk s) : arrayOk (walkNext n h s) := by
  induction n generalizing s with
  | zero => exact hs
  | succ n ih =>
    unfold walkNext
    split
    · exact hs
    · refine either hs (ih ?_)
      split
      · exact array_setWalkWait hs
      · exact array_walkBegin (array_setWalkWait hs)

theorem array_walkLeave {h : Half} {id : Nat} (hs : arrayOk s) : arrayOk (walkLeave h id s) := array_walkNext (array_setWalks hs)

theorem array_walkEndFail {h : Half} {w : Walk} {code sub : Nat} {sa : Option Sa} (hs : arrayOk s) : arrayOk (walkEndFail h w code sub sa s) :=
  kept_settle arrayStable (array_walkLeave (kept_foldl (fun _ _ h => array_walkFail h) (array_forget hs) _))

theorem array_walkLeaf {h : Half} {w : Walk} {e : Nat} {ea : Sa} (hs : arrayOk s) : arrayOk (walkLeaf h w e ea s) := by
  unfold walkLeaf
  extract_lets size x good s1 s2
  have h1 : arrayOk s1 := either (array_tlbFill hs) hs
  have h2 : arrayOk s2 := kept_foldl (fun _ _ h => either (array_walkGive h) (array_walkFail h)) h1 _
  exact kept_settle arrayStable (array_walkLeave h2)

theorem array_walkRead {h : Half} {w : Walk} (hs : arrayOk s) : arrayOk (walkRead h w s) := by
  have hfail {u : State} {c sub : Nat} {a : Option Sa} (hu : arrayOk u) : arrayOk (walkEndFail h w c sub a u) := array_walkEndFail hu
  unfold walkRead
  extract_lets ea
  refine either (hfail hs) ?_
  split
  · exact hfail hs
  · extract_lets home g
    refine either (hfail hs) ?_
    have hg : arrayOk g.2 := array_gather hs
    split
    · exact hg
    · extract_lets a e
      clear_value a e
      exact either (hfail hg) <| either (hfail hg) <| either (hfail hg) <| either (array_walkLeaf hg) (array_setWalks hg)

theorem array_invStart {i : XInv} (hs : arrayOk s) : arrayOk (invStart i s) := by
  unfold invStart
  extract_lets mark ws ts j s1 s2
  have hmark (h : Half) (u : State) (hu : arrayOk u) : arrayOk (mark h u) := by
    simp only [mark]
    exact array_setWalks hu
  have h1 : arrayOk s1 := hmark _ _ (hmark _ _ hs)
  have h2 : arrayOk s2 := array_keepTlb (array_keepTlb h1)
  exact array_onXlt h2

theorem array_xltInv {part : Part} {v : BitVec 64} (hs : arrayOk s) : arrayOk (xltInv part v s) :=
  either (array_onXlt hs) (array_invStart (array_onXlt hs))

/-! ## Ends of a stream's units -/

theorem array_streamDone {t : ThreadId} {i : Fin 2} (hs : arrayOk s) : arrayOk (streamDone t i s) :=
  array_haltCheck (array_swaitCheck (array_setThr hs))

theorem array_streamReach {t : ThreadId} {i : Fin 2} {pva : Nat} {need : Rights} {kind line : Nat} (hs : arrayOk s) :
    arrayOk (streamReach t i pva need kind line s).2 := by
  unfold streamReach
  extract_lets th x a mine held fault r
  have hfault (f : FaultInfo) (u : State) (hu : arrayOk u) : arrayOk (fault f u) := by
    simp only [fault]
    exact either (array_blockFault hu) (array_streamFault (array_dropFlight hu))
  have hr : arrayOk r.2 := array_reach hs
  clear_value fault r
  split
  · exact aside_modThr arrayAside hr
  · exact aside_modThr arrayAside hr
  · exact hfault _ _ hr
  · exact hfault _ _ hr

theorem array_streamDst {t : ThreadId} {i : Fin 2} {d : SDesc} {e kind line : Nat} (hs : arrayOk s) : arrayOk (streamDst t i d e kind line s).2 := by
  unfold streamDst
  split
  · extract_lets sa
    split
    · exact hs
    · exact array_streamFault (array_dropFlight hs)
    · exact hs
  · exact array_streamReach hs

theorem array_putFlight {t : ThreadId} {i : Fin 2} {f : Flight} (hs : arrayOk s) : arrayOk (putFlight t i f s) := aside_modThr arrayAside hs

theorem array_unitEnds {t : ThreadId} {i : Fin 2} {d : SDesc} {u : Nat} (hs : arrayOk s) : arrayOk (unitEnds t i d u s) := by
  unfold unitEnds
  extract_lets e step s1
  have hstep (p : Flight → Bool) (r : Option (Space × Sa) × State) (put : Flight → Sa × Half → Flight) (v : State) (hv : arrayOk v)
      (hr : arrayOk r.2) : arrayOk (step p r put v) := by
    simp only [step]
    split
    · exact hv
    · refine either hv ?_
      split
      · exact hr
      · exact array_putFlight hr
  clear_value step
  have h1 : arrayOk s1 := hstep _ _ _ _ hs (array_streamReach hs)
  exact hstep _ _ _ _ h1 (array_streamDst h1)


end

end Sys2Proof.Machine
end


section
/-! PROOFS. The canonical form of the array's bytes (O5), continued: units of streams, patrol, partition resets and self-test. -/

namespace Sys2Proof.Machine

open Sys2Proof.Safety

section
-- Many short lemmas that cite one another: elaborating them side by side only makes threads wait on threads.
set_option Elab.async false

variable {s : State}

/-! ## Check tags and units of a stream -/

theorem array_sample {h : Half} (hs : arrayOk s) : arrayOk (sample h s).2 := array_onInteg hs

theorem array_tagRecord {source : Nat} {h : Half} {p : Part} {sa : Sa} {expect actual : BitVec 32} {master : Nat} {simulated : Bool}
    (hs : arrayOk s) : arrayOk (tagRecord source h p sa expect actual master simulated s) :=
  kept_writeRec arrayStable (aside_cnt arrayAside (array_onInteg hs))

theorem array_askEntry {t : ThreadId} {i : Fin 2} {d : SDesc} {k low : Nat} {need : Rights} {op : LineOp} {c : Consumer} (hs : arrayOk s) :
    arrayOk (askEntry t i d k low need op c s).2 := by
  unfold askEntry
  refine eitherSnd hs ?_
  extract_lets r
  have hr : arrayOk r.2 := array_streamReach hs
  split
  · exact hr
  · exact array_askAll hr

theorem array_entryPoison {t : ThreadId} {i : Fin 2} {d : SDesc} {k low : Nat} {x : LineRes} (hs : arrayOk s) :
    arrayOk (entryPoison t i d k low x s) :=
  array_blockFault hs

theorem array_judgeBlock {t : ThreadId} {i : Fin 2} {d : SDesc} {k low b : Nat} {sa : Sa} {rs : List (Nat × LineReq)} {xs : List LineRes}
    {en : LineRes} (hs : arrayOk s) : arrayOk (judgeBlock t i d k low b sa rs xs en s).2 := by
  unfold judgeBlock
  extract_lets th h base fault want got s1
  have hfault (code : Nat) (u : State) (hu : arrayOk u) : arrayOk (fault code u) := by
    simp only [fault]
    exact array_blockFault hu
  have h1 : arrayOk s1 := aside_cnt arrayAside hs
  clear_value fault s1
  exact eitherSnd (hfault _ _ hs) <| eitherSnd (array_entryPoison hs) <|
    eitherSnd (aside_modThr arrayAside h1) (hfault _ _ (array_tagRecord h1))

theorem array_verifyBlock {t : ThreadId} {i : Fin 2} {d : SDesc} {u : Nat} {sa : Sa} {home : Half} (hs : arrayOk s) :
    arrayOk (verifyBlock t i d u sa home s).2 := by
  unfold verifyBlock
  extract_lets th x h e b k c low mark r s1 rs en g
  have hmark (f : Stream → Stream) (u : State) (hu : arrayOk u) : arrayOk (mark f u) := by
    simp only [mark]
    exact aside_modThr arrayAside hu
  clear_value mark
  have hr : arrayOk r.2 := by
    simp only [r]
    exact eitherSnd hs (array_sample hs)
  have h1 : arrayOk s1 := either hr (hmark _ _ hr)
  have hen : arrayOk en.2 := array_askEntry (array_askAll h1)
  have hg : arrayOk g.2 := array_collect hen
  clear_value r en g
  refine eitherSnd hs (eitherSnd hs (eitherSnd (aside_cnt arrayAside (hmark _ _ hr)) (eitherSnd (kept_settle arrayStable hen) ?_)))
  split
  · exact array_judgeBlock (array_forget hg)
  · exact hg

theorem array_endCheck {t : ThreadId} {i : Fin 2} {d : SDesc} (hs : arrayOk s) : arrayOk (endCheck t i d s) := either (array_streamDone hs) hs

theorem array_tagUnit {t : ThreadId} {i : Fin 2} {d : SDesc} {k : Nat} (hs : arrayOk s) : arrayOk (tagUnit t i d k s) := by
  unfold tagUnit
  extract_lets th x
  split
  · exact hs
  · extract_lets c
    refine either hs (either (array_stopCheck (array_forget hs)) ?_)
    split
    · exact hs
    · extract_lets r s1 s2 xs v en s3
      have hr : arrayOk r.2 := by
        simp only [r]
        exact eitherSnd hs (array_streamDst hs)
      have h1 : arrayOk s1 := by
        simp only [s1]
        split
        · exact hr
        · exact array_askAll hr
      have h2 : arrayOk s2 := kept_settle arrayStable h1
      have hen : arrayOk en.2 := array_askEntry h2
      have h3 : arrayOk s3 := kept_settle arrayStable hen
      clear_value s1 s2 en s3
      refine either (kept_settle arrayStable h1) (either h2 ?_)
      split
      · exact either (array_stopCheck (array_forget h3)) h3
      · exact either (array_entryPoison (array_forget h3)) (array_stopCheck (array_endCheck (aside_modThr arrayAside (array_forget h3))))

theorem array_meltSource {t : ThreadId} {sa : Sa} {home : Half} {x : Option LineRes} (hs : arrayOk s) : arrayOk (meltSource t sa home x s) := by
  unfold meltSource
  extract_lets r
  split
  · exact either hs (kept_markLine arrayStable hs)
  · exact hs

theorem array_forgetUnit {t : ThreadId} {i : Fin 2} {u : Nat} (hs : arrayOk s) : arrayOk (forgetUnit t i u s) := array_forget (array_forget hs)

theorem array_unitDone {t : ThreadId} {i : Fin 2} {d : SDesc} {u : Nat} {sa : Sa} {home : Half} (hs : arrayOk s) :
    arrayOk (unitDone t i d u sa home s) := by
  unfold unitDone
  extract_lets th x s1 s2 s3
  have h1 : arrayOk s1 := array_dropFlight (array_forgetUnit hs)
  have h2 : arrayOk s2 := either (array_meltSource h1) h1
  have h3 : arrayOk s3 := aside_cnt arrayAside h2
  exact array_stopCheck (array_endCheck (aside_modThr arrayAside h3))

theorem array_dropUnit {t : ThreadId} {i : Fin 2} {d : SDesc} {u : Nat} (hs : arrayOk s) : arrayOk (dropUnit t i d u s) :=
  have h1 := array_dropFlight (array_forgetUnit hs)
  either (array_forget h1) h1

theorem array_unitMove {t : ThreadId} {i : Fin 2} {d : SDesc} {u : Nat} {src dst : Sa × Half} (hs : arrayOk s) :
    arrayOk (unitMove t i d u src dst s) := by
  unfold unitMove
  extract_lets th h e n poison c g
  have hpoison (pva kind : Nat) (sa : Sa) (u : State) (hu : arrayOk u) : arrayOk (poison pva kind sa u) := by
    simp only [poison]
    exact array_streamFault (array_dropUnit hu)
  have hg : arrayOk g.2 := array_collect hs
  clear_value poison g
  split
  · exact hg
  · next v c' _ xs _ =>
    extract_lets x m g'
    have hv : arrayOk v.2 := array_verifyBlock hg
    have hg' : arrayOk g'.2 := array_collect hv
    clear_value v g'
    refine either (hpoison _ _ _ _ hg) (either (either (array_stopCheck (array_dropUnit hv)) hv) ?_)
    split
    · exact hg'
    · exact either (hpoison _ _ _ _ hg') (array_unitDone hg')

theorem array_unitRun {t : ThreadId} {i : Fin 2} {d : SDesc} {u : Nat} (hs : arrayOk s) : arrayOk (unitRun t i d u s) := by
  unfold unitRun
  extract_lets s1
  have h1 : arrayOk s1 := array_unitEnds hs
  split
  · exact array_unitMove h1
  · exact h1

/-! ## Patrol -/

theorem array_patrolMismatch {key : Nat} {got : BitVec 32} (hs : arrayOk s) : arrayOk (patrolMismatch key got s) := by
  unfold patrolMismatch
  extract_lets m h line drop s1 r s2
  have h2 : arrayOk s2 := kept_writeRec arrayStable (array_onInteg hs)
  exact either (kept_startInv arrayStable h2) (array_poisonCreated (aside_setMeta arrayAside h2))

theorem array_patrolLine {key : Nat} (hs : arrayOk s) : arrayOk (patrolLine s key) :=
  have h1 := kept_countOps arrayStable hs
  either hs (either h1 (array_patrolMismatch h1))

theorem array_patrolRow {pos : Nat} (hs : arrayOk s) : arrayOk (patrolRow pos s) := by
  unfold patrolRow
  extract_lets t u
  have ht : arrayOk t := kept_checkRow arrayStable hs
  have hu : arrayOk u := kept_foldl (fun _ _ h => array_patrolLine h) (kept_chargeOwn arrayStable ht) _
  exact either ht (either hu (kept_settle arrayStable hu))

theorem array_patrolEnd {h : Half} (hs : arrayOk s) : arrayOk (patrolEnd h s) := kept_modLoopMem arrayStable (array_onTst (array_onInteg hs))

theorem array_writeInj {v : BitVec 32} (hs : arrayOk s) : arrayOk (writeInj v s) := array_onInteg hs

/-! ## Partition resets -/

theorem array_prstGo {part : Part} (hs : arrayOk s) : arrayOk (prstGo part s) := either (array_onInteg hs) (kept_prstTrigger arrayStable hs)

theorem array_prstDiscard {p : Part} {k : Nat} (hs : arrayOk s) : arrayOk (prstDiscard p k s) := aside_cnt arrayAside (array_onInteg hs)

theorem array_prstThread {p : Part} {i : Nat} (hs : arrayOk s) : arrayOk (prstThread p s i) := by
  unfold prstThread
  split
  · extract_lets t th
    refine either hs ?_
    split
    · exact hs
    · exact hs
    · exact hs
    · exact array_freeThread (array_setTq hs)
    · exact either hs (array_forgetInstr (aside_modThr arrayAside hs))
  · exact hs

theorem array_prstWrites {p : Part} (hs : arrayOk s) : arrayOk (prstWrites p s) :=
  array_prstDiscard (kept_foldl (fun _ _ h => kept_answerReq arrayStable h) (array_onCache hs) _)

theorem array_prstAddls {p : Part} (hs : arrayOk s) : arrayOk (prstAddls p s) :=
  array_onAtu (kept_foldl (fun _ _ h => array_prstDiscard (aside_cnt arrayAside (array_onCache (kept_setAtuHalf arrayStable h)))) hs _)

theorem array_prstStart {p : Part} {cause : BitVec 2} (hs : arrayOk s) : arrayOk (prstStart p cause s) := by
  unfold prstStart
  extract_lets s1 s2 s3 s4 s5 s6 s7
  have h2 : arrayOk s2 := by
    simp only [s2]
    refine kept_foldl (fun u h hu => kept_foldl (fun v w hv => ?_) hu _) (array_onInteg hs) _
    exact either (aside_endWaiter arrayAside hv) hv
  have h3 : arrayOk s3 := kept_foldl (fun _ _ h => array_prstThread h) h2 _
  have h6 : arrayOk s6 := array_prstAddls (array_prstWrites (array_onSeq (array_modSp h3)))
  have h7 : arrayOk s7 := by
    simp only [s7]
    exact kept_foldl (fun _ _ h => array_keepTlb (array_setWalks h)) h6 _
  exact kept_settle arrayStable h7

theorem array_prstEnd {p : Part} {i : Nat} (hs : arrayOk s) : arrayOk (prstEnd p s i) := by
  unfold prstEnd
  split
  · exact either (array_endKilled (aside_modThr arrayAside hs)) hs
  · exact hs

/-! ## Test steps and replaced targets -/

theorem array_genBump {t : State} (ht : arrayOk t) : arrayOk (genBump s t) := kept_foldl (fun _ _ h => either h (array_onPwr h)) ht _

theorem array_stepStart {h : Half} {t : Fin 22} {forced : Bool} (hs : arrayOk s) : arrayOk (stepStart h t forced s) :=
  aside_cnt arrayAside (aside_setTgt arrayAside hs)

theorem array_popWait {h : Half} (hs : arrayOk s) : arrayOk (popWait h s) := by
  unfold popWait
  exact array_onRep hs

theorem array_failTgt {h : Half} {t : Nat} (hs : arrayOk s) : arrayOk (failTgt h t s) := aside_setTgt arrayAside hs

theorem array_takeSpare {h : Half} {i : Nat} (hs : arrayOk s) : arrayOk (takeSpare h i s) := aside_setTgt arrayAside hs

theorem array_coreOut {k : Nat} (hs : arrayOk s) : arrayOk (coreOut k s) :=
  aside_epochFinish arrayAside arrayStable (kept_roDropCore arrayStable (array_onCch (array_onGlb (array_onRep hs))))

theorem array_repairOne {h : Half} {t : Nat} (hs : arrayOk s) : arrayOk (repairOne h t s) := by
  unfold repairOne
  extract_lets type s1
  have h1 : arrayOk s1 := kept_setTstStat arrayStable hs
  clear_value s1
  split
  · exact either (array_queueRepair (array_takeSpare (array_failTgt h1))) (array_queueRepair (array_onRep h1))
  · have h2 := array_queueRepair (r := Repair.mk0 7 h t 0xFF) (array_failTgt (h := h) (t := t) h1)
    exact either (array_coreOut h2) (either h2 (array_onRep h2))

theorem array_repairs {h : Half} {n : Nat} (hs : arrayOk s) : arrayOk (repairs h n s) := by
  induction n generalizing s with
  | zero => exact hs
  | succ n ih =>
    unfold repairs
    split
    · exact hs
    · exact either hs (ih (array_popWait (array_repairOne hs)))

theorem array_failTarget {h : Half} {t : Fin 22} {step source : Nat} {expect actual : BitVec 32} {last : BitVec 64} {ver : BitVec 32}
    (hs : arrayOk s) : arrayOk (failTarget h t step source expect actual last ver s) := by
  unfold failTarget
  extract_lets x wasSpare s1 s2 r s3
  have h1 : arrayOk s1 := kept_setTstStat arrayStable (aside_setTgt arrayAside hs)
  exact either (kept_writeRec arrayStable (array_queueRepair (array_failTgt h1))) <|
    either (kept_fatalWith arrayStable (array_failTgt h1)) (array_repairs (array_onRep (kept_writeRec arrayStable h1)))

theorem array_coreResume {k : Nat} (hs : arrayOk s) : arrayOk (coreResume k s) := by
  unfold coreResume
  extract_lets ps
  refine either hs (kept_foldl (fun u i hu => ?_) hs _)
  extract_lets s1
  have h1 : arrayOk s1 := kept_foldl (fun _ _ h => array_prstThread h) hu _
  split
  · exact array_haltCheck h1
  · exact h1

theorem array_swapIn {h : Half} {c sp : Nat} {crcOk : BitVec 4} (hs : arrayOk s) : arrayOk (swapIn h c sp crcOk s) := by
  unfold swapIn
  extract_lets k j l s1 s2 s3 s4
  have h1 : arrayOk s1 := by
    refine kept_foldl (fun u i hu => ?_) hs _
    split
    · exact either hu (either (array_moveThread hu) (array_endKilled (array_moveThread hu)))
    · exact hu
  have h3 : arrayOk s3 := array_coreOut (array_onRep (array_takeSpare (array_failTgt h1)))
  exact aside_epochFinish arrayAside arrayStable (kept_roDropCore arrayStable (array_queueRepair (kept_setTstStat arrayStable (array_onGlb h3))))

theorem array_tstSwap {h : Half} {t : Nat} (hs : arrayOk s) : arrayOk (tstSwap h t s) := by
  unfold tstSwap
  split
  · exact either (kept_setTstStat arrayStable hs) (array_failTarget (aside_setTgt arrayAside hs))
  · exact kept_setTstStat arrayStable hs

/-! ## The pattern pack, calved and retired banks -/

theorem array_packResult {n : Nat} (hs : arrayOk s) : arrayOk (packResult n s) := array_onTst hs

theorem array_packTake {b : List Byte} {es : List (Nat × Nat × BitVec 32)} (hs : arrayOk s) : arrayOk (packTake b es s) := by
  unfold packTake
  extract_lets p s1
  have h1 : arrayOk s1 := by
    simp only [s1]
    refine kept_foldl (fun u h hu => kept_foldl (fun v t hv => ?_) hu _) hs _
    exact aside_setTgt arrayAside hv
  exact array_onTst h1

theorem array_packLoad (hs : arrayOk s) : arrayOk (packLoad s) := either (kept_setTstStat arrayStable hs) (array_onTst hs)

theorem array_packStep (hs : arrayOk s) : arrayOk (packStep s) := by
  unfold packStep
  extract_lets sa
  split
  · exact array_packResult (array_forget hs)
  · extract_lets g
    have hg : arrayOk g.2 := array_collect hs
    split
    · exact hg
    · extract_lets head n
      have hbad (c : Nat) : arrayOk (packResult c (forget .pack g.2)) := array_packResult (array_forget hg)
      refine either (hbad 5) (either (hbad 1) ?_)
      split
      · exact hbad 5
      · extract_lets g'
        have hg' : arrayOk g'.2 := array_collect hg
        split
        · exact hg'
        · extract_lets b es r
          have h2 : arrayOk (forget .pack g'.2) := array_forget hg'
          exact either (array_packResult h2) (array_packResult (either (array_packTake h2) h2))

theorem array_calveGo {k b : Nat} (hs : arrayOk s) : arrayOk (calveGo k b s) := by
  unfold calveGo
  refine either (kept_setTstStat arrayStable hs) ?_
  split
  · exact kept_setTstStat arrayStable hs
  · exact array_calveStart hs

theorem array_useBank {k spare : Nat} (hs : arrayOk s) : arrayOk (useBank k spare s) := array_onTst hs

theorem array_calveSwitch {k : Nat} {c : Calve} (hs : arrayOk s) : arrayOk (calveSwitch k c s) :=
  have h1 := array_queueRepair (kept_writeRec arrayStable (kept_setTstStat arrayStable hs))
  kept_calveScan arrayStable (kept_setCalve arrayStable (array_useBank (array_onTst h1)))

theorem array_calveAbort {k : Nat} {c : Calve} (hs : arrayOk s) : arrayOk (calveAbort k c s) := by
  unfold calveAbort
  extract_lets r0 r s1
  have h1 : arrayOk s1 := array_useBank (array_queueRepair (kept_writeRec arrayStable hs))
  split
  · exact kept_setCalve arrayStable h1
  · exact kept_calveScan arrayStable (array_onTst (kept_setCalve arrayStable h1))

theorem array_retireRec {r : Nat} {p : Option Part} (hs : arrayOk s) : arrayOk (retireRec r p s) := kept_writeRec arrayStable hs

theorem array_retireCache {r : Nat} (hs : arrayOk s) : arrayOk (retireCache r s) :=
  kept_foldl (fun _ _ h => either h (either (kept_startInv arrayStable h) (kept_flushNow arrayStable h))) (array_onTables hs) _

theorem array_retirePinned {r : Nat} (hs : arrayOk s) : arrayOk (retirePinned r s) := by
  unfold retirePinned
  extract_lets bs owned s1 s2 owners s3
  have h2 : arrayOk s2 := array_onBuf (kept_foldl (fun _ _ h => array_subUsed h) hs _)
  have h3 : arrayOk s3 := either (array_retireRec h2) (kept_foldl (fun _ _ h => array_retireRec h) h2 _)
  exact array_onCache h3

theorem array_retireOff {r : Nat} (hs : arrayOk s) : arrayOk (retireOff r s) :=
  array_queueRepair (array_setRegion (either (array_retirePinned hs) (array_retireRec (array_onTables hs))))

theorem array_flashProgram {a : Nat} {bs : List Byte} (hs : arrayOk s) : arrayOk (flashProgram a bs s) := array_onBoot hs

theorem array_flashErase {a n : Nat} (hs : arrayOk s) : arrayOk (flashErase a n s) := array_onBoot hs

theorem array_programRepair {r : Repair} (hs : arrayOk s) : arrayOk (programRepair r s) := by
  unfold programRepair
  extract_lets off len
  split
  · exact array_persistFail hs
  · exact either (array_flashProgram (array_onTst hs)) (array_flashProgram (array_flashErase (array_onTst hs)))


end

end Sys2Proof.Machine
end


section
/-! PROOFS. The canonical form of the array's bytes (O5), continued: power domains, resets and the boot loader. -/

namespace Sys2Proof.Machine

open Sys2Proof.Safety

section
-- Many short lemmas that cite one another: elaborating them side by side only makes threads wait on threads.
set_option Elab.async false

variable {s : State}

/-! ## Power domains -/

theorem array_lagOut {us : List Nat} (hs : arrayOk s) : arrayOk (lagOut us s) := aside_epochFinish arrayAside arrayStable (array_onGlb hs)

theorem array_discardReqs {gone : LineReq → Bool} (hs : arrayOk s) : arrayOk (discardReqs gone s) :=
  kept_foldl (fun _ _ h => kept_answerReq arrayStable h) (array_onCache hs) _

theorem array_waiterLost {h : Half} {w : Waiter} (hs : arrayOk s) : arrayOk (waiterLost h w s) := by
  unfold waiterLost
  split
  · exact array_raise (aside_setWaitQ arrayAside (array_subUsed hs))
  · exact aside_endWaiter arrayAside hs

theorem array_atomLost {a : Atom} (hs : arrayOk s) : arrayOk (atomLost a s) := by
  unfold atomLost
  split
  · exact kept_respond arrayStable hs
  · exact kept_lostResult arrayStable hs
  · exact hs

theorem array_domainLost {d : Nat} (hs : arrayOk s) : arrayOk (domainLost d s) := by
  unfold domainLost
  split
  · extract_lets h s1 s2 s3 s4
    have h1 : arrayOk s1 := by
      simp only [s1]
      refine kept_foldl (fun u i hu => ?_) hs _
      split
      · exact array_freeThread (array_withdrawAlloc hu)
      · exact hu
    have h2 : arrayOk s2 := by
      simp only [s2]
      exact kept_foldl (fun _ _ h => kept_roDropCore arrayStable (kept_startClear arrayStable h)) h1 _
    have h4 : arrayOk s4 := array_setWalkWait (array_setWalks (array_keepTlb (array_onSeq h2)))
    exact array_lagOut h4
  split
  · exact array_lagOut (array_onCache (array_discardReqs hs))
  split
  · extract_lets h s1 x s2 s3 s4 s5
    have h1 : arrayOk s1 := kept_foldl (fun _ _ h => array_waiterLost h) hs _
    have h3 : arrayOk s3 :=
      kept_foldl (fun _ _ h => array_atomLost h) (kept_foldl (fun _ _ h => kept_answerAddl arrayStable h) (kept_setAtuHalf arrayStable h1) _) _
    have h5 : arrayOk s5 := array_onCache (array_discardReqs h3)
    exact array_lagOut (aside_setWaitQ arrayAside h5)
  · extract_lets ps z keep s1
    have h1 : arrayOk s1 := array_discardReqs (array_onAtu hs)
    refine kept_foldl (fun u n hu => ?_) h1 _
    have h2 : arrayOk (setLink (putPort u n { Port.zero with en := (port u n).en, gen := (port u n).gen }) n LinkSt.zero) :=
      kept_setLink arrayStable (aside_putPort arrayAside hu)
    exact either (kept_ackPort arrayStable (kept_loseAnswers arrayStable h2)) (kept_poolResend arrayStable (kept_offersEnd arrayStable h2))

theorem array_thermTrip : arrayOk (thermTrip s) := by
  unfold thermTrip
  extract_lets s1 s2 s3 z cached s4
  have h4 : arrayOk s4 := show Memory.wf [] = true from rfl
  clear_value s4
  exact array_onBoot (array_onPwr h4)

theorem array_warmRequest {byPin : Bool} (hs : arrayOk s) : arrayOk (warmRequest byPin s) := either (array_onPwr hs) hs

theorem array_rstCmd {v : BitVec 32} (hs : arrayOk s) : arrayOk (rstCmd v s) := either (array_warmRequest hs) hs

theorem array_domResult {d code : Nat} (hs : arrayOk s) : arrayOk (domResult d code s) := array_onPwr hs

theorem array_domEnd {d code : Nat} (hs : arrayOk s) : arrayOk (domEnd d code s) := array_domResult (array_onPwr hs)

theorem array_railUp {d : Nat} (hs : arrayOk s) : arrayOk (railUp d s) := either (aside_avsWrite arrayAside (aside_setLoop arrayAside hs)) hs

theorem array_setCmd {d : Nat} {on force : Bool} {regions : List (Nat × BitVec 2)} (hs : arrayOk s) : arrayOk (setCmd d on force regions s) :=
  array_onPwr hs

theorem array_forceDisc {n : Nat} (hs : arrayOk s) : arrayOk (forceDisc n s) := aside_cnt arrayAside (array_onPwr hs)

theorem array_cutOff {k : Nat} (hs : arrayOk s) : arrayOk (cutOff k s) := by
  unfold cutOff
  extract_lets rs dirty blocks s1 s2 s3 s4
  have h2 : arrayOk s2 := kept_foldl (fun _ _ h => either (array_subUsed h) h) (array_forceDisc hs) _
  have h4 : arrayOk s4 := kept_foldl (fun _ _ h => either (aside_setMeta arrayAside h) h) (array_onBuf h2) _
  exact kept_foldl (fun _ _ h => either h (array_setRegion h)) h4 _

theorem array_domCmd {d : Nat} {on force : Bool} {gen : BitVec 16} (hs : arrayOk s) : arrayOk (domCmd d on force gen s) :=
  either (array_domResult hs) <| either (array_setCmd (aside_setDom arrayAside (array_railUp hs))) <|
    either (array_setCmd (aside_setDom arrayAside hs)) (either (array_domResult hs) (array_setCmd (aside_setDom arrayAside (array_cutOff hs))))

theorem array_restoreRegion {e : Nat × BitVec 2} (hs : arrayOk s) : arrayOk (restoreRegion s e) :=
  have h1 := array_setRegion (array_wipeRegion hs)
  either (aside_openRegion arrayAside h1) h1

theorem array_unitCmd {u op : Nat} {gen : BitVec 16} (hs : arrayOk s) : arrayOk (unitCmd u op gen s) := by
  unfold unitCmd
  extract_lets done isPort isCore
  have hdone (c : Nat) (u : State) (hu : arrayOk u) : arrayOk (done c u) := array_onPwr hu
  clear_value done
  refine either (hdone _ _ hs) (either (hdone _ _ hs) (either (hdone _ _ hs) (either (hdone _ _ ?_) (hdone _ _ ?_))))
  · exact either (aside_setPortEn arrayAside arrayStable hs) <| either (aside_setPortEn arrayAside arrayStable hs) <|
      either (aside_enterRecal arrayAside hs) (kept_settle arrayStable (array_forceDown hs))
  · exact array_genBump (array_tstSwap hs)

/-! ## The boot loader -/

theorem array_leaveSlot {k : Slot} {code : Nat} (hs : arrayOk s) : arrayOk (leaveSlot k code s) := array_onBoot hs

theorem array_nextSlot {k : Slot} (hs : arrayOk s) : arrayOk (nextSlot k s) := either (array_enterRecovery hs) (array_onBoot hs)

theorem array_slotOrder (hs : arrayOk s) : arrayOk (slotOrder s) := by
  unfold slotOrder
  extract_lets go ca cb s1 s2
  have hgo (k : Slot) (u : State) (hu : arrayOk u) : arrayOk (go k u) := array_onBoot hu
  have h1 : arrayOk s1 := either hs (array_leaveSlot hs)
  have h2 : arrayOk s2 := either h1 (array_leaveSlot h1)
  clear_value go s2
  exact either (hgo _ _ hs) <| either (array_enterRecovery h2) <| either (hgo _ _ h2) <| either (hgo _ _ h2) <|
    either (hgo _ _ h2) (hgo _ _ h2)

theorem array_discoverFlash {f : Sfdp} (hs : arrayOk s) : arrayOk (discoverFlash f s).2 := eitherSnd (array_onBoot hs) (array_onBoot hs)

theorem array_baseTargets (hs : arrayOk s) : arrayOk (baseTargets s) := by
  unfold baseTargets
  extract_lets z one
  have hone (h : Half) (u : State) (hu : arrayOk u) : arrayOk (one h u) := by
    simp only [one]
    exact kept_foldl (fun _ _ h => aside_setTgt arrayAside h) hu _
  exact hone _ _ (hone _ _ (array_onTst hs))

theorem array_spareRepair {h : Half} {t i : Nat} (hs : arrayOk s) : arrayOk (spareRepair h t i s) := by
  unfold spareRepair
  refine either hs ?_
  have h1 := array_takeSpare (h := h) (i := i) (array_failTgt (h := h) (t := t) hs)
  exact either (array_onRep h1) h1

theorem array_applyRepair {r : Repair} (hs : arrayOk s) : arrayOk (applyRepair s r) := by
  unfold applyRepair
  extract_lets t i k
  have hfail := array_failTgt (h := r.half) (t := t) hs
  split
  · exact either (array_spareRepair hs) hs
  · exact either (array_spareRepair hs) hs
  · exact either (array_spareRepair hs) hs
  · exact either (array_onRep hs) hs
  · exact either (array_onTst hs) hs
  · exact either (array_setRegion hs) hs
  · exact either (either (array_onRep hfail) (either hfail (array_onRep hfail))) hs
  · exact either (either (array_onTst hs) hs) (either hfail hs)
  · exact hs

theorem array_startArea (hs : arrayOk s) : arrayOk (startArea s) := either hs (array_flashProgram (array_flashErase hs))

theorem array_bootRepairs {k : Slot} (hs : arrayOk s) : arrayOk (bootRepairs k s) := by
  unfold bootRepairs
  extract_lets s1 s2 s3 rs n
  have h2 : arrayOk s2 := kept_foldl (fun _ _ h => array_applyRepair h) (array_baseTargets hs) _
  exact kept_foldl (fun _ _ h => array_applyRepair h) (array_onTst (array_startArea h2)) _

theorem array_bootIdentity {k : Slot} (hs : arrayOk s) : arrayOk (bootIdentity k s) := by
  unfold bootIdentity
  extract_lets h ovr s1 s2 s3
  have h3 : arrayOk s3 := array_onLoops (array_onBoot (array_onGlb hs))
  exact either h3 (array_bootRepairs h3)

theorem array_loadGroups {g : List Byte} (hs : arrayOk s) : arrayOk (loadGroups g s) := by
  unfold loadGroups
  generalize List.range 16384 = entries
  generalize List.range 12288 = groups
  exact kept_foldl (fun _ _ h => array_setGown h) (kept_foldl (fun _ _ h => array_setGt h) hs entries) groups

theorem array_bootRegions {k : Slot} {u : State} (hs : arrayOk s) (hu : bootRegions k s = some u) : arrayOk u := by
  unfold bootRegions at hu
  extract_lets rs g live s1 s2 at hu
  have h1 : arrayOk s1 := kept_foldl (fun _ _ h => array_setRegion h) hs _
  have h2 : arrayOk s2 := array_loadGroups h1
  clear_value s2
  split at hu
  · cases hu
  split at hu
  · exact Option.some.inj hu ▸ kept_foldl (fun _ _ h => array_restoreRegion h) h2 _
  · cases hu

theorem array_warmSweep (hs : arrayOk s) : arrayOk (warmSweep s) := by
  unfold warmSweep
  extract_lets s1
  have h1 : arrayOk s1 := by
    simp only [s1]
    refine kept_foldl (fun u k hu => ?_) hs _
    split
    · exact hu
    · exact kept_foldl (fun _ _ h => array_restoreRegion h) (array_onSense hu) _
  exact kept_foldl (fun _ _ h => either (kept_clearLine arrayStable (kept_replicaLeft arrayStable h)) (aside_setMeta arrayAside h)) h1 _

theorem array_loadLoop {b : List Byte} {u : State} (hs : arrayOk s) (hu : loadLoop s b = some u) : arrayOk u := by
  unfold loadLoop at hu
  extract_lets n lo hi v hold old l s1 at hu
  have h1 : arrayOk s1 := array_onLoops (aside_setLoop arrayAside hs)
  clear_value s1
  split at hu
  · cases hu
  split at hu
  · exact Option.some.inj hu ▸ aside_avsWrite arrayAside h1
  · exact Option.some.inj hu ▸ h1

theorem array_bootLoops {k : Slot} {u : State} (hs : arrayOk s) (hu : bootLoops k s = some u) : arrayOk u := by
  unfold bootLoops at hu
  extract_lets b at hu
  split at hu
  · exact Option.some.inj hu ▸ hs
  split at hu
  · cases hu
  · exact kept_applyAll (fun _ _ _ h hu => array_loadLoop h hu) hs hu

theorem array_claimBlock {b : Nat} {u : State} (hs : arrayOk s) (hu : claimBlock s b = some u) : arrayOk u := by
  unfold claimBlock at hu
  extract_lets x at hu
  split at hu
  · cases hu
  split at hu
  · exact Option.some.inj hu ▸ hs
  split at hu
  · exact Option.some.inj hu ▸ array_addUsed (aside_setBlk arrayAside hs)
  · cases hu

theorem array_copyProgram {dest : Nat} {bs : List Byte} (hs : arrayOk s) : arrayOk (copyProgram dest bs s) := by
  unfold copyProgram
  generalize (bs.length + 127) / 128 = n
  exact kept_foldl (fun _ _ h => kept_storeLine arrayStable h) hs _

theorem array_applyImage {k : Slot} {u : State} (hs : arrayOk s) (hu : applyImage k s = some u) : arrayOk u := by
  have hdoms {v : State} (hv : arrayOk v) (l : List Nat) : arrayOk (l.foldl bootDom v) := kept_foldl (fun _ _ h => aside_bootDom arrayAside h) hv l
  unfold applyImage at hu
  split at hu
  · cases hu
  extract_lets s1 s2 s3 at hu
  have h2 : arrayOk s2 := aside_avsWrite arrayAside (aside_avsWrite arrayAside (array_bootIdentity hs))
  have h3 : arrayOk s3 := by
    simp only [s3]
    exact hdoms h2 _
  clear_value s3
  split at hu
  · cases hu
  next s4 hs4 =>
  have h4 : arrayOk s4 := by
    split at hs4
    · exact Option.some.inj hs4 ▸ array_warmSweep h3
    · exact array_bootRegions h3 hs4
  split at hu
  next s5 dest entry root size hs5 _ =>
    split at hu
    · cases hu
    next s6 hs6 =>
    split at hu
    · cases hu
    next s7 hs7 =>
    extract_lets s8 at hu
    have h7 : arrayOk s7 := aside_bootEpoch arrayAside arrayStable (aside_bootRegs arrayAside arrayStable (array_bootLoops h4 hs5) hs6) hs7
    have h8 : arrayOk s8 := by
      simp only [s8]
      exact hdoms h7 _
    clear_value s8
    split at hu
    · cases hu
    next s9 hs9 =>
      have h9 : arrayOk s9 := kept_applyAll (fun _ _ _ h hu => array_claimBlock h hu) h8 hs9
      rw [← Option.some.inj hu]
      exact array_onBoot (array_copyProgram h9)
  · cases hu


end

end Sys2Proof.Machine
end


section
/-! PROOFS. The canonical form of the array's bytes (O5), continued: registers, Svet, the mailbox, partners, and the bodies of instructions. -/

namespace Sys2Proof.Machine

open Sys2Proof.Safety

section
-- Many short lemmas that cite one another: elaborating them side by side only makes threads wait on threads.
set_option Elab.async false

variable {s : State}

/-! ## Registers -/

theorem array_snapAll (hs : arrayOk s) : arrayOk (snapAll s) := array_onCnt hs

theorem array_zeroAll (hs : arrayOk s) : arrayOk (zeroAll s) := array_onCnt hs

theorem array_cntCmd {v : BitVec 32} (hs : arrayOk s) : arrayOk (cntCmd v s) :=
  have h1 := either (array_snapAll hs) hs
  either (array_zeroAll h1) h1

theorem array_mbOutLen {n : BitVec 9} (hs : arrayOk s) : arrayOk (mbOutLen n s) := array_onMgt hs

theorem array_uartPop (hs : arrayOk s) : arrayOk (uartPop s).2 := by
  unfold uartPop
  refine eitherSnd hs ?_
  split
  · exact hs
  · exact array_onUart hs

theorem array_readEffect {r : Reg} (hs : arrayOk s) : arrayOk (readEffect r s) := by
  unfold readEffect
  split
  · exact array_onPwr hs
  · exact kept_setFaultQ arrayStable hs
  · exact array_onBuf hs
  · exact kept_setAtuHalf arrayStable hs
  · exact array_setTq hs
  · exact array_modSp hs
  · exact array_onInteg hs
  · exact array_onLog hs
  · exact array_onUart hs
  · exact array_uartPop hs
  · exact array_onMgt hs
  · exact array_onMgt hs
  · exact hs

theorem array_readWord {r : Reg} {w : Nat} {who : Requester} {part : Part} (hs : arrayOk s) : arrayOk (readWord r w who part s).2 := by
  unfold readWord
  split
  · exact eitherSnd (array_timeLow hs) (array_timeHigh hs)
  · exact array_readEffect hs

theorem array_ctlRead {who : Requester} {part : Part} {off n : Nat} (hs : arrayOk s) : arrayOk (ctlRead who part off n s).2.2 := by
  unfold ctlRead
  split
  · exact hs
  split
  · exact hs
  split
  · exact hs
  split
  · exact array_readEffect hs
  extract_lets lo
  have hlo : arrayOk lo.2 := by
    simp only [lo]
    split
    · exact array_readWord hs
    · exact hs
  clear_value lo
  split
  · exact array_readWord hlo
  · exact hlo

/-- A write of a register whose write is an act is one of thirteen; the other registers are stored. -/

theorem array_write32 {r : Reg} {v : BitVec 32} (hs : arrayOk s) : arrayOk (write32 r v s) := by
  by_cases hr : r.writeOnly = false
  · exact aside_write32 arrayAside arrayStable hr hs
  cases r
  case glbEpochCmd => exact either (aside_epochAdvance arrayAside arrayStable hs) hs
  case pwrRstCmd => exact array_rstCmd hs
  case pwrDomCmd => exact array_domCmd hs
  case pwrUnitCmd => exact array_unitCmd hs
  case cchPlowCmd => exact array_plowReg hs
  case bufRelease => exact array_releaseAll hs
  case intPrst => exact either (array_prstGo hs) hs
  case tstSwap => exact either (array_genBump (array_tstSwap hs)) hs
  case tstCalveCmd => exact either (array_calveGo hs) hs
  case tstPackCmd => exact either (array_packLoad hs) hs
  case mgtMbOutlen => exact array_mbOutLen hs
  case cntCmd => exact array_cntCmd hs
  case xltInv => exact hs
  all_goals exact absurd rfl hr

theorem array_write64 {r : Reg} {part : Part} {v : BitVec 64} (hs : arrayOk s) : arrayOk (write64 r part v s) := by
  by_cases hr : r.writeOnly = false
  · exact aside_write64 arrayAside hr hs
  cases r
  case xltInv => exact array_xltInv hs
  case glbEpochCmd | pwrRstCmd | pwrDomCmd | pwrUnitCmd | cchPlowCmd | bufRelease => exact hs
  case intPrst | tstSwap | tstCalveCmd | tstPackCmd | mgtMbOutlen | cntCmd => exact hs
  all_goals exact absurd rfl hr

theorem array_writeWord {r : Reg} {w : Nat} {part : Part} {v : BitVec 32} (hs : arrayOk s) : arrayOk (writeWord r w part v s) :=
  either (array_write64 hs) (array_write32 hs)

theorem array_ctlStore {part : Part} {x : CtlWord} {v : BitVec 32} {a : Nat × State} (ha : arrayOk a.2) : arrayOk (ctlStore part x v a).2 :=
  eitherSnd (array_writeWord ha) ha

theorem array_ctlWrite {part : Part} {off n : Nat} {v : BitVec 64} (hs : arrayOk s) : arrayOk (ctlWrite part off n v s).2 := by
  unfold ctlWrite
  split
  · exact hs
  refine eitherSnd hs (eitherSnd hs (eitherSnd hs ?_))
  split
  · exact kept_settle arrayStable (array_write64 hs)
  split
  · exact kept_settle arrayStable (array_ctlStore hs)
  · exact kept_settle arrayStable (array_ctlStore (array_ctlStore hs))
  · exact hs

/-! ## The UART, Svet, the mailbox and the SMBus target -/

theorem array_uartSend {c : BitVec 9} (hs : arrayOk s) : arrayOk (uartSend c s) := either (array_onUart hs) hs

theorem array_countBadFrame (hs : arrayOk s) : arrayOk (countBadFrame s) := array_onMgt hs

theorem array_svetAnswer {cmd status : Nat} {data : List Byte} (hs : arrayOk s) : arrayOk (svetAnswer cmd status data s) := array_onMgt hs

theorem array_frameEnd (hs : arrayOk s) : arrayOk (frameEnd s) := by
  unfold frameEnd
  extract_lets bs s1
  have h1 : arrayOk s1 := array_onMgt hs
  split
  · exact array_countBadFrame h1
  · exact either (array_countBadFrame h1) h1

theorem array_lineEnd (hs : arrayOk s) : arrayOk (lineEnd s) :=
  have h1 := array_onMgt hs
  either (array_onMgt h1) h1

theorem array_svetChar {c : Byte} (hs : arrayOk s) : arrayOk (svetChar c s) := by
  unfold svetChar
  extract_lets put s1
  have hput (u : State) (hu : arrayOk u) : arrayOk (put u) := array_onMgt hu
  have h1 : arrayOk s1 := either (array_uartSend hs) hs
  clear_value put s1
  exact either (either (array_frameEnd hs) (hput _ hs)) <| either (array_lineEnd h1) (either (array_onMgt h1) (hput _ h1))

theorem array_uartNext (hs : arrayOk s) : arrayOk (uartNext s) := either (array_onUart hs) hs

theorem array_svet {cmd : Nat} {r : SvetRun} {lockable : Bool} {body : State → State} (hs : arrayOk s) (hbody : ∀ u, arrayOk u → arrayOk (body u)) :
    arrayOk (svet cmd r lockable body s) :=
  either hs (either (array_svetAnswer hs) (either (array_svetAnswer hs) (hbody s hs)))

theorem array_svetCnt {lockable : Bool} {first n : BitVec 8} {body : State → State} (hs : arrayOk s) (hbody : ∀ u, arrayOk u → arrayOk (body u)) :
    arrayOk (svetCnt lockable first n body s) :=
  array_svet hs fun u hu => either (array_svetAnswer hu) (hbody u hu)

theorem array_mbPut {bs : List Byte} (hs : arrayOk s) : arrayOk (mbPut bs s) := by
  unfold mbPut
  extract_lets f pad s1 s2 r
  have h2 : arrayOk s2 := array_onMgt (array_onMbox (array_freeVal hs))
  exact either h2 (either (kept_settle arrayStable (aside_noteStore arrayStable h2)) (array_onMgt h2))

theorem array_outClear (hs : arrayOk s) : arrayOk (outClear s) := array_onMgt hs

theorem array_smbSet {r : Option (List Byte)} (hs : arrayOk s) : arrayOk (smbSet r s) := array_onMgt hs

theorem array_smbRead {r : State → List Byte} (hs : arrayOk s) : arrayOk (smbRead r s) := either (array_smbSet hs) (array_smbSet hs)

theorem array_smbWrite {pecOk : Bool} {body : State → Bool × State} (hs : arrayOk s) (hbody : ∀ u, arrayOk u → arrayOk (body u).2) :
    arrayOk (smbWrite pecOk body s) :=
  either (array_smbSet hs) (either (array_smbSet (array_onMgt hs)) (array_smbSet (hbody s hs)))

/-! ## Partners -/

theorem array_partner {m : PHdr} {opc n : Nat} {f : State → State} (hs : arrayOk s) (hf : ∀ u, arrayOk u → arrayOk (f u)) :
    arrayOk (partner m opc n f s) :=
  have h1 := kept_takeRx arrayStable hs
  either hs (either (array_badFrame h1) (kept_settle arrayStable (hf _ h1)))

theorem array_partnerHeld {m : PHdr} {f : State → State} (hs : arrayOk s) (hf : ∀ u, arrayOk u → arrayOk (f u)) : arrayOk (partnerHeld m f s) :=
  either hs (either (array_badFrame (kept_takeRx arrayStable hs)) (kept_settle arrayStable (hf _ hs)))

theorem array_memReq {m : PHdr} {need : Rights} {op : LineOp} (hs : arrayOk s) : arrayOk (memReq m need op s) := by
  unfold memReq
  split
  · exact array_reply hs
  · exact kept_enqueue arrayStable hs

theorem array_bellWrite {part : Part} {off n : Nat} {v : BitVec 64} (hs : arrayOk s) : arrayOk (bellWrite part off n v s).2 :=
  eitherSnd hs (eitherSnd (array_bellTail hs) (eitherSnd (array_bellResume hs) (array_bellDiscard hs)))

theorem array_devRead {who : Requester} {part : Part} {x : Space} {n : Nat} (hs : arrayOk s) : arrayOk (devRead who part x n s).2.2 := by
  unfold devRead
  split
  · exact array_ctlRead hs
  · exact hs
  · exact hs

theorem array_devWrite {part : Part} {x : Space} {n : Nat} {v : BitVec 64} (hs : arrayOk s) : arrayOk (devWrite part x n v s).2 := by
  unfold devWrite
  split
  · exact array_ctlWrite hs
  · exact array_bellWrite hs
  · exact hs

theorem array_readSector {m : PHdr} {melt : Bool} (hs : arrayOk s) : arrayOk (readSector m melt s) := by
  unfold readSector
  split
  · exact array_reply hs
  refine either (array_memReq hs) (either (array_reply hs) ?_)
  split
  · exact array_reply hs
  · extract_lets r
    have hr : arrayOk r.2.2 := array_devRead hs
    exact either (kept_respond arrayStable hr) (array_reply hr)

theorem array_maskedWrite {m : PHdr} {mask : BitVec 32} {data : BitVec 256} (hs : arrayOk s) : arrayOk (maskedWrite m mask data s) := by
  unfold maskedWrite
  split
  · exact array_reply hs
  refine either ?_ (either (array_memReq hs) ?_)
  · split <;> exact array_reply hs
  split
  · exact array_reply hs
  refine either (array_reply hs) ?_
  split
  · exact array_reply hs
  · exact array_reply (array_devWrite hs)

theorem array_writeLines {m : PHdr} {base : Sa} {h : Half} {data : BitVec 32768} (hs : arrayOk s) : arrayOk (writeLines m base h data s) :=
  kept_foldl (fun _ _ h => kept_enqueue arrayStable h) (array_onLinks hs) _

theorem array_blockWrite {m : PHdr} {chk : Bool} {ctag : BitVec 32} {data : BitVec 32768} (hs : arrayOk s) :
    arrayOk (blockWrite m chk ctag data s) := by
  unfold blockWrite
  extract_lets base
  split
  · exact array_reply hs
  refine either (array_writeLines hs) ?_
  extract_lets r s1
  have hr : arrayOk r.2 := array_sample hs
  have h1 : arrayOk s1 := aside_cnt arrayAside hr
  exact either (array_writeLines (aside_cnt arrayAside hr)) (either (array_writeLines h1) (array_reply (array_tagRecord h1)))

theorem array_atomReq {m : PHdr} {k : AtomKind} {wide : Bool} {v cmp : BitVec 64} (hs : arrayOk s) : arrayOk (atomReq m k wide v cmp s) := by
  unfold atomReq
  refine either (array_reply hs) ?_
  split
  · exact array_reply hs
  · exact array_acceptAtom hs

theorem array_linkAtom {m : PHdr} {opc n : Nat} {k : AtomKind} {wide : Bool} {v cmp : BitVec 64} (hs : arrayOk s) :
    KeepsArray (linkAtom m opc n k wide v cmp s) := by
  unfold linkAtom
  split
  · exact keepsArray_answer (array_partner hs fun u hu => array_atomReq hu)
  · intro u hu
    cases hu

theorem array_addlReq {m : PHdr} {fmt : BitVec 3} {atag : BitVec 32} {data : BitVec 1024} (hs : arrayOk s) : arrayOk (addlReq m fmt atag data s) := by
  have hrefuse (st : Nat) : arrayOk (reply m st (takeRx m.port.val 0x18 m.tag s)) := array_reply (kept_takeRx arrayStable hs)
  unfold addlReq
  refine either (hrefuse _) ?_
  split
  · exact hrefuse _
  refine either (hrefuse _) ?_
  extract_lets x w wait r
  have hwait : arrayOk wait := kept_setAtuHalf arrayStable hs
  have hr : arrayOk r.2 := kept_decideAddl arrayStable hs
  clear_value wait r
  refine either hwait ?_
  split
  · exact hwait
  · exact kept_answerAddl arrayStable hr

theorem array_allocReq {m : PHdr} {sel : BitVec 2} {wait : Bool} (hs : arrayOk s) : arrayOk (allocReq m sel wait s) :=
  either (array_reply hs) (array_allocate hs)

theorem array_freeReq {m : PHdr} (hs : arrayOk s) : arrayOk (freeReq m s) := by
  unfold freeReq
  split
  · exact array_reply hs
  · exact array_freeBlock hs

/-! ## Bodies of instructions -/

theorem array_alu {t : ThreadId} {c : Instr} {f : TFields} {legal : Bool} {op : BitVec 64 → BitVec 64 → BitVec 64} (hs : arrayOk s) :
    KeepsArray (alu t c f legal op s) :=
  keepsArray_answer (array_instr hs fun _ _ hu => array_retire hu)

theorem array_jumpTo {t : ThreadId} {npc : BitVec 64} {g : Thread → Thread} (hs : arrayOk s) : arrayOk (jumpTo t npc g s) :=
  either (array_retire hs) (array_raise hs)

theorem array_askXl {t : ThreadId} {pva : BitVec 64} {need : Rights} {kind : Nat} {silent : Bool} (hs : arrayOk s) :
    arrayOk (askXl t pva need kind silent s) :=
  array_stall (array_missInstr hs)

theorem array_access {t : ThreadId} {pva : BitVec 64} {align : Nat} {need : Rights} {kind : Nat} {devOk : Space → Bool}
    {k : Space → Sa → State → State} (hs : arrayOk s) (hk : ∀ x sa u, arrayOk u → arrayOk (k x sa u)) :
    arrayOk (access t pva align need kind devOk k s) := by
  unfold access
  refine either (array_raise hs) ?_
  extract_lets th r
  have hr : arrayOk r.2 := array_reach hs
  split
  · exact array_askXl hr
  · exact array_raiseAny hr
  · exact hk _ _ _ hr

theorem array_devCause {t : ThreadId} {pva : BitVec 64} {sa : Sa} {kind st : Nat} (hs : arrayOk s) : arrayOk (devCause t pva sa kind st s) :=
  either (array_raise hs) (array_raise hs)

theorem array_issueLine {t : ThreadId} {x : Space} {sa : Sa} {pva : BitVec 64} {store : Bool} {dest : BitVec 5} {count : Nat} {viaRo : Bool}
    {op : LineOp} {g : Thread → Thread} (hs : arrayOk s) : arrayOk (issueLine t x sa pva store dest count viaRo op g s) :=
  kept_settle arrayStable (kept_enqueue arrayStable (array_retire (array_issueOut hs)))

theorem array_issueStore {t : ThreadId} {x : Space} {sa : Sa} {pva : BitVec 64} {mask : BitVec 128} {d : BitVec 1024} (hs : arrayOk s) :
    arrayOk (issueStore t x sa pva mask d s) := by
  unfold issueStore
  extract_lets r
  have hr : arrayOk r.2 := array_fetchAhead hs
  split
  · exact hr
  · exact array_issueLine hr

theorem array_constLoad {t : ThreadId} {f : TFields} {x : Space} {sa : Sa} {pva : BitVec 64} (hs : arrayOk s) :
    arrayOk (constLoad t f x sa pva s) := by
  unfold constLoad
  extract_lets k
  refine either (array_stall hs) ?_
  split
  · exact array_retire (array_roTouch hs)
  · exact array_issueLine (aside_cnt arrayAside hs)

theorem array_atomic {t : ThreadId} {c : Instr} {f : TFields} {legal : Bool} {k : AtomKind} {wide : Bool} {v cmp : Thread → BitVec 64}
    (hs : arrayOk s) : KeepsArray (atomic t c f legal k wide v cmp s) :=
  keepsArray_answer <| array_instr hs fun _ _ hu => array_access hu fun _ _ _ hv =>
    either (array_stall hv) (kept_settle arrayStable (array_acceptAtom (array_retire (array_issueOut hv))))

theorem array_addlIssue {t : ThreadId} {f : TFields} {th : Thread} {x : Space} {sa : Sa} (hs : arrayOk s) : arrayOk (addlIssue t f th x sa s) := by
  unfold addlIssue
  extract_lets tagged done tag r
  have hdone (st : Nat) (u : State) (hu : arrayOk u) : arrayOk (done st u) := by
    simp only [done]
    exact kept_settle arrayStable (array_retire hu)
  have hr : arrayOk r.2 := kept_decideAddl arrayStable hs
  clear_value done r
  refine either (hdone _ _ hs) ?_
  split
  · exact array_stall hr
  · exact hdone _ _ hr

theorem array_smovStart {t : ThreadId} {k : Nat} {d : BitVec 5} {desc : BitVec 512} (hs : arrayOk s) : arrayOk (smovStart t k d desc s) := by
  unfold smovStart
  extract_lets th st
  refine either (array_raise hs) (either (array_raise hs) ?_)
  split
  · exact array_retire hs
  · exact aside_modThr arrayAside (array_firstIssue hs)

theorem array_smovRead {t : ThreadId} {f : TFields} {pva : BitVec 64} {x : Space} {sa : Sa} (hs : arrayOk s) : arrayOk (smovRead t f pva x sa s) := by
  unfold smovRead
  extract_lets th h g
  have hg : arrayOk g.2 := array_roGather hs
  split
  · exact array_stall hg
  · exact either (array_raiseAny hg) (array_smovStart hg)

theorem array_streamStatus {t : ThreadId} {f : TFields} {st : Nat} {hi : BitVec 32} {g : Thread → Thread} (hs : arrayOk s) :
    arrayOk (streamStatus t f st hi g s) :=
  array_retire hs

theorem array_quiet_ {t : ThreadId} {pva : BitVec 64} {k : Space → Sa → State → State} (hs : arrayOk s)
    (hk : ∀ x sa u, arrayOk u → arrayOk (k x sa u)) : arrayOk (quiet_ t pva k s) := by
  unfold quiet_
  extract_lets th r
  have hr : arrayOk r.2 := array_reach hs
  split
  · exact array_askXl hr
  · exact array_retire hr
  · exact kept_settle arrayStable (hk _ _ _ (array_retire hr))

theorem array_hintLine {keep : Bool} {t : ThreadId} {x : Space} {sa : Sa} (hs : arrayOk s) : arrayOk (hintLine keep t x sa s) := array_postLine hs

theorem array_prefLine {t : ThreadId} {x : Space} {sa : Sa} (hs : arrayOk s) : arrayOk (prefLine t x sa s) := either hs (array_postLine hs)

theorem array_plowIssue {t : ThreadId} {f : TFields} {user : Option Part} {a0 a1 : BitVec 64} (hs : arrayOk s) :
    arrayOk (plowIssue t f user a0 a1 s) :=
  array_streamStatus (array_plowAccept hs)

theorem array_plowPva {t : ThreadId} {f : TFields} {th : Thread} (hs : arrayOk s) : arrayOk (plowPva t f th s) := by
  unfold plowPva
  extract_lets pva n r
  have hr : arrayOk r.2 := array_xlook hs
  refine either (array_raise hs) (either (array_raise hs) ?_)
  split
  · exact array_askXl hr
  · exact either (array_streamStatus hr) (array_plowIssue hr)

theorem array_plowRange {t : ThreadId} {f : TFields} {th : Thread} (hs : arrayOk s) : arrayOk (plowRange t f th s) :=
  either (array_streamStatus hs) (array_plowIssue hs)

theorem array_cktagPoison {t : ThreadId} {f : TFields} {pva : BitVec 64} {sa : Sa} (hs : arrayOk s) : arrayOk (cktagPoison t f pva sa s) :=
  have h1 := kept_consume arrayStable (kept_writeFault arrayStable hs)
  either (kept_settle arrayStable h1) (kept_settle arrayStable (array_retire h1))

theorem array_ballocIssue {t : ThreadId} {f : TFields} {th : Thread} (hs : arrayOk s) : arrayOk (ballocIssue t f th s) := by
  unfold ballocIssue
  extract_lets sel arrival h limit s1
  have h1 : arrayOk s1 := aside_modThr arrayAside (array_countIssue hs)
  exact either (array_streamStatus hs) <| either (array_streamStatus hs) <| either (array_raise hs) (kept_settle arrayStable (array_allocate h1))

theorem array_bfreeIssue {t : ThreadId} {f : TFields} {th : Thread} (hs : arrayOk s) : arrayOk (bfreeIssue t f th s) := by
  unfold bfreeIssue
  extract_lets a sa
  split
  · exact either (array_raise hs) (array_raise hs)
  · next b _ =>
    have h0 : arrayOk (modThr (countIssue t s) t.val fun y => { y with hit := none, xl := none, wait := none, ahead := none }) :=
      aside_modThr arrayAside (array_countIssue hs)
    have h1 := array_freeBlock (w := some (.thread t f.d.toNat, th.part, sa)) (p := th.part) (b := b) h0
    exact kept_settle arrayStable (either (array_stall h1) h1)

theorem array_fence {t : ThreadId} (hs : arrayOk s) : arrayOk (fence t s) := either (array_retire hs) (array_stall hs)

theorem array_memWait {t : ThreadId} {f : TFields} {kind : Nat} {pva : BitVec 64} {c : BitVec 4} {cmp : BitVec 64} {x : Space} {sa : Sa}
    (hs : arrayOk s) : arrayOk (memWait t f kind pva c cmp x sa s) :=
  either (array_stall hs) (kept_settle arrayStable (array_issueEval (aside_modThr arrayAside hs)))


end

end Sys2Proof.Machine
end


section
/-! PROOFS. The canonical form of the array's bytes (O5), continued: the commands of buffers, the plow, the links and the loops. -/

namespace Sys2Proof.Machine

open Sys2Proof.Safety

section
-- Many short lemmas that cite one another: elaborating them side by side only makes threads wait on threads.
set_option Elab.async false

variable {s : State}

theorem array_execScrubDone {b : Fin 393216} (hs : arrayOk s) : KeepsArray (execScrubDone b s) :=
  keepsArray_answer (either (aside_placeBlock arrayAside (array_chargeMany (aside_cnt arrayAside (array_zeroBlock hs)))) hs)

theorem array_execAllocWaiterThaw {h : Half} {k : Nat} (hs : arrayOk s) : KeepsArray (execAllocWaiterThaw h k s) := by
  unfold execAllocWaiterThaw
  refine keepsArray_answer ?_
  split
  · exact hs
  · exact either (aside_endWaiter arrayAside (array_countThaw hs)) hs

theorem array_execBufRelease {part : Part} (hs : arrayOk s) : KeepsArray (execBufRelease part s) :=
  keepsArray_answer (kept_settle arrayStable (array_ifUp (fun _ h => array_releaseAll h) hs))

theorem array_execDrain {r : Fin 384} {on : Bool} (hs : arrayOk s) : KeepsArray (execDrain r on s) :=
  keepsArray_answer (array_ifUp (fun _ h => aside_setDrain arrayAside h) hs)

theorem array_execAtomicPerform {h : Half} {k : Nat} (hs : arrayOk s) : KeepsArray (execAtomicPerform h k s) := by
  unfold execAtomicPerform
  refine keepsArray_answer ?_
  split
  · exact hs
  · exact kept_settle arrayStable (kept_putAtom arrayStable hs)

theorem array_execAddlApply {h : Half} {k : Nat} (hs : arrayOk s) : KeepsArray (execAddlApply h k s) := by
  unfold execAddlApply
  refine keepsArray_answer ?_
  split
  · exact hs
  · exact kept_settle arrayStable (kept_putAddl arrayStable hs)

theorem array_execOrdTimeout {n : Fin 32} (hs : arrayOk s) : KeepsArray (execOrdTimeout n s) :=
  keepsArray_answer (either (array_countThaw (aside_discardHeld arrayAside (kept_setOrd arrayStable hs))) hs)

theorem array_execOrdCtlWrite {n : Fin 32} {v : BitVec 32} (hs : arrayOk s) : KeepsArray (execOrdCtlWrite n v s) :=
  keepsArray_answer (array_ifUp (fun _ h => aside_writeOrdCtl arrayAside h) hs)

/-! ## The plow -/

theorem array_execClean {scope : BitVec 2} {part : Part} (hs : arrayOk s) : KeepsArray (execClean scope part s) :=
  keepsArray_answer (array_ifUp (fun _ h => array_plowReg h) hs)

theorem array_execInvalidate {scope : BitVec 2} {part : Part} (hs : arrayOk s) : KeepsArray (execInvalidate scope part s) :=
  keepsArray_answer (array_ifUp (fun _ h => array_plowReg h) hs)

theorem array_execFlush {scope : BitVec 2} {part : Part} (hs : arrayOk s) : KeepsArray (execFlush scope part s) :=
  keepsArray_answer (array_ifUp (fun _ h => array_plowReg h) hs)

theorem array_execDemote {scope : BitVec 2} {part : Part} (hs : arrayOk s) : KeepsArray (execDemote scope part s) :=
  keepsArray_answer (array_ifUp (fun _ h => array_plowReg h) hs)

theorem array_execMeltRange {scope : BitVec 2} {part : Part} (hs : arrayOk s) : KeepsArray (execMeltRange scope part s) :=
  keepsArray_answer (array_ifUp (fun _ h => array_plowReg h) hs)

theorem array_execRegroupEntry {h : Half} (hs : arrayOk s) : KeepsArray (execRegroupEntry h s) :=
  keepsArray_answer (array_ifUp (fun _ h => array_plowReg h) hs)

theorem array_execRegroupOwner {h : Half} (hs : arrayOk s) : KeepsArray (execRegroupOwner h s) :=
  keepsArray_answer (array_ifUp (fun _ h => array_plowReg h) hs)

theorem array_execRegroupRegion (hs : arrayOk s) : KeepsArray (execRegroupRegion s) := keepsArray_answer (array_ifUp (fun _ h => array_plowReg h) hs)

theorem array_execPlowLineStep {h : Half} {key : Nat} (hs : arrayOk s) : KeepsArray (execPlowLineStep h key s) := by
  unfold execPlowLineStep
  refine keepsArray_answer (either hs ?_)
  extract_lets s1
  have h1 : arrayOk s1 := kept_settle arrayStable (array_plowStart hs)
  clear_value s1
  split
  · exact h1
  · refine either ?_ h1
    extract_lets s2 t
    have h2 : arrayOk s2 := array_setHead h1
    have ht : arrayOk t := kept_checkRow arrayStable h2
    clear_value s2 t
    exact either (either ht (either (kept_settle arrayStable (array_plowLine ht)) (kept_settle arrayStable ht))) h2

theorem array_execRegionConversionDone {r : Fin 384} (hs : arrayOk s) : KeepsArray (execRegionConversionDone r s) := by
  unfold execRegionConversionDone
  refine keepsArray_answer ?_
  split
  · exact hs
  · extract_lets s1 g s2
    have h2 : arrayOk s2 := array_setRegion (array_wipeRegion hs)
    exact either (either (aside_openRegion arrayAside h2) (array_onBuf h2)) hs

theorem array_execPlowCommandDone (hs : arrayOk s) : KeepsArray (execPlowCommandDone s) := by
  unfold execPlowCommandDone
  refine keepsArray_answer ?_
  extract_lets s1
  have h1 : arrayOk s1 := kept_settle arrayStable (array_plowStart hs)
  clear_value s1
  split
  · exact h1
  · exact either (kept_settle arrayStable (array_plowStart (array_plowComplete h1))) (either (array_setHead h1) h1)

/-! ## Grants and epochs -/

theorem array_execArrayGrant {h : Half} {ready : BitVec 22} {unreg plow : Bool} (hs : arrayOk s) : KeepsArray (execArrayGrant h ready unreg plow s) :=
  keepsArray_answer (either hs (kept_arbitrate arrayStable hs))

theorem array_execEpochAdvance (hs : arrayOk s) : KeepsArray (execEpochAdvance s) := keepsArray_answer (aside_epochAdvance arrayAside arrayStable hs)

theorem array_execWindowEnd (hs : arrayOk s) : KeepsArray (execWindowEnd s) := keepsArray_answer (array_windowEnd hs)

theorem array_execUnitEpochSwitch {u : Fin 26} (hs : arrayOk s) : KeepsArray (execUnitEpochSwitch u s) :=
  keepsArray_answer (either (array_windowEnd hs) (aside_unitSwitch arrayAside arrayStable hs))

/-! ## Ports -/

theorem array_execLinkcfg {n : PortId} {cfg : LinkCfg} (hs : arrayOk s) : KeepsArray (execLinkcfg n cfg s) :=
  have h1 := array_takeAny hs
  keepsArray_answer <| either hs <| either (kept_settle arrayStable (array_portUp h1)) (aside_portTo arrayAside (array_setPort h1))

theorem array_execPing {n : PortId} (hs : arrayOk s) : KeepsArray (execPing n s) :=
  keepsArray_answer (either (kept_sendFrame arrayStable (array_takeAny hs)) hs)

theorem array_execPong {n : PortId} (hs : arrayOk s) : KeepsArray (execPong n s) :=
  keepsArray_answer (either (kept_modLink arrayStable (array_takeAny hs)) hs)

theorem array_execPingSend {n : PortId} (hs : arrayOk s) : KeepsArray (execPingSend n s) :=
  keepsArray_answer (either (kept_modLink arrayStable (kept_sendFrame arrayStable hs)) hs)

theorem array_execPingTimeout {n : PortId} (hs : arrayOk s) : KeepsArray (execPingTimeout n s) := by
  unfold execPingTimeout
  refine keepsArray_answer ?_
  split
  · exact hs
  · exact either (kept_settle arrayStable (kept_portDown arrayStable hs)) hs

theorem array_execSignalDetect {n : PortId} (hs : arrayOk s) : KeepsArray (execSignalDetect n s) :=
  keepsArray_answer (either (aside_portTo arrayAside hs) hs)

theorem array_execTrainDone {x : Trained} (hs : arrayOk s) : KeepsArray (execTrainDone x s) := by
  unfold execTrainDone
  refine keepsArray_answer ?_
  extract_lets n s1 r s2 z f
  refine either ?_ hs
  have h1 : arrayOk s1 := either hs (kept_foldl (fun _ _ h => array_adaptLane h) hs _)
  have hr : arrayOk r.2 := array_trainSpare h1
  exact either (kept_setLink arrayStable (aside_portTo arrayAside hr)) hr

theorem array_execTrainTimeout {n : PortId} (hs : arrayOk s) : KeepsArray (execTrainTimeout n s) :=
  keepsArray_answer (either (aside_portTo arrayAside hs) hs)

theorem array_execConfigTimeout {n : PortId} (hs : arrayOk s) : KeepsArray (execConfigTimeout n s) :=
  keepsArray_answer (either (aside_portTo arrayAside hs) hs)

theorem array_execAck {n : PortId} {seq : BitVec 10} {cred : Credits} (hs : arrayOk s) : KeepsArray (execAck n seq cred s) :=
  keepsArray_answer (either (array_takeAck hs) hs)

theorem array_execNak {n : PortId} {seq : BitVec 10} {cred : Credits} (hs : arrayOk s) : KeepsArray (execNak n seq cred s) :=
  keepsArray_answer (either (array_replay (array_takeAck hs)) hs)

theorem array_execAckSendTimer {n : PortId} (hs : arrayOk s) : KeepsArray (execAckSendTimer n s) := keepsArray_answer (either (array_sendCtrl hs) hs)

theorem array_execReplayTimeout {n : PortId} (hs : arrayOk s) : KeepsArray (execReplayTimeout n s) := keepsArray_answer (either (array_replay hs) hs)

theorem array_execRecalReq {n : PortId} (hs : arrayOk s) : KeepsArray (execRecalReq n s) :=
  keepsArray_answer (array_ifUp (fun _ h => aside_enterRecal arrayAside h) hs)

theorem array_execRecalDone {n : PortId} (hs : arrayOk s) : KeepsArray (execRecalDone n s) := by
  unfold execRecalDone
  refine keepsArray_answer (either ?_ hs)
  extract_lets skip s1 s2 s3 s4 s5
  have h1 : arrayOk s1 := array_onCache hs fun c => by split <;> rfl
  have h2 : arrayOk s2 := array_sendCtrl (aside_portTo arrayAside h1)
  have h3 : arrayOk s3 := kept_linkEvent arrayStable h2
  have h5 : arrayOk s5 := kept_linkPump arrayStable (kept_modLink arrayStable h3)
  exact kept_settle arrayStable (either h5 (array_poolRelease h5))

theorem array_execRecalTimeout {n : PortId} (hs : arrayOk s) : KeepsArray (execRecalTimeout n s) :=
  keepsArray_answer (either (kept_settle arrayStable (kept_portDown arrayStable hs)) hs)

theorem array_execNoValidBlockTimeout {n : PortId} (hs : arrayOk s) : KeepsArray (execNoValidBlockTimeout n s) :=
  keepsArray_answer (either (aside_enterRecal arrayAside hs) hs)

theorem array_execDownQuietEnd {n : PortId} (hs : arrayOk s) : KeepsArray (execDownQuietEnd n s) :=
  keepsArray_answer (either (aside_portTo arrayAside (array_setPort hs)) hs)

theorem array_execBlockReceived {n : PortId} {good : Bool} {corrected : List (Fin 16)} {bseq : BitVec 8} {flits : List Flit} (hs : arrayOk s) :
    KeepsArray (execBlockReceived n good corrected bseq flits s) :=
  keepsArray_answer (either (array_blockIn hs) hs)

theorem array_execSpareSwitch {n : PortId} {lane : BitVec 5} {spare : Bool} {block : BitVec 10} (hs : arrayOk s) :
    KeepsArray (execSpareSwitch n lane spare block s) := by
  unfold execSpareSwitch
  extract_lets p free
  refine keepsArray_answer (either hs ?_)
  split
  · exact either (array_useSpare (kept_modLink arrayStable hs)) hs
  · exact array_useSpare (kept_modLink arrayStable hs)

theorem array_execSpareMarginTimeout {n : PortId} (hs : arrayOk s) : KeepsArray (execSpareMarginTimeout n s) := by
  unfold execSpareMarginTimeout
  refine keepsArray_answer ?_
  split
  · exact hs
  · exact either (array_setPort (kept_modLink arrayStable hs)) hs

theorem array_execPptRecal {n : PortId} (hs : arrayOk s) : KeepsArray (execPptRecal n s) :=
  keepsArray_answer (array_ifUp (fun _ h => aside_enterRecal arrayAside h) hs)

theorem array_execPptForceDown {n : PortId} (hs : arrayOk s) : KeepsArray (execPptForceDown n s) :=
  keepsArray_answer (kept_settle arrayStable (array_ifUp (fun _ h => array_forceDown h) hs))

theorem array_execPptSpare {n : PortId} {lane : BitVec 5} (hs : arrayOk s) : KeepsArray (execPptSpare n lane s) :=
  keepsArray_answer (kept_settle arrayStable (array_ifUp (fun _ h => aside_requestSpare arrayAside arrayStable h) hs))

/-! ## Replicas and sharers -/

theorem array_execInvAck {port : PartnerPort} {tag : BitVec 12} {sa : Sa} (hs : arrayOk s) : KeepsArray (execInvAck port tag sa s) :=
  keepsArray_answer (either hs (kept_settle arrayStable (array_onCache (kept_takeRx arrayStable hs))))

theorem array_execReplicaInstall {h : Half} (hs : arrayOk s) : KeepsArray (execReplicaInstall h s) := by
  unfold execReplicaInstall
  refine keepsArray_answer ?_
  split
  · next hu => exact kept_settle arrayStable (array_install (array_takeHalf hs hu))
  · exact hs

theorem array_execReplicaDropNotice {h : Half} (hs : arrayOk s) : KeepsArray (execReplicaDropNotice h s) := by
  unfold execReplicaDropNotice
  refine keepsArray_answer ?_
  split
  · next hu =>
    have h1 := array_takeHalf hs hu
    split
    · exact either h1 (aside_setMeta arrayAside h1)
    · exact h1
  · exact hs

theorem array_execReplicaInvalidate {h : Half} (hs : arrayOk s) : KeepsArray (execReplicaInvalidate h s) := by
  unfold execReplicaInvalidate
  refine keepsArray_answer ?_
  split
  · next hu =>
    have h1 := array_takeHalf hs hu
    split
    · exact kept_settle arrayStable (array_ackWanted (either h1 (kept_startInv arrayStable h1)))
    · exact kept_settle arrayStable (kept_replicaAck arrayStable (array_cancelInstall h1))
  · exact hs

theorem array_execInvTimeout {port : PartnerPort} (hs : arrayOk s) : KeepsArray (execInvTimeout port s) :=
  keepsArray_answer (either (kept_settle arrayStable (kept_portDown arrayStable (array_onCch hs))) hs)

theorem array_execSharerClearDone {k : Fin 24} (hs : arrayOk s) : KeepsArray (execSharerClearDone k s) :=
  keepsArray_answer (either (array_clearSharer hs) hs)

theorem array_execReplicaSweepDone {h : Half} (hs : arrayOk s) : KeepsArray (execReplicaSweepDone h s) := by
  unfold execReplicaSweepDone
  refine keepsArray_answer (either ?_ hs)
  extract_lets s1
  have h1 : arrayOk s1 := kept_settle arrayStable (kept_foldl (fun _ _ h => either h (kept_startInv arrayStable h)) hs _)
  exact either (array_onCache h1 fun c => by cases h <;> rfl) h1

/-! ## The timebase and the loops -/

theorem array_execPllLock (hs : arrayOk s) : KeepsArray (execPllLock s) := keepsArray_answer (either (array_bootGo (array_onClk hs)) hs)

theorem array_execPllLockLoss (hs : arrayOk s) : KeepsArray (execPllLockLoss s) := by
  unfold execPllLockLoss
  refine keepsArray_answer (either ?_ hs)
  exact kept_foldl (fun _ _ h => aside_enterRecal arrayAside h) (array_onClk hs) _

theorem array_execXtalFail (hs : arrayOk s) : KeepsArray (execXtalFail s) := keepsArray_answer (array_onClk hs)

theorem array_execLoopTimeLowRead {r : Requester} (hs : arrayOk s) : KeepsArray (execLoopTimeLowRead r s) :=
  keepsArray_answer (array_showRead (array_timeLow hs))

theorem array_execLoopTimeHighRead {r : Requester} (hs : arrayOk s) : KeepsArray (execLoopTimeHighRead r s) :=
  keepsArray_answer (array_showRead (array_timeHigh hs))

theorem array_execLrsEvaluate {h : Half} {seqR tagR dataR linkR : BitVec 16} (hs : arrayOk s) :
    KeepsArray (execLrsEvaluate h seqR tagR dataR linkR s) := by
  unfold execLrsEvaluate
  refine keepsArray_answer ?_
  extract_lets n meas l wrong s' o out want l' t v t'
  refine either hs ?_
  have h1 : arrayOk s' := kept_modLoopMem arrayStable hs
  have ht : arrayOk t := either (aside_setLoop arrayAside h1) (array_loopStep h1)
  exact either (aside_setLoop arrayAside h1) (either ht (aside_avsWrite arrayAside (kept_modLoopMem arrayStable ht)))

theorem array_execAvsReadback {h : Half} {r : AvsResult} (hs : arrayOk s) : KeepsArray (execAvsReadback h r s) := by
  unfold execAvsReadback
  refine keepsArray_answer ?_
  extract_lets a
  split
  · split
    · exact hs
    · exact either (array_setAvs hs) (array_avsFailed hs)
  · split
    · exact hs
    · refine either hs ?_
      split
      · exact array_avsFailed hs
      · exact either (array_avsFault hs) (array_setAvs hs)
  · exact array_avsFailed hs
  · exact either (array_avsFault hs) (array_setAvs hs)

theorem array_execEqLoopEvaluate {pool : Bool} {n : PortId} {lane : Fin 16} {taps : BitVec 16} {dfeEnd : Bool} {code : BitVec 16} (hs : arrayOk s) :
    KeepsArray (execEqLoopEvaluate pool n lane taps dfeEnd code s) := by
  unfold execEqLoopEvaluate
  refine keepsArray_answer ?_
  extract_lets k rs worst l t1 l' t2 bad t3
  refine either hs ?_
  have h1 : arrayOk t1 := array_loopStep hs
  have h2 : arrayOk t2 := either (aside_setLoop arrayAside h1) h1
  have h3 : arrayOk t3 := array_eqLanes (kept_modLoopMem arrayStable h2)
  exact either (kept_settle arrayStable (kept_foldl (fun _ _ h => array_eqSpare h) h3 _)) h3

theorem array_execScrubLoopEvaluate {h : Half} (hs : arrayOk s) : KeepsArray (execScrubLoopEvaluate h s) := by
  unfold execScrubLoopEvaluate
  refine keepsArray_answer ?_
  extract_lets n m hourly s'
  refine either hs ?_
  have h1 : arrayOk s' := kept_modLoopMem arrayStable hs
  exact either h1 (array_loopStep (kept_modLoopMem arrayStable h1))

theorem array_execRefrLoopEvaluate {h : Half} (hs : arrayOk s) : KeepsArray (execRefrLoopEvaluate h s) := by
  unfold execRefrLoopEvaluate
  refine keepsArray_answer ?_
  extract_lets n l s'
  refine either hs ?_
  have h1 : arrayOk s' := kept_modLoopMem arrayStable hs
  split
  · exact aside_setLoop arrayAside h1
  · exact either (aside_setLoop arrayAside h1) (either (aside_setLoop arrayAside (array_onLoops h1)) (aside_setLoop arrayAside h1))

theorem array_execPrefLoopEvaluate {h : Half} (hs : arrayOk s) : KeepsArray (execPrefLoopEvaluate h s) := by
  unfold execPrefLoopEvaluate
  refine keepsArray_answer ?_
  extract_lets n
  split
  · exact hs
  · next hu =>
    have h1 := array_takeReady hs hu
    exact either h1 (either (array_loopStep h1) (array_loopStep h1))

theorem array_execSlotLoopEvaluate {h : Half} (hs : arrayOk s) : KeepsArray (execSlotLoopEvaluate h s) := by
  unfold execSlotLoopEvaluate
  refine keepsArray_answer ?_
  extract_lets n
  split
  · exact hs
  · next hu =>
    have h1 := array_takeReady hs hu
    exact either h1 (array_loopStep (kept_modLoopMem arrayStable h1))

theorem array_execDriftLoopEvaluate {h : Half} (hs : arrayOk s) : KeepsArray (execDriftLoopEvaluate h s) := by
  unfold execDriftLoopEvaluate
  refine keepsArray_answer ?_
  extract_lets n
  split
  · exact hs
  · next hu =>
    have h1 := array_takeReady hs hu
    exact either h1 (array_loopStep h1)

/-! ## Shelves -/

theorem array_execFilld {f : Fin 2} {tag : BitVec 12} {sa : Sa} {status : BitVec 8} {poison mask : BitVec 4} {crc : Option (BitVec 32)}
    {data : BitVec 1024} (hs : arrayOk s) : KeepsArray (execFilld f tag sa status poison mask crc data s) := by
  unfold execFilld
  refine keepsArray_answer (either hs ?_)
  extract_lets s1
  have h1 : arrayOk s1 := kept_takeRx arrayStable hs
  clear_value s1
  split
  · exact h1
  · exact either (kept_settle arrayStable (array_fillArrive h1)) h1

theorem array_execWack {f : Fin 2} {tag : BitVec 12} {sa : Sa} {status : BitVec 8} (hs : arrayOk s) : KeepsArray (execWack f tag sa status s) := by
  unfold execWack
  refine keepsArray_answer (either hs ?_)
  extract_lets s1
  have h1 : arrayOk s1 := kept_takeRx arrayStable hs
  clear_value s1
  split
  · exact h1
  · exact either (kept_settle arrayStable (array_wackArrive h1)) h1

theorem array_execAccept {f : Fin 2} {tag : BitVec 12} {sa : Sa} (hs : arrayOk s) : KeepsArray (execAccept f tag sa s) := by
  unfold execAccept
  refine keepsArray_answer (either hs ?_)
  extract_lets s1
  have h1 : arrayOk s1 := kept_takeRx arrayStable hs
  clear_value s1
  split
  · exact kept_settle arrayStable (aside_cnt arrayAside (array_sendOffd (array_dropOffer h1)))
  · exact kept_settle arrayStable (array_sendOffd h1)

theorem array_execDecline {f : Fin 2} {tag : BitVec 12} {sa : Sa} (hs : arrayOk s) : KeepsArray (execDecline f tag sa s) := by
  unfold execDecline
  refine keepsArray_answer (either hs ?_)
  extract_lets s1
  have h1 : arrayOk s1 := kept_takeRx arrayStable hs
  clear_value s1
  split
  · exact array_declineOffer h1
  · exact h1

theorem array_execOfferTimeout {h : Half} {tag : BitVec 12} (hs : arrayOk s) : KeepsArray (execOfferTimeout h tag s) := by
  unfold execOfferTimeout
  refine keepsArray_answer ?_
  split
  · exact either (array_declineOffer hs) hs
  · exact hs

theorem array_execSerr {f : Fin 2} {tag : BitVec 12} {sa : Sa} {lines : BitVec 16} {etype : BitVec 8} (hs : arrayOk s) :
    KeepsArray (execSerr f tag sa lines etype s) := by
  unfold execSerr
  refine keepsArray_answer (either hs ?_)
  extract_lets s1 st ks r s2
  have h1 : arrayOk s1 := kept_takeRx arrayStable hs
  have h2 : arrayOk s2 := either (array_shelfRecord (kept_foldl (fun _ _ h => array_serrLine h) h1 _)) h1
  exact kept_sendFrame arrayStable h2

theorem array_execShelfResponseTimeout {f : Fin 2} {tag : BitVec 12} (hs : arrayOk s) : KeepsArray (execShelfResponseTimeout f tag s) := by
  unfold execShelfResponseTimeout
  refine keepsArray_answer ?_
  split
  · exact hs
  · exact either (kept_settle arrayStable (kept_portDown arrayStable hs)) hs


end

end Sys2Proof.Machine
end


section
/-! PROOFS. The canonical form of the array's bytes (O5), continued: the commands of threads, self-test, power and boot. -/

namespace Sys2Proof.Machine

open Sys2Proof.Safety

section
-- Many short lemmas that cite one another: elaborating them side by side only makes threads wait on threads.
set_option Elab.async false

variable {s : State}

/-! ## Threads -/

theorem array_execDoorbellTail {part : Part} {q : Fin 128} {v : BitVec 32} (hs : arrayOk s) : KeepsArray (execDoorbellTail part q v s) :=
  keepsArray_answer (array_bellTail hs)

theorem array_execDoorbellResume {part p : Part} {slot : BitVec 6} (hs : arrayOk s) : KeepsArray (execDoorbellResume part p slot s) :=
  keepsArray_answer (array_bellResume hs)

theorem array_execDoorbellDiscard {part p : Part} {slot : BitVec 6} (hs : arrayOk s) : KeepsArray (execDoorbellDiscard part p slot s) :=
  keepsArray_answer (array_bellDiscard hs)

theorem array_execTqCtlWrite {q : Fin 128} {v : BitVec 32} (hs : arrayOk s) : KeepsArray (execTqCtlWrite q v s) :=
  keepsArray_answer (array_ifUp (fun _ h => aside_writeTqCtl arrayAside h) hs)

theorem array_execDispatch {h : Half} {k : Fin 36} (hs : arrayOk s) : KeepsArray (execDispatch h k s) := by
  unfold execDispatch
  refine keepsArray_answer ?_
  extract_lets ts t
  refine either hs (either ?_ ?_)
  · split
    · refine either hs ?_
      split
      · exact array_moveThread hs
      · exact array_startCand hs
      · exact hs
    · exact hs
  · split
    · exact hs
    · extract_lets below able
      split
      · split
        · exact either hs (array_preempt hs)
        · exact hs
      · exact kept_foldl (fun _ _ h => array_modSp h) hs _

theorem array_execDescriptorFetch {t : ThreadId} (hs : arrayOk s) : KeepsArray (execDescriptorFetch t s) := by
  unfold execDescriptorFetch
  refine keepsArray_answer ?_
  split
  · extract_lets x sa
    split
    · exact array_fetchErr hs
    · extract_lets isDev h g
      refine either (array_fetchErr hs) ?_
      have hg : arrayOk g.2 := array_roGather hs
      clear_value g
      split
      · exact hg
      · exact either (array_fetchErr (kept_consume arrayStable hg)) (array_startTask (array_setTq hg))
  · exact hs

theorem array_execSaveRecordDone {t : ThreadId} (hs : arrayOk s) : KeepsArray (execSaveRecordDone t s) :=
  keepsArray_answer (kept_settle arrayStable (array_saveStep hs))

theorem array_execRestore {t : ThreadId} (hs : arrayOk s) : KeepsArray (execRestore t s) := by
  unfold execRestore
  refine keepsArray_answer ?_
  split
  · extract_lets c
    split
    · exact array_restoreFailed hs
    · extract_lets g
      have hg : arrayOk g.2 := array_gather hs
      clear_value g
      split
      · exact hg
      · extract_lets r s1 s2
        have h2 : arrayOk s2 := array_doneLines (array_setThr (aside_cnt arrayAside hg))
        clear_value s2
        exact either (array_restoreFailed hg) <| either (array_restoreFailed hg) <| either (array_endKilled (array_firstIssue h2)) h2
  · exact hs

theorem array_execThreadAccessComplete {t : ThreadId} {k : Nat} (hs : arrayOk s) : KeepsArray (execThreadAccessComplete t k s) := by
  unfold execThreadAccessComplete
  refine keepsArray_answer ?_
  split
  · exact hs
  · split
    · exact hs
    · extract_lets s1
      have h1 : arrayOk s1 := aside_modThr arrayAside hs
      clear_value s1
      split
      · exact either (array_haltCheck (array_endEval h1)) (array_haltCheck (aside_modThr arrayAside h1))
      · exact array_haltCheck (aside_modThr arrayAside h1)

theorem array_execThaw {t : ThreadId} (hs : arrayOk s) : KeepsArray (execThaw t s) := keepsArray_answer (array_thaw hs)

theorem array_execWaitReevaluate {t : ThreadId} (hs : arrayOk s) : KeepsArray (execWaitReevaluate t s) := by
  unfold execWaitReevaluate
  refine keepsArray_answer ?_
  extract_lets th
  split
  · exact hs
  · extract_lets need kind pva r
    have hr : arrayOk r.2 := array_reach hs
    refine either hs ?_
    split
    · exact kept_settle arrayStable (array_issueEval (aside_modThr arrayAside hr))
    · exact array_raiseAny hr
    · exact array_missInstr hr

theorem array_execTranslationMiss {t : ThreadId} {src : XlSrc} (hs : arrayOk s) : KeepsArray (execTranslationMiss t src s) :=
  keepsArray_answer (either (kept_settle arrayStable (array_walkMiss hs)) hs)

theorem array_execWalkTableRead {h : Half} {k : Nat} (hs : arrayOk s) : KeepsArray (execWalkTableRead h k s) := by
  unfold execWalkTableRead
  refine keepsArray_answer ?_
  split
  · exact hs
  · exact either (array_walkRead hs) hs

theorem array_execXltInv {part : Part} {v : BitVec 64} (hs : arrayOk s) : KeepsArray (execXltInv part v s) :=
  keepsArray_answer (array_ifUp (fun _ h => array_xltInv h) hs)

theorem array_execXltInvComplete (hs : arrayOk s) : KeepsArray (execXltInvComplete s) := by
  unfold execXltInvComplete
  refine keepsArray_answer ?_
  split
  · exact hs
  · exact array_onXlt hs

theorem array_execStreamUnitComplete {t : ThreadId} {slot : Fin 2} {unit : Nat} (hs : arrayOk s) :
    KeepsArray (execStreamUnitComplete t slot unit s) := by
  unfold execStreamUnitComplete
  refine keepsArray_answer ?_
  extract_lets th x d
  have htag := kept_settle arrayStable (array_tagUnit (t := t) (i := slot) (d := d) (k := unit - d.units) hs)
  exact either hs <| either (kept_settle arrayStable (array_unitRun hs)) <| either htag <| either (kept_settle arrayStable (array_stopCheck hs)) <|
    either htag <| either (kept_settle arrayStable (array_unitRun (array_setThr hs))) hs

/-! ## Upkeep and partition resets -/

theorem array_execPatrolStep {h : Half} (hs : arrayOk s) : KeepsArray (execPatrolStep h s) := by
  unfold execPatrolStep
  refine keepsArray_answer ?_
  extract_lets first mine
  refine either hs ?_
  split
  · extract_lets u v
    have hu : arrayOk u := array_onInteg hs
    have hv : arrayOk v := array_patrolRow hu
    exact either (array_onInteg hu) (either (array_patrolEnd hv) hv)
  · split
    · exact either (array_patrolEnd hs) hs
    · extract_lets u v
      have hu : arrayOk u := array_onInteg hs
      have hv : arrayOk v := either (array_patrolRow hu) hu
      exact either (array_patrolEnd hv) hv

theorem array_execRefresh {die : Fin 6} (hs : arrayOk s) : KeepsArray (execRefresh die s) := keepsArray_answer (either (array_onSense hs) hs)

theorem array_execErrorInjectArm {v : BitVec 32} (hs : arrayOk s) : KeepsArray (execErrorInjectArm v s) :=
  keepsArray_answer (array_ifUp (fun _ h => array_writeInj h) hs)

theorem array_execIntPrstGo {part : Part} (hs : arrayOk s) : KeepsArray (execIntPrstGo part s) :=
  keepsArray_answer (array_ifUp (fun _ h => array_prstGo h) hs)

theorem array_execPartitionReset (hs : arrayOk s) : KeepsArray (execPartitionReset s) := by
  unfold execPartitionReset
  refine keepsArray_answer ?_
  split
  · exact hs
  · exact either hs (array_prstStart hs)

theorem array_execPartitionResetDone (hs : arrayOk s) : KeepsArray (execPartitionResetDone s) := by
  unfold execPartitionResetDone
  refine keepsArray_answer ?_
  split
  · exact hs
  · extract_lets s1 r s2
    have h1 : arrayOk s1 := kept_settle arrayStable (kept_foldl (fun _ _ h => array_prstEnd h) hs _)
    exact either hs (either h1 (array_onInteg (kept_writeRec arrayStable h1)))

/-! ## Self-test -/

theorem array_execIdleStep {h : Half} {t : Fin 22} (hs : arrayOk s) : KeepsArray (execIdleStep h t s) :=
  keepsArray_answer (either (array_stepStart hs) hs)

theorem array_execForcedStep {h : Half} {t : Fin 22} (hs : arrayOk s) : KeepsArray (execForcedStep h t s) :=
  keepsArray_answer (either (array_stepStart hs) hs)

theorem array_execTestStepDone {h : Half} {t : Fin 22} {sig : BitVec 32} {lane : Fin 32} (hs : arrayOk s) :
    KeepsArray (execTestStepDone h t sig lane s) := by
  have hend {u : State} (hu : arrayOk u) : arrayOk (if t.val < 9 ∧ !wasReset s u then settle (coreResume (9 * h.idx + t.val) u) else u) :=
    either (kept_settle arrayStable (array_coreResume hu)) hu
  unfold execTestStepDone
  refine keepsArray_answer (array_genBump (hend ?_))
  extract_lets x step last bad s1 g l r s2
  have h1 : arrayOk s1 := kept_tally arrayStable hs
  have h2 : arrayOk s2 := either h1 (kept_writeRec arrayStable (kept_setTstStat arrayStable h1))
  exact either hs (either (aside_setTgt arrayAside hs) (either (array_failTarget (aside_setTgt arrayAside h1)) (aside_setTgt arrayAside h2)))

theorem array_execCoreSwapIn {h : Half} {crcOk : BitVec 4} (hs : arrayOk s) : KeepsArray (execCoreSwapIn h crcOk s) := by
  unfold execCoreSwapIn
  refine keepsArray_answer (array_genBump ?_)
  split
  · exact hs
  · split
    · exact hs
    · exact either (kept_settle arrayStable (array_repairs (array_popWait (array_swapIn hs)))) hs

theorem array_execTstSwap {h : Half} {t : BitVec 5} (hs : arrayOk s) : KeepsArray (execTstSwap h t s) :=
  keepsArray_answer (array_genBump (array_tstSwap hs))

theorem array_execTstPackLoad (hs : arrayOk s) : KeepsArray (execTstPackLoad s) := keepsArray_answer (array_packLoad hs)

theorem array_execPackLoadDone (hs : arrayOk s) : KeepsArray (execPackLoadDone s) :=
  keepsArray_answer (either (kept_settle arrayStable (array_packStep hs)) hs)

theorem array_execTstCalveGo {die : BitVec 3} {bank : BitVec 5} (hs : arrayOk s) : KeepsArray (execTstCalveGo die bank s) :=
  keepsArray_answer (array_calveGo hs)

theorem array_execCalveRowCopy {die : Fin 6} {verified : Bool} (hs : arrayOk s) : KeepsArray (execCalveRowCopy die verified s) := by
  unfold execCalveRowCopy
  refine keepsArray_answer ?_
  extract_lets k c n r s1 s2 c'
  have h1 : arrayOk s1 := kept_settle arrayStable (kept_checkRow arrayStable hs)
  have h2 : arrayOk s2 := aside_cnt arrayAside h1
  exact either hs <| either h1 <| either (array_calveAbort h1) <| either (array_calveSwitch h2) (kept_setCalve arrayStable h2)

theorem array_execRegionRetire {die : Fin 6} {bank : Fin 32} (hs : arrayOk s) : KeepsArray (execRegionRetire die bank s) := by
  unfold execRegionRetire
  refine keepsArray_answer ?_
  extract_lets b rs s1 s2
  have h1 : arrayOk s1 := kept_settle arrayStable (kept_foldl (fun _ _ h => either (array_retireCache h) h) hs rs)
  have h2 : arrayOk s2 := kept_foldl (fun _ _ h => array_retireOff h) (kept_setTstStat arrayStable h1) rs
  exact either hs (either h1 (array_onTst h2))

theorem array_execRepairRecordProgram {ok : Bool} (hs : arrayOk s) : KeepsArray (execRepairRecordProgram ok s) := by
  unfold execRepairRecordProgram
  refine keepsArray_answer ?_
  split
  · exact hs
  · extract_lets s1
    have h1 : arrayOk s1 := array_onTst hs
    exact either (array_programRepair h1) (array_persistFail h1)

theorem array_execAgeMeasure {n : Fin 8} {degr : BitVec 16} (hs : arrayOk s) : KeepsArray (execAgeMeasure n degr s) :=
  have h1 := array_onTst hs
  keepsArray_answer <| either hs <| either (array_onTst h1) <| either h1 (kept_writeRec arrayStable (kept_setTstStat arrayStable (array_onTst h1)))

/-! ## Power and resets -/

theorem array_execSensorResult {n : Fin 24} {temp : BitVec 12} (hs : arrayOk s) : KeepsArray (execSensorResult n temp s) := by
  unfold execSensorResult
  refine keepsArray_answer (array_genBump ?_)
  extract_lets s1 warn s2
  have h1 : arrayOk s1 := array_onSense hs
  have h2 : arrayOk s2 := either (array_onSense h1) h1
  exact either hs (either array_thermTrip h2)

theorem array_execPwrgoodDeassert (hs : arrayOk s) : KeepsArray (execPwrgoodDeassert s) := keepsArray_answer (either (array_onPwr hs) hs)

theorem array_execColdReset (hs : arrayOk s) : KeepsArray (execColdReset s) := keepsArray_answer (either array_coldNow hs)

theorem array_execResetNAssert (hs : arrayOk s) : KeepsArray (execResetNAssert s) :=
  have h1 := array_onPwr hs
  keepsArray_answer (either (either h1 (array_warmRequest h1)) hs)

theorem array_execResetNDeassert {sid : BitVec 8} {bootSel : BitVec 2} (hs : arrayOk s) : KeepsArray (execResetNDeassert sid bootSel s) :=
  have h1 := array_onPwr (array_onMgt (array_onGlb hs))
  keepsArray_answer (either hs (either (array_bootStart (array_onBoot h1)) h1))

theorem array_execPwrRstWarm {v : BitVec 32} (hs : arrayOk s) : KeepsArray (execPwrRstWarm v s) := keepsArray_answer (array_rstCmd hs)

theorem array_execWarmReset (hs : arrayOk s) : KeepsArray (execWarmReset s) := by
  unfold execWarmReset
  refine keepsArray_answer ?_
  split
  · extract_lets s1 s2
    have h2 : arrayOk s2 := by
      simp only [s2]
      refine kept_foldl (fun u h hu => ?_) (array_onPwr hs) _
      exact aside_setWaitQ arrayAside (array_setWalkWait (array_setWalks (kept_foldl (fun _ _ h => array_subUsed h) hu _)))
    exact kept_foldl (fun _ _ h => array_declineOffer h) h2 _
  · exact hs

theorem array_execWarmDrainDone (hs : arrayOk s) : KeepsArray (execWarmDrainDone s) := by
  unfold execWarmDrainDone
  refine keepsArray_answer ?_
  split
  · refine either hs (array_warmNow ?_)
    refine kept_foldl (fun u h hu => ?_) hs _
    exact kept_foldl (fun _ _ h => aside_cnt arrayAside h) hu _
  · exact hs

theorem array_execDrainTmo (hs : arrayOk s) : KeepsArray (execDrainTmo s) := by
  unfold execDrainTmo
  refine keepsArray_answer ?_
  split
  · exact either arrayOk_fatalNow hs
  · exact hs

theorem array_execFatalReset {structure_ : BitVec 8} {entry : EntryOf} (hs : arrayOk s) : KeepsArray (execFatalReset structure_ entry s) :=
  keepsArray_answer (either hs (kept_fatalWith arrayStable hs))

theorem array_execVaonPowerOn (hs : arrayOk s) : KeepsArray (execVaonPowerOn s) := keepsArray_next (either hs array_powerOnNow)

theorem array_execVaonLoss : KeepsArray (execVaonLoss s) := keepsArray_next (show Memory.wf [] = true from rfl)

theorem array_execDomainOn {d : BitVec 4} {force : Bool} {gen : BitVec 16} (hs : arrayOk s) : KeepsArray (execDomainOn d force gen s) :=
  keepsArray_answer (array_domCmd hs)

theorem array_execDomainOff {d : BitVec 4} {force : Bool} {gen : BitVec 16} (hs : arrayOk s) : KeepsArray (execDomainOff d force gen s) :=
  keepsArray_answer (array_domCmd hs)

theorem array_execDomainDrainEnd (hs : arrayOk s) : KeepsArray (execDomainDrainEnd s) := by
  unfold execDomainDrainEnd
  refine keepsArray_answer ?_
  split
  · exact hs
  · extract_lets d n s1
    have h1 : arrayOk s1 := either hs (array_forceDisc hs)
    exact either hs <| either hs <| either (array_domEnd (aside_setDom arrayAside hs)) (array_domEnd (aside_setDom arrayAside (array_domainLost h1)))

theorem array_execDomainOnDone (hs : arrayOk s) : KeepsArray (execDomainOnDone s) := by
  unfold execDomainOnDone
  refine keepsArray_answer (array_genBump ?_)
  split
  · exact hs
  · extract_lets d h s1 s2
    have h1 : arrayOk s1 := aside_tgtRestart arrayAside (aside_setDom arrayAside hs)
    have h2 : arrayOk s2 := kept_foldl (fun _ _ h => either (aside_portTo arrayAside h) h) h1 _
    exact either hs (either (array_domEnd (aside_setDom arrayAside hs)) (either hs (array_domEnd h2)))

theorem array_execArrayRestoreDone {die : Fin 6} (hs : arrayOk s) : KeepsArray (execArrayRestoreDone die s) := by
  unfold execArrayRestoreDone
  refine keepsArray_answer ?_
  split
  · exact hs
  · exact either (kept_settle arrayStable (kept_foldl (fun _ _ h => array_restoreRegion h) (array_onSense hs) _)) hs

theorem array_execArraySweepDone (hs : arrayOk s) : KeepsArray (execArraySweepDone s) := by
  unfold execArraySweepDone
  refine keepsArray_answer ?_
  split
  · exact hs
  · extract_lets d k mine s1 s2 s3
    have h1 : arrayOk s1 := kept_settle arrayStable (kept_foldl (fun _ _ h => either (kept_startInv arrayStable h) h) hs _)
    have h2 : arrayOk s2 := kept_foldl (fun _ _ h => array_wipeRegion h) h1 _
    exact either hs (either h1 (array_domEnd (aside_setDom arrayAside (array_onSense h2))))

theorem array_execUnitPortDisable {u : BitVec 6} {gen : BitVec 16} (hs : arrayOk s) : KeepsArray (execUnitPortDisable u gen s) :=
  keepsArray_answer (array_unitCmd hs)

theorem array_execUnitPortEnable {u : BitVec 6} {gen : BitVec 16} (hs : arrayOk s) : KeepsArray (execUnitPortEnable u gen s) :=
  keepsArray_answer (array_unitCmd hs)

theorem array_execUnitRecal {u : BitVec 6} {gen : BitVec 16} (hs : arrayOk s) : KeepsArray (execUnitRecal u gen s) :=
  keepsArray_answer (array_unitCmd hs)

theorem array_execUnitForceDown {u : BitVec 6} {gen : BitVec 16} (hs : arrayOk s) : KeepsArray (execUnitForceDown u gen s) :=
  keepsArray_answer (array_unitCmd hs)

theorem array_execUnitFail {u : BitVec 6} {gen : BitVec 16} (hs : arrayOk s) : KeepsArray (execUnitFail u gen s) :=
  keepsArray_answer (array_unitCmd hs)

theorem array_execCntSnap (hs : arrayOk s) : KeepsArray (execCntSnap s) := keepsArray_answer (array_snapAll hs)

theorem array_execCntReset (hs : arrayOk s) : KeepsArray (execCntReset s) := keepsArray_answer (array_zeroAll hs)

theorem array_execRegisterWrite {_r : Requester} {part : Part} {off : BitVec 24} {wide : Bool} {v : BitVec 64} (hs : arrayOk s) :
    KeepsArray (execRegisterWrite _r part off wide v s) :=
  keepsArray_answer (array_ctlWrite hs)

/-! ## The boot loader -/

theorem array_execFlashDiscovery {f : Sfdp} (hs : arrayOk s) : KeepsArray (execFlashDiscovery f s) := by
  unfold execFlashDiscovery
  refine keepsArray_answer ?_
  extract_lets r
  have hr : arrayOk r.2 := array_discoverFlash (array_onBoot hs)
  exact either (either (array_slotOrder hr) (array_enterRecovery (array_leaveSlot (array_leaveSlot hr)))) <|
    either (array_discoverFlash hs) hs

theorem array_execPllWaitTimeout (hs : arrayOk s) : KeepsArray (execPllWaitTimeout s) :=
  keepsArray_answer (either (array_bootGo (array_onBoot hs)) hs)

theorem array_execImageReadDone {k : Slot} (hs : arrayOk s) : KeepsArray (execImageReadDone k s) :=
  keepsArray_answer (either (either (array_onBoot hs) (array_nextSlot (array_leaveSlot hs))) hs)

theorem array_execBootApply (hs : arrayOk s) : KeepsArray (execBootApply s) := by
  unfold execBootApply
  refine keepsArray_answer ?_
  split
  · split
    · exact array_nextSlot (array_leaveSlot array_contentFail)
    · next hu => exact kept_settle arrayStable (array_onBoot (array_applyImage hs hu))
  · exact hs

theorem array_execSupervisorStart (hs : arrayOk s) : KeepsArray (execSupervisorStart s) := by
  unfold execSupervisorStart
  refine keepsArray_answer (array_genBump (either ?_ hs))
  extract_lets s1
  have h1 : arrayOk s1 := array_onBoot hs
  clear_value s1
  split
  · exact array_bootLine h1
  · exact array_bootLine (array_onBoot (array_setThr h1))


end

end Sys2Proof.Machine
end


section
/-! PROOFS. The canonical form of the array's bytes (O5), continued: management, partners and instructions. -/

namespace Sys2Proof.Machine

open Sys2Proof.Safety

section
-- Many short lemmas that cite one another: elaborating them side by side only makes threads wait on threads.
set_option Elab.async false

variable {s : State}

/-! ## The UART and Svet -/

theorem array_execUartCharReceived {ch : BitVec 9} {parityBad stopLow : Bool} (hs : arrayOk s) :
    KeepsArray (execUartCharReceived ch parityBad stopLow s) := by
  unfold execUartCharReceived
  refine keepsArray_answer (either hs ?_)
  extract_lets pe mask c full s1
  have h1 : arrayOk s1 := array_onUart hs
  exact either (either h1 (array_onUart h1)) (either (array_svetChar h1) h1)

theorem array_execUartIdle (hs : arrayOk s) : KeepsArray (execUartIdle s) := keepsArray_answer (either (array_onUart hs) hs)

theorem array_execUartBreak (hs : arrayOk s) : KeepsArray (execUartBreak s) := keepsArray_answer (either (array_onMgt (array_onUart hs)) hs)

theorem array_execUartCharTransmitted (hs : arrayOk s) : KeepsArray (execUartCharTransmitted s) := keepsArray_answer (array_uartNext hs)

theorem array_execMgtCtsNAssert (hs : arrayOk s) : KeepsArray (execMgtCtsNAssert s) :=
  have h1 := array_onUart hs
  keepsArray_answer (either (array_uartNext h1) h1)

theorem array_execUartDataWrite {v : BitVec 32} (hs : arrayOk s) : KeepsArray (execUartDataWrite v s) :=
  keepsArray_answer (aside_uartPush arrayAside hs)

theorem array_execUartDataRead (hs : arrayOk s) : KeepsArray (execUartDataRead s) := keepsArray_answer (array_onUart (array_uartPop hs))

theorem array_execSvetId (hs : arrayOk s) : KeepsArray (execSvetId s) := keepsArray_answer <| array_svet hs fun _ hu => array_svetAnswer hu

theorem array_execSvetRd {arg : BitVec 32} (hs : arrayOk s) : KeepsArray (execSvetRd arg s) :=
  keepsArray_answer <| array_svet hs fun _ hu => either (array_svetAnswer hu) (array_svetAnswer (array_ctlRead hu))

theorem array_execSvetWr {arg : BitVec 32} {v : BitVec 64} (hs : arrayOk s) : KeepsArray (execSvetWr arg v s) :=
  keepsArray_answer <| array_svet hs fun _ hu => either (array_svetAnswer hu) (array_svetAnswer (array_ctlWrite hu))

theorem array_execSvetState {u : BitVec 8} (hs : arrayOk s) : KeepsArray (execSvetState u s) :=
  keepsArray_answer <| array_svet hs fun _ hu => either (array_svetAnswer hu) (array_svetAnswer hu)

theorem array_execSvetUnit {u op : BitVec 8} {gen : BitVec 16} (hs : arrayOk s) : KeepsArray (execSvetUnit u op gen s) :=
  keepsArray_answer <| array_svet hs fun _ hu =>
    have h1 := array_unitCmd hu
    either (array_svetAnswer hu) (either (array_svetAnswer h1) (either (array_svetAnswer h1) (array_svetAnswer h1)))

theorem array_execSvetDom {d flags : BitVec 8} {gen : BitVec 16} (hs : arrayOk s) : KeepsArray (execSvetDom d flags gen s) :=
  keepsArray_answer <| array_svet hs fun _ hu => either (array_svetAnswer hu) (array_svetAnswer (array_domCmd hu))

theorem array_execSvetEpoch (hs : arrayOk s) : KeepsArray (execSvetEpoch s) :=
  keepsArray_answer <| array_svet hs fun _ hu =>
    have h1 := aside_epochAdvance arrayAside arrayStable hu
    either (array_svetAnswer h1) (array_svetAnswer h1)

theorem array_execSvetReset {key : BitVec 8} (hs : arrayOk s) : KeepsArray (execSvetReset key s) :=
  keepsArray_answer <| array_svet hs fun _ hu => either (array_svetAnswer hu) (array_rstCmd (array_svetAnswer hu))

theorem array_execSvetLog {k : BitVec 32} (hs : arrayOk s) : KeepsArray (execSvetLog k s) := by
  unfold execSvetLog
  refine keepsArray_answer (array_svet hs fun _ hu => either (array_svetAnswer hu) ?_)
  split
  · exact array_svetAnswer hu
  · exact array_svetAnswer hu

theorem array_execSvetLogack {head : BitVec 32} (hs : arrayOk s) : KeepsArray (execSvetLogack head s) :=
  keepsArray_answer <| array_svet hs fun _ hu => array_svetAnswer (aside_logHead arrayAside hu)

theorem array_execSvetCntRead {first n : BitVec 8} (hs : arrayOk s) : KeepsArray (execSvetCntRead first n s) :=
  keepsArray_answer (array_svetCnt hs fun _ hu => array_svetAnswer hu)

theorem array_execSvetCntReadSnapshot {first n : BitVec 8} (hs : arrayOk s) : KeepsArray (execSvetCntReadSnapshot first n s) :=
  keepsArray_answer (array_svetCnt hs fun _ hu => array_svetAnswer hu)

theorem array_execSvetCntSnapshot {first n : BitVec 8} (hs : arrayOk s) : KeepsArray (execSvetCntSnapshot first n s) :=
  keepsArray_answer (array_svetCnt hs fun _ hu => array_svetAnswer (array_snapAll hu))

theorem array_execSvetCntReset {first n : BitVec 8} (hs : arrayOk s) : KeepsArray (execSvetCntReset first n s) :=
  keepsArray_answer (array_svetCnt hs fun _ hu => array_svetAnswer (array_zeroAll hu))

theorem array_execSvetCntSnapshotReset {first n : BitVec 8} (hs : arrayOk s) : KeepsArray (execSvetCntSnapshotReset first n s) :=
  keepsArray_answer (array_svetCnt hs fun _ hu => array_svetAnswer (array_zeroAll (array_snapAll hu)))

theorem array_execSvetFrameTimeout (hs : arrayOk s) : KeepsArray (execSvetFrameTimeout s) :=
  keepsArray_answer (either (array_countBadFrame (array_onMgt hs)) hs)

theorem array_execBin (hs : arrayOk s) : KeepsArray (execBin s) :=
  keepsArray_answer <| array_svet hs fun _ hu => either (array_svetAnswer hu) (array_onMgt (array_svetAnswer hu))

theorem array_execHelp (hs : arrayOk s) : KeepsArray (execHelp s) :=
  keepsArray_answer <| array_svet hs fun _ hu => either (array_svetAnswer hu) (array_svetAnswer hu)

theorem array_execExit (hs : arrayOk s) : KeepsArray (execExit s) :=
  keepsArray_answer <| array_svet hs fun _ hu => either (array_onMgt (array_svetAnswer hu)) (array_svetAnswer hu)

/-! ## The mailbox and flash -/

theorem array_execMbput {data : List Byte} (hs : arrayOk s) : KeepsArray (execMbput data s) :=
  keepsArray_answer <| array_svet hs fun _ hu => either (array_svetAnswer hu) (either (array_svetAnswer hu) (array_svetAnswer (array_mbPut hu)))

theorem array_execMbget (hs : arrayOk s) : KeepsArray (execMbget s) :=
  keepsArray_answer <| array_svet hs fun _ hu => either (array_svetAnswer (array_outClear hu)) (array_svetAnswer hu)

theorem array_execMbOutlenWrite {v : BitVec 32} (hs : arrayOk s) : KeepsArray (execMbOutlenWrite v s) := keepsArray_answer (array_mbOutLen hs)

theorem array_execFlrd {off : BitVec 32} {len : BitVec 16} (hs : arrayOk s) : KeepsArray (execFlrd off len s) :=
  keepsArray_answer <| array_svet hs fun _ hu =>
    have h1 {n : Nat} {d : List Byte} := array_svetAnswer (cmd := 16) (status := n) (data := d) hu
    either h1 (either h1 (either h1 h1))

theorem array_execFler {off : BitVec 32} {count : BitVec 16} {ok : Bool} (hs : arrayOk s) : KeepsArray (execFler off count ok s) :=
  keepsArray_answer <| array_svet hs fun _ hu =>
    have h1 {n : Nat} := array_svetAnswer (cmd := 17) (status := n) (data := []) hu
    either h1 <| either h1 <| either h1 <| either h1 <| either h1 <| either h1 (array_svetAnswer (array_flashErase hu))

theorem array_execFlpr {off : BitVec 32} {data : List Byte} {ok : Bool} (hs : arrayOk s) : KeepsArray (execFlpr off data ok s) :=
  keepsArray_answer <| array_svet hs fun _ hu =>
    have h1 {n : Nat} := array_svetAnswer (cmd := 18) (status := n) (data := []) hu
    either h1 <| either h1 <| either h1 <| either h1 <| either h1 <| either h1 (array_svetAnswer (array_flashProgram hu))

theorem array_execSvetBoot (hs : arrayOk s) : KeepsArray (execSvetBoot s) :=
  keepsArray_answer <| array_svet hs fun _ _ => array_onBoot array_contentFail

theorem array_execReperase {key : BitVec 8} {ok : Bool} (hs : arrayOk s) : KeepsArray (execReperase key ok s) :=
  keepsArray_answer <| array_svet hs fun _ hu =>
    have h1 {n : Nat} := array_svetAnswer (cmd := 20) (status := n) (data := []) hu
    either h1 <| either h1 <| either h1 <| either h1 <|
      array_svetAnswer (kept_foldl (fun _ _ h => array_flashErase h) hu _)

/-! ## The SMBus target and boundary scan -/

theorem array_execSmbReadId (hs : arrayOk s) : KeepsArray (execSmbReadId s) := keepsArray_answer (array_smbRead hs)

theorem array_execSmbReadTemp (hs : arrayOk s) : KeepsArray (execSmbReadTemp s) := keepsArray_answer (array_smbRead hs)

theorem array_execSmbReadStatus (hs : arrayOk s) : KeepsArray (execSmbReadStatus s) := keepsArray_answer (array_smbRead hs)

theorem array_execSmbReadAlert (hs : arrayOk s) : KeepsArray (execSmbReadAlert s) := keepsArray_answer (array_smbRead hs)

theorem array_execSmbReadSensor {n : Fin 24} (hs : arrayOk s) : KeepsArray (execSmbReadSensor n s) := keepsArray_answer (array_smbRead hs)

theorem array_execSmbReadMbStatus (hs : arrayOk s) : KeepsArray (execSmbReadMbStatus s) := keepsArray_answer (array_smbRead hs)

theorem array_execSmbReadPower (hs : arrayOk s) : KeepsArray (execSmbReadPower s) := keepsArray_answer (kept_freeCtr arrayStable (array_smbRead hs))

theorem array_execSmbStagingOffset {v : BitVec 16} {pecOk : Bool} (hs : arrayOk s) : KeepsArray (execSmbStagingOffset v pecOk s) :=
  keepsArray_answer (array_smbWrite hs fun _ hu => eitherSnd (array_onMgt hu) hu)

theorem array_execSmbStageWrite {data : List Byte} {pecOk : Bool} (hs : arrayOk s) : KeepsArray (execSmbStageWrite data pecOk s) :=
  keepsArray_answer (array_smbWrite hs fun _ hu => eitherSnd hu (array_onMgt hu))

theorem array_execSmbCommit {len : BitVec 16} {pecOk : Bool} (hs : arrayOk s) : KeepsArray (execSmbCommit len pecOk s) :=
  keepsArray_answer (array_smbWrite hs fun _ hu => eitherSnd hu (eitherSnd (array_onMgt hu) (array_mbPut hu)))

theorem array_execSmbReadOut (hs : arrayOk s) : KeepsArray (execSmbReadOut s) :=
  keepsArray_answer (either (array_onMgt (array_smbSet hs)) (array_smbSet hs))

theorem array_execSmbClearOutFull {pecOk : Bool} (hs : arrayOk s) : KeepsArray (execSmbClearOutFull pecOk s) :=
  keepsArray_answer (array_smbWrite hs fun _ hu => array_outClear hu)

theorem array_execAlertResponse (hs : arrayOk s) : KeepsArray (execAlertResponse s) := keepsArray_answer (either (array_smbSet hs) (array_smbSet hs))

theorem array_execSmbTimeout (hs : arrayOk s) : KeepsArray (execSmbTimeout s) := keepsArray_answer (array_smbSet hs)

theorem array_execJtagTckEdge {rising trstN tms tdi : Bool} {pins : BitVec 39} (hs : arrayOk s) :
    KeepsArray (execJtagTckEdge rising trstN tms tdi pins s) :=
  have hjtag (j : Jtag) : arrayOk { s with jtag := j } := kept_outside arrayStable hs rfl rfl rfl rfl rfl rfl
  keepsArray_answer (either hs (either (hjtag _) (either (hjtag _) (hjtag _))))

/-! ## Partners -/

theorem array_execRds {m : PHdr} {melt : Bool} (hs : arrayOk s) : KeepsArray (execRds m melt s) :=
  keepsArray_answer (array_partner hs fun _ hu => array_readSector hu)

theorem array_execRdl {m : PHdr} {melt : Bool} (hs : arrayOk s) : KeepsArray (execRdl m melt s) :=
  keepsArray_answer (array_partner hs fun _ hu => array_memReq hu)

theorem array_execRdro {m : PHdr} {line melt : Bool} (hs : arrayOk s) : KeepsArray (execRdro m line melt s) :=
  keepsArray_answer (array_partner hs fun _ hu => array_memReq hu)

theorem array_execWrs {m : PHdr} {data : BitVec 256} (hs : arrayOk s) : KeepsArray (execWrs m data s) :=
  keepsArray_answer (array_partner hs fun _ hu => array_memReq hu)

theorem array_execWrl {m : PHdr} {data : BitVec 1024} (hs : arrayOk s) : KeepsArray (execWrl m data s) :=
  keepsArray_answer (array_partner hs fun _ hu => array_memReq hu)

theorem array_execWrm {m : PHdr} {mask : BitVec 32} {data : BitVec 256} (hs : arrayOk s) : KeepsArray (execWrm m mask data s) :=
  keepsArray_answer (array_partner hs fun _ hu => array_maskedWrite hu)

theorem array_execWrb {m : PHdr} {chk : Bool} {ctag : BitVec 32} {data : BitVec 32768} (hs : arrayOk s) : KeepsArray (execWrb m chk ctag data s) :=
  keepsArray_answer (array_partner hs fun _ hu => array_blockWrite hu)

theorem array_execLinkAadd {m : PHdr} {wide : Bool} {v : BitVec 64} (hs : arrayOk s) : KeepsArray (execLinkAadd m wide v s) := array_linkAtom hs

theorem array_execLinkAcas {m : PHdr} {wide : Bool} {v cmp : BitVec 64} (hs : arrayOk s) : KeepsArray (execLinkAcas m wide v cmp s) :=
  array_linkAtom hs

theorem array_execLinkAswp {m : PHdr} {wide : Bool} {v : BitVec 64} (hs : arrayOk s) : KeepsArray (execLinkAswp m wide v s) := array_linkAtom hs

theorem array_execLinkAmin {m : PHdr} {wide signed : Bool} {v : BitVec 64} (hs : arrayOk s) : KeepsArray (execLinkAmin m wide signed v s) :=
  array_linkAtom hs

theorem array_execLinkAmax {m : PHdr} {wide signed : Bool} {v : BitVec 64} (hs : arrayOk s) : KeepsArray (execLinkAmax m wide signed v s) :=
  array_linkAtom hs

theorem array_execLinkAddl {m : PHdr} {fmt : BitVec 3} {atag : BitVec 32} {data : BitVec 1024} (hs : arrayOk s) :
    KeepsArray (execLinkAddl m fmt atag data s) :=
  keepsArray_answer (array_partnerHeld hs fun _ hu => array_addlReq hu)

theorem array_execAlloc {m : PHdr} {sel : BitVec 2} {wait : Bool} (hs : arrayOk s) : KeepsArray (execAlloc m sel wait s) :=
  keepsArray_answer (array_partner hs fun _ hu => array_allocReq hu)

theorem array_execFree {m : PHdr} (hs : arrayOk s) : KeepsArray (execFree m s) := keepsArray_answer (array_partner hs fun _ hu => array_freeReq hu)

/-! ## Instructions -/

theorem array_execAdd {t : ThreadId} {f : TFields} (hs : arrayOk s) : KeepsArray (execAdd t f s) := array_alu hs

theorem array_execSub {t : ThreadId} {f : TFields} (hs : arrayOk s) : KeepsArray (execSub t f s) := array_alu hs

theorem array_execMul {t : ThreadId} {f : TFields} (hs : arrayOk s) : KeepsArray (execMul t f s) := array_alu hs

theorem array_execDiv {t : ThreadId} {f : TFields} (hs : arrayOk s) : KeepsArray (execDiv t f s) := array_alu hs

theorem array_execRem {t : ThreadId} {f : TFields} (hs : arrayOk s) : KeepsArray (execRem t f s) := array_alu hs

theorem array_execAnd {t : ThreadId} {f : TFields} (hs : arrayOk s) : KeepsArray (execAnd t f s) := array_alu hs

theorem array_execOr {t : ThreadId} {f : TFields} (hs : arrayOk s) : KeepsArray (execOr t f s) := array_alu hs

theorem array_execXor {t : ThreadId} {f : TFields} (hs : arrayOk s) : KeepsArray (execXor t f s) := array_alu hs

theorem array_execShl {t : ThreadId} {f : TFields} (hs : arrayOk s) : KeepsArray (execShl t f s) := array_alu hs

theorem array_execShr {t : ThreadId} {f : TFields} (hs : arrayOk s) : KeepsArray (execShr t f s) := array_alu hs

theorem array_execSar {t : ThreadId} {f : TFields} (hs : arrayOk s) : KeepsArray (execSar t f s) := array_alu hs

theorem array_execSet {t : ThreadId} {f : TFields} (hs : arrayOk s) : KeepsArray (execSet t f s) := array_alu hs

theorem array_execLih {t : ThreadId} {f : TFields} (hs : arrayOk s) : KeepsArray (execLih t f s) := array_alu hs

theorem array_execAddpc {t : ThreadId} {f : TFields} (hs : arrayOk s) : KeepsArray (execAddpc t f s) :=
  keepsArray_answer <| array_instr hs fun _ _ hu => array_retire hu

theorem array_execBr {t : ThreadId} {f : TFields} (hs : arrayOk s) : KeepsArray (execBr t f s) :=
  keepsArray_answer <| array_instr hs fun _ _ hu => either (array_jumpTo hu) (array_retire hu)

theorem array_execJmp {t : ThreadId} {f : TFields} (hs : arrayOk s) : KeepsArray (execJmp t f s) :=
  keepsArray_answer <| array_instr hs fun _ _ hu => array_jumpTo hu

theorem array_execCall {t : ThreadId} {f : TFields} (hs : arrayOk s) : KeepsArray (execCall t f s) :=
  keepsArray_answer <| array_instr hs fun _ _ hu => array_jumpTo hu

theorem array_execJr {t : ThreadId} {f : TFields} (hs : arrayOk s) : KeepsArray (execJr t f s) :=
  keepsArray_answer <| array_instr hs fun _ _ hu => either (array_raise hu) (array_jumpTo hu)

theorem array_execLoop {t : ThreadId} {f : TFields} (hs : arrayOk s) : KeepsArray (execLoop t f s) :=
  keepsArray_answer <| array_instr hs fun _ _ hu => either (array_jumpTo hu) (array_retire hu)

theorem array_execLd {t : ThreadId} {f : TFields} (hs : arrayOk s) : KeepsArray (execLd t f s) :=
  keepsArray_answer <| array_instr hs fun _ _ hu => array_access hu fun _ _ _ hv =>
    either (array_stall hv) <| either (either (array_retire (array_devRead hv)) (array_devCause hv)) <|
      either (array_constLoad hv) (array_issueLine hv)

theorem array_execSt {t : ThreadId} {f : TFields} (hs : arrayOk s) : KeepsArray (execSt t f s) :=
  keepsArray_answer <| array_instr hs fun _ _ hu => array_access hu fun _ _ _ hv =>
    either (array_stall hv) <| either (either (array_retire (array_devWrite hv)) (array_devCause (array_devWrite hv))) (array_issueStore hv)

theorem array_execLdl {t : ThreadId} {f : TFields} (hs : arrayOk s) : KeepsArray (execLdl t f s) :=
  keepsArray_answer <| array_instr hs fun _ _ hu => array_access hu fun _ _ _ hv =>
    either (array_stall hv) (array_issueLine hv)

theorem array_execStl {t : ThreadId} {f : TFields} (hs : arrayOk s) : KeepsArray (execStl t f s) :=
  keepsArray_answer <| array_instr hs fun _ _ hu => array_access hu fun _ _ _ hv =>
    either (array_stall hv) (array_issueStore hv)

theorem array_execAadd {t : ThreadId} {f : TFields} (hs : arrayOk s) : KeepsArray (execAadd t f s) := array_atomic hs

theorem array_execAcas {t : ThreadId} {f : TFields} (hs : arrayOk s) : KeepsArray (execAcas t f s) := array_atomic hs

theorem array_execAswp {t : ThreadId} {f : TFields} (hs : arrayOk s) : KeepsArray (execAswp t f s) := array_atomic hs

theorem array_execAmin {t : ThreadId} {f : TFields} (hs : arrayOk s) : KeepsArray (execAmin t f s) := array_atomic hs

theorem array_execAmax {t : ThreadId} {f : TFields} (hs : arrayOk s) : KeepsArray (execAmax t f s) := array_atomic hs

theorem array_execSems {t : ThreadId} {f : TFields} (hs : arrayOk s) : KeepsArray (execSems t f s) := array_atomic hs

theorem array_execAddl {t : ThreadId} {f : TFields} (hs : arrayOk s) : KeepsArray (execAddl t f s) :=
  keepsArray_answer <| array_instr hs fun _ _ hu => array_access hu fun _ _ _ hv =>
    either (array_stall hv) (array_addlIssue hv)

theorem array_execSmov {t : ThreadId} {f : TFields} (hs : arrayOk s) : KeepsArray (execSmov t f s) := by
  unfold execSmov
  refine keepsArray_answer (array_instr hs fun _ _ hu => ?_)
  split
  · exact either (array_smovStart hu) hu
  · exact array_access hu fun _ _ _ hv => array_smovRead hv

theorem array_execSwait {t : ThreadId} {f : TFields} (hs : arrayOk s) : KeepsArray (execSwait t f s) :=
  keepsArray_answer <| array_instr hs fun _ _ hu => array_swaitCheck (aside_modThr arrayAside (array_firstIssue hu))

theorem array_execSpoll {t : ThreadId} {f : TFields} (hs : arrayOk s) : KeepsArray (execSpoll t f s) :=
  keepsArray_answer <| array_instr hs fun _ _ hu =>
    either (array_streamStatus hu) (either (array_streamStatus hu) (either (array_streamStatus hu) (array_streamStatus hu)))

theorem array_execSresume {t : ThreadId} {f : TFields} (hs : arrayOk s) : KeepsArray (execSresume t f s) :=
  keepsArray_answer <| array_instr hs fun _ _ hu => either (array_streamStatus hu) (array_streamStatus hu)

theorem array_execScancel {t : ThreadId} {f : TFields} (hs : arrayOk s) : KeepsArray (execScancel t f s) := by
  unfold execScancel
  refine keepsArray_answer (array_instr hs fun _ _ hu => ?_)
  extract_lets k
  split
  · exact either (array_stall (aside_modThr arrayAside hu)) (array_streamStatus hu)
  · exact either (array_streamStatus hu) (array_streamStatus hu)

theorem array_execHint {t : ThreadId} {f : TFields} (hs : arrayOk s) : KeepsArray (execHint t f s) :=
  keepsArray_answer <| array_instr hs fun _ _ hu => array_quiet_ hu fun _ _ _ hv => array_hintLine hv

theorem array_execPref {t : ThreadId} {f : TFields} (hs : arrayOk s) : KeepsArray (execPref t f s) :=
  keepsArray_answer <| array_instr hs fun _ _ hu => array_quiet_ hu fun _ _ _ hv => array_prefLine hv

theorem array_execMelt {t : ThreadId} {f : TFields} (hs : arrayOk s) : KeepsArray (execMelt t f s) :=
  keepsArray_answer <| array_instr hs fun _ _ hu =>
    either (either (array_stall hu) (array_retire hu)) <| array_access hu fun _ _ _ hv => either (array_stall hv) (array_issueLine hv)

theorem array_execPlow {t : ThreadId} {f : TFields} (hs : arrayOk s) : KeepsArray (execPlow t f s) :=
  keepsArray_answer <| array_instr hs fun _ _ hu => either (array_plowRange hu) (array_plowPva hu)

theorem array_execCktag {t : ThreadId} {f : TFields} (hs : arrayOk s) : KeepsArray (execCktag t f s) := by
  unfold execCktag
  refine keepsArray_answer (array_instr hs fun _ _ hu => array_access hu fun _ _ _ hv => either (array_stall hv) ?_)
  extract_lets g
  have hg : arrayOk g.2 := array_gather hv
  clear_value g
  split
  · exact array_stall hg
  · exact either (array_cktagPoison hg) (array_retire hg)

theorem array_execBalloc {t : ThreadId} {f : TFields} (hs : arrayOk s) : KeepsArray (execBalloc t f s) :=
  keepsArray_answer <| array_instr hs fun _ _ hu => array_ballocIssue hu

theorem array_execBfree {t : ThreadId} {f : TFields} (hs : arrayOk s) : KeepsArray (execBfree t f s) :=
  keepsArray_answer <| array_instr hs fun _ _ hu => array_bfreeIssue hu

theorem array_execFence {t : ThreadId} {f : TFields} (hs : arrayOk s) : KeepsArray (execFence t f s) :=
  keepsArray_answer <| array_instr hs fun _ _ hu => array_fence hu

theorem array_execIfence {t : ThreadId} {f : TFields} (hs : arrayOk s) : KeepsArray (execIfence t f s) :=
  keepsArray_answer <| array_instr hs fun _ _ hu => array_fence hu

theorem array_execSemw {t : ThreadId} {f : TFields} (hs : arrayOk s) : KeepsArray (execSemw t f s) :=
  keepsArray_answer <| array_instr hs fun _ _ hu => array_access hu fun _ _ _ hv => array_memWait hv

theorem array_execWaitt {t : ThreadId} {f : TFields} (hs : arrayOk s) : KeepsArray (execWaitt t f s) :=
  keepsArray_answer <| array_instr hs fun _ _ hu => array_access hu fun _ _ _ hv => array_memWait hv

theorem array_execCsrr {t : ThreadId} {f : TFields} (hs : arrayOk s) : KeepsArray (execCsrr t f s) :=
  keepsArray_answer <| array_instr hs fun _ _ hu => either (array_raise hu) (array_retire hu)

theorem array_execCsrw {t : ThreadId} {f : TFields} (hs : arrayOk s) : KeepsArray (execCsrw t f s) :=
  keepsArray_answer <| array_instr hs fun _ _ hu => either (array_raise hu) (array_retire hu)

theorem array_execEpoch {t : ThreadId} {f : TFields} (hs : arrayOk s) : KeepsArray (execEpoch t f s) :=
  keepsArray_answer <| array_instr hs fun _ _ hu =>
    have h1 := aside_epochAdvance arrayAside arrayStable hu
    either (array_streamStatus h1) (array_streamStatus h1)

theorem array_execTrap {t : ThreadId} {f : TFields} (hs : arrayOk s) : KeepsArray (execTrap t f s) :=
  keepsArray_answer <| array_instr hs fun _ _ hu => kept_settle arrayStable (array_stopThread (array_retire hu))

theorem array_execYield {t : ThreadId} {f : TFields} (hs : arrayOk s) : KeepsArray (execYield t f s) := by
  unfold execYield
  refine keepsArray_answer (array_instr hs fun _ _ hu => ?_)
  extract_lets s1 waits go
  have hgo (st : Nat) (v : State) (hv : arrayOk v) : arrayOk (go st v) := aside_modThr arrayAside hv
  have h1 : arrayOk s1 := array_countIssue hu
  clear_value s1 go
  split
  · exact either (array_stopThread (aside_modThr arrayAside (array_takeSlot (hgo _ _ h1)))) (hgo _ _ h1)
  · exact hgo _ _ h1

theorem array_execHalt {t : ThreadId} {f : TFields} (hs : arrayOk s) : KeepsArray (execHalt t f s) :=
  keepsArray_answer <| array_instr hs fun _ _ hu => kept_settle arrayStable (array_haltCheck (aside_modThr arrayAside (array_retire hu)))


end

end Sys2Proof.Machine
end


section
/-! PROOFS. Every command and every step keeps the canonical form of the array's bytes (O5): the commands' lemmas put together. -/

namespace Sys2Proof.Machine

open Sys2Proof.Safety

/-- Every command keeps the canonical form: one lemma per command, in the order of the commands. -/
theorem keepsArray_exec {s : State} (hs : arrayOk s) (c : Instr) : KeepsArray (exec c s) := by
  cases c with
  | add _ _ => exact array_execAdd hs
  | sub _ _ => exact array_execSub hs
  | mul _ _ => exact array_execMul hs
  | div _ _ => exact array_execDiv hs
  | rem _ _ => exact array_execRem hs
  | and_ _ _ => exact array_execAnd hs
  | or_ _ _ => exact array_execOr hs
  | xor _ _ => exact array_execXor hs
  | shl _ _ => exact array_execShl hs
  | shr _ _ => exact array_execShr hs
  | sar _ _ => exact array_execSar hs
  | set_ _ _ => exact array_execSet hs
  | lih _ _ => exact array_execLih hs
  | addpc _ _ => exact array_execAddpc hs
  | br _ _ => exact array_execBr hs
  | jmp _ _ => exact array_execJmp hs
  | call _ _ => exact array_execCall hs
  | jr _ _ => exact array_execJr hs
  | loop _ _ => exact array_execLoop hs
  | ld _ _ => exact array_execLd hs
  | st _ _ => exact array_execSt hs
  | ldl _ _ => exact array_execLdl hs
  | stl _ _ => exact array_execStl hs
  | aadd _ _ => exact array_execAadd hs
  | acas _ _ => exact array_execAcas hs
  | aswp _ _ => exact array_execAswp hs
  | amin _ _ => exact array_execAmin hs
  | amax _ _ => exact array_execAmax hs
  | addl _ _ => exact array_execAddl hs
  | smov _ _ => exact array_execSmov hs
  | swait _ _ => exact array_execSwait hs
  | spoll _ _ => exact array_execSpoll hs
  | sresume _ _ => exact array_execSresume hs
  | scancel _ _ => exact array_execScancel hs
  | hint _ _ => exact array_execHint hs
  | melt _ _ => exact array_execMelt hs
  | pref _ _ => exact array_execPref hs
  | plow _ _ => exact array_execPlow hs
  | balloc _ _ => exact array_execBalloc hs
  | bfree _ _ => exact array_execBfree hs
  | fence _ _ => exact array_execFence hs
  | ifence _ _ => exact array_execIfence hs
  | sems _ _ => exact array_execSems hs
  | semw _ _ => exact array_execSemw hs
  | waitt _ _ => exact array_execWaitt hs
  | csrr _ _ => exact array_execCsrr hs
  | csrw _ _ => exact array_execCsrw hs
  | epoch _ _ => exact array_execEpoch hs
  | trap _ _ => exact array_execTrap hs
  | yield _ _ => exact array_execYield hs
  | halt _ _ => exact array_execHalt hs
  | cktag _ _ => exact array_execCktag hs
  | threadAccessComplete _ _ => exact array_execThreadAccessComplete hs
  | thaw _ => exact array_execThaw hs
  | waitReevaluate _ => exact array_execWaitReevaluate hs
  | streamUnitComplete _ _ _ => exact array_execStreamUnitComplete hs
  | translationMiss _ _ => exact array_execTranslationMiss hs
  | walkTableRead _ _ => exact array_execWalkTableRead hs
  | xltInv _ _ => exact array_execXltInv hs
  | xltInvComplete => exact array_execXltInvComplete hs
  | doorbellTail _ _ _ => exact array_execDoorbellTail hs
  | doorbellResume _ _ _ => exact array_execDoorbellResume hs
  | doorbellDiscard _ _ _ => exact array_execDoorbellDiscard hs
  | tqCtlWrite _ _ => exact array_execTqCtlWrite hs
  | dispatch _ _ => exact array_execDispatch hs
  | descriptorFetch _ => exact array_execDescriptorFetch hs
  | saveRecordDone _ => exact array_execSaveRecordDone hs
  | restore _ => exact array_execRestore hs
  | rds _ _ => exact array_execRds hs
  | rdl _ _ => exact array_execRdl hs
  | rdro _ _ _ => exact array_execRdro hs
  | wrs _ _ => exact array_execWrs hs
  | wrm _ _ _ => exact array_execWrm hs
  | wrl _ _ => exact array_execWrl hs
  | wrb _ _ _ _ => exact array_execWrb hs
  | linkAadd _ _ _ => exact array_execLinkAadd hs
  | linkAcas _ _ _ _ => exact array_execLinkAcas hs
  | linkAswp _ _ _ => exact array_execLinkAswp hs
  | linkAmin _ _ _ _ => exact array_execLinkAmin hs
  | linkAmax _ _ _ _ => exact array_execLinkAmax hs
  | linkAddl _ _ _ _ => exact array_execLinkAddl hs
  | alloc _ _ _ => exact array_execAlloc hs
  | free _ => exact array_execFree hs
  | invAck _ _ _ => exact array_execInvAck hs
  | replicaInstall _ => exact array_execReplicaInstall hs
  | replicaDropNotice _ => exact array_execReplicaDropNotice hs
  | replicaInvalidate _ => exact array_execReplicaInvalidate hs
  | linkcfg _ _ => exact array_execLinkcfg hs
  | ping _ => exact array_execPing hs
  | pong _ => exact array_execPong hs
  | pingSend _ => exact array_execPingSend hs
  | pingTimeout _ => exact array_execPingTimeout hs
  | filld _ _ _ _ _ _ _ _ => exact array_execFilld hs
  | wack _ _ _ _ => exact array_execWack hs
  | accept _ _ _ => exact array_execAccept hs
  | decline _ _ _ => exact array_execDecline hs
  | offerTimeout _ _ => exact array_execOfferTimeout hs
  | serr _ _ _ _ _ => exact array_execSerr hs
  | shelfResponseTimeout _ _ => exact array_execShelfResponseTimeout hs
  | blockReceived _ _ _ _ _ => exact array_execBlockReceived hs
  | ack _ _ _ => exact array_execAck hs
  | nak _ _ _ => exact array_execNak hs
  | ackSendTimer _ => exact array_execAckSendTimer hs
  | replayTimeout _ => exact array_execReplayTimeout hs
  | recalReq _ => exact array_execRecalReq hs
  | spareSwitch _ _ _ _ => exact array_execSpareSwitch hs
  | spareMarginTimeout _ => exact array_execSpareMarginTimeout hs
  | signalDetect _ => exact array_execSignalDetect hs
  | trainDone _ => exact array_execTrainDone hs
  | trainTimeout _ => exact array_execTrainTimeout hs
  | configTimeout _ => exact array_execConfigTimeout hs
  | recalDone _ => exact array_execRecalDone hs
  | recalTimeout _ => exact array_execRecalTimeout hs
  | noValidBlockTimeout _ => exact array_execNoValidBlockTimeout hs
  | downQuietEnd _ => exact array_execDownQuietEnd hs
  | invTimeout _ => exact array_execInvTimeout hs
  | sharerClearDone _ => exact array_execSharerClearDone hs
  | pptRecal _ => exact array_execPptRecal hs
  | pptForceDown _ => exact array_execPptForceDown hs
  | pptSpare _ _ => exact array_execPptSpare hs
  | pllLock => exact array_execPllLock hs
  | pllLockLoss => exact array_execPllLockLoss hs
  | xtalFail => exact array_execXtalFail hs
  | loopTimeLowRead _ => exact array_execLoopTimeLowRead hs
  | loopTimeHighRead _ => exact array_execLoopTimeHighRead hs
  | lrsEvaluate _ _ _ _ _ => exact array_execLrsEvaluate hs
  | avsReadback _ _ => exact array_execAvsReadback hs
  | eqLoopEvaluate _ _ _ _ _ _ => exact array_execEqLoopEvaluate hs
  | scrubLoopEvaluate _ => exact array_execScrubLoopEvaluate hs
  | refrLoopEvaluate _ => exact array_execRefrLoopEvaluate hs
  | prefLoopEvaluate _ => exact array_execPrefLoopEvaluate hs
  | slotLoopEvaluate _ => exact array_execSlotLoopEvaluate hs
  | driftLoopEvaluate _ => exact array_execDriftLoopEvaluate hs
  | sensorResult _ _ => exact array_execSensorResult hs
  | windowEnd => exact array_execWindowEnd hs
  | arrayGrant _ _ _ _ => exact array_execArrayGrant hs
  | epochAdvance => exact array_execEpochAdvance hs
  | unitEpochSwitch _ => exact array_execUnitEpochSwitch hs
  | clean _ _ => exact array_execClean hs
  | invalidate _ _ => exact array_execInvalidate hs
  | flush _ _ => exact array_execFlush hs
  | demote _ _ => exact array_execDemote hs
  | meltRange _ _ => exact array_execMeltRange hs
  | regroupEntry _ => exact array_execRegroupEntry hs
  | regroupOwner _ => exact array_execRegroupOwner hs
  | regroupRegion => exact array_execRegroupRegion hs
  | plowLineStep _ _ => exact array_execPlowLineStep hs
  | plowCommandDone => exact array_execPlowCommandDone hs
  | regionConversionDone _ => exact array_execRegionConversionDone hs
  | addlApply _ _ => exact array_execAddlApply hs
  | atomicPerform _ _ => exact array_execAtomicPerform hs
  | ordTimeout _ => exact array_execOrdTimeout hs
  | ordCtlWrite _ _ => exact array_execOrdCtlWrite hs
  | scrubDone _ => exact array_execScrubDone hs
  | allocWaiterThaw _ _ => exact array_execAllocWaiterThaw hs
  | bufRelease _ => exact array_execBufRelease hs
  | drain _ _ => exact array_execDrain hs
  | patrolStep _ => exact array_execPatrolStep hs
  | refresh _ => exact array_execRefresh hs
  | errorInjectArm _ => exact array_execErrorInjectArm hs
  | intPrstGo _ => exact array_execIntPrstGo hs
  | partitionReset => exact array_execPartitionReset hs
  | partitionResetDone => exact array_execPartitionResetDone hs
  | idleStep _ _ => exact array_execIdleStep hs
  | forcedStep _ _ => exact array_execForcedStep hs
  | testStepDone _ _ _ _ => exact array_execTestStepDone hs
  | coreSwapIn _ _ => exact array_execCoreSwapIn hs
  | tstSwap _ _ => exact array_execTstSwap hs
  | tstPackLoad => exact array_execTstPackLoad hs
  | packLoadDone => exact array_execPackLoadDone hs
  | tstCalveGo _ _ => exact array_execTstCalveGo hs
  | calveRowCopy _ _ => exact array_execCalveRowCopy hs
  | regionRetire _ _ => exact array_execRegionRetire hs
  | repairRecordProgram _ => exact array_execRepairRecordProgram hs
  | ageMeasure _ _ => exact array_execAgeMeasure hs
  | pwrgoodDeassert => exact array_execPwrgoodDeassert hs
  | vaonPowerOn => exact array_execVaonPowerOn hs
  | resetNAssert => exact array_execResetNAssert hs
  | resetNDeassert _ _ => exact array_execResetNDeassert hs
  | pwrRstWarm _ => exact array_execPwrRstWarm hs
  | warmReset => exact array_execWarmReset hs
  | warmDrainDone => exact array_execWarmDrainDone hs
  | drainTmo => exact array_execDrainTmo hs
  | fatalReset _ _ => exact array_execFatalReset hs
  | coldReset => exact array_execColdReset hs
  | domainOn _ _ _ => exact array_execDomainOn hs
  | domainOff _ _ _ => exact array_execDomainOff hs
  | domainDrainEnd => exact array_execDomainDrainEnd hs
  | domainOnDone => exact array_execDomainOnDone hs
  | arrayRestoreDone _ => exact array_execArrayRestoreDone hs
  | arraySweepDone => exact array_execArraySweepDone hs
  | unitPortDisable _ _ => exact array_execUnitPortDisable hs
  | unitPortEnable _ _ => exact array_execUnitPortEnable hs
  | unitRecal _ _ => exact array_execUnitRecal hs
  | unitForceDown _ _ => exact array_execUnitForceDown hs
  | unitFail _ _ => exact array_execUnitFail hs
  | flashDiscovery _ => exact array_execFlashDiscovery hs
  | pllWaitTimeout => exact array_execPllWaitTimeout hs
  | imageReadDone _ => exact array_execImageReadDone hs
  | bootApply => exact array_execBootApply hs
  | supervisorStart => exact array_execSupervisorStart hs
  | uartCharReceived _ _ _ => exact array_execUartCharReceived hs
  | uartIdle => exact array_execUartIdle hs
  | uartBreak => exact array_execUartBreak hs
  | uartCharTransmitted => exact array_execUartCharTransmitted hs
  | uartDataWrite _ => exact array_execUartDataWrite hs
  | uartDataRead => exact array_execUartDataRead hs
  | svetFrameTimeout => exact array_execSvetFrameTimeout hs
  | svetId => exact array_execSvetId hs
  | svetRd _ => exact array_execSvetRd hs
  | svetWr _ _ => exact array_execSvetWr hs
  | svetState _ => exact array_execSvetState hs
  | svetUnit _ _ _ => exact array_execSvetUnit hs
  | svetDom _ _ _ => exact array_execSvetDom hs
  | svetEpoch => exact array_execSvetEpoch hs
  | svetReset _ => exact array_execSvetReset hs
  | svetLog _ => exact array_execSvetLog hs
  | svetLogack _ => exact array_execSvetLogack hs
  | svetCntRead _ _ => exact array_execSvetCntRead hs
  | svetCntReadSnapshot _ _ => exact array_execSvetCntReadSnapshot hs
  | svetCntSnapshot _ _ => exact array_execSvetCntSnapshot hs
  | svetCntReset _ _ => exact array_execSvetCntReset hs
  | svetCntSnapshotReset _ _ => exact array_execSvetCntSnapshotReset hs
  | mbput _ => exact array_execMbput hs
  | mbget => exact array_execMbget hs
  | flrd _ _ => exact array_execFlrd hs
  | fler _ _ _ => exact array_execFler hs
  | flpr _ _ _ => exact array_execFlpr hs
  | svetBoot => exact array_execSvetBoot hs
  | reperase _ _ => exact array_execReperase hs
  | bin => exact array_execBin hs
  | help => exact array_execHelp hs
  | exit => exact array_execExit hs
  | mbOutlenWrite _ => exact array_execMbOutlenWrite hs
  | smbReadId => exact array_execSmbReadId hs
  | smbReadTemp => exact array_execSmbReadTemp hs
  | smbReadPower => exact array_execSmbReadPower hs
  | smbReadStatus => exact array_execSmbReadStatus hs
  | smbReadAlert => exact array_execSmbReadAlert hs
  | smbReadSensor _ => exact array_execSmbReadSensor hs
  | smbStagingOffset _ _ => exact array_execSmbStagingOffset hs
  | smbStageWrite _ _ => exact array_execSmbStageWrite hs
  | smbCommit _ _ => exact array_execSmbCommit hs
  | smbReadOut => exact array_execSmbReadOut hs
  | smbReadMbStatus => exact array_execSmbReadMbStatus hs
  | smbClearOutFull _ => exact array_execSmbClearOutFull hs
  | alertResponse => exact array_execAlertResponse hs
  | smbTimeout => exact array_execSmbTimeout hs
  | cntSnap => exact array_execCntSnap hs
  | cntReset => exact array_execCntReset hs
  | registerWrite r _ _ _ _ => exact array_execRegisterWrite (_r := r) hs
  | vaonLoss => exact array_execVaonLoss
  | mgtCtsNAssert => exact array_execMgtCtsNAssert hs
  | replicaSweepDone _ => exact array_execReplicaSweepDone hs
  | jtagTckEdge _ _ _ _ _ => exact array_execJtagTckEdge hs

theorem array_tick {s : State} (hs : arrayOk s) : arrayOk (tick s) := 
  either (aside_cnt arrayAside (kept_outside arrayStable hs rfl rfl rfl rfl rfl rfl)) hs

/-- Settles O5: an idle step leaves the array, and a step with a command in the queue runs that command. -/
theorem arrayInvariant : Obligations.ArrayInvariant := by
  intro s u hs hstep
  unfold step at hstep
  split at hstep
  · exact keepsArray_next (array_tick hs) u hstep
  next c rest _ =>
    have hrest : arrayOk { s with pending := rest } := kept_outside arrayStable hs rfl rfl rfl rfl rfl rfl
    exact keepsArray_exec hrest c u hstep

end Sys2Proof.Machine
end
